-- ==== Sys2Proof/Word.lean ====
section
/-! DEFINITION. The word types of the Ahnok block and the little-endian reading of bytes.

Values the manual treats as bits (header fields, addresses in headers, bytes of data) are bit vectors.
Dictionary values are natural numbers below 2^(8 * size), as `OD` objects are numbers of a stated width. -/

namespace Sys2Proof

/-- One byte of data (a DRAM symbol, a data byte, a staging byte). -/
abbrev Byte := BitVec 8

/-- A device physical address, R31. -/
abbrev Dpa := BitVec 41

end Sys2Proof
end

