-- ==== Sys2Proof/Syntax.lean ====
section
/-! DEFINITION. The commands and events of the block, one constructor per row of spec/opcode_table.json, with the
operands each takes from outside (a port, header fields, data, a stack, a module, a reading, ...). -/

namespace Sys2Proof

/-- A stack S0–S15 (R31). -/
abbrev StackIx := Fin 16
/-- A fabric port FP0–FP31. -/
abbrev PortIx := Fin 32
/-- A global pseudo-channel index g = stack·64 + pc. -/
abbrev PcIx := Fin 1024
/-- A partition P0–P15. -/
abbrev PartIx := Fin 16
/-- An engine e = stack·4 + engine (R187). -/
abbrev EngIx := Fin 64
/-- A session of the management transports, 0–31 (R270). -/
abbrev SpdmIx := Fin 32

/-- Who accesses the dictionary (R313): firmware, an SPDM session, a requester by ODW, a message with no session, the
debug port. -/
inductive Actor
  | firmware
  | session (n : Nat)
  | requester (r : Nat) (secure : Bool)
  | nobody
  | debug
  deriving DecidableEq, Repr

/-- The header fields every request carries (R54): admitting port, requester, tag, sequence number, label, secure. -/
structure Hdr where
  port : PortIx
  requester : BitVec 12
  tag : BitVec 16
  seq : Option (BitVec 16)
  label : BitVec 6
  secure : Bool
  deriving DecidableEq, Repr

/-- One ADP item (R318): its address part, and a write's value bytes. -/
structure Item where
  index : BitVec 16
  inst : BitVec 16
  sub : BitVec 8
  first : BitVec 16
  count : BitVec 16
  value : List Byte
  deriving DecidableEq, Repr

/-- Where a temperature reading comes from (R293): core die, slice junction sensor, hub junction sensor. -/
inductive SensorSrc
  | coreDie (stack : StackIx) (die : Fin 16)
  | slice (stack : StackIx) (sensor : Fin 4)
  | hub (sensor : Fin 16)
  deriving DecidableEq, Repr

/-- Why the cistern alarms (R291). -/
inductive TamperCause
  | tamperPin | voltage | clockGlitch | temperature
  deriving DecidableEq, Repr

/-- The stack descriptor (R376): whether its CRC checks, height, density, and per pin rate code the timing record in ps
(t_rc .. t_xs in the order of `OD 4000/s`), with t_sppr and t_hppr. -/
structure StackDescriptor where
  crcOk : Bool
  height : Nat
  dieGbit : Nat
  rates : List (Fin 4 × List Nat)
  tSppr : Nat
  tHppr : Nat
  deriving DecidableEq, Repr

/-- A firmware image as a boot read brings it (R374): its bytes, firmware version (major and minor, as fw_version), security
version and signature (r, s). -/
structure Image where
  bytes : List Byte
  fw : BitVec 32
  version : Nat
  sigR : Nat
  sigS : Nat
  deriving DecidableEq, Repr

/-- What a mirror message asks of the standby (R252). -/
inductive MirrorMsg
  | write (dpa : BitVec 41) (data : List Byte) (mask : List Bool) (marked : List Nat) (window : Option (BitVec 12 × BitVec 16 × BitVec 4))
  | dict (index : BitVec 16) (inst : BitVec 12) (sub : BitVec 8) (elem : BitVec 12) (value : Nat)
  | launchRecord (requester : BitVec 12) (seq : BitVec 16) (ended : Bool)
  | key (part : PartIx) (value : BitVec 512)
  | weightKey (slot : Fin 256) (part : PartIx) (value : BitVec 256)
  | copy (stack : StackIx) (off : BitVec 37) (data : List Byte) (marked : List Nat)
  deriving DecidableEq, Repr

/-- The commands and events of the block. -/
inductive Instr
  -- qanat links and pace (chapter 1)
  | flitReceive (stack : StackIx) (module : Fin 8) (hubEnd : Bool) (header : BitVec 32) (payload : List Byte) (crc : BitVec 32)
  | replayLimitRetrain (stack : StackIx) (module : Fin 8) (hubEnd : Bool)
  | moduleRetrainDone (stack : StackIx) (module : Fin 8) (hubEnd : Bool) (failedLanes : Nat) (delivered : Bool)
  | flitDeliveryTimeout (stack : StackIx) (module : Fin 8) (hubEnd : Bool)
  | qanatRetryBudgetExpiry (stack : StackIx)
  | flitIdleTimeout (stack : StackIx) (module : Fin 8) (hubEnd : Bool)
  | sandglassWindow (die : Option StackIx) (tau : BitVec 16)
  | paceQuantizedRefresh
  | sliceSilenceTimeout (stack : StackIx)
  -- fabric ports and requests (chapter 3)
  | requestHeader (port : PortIx) (header : BitVec 128) (parity : BitVec 16)
  | dataBeat (port : PortIx) (data : List Byte) (parity : BitVec 128) (mask : BitVec 128) (psn : BitVec 2) (last : Bool)
  | rd (h : Hdr) (len : BitVec 6) (addr : BitVec 41)
  | wr (h : Hdr) (len : BitVec 6) (addr : BitVec 41) (data : List Byte) (psn : List Bool)
  | wrp (h : Hdr) (len : BitVec 6) (addr : BitVec 41) (data : List Byte) (mask : List Bool) (psn : List Bool)
  | acw (h : Hdr) (len : BitVec 6) (session : BitVec 8) (contributor : BitVec 12) (chunk : BitVec 32) (data : List Byte) (psn : List Bool)
  | fadd64 (h : Hdr) (addr : BitVec 41) (operand : BitVec 64)
  | swap64 (h : Hdr) (addr : BitVec 41) (operand : BitVec 64)
  | cas128 (h : Hdr) (addr : BitVec 41) (compare : BitVec 128) (swap : BitVec 128)
  | launch (h : Hdr) (engine : BitVec 4) (prog : BitVec 7) (stack : StackIx) (regs : List (BitVec 64)) (descs : List (BitVec 256))
  | odwRead (h : Hdr) (index : BitVec 16) (inst : BitVec 12) (sub : BitVec 8) (first : BitVec 16) (count : BitVec 16)
  | odwWrite (h : Hdr) (index : BitVec 16) (inst : BitVec 12) (sub : BitVec 8) (first : BitVec 16) (count : BitVec 16) (value : List Byte)
  | birsp (h : Hdr) (kind : BitVec 4) (addr : BitVec 41)
  | deniedDue (port : PortIx)
  | deferredRelease (port : PortIx)
  | heldIngressAdmit (port : PortIx)
  | egressPick (port : PortIx)
  | responseLastBeat (port : PortIx)
  | reqStateActive (who : Actor) (requester : BitVec 12)
  | reqStateReset (who : Actor) (requester : BitVec 12)
  | reqStateDead (who : Actor) (requester : BitVec 12)
  | reqStateAbsent (who : Actor) (requester : BitVec 12)
  | requestTimeout (uid : Nat)
  | cancel (tracker : BitVec 16)
  | sliceInput (stack : StackIx)
  -- channel scheduling (chapter 4)
  | queueEntryAdmit (g : PcIx)
  | columnPick (g : PcIx)
  | activatePick (g : PcIx)
  | columnData (g : PcIx) (flips : List (Fin 36 × Byte))
  | refreshDue (g : PcIx)
  | rfmIssue (g : PcIx)
  | refreshSlotEnd (g : PcIx)
  | refreshMultiplierChange (stack : StackIx)
  | refreshWindowEnd (stack : StackIx)
  | throttleExpiry (g : PcIx)
  | pauseIdleGap (g : PcIx)
  | pauseForced (g : PcIx)
  | pauseEnd (g : PcIx)
  | thermalLevelChange (stack : StackIx)
  | rateSwitch (stack : StackIx)
  | rateSwitchDone (stack : StackIx)
  | coldHoldExit (stack : StackIx)
  | trainingAttemptDone (g : PcIx) (failedLanes : List (Fin 38)) (taps : List (BitVec 6)) (cl : BitVec 32)
  | zeroFillDone (g : PcIx)
  -- arbitration and service (chapter 5)
  | arbiterPick (stack : StackIx)
  | grantStart (stack : StackIx)
  | burstCutoff (stack : StackIx)
  | dispatchCreditReturn (g : PcIx) (c0 : Bool)
  | quotaWindowEnd (stack : StackIx)
  | frameSlotStart (stack : StackIx)
  | missPeriodEnd (stack : StackIx)
  | serviceModeWriteNormal (who : Actor)
  | serviceModeWriteTest (who : Actor)
  | svcStartupExpiry
  | recoveryDone
  | regulatorWindow (requester : BitVec 12)
  -- check codes and repair (chapter 6)
  | wcbEvict (stack : StackIx) (sector : BitVec 29)
  | wcbHoldExpiry (stack : StackIx) (sector : BitVec 29)
  | rmwMerge (stack : StackIx) (sector : BitVec 29)
  | writeSplit (who : Actor)
  | readRaw (who : Actor)
  | readDecoded (who : Actor)
  | testEnd (who : Actor)
  | ceHistoryExpiry (g : PcIx)
  | scrubRead (stack : StackIx) (flips : List (Fin 36 × Byte)) (again : List (Fin 36 × Byte))
  | rebuildRow (g : PcIx)
  | sppr (g : PcIx) (bank : Fin 64) (row : BitVec 15) (ok : Bool)
  | hppr (g : PcIx) (ok : Bool)
  | retirePage (who : Actor) (dpa : BitVec 64)
  | retireClear (who : Actor) (stack : BitVec 8)
  -- coherence directory (chapter 7)
  | directoryLookup (stack : StackIx)
  | snoopTimeout (id : BitVec 16)
  | directorySweep (stack : StackIx)
  | acceptAll (who : Actor) (part : PartIx)
  -- caravan programs and engines (chapter 8)
  | progBegin (who : Actor) (prog : Fin 128)
  | commit (who : Actor) (prog : Fin 128)
  | delete (who : Actor) (prog : Fin 128)
  | progStepWrite (who : Actor) (prog : Fin 128) (word : BitVec 128)
  | programCopyRepair (stack : StackIx) (prog : Fin 128)
  | launchQueue (stack : StackIx)
  | launchStart (e : EngIx)
  | move (e : EngIx)
  | gather (e : EngIx)
  | scatter (e : EngIx)
  | convert (e : EngIx)
  | reduce (e : EngIx)
  | accum (e : EngIx)
  | fill (e : EngIx)
  | digest (e : EngIx)
  | delta (e : EngIx)
  | packz (e : EngIx)
  | tile (e : EngIx)
  | axpby (e : EngIx)
  | moment (e : EngIx)
  | ingest (e : EngIx)
  | seti (e : EngIx)
  | addi (e : EngIx)
  | loop (e : EngIx)
  | waitFlag (e : EngIx)
  | waitPush (e : EngIx)
  | waitChunk (e : EngIx)
  | waitEnd (e : EngIx)
  | waitTimeout (e : EngIx)
  | signalFlag (e : EngIx)
  | signalNotice (e : EngIx)
  | fence (e : EngIx)
  | endStep (e : EngIx)
  | runtimeLimit (e : EngIx)
  | abortRunning (who : Actor) (e : EngIx)
  | abortAll (who : Actor) (e : EngIx)
  | descriptorDeadline (e : EngIx) (desc : Fin 4)
  -- reductions (chapter 10)
  | openSession (who : Actor) (session : Fin 256)
  | abort (who : Actor) (session : Fin 256)
  | close (who : Actor) (session : Fin 256)
  | exclude (who : Actor) (session : Fin 256)
  | rearm (who : Actor) (session : Fin 256)
  | sessionPrepared (session : Fin 256)
  | contribution (stack : StackIx)
  | mapEntryWrite (session : Fin 256) (chunk : BitVec 32)
  | stragglerExpiry (session : Fin 256) (chunk : BitVec 32)
  -- stack parity, cascades and pairs (chapter 11)
  | writeIntent (stack : StackIx)
  | parityDelta (stack : StackIx)
  | settleNotice (stack : StackIx)
  | degradeDrainEnd (stack : StackIx)
  | degradeComplete (stack : StackIx)
  | degradedRead (stack : StackIx)
  | spanFlitReceive (port : Fin 2) (header : BitVec 32) (payload : List Byte) (crc : BitVec 32) (tagOk : Bool)
  | spanIdleRetrain (port : Fin 2)
  | spanDown (port : Fin 2)
  | sp0Trained (peerFw : BitVec 32) (peerDigest : BitVec 384) (peerTime : BitVec 64) (latencyNs : BitVec 32)
  | spanTrainTimeout
  | heartbeatSend
  | heartbeatReceive (port : Fin 2) (peerState : BitVec 8) (peerEpoch : BitVec 32) (offset : Int) (accepted : Nat)
  | peerLost
  | fenceFlit
  | leaseGrant (who : Actor) (value : BitVec 128)
  | leaseRenew
  | leaseExpiry
  | pairEpochWrite (who : Actor) (epoch : BitVec 32)
  | form (who : Actor)
  | rejoin (who : Actor)
  | relinquish (who : Actor)
  | pairSessionUp (peerKeyDigest : BitVec 384) (peerFw : BitVec 32) (peerDigest : BitVec 384)
  | pairLinkTimeout
  | takeover
  | mirrorMessage (m : MirrorMsg)
  | mirrorAccepted (seqNo : Nat)
  | mirrorDigestCompare (peer : BitVec 384)
  | resyncSector
  -- partitions (chapters 2 and 12)
  | create (who : Actor) (part : PartIx)
  | grow (who : Actor) (part : PartIx)
  | release (who : Actor) (part : PartIx)
  | partitionDrainDone (part : PartIx)
  | partitionFillDone (part : PartIx)
  | growFillDone (part : PartIx)
  | keyInstall (who : Actor) (part : PartIx) (key : BitVec 512)
  | scrubHwmStep (part : PartIx)
  | scrubVerify (part : PartIx) (failing : List StackIx)
  | scrubResume (part : PartIx)
  -- life cycle, SPDM, IDE_KM, TDISP, keys (chapter 12)
  | provision (who : Actor)
  | deploy (who : Actor)
  | returnLc (who : Actor)
  | scrap (who : Actor)
  | getVersion (s : Option SpdmIx)
  | getCapabilities (s : Option SpdmIx)
  | negotiateAlgorithms (s : Option SpdmIx) (baseAsym : BitVec 32) (baseHash : BitVec 32)
  | getDigests (s : Option SpdmIx)
  | getCertificate (s : Option SpdmIx) (slot : BitVec 4) (offset : BitVec 16) (length : BitVec 16)
  | challenge (s : Option SpdmIx) (slot : BitVec 4) (nonce : BitVec 256)
  | getMeasurements (s : Option SpdmIx) (index : BitVec 8)
  | keyExchange (peerKey : List Byte) (heartbeatMs : BitVec 16)
  | finish (s : SpdmIx) (verified : Bool)
  | heartbeat (s : SpdmIx)
  | keyUpdate (s : SpdmIx)
  | endSession (s : SpdmIx)
  | spdmUnsupportedRequest (s : Option SpdmIx) (code : BitVec 8)
  | spdmSessionTimeout (s : SpdmIx)
  | query (s : SpdmIx)
  | keyProg (s : SpdmIx) (stream : BitVec 8) (keySet : BitVec 2) (dirSub : BitVec 2) (key : BitVec 256)
  | kSetGo (s : SpdmIx) (stream : BitVec 8) (keySet : BitVec 2)
  | kSetStop (s : SpdmIx) (stream : BitVec 8) (keySet : BitVec 2)
  | getTdispVersion (s : SpdmIx)
  | getTdispCapabilities (s : SpdmIx)
  | lockInterfaceRequest (s : SpdmIx) (requester : BitVec 12) (part : PartIx)
  | getDeviceInterfaceReport (s : SpdmIx) (requester : BitVec 12) (part : PartIx)
  | getDeviceInterfaceState (s : SpdmIx) (requester : BitVec 12) (part : PartIx)
  | startInterfaceRequest (s : SpdmIx) (requester : BitVec 12) (part : PartIx)
  | stopInterfaceRequest (s : SpdmIx) (requester : BitVec 12) (part : PartIx)
  | wkKeyWrite (who : Actor) (slot : Fin 256) (key : BitVec 256)
  | destroy (who : Actor) (slot : Fin 256)
  | secConsentDebugWrite (who : Actor) (part : PartIx)
  | tamperAlarm (cause : TamperCause)
  | tamperAck (who : Actor)
  -- heat, power, calibration (chapter 13)
  | sensorReading (src : SensorSrc) (reading : Option Int)
  | levelDwellExpiry (stack : StackIx)
  | throtReqChange (value : Fin 4)
  | coldHoldWait (stack : StackIx)
  | powerEstimate (hubMw : BitVec 32) (stackMw : List (BitVec 32))
  | centeringWindow (g : PcIx) (lane : Fin 38) (dPlus : Nat) (dMinus : Nat)
  | calIntervalExpiry (g : PcIx)
  | calibrationRun (g : PcIx) (caPassed : Bool) (badWriteLanes : List (Fin 38))
  -- dictionary protocol (chapter 14)
  | read (s : Option SpdmIx) (reqId : BitVec 16) (items : List Item)
  | write (s : Option SpdmIx) (reqId : BitVec 16) (item : Item)
  | multiWrite (s : Option SpdmIx) (reqId : BitVec 16) (items : List Item)
  | peek (s : Option SpdmIx) (reqId : BitVec 16) (items : List Item)
  | subscribe (s : SpdmIx) (reqId : BitVec 16) (item : Item)
  | unsubscribe (s : SpdmIx) (reqId : BitVec 16) (item : Item)
  | notify (slot : Fin 256)
  | refusalResponseDue
  | registerWrite (who : Actor) (index : BitVec 16) (inst : BitVec 12) (sub : BitVec 8) (elem : BitVec 12) (value : Nat)
  | loadDone (who : Actor)
  -- mailboxes (chapter 15); `h = none` is a steward core, which alone reaches the semaphores
  | queueWrite (h : Option Hdr) (channel : Fin 64) (words : List (BitVec 64))
  | queueRead (h : Option Hdr) (channel : Fin 64) (n : Fin 17)
  | statusRead (h : Option Hdr) (channel : Fin 64)
  | lockRead (h : Option Hdr) (core : Fin 2) (semaphore : Bool) (channel : Fin 64)
  | lockWrite (h : Option Hdr) (core : Fin 2) (semaphore : Bool) (channel : Fin 64) (value : BitVec 64)
  | mailboxTimeout (channel : Fin 64) (fromB : Bool)
  | lockStall (semaphore : Bool) (index : Fin 64)
  | mbBindingLockWrite
  | routeBucketRefill (route : Fin 32)
  | routeAck (who : Actor) (route : Fin 32)
  | wmRearm (who : Actor) (w : Fin 1280)
  | wmClear (who : Actor) (w : Fin 1280)
  -- counters and sampling (chapter 16)
  | fixClear (who : Actor) (g : PcIx)
  | selSourceWrite (who : Actor) (n : Fin 256) (source : BitVec 16) (inst : BitVec 16)
  | selClear (who : Actor) (n : Fin 256)
  | freeze (who : Actor)
  | unfreeze (who : Actor)
  | snapshot (who : Actor)
  | counterCommandInstant
  | smpSeedWrite (who : Actor) (seed : BitVec 32)
  | coarseValueRefresh
  -- start-up, reset, debug (chapter 17)
  | pwrokRise
  | pwrokFall
  | hubRstAssert
  | hubRstRelease (modeStraps : BitVec 32)
  | sliceRstAssert (stack : StackIx)
  | sliceRstRelease (stack : StackIx)
  | bootReadAnswer (slice : Bool) (slotB : Bool) (image : Image)
  | fetchTimeout (slice : Bool) (slotB : Bool)
  | stewardRelease
  | portRelease
  | portReset (who : Actor) (port : PortIx)
  | portIdleUp (port : PortIx)
  | extest
  | samplePreload
  | idcode
  | dbgUnlock (pubX : Nat) (pubY : Nat) (sigR : Nat) (sigS : Nat)
  | dictPeek (address : BitVec 64)
  | wirSelect (stack : StackIx)
  | stewardHalt (core : Fin 2)
  | stewardResume (core : Fin 2)
  | bypass (code : BitVec 8)
  | tapReset
  | khAck (status : BitVec 2)
  | keyHandoffTimeout
  | qanatTrainingDone (stack : StackIx) (modules : List (Option (Fin 16 × Fin 8)))
  | stackDescriptorRead (stack : StackIx) (descriptor : StackDescriptor)
  | spanRetrainDone (port : Fin 2) (delivered : Bool)
  | powerTempCoarseRefresh
  deriving DecidableEq, Repr

end Sys2Proof
end

