-- ==== Sys2Proof/Machine/Flags.lean ====
section
/-! DEFINITION. Check bits and codes: byte parity (R53), CRC-32C of a flit (R15), response status codes (R55). -/

namespace Sys2Proof.Machine

/-- The parity bit of a byte: the exclusive or of its bits (the sense is a DESIGN CHOICE, log entry 7). -/
def parityBit (b : Byte) : Bool := (List.range 8).foldl (fun p i => p ^^ b.getLsbD i) false

/-- Byte i of a bit vector, bits 8i+7..8i. -/
def byteOf {w : Nat} (v : BitVec w) (i : Nat) : Byte := v.extractLsb' (8 * i) 8

/-- The first `n` bytes of a bit vector, byte 0 first. -/
def bytesOf {w : Nat} (v : BitVec w) (n : Nat) : List Byte := (List.range n).map (byteOf v)

/-- The bytes of a number, least significant first. -/
def natBytes (v n : Nat) : List Byte := (List.range n).map (fun i => BitVec.ofNat 8 (v / 2 ^ (8 * i)))

/-- The number that bytes spell, least significant first. -/
def bytesNat (l : List Byte) : Nat := l.foldr (fun b a => a * 256 + b.toNat) 0

/-- The number that bytes spell, most significant first. -/
def bytesNatBE (l : List Byte) : Nat := l.foldl (fun a b => a * 256 + b.toNat) 0

/-- The bytes of a number, most significant first. -/
def natBytesBE (v n : Nat) : List Byte := (natBytes v n).reverse

/-- Does FP_QH_PAR bit i agree with byte i of the header (R53). -/
def headerParityOk (header : BitVec 128) (parity : BitVec 16) (i : Nat) : Bool :=
  parity.getLsbD i == parityBit (byteOf header i)

/-- Do the parity bits of a data beat agree with its bytes (R53). -/
def beatParityOk (data : List Byte) (parity : BitVec 128) : Bool :=
  (List.range 128).all (fun i => parity.getLsbD i == parityBit (data.getD i 0))

/-- One byte of CRC-32C, reflected form of polynomial 1EDC6F41h (R15; PRESUMED standard form, log entry 8). -/
def crcByte (c : BitVec 32) (b : Byte) : BitVec 32 :=
  (List.range 8).foldl (fun c _ => if c.getLsbD 0 then (c >>> 1) ^^^ 0x82f63b78#32 else c >>> 1) (c ^^^ b.setWidth 32)

/-- CRC-32C over bytes. -/
def crc32c (l : List Byte) : BitVec 32 := ~~~ (l.foldl crcByte 0xffffffff#32)

/-! Response status (R55). -/
def St.ok : Nat := 0
def St.poison : Nat := 1
def St.denied : Nat := 2
def St.unmapped : Nat := 3
def St.fenced : Nat := 4
def St.timeout : Nat := 5
def St.duplicate : Nat := 6
def St.full : Nat := 7
def St.aborted : Nat := 8
def St.clamped : Nat := 9
def St.malformed : Nat := 10
def St.unavailable : Nat := 11

end Sys2Proof.Machine
end

