-- ==== Sys2Proof/Machine/Gf.lean ====
section
/-! DEFINITION. GF(2^8) arithmetic and the column code RS(36,32) of chapter 6 (R118 to R120). -/

namespace Sys2Proof.Machine

/-- Multiply in GF(2^8); `poly` is the low byte of the field polynomial. -/
def gfMul (poly a b : Byte) : Byte :=
  (List.range 8).foldl (fun acc i =>
    let dbl := (acc <<< 1) ^^^ (if acc.getLsbD 7 then poly else 0)
    if b.getLsbD (7 - i) then dbl ^^^ a else dbl) 0

/-- Multiply in the code's field, x^8 + x^4 + x^3 + x^2 + 1 (R118). -/
def rsMul (a b : Byte) : Byte := gfMul 0x1d a b

/-- Powers in a field. -/
def gfPow (poly a : Byte) : Nat → Byte
  | 0 => 1
  | n + 1 => gfMul poly a (gfPow poly a n)

/-- Inverse: a^254 (0 for 0), by repeated squaring. -/
def gfInv (poly a : Byte) : Byte :=
  let sq (x : Byte) := gfMul poly x x
  ((List.range 7).foldl (fun (s : Byte × Byte) _ => let q := sq s.1; (q, gfMul poly s.2 q)) (a, 1)).2

/-- The locator of position i: α^(35 − i) (R118). -/
def rsLocator (i : Nat) : Byte := gfPow 0x1d 2 (35 - i)

/-- The four syndromes of a 36-symbol word: c(α^j), j = 0 to 3. -/
def rsSyndromes (word : List Byte) : List Byte :=
  (List.range 4).map (fun j => word.foldl (fun acc s => rsMul acc (gfPow 0x1d 2 j) ^^^ s) 0)

/-- Values at the given locators whose syndromes are `s`, if there are any. -/
def rsSolve : List Byte → List Byte → Option (List Byte)
  | [], s => if s.all (fun x => decide (x = 0)) then some [] else none
  | x :: xs, s =>
    let s' := (s.zip s.tail).map (fun p => p.2 ^^^ rsMul x p.1)
    match rsSolve xs s' with
    | none => none
    | some ws =>
      let vs := (xs.zip ws).map (fun p => rsMul p.2 (gfInv 0x1d (p.1 ^^^ x)))
      some (vs.foldl (fun a v => a ^^^ v) (s.headD 0) :: vs)

/-- The check symbols of 32 data symbols. -/
def rsEncode (data : List Byte) : List Byte :=
  let s := rsSyndromes (data.take 32 ++ List.replicate 4 0)
  (rsSolve ((List.range 4).map (fun k => rsLocator (32 + k))) s).getD [0, 0, 0, 0]

/-- The 36-symbol code word of a 32 B column. -/
def rsWord (data : List Byte) : List Byte := data.take 32 ++ rsEncode data

/-- The fixed pattern of the poison mark, positions 32 to 35 (R120). -/
def poisonPattern : List Byte := List.replicate 32 0 ++ [0x6b, 0x9d, 0xe2, 0x31]

/-- XOR of two byte strings. -/
def xorBytes (a b : List Byte) : List Byte := (a.zip b).map (fun p => p.1 ^^^ p.2)

/-- A column marked poisoned (R120). -/
def rsPoisoned (data : List Byte) : List Byte := xorBytes (rsWord data) poisonPattern

/-- The sets of `e` positions, rising, outside `era`. -/
def positionSets (era : List Nat) : Nat → Nat → List (List Nat)
  | 0, _ => [[]]
  | e + 1, lo =>
    ((List.range 36).filter (fun i => decide (lo ≤ i) && !era.contains i)).flatMap
      (fun i => (positionSets era e (i + 1)).map (fun t => i :: t))

/-- The corrections (position, value) that turn a word with these syndromes into a code word, errors at up to `e`
positions beside the erased ones. -/
def rsCorrect (era : List Nat) (e : Nat) (s : List Byte) : Option (List (Nat × Byte)) :=
  (List.range (e + 1)).findSome? (fun k => (positionSets era k 0).findSome? (fun t =>
    let ps := era ++ t
    (rsSolve (ps.map rsLocator) s).map (fun vs => ps.zip vs)))

/-- The decoder's outcomes (R119), coded as test_result (R126). -/
inductive Decoded
  | clean | corrected | poisoned | uncorrectable
  deriving DecidableEq, Repr

/-- The data symbols of a word after corrections (position, value). -/
def rsFixed (word : List Byte) (fixes : List (Nat × Byte)) : List Byte :=
  (List.range 32).map (fun i => word.getD i 0 ^^^ (((fixes.find? (fun p => p.1 == i)).map (fun p => p.2)).getD 0))

/-- The decoder (R119, R120): outcome, the 32 data symbols, and the positions it changed. `era`: the failed, unspared
positions, at most two. -/
def rsDecode (era : List Nat) (word : List Byte) : Decoded × List Byte × List Nat :=
  let s := rsSyndromes word
  let f := era.length
  if s.all (fun x => decide (x = 0)) then (.clean, word.take 32, [])
  else match (if f ≤ 2 then rsCorrect era ((4 - f) / 2) s else none) with
    | some fixes =>
      let fixes := fixes.filter (fun p => decide (p.2 ≠ 0))
      (.corrected, rsFixed word fixes, fixes.map (fun p => p.1))
    | none =>
      let unmarked := xorBytes word poisonPattern
      match (if f ≤ 2 then rsCorrect era (if f = 2 then 0 else 1) (rsSyndromes unmarked) else none) with
      | some fixes => (.poisoned, rsFixed word fixes, [])
      | none => (.uncorrectable, word.take 32, [])

end Sys2Proof.Machine
end

