-- ==== Sys2Proof/Machine/Crypto.lean ====
section
/-! DEFINITION. The named algorithms the security rules use: AES-256, XTS, GCM, SHA-384, HMAC-SHA-384 and ECDSA P-384
verification (R267, R274, R283, R374, R387), as their public standards define them (PRESUMED, log entry 9). -/

namespace Sys2Proof.Machine

/-! ### AES-256 -/

/-- Multiply in the AES field. -/
def aesMul (a b : Byte) : Byte := gfMul 0x1b a b

/-- The AES S-box: inversion, then the affine map. -/
def aesSub (a : Byte) : Byte :=
  let x := gfInv 0x1b a
  x ^^^ x.rotateLeft 1 ^^^ x.rotateLeft 2 ^^^ x.rotateLeft 3 ^^^ x.rotateLeft 4 ^^^ 0x63

/-- The inverse S-box. -/
def aesUnsub (a : Byte) : Byte := gfInv 0x1b (a.rotateLeft 1 ^^^ a.rotateLeft 3 ^^^ a.rotateLeft 6 ^^^ 0x05)

/-- The words of the key schedule after the first eight, newest first: `n` more, word number `i`. -/
def aesExpand : Nat → Nat → Byte → List (List Byte) → List (List Byte)
  | 0, _, _, ws => ws
  | n + 1, i, rcon, ws =>
    let prev := ws.headD []
    let back := ws.getD 7 []
    let t :=
      if i % 8 = 0 then xorBytes ((prev.rotateLeft 1).map aesSub) [rcon, 0, 0, 0]
      else if i % 8 = 4 then prev.map aesSub
      else prev
    aesExpand n (i + 1) (if i % 8 = 0 then aesMul rcon 2 else rcon) (xorBytes back t :: ws)

/-- Split bytes into groups of `n`, at most `fuel` of them. -/
def chunks {α : Type} (n : Nat) : Nat → List α → List (List α)
  | 0, _ => []
  | fuel + 1, l => if l.isEmpty then [] else l.take n :: chunks n fuel (l.drop n)

/-- The 15 round keys of a 32-byte key. -/
def aesRoundKeys (key : List Byte) : List (List Byte) :=
  let ws := (aesExpand 52 8 1 (chunks 4 8 key).reverse).reverse
  chunks 16 15 ws.flatten

/-- ShiftRows on a 16-byte state held column by column. -/
def aesShift (s : List Byte) : List Byte := (List.range 16).map (fun i => s.getD ((i + 4 * (i % 4)) % 16) 0)

/-- The inverse of ShiftRows. -/
def aesUnshift (s : List Byte) : List Byte := (List.range 16).map (fun i => s.getD ((i + 12 * (i % 4)) % 16) 0)

/-- MixColumns with the circulant of `m`. -/
def aesMix (m : List Byte) (s : List Byte) : List Byte :=
  (List.range 16).map (fun i => (List.range 4).foldl (fun a j =>
    a ^^^ aesMul (m.getD ((j + 4 - i % 4) % 4) 0) (s.getD (4 * (i / 4) + j) 0)) 0)

/-- Encrypt one 16-byte block under expanded round keys. -/
def aesEnc (rks : List (List Byte)) (block : List Byte) : List Byte :=
  let s := xorBytes block (rks.headD [])
  let s := (List.range 13).foldl (fun s r =>
    xorBytes (aesMix [2, 3, 1, 1] (aesShift (s.map aesSub))) (rks.getD (r + 1) [])) s
  xorBytes (aesShift (s.map aesSub)) (rks.getD 14 [])

/-- Decrypt one 16-byte block. -/
def aesDec (rks : List (List Byte)) (block : List Byte) : List Byte :=
  let s := (aesUnshift (xorBytes block (rks.getD 14 []))).map aesUnsub
  let s := (List.range 13).foldl (fun s r =>
    (aesUnshift (aesMix [14, 11, 13, 9] (xorBytes s (rks.getD (13 - r) [])))).map aesUnsub) s
  xorBytes s (rks.headD [])

/-! ### XTS -/

/-- Multiply a tweak by α in GF(2^128), bytes least significant first. -/
def xtsDouble (t : List Byte) : List Byte :=
  let v := bytesNat t
  let d := v * 2 % 2 ^ 128
  natBytes (if 2 ^ 127 ≤ v then d ^^^ 0x87 else d) 16

/-- The XTS passes over 16-byte blocks, `f` the block operation. -/
def xtsRun (f : List Byte → List Byte) : List (List Byte) → List Byte → List Byte
  | [], _ => []
  | b :: bs, t => xorBytes (f (xorBytes b t)) t ++ xtsRun f bs (xtsDouble t)

/-- XTS-AES-256 of a 32 B column under (K1, K2) with a 128-bit tweak value. -/
def xtsEnc (k1 k2 : List Byte) (tweak : Nat) (data : List Byte) : List Byte :=
  xtsRun (aesEnc (aesRoundKeys k1)) (chunks 16 (data.length / 16 + 1) data)
    (aesEnc (aesRoundKeys k2) (natBytes tweak 16))

/-- The inverse of `xtsEnc`. -/
def xtsDec (k1 k2 : List Byte) (tweak : Nat) (data : List Byte) : List Byte :=
  xtsRun (aesDec (aesRoundKeys k1)) (chunks 16 (data.length / 16 + 1) data)
    (aesEnc (aesRoundKeys k2) (natBytes tweak 16))

/-! ### GCM -/

/-- Multiply in the GHASH field; numbers are blocks read most significant byte first. -/
def ghashMul (x y : Nat) : Nat :=
  ((List.range 128).foldl (fun (s : Nat × Nat) i =>
    let z := if x.testBit (127 - i) then s.1 ^^^ s.2 else s.1
    let v := if s.2.testBit 0 then (s.2 / 2) ^^^ (0xe1 * 2 ^ 120) else s.2 / 2
    (z, v)) (0, y)).1

/-- GHASH of whole blocks. -/
def ghash (hKey : Nat) (blocks : List (List Byte)) : Nat :=
  blocks.foldl (fun y b => ghashMul (y ^^^ bytesNatBE (b ++ List.replicate (16 - b.length) 0)) hKey) 0

/-- The key stream of AES-256-CTR from counter block `iv ‖ c`, `n` blocks. -/
def ctrStream (rks : List (List Byte)) (iv : List Byte) : Nat → Nat → List Byte
  | 0, _ => []
  | n + 1, c => aesEnc rks (iv ++ natBytesBE c 4) ++ ctrStream rks iv n (c + 1)

/-- AES-256-GCM decryption of text under a 12-byte IV with additional data: plaintext and tag. -/
def gcmDec (key iv aad text : List Byte) : List Byte × List Byte :=
  let rks := aesRoundKeys key
  let hKey := bytesNatBE (aesEnc rks (List.replicate 16 0))
  let blocks (l : List Byte) := chunks 16 (l.length / 16 + 1) l
  let lens := natBytesBE (aad.length * 8) 8 ++ natBytesBE (text.length * 8) 8
  let s := natBytesBE (ghash hKey (blocks aad ++ blocks text ++ [lens])) 16
  (xorBytes text (ctrStream rks iv (text.length / 16 + 1) 2), xorBytes s (aesEnc rks (iv ++ natBytesBE 1 4)))

/-! ### SHA-384 and HMAC -/

/-- The largest r below 2^n with p r, p downward closed. -/
def searchDown (p : Nat → Bool) : Nat → Nat → Nat
  | 0, r => r
  | n + 1, r => searchDown p n (if p (r + 2 ^ n) then r + 2 ^ n else r)

/-- The first `n` primes. -/
def primes (n : Nat) : List Nat :=
  ((List.range 420).filter (fun k => decide (2 ≤ k) && (List.range k).all (fun d => decide (d < 2) || decide (k % d ≠ 0)))).take n

/-- The round constants: 64 fraction bits of the cube roots of the first 80 primes. -/
def shaK : List (BitVec 64) :=
  (primes 80).map (fun p => BitVec.ofNat 64 (searchDown (fun r => decide (r * r * r ≤ p * 2 ^ 192)) 68 0))

/-- The initial state of SHA-384: 64 fraction bits of the square roots of the ninth to sixteenth primes. -/
def shaInit : List (BitVec 64) :=
  ((primes 16).drop 8).map (fun p => BitVec.ofNat 64 (searchDown (fun r => decide (r * r ≤ p * 2 ^ 128)) 68 0))

/-- The message schedule, newest first, extended by `n` words. -/
def shaSchedule : Nat → List (BitVec 64) → List (BitVec 64)
  | 0, w => w
  | n + 1, w =>
    let s0 (x : BitVec 64) := x.rotateRight 1 ^^^ x.rotateRight 8 ^^^ (x >>> 7)
    let s1 (x : BitVec 64) := x.rotateRight 19 ^^^ x.rotateRight 61 ^^^ (x >>> 6)
    shaSchedule n ((s1 (w.getD 1 0) + w.getD 6 0 + s0 (w.getD 14 0) + w.getD 15 0) :: w)

/-- One round on the working variables a to h. -/
def shaRound (v : List (BitVec 64)) (kw : BitVec 64) : List (BitVec 64) :=
  let a := v.getD 0 0
  let e := v.getD 4 0
  let big1 := e.rotateRight 14 ^^^ e.rotateRight 18 ^^^ e.rotateRight 41
  let ch := (e &&& v.getD 5 0) ^^^ (~~~ e &&& v.getD 6 0)
  let t1 := v.getD 7 0 + big1 + ch + kw
  let big0 := a.rotateRight 28 ^^^ a.rotateRight 34 ^^^ a.rotateRight 39
  let maj := (a &&& v.getD 1 0) ^^^ (a &&& v.getD 2 0) ^^^ (v.getD 1 0 &&& v.getD 2 0)
  [t1 + big0 + maj, a, v.getD 1 0, v.getD 2 0, v.getD 3 0 + t1, e, v.getD 5 0, v.getD 6 0]

/-- The digest of a byte string. -/
def sha384 (msg : List Byte) : List Byte :=
  let pad := List.replicate ((239 - msg.length % 128) % 128) (0 : Byte)
  let padded := msg ++ [0x80] ++ pad ++ natBytesBE (msg.length * 8) 16
  let ks := shaK
  let out := (chunks 128 (padded.length / 128) padded).foldl (fun st blk =>
    let w0 := (chunks 8 16 blk).map (fun b => BitVec.ofNat 64 (bytesNatBE b))
    let w := (shaSchedule 64 w0.reverse).reverse
    let v := ((ks.zip w).map (fun p => p.1 + p.2)).foldl shaRound st
    (st.zip v).map (fun p => p.1 + p.2)) shaInit
  (out.take 6).flatMap (fun x => natBytesBE x.toNat 8)

/-- The digest as a number of 384 bits whose byte i (bits 8i+7..8i) is byte i of the digest, as OCTETS(48) holds it. -/
def sha384Nat (msg : List Byte) : Nat := bytesNat (sha384 msg)

/-- HMAC-SHA-384. -/
def hmac384 (key msg : List Byte) : List Byte :=
  let k := if 128 < key.length then sha384 key else key
  let k := k ++ List.replicate (128 - k.length) 0
  sha384 (k.map (fun b => b ^^^ 0x5c) ++ sha384 (k.map (fun b => b ^^^ 0x36) ++ msg))

/-! ### ECDSA P-384 verification -/

/-- The field prime, the group order, b and the base point. -/
def p384p : Nat := 2 ^ 384 - 2 ^ 128 - 2 ^ 96 + 2 ^ 32 - 1
def p384n : Nat := 0xffffffffffffffffffffffffffffffffffffffffffffffffc7634d81f4372ddf581a0db248b0a77aecec196accc52973
def p384b : Nat := 0xb3312fa7e23ee7e4988e056be3f82d19181d9c6efe8141120314088f5013875ac656398d8a2ed19d2a85c8edd3ec2aef
def p384gx : Nat := 0xaa87ca22be8b05378eb1c71ef320ad746e1d3b628ba79b9859f741e082542a385502f25dbf55296c3a545e3872760ab7
def p384gy : Nat := 0x3617de4a96262c6f5d9e98bf9292dc29f8f41dbd289a147ce9da3113b5f0b8c00a60b1ce1d7e819d7a431d7c90ea0e5f

/-- b^e mod m by the 384 bits of e. -/
def modPow (b e m : Nat) : Nat :=
  (List.range 384).foldl (fun acc i => let sq := acc * acc % m; if e.testBit (383 - i) then sq * b % m else sq) 1

/-- Sum of two points of the curve; `none` is the point at infinity. -/
def ecAdd (a b : Option (Nat × Nat)) : Option (Nat × Nat) :=
  match a, b with
  | none, q => q
  | q, none => q
  | some (x1, y1), some (x2, y2) =>
    let m := p384p
    if x1 = x2 ∧ (y1 + y2) % m = 0 then none
    else
      let num := if x1 = x2 then 3 * x1 * x1 + (m - 3) else y2 + m - y1
      let den := if x1 = x2 then 2 * y1 else x2 + m - x1
      let l := num * modPow (den % m) (m - 2) m % m
      let x3 := (l * l + 2 * m - x1 - x2) % m
      some (x3, (l * (x1 + m - x3) + m - y1) % m)

/-- k times a point. -/
def ecMul (k : Nat) (q : Option (Nat × Nat)) : Option (Nat × Nat) :=
  (List.range 384).foldl (fun acc i => let d := ecAdd acc acc; if k.testBit (383 - i) then ecAdd d q else d) none

/-- Does (r, s) verify over the SHA-384 digest (as bytes) under the public key (x, y). -/
def ecdsaVerify (x y r s : Nat) (digest : List Byte) : Bool :=
  let onCurve := decide (x < p384p ∧ y < p384p ∧ y * y % p384p = (x * x * x + (p384p - 3) * x + p384b) % p384p)
  let inRange := decide (0 < r ∧ r < p384n ∧ 0 < s ∧ s < p384n)
  if onCurve && inRange then
    let w := modPow s (p384n - 2) p384n
    let z := bytesNatBE digest
    match ecAdd (ecMul (z * w % p384n) (some (p384gx, p384gy))) (ecMul (r * w % p384n) (some (x, y))) with
    | none => false
    | some (px, _) => decide (px % p384n = r)
  else false

end Sys2Proof.Machine
end

