-- ==== Sys2Proof/Config.lean ====
section
/-! DEFINITION. What the spec leaves open: free values. Each is an opaque constant with no body, so nothing can be
proved of its value. The state's counter `drawn` is the argument, so that each draw is a value of its own. -/

namespace Sys2Proof

/-- The n-th free value, w bits wide: a value the spec does not state (log entry 1). -/
opaque Config.free (w n : Nat) : BitVec w

/-- The n-th output of the hub's DRBG (R267), w bits: random numbers (log entry 2). -/
opaque Config.drbg (w n : Nat) : BitVec w

/-- The public key that the deterministic derivation of R267 gives for a secret: 97 B, 04h ‖ X ‖ Y (log entry 3). -/
opaque Config.publicKey (secret : BitVec 384) : BitVec 776

/-- The ECDSA P-384 signature under a secret over a digest (R268, R269), 96 B (log entry 3). -/
opaque Config.sign (secret digest : BitVec 384) : BitVec 768

/-- The DER alias certificate that the security unit issues at a boot for a CDI_fw (R268; log entry 3). -/
opaque Config.aliasCert (secret : BitVec 384) : List (BitVec 8)

/-- The public keys in the hub ROM that firmware images (R374) and the Yuvin return token (R284) verify against: their
affine coordinates (log entry 4). -/
opaque Config.romKeyX : Nat
opaque Config.romKeyY : Nat

/-- The manufacturer identity, revision of IDCODE (R386), and the licensee's enterprise number (R316): fused at
manufacture (log entry 4). -/
opaque Config.manufacturer : BitVec 11
opaque Config.revision : BitVec 4
opaque Config.vendorId : BitVec 32

/-- The digest of the hub ROM image, measurement 1 (R272; log entry 4). -/
opaque Config.romDigest : BitVec 384

/-- The shared secret of an SPDM key exchange or of a pair-link session (R245, R269), by generation (log entry 3). -/
opaque Config.sessionSecret (n : Nat) : BitVec 256

end Sys2Proof
end

