-- ==== Sys2Proof/Machine/Table.lean ====
section
/-! DEFINITION. Sparse tables: what the state keeps by number (registers of the dictionary, symbols of the
DRAM, staging bytes, log rings) is a list of (key, value) pairs with strictly rising keys. A table that stands for a
total function lists no entry equal to what an unlisted key reads as, so equal contents are equal data. -/

namespace Sys2Proof.Machine

/-- A sparse table: (key, value) pairs, keys strictly rising. -/
abbrev Table (α : Type) := List (Nat × α)

/-- The value listed under `k`, if any. -/
def Table.look {α : Type} : Table α → Nat → Option α
  | [], _ => none
  | (j, v) :: t, k => if j = k then some v else Table.look t k

/-- `t` with `v` under `k`, keys kept rising. -/
def Table.put {α : Type} : Table α → Nat → α → Table α
  | [], k, v => [(k, v)]
  | (j, w) :: t, k, v =>
    if k < j then (k, v) :: (j, w) :: t
    else if k = j then (k, v) :: t
    else (j, w) :: Table.put t k v

/-- `t` with nothing under `k`. -/
def Table.del {α : Type} : Table α → Nat → Table α
  | [], _ => []
  | (j, w) :: t, k => if j = k then Table.del t k else (j, w) :: Table.del t k

/-- What `t` reads at `k` when an unlisted key reads as `d k`. -/
def Table.atD {α : Type} (t : Table α) (d : Nat → α) (k : Nat) : α := (Table.look t k).getD (d k)

/-- Write of a table whose unlisted keys read as `d`: writing that value removes the entry. -/
def Table.setD {α : Type} [DecidableEq α] (t : Table α) (d : Nat → α) (k : Nat) (v : α) : Table α :=
  if v = d k then Table.del t k else Table.put t k v

/-- Every entry whose key passes `p` is dropped (it reads as its default again). -/
def Table.drop {α : Type} (t : Table α) (p : Nat → Bool) : Table α := t.filter (fun e => !p e.1)

/-- Keys strictly rising, all above `lo` when a bound is given. -/
def Table.rising {α : Type} : Option Nat → Table α → Bool
  | _, [] => true
  | lo, (k, _) :: t => (match lo with | none => true | some b => decide (b < k)) && Table.rising (some k) t

/-- No entry equals what its key would read as unlisted. -/
def Table.lean {α : Type} [DecidableEq α] (d : Nat → α) (t : Table α) : Bool := t.all (fun e => decide (e.2 ≠ d e.1))

/-- The canonical form of a table with defaults `d`. -/
def Table.wf {α : Type} [DecidableEq α] (d : Nat → α) (t : Table α) : Bool :=
  Table.rising none t && Table.lean d t

end Sys2Proof.Machine
end

