-- ==== Sys2Proof/Machine/Regs.lean ====
section
/-! DEFINITION. The object dictionary's layout (chapter 14 and the record tables of every chapter): each register's
name, type, element count, reset value, rights per role, range, alignment, and each record's instances, tie and reset
class (R312, R313, R314, R405). -/

namespace Sys2Proof.Machine

/-- A dictionary register: index and subindex (R311); its instance is an argument of each access. -/
structure Reg where
  index : Nat
  sub : Nat
  deriving DecidableEq, Repr

/-- Element types of the dictionary (R312). TEXT does not occur in the object tables. -/
inductive OdType
  | uint (bits : Nat)
  | sint (bits : Nat)
  | bool
  | enum8 (codes : List Nat)
  | bits (width mask : Nat)
  | octets (n : Nat)
  deriving DecidableEq, Repr

/-- What a role holds on an object (R313). -/
inductive Right
  | no | r | w | rw
  deriving DecidableEq, Repr

/-- How an object is tied to a partition (R313). -/
inductive Tie
  | untied | part | stack | pc | engine | prog | session | wk | route | watermark | selectable
  deriving DecidableEq, Repr

/-- Reset classes (R314). -/
inductive ResetCls
  | life | config | part | state | live | slice | mailbox
  deriving DecidableEq, Repr

/-- One field of a record. `lo`, `hi`: its stated range; `indexMask`: the mask of a log index; `cmd`: a command object;
`pub`: "all r"; `peek`: role D may peek; `cls`: a class of its own where R405 names one. -/
structure FieldDesc where
  sub : Nat
  ty : OdType
  o : Right
  t : Right
  f : Right
  elems : Nat := 0
  reset : Nat := 0
  lo : Option Int := none
  hi : Option Int := none
  align : Nat := 1
  indexMask : Option Nat := none
  cmd : Bool := false
  pub : Bool := false
  peek : Bool := true
  cls : Option ResetCls := none
  deriving DecidableEq, Repr

/-- One record: its index, how many instances it has, its tie, its reset class and its fields. -/
structure RecDesc where
  index : Nat
  insts : Nat
  tie : Tie
  cls : ResetCls
  fields : List FieldDesc
  deriving DecidableEq, Repr

def Od.hubVariant : Reg := ⟨0x0010, 0x01⟩
def Od.hubPace : Reg := ⟨0x0020, 0x01⟩
def Od.hubPacePeak : Reg := ⟨0x0020, 0x02⟩
def Od.hubPaceStretch : Reg := ⟨0x0020, 0x03⟩
def Od.hubPaceWindows : Reg := ⟨0x0020, 0x04⟩
def Od.dictSchema : Reg := ⟨0x0030, 0x01⟩
def Od.dictState : Reg := ⟨0x0030, 0x02⟩
def Od.dictVendorId : Reg := ⟨0x0030, 0x03⟩
def Od.dictCommand : Reg := ⟨0x0030, 0x04⟩
def Od.dictStoreCheck : Reg := ⟨0x0030, 0x05⟩
def Od.bootStage : Reg := ⟨0x0040, 0x01⟩
def Od.bootSlot : Reg := ⟨0x0040, 0x02⟩
def Od.bootError : Reg := ⟨0x0040, 0x03⟩
def Od.resetCause : Reg := ⟨0x0040, 0x04⟩
def Od.bootReleaseMs : Reg := ⟨0x0040, 0x05⟩
def Od.lcState : Reg := ⟨0x1000, 0x01⟩
def Od.lcCommand : Reg := ⟨0x1000, 0x02⟩
def Od.tamperSeen : Reg := ⟨0x1000, 0x03⟩
def Od.tamperAck : Reg := ⟨0x1000, 0x04⟩
def Od.tamperCount : Reg := ⟨0x1000, 0x05⟩
def Od.journalCount : Reg := ⟨0x1000, 0x06⟩
def Od.journalIndex : Reg := ⟨0x1000, 0x07⟩
def Od.journalEntry : Reg := ⟨0x1000, 0x08⟩
def Od.svSteward : Reg := ⟨0x1000, 0x09⟩
def Od.svSlice : Reg := ⟨0x1000, 0x0A⟩
def Od.idPublic : Reg := ⟨0x1000, 0x0B⟩
def Od.idCert : Reg := ⟨0x1000, 0x0C⟩
def Od.opKeys : Reg := ⟨0x1100, 0x01⟩
def Od.opKeysUsed : Reg := ⟨0x1100, 0x02⟩
def Od.secConfidential : Reg := ⟨0x1200, 0x01⟩
def Od.secConsentDebug : Reg := ⟨0x1200, 0x02⟩
def Od.secConsentProfile : Reg := ⟨0x1200, 0x03⟩
def Od.secKeyInstalled : Reg := ⟨0x1200, 0x04⟩
def Od.secWeightDigest : Reg := ⟨0x1200, 0x05⟩
def Od.secWeightCount : Reg := ⟨0x1200, 0x06⟩
def Od.secWlogIndex : Reg := ⟨0x1200, 0x07⟩
def Od.secWlogEntry : Reg := ⟨0x1200, 0x08⟩
def Od.keyInstall : Reg := ⟨0x1300, 0x01⟩
def Od.wkPartition : Reg := ⟨0x1310, 0x01⟩
def Od.wkKey : Reg := ⟨0x1310, 0x02⟩
def Od.wkCommand : Reg := ⟨0x1310, 0x03⟩
def Od.tdiLocked : Reg := ⟨0x1400, 0x01⟩
def Od.tdiRun : Reg := ⟨0x1400, 0x02⟩
def Od.tdiError : Reg := ⟨0x1400, 0x03⟩
def Od.partAlloc : Reg := ⟨0x2000, 0x01⟩
def Od.partState : Reg := ⟨0x2000, 0x02⟩
def Od.partCommand : Reg := ⟨0x2000, 0x03⟩
def Od.partStacks : Reg := ⟨0x2000, 0x04⟩
def Od.partParity : Reg := ⟨0x2000, 0x05⟩
def Od.partGrain : Reg := ⟨0x2000, 0x06⟩
def Od.partCoherent : Reg := ⟨0x2000, 0x07⟩
def Od.partOwner : Reg := ⟨0x2000, 0x08⟩
def Od.partEpoch : Reg := ⟨0x2000, 0x09⟩
def Od.partVisible : Reg := ⟨0x2000, 0x0A⟩
def Od.partGrow : Reg := ⟨0x2000, 0x0B⟩
def Od.partScrubHwm : Reg := ⟨0x2000, 0x0C⟩
def Od.partFailedStacks : Reg := ⟨0x2000, 0x0D⟩
def Od.cohOwnerLoss : Reg := ⟨0x2010, 0x01⟩
def Od.cohSnoopTimeoutUs : Reg := ⟨0x2010, 0x02⟩
def Od.cohLostLines : Reg := ⟨0x2010, 0x03⟩
def Od.cohLostAccept : Reg := ⟨0x2010, 0x04⟩
def Od.lossHead : Reg := ⟨0x2020, 0x01⟩
def Od.lossIndex : Reg := ⟨0x2020, 0x02⟩
def Od.lossRecord : Reg := ⟨0x2020, 0x03⟩
def Od.lossOverflow : Reg := ⟨0x2020, 0x04⟩
def Od.reqPartitions : Reg := ⟨0x2100, 0x01⟩
def Od.reqWrite : Reg := ⟨0x2100, 0x02⟩
def Od.reqSecure : Reg := ⟨0x2100, 0x03⟩
def Od.reqState : Reg := ⟨0x2100, 0x04⟩
def Od.reqEpoch : Reg := ⟨0x2100, 0x05⟩
def Od.reqLimit : Reg := ⟨0x2100, 0x06⟩
def Od.reqInflight : Reg := ⟨0x2100, 0x07⟩
def Od.reqHomePort : Reg := ⟨0x2100, 0x08⟩
def Od.reqClassMap : Reg := ⟨0x2100, 0x09⟩
def Od.reqSeqNewest : Reg := ⟨0x2100, 0x0A⟩
def Od.reqTimeouts : Reg := ⟨0x2100, 0x0B⟩
def Od.reqRefusals : Reg := ⟨0x2100, 0x0C⟩
def Od.requestTimeoutUs : Reg := ⟨0x2110, 0x01⟩
def Od.cohMode : Reg := ⟨0x2120, 0x01⟩
def Od.portMode : Reg := ⟨0x2200, 0x01⟩
def Od.portState : Reg := ⟨0x2200, 0x02⟩
def Od.portBlockedNs : Reg := ⟨0x2200, 0x03⟩
def Od.portDeferred : Reg := ⟨0x2200, 0x04⟩
def Od.portHdrParity : Reg := ⟨0x2200, 0x05⟩
def Od.portProtocolErrors : Reg := ⟨0x2200, 0x06⟩
def Od.portRefusalLine : Reg := ⟨0x2200, 0x07⟩
def Od.portEnable : Reg := ⟨0x2210, 0x01⟩
def Od.portCommand : Reg := ⟨0x2210, 0x02⟩
def Od.stackState : Reg := ⟨0x3000, 0x01⟩
def Od.stackHeight : Reg := ⟨0x3000, 0x02⟩
def Od.stackDieGbit : Reg := ⟨0x3000, 0x03⟩
def Od.stackCapacity : Reg := ⟨0x3000, 0x04⟩
def Od.stackSids : Reg := ⟨0x3000, 0x05⟩
def Od.stackRowsPerBank : Reg := ⟨0x3000, 0x06⟩
def Od.stackPinRate : Reg := ⟨0x3000, 0x07⟩
def Od.stackRateDivisor : Reg := ⟨0x3000, 0x08⟩
def Od.slicePace : Reg := ⟨0x3000, 0x10⟩
def Od.slicePacePeak : Reg := ⟨0x3000, 0x11⟩
def Od.qanatModulesActive : Reg := ⟨0x3000, 0x12⟩
def Od.qanatReplays : Reg := ⟨0x3000, 0x13⟩
def Od.qanatLanesRepaired : Reg := ⟨0x3000, 0x14⟩
def Od.slicePaceStretch : Reg := ⟨0x3000, 0x15⟩
def Od.pcState : Reg := ⟨0x3100, 0x01⟩
def Od.pcQueueEntries : Reg := ⟨0x3100, 0x02⟩
def Od.pcBusMode : Reg := ⟨0x3100, 0x03⟩
def Od.pcThrottleActive : Reg := ⟨0x3100, 0x04⟩
def Od.dirEntriesUsed : Reg := ⟨0x3200, 0x01⟩
def Od.dirCoarse : Reg := ⟨0x3200, 0x02⟩
def Od.dirEvictions : Reg := ⟨0x3200, 0x03⟩
def Od.dirSnoops : Reg := ⟨0x3200, 0x04⟩
def Od.dirSnoopTimeouts : Reg := ⟨0x3200, 0x05⟩
def Od.dirBirspStale : Reg := ⟨0x3200, 0x06⟩
def Od.dirSuspectSets : Reg := ⟨0x3200, 0x07⟩
def Od.tRc : Reg := ⟨0x4000, 0x01⟩
def Od.tRcd : Reg := ⟨0x4000, 0x02⟩
def Od.tRp : Reg := ⟨0x4000, 0x03⟩
def Od.tRas : Reg := ⟨0x4000, 0x04⟩
def Od.tCl : Reg := ⟨0x4000, 0x05⟩
def Od.tCwl : Reg := ⟨0x4000, 0x06⟩
def Od.tBurst : Reg := ⟨0x4000, 0x07⟩
def Od.tCcdS : Reg := ⟨0x4000, 0x08⟩
def Od.tCcdL : Reg := ⟨0x4000, 0x09⟩
def Od.tRrdS : Reg := ⟨0x4000, 0x0A⟩
def Od.tRrdL : Reg := ⟨0x4000, 0x0B⟩
def Od.tFaw : Reg := ⟨0x4000, 0x0C⟩
def Od.tWr : Reg := ⟨0x4000, 0x0D⟩
def Od.tRtp : Reg := ⟨0x4000, 0x0E⟩
def Od.tWtrS : Reg := ⟨0x4000, 0x0F⟩
def Od.tWtrL : Reg := ⟨0x4000, 0x10⟩
def Od.tRtw : Reg := ⟨0x4000, 0x11⟩
def Od.tRfcab : Reg := ⟨0x4000, 0x12⟩
def Od.tRefi : Reg := ⟨0x4000, 0x13⟩
def Od.tRfmpb : Reg := ⟨0x4000, 0x14⟩
def Od.tXs : Reg := ⟨0x4000, 0x15⟩
def Od.schedAgeLimitNs : Reg := ⟨0x4010, 0x01⟩
def Od.schedWrHigh : Reg := ⟨0x4010, 0x02⟩
def Od.schedWrLow : Reg := ⟨0x4010, 0x03⟩
def Od.schedHitStreak : Reg := ⟨0x4010, 0x04⟩
def Od.schedRowPolicy : Reg := ⟨0x4010, 0x05⟩
def Od.refMultiplier : Reg := ⟨0x4100, 0x01⟩
def Od.refPendingMultiplier : Reg := ⟨0x4100, 0x02⟩
def Od.refWindowNs : Reg := ⟨0x4100, 0x03⟩
def Od.raThreshold : Reg := ⟨0x4200, 0x01⟩
def Od.raThrottleGapNs : Reg := ⟨0x4200, 0x02⟩
def Od.raThrottleMs : Reg := ⟨0x4200, 0x03⟩
def Od.classQuota : Reg := ⟨0x5000, 0x01⟩
def Od.classAgeStep : Reg := ⟨0x5000, 0x02⟩
def Od.classMissThreshold : Reg := ⟨0x5000, 0x03⟩
def Od.frameMap : Reg := ⟨0x5100, 0x01⟩
def Od.frameLongestC0Gap : Reg := ⟨0x5100, 0x02⟩
def Od.regBytes : Reg := ⟨0x5200, 0x01⟩
def Od.regWindowLog2 : Reg := ⟨0x5200, 0x02⟩
def Od.regOutstanding : Reg := ⟨0x5200, 0x03⟩
def Od.regCredit : Reg := ⟨0x5200, 0x04⟩
def Od.regGatedNs : Reg := ⟨0x5200, 0x05⟩
def Od.serviceMode : Reg := ⟨0x5210, 0x01⟩
def Od.arbBurstMax : Reg := ⟨0x5210, 0x02⟩
def Od.svcStartupMs : Reg := ⟨0x5210, 0x03⟩
def Od.arbCutoffs : Reg := ⟨0x5210, 0x04⟩
def Od.eccCeRemapCount : Reg := ⟨0x6000, 0x01⟩
def Od.eccCeWindowH : Reg := ⟨0x6000, 0x02⟩
def Od.eccLaneFailBanks : Reg := ⟨0x6000, 0x03⟩
def Od.eccPcFailUe : Reg := ⟨0x6000, 0x04⟩
def Od.eccStackFailPcs : Reg := ⟨0x6000, 0x05⟩
def Od.wcbHoldNs : Reg := ⟨0x6010, 0x01⟩
def Od.wcbHigh : Reg := ⟨0x6010, 0x02⟩
def Od.wcbLow : Reg := ⟨0x6010, 0x03⟩
def Od.testStack : Reg := ⟨0x6020, 0x01⟩
def Od.testColumn : Reg := ⟨0x6020, 0x02⟩
def Od.testData : Reg := ⟨0x6020, 0x03⟩
def Od.testCheck : Reg := ⟨0x6020, 0x04⟩
def Od.testCommand : Reg := ⟨0x6020, 0x05⟩
def Od.testResult : Reg := ⟨0x6020, 0x06⟩
def Od.testPositions : Reg := ⟨0x6020, 0x07⟩
def Od.remapUsed : Reg := ⟨0x6100, 0x01⟩
def Od.remapTable : Reg := ⟨0x6100, 0x02⟩
def Od.lanesFailed : Reg := ⟨0x6100, 0x03⟩
def Od.spareMap : Reg := ⟨0x6100, 0x04⟩
def Od.rebuildPointer : Reg := ⟨0x6100, 0x05⟩
def Od.spprCount : Reg := ⟨0x6100, 0x06⟩
def Od.pprList : Reg := ⟨0x6110, 0x01⟩
def Od.scrubPeriodH : Reg := ⟨0x6200, 0x01⟩
def Od.scrubPosition : Reg := ⟨0x6210, 0x01⟩
def Od.scrubPasses : Reg := ⟨0x6210, 0x02⟩
def Od.logHead : Reg := ⟨0x6300, 0x01⟩
def Od.logIndex : Reg := ⟨0x6300, 0x02⟩
def Od.logRecord : Reg := ⟨0x6300, 0x03⟩
def Od.logOverflow : Reg := ⟨0x6300, 0x04⟩
def Od.retirePage : Reg := ⟨0x6300, 0x05⟩
def Od.retireClear : Reg := ⟨0x6300, 0x06⟩
def Od.retiredPages : Reg := ⟨0x6310, 0x01⟩
def Od.engState : Reg := ⟨0x7000, 0x01⟩
def Od.engQueue : Reg := ⟨0x7000, 0x02⟩
def Od.engProgram : Reg := ⟨0x7000, 0x03⟩
def Od.engLauncher : Reg := ⟨0x7000, 0x04⟩
def Od.engStep : Reg := ⟨0x7000, 0x05⟩
def Od.engLastFault : Reg := ⟨0x7000, 0x06⟩
def Od.engLastFaultStep : Reg := ⟨0x7000, 0x07⟩
def Od.engCommand : Reg := ⟨0x7000, 0x08⟩
def Od.carRuntimeLimitMs : Reg := ⟨0x7010, 0x01⟩
def Od.caravanFlags : Reg := ⟨0x7020, 0x01⟩
def Od.fmtEscapes : Reg := ⟨0x7030, 0x01⟩
def Od.fmtExhausted : Reg := ⟨0x7030, 0x02⟩
def Od.fmtPoisoned : Reg := ⟨0x7030, 0x03⟩
def Od.fmtSaturated : Reg := ⟨0x7030, 0x04⟩
def Od.fmtNonfinite : Reg := ⟨0x7030, 0x05⟩
def Od.fmtExhaustThreshold : Reg := ⟨0x7030, 0x06⟩
def Od.progState : Reg := ⟨0x7100, 0x01⟩
def Od.progCommand : Reg := ⟨0x7100, 0x02⟩
def Od.progBind : Reg := ⟨0x7100, 0x03⟩
def Od.progSteps : Reg := ⟨0x7100, 0x04⟩
def Od.progIndex : Reg := ⟨0x7100, 0x05⟩
def Od.progStep : Reg := ⟨0x7100, 0x06⟩
def Od.progDigest : Reg := ⟨0x7100, 0x07⟩
def Od.progReject : Reg := ⟨0x7100, 0x08⟩
def Od.progLaunches : Reg := ⟨0x7100, 0x09⟩
def Od.progOwner : Reg := ⟨0x7100, 0x0A⟩
def Od.redState : Reg := ⟨0x8000, 0x01⟩
def Od.redCommand : Reg := ⟨0x8000, 0x02⟩
def Od.redPartition : Reg := ⟨0x8000, 0x03⟩
def Od.redOutBase : Reg := ⟨0x8000, 0x04⟩
def Od.redMapBase : Reg := ⟨0x8000, 0x05⟩
def Od.redElements : Reg := ⟨0x8000, 0x06⟩
def Od.redFmtIn : Reg := ⟨0x8000, 0x07⟩
def Od.redFmtOut : Reg := ⟨0x8000, 0x08⟩
def Od.redExp : Reg := ⟨0x8000, 0x09⟩
def Od.redOutExp : Reg := ⟨0x8000, 0x0A⟩
def Od.redContributors : Reg := ⟨0x8000, 0x0B⟩
def Od.redRound : Reg := ⟨0x8000, 0x0C⟩
def Od.redSeed : Reg := ⟨0x8000, 0x0D⟩
def Od.redPolicy : Reg := ⟨0x8000, 0x0E⟩
def Od.redStragglerMs : Reg := ⟨0x8000, 0x0F⟩
def Od.redOpenChunks : Reg := ⟨0x8000, 0x10⟩
def Od.redClass : Reg := ⟨0x8000, 0x11⟩
def Od.redResume : Reg := ⟨0x8000, 0x12⟩
def Od.redNotifyEvery : Reg := ⟨0x8000, 0x13⟩
def Od.redSubscribers : Reg := ⟨0x8000, 0x14⟩
def Od.redExcludeIndex : Reg := ⟨0x8000, 0x15⟩
def Od.redExcluded : Reg := ⟨0x8000, 0x16⟩
def Od.redMissing : Reg := ⟨0x8000, 0x17⟩
def Od.redChunksDone : Reg := ⟨0x8000, 0x18⟩
def Od.redChunksPartial : Reg := ⟨0x8000, 0x19⟩
def Od.redChunksLost : Reg := ⟨0x8000, 0x1A⟩
def Od.redOpenNow : Reg := ⟨0x8000, 0x1B⟩
def Od.redParked : Reg := ⟨0x8000, 0x1C⟩
def Od.redDuplicates : Reg := ⟨0x8000, 0x1D⟩
def Od.redWindowHigh : Reg := ⟨0x8000, 0x1E⟩
def Od.redNonfinite : Reg := ⟨0x8000, 0x1F⟩
def Od.redAbortReason : Reg := ⟨0x8000, 0x20⟩
def Od.redProxyStack : Reg := ⟨0x8000, 0x21⟩
def Od.unitShape : Reg := ⟨0x9000, 0x01⟩
def Od.cascadeRole : Reg := ⟨0x9000, 0x02⟩
def Od.cascadeState : Reg := ⟨0x9000, 0x03⟩
def Od.pairState : Reg := ⟨0x9000, 0x04⟩
def Od.pairEpoch : Reg := ⟨0x9000, 0x05⟩
def Od.pairLeaseMs : Reg := ⟨0x9000, 0x06⟩
def Od.leaseRemainingUs : Reg := ⟨0x9000, 0x07⟩
def Od.leaseGrant : Reg := ⟨0x9000, 0x08⟩
def Od.pairPeerId : Reg := ⟨0x9000, 0x09⟩
def Od.formationDigest : Reg := ⟨0x9000, 0x0A⟩
def Od.peerFormationDigest : Reg := ⟨0x9000, 0x0B⟩
def Od.fwVersion : Reg := ⟨0x9000, 0x0C⟩
def Od.peerFwVersion : Reg := ⟨0x9000, 0x0D⟩
def Od.timebaseOffsetNs : Reg := ⟨0x9000, 0x0E⟩
def Od.timeOffsetFlag : Reg := ⟨0x9000, 0x0F⟩
def Od.spanLatencyNs : Reg := ⟨0x9000, 0x10⟩
def Od.spanState : Reg := ⟨0x9000, 0x11⟩
def Od.mirrorBufferBytes : Reg := ⟨0x9000, 0x12⟩
def Od.pairCommand : Reg := ⟨0x9000, 0x13⟩
def Od.pairAutoRelinquish : Reg := ⟨0x9000, 0x14⟩
def Od.mirrorDivergences : Reg := ⟨0x9000, 0x15⟩
def Od.syncState : Reg := ⟨0x9010, 0x01⟩
def Od.syncHwm : Reg := ⟨0x9010, 0x02⟩
def Od.syncStack : Reg := ⟨0x9010, 0x03⟩
def Od.thermRef2 : Reg := ⟨0xA000, 0x01⟩
def Od.thermL1 : Reg := ⟨0xA000, 0x02⟩
def Od.thermL2 : Reg := ⟨0xA000, 0x03⟩
def Od.thermL3 : Reg := ⟨0xA000, 0x04⟩
def Od.thermL4 : Reg := ⟨0xA000, 0x05⟩
def Od.thermStackShut : Reg := ⟨0xA000, 0x06⟩
def Od.thermColdHold : Reg := ⟨0xA000, 0x07⟩
def Od.thermColdExit : Reg := ⟨0xA000, 0x08⟩
def Od.thermColdWarn : Reg := ⟨0xA000, 0x09⟩
def Od.thermStretch1 : Reg := ⟨0xA000, 0x0A⟩
def Od.thermStretch2 : Reg := ⟨0xA000, 0x0B⟩
def Od.thermStretch3 : Reg := ⟨0xA000, 0x0C⟩
def Od.thermJunctionShut : Reg := ⟨0xA000, 0x0D⟩
def Od.thermHyst : Reg := ⟨0xA000, 0x0E⟩
def Od.thermLevelFloor : Reg := ⟨0xA000, 0x0F⟩
def Od.thermRateDwellMs : Reg := ⟨0xA000, 0x10⟩
def Od.thermWarmup : Reg := ⟨0xA000, 0x11⟩
def Od.thermStackTemp : Reg := ⟨0xA010, 0x01⟩
def Od.thermLevel : Reg := ⟨0xA010, 0x02⟩
def Od.thermLevelThermal : Reg := ⟨0xA010, 0x03⟩
def Od.thermCold : Reg := ⟨0xA010, 0x04⟩
def Od.thermShutdown : Reg := ⟨0xA010, 0x05⟩
def Od.thermDieTemps : Reg := ⟨0xA010, 0x06⟩
def Od.thermSliceTemp : Reg := ⟨0xA010, 0x07⟩
def Od.thermSensorFaults : Reg := ⟨0xA010, 0x08⟩
def Od.thermLevelChanges : Reg := ⟨0xA010, 0x09⟩
def Od.hubTemp : Reg := ⟨0xA020, 0x01⟩
def Od.throtReq : Reg := ⟨0xA020, 0x02⟩
def Od.hubSensorFaults : Reg := ⟨0xA020, 0x03⟩
def Od.pwrTotalMw : Reg := ⟨0xA030, 0x01⟩
def Od.pwrHubMw : Reg := ⟨0xA030, 0x02⟩
def Od.pwrStackMw : Reg := ⟨0xA030, 0x03⟩
def Od.calState : Reg := ⟨0xA100, 0x01⟩
def Od.calLastTemp : Reg := ⟨0xA100, 0x02⟩
def Od.calLastNs : Reg := ⟨0xA100, 0x03⟩
def Od.calRuns : Reg := ⟨0xA100, 0x04⟩
def Od.calCaFailStreak : Reg := ⟨0xA100, 0x05⟩
def Od.calLaneTaps : Reg := ⟨0xA100, 0x06⟩
def Od.calMarginMin : Reg := ⟨0xA100, 0x07⟩
def Od.calDeltaT : Reg := ⟨0xA110, 0x01⟩
def Od.calMaxIntervalMs : Reg := ⟨0xA110, 0x02⟩
def Od.calMonitorOffset : Reg := ⟨0xA110, 0x03⟩
def Od.calWindowLog2 : Reg := ⟨0xA110, 0x04⟩
def Od.mbEndA : Reg := ⟨0xB000, 0x01⟩
def Od.mbMaskA : Reg := ⟨0xB000, 0x02⟩
def Od.mbEndB : Reg := ⟨0xB000, 0x03⟩
def Od.mbMaskB : Reg := ⟨0xB000, 0x04⟩
def Od.mbFlushOnReset : Reg := ⟨0xB000, 0x05⟩
def Od.mbTimeoutUs : Reg := ⟨0xB000, 0x06⟩
def Od.mbBindingLock : Reg := ⟨0xB010, 0x01⟩
def Od.mbFillAb : Reg := ⟨0xB020, 0x01⟩
def Od.mbFillBa : Reg := ⟨0xB020, 0x02⟩
def Od.mbFlags : Reg := ⟨0xB020, 0x03⟩
def Od.mbLockAb : Reg := ⟨0xB020, 0x04⟩
def Od.mbLockBa : Reg := ⟨0xB020, 0x05⟩
def Od.mbFlushed : Reg := ⟨0xB020, 0x06⟩
def Od.mbLockErrors : Reg := ⟨0xB020, 0x07⟩
def Od.routeKind : Reg := ⟨0xB100, 0x01⟩
def Od.routeTarget : Reg := ⟨0xB100, 0x02⟩
def Od.routeMask : Reg := ⟨0xB100, 0x03⟩
def Od.routeRate : Reg := ⟨0xB100, 0x04⟩
def Od.routePending : Reg := ⟨0xB100, 0x05⟩
def Od.routeAck : Reg := ⟨0xB100, 0x06⟩
def Od.routeDropped : Reg := ⟨0xB100, 0x07⟩
def Od.routeSeq : Reg := ⟨0xB100, 0x08⟩
def Od.evHead : Reg := ⟨0xB110, 0x01⟩
def Od.evIndex : Reg := ⟨0xB110, 0x02⟩
def Od.evRecord : Reg := ⟨0xB110, 0x03⟩
def Od.evOverflow : Reg := ⟨0xB110, 0x04⟩
def Od.wmArmed : Reg := ⟨0xB130, 0x01⟩
def Od.wmCrossed : Reg := ⟨0xB130, 0x02⟩
def Od.wmLevel : Reg := ⟨0xB130, 0x03⟩
def Od.wmCount : Reg := ⟨0xB130, 0x04⟩
def Od.wmLastNs : Reg := ⟨0xB130, 0x05⟩
def Od.wmCommand : Reg := ⟨0xB130, 0x06⟩
def Od.fixCounts : Reg := ⟨0xC000, 0x01⟩
def Od.fixSnapshot : Reg := ⟨0xC000, 0x02⟩
def Od.fixCommand : Reg := ⟨0xC000, 0x03⟩
def Od.stackCounters : Reg := ⟨0xC010, 0x01⟩
def Od.selSource : Reg := ⟨0xC100, 0x01⟩
def Od.selInstance : Reg := ⟨0xC100, 0x02⟩
def Od.selCount : Reg := ⟨0xC100, 0x03⟩
def Od.selSnapshot : Reg := ⟨0xC100, 0x04⟩
def Od.selCommand : Reg := ⟨0xC100, 0x05⟩
def Od.cntCommand : Reg := ⟨0xC200, 0x01⟩
def Od.cntFrozen : Reg := ⟨0xC200, 0x02⟩
def Od.cntSnapNs : Reg := ⟨0xC200, 0x03⟩
def Od.cntSnapSeq : Reg := ⟨0xC200, 0x04⟩
def Od.smpEnable : Reg := ⟨0xC300, 0x01⟩
def Od.smpLog2 : Reg := ⟨0xC300, 0x02⟩
def Od.smpSeed : Reg := ⟨0xC300, 0x03⟩
def Od.smpHead : Reg := ⟨0xC310, 0x01⟩
def Od.smpIndex : Reg := ⟨0xC310, 0x02⟩
def Od.smpRecord : Reg := ⟨0xC310, 0x03⟩
def Od.smpOverflow : Reg := ⟨0xC310, 0x04⟩
def Od.clampHead : Reg := ⟨0xD000, 0x01⟩
def Od.clampIndex : Reg := ⟨0xD000, 0x02⟩
def Od.clampRecord : Reg := ⟨0xD000, 0x03⟩
def Od.clampOverflow : Reg := ⟨0xD000, 0x04⟩
def Od.ignTotal : Reg := ⟨0xD020, 0x01⟩
def Od.ignByArea : Reg := ⟨0xD020, 0x02⟩
def Od.ignLast : Reg := ⟨0xD020, 0x03⟩
def Od.ignPartTotal : Reg := ⟨0xD021, 0x01⟩
def Od.ignPartLast : Reg := ⟨0xD021, 0x02⟩
def Od.dbgLevel : Reg := ⟨0xE000, 0x01⟩
def Od.dbgUnlocked : Reg := ⟨0xE000, 0x02⟩
def Od.dbgHalted : Reg := ⟨0xE000, 0x03⟩

/-- Record `OD 0010`. -/
def recDesc0010 : RecDesc :=
  { index := 0x0010, insts := 1, tie := .untied, cls := .life, fields := [
    { sub := 0x01, ty := .enum8 [], o := .r, t := .r, f := .r, reset := 0x8 } ] }

/-- Record `OD 0020`. -/
def recDesc0020 : RecDesc :=
  { index := 0x0020, insts := 1, tie := .untied, cls := .live, fields := [
    { sub := 0x01, ty := .uint 16, o := .r, t := .r, f := .r },
    { sub := 0x02, ty := .uint 16, o := .r, t := .r, f := .rw, cls := some .state },
    { sub := 0x03, ty := .enum8 [], o := .r, t := .r, f := .r },
    { sub := 0x04, ty := .uint 32, o := .r, t := .r, f := .r } ] }

/-- Record `OD 0030`. -/
def recDesc0030 : RecDesc :=
  { index := 0x0030, insts := 1, tie := .untied, cls := .state, fields := [
    { sub := 0x01, ty := .uint 32, o := .r, t := .r, f := .r, reset := 0x10000, pub := true, cls := some .live },
    { sub := 0x02, ty := .enum8 [], o := .r, t := .r, f := .r },
    { sub := 0x03, ty := .uint 32, o := .r, t := .r, f := .r, pub := true, cls := some .live },
    { sub := 0x04, ty := .enum8 [1], o := .w, t := .no, f := .w, cmd := true, peek := false },
    { sub := 0x05, ty := .enum8 [], o := .r, t := .no, f := .r } ] }

/-- Record `OD 0040`. -/
def recDesc0040 : RecDesc :=
  { index := 0x0040, insts := 1, tie := .untied, cls := .state, fields := [
    { sub := 0x01, ty := .enum8 [], o := .r, t := .r, f := .r, pub := true },
    { sub := 0x02, ty := .bits 8 0xff, o := .r, t := .r, f := .r, pub := true },
    { sub := 0x03, ty := .enum8 [], o := .r, t := .r, f := .r, pub := true },
    { sub := 0x04, ty := .enum8 [], o := .r, t := .r, f := .r },
    { sub := 0x05, ty := .uint 32, o := .r, t := .r, f := .r } ] }

/-- Record `OD 1000`. -/
def recDesc1000 : RecDesc :=
  { index := 0x1000, insts := 1, tie := .untied, cls := .life, fields := [
    { sub := 0x01, ty := .enum8 [], o := .r, t := .r, f := .r },
    { sub := 0x02, ty := .enum8 [1, 2, 3, 4], o := .w, t := .no, f := .no, cmd := true, peek := false },
    { sub := 0x03, ty := .bool, o := .r, t := .r, f := .r },
    { sub := 0x04, ty := .enum8 [1], o := .w, t := .no, f := .no, cmd := true, peek := false },
    { sub := 0x05, ty := .uint 32, o := .r, t := .r, f := .r },
    { sub := 0x06, ty := .uint 32, o := .r, t := .no, f := .r },
    { sub := 0x07, ty := .uint 8, o := .rw, t := .no, f := .rw, indexMask := some 0x3f, cls := some .state },
    { sub := 0x08, ty := .octets 16, o := .r, t := .no, f := .r },
    { sub := 0x09, ty := .uint 32, o := .r, t := .r, f := .r },
    { sub := 0x0A, ty := .uint 32, o := .r, t := .r, f := .r },
    { sub := 0x0B, ty := .octets 97, o := .r, t := .r, f := .r, pub := true },
    { sub := 0x0C, ty := .octets 2048, o := .rw, t := .no, f := .r } ] }

/-- Record `OD 1100`. -/
def recDesc1100 : RecDesc :=
  { index := 0x1100, insts := 1, tie := .untied, cls := .life, fields := [
    { sub := 0x01, ty := .octets 48, o := .rw, t := .no, f := .r, elems := 4 },
    { sub := 0x02, ty := .uint 8, o := .r, t := .no, f := .r } ] }

/-- Record `OD 1200`. -/
def recDesc1200 : RecDesc :=
  { index := 0x1200, insts := 16, tie := .part, cls := .part, fields := [
    { sub := 0x01, ty := .bool, o := .r, t := .rw, f := .r, reset := 0x1 },
    { sub := 0x02, ty := .bool, o := .r, t := .rw, f := .r },
    { sub := 0x03, ty := .bool, o := .r, t := .rw, f := .r },
    { sub := 0x04, ty := .bool, o := .no, t := .r, f := .r },
    { sub := 0x05, ty := .octets 48, o := .no, t := .r, f := .r },
    { sub := 0x06, ty := .uint 32, o := .no, t := .r, f := .r },
    { sub := 0x07, ty := .uint 16, o := .no, t := .rw, f := .rw, indexMask := some 0x3ff },
    { sub := 0x08, ty := .octets 64, o := .no, t := .r, f := .r } ] }

/-- Record `OD 1300`. -/
def recDesc1300 : RecDesc :=
  { index := 0x1300, insts := 16, tie := .part, cls := .part, fields := [
    { sub := 0x01, ty := .octets 64, o := .no, t := .w, f := .no, peek := false } ] }

/-- Record `OD 1310`. -/
def recDesc1310 : RecDesc :=
  { index := 0x1310, insts := 256, tie := .wk, cls := .state, fields := [
    { sub := 0x01, ty := .uint 8, o := .no, t := .rw, f := .r, reset := 0xff },
    { sub := 0x02, ty := .octets 32, o := .no, t := .w, f := .no, peek := false },
    { sub := 0x03, ty := .enum8 [1], o := .no, t := .w, f := .w, cmd := true, peek := false } ] }

/-- Record `OD 1400`. -/
def recDesc1400 : RecDesc :=
  { index := 0x1400, insts := 4096, tie := .untied, cls := .state, fields := [
    { sub := 0x01, ty := .bits 32 0xffffffff, o := .no, t := .r, f := .r },
    { sub := 0x02, ty := .bits 32 0xffffffff, o := .no, t := .r, f := .r },
    { sub := 0x03, ty := .bits 32 0xffffffff, o := .no, t := .r, f := .r } ] }

/-- Record `OD 2000`. -/
def recDesc2000 : RecDesc :=
  { index := 0x2000, insts := 16, tie := .part, cls := .config, fields := [
    { sub := 0x01, ty := .enum8 [], o := .r, t := .r, f := .r },
    { sub := 0x02, ty := .enum8 [], o := .no, t := .r, f := .r },
    { sub := 0x03, ty := .enum8 [1, 2, 3], o := .w, t := .w, f := .w, cmd := true, peek := false },
    { sub := 0x04, ty := .bits 32 0xffff, o := .rw, t := .r, f := .rw },
    { sub := 0x05, ty := .bool, o := .rw, t := .r, f := .rw },
    { sub := 0x06, ty := .enum8 [0, 1, 2, 3, 4], o := .rw, t := .r, f := .rw, reset := 0x2 },
    { sub := 0x07, ty := .bool, o := .rw, t := .r, f := .rw },
    { sub := 0x08, ty := .octets 48, o := .rw, t := .r, f := .rw },
    { sub := 0x09, ty := .uint 32, o := .r, t := .r, f := .r },
    { sub := 0x0A, ty := .uint 64, o := .r, t := .r, f := .r },
    { sub := 0x0B, ty := .bits 32 0xffff, o := .rw, t := .r, f := .rw },
    { sub := 0x0C, ty := .uint 64, o := .no, t := .r, f := .r },
    { sub := 0x0D, ty := .bits 32 0xffffffff, o := .no, t := .r, f := .r } ] }

/-- Record `OD 2010`. -/
def recDesc2010 : RecDesc :=
  { index := 0x2010, insts := 16, tie := .part, cls := .part, fields := [
    { sub := 0x01, ty := .enum8 [0, 1], o := .r, t := .rw, f := .rw },
    { sub := 0x02, ty := .uint 32, o := .r, t := .rw, f := .rw, lo := some (10), hi := some (400), reset := 0xc8 },
    { sub := 0x03, ty := .uint 32, o := .no, t := .r, f := .r, cls := some .live },
    { sub := 0x04, ty := .enum8 [1], o := .no, t := .w, f := .w, cmd := true, peek := false } ] }

/-- Record `OD 2020`. -/
def recDesc2020 : RecDesc :=
  { index := 0x2020, insts := 16, tie := .part, cls := .part, fields := [
    { sub := 0x01, ty := .uint 32, o := .no, t := .r, f := .r },
    { sub := 0x02, ty := .uint 16, o := .no, t := .rw, f := .rw, indexMask := some 0xfff },
    { sub := 0x03, ty := .octets 16, o := .no, t := .r, f := .r },
    { sub := 0x04, ty := .bool, o := .no, t := .rw, f := .rw } ] }

/-- Record `OD 2100`. -/
def recDesc2100 : RecDesc :=
  { index := 0x2100, insts := 4096, tie := .untied, cls := .config, fields := [
    { sub := 0x01, ty := .bits 32 0xffffffff, o := .r, t := .rw, f := .rw },
    { sub := 0x02, ty := .bits 32 0xffffffff, o := .r, t := .rw, f := .rw },
    { sub := 0x03, ty := .bits 32 0xffffffff, o := .r, t := .rw, f := .rw },
    { sub := 0x04, ty := .enum8 [0, 1, 2, 3], o := .rw, t := .r, f := .rw },
    { sub := 0x05, ty := .uint 32, o := .r, t := .r, f := .r },
    { sub := 0x06, ty := .uint 16, o := .rw, t := .r, f := .rw, lo := some (1), hi := some (4096), reset := 0x400 },
    { sub := 0x07, ty := .uint 16, o := .r, t := .r, f := .r, cls := some .state },
    { sub := 0x08, ty := .uint 8, o := .rw, t := .r, f := .rw, reset := 0xff },
    { sub := 0x09, ty := .octets 24, o := .rw, t := .r, f := .rw },
    { sub := 0x0A, ty := .uint 16, o := .r, t := .r, f := .r, cls := some .state },
    { sub := 0x0B, ty := .uint 32, o := .r, t := .r, f := .r, cls := some .state },
    { sub := 0x0C, ty := .uint 32, o := .r, t := .r, f := .r, cls := some .state } ] }

/-- Record `OD 2110`. -/
def recDesc2110 : RecDesc :=
  { index := 0x2110, insts := 1, tie := .untied, cls := .config, fields := [
    { sub := 0x01, ty := .uint 32, o := .rw, t := .r, f := .rw, lo := some (500), hi := some (1000000), reset := 0x7d0 } ] }

/-- Record `OD 2120`. -/
def recDesc2120 : RecDesc :=
  { index := 0x2120, insts := 4096, tie := .untied, cls := .config, fields := [
    { sub := 0x01, ty := .enum8 [0, 1, 2], o := .rw, t := .r, f := .rw } ] }

/-- Record `OD 2200`. -/
def recDesc2200 : RecDesc :=
  { index := 0x2200, insts := 32, tie := .untied, cls := .state, fields := [
    { sub := 0x01, ty := .enum8 [], o := .r, t := .no, f := .r, cls := some .live },
    { sub := 0x02, ty := .enum8 [], o := .r, t := .no, f := .r },
    { sub := 0x03, ty := .uint 64, o := .r, t := .no, f := .r },
    { sub := 0x04, ty := .uint 8, o := .r, t := .no, f := .r },
    { sub := 0x05, ty := .uint 32, o := .r, t := .no, f := .r },
    { sub := 0x06, ty := .uint 32, o := .r, t := .no, f := .r },
    { sub := 0x07, ty := .uint 16, o := .r, t := .no, f := .r } ] }

/-- Record `OD 2210`. -/
def recDesc2210 : RecDesc :=
  { index := 0x2210, insts := 32, tie := .untied, cls := .config, fields := [
    { sub := 0x01, ty := .bool, o := .rw, t := .no, f := .rw, reset := 0x1 },
    { sub := 0x02, ty := .enum8 [1], o := .w, t := .no, f := .w, cmd := true, peek := false } ] }

/-- Record `OD 3000`. -/
def recDesc3000 : RecDesc :=
  { index := 0x3000, insts := 16, tie := .stack, cls := .live, fields := [
    { sub := 0x01, ty := .enum8 [], o := .r, t := .r, f := .r },
    { sub := 0x02, ty := .uint 8, o := .r, t := .r, f := .r },
    { sub := 0x03, ty := .uint 8, o := .r, t := .r, f := .r },
    { sub := 0x04, ty := .uint 64, o := .r, t := .r, f := .r },
    { sub := 0x05, ty := .uint 8, o := .r, t := .r, f := .r },
    { sub := 0x06, ty := .uint 32, o := .r, t := .r, f := .r },
    { sub := 0x07, ty := .enum8 [], o := .r, t := .r, f := .r },
    { sub := 0x08, ty := .enum8 [], o := .r, t := .r, f := .r },
    { sub := 0x10, ty := .uint 16, o := .r, t := .r, f := .r },
    { sub := 0x11, ty := .uint 16, o := .r, t := .r, f := .rw },
    { sub := 0x12, ty := .uint 8, o := .r, t := .r, f := .r },
    { sub := 0x13, ty := .uint 32, o := .r, t := .r, f := .r },
    { sub := 0x14, ty := .uint 8, o := .r, t := .r, f := .r },
    { sub := 0x15, ty := .enum8 [], o := .r, t := .r, f := .r } ] }

/-- Record `OD 3100`. -/
def recDesc3100 : RecDesc :=
  { index := 0x3100, insts := 1024, tie := .pc, cls := .live, fields := [
    { sub := 0x01, ty := .enum8 [], o := .r, t := .r, f := .r },
    { sub := 0x02, ty := .uint 8, o := .no, t := .r, f := .r },
    { sub := 0x03, ty := .enum8 [], o := .no, t := .r, f := .r },
    { sub := 0x04, ty := .uint 8, o := .no, t := .r, f := .r } ] }

/-- Record `OD 3200`. -/
def recDesc3200 : RecDesc :=
  { index := 0x3200, insts := 16, tie := .stack, cls := .slice, fields := [
    { sub := 0x01, ty := .uint 32, o := .no, t := .r, f := .r },
    { sub := 0x02, ty := .uint 32, o := .no, t := .r, f := .r },
    { sub := 0x03, ty := .uint 32, o := .no, t := .r, f := .r },
    { sub := 0x04, ty := .uint 32, o := .no, t := .r, f := .r },
    { sub := 0x05, ty := .uint 32, o := .no, t := .r, f := .r },
    { sub := 0x06, ty := .uint 32, o := .no, t := .r, f := .r },
    { sub := 0x07, ty := .uint 32, o := .no, t := .r, f := .r } ] }

/-- Record `OD 4000`. -/
def recDesc4000 : RecDesc :=
  { index := 0x4000, insts := 16, tie := .untied, cls := .slice, fields := [
    { sub := 0x01, ty := .uint 32, o := .r, t := .r, f := .rw, reset := 0xbb80 },
    { sub := 0x02, ty := .uint 32, o := .r, t := .r, f := .rw, reset := 0x36b0 },
    { sub := 0x03, ty := .uint 32, o := .r, t := .r, f := .rw, reset := 0x36b0 },
    { sub := 0x04, ty := .uint 32, o := .r, t := .r, f := .rw, reset := 0x84d0 },
    { sub := 0x05, ty := .uint 32, o := .r, t := .r, f := .r, reset := 0x55f0 },
    { sub := 0x06, ty := .uint 32, o := .r, t := .r, f := .rw, reset := 0x2710 },
    { sub := 0x07, ty := .uint 32, o := .r, t := .r, f := .r, reset := 0x320 },
    { sub := 0x08, ty := .uint 32, o := .r, t := .r, f := .rw, reset := 0x320 },
    { sub := 0x09, ty := .uint 32, o := .r, t := .r, f := .rw, reset := 0x640 },
    { sub := 0x0A, ty := .uint 32, o := .r, t := .r, f := .rw, reset := 0x7d0 },
    { sub := 0x0B, ty := .uint 32, o := .r, t := .r, f := .rw, reset := 0xfa0 },
    { sub := 0x0C, ty := .uint 32, o := .r, t := .r, f := .rw, reset := 0x7148 },
    { sub := 0x0D, ty := .uint 32, o := .r, t := .r, f := .rw, reset := 0x3e80 },
    { sub := 0x0E, ty := .uint 32, o := .r, t := .r, f := .rw, reset := 0x1388 },
    { sub := 0x0F, ty := .uint 32, o := .r, t := .r, f := .rw, reset := 0xfa0 },
    { sub := 0x10, ty := .uint 32, o := .r, t := .r, f := .rw, reset := 0x1f40 },
    { sub := 0x11, ty := .uint 32, o := .r, t := .r, f := .rw, reset := 0x960 },
    { sub := 0x12, ty := .uint 32, o := .r, t := .r, f := .rw, reset := 0x55730 },
    { sub := 0x13, ty := .uint 32, o := .r, t := .r, f := .rw, reset := 0x3b8260 },
    { sub := 0x14, ty := .uint 32, o := .r, t := .r, f := .rw, reset := 0x2e630 },
    { sub := 0x15, ty := .uint 32, o := .r, t := .r, f := .rw, reset := 0x57e40 } ] }

/-- Record `OD 4010`. -/
def recDesc4010 : RecDesc :=
  { index := 0x4010, insts := 1, tie := .untied, cls := .config, fields := [
    { sub := 0x01, ty := .uint 32, o := .rw, t := .r, f := .rw, lo := some (200), hi := some (100000), reset := 0x7d0 },
    { sub := 0x02, ty := .uint 8, o := .rw, t := .r, f := .rw, lo := some (8), hi := some (72), reset := 0x20 },
    { sub := 0x03, ty := .uint 8, o := .rw, t := .r, f := .rw, reset := 0x8 },
    { sub := 0x04, ty := .uint 8, o := .rw, t := .r, f := .rw, lo := some (1), hi := some (32), reset := 0x8 },
    { sub := 0x05, ty := .enum8 [0, 1], o := .rw, t := .r, f := .rw } ] }

/-- Record `OD 4100`. -/
def recDesc4100 : RecDesc :=
  { index := 0x4100, insts := 16, tie := .stack, cls := .live, fields := [
    { sub := 0x01, ty := .enum8 [], o := .r, t := .r, f := .r },
    { sub := 0x02, ty := .enum8 [], o := .r, t := .r, f := .r, reset := 0xff },
    { sub := 0x03, ty := .uint 64, o := .r, t := .r, f := .r, reset := 0x1e78000 } ] }

/-- Record `OD 4200`. -/
def recDesc4200 : RecDesc :=
  { index := 0x4200, insts := 1, tie := .untied, cls := .config, fields := [
    { sub := 0x01, ty := .uint 32, o := .rw, t := .r, f := .rw, lo := some (512), hi := some (32768), reset := 0x1000 },
    { sub := 0x02, ty := .uint 32, o := .rw, t := .r, f := .rw, lo := some (500), hi := some (100000), reset := 0x7d0 },
    { sub := 0x03, ty := .uint 16, o := .rw, t := .r, f := .rw, lo := some (1), hi := some (64), reset := 0x8 } ] }

/-- Record `OD 5000`. -/
def recDesc5000 : RecDesc :=
  { index := 0x5000, insts := 8, tie := .untied, cls := .config, fields := [
    { sub := 0x01, ty := .uint 16, o := .rw, t := .r, f := .rw, lo := some (0), hi := some (256) },
    { sub := 0x02, ty := .uint 8, o := .rw, t := .r, f := .rw, lo := some (1), hi := some (64), reset := 0x10 },
    { sub := 0x03, ty := .uint 16, o := .rw, t := .r, f := .rw, lo := some (1), hi := some (1024), reset := 0x8 } ] }

/-- Record `OD 5100`. -/
def recDesc5100 : RecDesc :=
  { index := 0x5100, insts := 16, tie := .untied, cls := .config, fields := [
    { sub := 0x01, ty := .octets 64, o := .rw, t := .r, f := .rw },
    { sub := 0x02, ty := .uint 8, o := .r, t := .r, f := .r, reset := 0x3, cls := some .live } ] }

/-- Record `OD 5200`. -/
def recDesc5200 : RecDesc :=
  { index := 0x5200, insts := 4096, tie := .untied, cls := .config, fields := [
    { sub := 0x01, ty := .uint 32, o := .rw, t := .r, f := .rw, lo := some (0), hi := some (1073741824) },
    { sub := 0x02, ty := .uint 8, o := .rw, t := .r, f := .rw, lo := some (10), hi := some (20), reset := 0xc },
    { sub := 0x03, ty := .uint 16, o := .rw, t := .r, f := .rw, lo := some (1), hi := some (4096), reset := 0x40 },
    { sub := 0x04, ty := .sint 64, o := .r, t := .r, f := .r, cls := some .state },
    { sub := 0x05, ty := .uint 64, o := .r, t := .r, f := .r, cls := some .state } ] }

/-- Record `OD 5210`. -/
def recDesc5210 : RecDesc :=
  { index := 0x5210, insts := 1, tie := .untied, cls := .config, fields := [
    { sub := 0x01, ty := .enum8 [0, 1, 2, 3], o := .rw, t := .r, f := .rw, reset := 0x1, cls := some .state },
    { sub := 0x02, ty := .uint 8, o := .rw, t := .r, f := .rw, lo := some (1), hi := some (16), reset := 0x4 },
    { sub := 0x03, ty := .uint 16, o := .rw, t := .r, f := .rw, lo := some (0), hi := some (10000), reset := 0x64 },
    { sub := 0x04, ty := .uint 32, o := .r, t := .r, f := .r, cls := some .state } ] }

/-- Record `OD 6000`. -/
def recDesc6000 : RecDesc :=
  { index := 0x6000, insts := 1, tie := .untied, cls := .config, fields := [
    { sub := 0x01, ty := .uint 8, o := .rw, t := .r, f := .rw, lo := some (2), hi := some (15), reset := 0x3 },
    { sub := 0x02, ty := .uint 16, o := .rw, t := .r, f := .rw, lo := some (1), hi := some (168), reset := 0x18 },
    { sub := 0x03, ty := .uint 8, o := .rw, t := .r, f := .rw, lo := some (2), hi := some (64), reset := 0x4 },
    { sub := 0x04, ty := .uint 16, o := .rw, t := .r, f := .rw, lo := some (4), hi := some (4096), reset := 0x40 },
    { sub := 0x05, ty := .uint 8, o := .rw, t := .r, f := .rw, lo := some (1), hi := some (64), reset := 0x4 } ] }

/-- Record `OD 6010`. -/
def recDesc6010 : RecDesc :=
  { index := 0x6010, insts := 1, tie := .untied, cls := .config, fields := [
    { sub := 0x01, ty := .uint 32, o := .rw, t := .r, f := .rw, lo := some (100), hi := some (100000), reset := 0x7d0 },
    { sub := 0x02, ty := .uint 16, o := .rw, t := .r, f := .rw, lo := some (1024), hi := some (32512), reset := 0x7800 },
    { sub := 0x03, ty := .uint 16, o := .rw, t := .r, f := .rw, reset := 0x7000 } ] }

/-- Record `OD 6020`. -/
def recDesc6020 : RecDesc :=
  { index := 0x6020, insts := 1, tie := .untied, cls := .state, fields := [
    { sub := 0x01, ty := .uint 8, o := .rw, t := .no, f := .rw, reset := 0xff },
    { sub := 0x02, ty := .uint 64, o := .rw, t := .no, f := .rw, align := 32 },
    { sub := 0x03, ty := .octets 32, o := .rw, t := .no, f := .rw },
    { sub := 0x04, ty := .octets 4, o := .rw, t := .no, f := .rw },
    { sub := 0x05, ty := .enum8 [1, 2, 3, 4], o := .w, t := .no, f := .w, cmd := true, peek := false },
    { sub := 0x06, ty := .enum8 [], o := .r, t := .no, f := .r },
    { sub := 0x07, ty := .bits 64 0xffffffffffffffff, o := .r, t := .no, f := .r } ] }

/-- Record `OD 6100`. -/
def recDesc6100 : RecDesc :=
  { index := 0x6100, insts := 1024, tie := .pc, cls := .slice, fields := [
    { sub := 0x01, ty := .uint 8, o := .r, t := .r, f := .r },
    { sub := 0x02, ty := .uint 64, o := .r, t := .r, f := .r, elems := 16 },
    { sub := 0x03, ty := .bits 64 0xffffffffffffffff, o := .r, t := .r, f := .r },
    { sub := 0x04, ty := .uint 16, o := .r, t := .r, f := .r, reset := 0xffff },
    { sub := 0x05, ty := .uint 64, o := .r, t := .r, f := .r, reset := 0xffffffffffffffff },
    { sub := 0x06, ty := .uint 16, o := .r, t := .r, f := .r } ] }

/-- Record `OD 6110`. -/
def recDesc6110 : RecDesc :=
  { index := 0x6110, insts := 1, tie := .untied, cls := .config, fields := [
    { sub := 0x01, ty := .uint 32, o := .rw, t := .no, f := .rw, elems := 1024 } ] }

/-- Record `OD 6200`. -/
def recDesc6200 : RecDesc :=
  { index := 0x6200, insts := 1, tie := .untied, cls := .config, fields := [
    { sub := 0x01, ty := .uint 16, o := .rw, t := .r, f := .rw, lo := some (1), hi := some (168), reset := 0x18 } ] }

/-- Record `OD 6210`. -/
def recDesc6210 : RecDesc :=
  { index := 0x6210, insts := 16, tie := .stack, cls := .slice, fields := [
    { sub := 0x01, ty := .uint 64, o := .r, t := .r, f := .r },
    { sub := 0x02, ty := .uint 32, o := .r, t := .r, f := .r } ] }

/-- Record `OD 6300`. -/
def recDesc6300 : RecDesc :=
  { index := 0x6300, insts := 1, tie := .untied, cls := .state, fields := [
    { sub := 0x01, ty := .uint 32, o := .r, t := .r, f := .r },
    { sub := 0x02, ty := .uint 16, o := .rw, t := .rw, f := .rw, indexMask := some 0xfff },
    { sub := 0x03, ty := .octets 32, o := .r, t := .r, f := .r },
    { sub := 0x04, ty := .bool, o := .rw, t := .r, f := .rw },
    { sub := 0x05, ty := .uint 64, o := .no, t := .w, f := .w, align := 4096, peek := false },
    { sub := 0x06, ty := .uint 8, o := .w, t := .no, f := .w, peek := false } ] }

/-- Record `OD 6310`. -/
def recDesc6310 : RecDesc :=
  { index := 0x6310, insts := 16, tie := .stack, cls := .config, fields := [
    { sub := 0x01, ty := .uint 64, o := .r, t := .r, f := .r, elems := 256 } ] }

/-- Record `OD 7000`. -/
def recDesc7000 : RecDesc :=
  { index := 0x7000, insts := 64, tie := .engine, cls := .state, fields := [
    { sub := 0x01, ty := .enum8 [], o := .no, t := .r, f := .r },
    { sub := 0x02, ty := .uint 8, o := .no, t := .r, f := .r },
    { sub := 0x03, ty := .uint 8, o := .no, t := .r, f := .r, reset := 0xff },
    { sub := 0x04, ty := .uint 16, o := .no, t := .r, f := .r, reset := 0xffff },
    { sub := 0x05, ty := .uint 16, o := .no, t := .r, f := .r },
    { sub := 0x06, ty := .enum8 [], o := .no, t := .r, f := .r },
    { sub := 0x07, ty := .uint 16, o := .no, t := .r, f := .r },
    { sub := 0x08, ty := .enum8 [1, 2], o := .no, t := .w, f := .w, cmd := true, peek := false } ] }

/-- Record `OD 7010`. -/
def recDesc7010 : RecDesc :=
  { index := 0x7010, insts := 1, tie := .untied, cls := .config, fields := [
    { sub := 0x01, ty := .uint 32, o := .rw, t := .r, f := .rw, lo := some (1), hi := some (60000), reset := 0x3e8 } ] }

/-- Record `OD 7020`. -/
def recDesc7020 : RecDesc :=
  { index := 0x7020, insts := 16, tie := .part, cls := .part, fields := [
    { sub := 0x01, ty := .uint 16, o := .no, t := .rw, f := .rw, elems := 64 } ] }

/-- Record `OD 7030`. -/
def recDesc7030 : RecDesc :=
  { index := 0x7030, insts := 16, tie := .part, cls := .part, fields := [
    { sub := 0x01, ty := .uint 64, o := .no, t := .r, f := .r },
    { sub := 0x02, ty := .uint 64, o := .no, t := .r, f := .r },
    { sub := 0x03, ty := .uint 64, o := .no, t := .r, f := .r },
    { sub := 0x04, ty := .uint 64, o := .no, t := .r, f := .r },
    { sub := 0x05, ty := .uint 64, o := .no, t := .r, f := .r },
    { sub := 0x06, ty := .uint 32, o := .no, t := .rw, f := .rw, lo := some (1), hi := some (4294967295), reset := 0x1 } ] }

/-- Record `OD 7100`. -/
def recDesc7100 : RecDesc :=
  { index := 0x7100, insts := 128, tie := .prog, cls := .state, fields := [
    { sub := 0x01, ty := .enum8 [], o := .r, t := .r, f := .r },
    { sub := 0x02, ty := .enum8 [1, 2, 3], o := .no, t := .w, f := .w, cmd := true, peek := false },
    { sub := 0x03, ty := .bits 32 0xffffffff, o := .no, t := .rw, f := .rw },
    { sub := 0x04, ty := .uint 16, o := .no, t := .rw, f := .rw, lo := some (1), hi := some (512) },
    { sub := 0x05, ty := .uint 16, o := .no, t := .rw, f := .rw, lo := some (0), hi := some (511) },
    { sub := 0x06, ty := .octets 16, o := .no, t := .w, f := .w, peek := false },
    { sub := 0x07, ty := .octets 48, o := .no, t := .r, f := .r },
    { sub := 0x08, ty := .enum8 [], o := .no, t := .r, f := .r },
    { sub := 0x09, ty := .uint 32, o := .no, t := .r, f := .r },
    { sub := 0x0A, ty := .octets 48, o := .no, t := .r, f := .r } ] }

/-- Record `OD 8000`. -/
def recDesc8000 : RecDesc :=
  { index := 0x8000, insts := 256, tie := .session, cls := .state, fields := [
    { sub := 0x01, ty := .enum8 [], o := .no, t := .r, f := .r },
    { sub := 0x02, ty := .enum8 [1, 2, 3, 4, 5], o := .no, t := .w, f := .w, cmd := true, peek := false },
    { sub := 0x03, ty := .uint 8, o := .no, t := .rw, f := .rw, lo := some (0), hi := some (15) },
    { sub := 0x04, ty := .uint 64, o := .no, t := .rw, f := .rw, align := 4096 },
    { sub := 0x05, ty := .uint 64, o := .no, t := .rw, f := .rw, align := 4096 },
    { sub := 0x06, ty := .uint 64, o := .no, t := .rw, f := .rw, lo := some (1), hi := some (137438953472), reset := 0x1 },
    { sub := 0x07, ty := .enum8 [0, 1, 2, 3, 4, 8], o := .no, t := .rw, f := .rw, reset := 0x1 },
    { sub := 0x08, ty := .enum8 [0, 1, 2, 3, 4], o := .no, t := .rw, f := .rw, reset := 0x1 },
    { sub := 0x09, ty := .sint 16, o := .no, t := .rw, f := .rw, lo := some (-126), hi := some (127) },
    { sub := 0x0A, ty := .sint 8, o := .no, t := .rw, f := .rw, lo := some (-64), hi := some (63) },
    { sub := 0x0B, ty := .uint 16, o := .no, t := .rw, f := .rw, lo := some (1), hi := some (4096), reset := 0x1 },
    { sub := 0x0C, ty := .enum8 [0, 1], o := .no, t := .rw, f := .rw },
    { sub := 0x0D, ty := .uint 64, o := .no, t := .rw, f := .rw },
    { sub := 0x0E, ty := .enum8 [0, 1, 2], o := .no, t := .rw, f := .rw },
    { sub := 0x0F, ty := .uint 16, o := .no, t := .rw, f := .rw, lo := some (1), hi := some (10000), reset := 0x32 },
    { sub := 0x10, ty := .uint 32, o := .no, t := .rw, f := .rw, reset := 0x1000 },
    { sub := 0x11, ty := .enum8 [0, 1, 2, 3, 4, 5, 6, 7], o := .no, t := .rw, f := .rw, reset := 0x4 },
    { sub := 0x12, ty := .bool, o := .no, t := .rw, f := .rw },
    { sub := 0x13, ty := .uint 32, o := .no, t := .rw, f := .rw },
    { sub := 0x14, ty := .uint 16, o := .no, t := .rw, f := .rw, elems := 64 },
    { sub := 0x15, ty := .uint 16, o := .no, t := .rw, f := .rw, lo := some (0), hi := some (4095) },
    { sub := 0x16, ty := .octets 512, o := .no, t := .r, f := .r },
    { sub := 0x17, ty := .octets 512, o := .no, t := .r, f := .r },
    { sub := 0x18, ty := .uint 32, o := .no, t := .r, f := .r },
    { sub := 0x19, ty := .uint 32, o := .no, t := .r, f := .r },
    { sub := 0x1A, ty := .uint 32, o := .no, t := .r, f := .r },
    { sub := 0x1B, ty := .uint 32, o := .no, t := .r, f := .r },
    { sub := 0x1C, ty := .uint 32, o := .no, t := .r, f := .r },
    { sub := 0x1D, ty := .uint 64, o := .no, t := .r, f := .r },
    { sub := 0x1E, ty := .uint 64, o := .no, t := .r, f := .r },
    { sub := 0x1F, ty := .uint 64, o := .no, t := .r, f := .r },
    { sub := 0x20, ty := .enum8 [], o := .no, t := .r, f := .r },
    { sub := 0x21, ty := .uint 8, o := .no, t := .r, f := .r, reset := 0xff } ] }

/-- Record `OD 9000`. -/
def recDesc9000 : RecDesc :=
  { index := 0x9000, insts := 1, tie := .untied, cls := .config, fields := [
    { sub := 0x01, ty := .enum8 [0, 1, 2, 3], o := .rw, t := .r, f := .rw },
    { sub := 0x02, ty := .enum8 [], o := .r, t := .r, f := .r, cls := some .life },
    { sub := 0x03, ty := .enum8 [], o := .r, t := .r, f := .r, cls := some .state },
    { sub := 0x04, ty := .enum8 [], o := .r, t := .r, f := .r, cls := some .state },
    { sub := 0x05, ty := .uint 32, o := .rw, t := .r, f := .r, cls := some .state },
    { sub := 0x06, ty := .uint 16, o := .rw, t := .r, f := .rw, lo := some (2), hi := some (100), reset := 0xa },
    { sub := 0x07, ty := .uint 32, o := .r, t := .r, f := .r, cls := some .state },
    { sub := 0x08, ty := .octets 16, o := .w, t := .no, f := .r, peek := false },
    { sub := 0x09, ty := .octets 48, o := .rw, t := .r, f := .rw },
    { sub := 0x0A, ty := .octets 48, o := .r, t := .r, f := .r, cls := some .state },
    { sub := 0x0B, ty := .octets 48, o := .r, t := .r, f := .r, cls := some .state },
    { sub := 0x0C, ty := .uint 32, o := .r, t := .r, f := .r, reset := 0x10000, cls := some .state },
    { sub := 0x0D, ty := .uint 32, o := .r, t := .r, f := .r, cls := some .state },
    { sub := 0x0E, ty := .sint 64, o := .r, t := .r, f := .r, cls := some .state },
    { sub := 0x0F, ty := .bool, o := .rw, t := .r, f := .rw },
    { sub := 0x10, ty := .uint 32, o := .r, t := .r, f := .r, elems := 2, cls := some .state },
    { sub := 0x11, ty := .bits 8 0xff, o := .r, t := .r, f := .r, cls := some .state },
    { sub := 0x12, ty := .uint 32, o := .r, t := .r, f := .r, cls := some .state },
    { sub := 0x13, ty := .enum8 [1, 2, 3], o := .w, t := .no, f := .w, cmd := true, peek := false },
    { sub := 0x14, ty := .bool, o := .rw, t := .r, f := .rw, reset := 0x1 },
    { sub := 0x15, ty := .uint 32, o := .r, t := .r, f := .r, cls := some .state } ] }

/-- Record `OD 9010`. -/
def recDesc9010 : RecDesc :=
  { index := 0x9010, insts := 16, tie := .part, cls := .state, fields := [
    { sub := 0x01, ty := .enum8 [], o := .r, t := .r, f := .r },
    { sub := 0x02, ty := .uint 64, o := .no, t := .r, f := .r },
    { sub := 0x03, ty := .uint 8, o := .no, t := .r, f := .r, reset := 0xff } ] }

/-- Record `OD A000`. -/
def recDescA000 : RecDesc :=
  { index := 0xA000, insts := 1, tie := .untied, cls := .config, fields := [
    { sub := 0x01, ty := .sint 8, o := .rw, t := .r, f := .rw, lo := some (60), hi := some (85), reset := 0x55 },
    { sub := 0x02, ty := .sint 8, o := .rw, t := .r, f := .rw, lo := some (70), hi := some (95), reset := 0x5f },
    { sub := 0x03, ty := .sint 8, o := .rw, t := .r, f := .rw, lo := some (75), hi := some (100), reset := 0x64 },
    { sub := 0x04, ty := .sint 8, o := .rw, t := .r, f := .rw, lo := some (78), hi := some (103), reset := 0x67 },
    { sub := 0x05, ty := .sint 8, o := .rw, t := .r, f := .rw, lo := some (81), hi := some (106), reset := 0x6a },
    { sub := 0x06, ty := .sint 8, o := .rw, t := .r, f := .rw, lo := some (85), hi := some (110), reset := 0x6e },
    { sub := 0x07, ty := .sint 8, o := .rw, t := .r, f := .rw, lo := some (0), hi := some (20) },
    { sub := 0x08, ty := .sint 8, o := .rw, t := .r, f := .rw, reset := 0x5 },
    { sub := 0x09, ty := .sint 8, o := .rw, t := .r, f := .rw, lo := some (0), hi := some (30), reset := 0xa },
    { sub := 0x0A, ty := .sint 8, o := .rw, t := .r, f := .rw, lo := some (90), hi := some (105), reset := 0x69 },
    { sub := 0x0B, ty := .sint 8, o := .rw, t := .r, f := .rw, lo := some (95), hi := some (110), reset := 0x6e },
    { sub := 0x0C, ty := .sint 8, o := .rw, t := .r, f := .rw, lo := some (100), hi := some (115), reset := 0x73 },
    { sub := 0x0D, ty := .sint 8, o := .rw, t := .r, f := .rw, lo := some (110), hi := some (125), reset := 0x7d },
    { sub := 0x0E, ty := .uint 8, o := .rw, t := .r, f := .rw, lo := some (1), hi := some (8), reset := 0x3 },
    { sub := 0x0F, ty := .enum8 [0, 1, 2, 3, 4], o := .rw, t := .r, f := .rw },
    { sub := 0x10, ty := .uint 16, o := .rw, t := .r, f := .rw, lo := some (1), hi := some (1000), reset := 0xa },
    { sub := 0x11, ty := .bool, o := .rw, t := .r, f := .rw, reset := 0x1 } ] }

/-- Record `OD A010`. -/
def recDescA010 : RecDesc :=
  { index := 0xA010, insts := 16, tie := .stack, cls := .live, fields := [
    { sub := 0x01, ty := .sint 8, o := .r, t := .r, f := .r, reset := 0x80 },
    { sub := 0x02, ty := .enum8 [], o := .r, t := .r, f := .r },
    { sub := 0x03, ty := .enum8 [], o := .r, t := .r, f := .r },
    { sub := 0x04, ty := .enum8 [], o := .r, t := .r, f := .r },
    { sub := 0x05, ty := .bool, o := .r, t := .r, f := .r },
    { sub := 0x06, ty := .sint 8, o := .r, t := .r, f := .r, elems := 16, reset := 0x80 },
    { sub := 0x07, ty := .sint 8, o := .r, t := .r, f := .r, reset := 0x80 },
    { sub := 0x08, ty := .bits 32 0xffffffff, o := .r, t := .r, f := .r },
    { sub := 0x09, ty := .uint 32, o := .r, t := .r, f := .r, cls := some .state } ] }

/-- Record `OD A020`. -/
def recDescA020 : RecDesc :=
  { index := 0xA020, insts := 1, tie := .untied, cls := .live, fields := [
    { sub := 0x01, ty := .sint 8, o := .r, t := .r, f := .r, reset := 0x80 },
    { sub := 0x02, ty := .uint 8, o := .r, t := .r, f := .r },
    { sub := 0x03, ty := .bits 32 0xffffffff, o := .r, t := .r, f := .r } ] }

/-- Record `OD A030`. -/
def recDescA030 : RecDesc :=
  { index := 0xA030, insts := 1, tie := .untied, cls := .live, fields := [
    { sub := 0x01, ty := .uint 32, o := .r, t := .r, f := .r },
    { sub := 0x02, ty := .uint 32, o := .r, t := .r, f := .r },
    { sub := 0x03, ty := .uint 32, o := .r, t := .r, f := .r, elems := 16 } ] }

/-- Record `OD A100`. -/
def recDescA100 : RecDesc :=
  { index := 0xA100, insts := 1024, tie := .pc, cls := .slice, fields := [
    { sub := 0x01, ty := .enum8 [], o := .r, t := .r, f := .r },
    { sub := 0x02, ty := .sint 8, o := .r, t := .r, f := .r, reset := 0x80 },
    { sub := 0x03, ty := .uint 64, o := .r, t := .r, f := .r },
    { sub := 0x04, ty := .uint 32, o := .r, t := .r, f := .r },
    { sub := 0x05, ty := .uint 8, o := .r, t := .r, f := .r },
    { sub := 0x06, ty := .uint 8, o := .r, t := .r, f := .r, elems := 38, reset := 0x20 },
    { sub := 0x07, ty := .uint 8, o := .r, t := .r, f := .r, reset := 0x20 } ] }

/-- Record `OD A110`. -/
def recDescA110 : RecDesc :=
  { index := 0xA110, insts := 1, tie := .untied, cls := .config, fields := [
    { sub := 0x01, ty := .uint 8, o := .rw, t := .r, f := .rw, lo := some (1), hi := some (16), reset := 0x4 },
    { sub := 0x02, ty := .uint 32, o := .rw, t := .r, f := .rw, lo := some (100), hi := some (60000), reset := 0x3e8 },
    { sub := 0x03, ty := .uint 8, o := .rw, t := .r, f := .rw, lo := some (2), hi := some (16), reset := 0x8 },
    { sub := 0x04, ty := .uint 8, o := .rw, t := .r, f := .rw, lo := some (12), hi := some (20), reset := 0x10 } ] }

/-- Record `OD B000`. -/
def recDescB000 : RecDesc :=
  { index := 0xB000, insts := 64, tie := .untied, cls := .mailbox, fields := [
    { sub := 0x01, ty := .uint 16, o := .rw, t := .no, f := .rw },
    { sub := 0x02, ty := .uint 16, o := .rw, t := .no, f := .rw, reset := 0xfff },
    { sub := 0x03, ty := .uint 16, o := .rw, t := .no, f := .rw },
    { sub := 0x04, ty := .uint 16, o := .rw, t := .no, f := .rw, reset := 0xfff },
    { sub := 0x05, ty := .bool, o := .rw, t := .no, f := .rw },
    { sub := 0x06, ty := .uint 32, o := .rw, t := .no, f := .rw, lo := some (10), hi := some (10000), reset := 0x64 } ] }

/-- Record `OD B010`. -/
def recDescB010 : RecDesc :=
  { index := 0xB010, insts := 1, tie := .untied, cls := .state, fields := [
    { sub := 0x01, ty := .bool, o := .r, t := .no, f := .rw } ] }

/-- Record `OD B020`. -/
def recDescB020 : RecDesc :=
  { index := 0xB020, insts := 64, tie := .untied, cls := .mailbox, fields := [
    { sub := 0x01, ty := .uint 8, o := .r, t := .no, f := .r },
    { sub := 0x02, ty := .uint 8, o := .r, t := .no, f := .r },
    { sub := 0x03, ty := .bits 8 0xff, o := .r, t := .no, f := .r },
    { sub := 0x04, ty := .uint 16, o := .r, t := .no, f := .r },
    { sub := 0x05, ty := .uint 16, o := .r, t := .no, f := .r },
    { sub := 0x06, ty := .uint 32, o := .r, t := .no, f := .r },
    { sub := 0x07, ty := .uint 32, o := .r, t := .no, f := .r } ] }

/-- Record `OD B100`. -/
def recDescB100 : RecDesc :=
  { index := 0xB100, insts := 32, tie := .route, cls := .config, fields := [
    { sub := 0x01, ty := .enum8 [0, 1, 2, 3], o := .rw, t := .rw, f := .rw },
    { sub := 0x02, ty := .uint 16, o := .rw, t := .rw, f := .rw },
    { sub := 0x03, ty := .bits 64 0x3fffffffffff, o := .rw, t := .rw, f := .rw },
    { sub := 0x04, ty := .uint 16, o := .rw, t := .rw, f := .rw, lo := some (1), hi := some (1000), reset := 0x40 },
    { sub := 0x05, ty := .uint 16, o := .r, t := .r, f := .r, cls := some .state },
    { sub := 0x06, ty := .enum8 [1], o := .w, t := .w, f := .w, cmd := true, peek := false },
    { sub := 0x07, ty := .uint 32, o := .r, t := .r, f := .r, cls := some .state },
    { sub := 0x08, ty := .uint 32, o := .r, t := .r, f := .r, cls := some .state } ] }

/-- Record `OD B110`. -/
def recDescB110 : RecDesc :=
  { index := 0xB110, insts := 1, tie := .untied, cls := .state, fields := [
    { sub := 0x01, ty := .uint 32, o := .r, t := .r, f := .r },
    { sub := 0x02, ty := .uint 16, o := .rw, t := .rw, f := .rw, indexMask := some 0x3ff },
    { sub := 0x03, ty := .octets 128, o := .r, t := .r, f := .r },
    { sub := 0x04, ty := .bool, o := .rw, t := .r, f := .rw } ] }

/-- Record `OD B130`. -/
def recDescB130 : RecDesc :=
  { index := 0xB130, insts := 1280, tie := .watermark, cls := .state, fields := [
    { sub := 0x01, ty := .bool, o := .r, t := .r, f := .r },
    { sub := 0x02, ty := .bool, o := .r, t := .r, f := .r },
    { sub := 0x03, ty := .bool, o := .r, t := .r, f := .r },
    { sub := 0x04, ty := .uint 32, o := .r, t := .r, f := .r },
    { sub := 0x05, ty := .uint 64, o := .r, t := .r, f := .r },
    { sub := 0x06, ty := .enum8 [1, 2], o := .w, t := .w, f := .w, cmd := true, peek := false } ] }

/-- Record `OD C000`. -/
def recDescC000 : RecDesc :=
  { index := 0xC000, insts := 1024, tie := .pc, cls := .slice, fields := [
    { sub := 0x01, ty := .uint 64, o := .r, t := .r, f := .r, elems := 24 },
    { sub := 0x02, ty := .uint 64, o := .r, t := .r, f := .r, elems := 24 },
    { sub := 0x03, ty := .enum8 [1], o := .w, t := .w, f := .w, cmd := true, peek := false } ] }

/-- Record `OD C010`. -/
def recDescC010 : RecDesc :=
  { index := 0xC010, insts := 16, tie := .stack, cls := .slice, fields := [
    { sub := 0x01, ty := .uint 64, o := .r, t := .r, f := .r, elems := 24 } ] }

/-- Record `OD C100`. -/
def recDescC100 : RecDesc :=
  { index := 0xC100, insts := 256, tie := .selectable, cls := .state, fields := [
    { sub := 0x01, ty := .uint 16, o := .rw, t := .rw, f := .rw },
    { sub := 0x02, ty := .uint 16, o := .rw, t := .rw, f := .rw },
    { sub := 0x03, ty := .uint 64, o := .r, t := .r, f := .r },
    { sub := 0x04, ty := .uint 64, o := .r, t := .r, f := .r },
    { sub := 0x05, ty := .enum8 [1], o := .w, t := .w, f := .w, cmd := true, peek := false } ] }

/-- Record `OD C200`. -/
def recDescC200 : RecDesc :=
  { index := 0xC200, insts := 1, tie := .untied, cls := .state, fields := [
    { sub := 0x01, ty := .enum8 [1, 2, 3], o := .w, t := .no, f := .w, cmd := true, peek := false },
    { sub := 0x02, ty := .bool, o := .r, t := .r, f := .r },
    { sub := 0x03, ty := .uint 64, o := .r, t := .r, f := .r },
    { sub := 0x04, ty := .uint 32, o := .r, t := .r, f := .r } ] }

/-- Record `OD C300`. -/
def recDescC300 : RecDesc :=
  { index := 0xC300, insts := 1, tie := .untied, cls := .state, fields := [
    { sub := 0x01, ty := .bool, o := .rw, t := .no, f := .rw },
    { sub := 0x02, ty := .uint 8, o := .rw, t := .no, f := .rw, lo := some (8), hi := some (20), reset := 0x10 },
    { sub := 0x03, ty := .uint 32, o := .rw, t := .no, f := .rw, reset := 0x1 } ] }

/-- Record `OD C310`. -/
def recDescC310 : RecDesc :=
  { index := 0xC310, insts := 1, tie := .untied, cls := .state, fields := [
    { sub := 0x01, ty := .uint 32, o := .r, t := .r, f := .r },
    { sub := 0x02, ty := .uint 16, o := .rw, t := .rw, f := .rw, indexMask := some 0xfff },
    { sub := 0x03, ty := .octets 64, o := .r, t := .r, f := .r },
    { sub := 0x04, ty := .bool, o := .rw, t := .r, f := .rw } ] }

/-- Record `OD D000`. -/
def recDescD000 : RecDesc :=
  { index := 0xD000, insts := 1, tie := .untied, cls := .state, fields := [
    { sub := 0x01, ty := .uint 32, o := .r, t := .r, f := .r },
    { sub := 0x02, ty := .uint 8, o := .rw, t := .rw, f := .rw, indexMask := some 0xff },
    { sub := 0x03, ty := .octets 32, o := .r, t := .r, f := .r },
    { sub := 0x04, ty := .bool, o := .rw, t := .r, f := .rw } ] }

/-- Record `OD D020`. -/
def recDescD020 : RecDesc :=
  { index := 0xD020, insts := 1, tie := .untied, cls := .state, fields := [
    { sub := 0x01, ty := .uint 32, o := .r, t := .no, f := .r },
    { sub := 0x02, ty := .uint 32, o := .r, t := .no, f := .r, elems := 16 },
    { sub := 0x03, ty := .octets 16, o := .no, t := .no, f := .r } ] }

/-- Record `OD D021`. -/
def recDescD021 : RecDesc :=
  { index := 0xD021, insts := 16, tie := .part, cls := .part, fields := [
    { sub := 0x01, ty := .uint 32, o := .no, t := .r, f := .r },
    { sub := 0x02, ty := .octets 16, o := .no, t := .r, f := .r } ] }

/-- Record `OD E000`. -/
def recDescE000 : RecDesc :=
  { index := 0xE000, insts := 1, tie := .untied, cls := .state, fields := [
    { sub := 0x01, ty := .enum8 [], o := .r, t := .r, f := .r },
    { sub := 0x02, ty := .bool, o := .r, t := .r, f := .r },
    { sub := 0x03, ty := .bits 8 0xff, o := .r, t := .r, f := .r } ] }

/-- Every record of the dictionary, area by area. -/
def dictRecords : List RecDesc :=
  [recDesc0010, recDesc0020, recDesc0030, recDesc0040] ++
  [recDesc1000, recDesc1100, recDesc1200, recDesc1300, recDesc1310, recDesc1400] ++
  [recDesc2000, recDesc2010, recDesc2020, recDesc2100, recDesc2110, recDesc2120, recDesc2200, recDesc2210] ++
  [recDesc3000, recDesc3100, recDesc3200] ++
  [recDesc4000, recDesc4010, recDesc4100, recDesc4200] ++
  [recDesc5000, recDesc5100, recDesc5200, recDesc5210] ++
  [recDesc6000, recDesc6010, recDesc6020, recDesc6100, recDesc6110, recDesc6200, recDesc6210, recDesc6300, recDesc6310] ++
  [recDesc7000, recDesc7010, recDesc7020, recDesc7030, recDesc7100] ++
  [recDesc8000] ++
  [recDesc9000, recDesc9010] ++
  [recDescA000, recDescA010, recDescA020, recDescA030, recDescA100, recDescA110] ++
  [recDescB000, recDescB010, recDescB020, recDescB100, recDescB110, recDescB130] ++
  [recDescC000, recDescC010, recDescC100, recDescC200, recDescC300, recDescC310] ++
  [recDescD000, recDescD020, recDescD021] ++
  [recDescE000]

/-- The highest subindex of a record, what its subindex 00 reads (R311). -/
def RecDesc.highest (r : RecDesc) : Nat := r.fields.foldl (fun m f => max m f.sub) 0

/-- The record of an index. -/
def recOf (index : Nat) : Option RecDesc := dictRecords.find? (fun r => r.index == index)

/-- The field a register names. -/
def fieldOf (r : Reg) : Option FieldDesc := (recOf r.index).bind (fun d => d.fields.find? (fun f => f.sub == r.sub))

/-- Width in bits of one element (OCTETS(n) is one value of 8n bits, byte i at bits 8i+7..8i). -/
def OdType.width : OdType → Nat
  | .uint b => b
  | .sint b => b
  | .bool => 8
  | .enum8 _ => 8
  | .bits w _ => w
  | .octets n => 8 * n

/-- Width of a register in bits, 64 where it is not in the dictionary. -/
def Reg.width (r : Reg) : Nat := match fieldOf r with
  | some f => f.ty.width
  | none => 64

/-- One number per (index, instance, subindex, element): the key of the register file. -/
def odKey (r : Reg) (inst elem : Nat) : Nat :=
  ((r.index * 4096 + inst % 4096) * 256 + r.sub % 256) * 4096 + elem % 4096

/-- The register a key names. -/
def keyReg (k : Nat) : Reg := ⟨k / 4294967296, k / 4096 % 256⟩

/-- The instance a key names. -/
def keyInst (k : Nat) : Nat := k / 1048576 % 4096

/-- Byte i of the default frame (R111), by j = i mod 8 and block = i div 8. -/
def defaultFrameByte (i : Nat) : Nat :=
  match i % 8 with
  | 0 => 0
  | 1 => 1
  | 2 => 2
  | 3 => 3
  | 4 => 0
  | 5 => if i / 8 % 2 = 0 then 4 else 5
  | 6 => if i / 8 % 2 = 0 then 6 else 7
  | _ => 0xff

/-- The default frame map as one OCTETS(64) value (R111). -/
def defaultFrameMap : Nat := (List.range 64).foldl (fun a i => a + defaultFrameByte i * 2 ^ (8 * i)) 0

/-- The bits of a route mask from the event kinds it names. -/
def kindMask (ks : List Nat) : Nat := ks.foldl (fun a k => a ||| 2 ^ k) 0

/-- The reset masks of the routes (R349). -/
def routeMaskReset (k : Nat) : Nat :=
  if k = 0 then kindMask [0x21, 0x25, 0x26]
  else if k = 1 then kindMask [0x17, 0x18, 0x19, 0x1a, 0x1b, 0x1c, 0x1d, 0x1e, 0x1f, 0x20]
  else if k = 2 then kindMask [1, 2, 3, 4]
  else if k = 3 then kindMask [5, 6, 7, 0x22, 0x23, 0x24, 0x27, 0x28, 0x29, 0x2d]
  else if k < 16 then 0
  else kindMask [4, 8, 0x16]

/-- What a register reads when nothing has been written since the reset of its class: the Reset column of its record
table (the log names the values of the registers whose tables state none). -/
def odDefault (k : Nat) : Nat :=
  let r := keyReg k
  let i := keyInst k
  if r = Od.classQuota then (if i = 0 then 64 else if i < 4 then 48 else 0)
  else if r = Od.frameMap then defaultFrameMap
  else if r = Od.routeKind then (if i < 4 then 3 else 0)
  else if r = Od.routeTarget then (if i < 4 then i else 0)
  else if r = Od.routeMask then routeMaskReset i
  else match fieldOf r with
    | some f => f.reset
    | none => 0

/-- The reset class of a register (R405). -/
def Reg.cls (r : Reg) : ResetCls := match recOf r.index with
  | none => .live
  | some d => match d.fields.find? (fun f => f.sub == r.sub) with
    | some f => f.cls.getD d.cls
    | none => d.cls

end Sys2Proof.Machine
end

