-- ==== Sys2Proof/Machine/StateTypes.lean ====
section
/-! DEFINITION. The records the hub and the slices keep: plain data, one structure per thing the spec names (a qanat
module, a port, a tracker entry, an arbiter, a pseudo-channel, a queue entry, a write-combining sector, ...). -/

namespace Sys2Proof.Machine

/-! ### Qanat modules and span ports (R15, R16, R18, R244) -/

/-- State of a qanat module or of a span port. -/
inductive LinkState
  | off | up | retrain | failed
  deriving DecidableEq, Repr

/-- One flit as sent: sequence number, kind, virtual channel, payload bytes. -/
structure Flit where
  fseq : Nat
  kind : Nat
  vc : Nat
  payload : List Byte
  deriving DecidableEq, Repr

/-- One end of a qanat module or one span port. `buf` is the replay buffer (unacknowledged flits, oldest first);
`firstFail` the time of the first failed transmission of the oldest one. -/
structure Link where
  st : LinkState := .off
  half : Bool := false
  txSeq : Nat := 0
  rxSeq : Nat := 4095
  nak : Bool := false
  buf : List Flit := []
  rx : List Flit := []
  replays : Nat := 0
  retrains : Nat := 0
  firstFail : Option Nat := none
  lastRx : Nat := 0
  tagFails : List Nat := []
  deriving DecidableEq, Repr

/-! ### Requests -/

/-- A request as the ports hold it (R54): header fields, arrival times, and what its data beats have brought. -/
structure Rq where
  uid : Nat := 0
  op : Nat := 0
  port : Nat := 0
  requester : Nat := 0
  epoch : Nat := 0
  tag : Nat := 0
  seq : Option Nat := none
  label : Nat := 0
  secure : Bool := false
  len : Nat := 0
  subop : Nat := 0
  ext : Nat := 0
  addr : Nat := 0
  arrived : Nat := 0
  start : Nat := 0
  beatsLeft : Nat := 0
  data : List Byte := []
  mask : List Bool := []
  psn : List Bool := []
  parBad : Bool := false
  isRepeat : Bool := false
  wasDeferred : Bool := false
  deriving DecidableEq, Repr

/-- Where a tracker entry stands. -/
inductive TrkPhase
  | waitData | queued | forwarded | held | dict | mailbox | parked | waitOriginal | responding
  deriving DecidableEq, Repr

/-- The ten sampling points of a tagged request and the fields its record takes (R367, R368). -/
structure Sample where
  points : List (Option Nat) := []
  pc : Nat := 0
  bank : Nat := 0
  rowHit : Bool := false
  coherent : Bool := false
  snooped : Bool := false
  paceHub : Nat := 0
  paceSlice : Nat := 0
  level : Nat := 0
  deriving DecidableEq, Repr

/-- A tracker entry (R56, R61, R62, R63). `orphan`: the response is discarded (old epoch, timed out, port lost). -/
structure Tracker where
  rq : Rq
  cls : Nat := 0
  stack : Option Nat := none
  part : Option Nat := none
  phase : TrkPhase := .waitData
  granted : Bool := false
  orphan : Bool := false
  released : Bool := false
  piecesLeft : Nat := 0
  status : Nat := 0
  poison : List Bool := []
  out : List (Nat × List Byte) := []
  sample : Option Sample := none
  deriving DecidableEq, Repr

/-- A response, BISNP or EVT unit on its way through port egress (R54, R396). `after`: the tracker entry whose
response it must follow; `trk`: the tracker entry its last beat releases. -/
structure OutUnit where
  op : Nat
  requester : Nat
  tag : Nat
  status : Nat := 0
  isRepeat : Bool := false
  data : List Byte := []
  psn : List Bool := []
  subop : Nat := 0
  addr : Nat := 0
  trk : Option Nat := none
  after : Option Nat := none
  wm : Option Nat := none
  ready : Nat := 0
  cls : Nat := 7
  deriving DecidableEq, Repr

/-- What becomes of the data beats still to come on a port: they belong to request `uid`, or are discarded. -/
structure BeatWait where
  uid : Option Nat
  left : Nat
  deriving DecidableEq, Repr

/-- A fabric port beyond its dictionary record. `ingress`: headers that have not left port ingress, oldest first;
`blockedSince`: since when credits are withheld (R60, R61). -/
structure Port where
  ingress : List Rq := []
  beats : List BeatWait := []
  deferred : List Rq := []
  held : Option Rq := none
  refusals : List (Nat × OutUnit) := []
  ready : List OutUnit := []
  bisnps : List OutUnit := []
  evts : List OutUnit := []
  sending : Option OutUnit := none
  generation : Nat := 0
  blockedSince : Option Nat := none
  idleFrom : Option Nat := none
  deriving DecidableEq, Repr

/-! ### Stack ingress arbiters (R99 to R116) -/

/-- The grant a stack ingress is passing, or the one already decided: source, class, headers passed. -/
structure Grant where
  source : Nat
  cls : Nat
  passed : Nat := 0
  deriving DecidableEq, Repr

/-- One stack ingress arbiter. Queues and ages are keyed source·8 + class; sources 0–31 ports, 32 span, 33 steward. -/
structure Arb where
  queues : Table (List Nat) := []
  ages : Table Nat := []
  rr : Table Nat := []
  quotaUsed : Table Nat := []
  quotaNow : Table Nat := []
  ageNow : Table Nat := []
  missNow : Table Nat := []
  windowGrants : Nat := 0
  current : Option Grant := none
  next : Option Grant := none
  dead : Bool := false
  mapNow : Option Nat := none
  slotClass : Option Nat := none
  slotWaiting : Bool := false
  slotGranted : Bool := false
  periodMiss : Table Nat := []
  deriving DecidableEq, Repr

/-! ### Slices -/

/-- Who an access is for (R75): host request, engine, eviction, parity, scrubber, firmware. -/
structure Who where
  source : Nat
  cls : Nat
  attr : Option Nat
  tag : Nat := 0
  deriving DecidableEq, Repr

/-- A piece of a request at a slice: the bytes of one sector it reads or writes. `off` is the offset of the first byte
within the stack; `gathered`: lines whose full fan-out has ended (R151); `bad`: lines that are LOST (R145). -/
structure Piece where
  trk : Nat
  op : Nat
  stack : Nat
  off : Nat
  dpa : Nat
  len : Nat
  part : Option Nat := none
  requester : Nat := 0
  cls : Nat := 0
  data : List Byte := []
  mask : List Bool := []
  psn : List Bool := []
  subop : Nat := 0
  first : Bool := true
  gathered : List Nat := []
  source : Nat := 0
  bad : List Nat := []
  deriving DecidableEq, Repr

/-- A command-queue entry (R75), with the code words a write carries and how many columns are released. -/
structure QEntry where
  kind : Nat
  who : Who
  bank : Nat
  row : Nat
  col : Nat
  ncol : Nat
  promoted : Option Nat := none
  rawWait : Bool := false
  arrival : Nat
  sector : Nat
  words : List (List Byte) := []
  done : Nat := 0
  dpa : Nat := 0
  part : Option Nat := none
  want : List Nat := []
  deriving DecidableEq, Repr

/-- A bank: open row, times of its last commands in ps, streak of row hits (R79, R80). -/
structure Bank where
  row : Option Nat := none
  actAt : Option Nat := none
  preAt : Option Nat := none
  lastRead : Option Nat := none
  lastWrite : Option Nat := none
  streak : Nat := 0
  deriving DecidableEq, Repr

/-- A live throttle (R91). -/
structure Throttle where
  requester : Nat
  bank : Nat
  expiry : Nat
  deriving DecidableEq, Repr

/-- An entry of the correctable-error history (R125). -/
structure CeEntry where
  colAddr : Nat
  count : Nat
  since : Nat
  deriving DecidableEq, Repr

/-- A pseudo-channel beyond its dictionary records; `reqActs`: the activates of the last 100 µs by requester and bank (R91). -/
structure Pc where
  ptr : Nat := 0
  lastGrp : Nat := 0
  acts : List (Nat × Nat) := []
  lastCol : Option (Nat × Nat × Bool) := none
  colsSinceTurn : Nat := 1
  fwWrites : Nat := 0
  slotUntil : Option Nat := none
  nextDue : Option Nat := none
  rfmQueued : List Nat := []
  rfmWaiting : List Nat := []
  throttles : List Throttle := []
  reqActs : List (Nat × Nat × Nat) := []
  pauseReq : Option Nat := none
  pauseUntil : Option Nat := none
  pauseAfter : Nat := 0
  emptySince : Nat := 0
  attempts : Nat := 0
  history : List CeEntry := []
  laneHits : List (Nat × Nat × Nat) := []
  calSlice : Option Int := none
  ueSeen : List (Nat × Nat) := []
  unspared : List Nat := []
  sparing : List Nat := []
  rebuildRow : Option Nat := none
  inflight : List (Nat × QEntry) := []
  ppr : Option Nat := none
  deriving DecidableEq, Repr

/-- A row-activity tracker entry (R88). `slots`: up to four (requester, count) attributions. -/
structure RaEntry where
  valid : Bool := false
  row : Nat := 0
  acts : Nat := 0
  slots : List (Nat × Nat) := [(0, 0), (0, 0), (0, 0), (0, 0)]
  pending : Bool := false
  deriving DecidableEq, Repr

/-- A write-combining sector (R45, R122, R123): its valid bytes, lines marked poisoned, what travels with it,
the columns its read has brought (column, outcome 0 to 3, ciphertext), and the class of a read that forces it out. -/
structure Wcb where
  bytes : Table Byte := []
  marked : List Nat := []
  firstAt : Nat := 0
  order : Nat := 0
  cls : Nat := 0
  attr : Option Nat := none
  part : Option Nat := none
  dpa : Nat := 0
  merges : Nat := 0
  old : List (Nat × Nat × List Byte) := []
  force : Option Nat := none
  deriving DecidableEq, Repr

/-- What fills a pseudo-channel where nothing has been written since (R37, R287): zeros encrypted under a key with the
tweak of an epoch, laid out by a grain, by SIDs and, for a parity group, by its stacks. -/
structure Fill where
  key : BitVec 512
  epoch : Nat
  gb : Nat
  sids : Nat
  group : List Nat := []
  deriving DecidableEq, Repr

/-! ### Coherence directory (R143 to R158) -/

/-- State of a directory way (R143). -/
inductive DirState
  | invalid | shared | owned | lost
  deriving DecidableEq, Repr

/-- A directory entry (R143). `ptrs`: up to four holders (POINTERS mode); `groups`: the 64 group bits (COARSE). -/
structure DirEntry where
  st : DirState := .invalid
  busy : Bool := false
  coarse : Bool := false
  tag : Nat := 0
  ptrs : List Nat := []
  groups : Nat := 0
  ownerEpoch : Nat := 0
  home : Nat := 0
  part : Nat := 0
  deriving DecidableEq, Repr

/-- A busy line (R145, R150, R151): its way, how many snoops are out, whether it gathers an unknown line's copies. -/
structure DirPend where
  key : Nat
  line : Nat
  stack : Nat
  left : Nat
  gather : Bool := false
  deriving DecidableEq, Repr

/-- A snoop (R146): to whom, for which line, DATA or INV, the directory way, whether it goes to the owner. `sentAt`: when
its BISNP left egress. -/
structure Snoop where
  requester : Nat
  dpa : Nat
  data : Bool
  dirKey : Nat
  owner : Bool := false
  sentAt : Option Nat := none
  deriving DecidableEq, Repr

/-! ### Caravan programs and launches (R163 to R187) -/

/-- A slice's copy of a program, with its digest's check result (R167). -/
structure ProgCopy where
  steps : List (BitVec 128) := []
  bind : Nat := 0
  valid : Bool := true
  deriving DecidableEq, Repr

/-- A launch descriptor (R180): PULL or PUSH over `size` 4 KiB units from `base`. -/
structure Desc where
  kind : Nat
  anyReq : Bool := false
  requester : Nat := 0
  base : Nat := 0
  size : Nat := 0
  deadline : Nat := 0
  armedAt : Option Nat := none
  lines : Table Bool := []
  expired : Bool := false
  deriving DecidableEq, Repr

/-- A launch, queued or running (R170, R171). -/
structure Launch where
  prog : Nat
  launcher : Option Nat
  seq : Nat
  cls : Nat
  regs : List Nat
  descs : List Desc := []
  trk : Option Nat := none
  engine : Nat := 15
  stack : Nat := 0
  deriving DecidableEq, Repr

/-- What a WAIT is waiting for (R177). -/
structure WaitOn where
  kind : Nat
  arg : Nat
  since : Nat
  timeout : Nat
  chunk : Nat := 0
  count : Nat := 0
  cont : Option Nat := none
  deriving DecidableEq, Repr

/-- The GCM state of a digest context (R281): IV, additional authenticated data, ciphertext since INIT. -/
structure Gcm where
  iv : List Byte
  aad : List Byte
  text : List Byte := []
  deriving DecidableEq, Repr

/-- An engine beyond its dictionary record (R159, R171, R175, R176). `sha`: the four digest contexts (bytes absorbed);
`gcm`: their INGEST streams. -/
structure Engine where
  queue : List Launch := []
  run : Option Launch := none
  regs : List Nat := []
  pc : Nat := 0
  loops : Table Nat := []
  sha : List (List Byte) := [[], [], [], []]
  gcm : List (Option Gcm) := [none, none, none, none]
  wait : Option WaitOn := none
  startedAt : Nat := 0
  limit : Nat := 0
  touched : List Nat := []
  deriving DecidableEq, Repr

/-! ### Reductions (R215 to R236) -/

/-- Status of a chunk (R220). -/
inductive ChunkState
  | fresh | opened | final | partialSum
  deriving DecidableEq, Repr

/-- A chunk slot (R224): accumulators in LSBs of 2^(E_b − 100), special bits, contributor bitmap. `due`: its finalization
waits (for snoops, or for the standby, R152, R252), and whether it is partial; `waitSeq`: the mirror message it waits
for. -/
structure Slot where
  acc : List Int := []
  nan : List Bool := []
  pinf : List Bool := []
  ninf : List Bool := []
  bits : Nat := 0
  saturated : Bool := false
  allocTime : Nat := 0
  timerDone : Bool := false
  due : Option Bool := none
  waitSeq : Option Nat := none
  deriving DecidableEq, Repr

/-- A chunk that is not fresh: its status, its slot while open, whether its map entry is written, and the evictions its
map entry waits for. -/
structure Chunk where
  st : ChunkState := .fresh
  slot : Option Slot := none
  mapped : Bool := false
  finishedAt : Nat := 0
  deriving DecidableEq, Repr

/-- A session beyond its dictionary record: where it accumulates, pages held there, its chunks, its park list (tracker
entries, oldest first), the effective straggler time, whether PREPARING reads the map back after a takeover, and the finish
instants SIROCCO averages. -/
structure Session where
  stack : Nat := 0
  proxy : Option Nat := none
  statusPages : Nat := 0
  slotPages : Nat := 0
  chunks : Table Chunk := []
  parked : List Nat := []
  stragglerNs : Nat := 0
  openedAt : Nat := 0
  preparedAt : Nat := 0
  reread : Bool := false
  finishes : List Nat := []
  deriving DecidableEq, Repr

/-! ### Parity, degrade, resync (R237 to R243, R258) -/

/-- An intent entry of a parity slice (R238). -/
structure Intent where
  count : Int := 0
  deriving DecidableEq, Repr

/-- A delta on its way to the parity sector (R237): physical offset, bytes, writes merged into it. -/
structure Delta where
  stripeStack : Nat
  dataStack : Nat
  parityStack : Nat
  off : Nat
  bytes : List Byte
  merges : Nat
  cls : Nat
  deriving DecidableEq, Repr

/-- A settle notice on its way back to the intent table: parity stack, data stack, sector, writes settled. -/
structure Settle where
  parityStack : Nat
  dataStack : Nat
  off : Nat
  merges : Nat
  deriving DecidableEq, Repr

/-- A degrade in progress (R239): the failed stack, its partition, when it was declared, how far it is. -/
structure Degrade where
  stack : Nat
  part : Nat
  since : Nat
  collected : Bool := false
  deriving DecidableEq, Repr

/-- A mirror message waiting for the peer (R252): what it is, its bytes, the tracker entry whose response it holds. -/
structure Mirror where
  seqNo : Nat
  kind : Nat
  dpa : Nat := 0
  data : List Byte := []
  mask : List Bool := []
  marked : List Nat := []
  key : Nat := 0
  value : Nat := 0
  requester : Nat := 0
  seq : Option Nat := none
  status : Nat := 0
  trk : Option Nat := none
  deriving DecidableEq, Repr

/-! ### Mailboxes (R331 to R344) -/

/-- A queued word with its writer's tag (R331): requester ID + 1 (2000h for a steward), epoch, across_reset. -/
structure MbWord where
  data : BitVec 64
  writer : Nat
  epoch : Nat
  across : Bool := false
  deriving DecidableEq, Repr

/-- One direction of a mailbox channel: words oldest first, TIMEOUT flag, drain timer, peer_reset for the reader,
owner of the lock (0 free, requester ID + 1, 2000h + core·10000h for a steward core), steward cores that wait for it and
since when. -/
structure MbQueue where
  words : List MbWord := []
  timedOut : Bool := false
  timer : Option Nat := none
  peerReset : Bool := false
  lock : Nat := 0
  acquiring : List (Nat × Nat) := []
  deriving DecidableEq, Repr

/-! ### Dictionary protocol (R316 to R321) -/

/-- A subscription (R321). -/
structure Subscription where
  session : Nat
  index : Nat
  inst : Nat
  sub : Nat
  intervalMs : Nat
  nextAt : Nat := 0
  last : List Nat := []
  deriving DecidableEq, Repr

/-- An outgoing management-stream message: to a session (or none), opcode or SPDM code, status, echoed request id, items
(address, status, value bytes). -/
structure MsMsg where
  session : Option Nat
  code : Nat
  status : Nat
  reqId : Nat := 0
  items : List (Nat × Nat × List Byte) := []
  body : List Byte := []
  deriving DecidableEq, Repr

/-! ### Partitions, security, start-up -/

/-- A partition beyond its dictionary records (R37 to R40, R287). `growing`: stacks a GROW is filling; `stage`: how far a
release has come (0 none, 1 draining, 2 resolving the directory, 3 scrubbing); `filled`: the scrub fill is complete;
`stopped`: its verification failed for the third time. -/
structure PartX where
  growing : Nat := 0
  stage : Nat := 0
  filled : Bool := false
  stopped : Bool := false
  deriving DecidableEq, Repr

/-- One partition of the resume record (R279): number, epoch, owner digest, stacks, wrapped key. -/
structure Resume where
  part : Nat
  epoch : Nat
  owner : Nat
  members : Nat
  key : Nat
  deriving DecidableEq, Repr

/-- An SPDM session (R270, R271). `peer`: digest of the authenticated public key. -/
structure Spdm where
  peer : Nat
  established : Bool := false
  heartbeatMs : Nat := 0
  lastAt : Nat := 0
  keyGen : Nat := 0
  deriving DecidableEq, Repr

/-- A key handoff in progress (R394): the session to answer, the five transfers, when transfer 4 was made. -/
structure KeyHandoff where
  session : Nat
  words : List (BitVec 64)
  since : Nat
  deriving DecidableEq, Repr

/-- A sensor (R293, R294): last reading, intervals without a valid one, valid ones in a row, whether at fault. -/
structure Sensor where
  last : Option Int := none
  bad : Nat := 0
  good : Nat := 0
  faulty : Bool := false
  deriving DecidableEq, Repr

/-- The debug port (R386, R387): the selected instruction code, the challenge nonce, when a failed attempt bars a new
one, the wrapper selected, what was last shifted out. -/
structure Tap where
  ir : Nat := 2
  nonce : Option (BitVec 384) := none
  barredUntil : Nat := 0
  wir : Option Nat := none
  out : List Byte := []
  deriving DecidableEq, Repr

end Sys2Proof.Machine
end

