-- ==== Sys2Proof/Machine/State.lean ====
section
/-! DEFINITION. The state of the block: one AK-8 hub with its slices (the stacks of the other hub of a cascade are
reached over SP0), and the queue of commands waiting. Plain data throughout. -/

namespace Sys2Proof.Machine

/-- Why a command stops with a fault. No meaning of this model faults: every command of the table has an effect, or none,
by the spec. Safe: a fault stops the run. -/
inductive Fault
  /-- Raised by no meaning; kept so that the type has a name for a stop that is no refusal. Safe. -/
  | stuck (why : String)
  deriving DecidableEq, Repr

/-- Why a command is refused. -/
inductive Refusal
  /-- Raised only by an arm of exec whose meaning is not written. Safe: the run stops. -/
  | notModelled (mnemonic : String)
  deriving DecidableEq, Repr

/-- Pins and start-up (R370 to R374): PWROK, HUB_RST_N, SLICE_RST_N (bit s), TSHUT_N, the latched EVT_OUT levels, a THROT_REQ value not yet stable; which start comes next, what has been verified and released; the timebase at the release of HUB_RST_N and the unit shape that release took; stacks found ABSENT by their start; latches of stack shutdown and stack failure; partition and session commands that wait for a halted steward core (who, key, value); measurements 1 to 3. -/
structure Boot where
  pwrok : Bool := false
  hubRstN : Bool := false
  sliceRstN : Nat := 0
  tshutN : Bool := true
  pinLatch : Option Nat := none
  throtSeen : Option (Nat × Nat) := none
  cold : Bool := true
  stewardImage : Bool := false
  sliceImage : Bool := false
  slotAFailed : Nat := 0
  stewardsRun : Bool := false
  portsReleased : Bool := false
  releasedAt : Int := 0
  shape : Nat := 0
  absentLatch : Nat := 0
  shutLatch : Nat := 0
  failedLatch : Nat := 0
  stalled : List (Actor × Nat × Nat) := []
  measRom : BitVec 384 := 0
  measSteward : BitVec 384 := 0
  measSlice : BitVec 384 := 0
  deriving DecidableEq, Repr

/-- Qanat modules (key (stack·8 + module)·2 + end), flits waiting for a module (key stack·2 + end, 32 + p for a span port), span ports. -/
structure LinkSt where
  links : Table Link := []
  txWait : Table (List Flit) := []
  spans : Table Link := []
  deriving DecidableEq, Repr

/-- Fabric ports, tracker, sequence windows (key requester·1024 + seq[9:0]), stack ingress arbiters, dispatch credits held (key g·2 + 1 for C1–C7) and on their way back, adopted regulator settings, the home ports that requesters took with their first request (R58). -/
structure ReqSt where
  ports : Table Port := []
  trackers : Table Tracker := []
  uidNext : Nat := 0
  seqWin : Table Nat := []
  seqLive : Table Nat := []
  arbs : Table Arb := []
  credits : Table Nat := []
  creditsDue : Table Nat := []
  regNow : Table (Nat × Nat × Nat) := []
  regFresh : Table Nat := []
  homes : Table Nat := []
  deriving DecidableEq, Repr

/-- Slices: input (per stack), input stage, bank queues (per pseudo-channel), banks, pseudo-channels, row trackers, cancels kept, held reads, descriptors, rate switches, dwells, the ra_threshold in force (unlisted: 4,096), sensors. -/
structure SliceSt where
  inbox : Table (List Piece) := []
  stage : Table (List QEntry) := []
  queues : Table (List QEntry) := []
  banks : Table Bank := []
  pcs : Table Pc := []
  ra : Table RaEntry := []
  cancels : List Nat := []
  holds : List Piece := []
  descriptors : Table StackDescriptor := []
  rateSwitchTo : Table Nat := []
  dwell : Table (Nat × Nat) := []
  raNow : Table Nat := []
  sensors : Table Sensor := []
  deriving DecidableEq, Repr

/-- Memories: DRAM symbols as stored (ciphertext and check symbols), what fills each pseudo-channel (unlisted: zero code words), spare slots, write-combining sectors and those in read-modify-write (key stack·2^29 + sector), those whose eviction waits for an earlier one of the same sector, columns under split-write test, repair lists in progress, lines of unsettled sectors, how many pages each stack has retired. -/
structure MemSt where
  dram : Table Byte := []
  fills : Table Fill := []
  spare : Table Byte := []
  wcb : Table Wcb := []
  rmw : Table Wcb := []
  wcbWait : Table (List Wcb) := []
  wcbClock : Nat := 0
  testCols : List Nat := []
  ppr : Table (List (BitVec 32)) := []
  unsettled : Table Nat := []
  retiredCount : Table Nat := []
  deriving DecidableEq, Repr

/-- Coherence: directory ways (key (stack·65536 + set)·16 + way), lines waiting on snoops, snoop slots (key stack·4096 + slot), snoops waiting for a slot, directory inputs and wait lists, suspect bits, pointers, epoch copies, sweeps. -/
structure CohSt where
  dir : Table DirEntry := []
  dirPend : List DirPend := []
  snoops : Table Snoop := []
  snoopQ : Table (List Snoop) := []
  dirQ : Table (List Piece) := []
  dirWait : Table (List Piece) := []
  suspectAll : Table Nat := []
  suspect : Table Nat := []
  dirPtr : Table Nat := []
  victimPtr : Table Nat := []
  epochCopy : Table Nat := []
  sweeps : List (Nat × Nat) := []
  deriving DecidableEq, Repr

/-- Caravan: slice program copies (key stack·128 + program), steps being loaded (key program·512 + index), engines, launches at slice inputs, staging (key engine·2^23 + offset), weight keys, weight log, baselines. -/
structure CarSt where
  progCopies : Table ProgCopy := []
  progSteps : Table (BitVec 128) := []
  engines : Table Engine := []
  launchIn : Table (List Launch) := []
  staging : Table Byte := []
  weightKeys : Table (BitVec 256) := []
  weightLog : Table (BitVec 512) := []
  fmtBase : Table Nat := []
  deriving DecidableEq, Repr

/-- Reductions: sessions, and contributions at the accumulating slices. -/
structure RedSt where
  sessions : Table Session := []
  accIn : Table (List Piece) := []
  deriving DecidableEq, Repr

/-- Stack parity: intent counts and intents on their way, deltas and settle notices on their way, degrades in progress, degraded reads waiting. -/
structure ParSt where
  intents : Table Int := []
  intentsIn : Table (List (Nat × Nat)) := []
  deltas : Table (List Delta) := []
  settles : Table (List Settle) := []
  degrades : List Degrade := []
  degReads : Table (List Piece) := []
  deriving DecidableEq, Repr

/-- Cascade and pair: mirror messages waiting for the peer, responses held while the peer is lost (port, unit), lease, offset history, launch records, the peer's last state, resync, link key. -/
structure PairSt where
  mirrors : List Mirror := []
  mirrorNext : Nat := 0
  mirrorDone : Nat := 0
  heldUnits : List (Nat × OutUnit) := []
  leaseUntil : Option Nat := none
  leaseRole : Nat := 0
  offsetRuns : Nat := 0
  launchRecs : List (Nat × Nat) := []
  peerState : Nat := 0
  syncPart : Option Nat := none
  linkKey : Option (BitVec 256) := none
  deriving DecidableEq, Repr

/-- Security: memory keys (K1 in bits 255..0, K2 above), the cistern (whether its secrets are still to be drawn, whether it lost its backup) and OTP, identity, SPDM sessions, key handoff, partitions in transition. -/
structure SecSt where
  memKeys : Table (BitVec 512) := []
  resume : List Resume := []
  fillSecret : BitVec 256 := 0
  resumeKek : BitVec 256 := 0
  nonceSeed : BitVec 256 := 0
  markers : Table (BitVec 256) := []
  journal : Table (BitVec 128) := []
  cisternNs : Nat := 0
  vbak : Bool := true
  otp : List Nat := [0, 0, 0, 0]
  otpSteps : Nat × Nat := (0, 0)
  cisternSv : Nat × Nat := (0, 0)
  drawSecrets : Bool := true
  backupLost : Bool := false
  uds : Option (BitVec 384) := none
  aliasGen : Nat := 0
  mfgAccess : Bool := true
  rollbackArmed : Bool := false
  spdm : Table Spdm := []
  handoff : Option KeyHandoff := none
  ideSets : List (Nat × Nat) := []
  parts : Table PartX := []
  deriving DecidableEq, Repr

/-- Mailbox queues (key channel·2 + direction), semaphores, event ring (with each record's destinations and watermark) and sequence numbers, route buckets, messages sent and delayed, subscriptions, log selections, log rings. -/
structure MsgSt where
  mbq : Table MbQueue := []
  sems : Table Nat := []
  semTry : Table (List (Nat × Nat)) := []
  evRing : Table (BitVec 1024) := []
  evMeta : Table (List Nat × Option Nat) := []
  evSeq : Table Nat := []
  routeTokens : Table Nat := []
  wmBase : Table Nat := []
  msTx : List MsMsg := []
  msDelayed : List (Nat × MsMsg) := []
  subs : Table Subscription := []
  logSel : Table Nat := []
  logRead : Table Nat := []
  clampRing : Table (BitVec 256) := []
  errRing : Table (BitVec 256) := []
  lossRing : Table (BitVec 128) := []
  smpRing : Table (BitVec 512) := []
  deriving DecidableEq, Repr

/-- Everything the block holds, but for the queue of commands: the hub timebase in ns (R371), the model's own count of
free values drawn, the dictionary's registers, what operators see of counts (refreshed each 1 ms), of pace and of power
and temperature (each 100 ms), the instants the block keeps by timer number, the pending counter command (R363), the
sampler's LFSR (R366), the debug port, and the groups above. -/
structure Hw where
  now : Nat := 0
  drawn : Nat := 0
  od : Table Nat := []
  odMs : Table Nat := []
  odPace : Table Nat := []
  odPower : Table Nat := []
  timers : Table Nat := []
  cntPending : Option (Nat × Nat) := none
  lfsr : BitVec 32 := 1
  tap : Tap := {}
  boot : Boot := {}
  lnk : LinkSt := {}
  req : ReqSt := {}
  sl : SliceSt := {}
  mem : MemSt := {}
  coh : CohSt := {}
  car : CarSt := {}
  red : RedSt := {}
  par : ParSt := {}
  pair : PairSt := {}
  sec : SecSt := {}
  msg : MsgSt := {}
  deriving DecidableEq, Repr

/-- The machine: what the block holds, and the commands waiting, first in first out. -/
structure State where
  hw : Hw
  pending : List Instr
  deriving DecidableEq, Repr

/-- The block before PWROK first rises: pins low but for TSHUT_N, ports OFF, every register at the Reset column of its
table (the log names those the tables leave open), memories empty, no command waiting. -/
def State.reset : State := { hw := {}, pending := [] }

end Sys2Proof.Machine
end

