-- ==== Sys2Proof/Machine/Ops.lean ====
section
/-! DEFINITION. The named operations every meaning is built from: registers, timers, free values, counters, log rings,
events. -/

namespace Sys2Proof.Machine

/-- Run `f` on what the block holds; the queue is not touched. -/
def State.on (s : State) (f : Hw → Hw) : Host.Outcome State Fault Refusal := .next { s with hw := f s.hw }

/-- One nanosecond of an idle block: the cistern's counter runs always, the hub timebase while PWROK and HUB_RST_N are
high (R290, R371; DESIGN CHOICE, log entry 5). -/
def idle (s : State) : State :=
  { s with hw :=
    { s.hw with
      now := if s.hw.boot.pwrok && s.hw.boot.hubRstN then s.hw.now + 1 else s.hw.now,
      sec := { s.hw.sec with cisternNs := s.hw.sec.cisternNs + 1 } } }

/-! ### Registers (R311, R312) -/

/-- What a register reads, element `e`. -/
def Hw.elem (h : Hw) (r : Reg) (i e : Nat) : Nat := Table.atD h.od odDefault (odKey r i e)

/-- What a scalar register reads. -/
def Hw.reg (h : Hw) (r : Reg) (i : Nat := 0) : Nat := h.elem r i 0

/-- Store into element `e` of a register, cut to its width. -/
def Hw.setElem (h : Hw) (r : Reg) (i e v : Nat) : Hw :=
  { h with od := Table.setD h.od odDefault (odKey r i e) (v % 2 ^ r.width) }

/-- Store into a scalar register. -/
def Hw.setReg (h : Hw) (r : Reg) (i : Nat) (v : Nat) : Hw := h.setElem r i 0 v

/-- Store 0 into several scalar registers of one index. -/
def Hw.zeroRegs (h : Hw) (rs : List Reg) (i : Nat) : Hw := rs.foldl (fun h r => h.setReg r i 0) h

/-- Add to a register, wrapping at its width. -/
def Hw.addReg (h : Hw) (r : Reg) (i : Nat) (n : Nat := 1) : Hw := h.setReg r i (h.reg r i + n)

/-- Subtract from a register, down to 0. -/
def Hw.subReg (h : Hw) (r : Reg) (i : Nat) (n : Nat := 1) : Hw := h.setReg r i (h.reg r i - n)

/-- Add 1 to a register that saturates at all ones. -/
def Hw.satReg (h : Hw) (r : Reg) (i : Nat) : Hw :=
  if h.reg r i + 1 < 2 ^ r.width then h.addReg r i else h

/-- Bit `b` of a register. -/
def Hw.bit (h : Hw) (r : Reg) (i b : Nat) : Bool := (h.reg r i).testBit b

/-- Set or clear bit `b` of a register. -/
def Hw.setBit (h : Hw) (r : Reg) (i b : Nat) (v : Bool) : Hw :=
  let x := h.reg r i
  h.setReg r i (if v then x ||| 2 ^ b else if x.testBit b then x - 2 ^ b else x)

/-- A register's value as a signed number of its width. -/
def Hw.sreg (h : Hw) (r : Reg) (i : Nat := 0) : Int :=
  let x := h.reg r i
  if x < 2 ^ (r.width - 1) then (x : Int) else (x : Int) - 2 ^ r.width

/-- Store a signed number in two's complement of the register's width. -/
def Hw.setSreg (h : Hw) (r : Reg) (i : Nat) (v : Int) : Hw := h.setReg r i (v % (2 ^ r.width : Nat)).toNat

/-- Drop every register whose key passes `p` back to its reset value. -/
def Hw.resetRegs (h : Hw) (p : Nat → Bool) : Hw := { h with od := Table.drop h.od p }

/-! ### Timers: instants the block keeps -/

/-! What each timer keeps, by number (an instance is a stack, a pseudo-channel, a requester, ... as the name says). -/
def Tm.sand : Nat := 1        -- next sandglass window of a die (stack, or 16 for the hub)
def Tm.paceRef : Nat := 2     -- next refresh of the quantized pace values
def Tm.silence : Nat := 3     -- last vc4 control flit of a stack's slice
def Tm.silPause : Nat := 4    -- since when every module of a stack retrains
def Tm.budget : Nat := 5      -- end of the retry budget of a stack with no module left
def Tm.refDue : Nat := 6      -- T0 of the stack's refresh epoch in ps, plus 1 (0: no epoch)
def Tm.refWin : Nat := 7      -- end of the stack's refresh window
def Tm.rate : Nat := 8        -- earliest end of a rate switch of a stack
def Tm.reg : Nat := 9         -- next byte-window boundary of a requester
def Tm.startup : Nat := 10    -- end of START_UP
def Tm.missPeriod : Nat := 11 -- next period boundary of a stack's ingress
def Tm.slot : Nat := 12       -- frame slot last started at a stack's ingress (slot number + 1)
def Tm.coarse : Nat := 13     -- next 1 ms boundary
def Tm.power : Nat := 14      -- next 100 ms refresh of power and temperature
def Tm.heartbeat : Nat := 15  -- next heartbeat
def Tm.peerRx : Nat := 16     -- last valid flit on any pair link
def Tm.lease : Nat := 17      -- when half of the lease has passed
def Tm.spanTrain : Nat := 18  -- when SP0 or the pair links began to train
def Tm.boot : Nat := 19       -- release of HUB_RST_N
def Tm.bootRead : Nat := 20   -- when a boot read was sent (0 steward, 1 slice)

def Tm.mirrorDigest : Nat := 22 -- next mirror digest comparison
def Tm.refill : Nat := 23     -- next refill of a route's bucket
def Tm.cal : Nat := 24        -- next calibration by interval of a pseudo-channel
def Tm.levelDwell : Nat := 25 -- end of a stack's level dwell
def Tm.cold : Nat := 26       -- since when a stack has been in COLD_HOLD
def Tm.degrade : Nat := 27    -- when a stack of a parity group failed
def Tm.scrubPass : Nat := 28  -- when a stack's scrub pass began
def Tm.estimate : Nat := 29   -- next power estimate
def Tm.cisternAlarm : Nat := 30 -- last tamper alarm
def Tm.gate : Nat := 32       -- since when a requester is gated, plus 1 (0: it is not)
def Tm.refPend : Nat := 31    -- when a pending refresh multiplier takes effect (ps)

/-- The timers, one number each; an instance is added to the base. -/
def Tm.base (kind i : Nat) : Nat := kind * 65536 + i % 65536

/-- The instant kept under a timer (0: none kept). -/
def Hw.timer (h : Hw) (kind i : Nat) : Nat := Table.atD h.timers (fun _ => 0) (Tm.base kind i)

/-- Keep an instant. -/
def Hw.setTimer (h : Hw) (kind i t : Nat) : Hw :=
  { h with timers := Table.setD h.timers (fun _ => 0) (Tm.base kind i) t }

/-- Is the instant kept under a timer reached. -/
def Hw.due (h : Hw) (kind i : Nat) : Bool := decide (h.timer kind i ≤ h.now)

/-! ### Free values -/

/-- A free value of `w` bits, and the state with the draw counted. -/
def Hw.draw (h : Hw) (w : Nat) : BitVec w × Hw := (Config.free w h.drawn, { h with drawn := h.drawn + 1 })

/-- A random value of `w` bits from the DRBG (R267). -/
def Hw.random (h : Hw) (w : Nat) : BitVec w × Hw := (Config.drbg w h.drawn, { h with drawn := h.drawn + 1 })

end Sys2Proof.Machine
end

