-- ==== Sys2Proof/Machine/Events.lean ====
section
/-! DEFINITION. What other files report: counters (chapter 16), event records and their delivery (chapter 15), the error
log (R136), watermarks (R353). -/

namespace Sys2Proof.Machine

/-! ### Who is who -/

/-- The role an access carries (R313). -/
inductive Role
  | o | t | f | d | none
  deriving DecidableEq, Repr

/-- Does partition `p` stand anywhere but FREE (part_alloc, R36). -/
def Hw.inUse (h : Hw) (p : Nat) : Bool := decide (h.reg Od.partAlloc p = 1)

/-- The partition that stack `s` is bound to, if any (R35). -/
def Hw.partOf (h : Hw) (s : Nat) : Option Nat :=
  (List.range 16).find? (fun p => h.inUse p && h.bit Od.partStacks p s)

/-- Is a confidential partition in use on the unit (R276, R285). -/
def Hw.confidential (h : Hw) : Bool :=
  (List.range 16).any (fun p => h.inUse p && decide (h.reg Od.secConfidential p = 1))

/-- Is `r` ACTIVE (R58). -/
def Hw.active (h : Hw) (r : Nat) : Bool := decide (h.reg Od.reqState r = 1)

/-- The record of session `n`, once established (R270, R271). -/
def Hw.session (h : Hw) (n : Nat) : Option Spdm := (Table.look h.sec.spdm n).filter (fun s => s.established)

/-- Is digest `d` an operator key (R271). -/
def Hw.opKey (h : Hw) (d : Nat) : Bool := decide (d ≠ 0) && (List.range 4).any (fun k => decide (h.elem Od.opKeys 0 k = d))

/-- Does digest `d` own partition `p` (R271); an operator key never does. -/
def Hw.owns (h : Hw) (d p : Nat) : Bool :=
  decide (d ≠ 0) && !h.opKey d && decide (h.reg Od.partOwner p = d)

/-- The role of an access (R271, R313, R327); the message exceptions of BLANK stand with their commands. -/
def Hw.roleOf (h : Hw) : Actor → Role
  | .firmware => .f
  | .debug => .d
  | .nobody => .none
  | .requester _ _ => .t
  | .session n => match h.session n with
    | Option.none => .none
    | some s => if h.opKey s.peer then .o
      else if (List.range 16).any (fun p => h.owns s.peer p) then .t else .none

/-- Does the actor hold role T for partition `p`: the owner's session, or a requester that may read it (R271, R327). -/
def Hw.tenantFor (h : Hw) (a : Actor) (p : Nat) : Bool :=
  match a with
  | .session n => match h.session n with
    | Option.none => false
    | some s => h.owns s.peer p
  | .requester r sec => h.active r && h.bit Od.reqPartitions r p && (sec || !h.bit Od.reqSecure r p)
  | _ => false

/-! ### Counters (R355 to R363) -/

/-- A counter word after `n` more events (R355): 48 bits of count, ovf sticky in bit 63. -/
def bumpWord (w n : Nat) : Nat :=
  let c := w % 2 ^ 48 + n
  c % 2 ^ 48 + (if 2 ^ 48 ≤ c || 2 ^ 63 ≤ w then 2 ^ 63 else 0)

/-- The selectable counters pointed at a source and instance (R359, R360). -/
def Hw.selHits (h : Hw) (code inst : Nat) : List Nat :=
  h.od.filterMap (fun e =>
    if keyReg e.1 = Od.selSource ∧ e.2 = code ∧ h.reg Od.selInstance (keyInst e.1) = inst then some (keyInst e.1) else none)

/-- Count `n` events of a selectable source; frozen counters do not change (R363). -/
def Hw.countSel (h : Hw) (code inst : Nat) (n : Nat := 1) : Hw :=
  if h.reg Od.cntFrozen = 1 then h
  else (h.selHits code inst).foldl (fun h c => h.setReg Od.selCount c (bumpWord (h.reg Od.selCount c) n)) h

/-- Count `n` fixed events `e` of pseudo-channel `g`: its own counter, the stack sum, and STACK_EVENT counters (R356,
R358, R360). Counting runs from the moment the pseudo-channel leaves OFF. -/
def Hw.countFix (h : Hw) (g e : Nat) (n : Nat := 1) : Hw :=
  if h.reg Od.cntFrozen = 1 ∨ h.reg Od.pcState g = 0 then h
  else
    let h := h.setElem Od.fixCounts g e (bumpWord (h.elem Od.fixCounts g e) n)
    let h := h.setElem Od.stackCounters (g / 64) e (bumpWord (h.elem Od.stackCounters (g / 64) e) n)
    h.countSel 1 (g / 64 * 256 + e) n

/-! ### Event records (R346) -/

/-- What a raising rule names. `dests`: requesters of a DIRECTED event; `wm`: the watermark it is a notice of; `after`:
the tracker entry whose response it follows. -/
structure Event where
  kind : Nat
  stack : Option Nat := none
  part : Option Nat := none
  req : Option Nat := none
  payload : Nat := 0
  count : Nat := 1
  wm : Option Nat := none
  dests : List Nat := []
  after : Option Nat := none
  deriving DecidableEq, Repr

/-- A field that is meaningful only when present: value at bit `lo`, valid bit below it. -/
def optField (v : Option Nat) (width lo vlo : Nat) : Nat :=
  match v with
  | some x => x % 2 ^ width * 2 ^ lo + 2 ^ vlo
  | none => 0

/-- The record of an event for a destination with sequence number `seq` (R346). -/
def Hw.record (h : Hw) (e : Event) (seq : Nat) (coarse : Bool) : BitVec 1024 :=
  let time := if coarse then h.now / 1000000 * 1000000 else h.now
  let count := if coarse then e.count / 4096 * 4096 else e.count
  let crossed := match e.wm with | some w => h.reg Od.wmCrossed w | none => 0
  let level := match e.wm with | some w => h.reg Od.wmLevel w | none => 0
  BitVec.ofNat 1024
    (e.kind % 256 * 2 ^ 1016 + (if e.wm.isSome then 2 ^ 1007 else 0) + crossed % 2 * 2 ^ 1006 + level % 2 * 2 ^ 1005
      + (if coarse then 2 ^ 1004 else 0) + optField e.stack 4 996 995 + optField e.part 4 991 990
      + optField e.req 12 978 977 + seq % 2 ^ 32 * 2 ^ 945 + count % 2 ^ 32 * 2 ^ 913 + time % 2 ^ 64 * 2 ^ 849
      + e.payload % 2 ^ 512)

/-- The kinds of UNIT scope (R347). -/
def unitKinds : List Nat :=
  [0x01, 0x02, 0x03, 0x05, 0x06, 0x07, 0x17, 0x18, 0x19, 0x1a, 0x1b, 0x1c, 0x1d, 0x1e, 0x1f, 0x20, 0x21, 0x22, 0x23,
    0x24, 0x25, 0x26, 0x27, 0x28, 0x29, 0x2d]

/-- The kinds of PART scope (R347). -/
def partKinds : List Nat := [0x04, 0x08, 0x16]

/-! ### Log rings -/

/-- A ring's slot in the table of slots that firmware has read: rings 0 clamp, 1 event, 2 error, 3 loss, 4 sample. -/
def ringSlot (ring inst slot : Nat) : Nat := (ring * 16 + inst % 16) * 65536 + slot

/-- Has firmware read the record now in a ring's slot. -/
def Hw.fwRead (h : Hw) (ring inst slot : Nat) : Bool :=
  decide (Table.atD h.msg.logRead (fun _ => 0) (ringSlot ring inst slot) = 1)

/-- Note that firmware has, or has not, read the record in a ring's slot. -/
def Hw.markRead (h : Hw) (ring inst slot : Nat) (v : Bool) : Hw :=
  { h with msg.logRead := Table.setD h.msg.logRead (fun _ => 0) (ringSlot ring inst slot) (if v then 1 else 0) }

/-- Advance a ring's head over slot head mod `size`: the overflow flag rises when the slot holds a record firmware has
not read (for the sample ring: any record). -/
def Hw.ringAdvance (h : Hw) (ring inst size : Nat) (head overflow : Reg) : Nat × Hw :=
  let n := h.reg head inst
  let slot := n % size
  let h := if size ≤ n && (decide (ring = 4) || !h.fwRead ring inst slot) then h.setReg overflow inst 1 else h
  let h := h.markRead ring inst slot false
  (slot, h.setReg head inst (n + 1))

/-! ### Delivery (R348 to R350) -/

/-- The EVT unit of a record (R348). -/
def evtUnit (r : Nat) (rcd : BitVec 1024) (e : Event) : OutUnit :=
  { op := 0x11, requester := r, tag := 0, data := (List.range 128).map (fun i => rcd.extractLsb' (8 * i) 8),
    psn := [false, false], after := e.after, wm := e.wm }

/-- What port `n` holds beyond its record. -/
def Hw.port (h : Hw) (n : Nat) : Port := Table.atD h.req.ports (fun _ => {}) n

/-- Change what port `n` holds. -/
def Hw.setPort (h : Hw) (n : Nat) (p : Port) : Hw :=
  { h with req.ports := Table.setD h.req.ports (fun _ => {}) n p }

/-- The next sequence number of a destination (requesters by ID, 4096 for firmware). -/
def Hw.nextSeq (h : Hw) (dest : Nat) : Nat × Hw :=
  let n := Table.atD h.msg.evSeq (fun _ => 0) dest + 1
  (n, { h with msg.evSeq := Table.setD h.msg.evSeq (fun _ => 0) dest (n % 2 ^ 32) })

/-- The port for a requester's BISNPs and EVTs: req_home_port; where that is FFh, the port of its first admitted request
since it entered ACTIVE (R58). -/
def Hw.homePort (h : Hw) (r : Nat) : Nat :=
  if h.reg Od.reqHomePort r = 0xff then Table.atD h.req.homes (fun _ => 0xff) r else h.reg Od.reqHomePort r

/-- Send a record to requester `r` as an EVT on its home port: nothing leaves when it is not ACTIVE, has no home port
yet, or the port's queue of 256 is full; its sequence number advances all the same (R348). -/
def Hw.sendEvt (h : Hw) (r : Nat) (e : Event) : Bool × Hw :=
  let (seq, h) := h.nextSeq r
  let home := h.homePort r
  if h.active r && decide (home < 32) && decide ((h.port home).evts.length < 256) then
    let p := h.port home
    (true, h.setPort home { p with evts := p.evts ++ [{ evtUnit r (h.record e seq false) e with ready := h.now }] })
  else (false, h)

/-- Append a management-stream message to those sent. -/
def Hw.sendMs (h : Hw) (m : MsMsg) : Hw := { h with msg.msTx := h.msg.msTx ++ [m] }

/-- Is a notice never dropped by a route's bucket (R350). -/
def Event.exempt (e : Event) : Bool := e.wm.isSome || [0x21, 0x25, 0x26].contains e.kind

/-- Route `k` takes a record: its sequence number advances; the bucket, the kind of target and whether the target can be
reached decide between route_pending and route_dropped (R349, R350). Session `n` is the MCTP endpoint `n` (log entry
6). -/
def Hw.routeTake (h : Hw) (k : Nat) (e : Event) : Hw :=
  let h := h.addReg Od.routeSeq k
  let coarse := decide (k < 16) && h.confidential
  let seq := h.reg Od.routeSeq k
  let used := Table.atD h.msg.routeTokens (fun _ => 0) k
  let drop (h : Hw) : Hw := (h.addReg Od.routeDropped k).countSel 0x10 k
  if !e.exempt && decide (64 ≤ used) then drop h
  else
    let h := { h with msg.routeTokens := Table.setD h.msg.routeTokens (fun _ => 0) k (min 64 (used + 1)) }
    let target := h.reg Od.routeTarget k
    let (ok, h) := match h.reg Od.routeKind k with
      | 1 =>
        let home := h.homePort target
        if h.active target && decide (home < 32) && decide ((h.port home).evts.length < 256) &&
            (decide (k < 16) || h.bit Od.reqPartitions target (k - 16)) then
          let p := h.port home
          (true, h.setPort home { p with evts := p.evts ++ [{ evtUnit target (h.record e seq coarse) e with ready := h.now }] })
        else (false, h)
      | 2 =>
        let n := target % 256
        let open_ := match h.session n with
          | some s => if k < 16 then h.opKey s.peer else h.owns s.peer (k - 16)
          | none => false
        if open_ then
          let rcd := h.record e seq coarse
          let bytes := (List.range 128).map (fun i => rcd.extractLsb' (8 * i) 8)
          (true, h.sendMs { session := some n, code := 0x07, status := 0, items := [(odKey Od.evRecord 0 0, 0, bytes)] })
        else (false, h)
      | 3 => (true, h)
      | _ => (false, h)
    if ok then h.satReg Od.routePending k else drop h

/-- Does route `k` carry an event: its mask has the kind, it is not NONE, and the scope reaches it (R347, R349). -/
def Hw.routeWants (h : Hw) (k : Nat) (e : Event) : Bool :=
  decide (h.reg Od.routeKind k ≠ 0) && h.bit Od.routeMask k e.kind &&
    (if k < 16 then unitKinds.contains e.kind || e.kind == 4
     else partKinds.contains e.kind && e.part == some (k - 16))

/-- Does the owner of the stack that an error-log record names consent to profiling (R283). -/
def Hw.errConsent (h : Hw) (v : Nat) : Bool :=
  match h.partOf (v / 2 ^ 244 % 16) with
  | some p => decide (h.reg Od.secConsentProfile p = 1)
  | none => false

/-- What the operator reads of an error-log record (R137): dpa, requester, source and count zero, unless the owner of the
stack's partition consents (R283); time floored to 1 ms while a confidential partition exists. -/
def Hw.filterErr (h : Hw) (v : Nat) : Nat :=
  let time := if h.confidential then v % 2 ^ 64 / 1000000 * 1000000 else v % 2 ^ 64
  let top := if h.errConsent v then v / 2 ^ 64 else v / 2 ^ 212 * 2 ^ 148 + v / 2 ^ 122 % 2 ^ 36 * 2 ^ 58
  top * 2 ^ 64 + time

/-- Raise an event (R346 to R352): to the routes that carry it, to the requesters it is directed to, and into the ring,
which is firmware's copy. -/
def Hw.raise (h : Hw) (e : Event) : Hw :=
  let h := (List.range 32).foldl (fun h k =>
    if h.routeWants k e then
      h.routeTake k (if k < 16 && e.kind == 4 then { e with payload := h.filterErr e.payload } else e)
    else h) h
  let h := e.dests.foldl (fun h r => (h.sendEvt r e).2) h
  let (seq, h) := h.nextSeq 4096
  let (slot, h) := h.ringAdvance 1 0 1024 Od.evHead Od.evOverflow
  { h with msg.evRing := Table.put h.msg.evRing slot (h.record e seq false), msg.evMeta := Table.put h.msg.evMeta slot (e.dests, e.wm) }

/-! ### Watermarks (R353, R354) -/

/-- LEVEL of watermark `w` rises: the count advances and, if armed, CROSSED is set, armed clears and one notice is
raised. -/
def Hw.cross (h : Hw) (w : Nat) (e : Event) : Hw :=
  if h.reg Od.wmLevel w = 1 then h
  else
    let h := h.setReg Od.wmLevel w 1
    let h := h.addReg Od.wmCount w
    let h := h.setReg Od.wmLastNs w h.now
    if h.reg Od.wmArmed w = 1 then
      let h := h.setReg Od.wmCrossed w 1
      let h := h.setReg Od.wmArmed w 0
      h.raise { e with wm := some w, count := h.reg Od.wmCount w }
    else h

/-- LEVEL of watermark `w` falls. -/
def Hw.uncross (h : Hw) (w : Nat) : Hw := h.setReg Od.wmLevel w 0

/-! ### Error log (R136) -/

/-- The fields of an error-log record. -/
structure ErrRec where
  kind : Nat
  stack : Nat := 0
  pc : Nat := 0
  bank : Nat := 0
  row : Nat := 0
  col : Nat := 0
  dpa : Nat := 0
  requester : Option Nat := none
  positions : Nat := 0
  source : Nat := 0
  count : Nat := 1
  deriving DecidableEq, Repr

/-- The 256 bits of an error-log record (R136). -/
def ErrRec.bits (r : ErrRec) (time : Nat) : Nat :=
  r.kind % 256 * 2 ^ 248 + r.stack % 16 * 2 ^ 244 + r.pc % 64 * 2 ^ 238 + r.bank % 64 * 2 ^ 232 + r.row % 2 ^ 15 * 2 ^ 217
    + r.col % 32 * 2 ^ 212 + r.dpa % 2 ^ 41 * 2 ^ 171 + optField r.requester 12 159 158 + r.positions % 2 ^ 36 * 2 ^ 122
    + r.source % 16 * 2 ^ 118 + min r.count 255 * 2 ^ 110 + time % 2 ^ 64

/-- Write an error-log record, or raise the newest one's count when it is of the same kind and column and within 1 s;
each record raises an ECC event (R136, R350). -/
def Hw.logErr (h : Hw) (r : ErrRec) : Hw :=
  let head := h.reg Od.logHead
  let newest := (head + 4095) % 4096
  let same := match Table.look h.msg.errRing newest with
    | some v => decide (0 < head ∧ v.toNat / 2 ^ 212 = r.bits 0 / 2 ^ 212 ∧ h.now < v.toNat % 2 ^ 64 + 1000000000)
    | none => false
  if same then
    let v := (Table.atD h.msg.errRing (fun _ => 0) newest).toNat
    let c := v / 2 ^ 110 % 256
    { h with msg.errRing := Table.put h.msg.errRing newest (BitVec.ofNat 256 (if c < 255 then v + 2 ^ 110 else v)) }
  else
    let (slot, h) := h.ringAdvance 2 0 4096 Od.logHead Od.logOverflow
    let v := r.bits h.now
    let h := { h with msg.errRing := Table.put h.msg.errRing slot (BitVec.ofNat 256 v) }
    h.raise { kind := 4, stack := some r.stack, part := h.partOf r.stack, payload := v, count := max 1 r.count }

end Sys2Proof.Machine
end

