-- ==== Sys2Proof/Machine/Operands.lean ====
section
/-! DEFINITION. Operand forms: the request header's fields (R54), the device physical address, partitions and the maps
from DPA to stack, physical offset, pseudo-channel, bank, row and column (chapter 2). -/

namespace Sys2Proof.Machine

/-! ### The request header (R54) -/

/-- Field of a header, bits lo+w−1..lo, as a number. -/
def hfield (h : BitVec 128) (lo w : Nat) : Nat := (h.extractLsb' lo w).toNat

/-- The request that a header spells, arriving on `port` at `now`. -/
def headerRq (h : BitVec 128) (port uid now : Nat) : Rq :=
  { uid := uid, op := hfield h 123 5, port := port, requester := hfield h 111 12, tag := hfield h 95 16,
    seq := if h.getLsbD 94 then some (hfield h 78 16) else none, label := hfield h 72 6, secure := h.getLsbD 71,
    len := hfield h 65 6, subop := hfield h 61 4, ext := hfield h 41 20, addr := hfield h 0 41, arrived := now }

/-- Bytes of data a request asks for or brings: 64 B units, len + 1 of them. -/
def Rq.bytes (r : Rq) : Nat := (r.len + 1) * 64

/-- Request data beats of a length in 64 B units minus 1: one per 128 B. -/
def beatsOf (len : Nat) : Nat := (len + 2) / 2

/-! ### Stacks and partitions (R31 to R38) -/

/-- The stack a DPA names. -/
def dpaStack (a : Nat) : Nat := a / 2 ^ 37 % 16

/-- The offset a DPA names. -/
def dpaOff (a : Nat) : Nat := a % 2 ^ 37

/-- The DPA of an offset of a stack. -/
def dpaOf (s off : Nat) : Nat := s * 2 ^ 37 + off

/-- Is stack `s` PRESENT, or FAILED after training (R33). -/
def Hw.exists (h : Hw) (s : Nat) : Bool := decide (h.reg Od.stackState s ≠ 0)

/-- Is stack `s` FAILED. -/
def Hw.failed (h : Hw) (s : Nat) : Bool := decide (h.reg Od.stackState s = 2)

/-- The stacks of a bit mask. -/
def bitsOf (m : Nat) : List Nat := (List.range 16).filter (fun s => m.testBit s)

/-- The stacks of partition `p`. -/
def Hw.members (h : Hw) (p : Nat) : List Nat := bitsOf (h.reg Od.partStacks p)

/-- The positions of a parity group (R42): stack `s` of partition `p`. -/
def Hw.position (h : Hw) (p s : Nat) : Nat := ((h.members p).filter (fun t => decide (t < s))).length

/-- Is partition `p` a parity group. -/
def Hw.parityOn (h : Hw) (p : Nat) : Bool := decide (h.reg Od.partParity p = 1)

/-- gb, the log2 of the grain of a partition (R34); a stack in no partition keeps the 4 KiB grain (log entry 10). -/
def Hw.grainLog (h : Hw) (part : Option Nat) : Nat :=
  match part with
  | some p => 8 + 2 * h.reg Od.partGrain p
  | none => 12

/-- part_visible of a group of `k1` stacks of `cap` bytes (R43). -/
def visibleOf (cap k1 : Nat) : Nat := cap / 65536 / k1 * (k1 - 1) * 65536

/-- The visible range of stack `s` of partition `p` (R36). -/
def Hw.visibleEnd (h : Hw) (p s : Nat) : Nat :=
  if h.parityOn p then h.reg Od.partVisible p else h.reg Od.stackCapacity s

/-- Visible offset to physical offset at position `i` of a group of `k1` stacks (R43). -/
def stripeMap (k1 i o : Nat) : Nat :=
  let v := o / 65536
  let k := k1 - 1
  let d := v % k
  (v / k * k1 + (if d < i then d else d + 1)) * 65536 + o % 65536

/-- The inverse of `stripeMap`, for a unit that holds data at position `i`. -/
def stripeUnmap (k1 i p : Nat) : Nat :=
  let t := p / 65536
  let j := t % k1
  (t / k1 * (k1 - 1) + (if j < i then j else j - 1)) * 65536 + p % 65536

/-- The physical offset of a visible offset of stack `s` (R34). -/
def Hw.physical (h : Hw) (s o : Nat) : Nat :=
  match h.partOf s with
  | some p => if h.parityOn p then stripeMap (h.members p).length (h.position p s) o else o
  | none => o

/-- The visible offset a physical offset of stack `s` stands for. -/
def Hw.visible (h : Hw) (s p : Nat) : Nat :=
  match h.partOf s with
  | some q => if h.parityOn q then stripeUnmap (h.members q).length (h.position q s) p else p
  | none => p

/-- The stack that holds the parity of physical offset `p` in partition `q`, if it is a parity group (R42). -/
def Hw.parityStack (h : Hw) (q p : Nat) : Option Nat :=
  let ms := h.members q
  if h.parityOn q ∧ ms ≠ [] then ms[p / 65536 % ms.length]? else none

/-- Does physical offset `p` of stack `s` hold parity. -/
def Hw.holdsParity (h : Hw) (s p : Nat) : Bool :=
  match h.partOf s with
  | some q => decide (h.parityStack q p = some s)
  | none => false

/-! ### DRAM coordinates (R34) -/

/-- Pseudo-channel, bank, row and column of a stack. -/
structure Coord where
  pc : Nat
  bank : Nat
  row : Nat
  col : Nat
  deriving DecidableEq, Repr

/-- Physical offset to coordinates. -/
def coordOf (gb sids p : Nat) : Coord :=
  let w := p / 2 ^ (gb + 6) * 2 ^ gb + p % 2 ^ gb
  let q := w / 16384
  { pc := p / 2 ^ gb % 64, bank := q % sids * 16 + w / 1024 % 4 * 4 + w / 4096 % 4, row := q / sids, col := w / 32 % 32 }

/-- Coordinates to physical offset (first byte of the column). -/
def coordOff (gb sids : Nat) (c : Coord) : Nat :=
  let q := c.row * sids + c.bank / 16
  let w := q * 16384 + c.bank % 4 * 4096 + c.bank / 4 % 4 * 1024 + c.col * 32
  w / 2 ^ gb * 2 ^ (gb + 6) + c.pc * 2 ^ gb + w % 2 ^ gb

/-- SIDs of a stack, at least one. -/
def Hw.sids (h : Hw) (s : Nat) : Nat := max 1 (h.reg Od.stackSids s)

/-- Coordinates of a physical offset of stack `s`. -/
def Hw.coord (h : Hw) (s p : Nat) : Coord := coordOf (h.grainLog (h.partOf s)) (h.sids s) p

/-- Physical offset of coordinates of stack `s`. -/
def Hw.offOf (h : Hw) (s : Nat) (c : Coord) : Nat := coordOff (h.grainLog (h.partOf s)) (h.sids s) c

/-- Global pseudo-channel index. -/
def gOf (s pc : Nat) : Nat := s * 64 + pc

/-- Key of a 256 B sector: stack and physical sector number. -/
def secKey (s p : Nat) : Nat := s * 2 ^ 29 + p / 256

/-- The stack of a sector key. -/
def secStack (k : Nat) : Nat := k / 2 ^ 29

/-- The physical offset of a sector key. -/
def secOff (k : Nat) : Nat := k % 2 ^ 29 * 256

/-- Cut [off, off + len) at sector boundaries: (offset, length) pieces, at most `fuel`. -/
def cutSectors : Nat → Nat → Nat → List (Nat × Nat)
  | 0, _, _ => []
  | fuel + 1, off, len =>
    if len = 0 then [] else
    let n := min len (256 - off % 256)
    (off, n) :: cutSectors fuel (off + n) (len - n)

/-! ### Poison halves -/

/-- The 64 B line of a byte offset within a request's data. -/
def lineOf (p : Nat) : Nat := p / 64

end Sys2Proof.Machine
end

