-- ==== Sys2Proof/Machine/Resp.lean ====
section
/-! DEFINITION. Tracker entries, sequence windows, sampling points and responses: what every completion does
(R61, R62, R64 to R66, R251, R366 to R369). -/

namespace Sys2Proof.Machine

/-! ### Tracker entries -/

/-- The tracker entry of request `uid`. -/
def Hw.trk (h : Hw) (uid : Nat) : Option Tracker := Table.look h.req.trackers uid

/-- Store a tracker entry. -/
def Hw.setTrk (h : Hw) (uid : Nat) (t : Tracker) : Hw := { h with req.trackers := Table.put h.req.trackers uid t }

/-- Change a tracker entry, if it is held. -/
def Hw.modTrk (h : Hw) (uid : Nat) (f : Tracker → Tracker) : Hw :=
  match h.trk uid with
  | some t => h.setTrk uid (f t)
  | none => h

/-! ### Sequence windows (R64, R65) -/

/-- Window entry states. -/
def Win.empty : Nat := 0
def Win.inFlight : Nat := 1
def Win.done : Nat := 2

/-- The window entry of requester `r` for sequence number `s`, as its 16 bits. -/
def Hw.win (h : Hw) (r s : Nat) : Nat := Table.atD h.req.seqWin (fun _ => 0) (r * 1024 + s % 1024)

/-- seq_hi, state and status of a window entry. -/
def winHi (w : Nat) : Nat := w / 1024 % 64
def winState (w : Nat) : Nat := w / 256 % 4
def winStatus (w : Nat) : Nat := w / 16 % 16

/-- The 16 bits of a window entry. -/
def winBits (hi state status : Nat) : Nat := hi % 64 * 1024 + state % 4 * 256 + status % 16 * 16

/-- Store a window entry. -/
def Hw.setWin (h : Hw) (r s w : Nat) : Hw :=
  { h with req.seqWin := Table.setD h.req.seqWin (fun _ => 0) (r * 1024 + s % 1024) w }

/-- Clear a requester's window: every entry EMPTY, no newest number (R59, R62). -/
def Hw.clearWin (h : Hw) (r : Nat) : Hw :=
  let h := { h with req.seqWin := Table.drop h.req.seqWin (fun k => decide (k / 1024 = r)) }
  let h := { h with req.seqLive := Table.del h.req.seqLive r }
  h.setReg Od.reqSeqNewest r 0

/-- Is the entry for (r, s) held by exactly this number, in flight. -/
def Hw.winHeld (h : Hw) (r s : Nat) : Bool :=
  let w := h.win r s
  decide (winState w = Win.inFlight ∧ winHi w = s / 1024 % 64)

/-- Mark (r, s) DONE with a status, if it is in flight under that number (R65). -/
def Hw.winDone (h : Hw) (r s status : Nat) : Hw :=
  if h.winHeld r s then h.setWin r s (winBits (s / 1024) Win.done status) else h

/-- Return (r, s) to EMPTY, if it is in flight under that number (R384). -/
def Hw.winForget (h : Hw) (r s : Nat) : Hw := if h.winHeld r s then h.setWin r s 0 else h

/-! ### The sampler's records (R367, R368) -/

/-- Take sampling point `k` of a tagged request, if it has not been passed. -/
def Hw.point (h : Hw) (uid k : Nat) (f : Sample → Sample := id) : Hw :=
  match h.trk uid with
  | some t => match t.sample with
    | some s => h.setTrk uid { t with sample := some (f { s with points := s.points.set k (some h.now) }) }
    | none => h
  | none => h

/-- The time field of a point: offset from point 0 in 0.1 ns, never before the point preceding it. -/
def sampleTimes (t0 : Nat) : Nat → List (Option Nat) → List Nat
  | _, [] => []
  | low, none :: ps => (2 ^ 32 - 1) :: sampleTimes t0 low ps
  | low, some p :: ps =>
    let v := max low ((p - t0) * 10)
    min v (2 ^ 32 - 2) :: sampleTimes t0 v ps

/-- The sample record of a released tracker entry (R368). -/
def sampleBits (t : Tracker) (s : Sample) : Nat :=
  let r := t.rq
  let t0 := (s.points.getD 0 none).getD r.arrived
  let times := sampleTimes t0 0 (s.points.drop 1)
  let b (x : Bool) : Nat := if x then 1 else 0
  t0 % 2 ^ 64 * 2 ^ 448 + ((List.range 9).foldl (fun a i => a * 2 ^ 32 + times.getD i (2 ^ 32 - 1)) 0) * 2 ^ 160
    + r.op % 32 * 2 ^ 155 + r.requester % 4096 * 2 ^ 143 + r.tag % 65536 * 2 ^ 127 + r.label % 64 * 2 ^ 121
    + t.cls % 8 * 2 ^ 118 + t.status % 16 * 2 ^ 114 + r.port % 32 * 2 ^ 109 + (t.stack.getD 0) % 16 * 2 ^ 105
    + b t.stack.isSome * 2 ^ 104 + s.pc % 64 * 2 ^ 98 + s.bank % 64 * 2 ^ 92 + b s.rowHit * 2 ^ 91
    + b s.coherent * 2 ^ 90 + b s.snooped * 2 ^ 89 + b r.wasDeferred * 2 ^ 88 + r.len % 64 * 2 ^ 82
    + s.paceHub % 65536 * 2 ^ 66 + s.paceSlice % 65536 * 2 ^ 50 + s.level % 8 * 2 ^ 47

/-- Write a tagged request's record (R366, R369). -/
def Hw.writeSample (h : Hw) (t : Tracker) : Hw :=
  match t.sample with
  | some s =>
    let (slot, h) := h.ringAdvance 4 0 4096 Od.smpHead Od.smpOverflow
    { h with msg.smpRing := Table.put h.msg.smpRing slot (BitVec.ofNat 512 (sampleBits t s)) }
  | none => h

/-! ### The regulator's gate (R113 to R115) -/

/-- The settings a requester's regulator works with: bytes per window, log2 of the window, outstanding count. -/
def Hw.regSet (h : Hw) (r : Nat) : Nat × Nat × Nat := Table.atD h.req.regNow (fun _ => (0, 12, 64)) r

/-- Requests of `r` that a stack ingress or the span port has passed and whose tracker entries are held (R114). -/
def Hw.grantedOf (h : Hw) (r : Nat) : Nat := (h.req.trackers.filter (fun e => e.2.granted && e.2.rq.requester == r)).length

/-- Is a requester gated. -/
def Hw.gated (h : Hw) (r : Nat) : Bool :=
  let (bytes, _, out) := h.regSet r
  if h.reg Od.serviceMode = 0 then decide (bytes ≠ 0) && decide (h.sreg Od.regCredit r ≤ 0) else decide (out ≤ h.grantedOf r)

/-- Keep reg_gated_ns: a gated time begins or ends. -/
def Hw.noteGate (h : Hw) (r : Nat) : Hw :=
  let t := h.timer Tm.gate r
  if h.gated r then (if t = 0 then h.setTimer Tm.gate r (h.now + 1) else h)
  else if t = 0 then h
  else (h.addReg Od.regGatedNs r (h.now + 1 - t)).setTimer Tm.gate r 0

/-- Charge a requester's byte window (R113): in NORMAL, where it has one. -/
def Hw.charge (h : Hw) (r bytes : Nat) : Hw :=
  let h := h.countSel 8 r (bytes / 64)
  if h.reg Od.serviceMode = 0 ∧ (h.regSet r).1 ≠ 0 then
    (h.setSreg Od.regCredit r (h.sreg Od.regCredit r - (bytes : Int))).noteGate r
  else h

/-! ### Release and response -/

/-- Free a tracker entry and its place in the in-flight count (R61). -/
def Hw.releaseTrk (h : Hw) (uid : Nat) : Hw :=
  match h.trk uid with
  | some t =>
    let h := h.writeSample t
    let h := { h with req.trackers := Table.del h.req.trackers uid }
    if t.rq.op = 9 then h else
    (h.subReg Od.reqInflight t.rq.requester).noteGate t.rq.requester
  | none => h

/-- Put a unit among those ready at a port's egress; while the peer is lost every completion is held (R256). -/
def Hw.emit (h : Hw) (port : Nat) (u : OutUnit) : Hw :=
  if h.reg Od.pairState = 6 then { h with pair.heldUnits := h.pair.heldUnits ++ [(port, u)] }
  else
    let p := h.port port
    h.setPort port { p with ready := p.ready ++ [{ u with ready := h.now }] }

/-- Send a response without a tracker entry (R56 steps 1 to 5, R63). -/
def Hw.reply (h : Hw) (r : Rq) (status : Nat) (rep : Bool := false) (cls : Nat := 7) : Hw :=
  let h := if status = St.timeout ∧ !rep then h.addReg Od.reqTimeouts r.requester else h
  if h.reg Od.portState r.port = 1 then
    h.emit r.port { op := r.op, requester := r.requester, tag := r.tag, status := status, isRepeat := rep, cls := cls }
  else h

/-- Where a tracker entry's response goes nowhere: its requester's epoch has advanced, it was orphaned, or its port is
not UP (R52, R62, R384). -/
def Hw.discards (h : Hw) (t : Tracker) : Bool :=
  t.orphan || decide (h.reg Od.reqEpoch t.rq.requester ≠ t.rq.epoch) || decide (h.reg Od.portState t.rq.port ≠ 1)

/-- The response of a tracker entry: its unit joins egress, or the entry is released without one. -/
def Hw.answer (h : Hw) (uid : Nat) (status : Nat) (data : List Byte := []) (psn : List Bool := []) : Hw :=
  match h.trk uid with
  | some t =>
    if t.phase = .responding then h else
    let t := { t with status := status, phase := .responding }
    let h := h.setTrk uid t
    if h.discards t then h.releaseTrk uid
    else
      let h := if status = St.timeout ∧ !t.rq.isRepeat then h.addReg Od.reqTimeouts t.rq.requester else h
      h.emit t.rq.port
        { op := t.rq.op, requester := t.rq.requester, tag := t.rq.tag, status := status, isRepeat := t.rq.isRepeat,
          data := data, psn := psn, trk := some uid, cls := t.cls }
  | none => h

/-- The tracker entries of repeats that wait for (r, s) of an epoch (R66). -/
def Hw.repeatsOf (h : Hw) (r s epoch : Nat) : List Nat :=
  h.req.trackers.filterMap (fun e =>
    if e.2.phase = .waitOriginal ∧ e.2.rq.requester = r ∧ e.2.rq.seq = some s ∧ e.2.rq.epoch = epoch then some e.1 else none)

/-- Put a tracker entry into its stack ingress queue (R99): queue of (source, class), source the admitting port. -/
def Hw.enqueueArb (h : Hw) (uid stack source cls : Nat) : Hw :=
  let a := Table.atD h.req.arbs (fun _ => {}) stack
  let key := source * 8 + cls
  let q := Table.atD a.queues (fun _ => []) key
  { h with req.arbs := Table.put h.req.arbs stack { a with queues := Table.put a.queues key (q ++ [uid]) } }

/-- The window entry of a request becomes DONE, and the repeats that waited for it go on: a repeat RD re-reads the
memory, every other one answers the stored status without data (R65, R66). -/
def Hw.settleWin (h : Hw) (rq : Rq) (status : Nat) : Hw :=
  match rq.seq with
  | some s =>
    if rq.isRepeat ∨ h.reg Od.reqEpoch rq.requester ≠ rq.epoch then h
    else
      let h := h.winDone rq.requester s status
      (h.repeatsOf rq.requester s rq.epoch).foldl (fun h uid =>
        match h.trk uid with
        | some t =>
          if t.rq.op = 1 ∧ t.stack.isSome then
            (h.setTrk uid { t with phase := .queued, status := status }).enqueueArb uid (t.stack.getD 0) t.rq.port t.cls
          else h.answer uid status
        | none => h) h
  | none => h

/-- Complete a request: its window entry, the repeats waiting for it, its response. -/
def Hw.complete (h : Hw) (uid : Nat) (status : Nat) (data : List Byte := []) (psn : List Bool := []) : Hw :=
  match h.trk uid with
  | some t => if t.phase = .responding ∨ t.rq.op = 9 then h else (h.settleWin t.rq status).answer uid status data psn
  | none => h

/-- Take a tracker entry out of every stack ingress queue. -/
def Hw.unqueueArb (h : Hw) (uid : Nat) : Hw :=
  { h with req.arbs := h.req.arbs.map (fun e =>
      (e.1, { e.2 with queues := e.2.queues.map (fun q => (q.1, q.2.filter (fun u => u != uid))) })) }

end Sys2Proof.Machine
end

