-- ==== Sys2Proof/Machine/LinkOps.lean ====
section
/-! DEFINITION. Qanat modules and span ports as links: sequence numbers, replay buffers, acknowledgements and replays
(R15, R16, R18, R244). Which request a flit carries is settled apart from the link: its recovery is invisible to
the request tracker (R17). -/

namespace Sys2Proof.Machine

/-- Flit kinds (R15). -/
def Fk.idle : Nat := 0
def Fk.headers : Nat := 1
def Fk.data : Nat := 2
def Fk.control : Nat := 3

/-- Key of one end of a qanat module. -/
def linkKey (stack m : Nat) (hubEnd : Bool) : Nat := (stack * 8 + m) * 2 + (if hubEnd then 1 else 0)

/-- One end of a module. -/
def Hw.link (h : Hw) (k : Nat) : Link := Table.atD h.lnk.links (fun _ => {}) k

/-- Store one end of a module. -/
def Hw.setLink (h : Hw) (k : Nat) (l : Link) : Hw := { h with lnk.links := Table.setD h.lnk.links (fun _ => {}) k l }

/-- A span port. -/
def Hw.span (h : Hw) (p : Nat) : Link := Table.atD h.lnk.spans (fun _ => {}) p

/-- Store a span port. -/
def Hw.setSpan (h : Hw) (p : Nat) (l : Link) : Hw := { h with lnk.spans := Table.setD h.lnk.spans (fun _ => {}) p l }

/-- Send a flit: it takes the next sequence number and waits in the replay buffer for its acknowledgement. -/
def Link.send (l : Link) (kind vc : Nat) (payload : List Byte) : Link :=
  { l with txSeq := (l.txSeq + 1) % 4096, buf := l.buf ++ [⟨l.txSeq, kind, vc, payload⟩] }

/-- How many sequence numbers `a` is past `b`, modulo 4,096. -/
def seqPast (a b : Nat) : Nat := (a + 4096 - b % 4096) % 4096

/-- Drop the flits that `aseq` acknowledges: those not after it. -/
def Link.ack (l : Link) (aseq : Nat) : Link :=
  let keep := l.buf.filter (fun f => decide (1 ≤ seqPast f.fseq aseq ∧ seqPast f.fseq aseq ≤ 2048))
  if keep.length < l.buf.length then { l with buf := keep, replays := 0, retrains := 0, firstFail := none }
  else l

/-- A nak: every flit after the acknowledged one is replayed; the oldest one's failures count. -/
def Link.replay (l : Link) (now : Nat) : Link :=
  if l.buf.isEmpty then l else { l with replays := l.replays + 1, firstFail := some (l.firstFail.getD now) }

/-- Training or retraining resets both sequence numbers; what is unacknowledged is numbered afresh (R15). -/
def Link.renumber (l : Link) : Link :=
  { l with txSeq := l.buf.length % 4096, rxSeq := 4095, nak := false, replays := 0,
           buf := l.buf.zipIdx.map (fun p => { p.1 with fseq := p.2 % 4096 }) }

/-- Receive a flit: `good` says that CRC (and tag) checked and kind and vc are not reserved. Answers the link, how many
flits are replayed and whether the flit was delivered in order (R16). -/
def Link.receive (l : Link) (now kind fseq aseq vc : Nat) (nak good : Bool) (payload : List Byte) : Link × Nat × Bool :=
  if !good then ({ l with nak := true }, 0, false)
  else
    let l := { l with lastRx := now }.ack aseq
    let n := if nak then l.buf.length else 0
    let l := if nak then l.replay now else l
    if kind = Fk.idle then (l, n, false)
    else if fseq = (l.rxSeq + 1) % 4096 then
      ({ l with rxSeq := fseq, nak := false, rx := [⟨fseq, kind, vc, payload⟩] }, n, true)
    else if seqPast l.rxSeq fseq < 2048 then (l, n, false)
    else ({ l with nak := true }, n, false)

/-- The modules of a stack whose hub end is in a state. -/
def Hw.modulesIn (h : Hw) (stack : Nat) (st : LinkState) : List Nat :=
  (List.range 8).filter (fun m => decide ((h.link (linkKey stack m true)).st = st))

/-- Send a flit over a stack's qanat, on the first trained module with room in its replay buffer; with none, it waits
(R15, R16). -/
def Hw.sendQanat (h : Hw) (stack : Nat) (hubEnd : Bool) (kind vc : Nat) (payload : List Byte) : Hw :=
  match (h.modulesIn stack .up).find? (fun m => decide ((h.link (linkKey stack m hubEnd)).buf.length < 64)) with
  | some m =>
    let k := linkKey stack m hubEnd
    h.setLink k ((h.link k).send kind vc payload)
  | none =>
    let k := stack * 2 + (if hubEnd then 1 else 0)
    let w := Table.atD h.lnk.txWait (fun _ => []) k
    { h with lnk.txWait := Table.put h.lnk.txWait k (w ++ [⟨0, kind, vc, payload⟩]) }

/-- Flits that waited for a module with room go out, oldest first, as far as there is room. -/
def Hw.pumpQanat (h : Hw) (stack : Nat) (hubEnd : Bool) : Hw :=
  let k := stack * 2 + (if hubEnd then 1 else 0)
  let w := Table.atD h.lnk.txWait (fun _ => []) k
  let h := { h with lnk.txWait := Table.del h.lnk.txWait k }
  w.foldl (fun h f => h.sendQanat stack hubEnd f.kind f.vc f.payload) h

/-- Is a span port up. -/
def Hw.spanUp (h : Hw) (p : Nat) : Bool := h.bit Od.spanState 0 p

/-- Is span port `p` a pair link (R245, R251): SP1 in every pair, SP0 too in a pair of single hubs. -/
def Hw.pairLink (h : Hw) (p : Nat) : Bool :=
  match h.boot.shape with
  | 2 => decide (p < 2)
  | 3 => decide (p = 1)
  | _ => false

/-- Send a flit over a span port that is up; its replay buffer holds 1,920 flits, further ones wait (R244). -/
def Hw.sendSpan (h : Hw) (p kind vc : Nat) (payload : List Byte) : Hw :=
  if !h.spanUp p then h
  else if (h.span p).buf.length < 1920 then h.setSpan p ((h.span p).send kind vc payload)
  else
    let w := Table.atD h.lnk.txWait (fun _ => []) (32 + p)
    { h with lnk.txWait := Table.put h.lnk.txWait (32 + p) (w ++ [⟨0, kind, vc, payload⟩]) }

/-- Flits that waited for room in a span port's replay buffer go out, oldest first. -/
def Hw.pumpSpan (h : Hw) (p : Nat) : Hw :=
  let w := Table.atD h.lnk.txWait (fun _ => []) (32 + p)
  let h := { h with lnk.txWait := Table.del h.lnk.txWait (32 + p) }
  w.foldl (fun h f => h.sendSpan p f.kind f.vc f.payload) h

/-- Send a flit on every pair link that is up. -/
def Hw.sendPairLinks (h : Hw) (kind vc : Nat) (payload : List Byte) : Hw :=
  [0, 1].foldl (fun h p => if h.pairLink p then h.sendSpan p kind vc payload else h) h

/-- The port that mirror traffic takes: the first pair link that is up; in a pair of cascades, with SP1 DOWN, SP0 (R251). -/
def Hw.mirrorPort (h : Hw) : Option Nat :=
  match [0, 1].find? (fun p => h.pairLink p && h.spanUp p) with
  | some p => some p
  | none => if h.boot.shape = 3 ∧ h.spanUp 0 = true then some 0 else none

/-- Send a flit of mirror traffic. -/
def Hw.sendPeer (h : Hw) (kind vc : Nat) (payload : List Byte) : Hw :=
  match h.mirrorPort with
  | some p => h.sendSpan p kind vc payload
  | none => h

/-- A request's header as FP_QH lays it out (R54), 16 B. -/
def Rq.header (r : Rq) : List Byte :=
  let b (x : Bool) : Nat := if x then 1 else 0
  natBytes (r.op % 32 * 2 ^ 123 + r.requester % 4096 * 2 ^ 111 + r.tag % 65536 * 2 ^ 95 + b r.seq.isSome * 2 ^ 94
    + (r.seq.getD 0) % 65536 * 2 ^ 78 + r.label % 64 * 2 ^ 72 + b r.secure * 2 ^ 71 + r.len % 64 * 2 ^ 65
    + r.subop % 16 * 2 ^ 61 + r.ext % 2 ^ 20 * 2 ^ 41 + r.addr % 2 ^ 41) 16

end Sys2Proof.Machine
end

