-- ==== Sys2Proof/Machine/DictLog.lean ====
section
/-! DEFINITION. What the dictionary engine records: partition ties (R313), the clamp ring (R324) and ignored
writes (R325). -/

namespace Sys2Proof.Machine

/-! Reasons of an ignored write (R325). -/
def Why.wrongState : Nat := 1
def Why.invalidCommand : Nat := 2
def Why.reservedValue : Nat := 3
def Why.limit : Nat := 4
def Why.target : Nat := 5

/-- The partition, if any, of a stack, as a list. -/
def Hw.stackTie (h : Hw) (s : Nat) : List Nat := (h.partOf s).toList

/-- The partitions an object is tied to; none: untied (R313). The published stack facts, `OD 4000/s` and `OD 5100/s` are
untied. -/
def Hw.tied (h : Hw) (r : Reg) (i : Nat) : Option (List Nat) :=
  match recOf r.index with
  | none => none
  | some d => match d.tie with
    | .untied => none
    | .part => some [i]
    | .stack =>
      if r.index = 0x4000 ∨ r.index = 0x5100 ∨ (r.index = 0x3000 ∧ r.sub ≤ 8) then none else some (h.stackTie i)
    | .pc => some (h.stackTie (i / 64))
    | .engine => some (h.stackTie (i / 4))
    | .prog => some (bitsOf (h.reg Od.progBind i))
    | .session => some [h.reg Od.redPartition i]
    | .wk => some (if h.reg Od.wkPartition i < 16 then [h.reg Od.wkPartition i] else [])
    | .route => if i < 16 then none else some [i - 16]
    | .watermark =>
      if i < 0x90 then none else if i < 0xa0 then some [i - 0x90]
      else if 0x100 ≤ i ∧ i < 0x500 then some [h.reg Od.redPartition ((i - 0x100) / 4)] else none
    | .selectable => if i < 0xc0 then none else some [(i - 0xc0) / 4]

/-- The role code of a log record (R324). -/
def Hw.roleCode (h : Hw) : Actor → Nat
  | .firmware => 3
  | .debug => 3
  | .nobody => 0
  | .requester _ _ => 2
  | .session n => if h.roleOf (.session n) = .t then 1 else 0

/-- The source field of a log record (R324): session n stands at MCTP endpoint n (log entry 6). -/
def sourceCode : Actor → Nat
  | .requester r _ => r % 4096
  | .session n => n % 256
  | _ => 0

/-- The address part of a log record (R324, R325), at bits 127..92 of the record's upper half. -/
def logAddr (r : Reg) (i : Nat) : Nat := r.index % 65536 * 2 ^ 20 + i % 4096 * 2 ^ 8 + r.sub % 256

/-- Count an ignored write and keep its record (R325). -/
def Hw.ignore (h : Hw) (a : Actor) (r : Reg) (i why : Nat) : Hw :=
  let rcd := logAddr r i * 2 ^ 92 + why % 16 * 2 ^ 88 + h.roleCode a % 16 * 2 ^ 84 + sourceCode a * 2 ^ 72 + h.now % 2 ^ 64
  let h := h.addReg Od.ignTotal 0
  let area := r.index / 4096 % 16
  let h := h.setElem Od.ignByArea 0 area (h.elem Od.ignByArea 0 area + 1)
  let h := h.setReg Od.ignLast 0 rcd
  match h.tied r i with
  | some ps => ps.foldl (fun h p => (h.addReg Od.ignPartTotal p).setReg Od.ignPartLast p rcd) h
  | none => h

/-- Write one clamp record (R324). -/
def Hw.logClamp (h : Hw) (a : Actor) (r : Reg) (i e : Nat) (written stored : Nat) : Hw :=
  let rcd := logAddr r i * 2 ^ 220 + e % 4096 * 2 ^ 208 + h.roleCode a % 16 * 2 ^ 204 + sourceCode a * 2 ^ 192
    + written % 2 ^ 64 * 2 ^ 128 + stored % 2 ^ 64 * 2 ^ 64 + h.now % 2 ^ 64
  let (slot, h) := h.ringAdvance 0 0 256 Od.clampHead Od.clampOverflow
  { h with msg.clampRing := Table.put h.msg.clampRing slot (BitVec.ofNat 256 rcd) }

/-- An event that its state table does not list: ignored and counted as a write of the object that holds the state. -/
def Hw.ignoreEvent (h : Hw) (r : Reg) (i : Nat) : Hw := h.ignore .firmware r i Why.wrongState

end Sys2Proof.Machine
end

