-- ==== Sys2Proof/Machine/Fail.lean ====
section
/-! DEFINITION. How work ends before its time: notices, mirror messages, launches and sessions that end, fencing, and the
failure of a pseudo-channel or of a stack (R37, R139, R140, R171, R172, R183, R216, R231, R252, R255, R256). -/

namespace Sys2Proof.Machine

/-- Pack fields (width, value) from bit 0 upward, each aligned to its width (R346). -/
def packFields (fs : List (Nat × Nat)) : Nat :=
  (fs.foldl (fun (s : Nat × Nat) f =>
    let at_ := (s.1 + f.1 - 1) / f.1 * f.1
    (at_ + f.1, s.2 + f.2 % 2 ^ f.1 * 2 ^ at_)) (0, 0)).2

/-! ### Mirror messages (R252, R258) -/

/-- Does this unit send mirror messages: it is ACTIVE in a pair. -/
def Hw.mirroring (h : Hw) : Bool := decide (h.reg Od.pairState = 4)

/-- Is a write at physical offset `off` of stack `s` mirrored: its partition is SYNCED, or is COPYING and the write lies
below what has been copied (R258). -/
def Hw.mirrored (h : Hw) (s off : Nat) : Bool :=
  h.mirroring && match h.partOf s with
    | some p => match h.reg Od.syncState p with
      | 2 => true
      | 1 => decide (s < h.reg Od.syncStack p) || (decide (s = h.reg Od.syncStack p) && decide (off / 256 * 256 < h.reg Od.syncHwm p))
      | _ => false
    | none => false

/-- Queue a mirror message in the mirror buffer; its bytes count until the peer has accepted it. -/
def Hw.sendMirror (h : Hw) (m : Mirror) : Hw :=
  let n := h.pair.mirrorNext + 1
  let h := { h with pair.mirrorNext := n, pair.mirrors := h.pair.mirrors ++ [{ m with seqNo := n }] }
  (h.addReg Od.mirrorBufferBytes 0 (max 16 m.data.length)).sendPeer Fk.data 2 (m.data.take 256)

/-! ### Notices -/

/-- The requesters subscribed to a session (R231). -/
def Hw.subscribers (h : Hw) (n : Nat) : List Nat :=
  ((List.range 64).filter (fun k => (h.elem Od.redSubscribers n k).testBit 15)).map
    (fun k => h.elem Od.redSubscribers n k % 4096) |>.filter (fun r => h.active r)

/-- The event of a session notice: the session number, then the fields its table names (R231). -/
def Hw.sessionEvent (h : Hw) (n kind : Nat) (fields : List (Nat × Nat)) : Event :=
  { kind := kind, part := some (h.reg Od.redPartition n), payload := packFields ((8, n) :: fields), dests := h.subscribers n }

/-- Send a session notice. -/
def Hw.sessionNotice (h : Hw) (n kind : Nat) (fields : List (Nat × Nat)) : Hw := h.raise (h.sessionEvent n kind fields)

/-- Send a launch's notice (R172): kind 09h DONE, 0Ah FAULT, 0Bh DEADLINE, 0Ch NOTE. -/
def Hw.launchNotice (h : Hw) (l : Launch) (kind status fault step code value : Nat) : Hw :=
  h.raise
    { kind := kind, stack := some l.stack, part := h.partOf l.stack, req := l.launcher,
      payload := packFields [(16, l.seq), (8, l.prog), (8, l.engine), (8, status), (8, fault), (16, step), (8, code), (64, value)],
      dests := l.launcher.toList, after := l.trk }

/-! ### Held reads of PULL descriptors (R181, R183) -/

/-- Does a PULL match a read of `r` over lines [lo, hi]: which of those lines are undelivered. -/
def Desc.undelivered (d : Desc) (r : Nat) (lo hi : Nat) : Bool :=
  decide (d.kind = 1) && d.armedAt.isSome && !d.expired && (d.anyReq || decide (d.requester = r)) &&
    (List.range (hi + 1 - lo)).any (fun i =>
      let line := lo + i
      decide (d.base / 64 ≤ line ∧ line < d.base / 64 + d.size * 64) && !(Table.look d.lines (line - d.base / 64)).getD false)

/-- Does a held piece wait for descriptor `d`. -/
def Desc.holds (d : Desc) (p : Piece) : Bool := d.undelivered p.requester (p.dpa / 64) ((p.dpa + p.len - 1) / 64)

/-- Complete the reads a descriptor holds with ABORTED. -/
def Hw.abortHeld (h : Hw) (d : Desc) : Hw :=
  let out := h.sl.holds.filter (fun p => d.holds p)
  let h := { h with sl.holds := h.sl.holds.filter (fun p => !d.holds p) }
  out.foldl (fun h p => h.complete p.trk St.aborted) h

/-! ### Ends of launches (R171, R183 to R185) -/

/-- An engine. -/
def Hw.eng (h : Hw) (e : Nat) : Engine := Table.atD h.car.engines (fun _ => {}) e

/-- Store an engine. -/
def Hw.setEng (h : Hw) (e : Nat) (x : Engine) : Hw := { h with car.engines := Table.put h.car.engines e x }

/-- The launcher's end record goes to the standby (R252). -/
def Hw.mirrorLaunchEnd (h : Hw) (l : Launch) : Hw :=
  if h.mirroring then h.sendMirror { seqNo := 0, kind := 3, requester := l.launcher.getD 0x8000, seq := some l.seq } else h

/-- A launch ends with a fault code: notice, descriptors disarmed (R171, R172, R184). -/
def Hw.faultLaunch (h : Hw) (e : Nat) (l : Launch) (fault step : Nat) : Hw :=
  let h := h.setReg Od.engLastFault e fault
  let h := h.setReg Od.engLastFaultStep e step
  let h := l.descs.foldl (fun h d => h.abortHeld d) h
  (h.launchNotice l 0x0a St.aborted fault step 0 0).mirrorLaunchEnd l

/-- The pieces that an engine's steps have in the wait lists of directories leave them (R152). -/
def Hw.dropEngWait (h : Hw) (e : Nat) : Hw :=
  { h with coh.dirWait := (h.coh.dirWait.map (fun w => (w.1, w.2.filter (fun p => p.source != e + 1)))).filter (fun w => !w.2.isEmpty) }

/-- The engine leaves its running launch and becomes IDLE. -/
def Hw.idleEngine (h : Hw) (e : Nat) : Hw :=
  let h := h.dropEngWait e
  let h := h.setEng e { queue := (h.eng e).queue }
  let h := h.setReg Od.engState e 0
  let h := h.setReg Od.engProgram e 0xff
  let h := h.setReg Od.engLauncher e 0xffff
  h.setReg Od.engStep e 0

/-- The running launch of an engine ends with a fault. -/
def Hw.faultRunning (h : Hw) (e fault : Nat) : Hw :=
  match (h.eng e).run with
  | some l =>
    let step := (h.eng e).pc
    (h.faultLaunch e l fault step).idleEngine e
  | none => h

/-- Every queued launch of an engine that passes `p` ends with a fault. -/
def Hw.faultQueued (h : Hw) (e fault : Nat) (p : Launch → Bool) : Hw :=
  let x := h.eng e
  let h := h.setEng e { x with queue := x.queue.filter (fun l => !p l) }
  let h := h.setReg Od.engQueue e (h.eng e).queue.length
  (x.queue.filter p).foldl (fun h l => h.faultLaunch e l fault 0) h

/-- Every launch of an engine that passes `p`, running or queued, ends with a fault. -/
def Hw.faultEngine (h : Hw) (e fault : Nat) (p : Launch → Bool) : Hw :=
  let h := match (h.eng e).run with
    | some l => if p l then h.faultRunning e fault else h
    | none => h
  h.faultQueued e fault p

/-! ### Sessions that abort (R216, R235) -/

/-- A session beyond its record. -/
def Hw.ses (h : Hw) (n : Nat) : Session := Table.atD h.red.sessions (fun _ => {}) n

/-- Store a session. -/
def Hw.setSes (h : Hw) (n : Nat) (x : Session) : Hw := { h with red.sessions := Table.put h.red.sessions n x }

/-- The slice that accumulates a session: the proxy when there is one. -/
def Hw.accStack (h : Hw) (n : Nat) : Nat := ((h.ses n).proxy).getD (h.ses n).stack

/-- Complete what a session holds of ACWs, parked and on their way, with a status. -/
def Hw.dropAcws (h : Hw) (n status : Nat) : Hw :=
  let s := h.accStack n
  let mine (p : Piece) : Bool := decide (p.subop = n)
  let q := Table.atD h.red.accIn (fun _ => []) s
  let h := { h with red.accIn := Table.put h.red.accIn s (q.filter (fun p => !mine p)) }
  let h := (q.filter (fun p => mine p && p.source == 0)).foldl (fun h p => h.complete p.trk status) h
  let parked := (h.ses n).parked
  let h := h.setSes n { h.ses n with parked := [] }
  let h := h.setReg Od.redParked n 0
  parked.foldl (fun h uid => h.complete uid status) h

/-- A change of red_state, mirrored as a dictionary write (R252). -/
def Hw.setRedState (h : Hw) (n v : Nat) : Hw :=
  let h := h.setReg Od.redState n v
  if h.mirroring then h.sendMirror { seqNo := 0, kind := 1, key := odKey Od.redState n 0, value := v } else h

/-- A session in PREPARING or OPEN becomes ABORTED: slots freed, ACWs ABORTED, reason set, notice (R216). -/
def Hw.abortSession (h : Hw) (n reason : Nat) : Hw :=
  if h.reg Od.redState n = 1 ∨ h.reg Od.redState n = 2 then
    let x := h.ses n
    let h := h.setSes n { x with chunks := x.chunks.map (fun c => (c.1, { c.2 with slot := none })) }
    let h := h.setReg Od.redOpenNow n 0
    let h := h.dropAcws n St.aborted
    let h := h.setReg Od.redAbortReason n reason
    (h.setRedState n 4).sessionNotice n 0x0e [(8, reason)]
  else h

/-! ### Fencing (R255, R256) -/

/-- Is the unit fenced, as admission step 2 asks: pair states in which nothing enters, a fenced or mismatched cascade, SCRAPPED,
or EXTEST selected (R56, R250, R251, R255, R260, R386). -/
def Hw.fenced (h : Hw) : Bool :=
  let ps := h.reg Od.pairState
  let cs := h.reg Od.cascadeState
  [1, 2, 3, 7, 8, 9].contains ps || decide (cs = 1 ∨ cs = 2) || (decide (cs = 4) && decide (h.reg Od.cascadeRole = 2))
    || decide (h.reg Od.lcState = 4) || decide (h.tap.ir = 0)

/-- Every request the unit holds completes with FENCED. -/
def Hw.fenceHeld (h : Hw) : Hw :=
  let h := (List.range 32).foldl (fun h n =>
    let p := h.port n
    let rs := p.deferred ++ p.held.toList
    let h := h.setPort n { p with deferred := [], held := none }
    let h := h.setReg Od.portDeferred n 0
    rs.foldl (fun h r => (h.settleWin r St.fenced).reply r St.fenced) h) h
  let units := h.pair.heldUnits
  let h := { h with pair.heldUnits := [] }
  let h := units.foldl (fun h u =>
    let p := h.port u.1
    h.setPort u.1 { p with ready := p.ready ++ [{ u.2 with status := St.fenced, data := [], psn := [], ready := h.now }] }) h
  (h.req.trackers.map (fun e => e.1)).foldl (fun h uid => h.complete uid St.fenced) h

/-- The unit fences itself: one FENCE flit on every pair link, no further mirror messages, FENCED, everything held
completes with FENCED (R254, R255). -/
def Hw.fenceUnit (h : Hw) : Hw :=
  let h := h.sendPairLinks Fk.control 4 [0xfe]
  let h := { h with pair.mirrors := [], pair.leaseUntil := none, msg.subs := [] }
  let h := h.setReg Od.mirrorBufferBytes 0 0
  let h := h.setReg Od.leaseRemainingUs 0 0
  (h.setReg Od.pairState 0 9).fenceHeld

/-! ### Failures (R37, R139, R140) -/

/-- service_mode becomes RECOVERY when firmware starts a degrade, takeover or resync (R112). -/
def Hw.enterRecovery (h : Hw) : Hw :=
  if h.reg Od.serviceMode = 0 ∨ h.reg Od.serviceMode = 2 then h.setReg Od.serviceMode 0 3 else h

/-- Requests with work outstanding at stack `s`: RD, WR, WRP and ATM complete with POISON, LAUNCH with ABORTED (R140). An
ATM's beat and a read's beats are marked. -/
def Hw.poisonOutstanding (h : Hw) (s : Nat) (keep : Tracker → Bool) : Hw :=
  h.req.trackers.foldl (fun h e =>
    let t := e.2
    if t.stack = some s ∧ t.phase ≠ .responding ∧ !keep t then
      match t.rq.op with
      | 1 => h.complete e.1 St.poison (List.replicate t.rq.bytes 0) (List.replicate (t.rq.len + 1) true)
      | 2 => h.complete e.1 St.poison
      | 3 => h.complete e.1 St.poison
      | 5 => h.complete e.1 St.poison (List.replicate 64 0) [true, true]
      | 6 => h.complete e.1 St.aborted
      | _ => h
    else h) h

/-- The partition side of a stack failure (R37, R239, R242, R256). -/
def Hw.partitionLosesStack (h : Hw) (s : Nat) : Hw :=
  match h.partOf s with
  | none =>
    -- a stack that a GROW is filling leaves part_grow and stays in no partition (R38)
    (List.range 16).foldl (fun h p =>
      if h.inUse p && h.bit Od.partGrow p s then h.setBit Od.partGrow p s false else h) h
  | some p =>
    let second := decide (h.reg Od.partFailedStacks p ≠ 0)
    let h := h.setBit Od.partFailedStacks p s true
    let st := h.reg Od.partState p
    if h.parityOn p then
      if (st = 3 ∨ st = 4) ∧ !second then
        { h.enterRecovery with par.degrades := h.par.degrades ++ [{ stack := s, part := p, since := h.now }] }
      else if st = 3 ∨ st = 4 then h.poisonOutstanding s (fun _ => false)
      else h
    else
      let h := h.poisonOutstanding s (fun _ => false)
      let h := (List.range 256).foldl (fun h n =>
        if h.accStack n = s ∧ (h.reg Od.redState n = 1 ∨ h.reg Od.redState n = 2) then h.abortSession n 3 else h) h
      let h := if h.reg Od.pairState = 7 then ((h.setReg Od.syncState p 0).setReg Od.syncHwm p 0).setReg Od.syncStack p 0xff else h
      if h.reg Od.pairState = 4 ∧ h.reg Od.pairAutoRelinquish = 1 then h.fenceUnit else h

/-- Is a degrade of stack `s` in progress (R239). -/
def Hw.degrading (h : Hw) (s : Nat) : Bool := h.par.degrades.any (fun d => d.stack == s)

/-- Declare stack `s` FAILED (R140): state, log record, launches end with STACK_FAILED, its partition follows R37. -/
def Hw.failStack (h : Hw) (s : Nat) : Hw :=
  if h.reg Od.stackState s = 1 then
    let h := h.setReg Od.stackState s 2
    let h := h.logErr { kind := 0x0e, stack := s }
    let h := { h with boot.failedLatch := h.boot.failedLatch ||| 2 ^ s }
    let h := (List.range 4).foldl (fun h i => h.faultEngine (s * 4 + i) 0x0c (fun _ => true)) h
    let waiting := Table.atD h.car.launchIn (fun _ => []) s
    let h := { h with car.launchIn := Table.del h.car.launchIn s }
    let h := waiting.foldl (fun h l => match l.trk with | some uid => h.complete uid St.aborted | none => h) h
    h.partitionLosesStack s
  else h

/-- Complete what the queues of a pseudo-channel held, with POISON (R96, R139). -/
def Hw.poisonQueues (h : Hw) (g : Nat) : Hw :=
  let q := Table.atD h.sl.queues (fun _ => []) g
  let mine (x : QEntry) : Bool := decide (x.who.source = 0)
  let h := { h with sl.queues := Table.del h.sl.queues g }
  let h := h.setReg Od.pcQueueEntries g 0
  q.foldl (fun h x =>
    if mine x then match h.trk x.who.tag with
      | some t =>
        if t.rq.op = 1 then h.complete x.who.tag St.poison (List.replicate t.rq.bytes 0) (List.replicate (t.rq.len + 1) true)
        else h.complete x.who.tag St.poison
      | none => h
    else h) h

/-- Enough FAILED pseudo-channels fail their stack (R140). -/
def Hw.failCount (h : Hw) (s : Nat) : Hw :=
  let failed := ((List.range 64).filter (fun pc => decide (h.reg Od.pcState (gOf s pc) = 6))).length
  if h.reg Od.eccStackFailPcs ≤ failed then h.failStack s else h

/-- Declare pseudo-channel `g` FAILED (R139): log record, its credits return, queues completed with POISON; enough of them
fail the stack (R140). -/
def Hw.failPc (h : Hw) (g : Nat) : Hw :=
  if h.reg Od.pcState g = 6 then h
  else
    let h := h.setReg Od.pcState g 6
    let h := h.logErr { kind := 0x0d, stack := g / 64, pc := g % 64 }
    let h := { h with req.credits := Table.del (Table.del h.req.credits (g * 2)) (g * 2 + 1) }
    let h := if h.parityOn ((h.partOf (g / 64)).getD 16) then h else h.poisonQueues g
    h.failCount (g / 64)

end Sys2Proof.Machine
end

