-- ==== Sys2Proof/Machine/Mem.lean ====
section
/-! DEFINITION. The stored columns: lanes and spares, remap slots, the column code, what an error does, encryption below
the write-combining buffer, and the merge of a sector (R117 to R122, R125, R129 to R131, R139, R278). -/

namespace Sys2Proof.Machine

/-! ### Symbols by position (R117, R124, R287) -/

/-- Key of a column within the memory of all stacks. -/
def colKey (s : Nat) (c : Coord) : Nat := s * 2 ^ 32 + ((c.pc * 64 + c.bank) * 32768 + c.row) * 32 + c.col

/-- Address of a column within its pseudo-channel. -/
def Coord.addr (c : Coord) : Nat := (c.bank * 32768 + c.row) * 32 + c.col

/-- Bytes of K1 and K2 of a 512-bit memory key. -/
def keyBytes (k : BitVec 512) : List Byte × List Byte := (bytesOf (k.extractLsb' 0 256) 32, bytesOf (k.extractLsb' 256 256) 32)

/-- What a fill encrypts at physical offset `p` of stack `s`: zeros under the tweak of that place (R278). -/
def Fill.cipher (f : Fill) (s p : Nat) : List Byte :=
  let v := match f.group.idxOf? s with
    | some i => stripeUnmap f.group.length i p
    | none => p
  xtsEnc (keyBytes f.key).1 (keyBytes f.key).2 (f.epoch * 2 ^ 64 + dpaOf s v / 32 * 32) (List.replicate 32 0)

/-- The code word a fill leaves in a column; parity is the exclusive or of the data of its stripe. -/
def Fill.word (f : Fill) (s : Nat) (c : Coord) : List Byte :=
  let p := coordOff f.gb f.sids c
  if f.group ≠ [] ∧ f.group[p / 65536 % f.group.length]? = some s then
    rsWord ((f.group.filter (fun t => t != s)).foldl (fun x t => xorBytes x (f.cipher t p)) (List.replicate 32 0))
  else rsWord (f.cipher s p)

/-- The word of a column that nothing has written since the last fill. -/
def Hw.filledWord (h : Hw) (s : Nat) (c : Coord) : List Byte :=
  match Table.look h.mem.fills (gOf s c.pc) with
  | some f => f.word s c
  | none => List.replicate 36 0

/-- Coordinates cut to their widths: the cell that an address within a stack selects. -/
def Coord.norm (c : Coord) : Coord := { pc := c.pc % 64, bank := c.bank % 64, row := c.row % 32768, col := c.col % 32 }

/-- The column that a key of `colKey` stands for. -/
def keyCoord (k : Nat) : Coord := { pc := k / 2 ^ 26 % 64, bank := k / 2 ^ 20 % 64, row := k / 32 % 32768, col := k % 32 }

/-- What an unlisted symbol of the DRAM reads as: the symbol that the last fill left there. -/
def Hw.dramDefault (h : Hw) (k : Nat) : Byte := (h.filledWord (k / 2 ^ 38) (keyCoord (k / 64))).getD (k % 64) 0

/-- The 36 symbols of a column, by position. -/
def Hw.lanesCol (h : Hw) (s : Nat) (c : Coord) : List Byte :=
  let c := c.norm
  let base := h.filledWord s c
  (List.range 36).map (fun i => Table.atD h.mem.dram (fun _ => base.getD i 0) (colKey s c * 64 + i))

/-- Store the 36 symbols of a column. -/
def Hw.putLanes (h : Hw) (s : Nat) (c : Coord) (word : List Byte) : Hw :=
  let c := c.norm
  let base := h.filledWord s c
  let put (d : Table Byte) (p : Byte × Nat) : Table Byte :=
    Table.setD d (fun _ => base.getD p.2 0) (colKey s c * 64 + p.2) p.1
  { h with mem.dram := (word.take 36).zipIdx.foldl put h.mem.dram }

/-! ### Remap entries (R130, R131) -/

/-- Fields of a remap entry. -/
def remapBits (c : Coord) (cause ppr : Nat) : Nat :=
  2 ^ 63 + c.bank % 64 * 2 ^ 57 + c.row % 32768 * 2 ^ 42 + c.col % 32 * 2 ^ 37 + cause * 2 ^ 34 + ppr * 2 ^ 32

/-- Does a remap entry name column `c`. -/
def remapNames (e : Nat) (c : Coord) : Bool :=
  decide (2 ^ 63 ≤ e ∧ e / 2 ^ 57 % 64 = c.bank ∧ e / 2 ^ 42 % 32768 = c.row ∧ e / 2 ^ 37 % 32 = c.col)

/-- The spare slot of a column, if it is remapped. -/
def Hw.slotOf (h : Hw) (s : Nat) (c : Coord) : Option Nat :=
  (List.range 16).find? (fun n => remapNames (h.elem Od.remapTable (gOf s c.pc) n) c)

/-- The word of spare slot `n` of pseudo-channel `g`. -/
def Hw.spareWord (h : Hw) (g n : Nat) : List Byte :=
  (List.range 36).map (fun i => Table.atD h.mem.spare (fun _ => 0) ((g * 16 + n) * 64 + i))

/-- Store a word in a spare slot. -/
def Hw.putSpare (h : Hw) (g n : Nat) (word : List Byte) : Hw :=
  { h with mem.spare := word.zipIdx.foldl (fun d p => Table.setD d (fun _ => 0) ((g * 16 + n) * 64 + p.2) p.1) h.mem.spare }

/-- The word a read of a column takes: the slot's where it is remapped, else the DRAM's. -/
def Hw.rawCol (h : Hw) (s : Nat) (c : Coord) : List Byte :=
  match h.slotOf s c with
  | some n => h.spareWord (gOf s c.pc) n
  | none => h.lanesCol s c

/-- Write a word: to the DRAM, and to its slot where it is remapped. -/
def Hw.putRaw (h : Hw) (s : Nat) (c : Coord) (word : List Byte) : Hw :=
  let h := h.putLanes s c word
  match h.slotOf s c with
  | some n => h.putSpare (gOf s c.pc) n word
  | none => h

/-! ### Pages and tests that logging and repair skip (R126, R138) -/

/-- Is the page of a DPA retired. -/
def Hw.retired (h : Hw) (dpa : Nat) : Bool :=
  let s := dpaStack dpa
  (List.range (Table.atD h.mem.retiredCount (fun _ => 0) s)).any (fun k => decide (h.elem Od.retiredPages s k = dpa / 4096 * 4096))

/-- Is a column one that the split-write test has recorded. -/
def Hw.testCol (h : Hw) (s : Nat) (c : Coord) : Bool := h.mem.testCols.contains (colKey s c)

/-- The DPA of a column: 0 for parity, which has none. -/
def Hw.colDpa (h : Hw) (s : Nat) (c : Coord) : Nat :=
  let p := h.offOf s c
  if h.holdsParity s p then 0 else dpaOf s (h.visible s p)

/-! ### What an error does (R125, R129, R131, R136, R139) -/

/-- A pseudo-channel beyond its records. -/
def Hw.pc (h : Hw) (g : Nat) : Pc := Table.atD h.sl.pcs (fun _ => {}) g

/-- Store a pseudo-channel. -/
def Hw.setPc (h : Hw) (g : Nat) (x : Pc) : Hw := { h with sl.pcs := Table.put h.sl.pcs g x }

/-- An error-log record for a column. -/
def Hw.logCol (h : Hw) (kind s : Nat) (c : Coord) (req : Option Nat) (positions source count : Nat) : Hw :=
  h.logErr
    { kind := kind, stack := s, pc := c.pc, bank := c.bank, row := c.row, col := c.col, dpa := h.colDpa s c,
      requester := req, positions := positions, source := source, count := count }

/-- The erased positions of a column: failed lanes not spared, and those whose rebuild has not reached it (R129). -/
def Hw.erasures (h : Hw) (s : Nat) (c : Coord) : List Nat :=
  let g := gOf s c.pc
  let x := h.pc g
  x.unspared ++ (if h.reg Od.rebuildPointer g ≤ h.offOf s c then x.sparing else [])

/-- Allocate a remap entry for a column with the word it reads (R131); a full table logs REMAP_FULL (R132). -/
def Hw.allocRemap (h : Hw) (s : Nat) (c : Coord) (cause : Nat) (word : List Byte) : Hw :=
  let g := gOf s c.pc
  if (h.slotOf s c).isSome || h.retired (h.colDpa s c) || h.testCol s c then h
  else match (List.range 16).find? (fun n => decide (h.elem Od.remapTable g n < 2 ^ 63)) with
    | some n =>
      let h := h.putSpare g n word
      let h := h.setElem Od.remapTable g n (remapBits c cause 0)
      let h := h.addReg Od.remapUsed g
      h.logCol (if cause = 0 then 3 else 4) s c none 0 4 1
    | none => h.logCol 5 s c none 0 4 1

/-- A lane fails: its position is an erasure at once, a pause is requested; a third one fails the
pseudo-channel (R129, R139). -/
def Hw.failLane (h : Hw) (g pos : Nat) : Hw :=
  let x := h.pc g
  if x.unspared.contains pos then h
  else
    let h := h.setReg Od.lanesFailed g (h.reg Od.lanesFailed g ||| 2 ^ pos)
    let h := h.logErr { kind := 6, stack := g / 64, pc := g % 64, positions := 2 ^ pos, source := 5 }
    let spares := [0, 1].filter (fun k => decide (h.reg Od.spareMap g / 256 ^ k % 256 = 0xff) && !h.bit Od.lanesFailed g (36 + k))
    if spares.isEmpty ∨ 2 ≤ x.unspared.length + x.sparing.length then h.failPc g
    else h.setPc g { x with unspared := x.unspared ++ [pos], pauseReq := some (x.pauseReq.getD h.now) }

/-- Switch free spare lanes into the erased positions (R129 step 3). -/
def Hw.spareLanes (h : Hw) (g : Nat) : Hw :=
  (h.pc g).unspared.foldl (fun h pos =>
    let m := h.reg Od.spareMap g
    match [0, 1].find? (fun k => decide (m / 256 ^ k % 256 = 0xff) && !h.bit Od.lanesFailed g (36 + k)) with
    | some k =>
      let h := h.setReg Od.spareMap g (m - 0xff * 256 ^ k + pos * 256 ^ k)
      let h := h.setReg Od.rebuildPointer g 0
      let h := h.logErr { kind := 7, stack := g / 64, pc := g % 64, positions := 2 ^ pos, source := 5 }
      let x := h.pc g
      h.setPc g { x with unspared := x.unspared.filter (fun p => p != pos), sparing := x.sparing ++ [pos], rebuildRow := some 0 }
    | none => h) h

/-- A corrected column: history, remap when it repeats, lanes that fail in enough banks within 1 ms (R125, R129, R131). -/
def Hw.noteCorrected (h : Hw) (s : Nat) (c : Coord) (fixed : List Byte) (positions : List Nat) : Hw :=
  let g := gOf s c.pc
  let x := h.pc g
  let old := h.reg Od.eccCeWindowH * 3600000000000
  let live := x.history.filter (fun e => decide (h.now < e.since + old))
  let found : Nat × List CeEntry := match live.find? (fun e => e.colAddr == c.addr) with
    | some e => (e.count + 1, live.map (fun y => if y.colAddr = c.addr then { y with count := y.count + 1 } else y))
    | none =>
      let room := if live.length < 64 then live
        else match live.foldl (fun (m : Option CeEntry) (e : CeEntry) => match m with
            | some b => if e.since < b.since then some e else some b
            | none => some e) none with
          | some b => live.erase b
          | none => live
      (1, room ++ [{ colAddr := c.addr, count := 1, since := h.now }])
  let n := found.1
  let hist := found.2
  let hits := (x.laneHits.filter (fun t => decide (h.now < t.2.2 + 1000000))) ++ positions.map (fun p => (p, c.bank, h.now))
  let h := h.setPc g { x with history := hist, laneHits := hits }
  let h := if h.reg Od.eccCeRemapCount ≤ n then h.allocRemap s c 0 fixed else h
  positions.foldl (fun h p =>
    let banks := ((hits.filter (fun t => t.1 == p)).map (fun t => t.2.1)).dedup
    if h.reg Od.eccLaneFailBanks ≤ banks.length then h.failLane g p else h) h

/-- An uncorrectable column: log record, and enough distinct ones within 1 s fail the pseudo-channel (R136, R139). -/
def Hw.noteUncorrectable (h : Hw) (kind s : Nat) (c : Coord) (req : Option Nat) (source : Nat) : Hw :=
  let g := gOf s c.pc
  let x := h.pc g
  let seen := (x.ueSeen.filter (fun t => decide (h.now < t.2 + 1000000000) && t.1 != c.addr)) ++ [(c.addr, h.now)]
  let h := h.setPc g { x with ueSeen := seen }
  let h := if h.retired (h.colDpa s c) then h else h.logCol kind s c req 0 source 1
  if h.reg Od.eccPcFailUe ≤ seen.length then h.failPc g else h

/-- What a decoded word does to counters, history and log. `kind` is the record of an UNCORRECTABLE (02h, or 10h for a
read-modify-write). Recorded test columns are counted only. -/
def Hw.noteDecode (h : Hw) (kind s : Nat) (c : Coord) (d : Decoded) (data : List Byte) (positions : List Nat) (req : Option Nat)
    (source : Nat) : Hw :=
  let g := gOf s c.pc
  match d with
  | .clean => h
  | .corrected =>
    let h := h.countFix g 21
    if h.testCol s c then h else h.noteCorrected s c (rsWord data) positions
  | .poisoned => h.countFix g 23
  | .uncorrectable =>
    let h := h.countFix g 22
    if h.testCol s c then h else h.noteUncorrectable kind s c req source

/-- Read, decode and account one column: outcome, the 32 data symbols, the state. -/
def Hw.readCol (h : Hw) (kind s : Nat) (c : Coord) (req : Option Nat) (source : Nat) (flips : List (Nat × Byte) := []) :
    Decoded × List Byte × Hw :=
  let raw := flips.foldl (fun w f => w.set f.1 (w.getD f.1 0 ^^^ f.2)) (h.rawCol s c)
  let (d, data, ps) := rsDecode (h.erasures s c) raw
  (d, data, h.noteDecode kind s c d data ps req source)

/-! ### Encryption (R276 to R279) -/

/-- The tweak of the column at physical offset `off` of stack `s` in partition `p` (R278). -/
def Hw.tweak (h : Hw) (p s off : Nat) : Nat := h.reg Od.partEpoch p * 2 ^ 64 + dpaOf s (h.visible s off) / 32 * 32

/-- The key that the AES engines of a stack hold, with its partition; a stack in no partition has none. -/
def Hw.stackKey (h : Hw) (s : Nat) : Option (Nat × BitVec 512) :=
  match h.partOf s with
  | some p => (Table.look h.sec.memKeys p).map (fun k => (p, k))
  | none => none

/-- Encrypt a column. -/
def Hw.encCol (h : Hw) (s off : Nat) (data : List Byte) : List Byte :=
  match h.stackKey s with
  | some (p, k) => xtsEnc (keyBytes k).1 (keyBytes k).2 (h.tweak p s off) data
  | none => data

/-- Decrypt a column. -/
def Hw.decCol (h : Hw) (s off : Nat) (data : List Byte) : List Byte :=
  match h.stackKey s with
  | some (p, k) => xtsDec (keyBytes k).1 (keyBytes k).2 (h.tweak p s off) data
  | none => data

/-! ### Write-combining sectors (R45, R70, R122) -/

/-- Are bytes lo .. lo+n−1 of a buffered sector all valid. -/
def Wcb.full (w : Wcb) (lo n : Nat) : Bool := (List.range n).all (fun i => (Table.look w.bytes (lo + i)).isSome)

/-- Is every byte valid. -/
def Wcb.complete (w : Wcb) : Bool := decide (w.bytes.length = 256)

/-- Merge bytes at `lo` of the sector under a byte mask; a line written whole loses its mark, a line with a poisoned half
gets one (R70). -/
def Wcb.merge (w : Wcb) (lo : Nat) (data : List Byte) (mask : List Bool) (psn : List Nat) : Wcb :=
  let on := (data.zip mask).zipIdx.filter (fun x => x.1.2)
  let bytes := on.foldl (fun t x => Table.put t (lo + x.2) x.1.1) w.bytes
  let whole := (List.range 4).filter (fun l => (List.range 64).all (fun i =>
    decide (lo ≤ 64 * l + i) && (mask.getD (64 * l + i - lo) false)))
  let kept := w.marked.filter (fun l => !whole.contains l)
  { w with bytes := bytes, marked := (kept ++ psn).dedup }

/-- The columns of a sector that are not fully valid, from the first to the last. -/
def Wcb.gap (w : Wcb) : List Nat :=
  let missing := (List.range 8).filter (fun j => !w.full (32 * j) 32)
  match missing.head?, missing.getLast? with
  | some a, some b => (List.range 8).filter (fun j => decide (a ≤ j ∧ j ≤ b))
  | _, _ => []

/-- Column j of the sector at physical offset `off`. -/
def Hw.sectorCol (h : Hw) (s off j : Nat) : Coord := h.coord s (off / 256 * 256 + 32 * j)

/-- The code word of a column from its ciphertext, marked or clean. -/
def markWord (marked : Bool) (cipher : List Byte) : List Byte := if marked then rsPoisoned cipher else rsWord cipher

/-- The eight code words an evicted sector writes, given what a read of each incomplete column returned (outcome and
plaintext), by the merge rules of R122. -/
def Hw.mergeWords (h : Hw) (s off : Nat) (w : Wcb) (old : Nat → Decoded × List Byte) : List (List Byte) :=
  (List.range 8).map (fun j =>
    let line := j / 2
    let whole := w.full (64 * line) 64
    let bad := [2 * line, 2 * line + 1].any (fun k => !w.full (32 * k) 32 &&
      decide ((old k).1 = .uncorrectable ∨ (old k).1 = .poisoned))
    let marked := w.marked.contains line || (!whole && bad)
    let plain := (List.range 32).map (fun i => (Table.look w.bytes (32 * j + i)).getD ((old j).2.getD i 0))
    markWord marked (h.encCol s (off / 256 * 256 + 32 * j) plain))

/-- A write entry of a sector releases its columns: the words go to the DRAM. -/
def Hw.putSector (h : Hw) (s off : Nat) (words : List (List Byte)) : Hw :=
  words.zipIdx.foldl (fun h p => h.putRaw s (h.sectorCol s off p.2) p.1) h

end Sys2Proof.Machine
end

