-- ==== Sys2Proof/Machine/Access.lean ====
section
/-! DEFINITION. Sectors below the directory: evictions, read-modify-write, parity deltas, degraded reads and writes, and
what a read of a sector finds once every older write to it has reached the DRAM (R45, R82, R83, R122, R123, R135, R138, R139, R237 to R242). -/

namespace Sys2Proof.Machine

/-! ### What is lost -/

/-- Does a column of stack `s` read nothing: the stack or the pseudo-channel is FAILED (R139, R140). -/
def Hw.lostAt (h : Hw) (s pc : Nat) : Bool := h.failed s || decide (h.reg Od.pcState (gOf s pc) = 6)

/-- The other stacks of the parity group of stack `s`, if it has one. -/
def Hw.sources (h : Hw) (s : Nat) : Option (List Nat) :=
  match h.partOf s with
  | some q => if h.parityOn q then some ((h.members q).filter (fun t => t != s)) else none
  | none => none

/-- Can a sector be rebuilt: its group's other stacks all hold it (R240, R242). -/
def Hw.rebuildable (h : Hw) (s pc : Nat) : Bool :=
  match h.sources s with
  | some ts => ts.all (fun t => !h.lostAt t pc)
  | none => false

/-- The bank queue of a pseudo-channel, oldest entry first. -/
def Hw.queue (h : Hw) (g : Nat) : List QEntry := Table.atD h.sl.queues (fun _ => []) g

/-- Store a queue, and its entry count. -/
def Hw.setQueue (h : Hw) (g : Nat) (q : List QEntry) : Hw :=
  let h := if q.isEmpty && !(h.queue g).isEmpty then h.setPc g { h.pc g with emptySince := h.now } else h
  let h := { h with sl.queues := Table.setD h.sl.queues (fun _ => []) g q }
  h.setReg Od.pcQueueEntries g q.length

/-- The input stage of a slice. -/
def Hw.stage (h : Hw) (s : Nat) : List QEntry := Table.atD h.sl.stage (fun _ => []) s

/-- Store an input stage. -/
def Hw.setStage (h : Hw) (s : Nat) (q : List QEntry) : Hw :=
  { h with sl.stage := Table.setD h.sl.stage (fun _ => []) s q }

/-- Is entry `x` a write of sector `k`. -/
def QEntry.writes (x : QEntry) (k : Nat) : Bool := decide (x.kind = 1 ∧ x.sector = k)

/-- Sectors whose eviction waits for an earlier eviction of sector `k`, oldest first. -/
def Hw.waiting (h : Hw) (k : Nat) : List Wcb := Table.atD h.mem.wcbWait (fun _ => []) k

/-- Store the sectors that wait. -/
def Hw.setWaiting (h : Hw) (k : Nat) (l : List Wcb) : Hw :=
  { h with mem.wcbWait := Table.setD h.mem.wcbWait (fun _ => []) k l }

/-- How many evictions of sector `k` are in progress or wait for one another (R123). -/
def Hw.evictions (h : Hw) (k : Nat) : Nat :=
  let s := secStack k
  let g := gOf s (h.coord s (secOff k)).pc
  ((h.queue g).filter (fun x => x.writes k)).length + ((h.stage s).filter (fun x => x.writes k)).length
    + (if (Table.look h.mem.rmw k).isSome then 1 else 0) + (h.waiting k).length

/-- Does sector `k` have an eviction in progress (R123). -/
def Hw.evicting (h : Hw) (k : Nat) : Bool := decide (h.evictions k ≠ 0)

/-! ### Deltas and parity (R237, R241) -/

/-- XOR delta bytes into the data symbols of a parity sector and store it; it needs no key. -/
def Hw.applyDelta (h : Hw) (d : Delta) : Hw :=
  let t := d.parityStack
  let pc := (h.coord t d.off).pc
  if h.lostAt t pc then h
  else if d.bytes.isEmpty then
    -- the old data could not be read: parity is formed again from the data sectors (R237)
    let srcs := ((h.sources t).getD [])
    (List.range 8).foldl (fun h j =>
      let c := h.sectorCol t d.off j
      let x := srcs.foldl (fun (a : List Byte) u => xorBytes a (rsDecode (h.erasures u c) (h.rawCol u c)).2.1) (List.replicate 32 0)
      h.putRaw t c (rsWord x)) h
  else
    (List.range 8).foldl (fun h j =>
      let c := h.sectorCol t d.off j
      let (_, old, h) := h.readCol 2 t c none 3
      h.putRaw t c (rsWord (xorBytes old ((d.bytes.drop (32 * j)).take 32)))) h

/-- The deltas staged at a parity slice. -/
def Hw.deltasAt (h : Hw) (t : Nat) : List Delta := Table.atD h.par.deltas (fun _ => []) t

/-- Stage a delta at its parity slice; it crosses on vc3 (R237 step 3). -/
def Hw.stageDelta (h : Hw) (d : Delta) : Hw :=
  let h := { h with par.deltas := Table.put h.par.deltas d.parityStack (h.deltasAt d.parityStack ++ [d]) }
  h.sendQanat d.dataStack false Fk.data 3 d.bytes

/-- A settle notice goes back for a delta that has been applied (R237 step 4). -/
def Hw.sendSettle (h : Hw) (d : Delta) : Hw :=
  let q := Table.atD h.par.settles (fun _ => []) d.dataStack
  let n : Settle := { parityStack := d.parityStack, dataStack := d.dataStack, off := d.off, merges := d.merges }
  { h with par.settles := Table.put h.par.settles d.dataStack (q ++ [n]) }

/-- Apply every delta staged for one parity sector. -/
def Hw.settleDeltas (h : Hw) (t off : Nat) : Hw :=
  let mine (d : Delta) : Bool := decide (d.off / 256 = off / 256)
  let q := h.deltasAt t
  let h := { h with par.deltas := Table.put h.par.deltas t (q.filter (fun d => !mine d)) }
  (q.filter mine).foldl (fun h d => (h.applyDelta d).sendSettle d) h

/-! ### Writes that wait in queues -/

/-- Every queued write of sector `k` releases its columns now, oldest first. -/
def Hw.settleQueued (h : Hw) (k : Nat) : Hw :=
  let s := secStack k
  let g := gOf s (h.coord s (secOff k)).pc
  let ws := (h.queue g).filter (fun x => x.writes k) ++ (h.stage s).filter (fun x => x.writes k)
  if ws.isEmpty then h
  else
    let h := h.setQueue g ((h.queue g).filter (fun x => !x.writes k))
    let h := h.setStage s ((h.stage s).filter (fun x => !x.writes k))
    ws.foldl (fun h x =>
      (x.words.zipIdx.filter (fun p => decide (x.done ≤ p.2))).foldl (fun h p =>
        h.putRaw s { pc := g % 64, bank := x.bank, row := x.row, col := x.col + p.2 } p.1) h) h

/-! ### Degraded reads (R240) -/

/-- The ciphertext of a column of a missing or unreadable sector, from the other stacks of the group: none when one of
them cannot be read. -/
def Hw.degradedCol (h : Hw) (s off : Nat) : Option (List Byte) × Hw :=
  match h.sources s with
  | some ts =>
    let h := ts.foldl (fun h t => (h.settleQueued (secKey t off)).settleDeltas t off) h
    ts.foldl (fun (a : Option (List Byte) × Hw) t =>
      let h := a.2
      let c := h.coord t off
      if h.lostAt t c.pc then (none, h)
      else
        let (d, data, h) := h.readCol 2 t c none 3
        match a.1, d with
        | some x, .clean => (some (xorBytes x data), h)
        | some x, .corrected => (some (xorBytes x data), h)
        | _, _ => (none, h)) (some (List.replicate 32 0), h)
  | none => (none, h)

/-- Read the ciphertext of a column: from its own place, or rebuilt where it is lost or uncorrectable in a parity group
(R135, R240). -/
def Hw.cipherCol (h : Hw) (kind s off : Nat) (req : Option Nat) (source : Nat) : Decoded × List Byte × Hw :=
  let c := h.coord s off
  if h.lostAt s c.pc then
    match h.degradedCol s off with
    | (some x, h) => (.clean, x, h)
    | (none, h) => (.uncorrectable, List.replicate 32 0, h)
  else
    let (d, data, h) := h.readCol kind s c req source
    if d = .uncorrectable ∧ (h.sources s).isSome then
      match h.degradedCol s off with
      | (some x, h) => (.clean, x, h)
      | (none, h) => (.uncorrectable, data, h)
    else (d, data, h)

/-- Read a column in plaintext. -/
def Hw.plainCol (h : Hw) (kind s off : Nat) (req : Option Nat) (source : Nat) : Decoded × List Byte × Hw :=
  let (d, data, h) := h.cipherCol kind s off req source
  (d, h.decCol s off data, h)

/-! ### Evictions (R122, R123, R237, R241) -/

/-- Does an evicted sector feed a parity update: its group has not lost a second stack, and its parity stack survives. -/
def Hw.parityFor (h : Hw) (s off : Nat) : Option Nat :=
  match h.partOf s with
  | some q => match h.parityStack q off with
    | some t =>
      if t = s ∨ 2 ≤ (bitsOf (h.reg Od.partFailedStacks q)).length ∨ h.lostAt t (h.coord t off).pc then none else some t
    | none => none
  | none => none

/-- The parity slice that gets an intent for a write at physical offset `off` of stack `s` (R238); a write to a FAILED stack
has none (R241). -/
def Hw.intentFor (h : Hw) (s off : Nat) : Option Nat := if h.failed s then none else h.parityFor s off

/-- Codes of the decoder's outcomes, as test_result has them (R126). -/
def Decoded.code : Decoded → Nat
  | .clean => 0
  | .corrected => 1
  | .poisoned => 2
  | .uncorrectable => 3

/-- The outcome a code names. -/
def decodedOf (n : Nat) : Decoded := if n = 0 then .clean else if n = 1 then .corrected else if n = 2 then .poisoned else .uncorrectable

/-- The code words of a merged sector, with the delta of its parity update: reads what the merge and the delta need. -/
def Hw.mergeSector (h : Hw) (s off : Nat) (w : Wcb) : List (List Byte) × Hw :=
  let base := off / 256 * 256
  let par := h.parityFor s off
  let need := if par.isSome then List.range 8 else w.gap
  let st := need.foldl (fun (a : List (Nat × Decoded × List Byte) × Hw) j =>
    match w.old.find? (fun x => x.1 == j) with
    | some x => (a.1 ++ [(j, decodedOf x.2.1, x.2.2)], a.2)
    | none =>
      let (d, data, h) := a.2.cipherCol 0x10 s (base + 32 * j) w.attr 2
      (a.1 ++ [(j, d, data)], h)) ([], h)
  let h := st.2
  let old (j : Nat) : Decoded × List Byte := match st.1.find? (fun x => x.1 == j) with
    | some x => (x.2.1, h.decCol s (base + 32 * j) x.2.2)
    | none => (.clean, [])
  let words := h.mergeWords s off w old
  let h := match par with
    | some t =>
      let readable := st.1.all (fun x => x.2.1 != .uncorrectable)
      let delta := (st.1.zip words).flatMap (fun p => xorBytes p.1.2.2 (p.2.take 32))
      h.stageDelta { stripeStack := t, dataStack := s, parityStack := t, off := base,
                     bytes := if readable then delta else [], merges := w.merges, cls := w.cls }
    | none => h
  (words, h)

/-- Store an evicted sector of a FAILED stack or pseudo-channel: parity becomes the XOR of all k data sectors and nothing
is written to the lost place (R241); without a group that can hold it, nothing is stored. -/
def Hw.storeLost (h : Hw) (s off : Nat) (w : Wcb) : Hw :=
  let base := off / 256 * 256
  match h.partOf s with
  | some q => match h.parityStack q off with
    | some t =>
      if t = s ∨ !h.rebuildable s (h.coord s off).pc then h
      else
        let st := w.gap.foldl (fun (a : List (Nat × Decoded × List Byte) × Hw) j =>
          let (d, data, h) := a.2.cipherCol 0x10 s (base + 32 * j) w.attr 2
          (a.1 ++ [(j, d, data)], h)) ([], h)
        let h := st.2
        let old (j : Nat) : Decoded × List Byte := match st.1.find? (fun x => x.1 == j) with
          | some x => (x.2.1, h.decCol s (base + 32 * j) x.2.2)
          | none => (.clean, [])
        let words := h.mergeWords s off w old
        let others := ((h.sources s).getD []).filter (fun u => u != t)
        let h := (others.foldl (fun h u => h.settleQueued (secKey u off)) h).settleDeltas t base
        let h := if w.merges = 0 then h
          else h.sendSettle { stripeStack := t, dataStack := s, parityStack := t, off := base, bytes := [], merges := w.merges, cls := w.cls }
        words.zipIdx.foldl (fun h p =>
          let c := h.sectorCol t base p.2
          let x := others.foldl (fun (a : List Byte) u => xorBytes a (rsDecode (h.erasures u c) (h.rawCol u c)).2.1) (p.1.take 32)
          h.putRaw t c (markWord (decide ((rsDecode [] p.1).1 = .poisoned)) x)) h
    | none => h
  | none => h

/-- The eviction class (R123): C0 is carried as C1; a read that forces the eviction lends its own class (R82). -/
def evictClass (w : Wcb) (promoted : Option Nat) : Nat := promoted.getD (max 1 w.cls)

/-- Does an evicted sector first take a read: it is incomplete, or its parity update needs the old data. -/
def Hw.needsRead (h : Hw) (s off : Nat) (w : Wcb) : Bool := !w.complete || (h.parityFor s off).isSome

/-- The pseudo-channel an entry is for. -/
def Hw.entryPc (h : Hw) (x : QEntry) : Nat :=
  let s := secStack x.sector
  gOf s (h.coord s (secOff x.sector)).pc

/-- Do the limits of R73 let an entry into its bank queue. Only a READY pseudo-channel accepts one (R96). -/
def Hw.admits (h : Hw) (g : Nat) (x : QEntry) : Bool :=
  let q := h.queue g
  let bank := q.filter (fun y => y.bank == x.bank)
  let low (l : List QEntry) : Nat := (l.filter (fun y => y.who.cls != 0)).length
  let throttled := match x.who.attr with
    | some r => (h.pc g).throttles.any (fun t => t.requester == r && t.bank == x.bank && decide (h.now < t.expiry))
    | none => false
  decide (h.reg Od.pcState g = 4) && decide (q.length < 96) && decide (bank.length < 20) &&
    (x.who.cls == 0 || (decide (low q < 88) && decide (low bank < 16))) &&
    (!throttled || decide ((bank.filter (fun y => y.who.attr == x.who.attr)).length < 2))

/-- Put an entry at the end of a slice's input stage (QUEUE_ENTRY_ADMIT moves it on): it counts as INPUT_WAIT when its bank
queue has no place for it, or older entries of its bank wait there too (R74). -/
def Hw.pushStage (h : Hw) (s : Nat) (x : QEntry) : Hw :=
  let g := h.entryPc x
  let behind := (h.stage s).any (fun y => decide (h.entryPc y = g ∧ y.bank = x.bank))
  let h := if h.admits g x && !behind then h else h.countFix g 11
  h.setStage s (h.stage s ++ [x])

/-- The queue entry of an eviction: the read of its missing columns, or its write. -/
def Hw.evictEntry (h : Hw) (k : Nat) (w : Wcb) (promoted : Option Nat) (read : Bool) (words : List (List Byte)) : QEntry :=
  let s := secStack k
  let off := secOff k
  let c := h.coord s off
  let cols := if !read then List.range 8 else if (h.parityFor s off).isSome then List.range 8 else w.gap
  { kind := if read then 2 else 1, who := { source := if read ∧ w.complete then 3 else 2, cls := evictClass w promoted, attr := w.attr },
    bank := c.bank, row := c.row, col := c.col + cols.headD 0, ncol := cols.length - 1, promoted := if read then none else promoted,
    arrival := h.now, sector := k, words := words, dpa := w.dpa, part := w.part }

/-- A read-modify-write has its columns: merge and queue the write (RMW_MERGE, R122). -/
def Hw.finishRmw (h : Hw) (k : Nat) : Hw :=
  match Table.look h.mem.rmw k with
  | none => h
  | some w =>
    let s := secStack k
    let h := { h with mem.rmw := Table.del h.mem.rmw k }
    let (words, h) := h.mergeSector s (secOff k) w
    h.pushStage s (h.evictEntry k w w.force false words)

/-- Evict a sector that the buffer has given up: one whose partition has lost its key is discarded; an incomplete one, or
one whose parity is updated, first takes its RMW_READ (R122, R123). -/
def Hw.evictNow (h : Hw) (k : Nat) (w : Wcb) : Hw :=
  let s := secStack k
  let off := secOff k
  let dead := match w.part with
    | some p => (Table.look h.sec.memKeys p).isNone
    | none => false
  if dead then h
  else
    let h := h.countSel 0x0c s
    if h.lostAt s (h.coord s off).pc then h.storeLost s off w
    else if h.needsRead s off w then
      let h := { h with mem.rmw := Table.put h.mem.rmw k w }
      h.pushStage s (h.evictEntry k w w.force true [])
    else
      let (words, h) := h.mergeSector s off w
      h.pushStage s (h.evictEntry k w w.force false words)

/-- Evict a buffered sector (R123), for a read of class `promoted` if one forces it. A second eviction of a sector waits for
the earlier one; writes that arrive meanwhile go to a fresh sector of the buffer. -/
def Hw.evict (h : Hw) (k : Nat) (promoted : Option Nat := none) : Hw :=
  match Table.look h.mem.wcb k with
  | none => h
  | some w =>
    let w := { w with force := promoted }
    let busy := h.evicting k
    let h := { h with mem.wcb := Table.del h.mem.wcb k }
    if busy then h.setWaiting k (h.waiting k ++ [w]) else h.evictNow k w

/-- An eviction of sector `k` has released its last column: the one that waits for it goes on. -/
def Hw.nextEvict (h : Hw) (k : Nat) : Hw :=
  let l := h.waiting k
  (l.foldl (fun (a : Hw × Bool) w =>
    if a.2 then a
    else
      let h := a.1.setWaiting k ((a.1.waiting k).drop 1)
      let before := h.evictions k
      let h := h.evictNow k w
      (h, decide (before < h.evictions k))) (h, false)).1

/-- Complete at once the read-modify-write of sector `k`, and its write. -/
def Hw.drainRmw (h : Hw) (k : Nat) : Hw :=
  let s := secStack k
  let g := gOf s (h.coord s (secOff k)).pc
  let notRead (x : QEntry) : Bool := !(decide (x.kind = 2 ∧ x.sector = k))
  let h := match Table.look h.mem.rmw k with
    | some _ =>
      let h := h.setQueue g ((h.queue g).filter notRead)
      let h := h.setStage s ((h.stage s).filter notRead)
      h.finishRmw k
    | none => h
  h.settleQueued k

/-- Everything older than a read of sector `k` reaches the DRAM: queued writes, the read-modify-write in progress, sectors
that wait, the buffered sector (R82, R83). -/
def Hw.flushSector (h : Hw) (k : Nat) : Hw :=
  let h := (h.settleQueued k).drainRmw k
  let l := h.waiting k
  let h := h.setWaiting k []
  let h := l.foldl (fun h w => (h.evictNow k w).drainRmw k) h
  match Table.look h.mem.wcb k with
  | some w =>
    let h := { h with mem.wcb := Table.del h.mem.wcb k }
    (h.evictNow k w).drainRmw k
  | none => h

/-! ### Reads and writes of a sector -/

/-- Lines of a sector that are unsettled (R239), as a mask of four. -/
def Hw.unsettledLines (h : Hw) (k : Nat) : Nat := Table.atD h.mem.unsettled (fun _ => 0) k

/-- Read lines [lo, hi] of sector `k` once its older writes have landed: 64 bytes and a poison flag each. -/
def Hw.readLines (h : Hw) (k lo hi : Nat) (req : Option Nat) (source : Nat) : List (List Byte × Bool) × Hw :=
  let s := secStack k
  let off := secOff k
  let h := h.flushSector k
  (List.range (hi + 1 - lo)).foldl (fun (a : List (List Byte × Bool) × Hw) i =>
    let line := lo + i
    let (d0, x0, h) := a.2.plainCol 2 s (off + 64 * line) req source
    let (d1, x1, h) := h.plainCol 2 s (off + 64 * line + 32) req source
    let unsettled := (h.unsettledLines k).testBit line
    let h := if unsettled then h.logCol 2 s (h.coord s (off + 64 * line)) req 0 3 1 else h
    let bad (d : Decoded) : Bool := decide (d = .poisoned ∨ d = .uncorrectable)
    let gone := h.retired (dpaOf s (h.visible s (off + 64 * line)))
    (a.1 ++ [(x0 ++ x1, bad d0 || bad d1 || unsettled || gone)], h)) ([], h)

/-- How many sectors of a slice the buffer holds. -/
def Hw.wcbCount (h : Hw) (s : Nat) : Nat :=
  (h.mem.wcb.filter (fun e => decide (secStack e.1 = s))).length
    + (h.mem.wcbWait.filter (fun e => decide (secStack e.1 = s))).foldl (fun n e => n + e.2.length) 0

/-- The oldest buffered sectors of a slice, oldest first. -/
def Hw.wcbOldest (h : Hw) (s : Nat) : List Nat :=
  ((h.mem.wcb.filter (fun e => decide (secStack e.1 = s))).mergeSort (fun a b => decide (a.2.order ≤ b.2.order))).map (fun e => e.1)

/-- At wcb_high the oldest go until wcb_low. -/
def Hw.wcbDrain (h : Hw) (s : Nat) : Hw :=
  if h.reg Od.wcbHigh ≤ h.wcbCount s then
    ((h.wcbOldest s).take (h.wcbCount s - h.reg Od.wcbLow)).foldl (fun h k => h.evict k) h
  else h

/-- What fills the buffer up evicts: a complete sector goes at once; at wcb_high the oldest go until wcb_low (R123). -/
def Hw.wcbTriggers (h : Hw) (k : Nat) : Hw :=
  let h := match Table.look h.mem.wcb k with
    | some w => if w.complete then h.evict k else h
    | none => h
  h.wcbDrain (secStack k)

/-- Who writes: class, requester charged, whether an intent was sent for the write. -/
structure Writer where
  cls : Nat
  attr : Option Nat
  intent : Bool := false
  deriving DecidableEq, Repr

/-- Merge bytes into the buffer (R45): sector `k`, first byte `lo` of the sector. `psn`: lines of the sector to mark. -/
def Hw.mergeBytes (h : Hw) (k lo : Nat) (data : List Byte) (mask : List Bool) (psn : List Nat) (who : Writer) : Hw :=
  let s := secStack k
  let w := match Table.look h.mem.wcb k with
    | some w => w
    | none => { firstAt := h.now, order := h.mem.wcbClock, part := h.partOf s, dpa := dpaOf s (h.visible s (secOff k)) }
  let w := w.merge lo data mask psn
  let w := { w with cls := who.cls, attr := who.attr, merges := w.merges + (if who.intent then 1 else 0) }
  let h := { h with mem.wcb := Table.put h.mem.wcb k w, mem.wcbClock := h.mem.wcbClock + 1 }
  -- a write of all 64 bytes of a line settles it (R239)
  let whole := (List.range 4).foldl (fun m l =>
    if (List.range 64).all (fun i => decide (lo ≤ 64 * l + i) && mask.getD (64 * l + i - lo) false) then m ||| 2 ^ l else m) 0
  let u := h.unsettledLines k
  let h := { h with mem.unsettled := Table.setD h.mem.unsettled (fun _ => 0) k (u - (u &&& whole)) }
  h.wcbTriggers k

/-- Can bytes of a sector be stored: its place stands, or its parity group holds them (R139, R242). -/
def Hw.storable (h : Hw) (k : Nat) : Bool :=
  let s := secStack k
  let pc := (h.coord s (secOff k)).pc
  !h.lostAt s pc || (h.rebuildable s pc && decide (h.parityStack ((h.partOf s).getD 16) (secOff k) ≠ some s))

/-- Read `len` bytes at visible offset `o` of stack `s`: bytes, poisoned lines of 64 B (indices from the first line
touched), the state. Reads whole lines. -/
def Hw.readBytes (h : Hw) (s o len : Nat) (req : Option Nat) (source : Nat) : List Byte × List Bool × Hw :=
  let first := o / 64 * 64
  let span := (o + len + 63) / 64 * 64 - first
  let p := h.physical s first
  let st := (cutSectors (span / 64 + 2) p span).foldl (fun (a : List (List Byte × Bool) × Hw) c =>
    let lo := c.1 % 256 / 64
    let (ls, h) := a.2.readLines (secKey s c.1) lo (lo + c.2 / 64 - 1) req source
    (a.1 ++ ls, h)) ([], h)
  (((st.1.flatMap (fun l => l.1)).drop (o - first)).take len, st.1.map (fun l => l.2), st.2)

/-- Write bytes at visible offset `o` of stack `s`. `psn`: per 64 B line from the first line touched. Retired pages and
places that cannot be stored drop them; a mirrored write is sent to the standby (R252). -/
def Hw.writeBytes (h : Hw) (s o : Nat) (data : List Byte) (mask : List Bool) (psn : List Bool) (who : Writer)
    (mirror : Bool := true) : Hw :=
  let p := h.physical s o
  let first := o / 64 * 64
  (cutSectors (data.length / 256 + 2) p data.length).foldl (fun h c =>
    let k := secKey s c.1
    let at_ := c.1 - p
    let d := (data.drop at_).take c.2
    let m := (mask.drop at_).take c.2
    let marks := (List.range 4).filter (fun l =>
      let lineOff := o + at_ - (c.1 % 256) + 64 * l
      decide (first ≤ lineOff ∧ 64 * l < c.1 % 256 + c.2 ∧ c.1 % 256 < 64 * l + 64) && psn.getD ((lineOff - first) / 64) false)
    if h.retired (dpaOf s (o + at_)) || !h.storable k then h
    else
      let h := if mirror && h.mirrored s c.1 then
          h.sendMirror { seqNo := 0, kind := 0, dpa := dpaOf s (o + at_), data := d, mask := m, marked := marks }
        else h
      h.mergeBytes k (c.1 % 256) d m marks who) h

end Sys2Proof.Machine
end

