-- ==== Sys2Proof/Machine/Dir.lean ====
section
/-! DEFINITION. The coherence directory (chapter 7): ways, holders, owner losses, snoops and their answers, and what a
request finds at its lookup. -/

namespace Sys2Proof.Machine

/-! ### Ways -/

/-- Is partition `p` coherent (R41). -/
def Hw.coherent (h : Hw) (p : Option Nat) : Bool :=
  match p with
  | some p => decide (h.reg Od.partCoherent p = 1)
  | none => false

/-- The lowest-numbered surviving stack of a group other than `s` (R157, R239). -/
def Hw.proxyOf (h : Hw) (s : Nat) : Option Nat :=
  match h.sources s with
  | some ts => ts.find? (fun t => !h.failed t)
  | none => none

/-- The slice whose directory tracks the lines of stack `s` (R157). -/
def Hw.dirStack (h : Hw) (s : Nat) : Nat := if h.failed s then (h.proxyOf s).getD s else s

/-- Key of a set of a slice's directory, from a line index. -/
def setKey (ds line : Nat) : Nat := ds * 65536 + line % 65536

/-- A directory way. -/
def Hw.way (h : Hw) (key : Nat) : DirEntry := Table.atD h.coh.dir (fun _ => {}) key

/-- Way and COARSE counts that dir_entries_used and dir_coarse report (R158). -/
def Hw.dirCount (h : Hw) (ds : Nat) (e : DirEntry) (add : Bool) : Hw :=
  let h := if e.st = .invalid then h else if add then h.addReg Od.dirEntriesUsed ds else h.subReg Od.dirEntriesUsed ds
  let h := if e.st = .invalid ∨ !e.coarse then h else if add then h.addReg Od.dirCoarse ds else h.subReg Od.dirCoarse ds
  if e.st = .lost then (if add then h.addReg Od.cohLostLines e.part else h.subReg Od.cohLostLines e.part) else h

/-- Store a way, keeping the counts. -/
def Hw.setWay (h : Hw) (key : Nat) (e : DirEntry) : Hw :=
  let ds := key / 16 / 65536
  let h := h.dirCount ds (h.way key) false
  let h := { h with coh.dir := Table.setD h.coh.dir (fun _ => {}) key e }
  h.dirCount ds e true

/-- Free a way. -/
def Hw.freeWay (h : Hw) (key : Nat) : Hw := h.setWay key {}

/-- The way that tracks line `line` of stack `s`. -/
def Hw.findWay (h : Hw) (s line : Nat) : Option Nat :=
  let base := setKey (h.dirStack s) line * 16
  ((List.range 16).map (fun w => base + w)).find? (fun k =>
    let e := h.way k
    decide (e.st ≠ .invalid ∨ e.busy = true) && decide (e.tag = line / 65536 ∧ e.home = s))

/-- Requesters that a full fan-out reaches: ACTIVE, not UNCACHED, with the partition (R151, R155). -/
def Hw.cachers (h : Hw) (p : Nat) : List Nat :=
  (List.range 4096).filter (fun r => h.active r && decide (h.reg Od.cohMode r ≠ 0) && h.bit Od.reqPartitions r p)

/-- The holders an entry names (R143). -/
def Hw.holders (h : Hw) (e : DirEntry) : List Nat :=
  if e.coarse then (h.cachers e.part).filter (fun r => e.groups.testBit (r / 64)) else e.ptrs

/-- Add a SHARED holder; a fifth turns the entry COARSE (R143). -/
def DirEntry.add (e : DirEntry) (r : Nat) : DirEntry :=
  if e.coarse then { e with groups := e.groups ||| 2 ^ (r / 64) }
  else if e.ptrs.contains r then e
  else if e.ptrs.length < 4 then { e with ptrs := e.ptrs ++ [r] }
  else { e with coarse := true, ptrs := [], groups := (e.ptrs ++ [r]).foldl (fun m q => m ||| 2 ^ (q / 64)) 0 }

/-- Is a set suspect (R151, R157): by its own bit, by the whole slice, or because the line's stack is FAILED. -/
def Hw.isSuspect (h : Hw) (s line : Nat) : Bool :=
  let ds := h.dirStack s
  decide (Table.atD h.coh.suspectAll (fun _ => 0) ds ≠ 0) || (Table.look h.coh.suspect (setKey ds line)).isSome || decide (ds ≠ s)

/-- Set or clear every suspect bit of a slice. -/
def Hw.suspectSlice (h : Hw) (s : Nat) (v : Bool) : Hw :=
  let h := { h with coh.suspectAll := Table.setD h.coh.suspectAll (fun _ => 0) s (if v then 1 else 0),
                    coh.suspect := Table.drop h.coh.suspect (fun k => decide (k / 65536 = s)) }
  h.setReg Od.dirSuspectSets s (if v then 65536 else 0)

/-! ### Owner losses (R145, R148, R153) -/

/-- Write a loss-log record of partition `p` (R153): kind 1 LOST_OWNER, 2 STALE_ACCEPTED, 3 LOST_SNOOP_TIMEOUT. -/
def Hw.logLoss (h : Hw) (p kind requester dpa : Nat) (stale : Bool) : Hw :=
  let (slot, h) := h.ringAdvance 3 p 4096 Od.lossHead Od.lossOverflow
  let v := kind * 2 ^ 120 + requester % 4096 * 2 ^ 108 + dpa % 2 ^ 41 * 2 ^ 67 + (if stale then 2 ^ 64 else 0) + h.now % 2 ^ 64
  { h with msg.lossRing := Table.put h.msg.lossRing (p * 4096 + slot) (BitVec.ofNat 128 v) }

/-- The DPA of an entry's line. -/
def DirEntry.dpa (e : DirEntry) (key : Nat) : Nat := dpaOf e.home ((e.tag * 65536 + key / 16 % 65536) * 64)

/-- The owner of a way is lost; `byTimeout`: at the end of a snoop timeout. In a partition that is RELEASING the entry goes
without a record (R40). -/
def Hw.ownerLoss (h : Hw) (key : Nat) (byTimeout : Bool) : Hw :=
  let e := h.way key
  let owner := e.ptrs.headD 0
  if h.reg Od.partState e.part = 5 then h.freeWay key
  else if h.reg Od.cohOwnerLoss e.part = 0 then
    (h.logLoss e.part (if byTimeout then 3 else 1) owner (e.dpa key) false).setWay key { e with st := .lost, busy := false }
  else (h.logLoss e.part (if byTimeout then 3 else 2) owner (e.dpa key) byTimeout).freeWay key

/-- The slice's copy of a requester's req_epoch[7:0] (R144). -/
def Hw.epochAt (h : Hw) (ds r : Nat) : Nat := Table.atD h.coh.epochCopy (fun _ => 0) (ds * 4096 + r)

/-- Is a way's owner lost by the epoch rule (R144). -/
def Hw.ownerGone (h : Hw) (key : Nat) : Bool :=
  let e := h.way key
  let o := e.ptrs.headD 0
  decide (e.st = .owned) && (decide (e.ownerEpoch ≠ h.epochAt (key / 16 / 65536) o) || !h.active o)

/-! ### Snoops (R146, R148, R155) -/

/-- A read of a requester that is still in the tracker and covers a DPA: the response a BISNP must follow (R146). -/
def Hw.grantingTrk (h : Hw) (r dpa : Nat) : Option Nat :=
  (h.req.trackers.find? (fun e =>
    let q := e.2.rq
    decide (q.op = 1 ∧ q.requester = r ∧ q.addr ≤ dpa ∧ dpa < q.addr + q.bytes))).map (fun e => e.1)

/-- Its BISNP waits at the requester's home port; a requester with none never gets it. -/
def Hw.queueSnoop (h : Hw) (tag : Nat) (x : Snoop) : Hw :=
  let home := h.homePort x.requester
  if home < 32 then
    let p := h.port home
    let u : OutUnit :=
      { op := 0x10, requester := x.requester, tag := tag, subop := if x.data then 1 else 0, addr := x.dpa,
        after := h.grantingTrk x.requester x.dpa, ready := h.now }
    h.setPort home { p with bisnps := p.bisnps ++ [u] }
  else h

/-- Put a snoop into a slot and its BISNP on the requester's home port. -/
def Hw.issueSnoop (h : Hw) (ds slot : Nat) (x : Snoop) : Hw :=
  let x := { x with sentAt := if h.homePort x.requester < 32 then none else some h.now }
  let h := { h with coh.snoops := Table.put h.coh.snoops (ds * 4096 + slot) x }
  ((h.addReg Od.dirSnoops ds).countSel 0x0b ds).queueSnoop (ds * 4096 + slot) x

/-- The lowest free slot of a slice's snoop table. -/
def Hw.freeSlot (h : Hw) (ds : Nat) : Option Nat :=
  (List.range 4096).find? (fun i => (Table.look h.coh.snoops (ds * 4096 + i)).isNone)

/-- Send a snoop; with the table full it waits for a slot (R155). -/
def Hw.sendSnoop (h : Hw) (ds : Nat) (x : Snoop) : Hw :=
  match h.freeSlot ds with
  | some i => h.issueSnoop ds i x
  | none => { h with coh.snoopQ := Table.put h.coh.snoopQ ds (Table.atD h.coh.snoopQ (fun _ => []) ds ++ [x]) }

/-- The line's busy record. -/
def Hw.pend (h : Hw) (key : Nat) : Option DirPend := h.coh.dirPend.find? (fun d => d.key == key)

/-- A holder's copy is gone from an entry. -/
def DirEntry.remove (e : DirEntry) (r : Nat) : DirEntry :=
  if e.coarse then e else { e with ptrs := e.ptrs.filter (fun q => q != r) }

/-- Note that the first request waiting for a line has had its full fan-out (R151). -/
def markGathered (s line : Nat) : List Piece → List Piece
  | [] => []
  | p :: ps =>
    if p.stack = s ∧ p.off / 64 ≤ line ∧ line ≤ (p.off + p.len - 1) / 64 then { p with gathered := p.gathered ++ [line] } :: ps
    else p :: markGathered s line ps

/-- A line's last snoop has resolved: the way keeps the holders left; a COARSE entry that was invalidated, and one with no
holder left, is freed. -/
def Hw.unbusy (h : Hw) (key : Nat) : Hw :=
  let e := h.way key
  let ds := key / 16 / 65536
  let ended := h.coh.dirPend.filter (fun d => d.key == key && d.gather)
  let wait := ended.foldl (fun q d => markGathered d.stack d.line q) (Table.atD h.coh.dirWait (fun _ => []) ds)
  let h := { h with coh.dirPend := h.coh.dirPend.filter (fun d => d.key != key),
                    coh.dirWait := Table.setD h.coh.dirWait (fun _ => []) ds wait }
  if e.st = .lost then h.setWay key { e with busy := false }
  else if e.coarse ∨ e.ptrs = [] then h.freeWay key
  else h.setWay key { e with busy := false }

/-- One fewer snoop of a line is out; the last one ends its busy time. -/
def Hw.oneLess (h : Hw) (key : Nat) : Hw :=
  match h.pend key with
  | some d =>
    if d.left ≤ 1 then h.unbusy key
    else
      let next (x : DirPend) : DirPend := if x.key = key then { x with left := x.left - 1 } else x
      { h with coh.dirPend := h.coh.dirPend.map next }
  | none => h

/-- One snoop of a line has resolved: with S, with I, or by the loss of the holder. -/
def Hw.answered (h : Hw) (key r : Nat) (keptShared wasOwner lost byTimeout : Bool) : Hw :=
  let e := h.way key
  let h := if wasOwner ∧ lost then h.ownerLoss key byTimeout
    else if keptShared then h.setWay key { e with st := .shared, coarse := false, ptrs := [r] }
    else h.setWay key (e.remove r)
  h.oneLess key

/-- Snoop the holders of a way other than `r`: busy until the last has resolved. A holder that is not ACTIVE, or has no home
port, counts as answered with I; if it is the owner, that is an owner loss (R148). The count starts one too high, so
that an early answer cannot end the line before every snoop is out. -/
def Hw.snoopHolders (h : Hw) (s key line r : Nat) (data : Bool) (gather : Bool := false) : Hw :=
  let e := h.way key
  let ds := key / 16 / 65536
  let targets := (h.holders e).filter (fun q => q != r)
  let owner := decide (e.st = .owned)
  let h := h.setWay key { e with busy := true }
  let d : DirPend := { key := key, line := line, stack := s, left := targets.length + 1, gather := gather }
  let h := { h with coh.dirPend := h.coh.dirPend ++ [d] }
  let h := targets.foldl (fun h q =>
    if h.active q && decide (h.homePort q < 32) then
      h.sendSnoop ds { requester := q, dpa := dpaOf s (line * 64), data := data, dirKey := key, owner := owner }
    else h.answered key q false owner true false) h
  h.oneLess key

/-! ### Lookups (R145, R150, R151) -/

/-- What a lookup of one line answers: go on, wait, or go on with the line LOST. -/
inductive Look
  | pass | wait | lost
  deriving DecidableEq, Repr

/-- What a request asks of its lines. -/
inductive Ask
  | read (r mode : Nat) | write (r : Nat) (whole : Bool) | atm (r : Nat) | engineRead | engineWrite (whole : Bool)
  deriving DecidableEq, Repr

/-- A free way of the line's set. -/
def Hw.invalidWay (h : Hw) (s line : Nat) : Option Nat :=
  let base := setKey (h.dirStack s) line * 16
  ((List.range 16).map (fun w => base + w)).find? (fun k => decide ((h.way k).st = .invalid) && !(h.way k).busy)

/-- The victim of a full set: SHARED before OWNED, the first after the set's pointer (R150). -/
def Hw.victim (h : Hw) (s line : Nat) : Option Nat :=
  let sk := setKey (h.dirStack s) line
  let ptr := Table.atD h.coh.victimPtr (fun _ => 0) sk
  let order := (List.range 16).map (fun i => sk * 16 + (ptr + i) % 16)
  let pick (st : DirState) : Option Nat := order.find? (fun k => !(h.way k).busy && decide ((h.way k).st = st))
  match pick .shared with
  | some k => some k
  | none => pick .owned

/-- Take a way for a line with `e`; with none free, a victim is invalidated and the request waits. -/
def Hw.allocate (h : Hw) (s line : Nat) (e : DirEntry) : Look × Hw :=
  match h.invalidWay s line with
  | some k => (.pass, h.setWay k { e with tag := line / 65536, home := s, part := (h.partOf s).getD 0 })
  | none =>
    match h.victim s line with
    | some k =>
      let ds := h.dirStack s
      let v := h.way k
      let h := h.addReg Od.dirEvictions ds
      let h := { h with coh.victimPtr := Table.put h.coh.victimPtr (k / 16) ((k % 16 + 1) % 16) }
      (.wait, h.snoopHolders v.home k (v.tag * 65536 + k / 16 % 65536) 4096 false)
    | none => (.wait, h)

/-- Grant a line: the entry names `r` alone as its owner. -/
def Hw.own (h : Hw) (ds : Nat) (e : DirEntry) (r : Nat) : DirEntry :=
  { e with st := .owned, busy := false, coarse := false, ptrs := [r], groups := 0, ownerEpoch := h.epochAt ds r }

/-- The table of R145 for a line with no entry. -/
def Hw.lookInvalid (h : Hw) (s line : Nat) (ask : Ask) : Look × Hw :=
  match ask with
  | .read r 1 => h.allocate s line { st := .shared, ptrs := [r] }
  | .read r 2 => h.allocate s line (h.own (h.dirStack s) {} r)
  | _ => (.pass, h)

/-- The table of R145 for a line that has an entry. -/
def Hw.lookEntry (h : Hw) (s line key : Nat) (ask : Ask) : Look × Hw :=
  let e := h.way key
  let others (r : Nat) : Bool := (h.holders e).any (fun q => q != r)
  let snoop (r : Nat) (data : Bool) : Look × Hw := (.wait, h.snoopHolders s key line r data)
  let free : Look × Hw := (.pass, h.freeWay key)
  match e.st, ask with
  | .shared, .read _ 0 => (.pass, h)
  | .shared, .read r 1 => (.pass, h.setWay key (e.add r))
  | .shared, .read r _ => if others r then snoop r false else (.pass, h.setWay key (h.own (key / 16 / 65536) e r))
  | .shared, .write r _ => if others r then snoop r false else free
  | .shared, .atm r => if others r then snoop r false else free
  | .shared, .engineWrite _ => snoop 4096 false
  | .shared, .engineRead => (.pass, h)
  | .owned, .read r m => if e.ptrs = [r] then (.pass, h) else snoop 4096 (decide (m ≠ 2))
  | .owned, .write r _ => if e.ptrs = [r] then (.pass, h) else snoop 4096 false
  | .owned, .atm r => if e.ptrs = [r] then free else snoop 4096 false
  | .owned, .engineWrite _ => snoop 4096 false
  | .owned, .engineRead => snoop 4096 true
  | .lost, .write _ true => free
  | .lost, .engineWrite true => free
  | .lost, .write _ false => (.lost, h)
  | .lost, _ => (.lost, h)
  | .invalid, _ => (.pass, h)

/-- Gather back the copies of a line that no entry names, in a suspect set: an entry COARSE with every group, INV to every
requester that may cache the partition (R151). -/
def Hw.gatherLine (h : Hw) (s line : Nat) : Hw :=
  match h.invalidWay s line with
  | some k =>
    let e : DirEntry := { st := .shared, coarse := true, groups := 2 ^ 64 - 1, tag := line / 65536, home := s, part := (h.partOf s).getD 0 }
    (h.setWay k e).snoopHolders s k line 4096 false true
  | none => (h.allocate s line {}).2

/-- Look up one line for a request; `gathered`: its suspect fan-out has been done. -/
def Hw.lookLine (h : Hw) (s line : Nat) (ask : Ask) (gathered : Bool) : Look × Hw :=
  match h.findWay s line with
  | some key =>
    let e := h.way key
    if e.busy then
      match ask with
      | .write r _ => if e.st = .owned ∧ e.ptrs = [r] then (.pass, h) else (.wait, h)
      | _ => (.wait, h)
    else
      let h := if h.ownerGone key then h.ownerLoss key false else h
      match h.findWay s line with
      | some key => h.lookEntry s line key ask
      | none => h.lookInvalid s line ask
  | none =>
    if h.isSuspect s line && !gathered then (.wait, h.gatherLine s line)
    else h.lookInvalid s line ask

/-- Look up the lines [lo, hi] of stack `s`, in order, up to the first that makes the request wait: whether it waits,
which lines are LOST, the state. -/
def Hw.lookLines (h : Hw) (s lo hi : Nat) (ask : Nat → Ask) (gathered : List Nat) : Bool × List Nat × Hw :=
  (List.range (hi + 1 - lo)).foldl (fun (a : Bool × List Nat × Hw) i =>
    if a.1 then a
    else
      let line := lo + i
      let (l, h) := a.2.2.lookLine s line (ask line) (gathered.contains line)
      (decide (l = .wait), if l = .lost then a.2.1 ++ [line] else a.2.1, h)) (false, [], h)

/-! ### Order at the directory input (R154) -/

/-- Is a piece a write or an ATM. -/
def Piece.isWrite (p : Piece) : Bool := p.op = 2 || p.op = 3 || p.op = 5

/-- The requests of one step for one line in the order they act, with the new dir_ptr. -/
def orderLine (ptr : Nat) (owner : Option Nat) (grp : List Piece) : List Piece × Nat :=
  let own (p : Piece) : Bool := (p.op = 2 || p.op = 3) && owner == some p.requester && p.source == 0
  let t1 := grp.filter own
  let rest := grp.filter (fun p => !own p)
  let key (p : Piece) : Nat := if p.source = 0 then (p.requester + 4096 - ptr % 4096) % 4096 else 4096 + p.source
  let sort (l : List Piece) : List Piece := l.mergeSort (fun a b => decide (key a ≤ key b))
  let t2 := sort (rest.filter (fun p => p.isWrite))
  let t3 := sort (rest.filter (fun p => !p.isWrite))
  let hosts := (t2 ++ t3).filter (fun p => p.source == 0)
  (t1 ++ t2 ++ t3, if 2 ≤ hosts.length then ((hosts.head?.map (fun p => p.requester)).getD 0 + 1) % 4096 else ptr)

/-- What a piece asks of line `line`. -/
def Piece.ask (p : Piece) (line : Nat) : Ask :=
  let covered := (List.range 64).all (fun i =>
    let a := line * 64 + i
    decide (p.off ≤ a ∧ a < p.off + p.len) && p.mask.getD (a - p.off) (p.op == 2))
  match p.op with
  | 1 => .read p.requester p.subop
  | 5 => .atm p.requester
  | _ => .write p.requester covered

end Sys2Proof.Machine
end

