-- ==== Sys2Proof/Machine/Link.lean ====
section
/-! DEFINITION. Commands of chapter 1: qanat flits and retrains, module failure, pace windows, the silence rule. -/

namespace Sys2Proof.Machine

/-- Bits of a 32-bit flit header (R15). -/
def flitField (header : BitVec 32) (lo w : Nat) : Nat := (header.extractLsb' lo w).toNat

/-- Is a flit good: CRC-32C over bytes 0–259 checks, kind and vc are not reserved (R16). -/
def flitGood (header : BitVec 32) (payload : List Byte) (crc : BitVec 32) : Bool :=
  decide (payload.length = 256) && decide (crc = crc32c (bytesOf header 4 ++ payload)) &&
    decide (flitField header 28 4 ≤ 3) && decide (flitField header 0 3 ≤ 4)

/-- A link's reception of a flit as header, payload and CRC; `tagOk`: the authentication tag of a pair link. -/
def Link.take (l : Link) (now : Nat) (header : BitVec 32) (payload : List Byte) (good : Bool) : Link × Nat × Bool :=
  l.receive now (flitField header 28 4) (flitField header 16 12) (flitField header 4 12) (flitField header 0 3)
    (header.getLsbD 3) good payload

/-- Count replayed flits of a stack (R20, R360). -/
def Hw.countReplays (h : Hw) (stack n : Nat) : Hw :=
  if n = 0 then h else (h.addReg Od.qanatReplays stack n).countSel 0x0a stack n

/-- FLIT_RECEIVE (R16, R140): accept in order or discard and nak; a vc4 control flit from the slice ends its silence. -/
def execFlitReceive (stack : StackIx) (module : Fin 8) (hubEnd : Bool) (header : BitVec 32) (payload : List Byte)
    (crc : BitVec 32) (s : State) : Host.Outcome State Fault Refusal :=
  s.on (fun h =>
    let k := linkKey stack module hubEnd
    let l := h.link k
    if l.st ≠ .up then h
    else
      let good := flitGood header payload crc
      let (l, n, accepted) := l.take h.now header payload good
      let h := (h.setLink k l).countReplays stack n
      let h := if hubEnd ∧ accepted ∧ flitField header 28 4 = 3 ∧ flitField header 0 3 = 4 then h.setTimer Tm.silence stack h.now else h
      h.pumpQanat stack hubEnd)

/-- Both ends of a module start a retrain; when no module stays up, the silence timer is suspended (R16, R140). -/
def Hw.retrainModule (h : Hw) (stack m : Nat) : Hw :=
  let go (l : Link) : Link := { l with st := .retrain, retrains := l.retrains + 1 }
  let h := [false, true].foldl (fun h e => h.setLink (linkKey stack m e) (go (h.link (linkKey stack m e)))) h
  if (h.modulesIn stack .up).isEmpty then h.setTimer Tm.silPause stack h.now else h

/-- A module becomes FAILED: its unacknowledged flits go to the other modules, an event is raised; with no module left
the retry budget runs (R16, R17, R20). -/
def Hw.failModule (h : Hw) (stack m : Nat) : Hw :=
  let since := ((h.link (linkKey stack m true)).firstFail.orElse (fun _ => (h.link (linkKey stack m false)).firstFail)).getD h.now
  let flits := [false, true].map (fun e => (e, (h.link (linkKey stack m e)).buf))
  let h := [false, true].foldl (fun h e => h.setLink (linkKey stack m e) { st := .failed }) h
  let h := h.subReg Od.qanatModulesActive stack
  let h := h.raise { kind := 2, stack := some stack, payload := packFields [(8, m)] }
  let h := flits.foldl (fun h f => f.2.foldl (fun h x => h.sendQanat stack f.1 x.kind x.vc x.payload) h) h
  if h.reg Od.qanatModulesActive stack = 0 then h.setTimer Tm.budget stack (since + 100000) else h

/-- REPLAY_LIMIT_RETRAIN (R16): eight consecutive failed replays start a retrain. -/
def execReplayLimitRetrain (stack : StackIx) (module : Fin 8) (hubEnd : Bool) (s : State) : Host.Outcome State Fault Refusal :=
  s.on (fun h =>
    let l := h.link (linkKey stack module hubEnd)
    if l.st = .up ∧ 8 ≤ l.replays then h.retrainModule stack module else h)

/-- MODULE_RETRAIN_DONE (R16, R18): lanes are repaired or the module degrades to x32; `delivered` says that the flit that
failed was delivered. Two retrains in a row that do not deliver it fail the module. -/
def execModuleRetrainDone (stack : StackIx) (module : Fin 8) (hubEnd : Bool) (failedLanes : Nat) (delivered : Bool) (s : State) :
    Host.Outcome State Fault Refusal :=
  s.on (fun h =>
    let k := linkKey stack module hubEnd
    if (h.link k).st ≠ .retrain then h
    else
      let pause := h.timer Tm.silPause stack
      let h := if pause = 0 then h
        else (h.setTimer Tm.silence stack (h.timer Tm.silence stack + (h.now - pause))).setTimer Tm.silPause stack 0
      let h := if failedLanes ≤ 4 then h.addReg Od.qanatLanesRepaired stack failedLanes
        else h.setLink k { h.link k with half := true }
      if !delivered ∧ 2 ≤ (h.link k).retrains then h.failModule stack module
      else
        let back (h : Hw) (e : Bool) : Hw :=
          let l := (h.link (linkKey stack module e)).renumber
          let l := { l with st := .up, lastRx := h.now }
          h.setLink (linkKey stack module e) (if delivered then { l with retrains := 0, firstFail := none } else { l with replays := 8 })
        ([false, true].foldl back h).pumpQanat stack hubEnd)

/-- FLIT_DELIVERY_TIMEOUT (R16): a flit undelivered 96 µs after its first failed transmission fails its module at once. -/
def execFlitDeliveryTimeout (stack : StackIx) (module : Fin 8) (hubEnd : Bool) (s : State) : Host.Outcome State Fault Refusal :=
  s.on (fun h =>
    let l := h.link (linkKey stack module hubEnd)
    match l.firstFail with
    | some t => if (l.st = .up ∨ l.st = .retrain) ∧ t + 96000 ≤ h.now then h.failModule stack module else h
    | none => h)

/-- QANAT_RETRY_BUDGET_EXPIRY (R17, R140): a stack whose link has no module left is FAILED when the budget runs out. -/
def execQanatRetryBudgetExpiry (stack : StackIx) (s : State) : Host.Outcome State Fault Refusal :=
  s.on (fun h =>
    if h.reg Od.stackState stack = 1 ∧ h.reg Od.qanatModulesActive stack = 0 ∧ h.due Tm.budget stack then h.failStack stack else h)

/-- FLIT_IDLE_TIMEOUT (R18): no valid flit for 2 µs retrains the module. -/
def execFlitIdleTimeout (stack : StackIx) (module : Fin 8) (hubEnd : Bool) (s : State) : Host.Outcome State Fault Refusal :=
  s.on (fun h =>
    let l := h.link (linkKey stack module hubEnd)
    if l.st = .up ∧ l.lastRx + 2000 ≤ h.now then h.retrainModule stack module else h)

/-- SANDGLASS_WINDOW (R22): once per 1,024 ns a die publishes its effective τ; the hub counts its windows. -/
def execSandglassWindow (die : Option StackIx) (tau : BitVec 16) (s : State) : Host.Outcome State Fault Refusal :=
  s.on (fun h =>
    let i := match die with
      | some d => d.val
      | none => 16
    if !h.due Tm.sand i then h
    else
      let h := h.setTimer Tm.sand i ((h.now / 1024 + 1) * 1024)
      match die with
      | none =>
        let h := h.setReg Od.hubPace 0 tau.toNat
        let h := h.setReg Od.hubPacePeak 0 (max (h.reg Od.hubPacePeak) tau.toNat)
        h.addReg Od.hubPaceWindows 0
      | some d =>
        let h := h.setReg Od.slicePace d tau.toNat
        h.setReg Od.slicePacePeak d (max (h.reg Od.slicePacePeak d) tau.toNat))

/-- Registers that report a pace (R22, R23). -/
def isPace (k : Nat) : Bool :=
  let r := keyReg k
  decide (r = Od.hubPace ∨ r = Od.hubPacePeak ∨ r = Od.slicePace ∨ r = Od.slicePacePeak)

/-- PACE_QUANTIZED_REFRESH (R23): every 100 ms, while a confidential partition exists, operators and tenants get the pace
values afresh. -/
def execPaceQuantizedRefresh (s : State) : Host.Outcome State Fault Refusal :=
  s.on (fun h =>
    if h.confidential ∧ h.due Tm.paceRef 0 then
      { h.setTimer Tm.paceRef 0 (h.now + 100000000) with odPace := h.od.filter (fun e => isPace e.1) }
    else h)

/-- SLICE_SILENCE_TIMEOUT (R140): no vc4 control flit for 10 µs while a module was trained and not retraining. -/
def execSliceSilenceTimeout (stack : StackIx) (s : State) : Host.Outcome State Fault Refusal :=
  s.on (fun h =>
    if h.reg Od.stackState stack = 1 ∧ !(h.modulesIn stack .up).isEmpty ∧ h.timer Tm.silence stack + 10000 ≤ h.now then
      h.failStack stack
    else h)

end Sys2Proof.Machine
end

