-- ==== Sys2Proof/Machine/Slice.lean ====
section
/-! DEFINITION. The slice input: requests reach the directory, the write-combining buffer, the bank queues or the hold list
(R44, R45, R55, R63, R69, R70, R74, R82, R83, R138 to R140, R145, R147, R148, R181, R182). -/

namespace Sys2Proof.Machine

/-! ### Completion of host reads and writes -/

/-- The data of a read from the columns that have arrived. -/
def assemble (n : Nat) (out : List (Nat × List Byte)) : List Byte :=
  let t : Table Byte := out.foldl (fun t c => c.2.zipIdx.foldl (fun t b => Table.put t (c.1 + b.2) b.1) t) []
  (List.range n).map (fun i => (Table.look t i).getD 0)

/-- The response status of a read: POISON when a line is poisoned, or what the original of a repeat had (R66, R69). -/
def readStatus (t : Tracker) (poison : List Bool) : Nat :=
  if poison.any id then St.poison
  else if t.rq.isRepeat ∧ (t.status = St.poison ∨ t.status = St.timeout ∨ t.status = St.aborted) then t.status
  else St.ok

/-- A read has all its columns: it completes. -/
def Hw.finishRead (h : Hw) (uid : Nat) : Hw :=
  match h.trk uid with
  | some t =>
    let h := h.point uid 6
    let h := h.point uid 7
    let h := h.point uid 8
    h.complete uid (readStatus t t.poison) (assemble t.rq.bytes t.out) t.poison
  | none => h

/-- Bytes of a read arrive at the slice: `at_` within the request; `n` columns are accounted for. -/
def Hw.deliver (h : Hw) (uid at_ : Nat) (data : List Byte) (bad : Bool) (n : Nat) : Hw :=
  match h.trk uid with
  | some t =>
    let mark := if bad then (List.range ((data.length + 63) / 64)).foldl (fun m i => m.set (at_ / 64 + i) true) t.poison else t.poison
    let t := { t with out := t.out ++ [(at_, data)], poison := mark, piecesLeft := t.piecesLeft - n }
    let h := h.setTrk uid t
    if t.piecesLeft = 0 then h.finishRead uid else h
  | none => h

/-- A write has taken effect: where it is mirrored its completion waits for the standby (R29, R252). -/
def Hw.acceptWrite (h : Hw) (uid status : Nat) (data : List Byte) (psn : List Bool) (m : Option Mirror) : Hw :=
  let h := h.point uid 4
  let h := h.point uid 6
  let h := h.point uid 7
  let h := h.point uid 8
  match m, h.trk uid with
  | some m, some t =>
    let h := h.setTrk uid { t with phase := .held, status := status, out := [(0, data)], poison := psn }
    h.sendMirror { m with requester := t.rq.requester, seq := t.rq.seq, status := status, trk := some uid }
  | _, _ => h.complete uid status data psn

/-! ### Descriptors at a slice (R180 to R182) -/

/-- Change the descriptors of one launch. -/
def Launch.onDescs (l : Launch) (f : Launch → Desc → Desc) : Launch := { l with descs := l.descs.map (f l) }

/-- Change every armed descriptor of the unit. -/
def Hw.mapDescs (h : Hw) (f : Nat → Launch → Desc → Desc) : Hw :=
  let step (e : Nat × Engine) : Nat × Engine :=
    (e.1, { e.2 with queue := e.2.queue.map (fun l => l.onDescs (f e.1)), run := e.2.run.map (fun l => l.onDescs (f e.1)) })
  { h with car.engines := h.car.engines.map step }

/-- Every descriptor of a queued or running launch, with its launch's engine. -/
def Hw.allDescs (h : Hw) : List (Nat × Desc) :=
  h.car.engines.flatMap (fun e => (e.2.queue ++ e.2.run.toList).flatMap (fun l => l.descs.map (fun d => (e.1, d))))

/-- A PUSH takes the lines that a host write covers whole (R182). -/
def Desc.pushArrive (d : Desc) (dpa len : Nat) (mask : List Bool) : Desc :=
  if d.kind = 2 ∧ d.armedAt.isSome ∧ !d.expired then
    let whole := (List.range (d.size * 64)).filter (fun i =>
      let a := d.base + 64 * i
      decide (dpa ≤ a ∧ a + 64 ≤ dpa + len) && (List.range 64).all (fun j => mask.getD (a - dpa + j) false))
    { d with lines := whole.foldl (fun t i => Table.put t i true) d.lines }
  else d

/-- A host write is accepted: PUSH descriptors see its lines. -/
def Hw.pushWrite (h : Hw) (dpa len : Nat) (mask : List Bool) : Hw := h.mapDescs (fun _ _ d => d.pushArrive dpa len mask)

/-- Is a read held by some armed PULL. -/
def Hw.isHeld (h : Hw) (p : Piece) : Bool := h.allDescs.any (fun d => d.2.holds p)

/-! ### Dispatch credits (R100) -/

/-- A pseudo-channel's credit of a class is on its way back. -/
def Hw.creditDue (h : Hw) (g cls : Nat) : Hw :=
  let k := g * 2 + (if cls = 0 then 0 else 1)
  { h with req.creditsDue := Table.setD h.req.creditsDue (fun _ => 0) k (Table.atD h.req.creditsDue (fun _ => 0) k + 1) }

/-- The pseudo-channels that a range of stack `s` touches (visible offset `o`). -/
def Hw.pcsOf (h : Hw) (s o len : Nat) : List Nat :=
  ((cutSectors (len / 256 + 2) (h.physical s o) len).map (fun c => gOf s (h.coord s c.1).pc)).dedup

/-- Return one credit for each pseudo-channel a piece touches. -/
def Hw.creditsBack (h : Hw) (p : Piece) : Hw := (h.pcsOf p.stack p.off p.len).foldl (fun h g => h.creditDue g p.cls) h

/-! ### Placing a request (R45, R55, R74, R83) -/

/-- Where a physical range is cut into queue entries: per pseudo-channel and row. -/
def Hw.cutRows (h : Hw) (s p len : Nat) : List (Nat × Nat) :=
  let unit := if h.grainLog (h.partOf s) = 8 then 256 else 1024
  (List.range (len / unit + 2)).filterMap (fun i =>
    let lo := max p (p / unit * unit + i * unit)
    let hi := min (p + len) (p / unit * unit + (i + 1) * unit)
    if lo < hi then some (lo, hi - lo) else none)

/-- The sectors of a physical range. -/
def sectorsOf (s p len : Nat) : List Nat := (cutSectors (len / 256 + 2) p len).map (fun c => secKey s c.1)

/-- A read meets the buffer: every sector it touches that is buffered is forced out with the read's class (R83). -/
def Hw.forceOut (h : Hw) (ks : List Nat) (cls : Nat) : Hw :=
  ks.foldl (fun h k =>
    if (Table.look h.mem.wcb k).isSome then
      (h.countFix (gOf (secStack k) (h.coord (secStack k) (secOff k)).pc) 9).evict k (some cls)
    else h) h

/-- Place one row's part of a read: a queue entry, or the degraded path where its place is lost (R139, R240). -/
def Hw.placeRow (h : Hw) (p : Piece) (phys lo len : Nat) : Hw :=
  let s := p.stack
  let c := h.coord s lo
  let n := len / 32
  if h.lostAt s c.pc then
    let deg := { p with off := p.off + (lo - phys), dpa := p.dpa + (lo - phys), len := len }
    let t := (h.proxyOf s).getD s
    { h with par.degReads := Table.put h.par.degReads t (Table.atD h.par.degReads (fun _ => []) t ++ [deg]) }
  else
    let ks := sectorsOf s lo len
    let h := h.forceOut ks p.cls
    let x : QEntry :=
      { kind := 0, who := { source := 0, cls := p.cls, attr := some p.requester, tag := p.trk }, bank := c.bank, row := c.row,
        col := c.col, ncol := n - 1, arrival := h.now, sector := secKey s lo, dpa := p.dpa + (lo - phys), part := p.part,
        want := ks.flatMap (fun k => List.replicate (h.evictions k) k) }
    h.pushStage s x

/-- Place a read (R44): its columns are counted, each row takes an entry. A retired page reads as POISON throughout. -/
def Hw.placeRead (h : Hw) (p : Piece) : Hw :=
  match h.trk p.trk with
  | none => h.creditsBack p
  | some t =>
    let lines := p.len / 64
    let marks := (List.range lines).map (fun i => p.bad.contains (p.off / 64 + i))
    let h := h.setTrk p.trk { t with poison := marks, out := [], piecesLeft := p.len / 32 }
    if h.retired p.dpa then
      (h.creditsBack p).deliver p.trk 0 (List.replicate p.len 0) true (p.len / 32)
    else
      let phys := h.physical p.stack p.off
      (h.cutRows p.stack phys p.len).foldl (fun h r => h.placeRow p phys r.1 r.2) h

/-- Hold a read for a PULL, or place it (R181). -/
def Hw.placeOrHold (h : Hw) (p : Piece) : Hw :=
  if h.isHeld p then
    if (h.sl.holds.filter (fun q => q.stack == p.stack)).length < 2048 then
      { h with sl.holds := h.sl.holds ++ [p] }.countSel 0x0e p.stack
    else (h.creditsBack p).complete p.trk St.aborted
  else h.placeRead p

/-- Place a write: it merges into the buffer and completes, or completes with POISON where it cannot be stored
(R29, R45, R139). -/
def Hw.placeWrite (h : Hw) (p : Piece) : Hw :=
  let h := h.creditsBack p
  match h.trk p.trk with
  | none => h
  | some _ =>
    let phys := h.physical p.stack p.off
    if h.retired p.dpa then h.acceptWrite p.trk St.ok [] [] none
    else if (sectorsOf p.stack phys p.len).all (fun k => h.storable k) then
      let h := h.writeBytes p.stack p.off p.data p.mask p.psn { cls := p.cls, attr := some p.requester, intent := (h.intentFor p.stack phys).isSome } false
      let h := h.pushWrite p.dpa p.len p.mask
      let m : Mirror := { seqNo := 0, kind := 0, dpa := p.dpa, data := p.data, mask := p.mask,
                          marked := (List.range p.psn.length).filter (fun i => p.psn.getD i false) }
      h.acceptWrite p.trk St.ok [] [] (if h.mirrored p.stack phys then some m else none)
    else h.complete p.trk St.poison

/-- The 64-bit or 128-bit operation of an ATM: old value, operands → new value, of `n` bytes (R55). -/
def atmResult (subop n old op1 op2 : Nat) : Nat :=
  if subop = 0 then (old + op1) % 256 ^ n
  else if subop = 1 then op1
  else if old = op1 then op2 else old

/-- Place an ATM: the line is read, changed and merged as one operation; on a poisoned line nothing changes (R55, R69). -/
def Hw.placeAtm (h : Hw) (p : Piece) : Hw :=
  let h := h.creditsBack p
  match h.trk p.trk with
  | none => h
  | some t =>
    let n := if t.rq.subop = 2 then 16 else 8
    let phys := h.physical p.stack p.off
    let (bytes, bad, h) := h.readBytes p.stack p.off n (some p.requester) 0
    let poisoned := bad.any id || !p.bad.isEmpty || h.retired p.dpa || !h.storable (secKey p.stack phys)
    if poisoned then (h.point p.trk 6).complete p.trk St.poison (List.replicate 64 0) [true, true]
    else
      let old := bytesNat bytes
      let op1 := bytesNat (p.data.take n)
      let op2 := bytesNat ((p.data.drop n).take n)
      let new := natBytes (atmResult t.rq.subop n old op1 op2) n
      let h := h.writeBytes p.stack p.off new (List.replicate n true) [] { cls := p.cls, attr := some p.requester, intent := (h.intentFor p.stack phys).isSome } false
      let m : Mirror := { seqNo := 0, kind := 0, dpa := p.dpa, data := new, mask := List.replicate n true }
      h.acceptWrite p.trk St.ok (natBytes old 64) [false, false] (if h.mirrored p.stack phys then some m else none)

/-- Place a request that the directory has passed, or that needs none. -/
def Hw.place (h : Hw) (p : Piece) : Hw :=
  match p.op with
  | 1 => h.placeOrHold p
  | 5 => h.placeAtm p
  | _ => h.placeWrite p

/-! ### The directory input -/

/-- The directory's input and wait list of a slice. -/
def Hw.dirIn (h : Hw) (s : Nat) : List Piece := Table.atD h.coh.dirQ (fun _ => []) s
def Hw.dirWaiting (h : Hw) (s : Nat) : List Piece := Table.atD h.coh.dirWait (fun _ => []) s
def Hw.setDirIn (h : Hw) (s : Nat) (q : List Piece) : Hw := { h with coh.dirQ := Table.setD h.coh.dirQ (fun _ => []) s q }
def Hw.setDirWaiting (h : Hw) (s : Nat) (q : List Piece) : Hw := { h with coh.dirWait := Table.setD h.coh.dirWait (fun _ => []) s q }

/-- Note in a sample that the directory was consulted, or that the request waited for a snoop. -/
def Hw.markCoherent (h : Hw) (uid : Nat) (snooped : Bool) : Hw :=
  h.modTrk uid (fun t => { t with sample := t.sample.map (fun s => { s with coherent := true, snooped := s.snooped || snooped }) })

/-- A piece at the directory: it passes and is placed, or joins the wait list (R145). -/
def Hw.consult (h : Hw) (p : Piece) : Bool × Hw :=
  let lo := p.off / 64
  let hi := (p.off + p.len - 1) / 64
  let (waits, lost, h) := h.lookLines p.stack lo hi p.ask p.gathered
  let h := h.markCoherent p.trk waits
  if waits then (true, h) else (false, h.place { p with bad := lost })

/-- The wait list acts again, in order: what passes leaves it (R145, R154). An engine's access acts again with its step. -/
def Hw.retryWaiting (h : Hw) (ds : Nat) : Hw :=
  ((h.dirWaiting ds).filter (fun p => p.source == 0)).foldl (fun h p =>
    -- the entry of the list may have been marked since (R151)
    let q := h.dirWaiting ds
    match q.find? (fun x => decide (x.trk = p.trk ∧ x.off = p.off ∧ x.source = 0)) with
    | some p =>
      let (waits, h) := h.consult p
      if waits then h else h.setDirWaiting ds ((h.dirWaiting ds).filter (fun x => !decide (x.trk = p.trk ∧ x.off = p.off ∧ x.source = 0)))
    | none => h) h

/-- DIRECTORY_LOOKUP (R145, R154): the requests at the directory input for the front's line act in the order of R154. -/
def Hw.directoryLookup (h : Hw) (stack : Nat) : Hw :=
  match h.dirIn stack with
  | [] => h
  | p :: _ =>
    if h.degrading stack ∨ 2048 ≤ (h.dirWaiting stack).length then h
    else
      let line := p.off / 64
      let touches (q : Piece) : Bool := q.stack == p.stack && decide (q.off / 64 ≤ line ∧ line ≤ (q.off + q.len - 1) / 64)
      let grp := (h.dirIn stack).filter touches
      let h := h.setDirIn stack ((h.dirIn stack).filter (fun q => !touches q))
      let owner := match h.findWay p.stack line with
        | some k => if (h.way k).st = .owned then (h.way k).ptrs.head? else none
        | none => none
      let ptr := Table.atD h.coh.dirPtr (fun _ => 0) stack
      let (order, ptr') := orderLine ptr owner grp
      let h := { h with coh.dirPtr := Table.setD h.coh.dirPtr (fun _ => 0) stack ptr' }
      order.foldl (fun h q =>
        let (waits, h) := h.consult q
        if waits then h.setDirWaiting stack (h.dirWaiting stack ++ [q]) else h) h

/-- Row DIRECTORY_LOOKUP. -/
def execDirectoryLookup (stack : StackIx) (s : State) : Host.Outcome State Fault Refusal := s.on (fun h => h.directoryLookup stack.val)

/-- Free a snoop's slot; the next snoop waiting for one takes it (R155). -/
def Hw.freeSnoop (h : Hw) (ds slot : Nat) : Hw :=
  let h := { h with coh.snoops := Table.del h.coh.snoops (ds * 4096 + slot) }
  match Table.atD h.coh.snoopQ (fun _ => []) ds with
  | x :: rest => { h with coh.snoopQ := Table.setD h.coh.snoopQ (fun _ => []) ds rest }.issueSnoop ds slot x
  | [] => h

/-- A BIRSP at its slice (R147): it resolves its slot, or is discarded and counted. -/
def Hw.resolveBirsp (h : Hw) (id requester dpa kind : Nat) : Hw :=
  let ds := id / 4096 % 16
  match Table.look h.coh.snoops id with
  | some x =>
    if x.requester ≠ requester ∨ x.dpa ≠ dpa / 64 * 64 ∨ (!x.data ∧ kind = 1) then h.addReg Od.dirBirspStale ds
    else
      let h := h.freeSnoop ds (id % 4096)
      (h.answered x.dirKey requester (decide (kind = 1)) x.owner false false).retryWaiting ds
  | none => h.addReg Od.dirBirspStale ds

/-- SNOOP_TIMEOUT (R148): a snoop unanswered for coh_snoop_timeout_us since its BISNP left. -/
def execSnoopTimeout (id : BitVec 16) (s : State) : Host.Outcome State Fault Refusal :=
  s.on (fun h =>
    let id := id.toNat
    let ds := id / 4096
    match Table.look h.coh.snoops id with
    | some x =>
      let part := (h.way x.dirKey).part
      match x.sentAt with
      | some t =>
        if t + h.reg Od.cohSnoopTimeoutUs part * 1000 ≤ h.now then
          let h := h.freeSnoop ds (id % 4096)
          let h := h.addReg Od.dirSnoopTimeouts ds
          let h := h.raise { kind := 8, stack := some ds, part := some part, req := some x.requester }
          (h.answered x.dirKey x.requester false x.owner true true).retryWaiting ds
        else h
      | none => h
    | none => h)

/-- The sweep of requester `r` at slice `st` (R144): owners of an old epoch are lost, sharers are dropped without a record. -/
def Hw.sweepSlice (h : Hw) (st r : Nat) : Hw :=
  let h := { h with coh.sweeps := h.coh.sweeps.erase (st, r) }
  let mine := (h.coh.dir.filter (fun e => decide (e.1 / 16 / 65536 = st))).map (fun e => e.1)
  let h := mine.foldl (fun h key =>
    let e := h.way key
    if e.busy then h
    else if e.st = .owned ∧ e.ptrs = [r] ∧ h.ownerGone key then h.ownerLoss key false
    else if e.st = .shared ∧ !e.coarse ∧ e.ptrs.contains r then
      let e := e.remove r
      if e.ptrs = [] then h.freeWay key else h.setWay key e
    else h) h
  h.retryWaiting st

/-- A further epoch advance of a requester is held until its sweeps have ended (R144): they end first. -/
def Hw.finishSweeps (h : Hw) (r : Nat) : Hw :=
  (h.coh.sweeps.filter (fun x => x.2 == r)).foldl (fun h x => h.sweepSlice x.1 x.2) h

/-- DIRECTORY_SWEEP (R144): the sweep of one requester whose epoch advanced, at one slice. -/
def execDirectorySweep (stack : StackIx) (s : State) : Host.Outcome State Fault Refusal :=
  s.on (fun h =>
    match h.coh.sweeps.find? (fun x => x.1 == stack.val) with
    | some (st, r) => h.sweepSlice st r
    | none => h)

/-- ACCEPT_ALL (R145, R149): every LOST line of the partition takes its memory copy. -/
def Hw.acceptAll (h : Hw) (p : Nat) : Hw :=
  let lost := (h.coh.dir.filter (fun e => decide (e.2.st = .lost ∧ e.2.part = p))).map (fun e => e.1)
  let h := lost.foldl (fun h key =>
    let e := h.way key
    (h.logLoss p 2 (e.ptrs.headD 0) (e.dpa key) false).freeWay key) h
  (List.range 16).foldl (fun h ds => h.retryWaiting ds) h

/-! ### The slice input -/

/-- The input of a slice: requests that have crossed the qanat. -/
def Hw.inbox (h : Hw) (s : Nat) : List Piece := Table.atD h.sl.inbox (fun _ => []) s
def Hw.setInbox (h : Hw) (s : Nat) (q : List Piece) : Hw := { h with sl.inbox := Table.setD h.sl.inbox (fun _ => []) s q }

/-- Must a write wait for room in the write-combining buffer (R123). -/
def Hw.wcbFull (h : Hw) (p : Piece) : Bool :=
  p.isWrite && decide (32768 ≤ h.wcbCount p.stack) &&
    (sectorsOf p.stack (h.physical p.stack p.off) p.len).any (fun k => (Table.look h.mem.wcb k).isNone)

/-- SLICE_INPUT (R45): the oldest piece at the slice input goes to the directory, or is placed. -/
def Hw.sliceInput (h : Hw) (stack : Nat) : Hw :=
  match h.inbox stack with
  | [] => h
  | p :: rest =>
    if h.degrading stack ∨ h.wcbFull p ∨ 4096 ≤ (h.stage stack).length then h
    else
      let h := h.setInbox stack rest
      if p.op = 9 then h.resolveBirsp p.trk p.requester p.dpa p.subop
      else
        let h := h.point p.trk 3
        if h.coherent p.part then
          let ds := h.dirStack p.stack
          h.setDirIn ds (h.dirIn ds ++ [p])
        else h.place p

/-- Row 34: SLICE_INPUT. -/
def execSliceInput (stack : StackIx) (s : State) : Host.Outcome State Fault Refusal := s.on (fun h => h.sliceInput stack.val)

/-- CANCEL (R63): a slice drops what it has not placed of a request whose timeout fired. -/
def execCancel (tracker : BitVec 16) (s : State) : Host.Outcome State Fault Refusal :=
  s.on (fun h =>
    match h.sl.cancels.find? (fun u => u % 65536 == tracker.toNat) with
    | some uid =>
      let h := { h with sl.cancels := h.sl.cancels.filter (fun u => u != uid) }
      let other (p : Piece) : Bool := p.trk != uid || p.op == 9
      let gone := (h.sl.inbox ++ h.coh.dirQ ++ h.coh.dirWait).flatMap (fun e => e.2.filter (fun p => !other p))
        ++ h.sl.holds.filter (fun p => !other p)
      let strip (t : Table (List Piece)) : Table (List Piece) := t.map (fun e => (e.1, e.2.filter other))
      let h := { h with sl.inbox := strip h.sl.inbox, coh.dirQ := strip h.coh.dirQ, coh.dirWait := strip h.coh.dirWait,
                        red.accIn := strip h.red.accIn, par.degReads := strip h.par.degReads,
                        sl.holds := h.sl.holds.filter other }
      let launches := h.car.launchIn.map (fun e => (e.1, e.2.filter (fun l => l.trk != some uid)))
      let waits (x : QEntry) : Bool := !decide (x.who.source = 0 ∧ x.who.tag = uid)
      let staged := h.sl.stage.map (fun e => (e.1, e.2.filter waits))
      let h := { h with car.launchIn := launches, sl.stage := staged }
      gone.foldl (fun h p => h.creditsBack p) h
    | none => h)

end Sys2Proof.Machine
end

