-- ==== Sys2Proof/Machine/HeatOps.lean ====
section
/-! DEFINITION. Refresh epochs, levels, calibration requests and SIROCCO notices: what the scheduler, the thermal unit and
start-up share (R85, R86, R93, R95, R232, R297, R308, R310). -/

namespace Sys2Proof.Machine

/-- The timebase in ps. -/
def Hw.ps (h : Hw) : Nat := h.now * 1000

/-! ### Refresh epochs (R85, R86) -/

/-- tREFI_eff of a stack, in ps: t_refi divided by the multiplier. -/
def Hw.refi (h : Hw) (s : Nat) : Nat := h.reg Od.tRefi s / 2 ^ h.reg Od.refMultiplier s

/-- The first due time of phase `f`, not before `t`, in the epoch that began at `t0`. -/
def dueFrom (t0 refi f t : Nat) : Nat :=
  let first := t0 + f * refi / 16
  if t ≤ first then first else first + (t - first + refi - 1) / refi * refi

/-- Give a pseudo-channel its next due time in the stack's epoch. -/
def Hw.joinEpoch (h : Hw) (g : Nat) : Hw :=
  let s := g / 64
  match h.timer Tm.refDue s with
  | 0 => h
  | t0 + 1 => h.setPc g { h.pc g with nextDue := some (dueFrom t0 (max 1 (h.refi s)) (g % 64 % 16) h.ps) }

/-- Is a pseudo-channel in a state that refreshes (R96). -/
def Hw.refreshes (h : Hw) (g : Nat) : Bool := decide (h.reg Od.pcState g = 3 ∨ h.reg Od.pcState g = 4)

/-- Begin a refresh epoch of a stack at `t0` ps: every pseudo-channel that refreshes joins it. -/
def Hw.startEpoch (h : Hw) (s t0 : Nat) : Hw :=
  let h := h.setTimer Tm.refDue s (t0 + 1)
  let h := if h.reg Od.refPendingMultiplier s = 0xff then h else h.setTimer Tm.refPend s t0
  (List.range 64).foldl (fun h pc => if h.refreshes (gOf s pc) then h.joinEpoch (gOf s pc) else h) h

/-- A change of M is asked for: it waits for the next due time of phase 0; asking for the present one withdraws it. -/
def Hw.askMultiplier (h : Hw) (s m : Nat) : Hw :=
  if h.reg Od.refMultiplier s = m then h.setReg Od.refPendingMultiplier s 0xff
  else if h.reg Od.refPendingMultiplier s = m then h
  else
    let h := h.setReg Od.refPendingMultiplier s m
    match h.timer Tm.refDue s with
    | 0 => h
    | t0 + 1 => h.setTimer Tm.refPend s (dueFrom t0 (max 1 (h.refi s)) 0 h.ps)

/-! ### Calibration requests (R308, R310) -/

/-- An occasion of R308: a pause is requested; while one is pending the occasion joins it, while a run is in progress it
waits for the run's end. -/
def Hw.askCal (h : Hw) (g : Nat) : Hw :=
  if h.reg Od.pcState g ≠ 4 then h
  else
    let x := h.pc g
    let h := h.setPc g { x with pauseReq := some (x.pauseReq.getD h.now) }
    if h.reg Od.calState g = 0 then h.setReg Od.calState g 1 else h

/-- A pseudo-channel leaves READY: its request is dropped (R310). -/
def Hw.dropCal (h : Hw) (g : Nat) : Hw :=
  let h := h.setReg Od.calState g 0
  h.setPc g { h.pc g with pauseReq := none, pauseUntil := none }

/-! ### Levels (R95, R297) -/

/-- The rate divisor code of a level: L3 halves the pin rate, L4 quarters it. -/
def levelDivisor (level : Nat) : Nat := if level = 3 then 1 else if level = 4 then 2 else 0

/-- The level that THROT_REQ asks for (R298). -/
def throtLevel (v : Nat) : Nat := min 3 v

/-- The highest of the three levels of R297. -/
def Hw.wantLevel (h : Hw) (s : Nat) : Nat :=
  max (h.reg Od.thermLevelThermal s) (max (throtLevel (h.reg Od.throtReq)) (min 4 (h.reg Od.thermLevelFloor)))

/-- Chunk geometry: elements per chunk by red_fmt_in (R218). -/
def chunkElems (fmtIn : Nat) : Nat :=
  if fmtIn = 0 then 64 else if fmtIn ≤ 2 then 128 else if fmtIn ≤ 4 then 256 else 512

/-- C, the chunk count of a session (R218). -/
def Hw.chunkCount (h : Hw) (n : Nat) : Nat :=
  let e := chunkElems (h.reg Od.redFmtIn n)
  (h.reg Od.redElements n + e - 1) / e

/-- The mean interval between a session's last 1,024 finished chunks, or all of them since OPEN (`finishes` keeps the last
1,025 instants). -/
def Session.meanFinish (x : Session) : Nat :=
  match x.finishes.getLast?, x.finishes.head? with
  | some t, some first => if 1024 < x.finishes.length then (t - first) / 1024 else (t - x.openedAt) / max 1 x.finishes.length
  | _, _ => 0

/-- Expected slowdown in 1/256 of a level and a stretch code (R232). -/
def slowdown (level stretch : Nat) : Nat :=
  max ([256, 293, 342, 512, 1024].getD level 1024) ([256, 320, 384, 512].getD stretch 512)

/-- One SIROCCO notice to every session that accumulates on stack `s` (R232). -/
def Hw.sirocco (h : Hw) (s : Nat) : Hw :=
  (List.range 256).foldl (fun h n =>
    if (h.reg Od.redState n = 1 ∨ h.reg Od.redState n = 2) ∧ h.accStack n = s then
      let level := h.reg Od.thermLevel s
      let stretch := h.reg Od.slicePaceStretch s
      let f := slowdown level stretch
      let left := h.chunkCount n - h.reg Od.redChunksDone n
      let x := h.ses n
      let est := match x.finishes with
        | [] => 2 ^ 64 - 1
        | _ => h.now + left * x.meanFinish * f / 256
      h.sessionNotice n 0x15 [(4, s), (3, level), (2, stretch), (16, f), (32, left), (64, est)]
    else h) h

/-- The level a stack now runs at changes (R297): counted, and told to the sessions on the stack. -/
def Hw.setLevel (h : Hw) (s level : Nat) : Hw :=
  if h.reg Od.thermLevel s = level then h
  else ((h.setReg Od.thermLevel s level).addReg Od.thermLevelChanges s).sirocco s

/-- Note what level a stack is asked for: while it is one with a smaller divisor than the present level's, the dwell of
R297 runs from when such a level was first asked for, for the highest one asked for since. -/
def Hw.noteWant (h : Hw) (s : Nat) : Hw :=
  let want := h.wantLevel s
  if levelDivisor want < levelDivisor (h.reg Od.thermLevel s) then
    let d := match Table.look h.sl.dwell s with
      | some (l, t) => (max l want, t)
      | none => (want, h.now)
    { h with sl.dwell := Table.put h.sl.dwell s d }.setTimer Tm.levelDwell s (d.2 + h.reg Od.thermRateDwellMs * 1000000)
  else { h with sl.dwell := Table.del h.sl.dwell s }

/-- Every stack of the hub that exists notes what level it is asked for. -/
def Hw.noteWants (h : Hw) : Hw := (List.range 16).foldl (fun h s => if h.reg Od.stackState s = 1 then h.noteWant s else h) h

/-- Precharge every open bank of a pseudo-channel now. -/
def Hw.closeBanks (h : Hw) (g : Nat) : Hw :=
  (List.range 64).foldl (fun h b =>
    let k := Table.atD h.sl.banks (fun _ => {}) (g * 64 + b)
    match k.row with
    | some _ => { h with sl.banks := Table.put h.sl.banks (g * 64 + b) { k with row := none, preAt := some (max h.ps (k.preAt.getD 0)) } }
    | none => h) h

/-- A rate switch of a stack begins: banks close, the stack enters self-refresh, its refresh schedule stops (R95). A
refresh slot in progress has finished first. -/
def Hw.startRateSwitch (h : Hw) (s level : Nat) : Hw :=
  let h := { h with sl.rateSwitchTo := Table.put h.sl.rateSwitchTo s level, sl.dwell := Table.del h.sl.dwell s }
  (List.range 64).foldl (fun h pc =>
    let g := gOf s pc
    (h.closeBanks g).setPc g { h.pc g with nextDue := none, slotUntil := none }) h

/-- Is a rate switch of a stack in progress. -/
def Hw.switching (h : Hw) (s : Nat) : Bool := (Table.look h.sl.rateSwitchTo s).isSome

/-- Does a pseudo-channel of a stack pause for calibration now. -/
def Hw.pausing (h : Hw) (s : Nat) : Bool := (List.range 64).any (fun pc => (h.pc (gOf s pc)).pauseUntil.isSome)

/-- Does a pseudo-channel of a stack stand in a refresh slot. -/
def Hw.inSlot (h : Hw) (s : Nat) : Bool := (List.range 64).any (fun pc => (h.pc (gOf s pc)).slotUntil.isSome)

end Sys2Proof.Machine
end

