-- ==== Sys2Proof/Machine/Sched.lean ====
section
/-! DEFINITION. Commands of chapter 4: bank queues, column and activate picks, column data, refresh, RFM, throttles, pauses,
levels and rate switches, and the states a pseudo-channel starts through (R73 to R97, R119, R124, R377). -/

namespace Sys2Proof.Machine

/-! ### Timing (R76, R94, R95) -/

/-- A timing of stack `s` in ps at its present rate: array and bus timings last 2 or 4 times as long under a divisor. -/
def Hw.tim (h : Hw) (s : Nat) (r : Reg) : Nat := h.reg r s * 2 ^ h.reg Od.stackRateDivisor s

/-- Tenths of a command slot per ns at a pin-rate code: the stack command clock is the pin rate divided by 4. -/
def slotRate (code : Nat) : Nat := [16, 20, 24, 25].getD code 25

/-- Is the present command slot blank: every eighth at L1, every fourth at L2 (R94). -/
def Hw.blankSlot (h : Hw) (s : Nat) : Bool :=
  let i := h.now * slotRate (h.reg Od.stackPinRate s) / 10
  match h.reg Od.thermLevel s with
  | 1 => i % 8 == 7
  | 2 => i % 4 == 3
  | _ => false

/-- A bank. -/
def Hw.bank (h : Hw) (g b : Nat) : Bank := Table.atD h.sl.banks (fun _ => {}) (g * 64 + b)

/-- Store a bank. -/
def Hw.setBank (h : Hw) (g b : Nat) (x : Bank) : Hw := { h with sl.banks := Table.put h.sl.banks (g * 64 + b) x }

/-- May a pseudo-channel take commands at all: READY, outside a refresh slot, a pause and a rate switch, and no REFab due
(R85, R93, R95, R96). -/
def Hw.canCommand (h : Hw) (g : Nat) : Bool :=
  let x := h.pc g
  decide (h.reg Od.pcState g = 4) && !h.failed (g / 64) && x.slotUntil.isNone && x.pauseUntil.isNone && !h.switching (g / 64) &&
    (match x.nextDue with | some t => decide (h.ps < t) | none => true)

/-! ### Into the bank queue (R73, R74, R82) -/

/-- Do two entries name a common column. -/
def QEntry.overlaps (x y : QEntry) : Bool :=
  x.bank == y.bank && x.row == y.row && decide (x.col ≤ y.col + y.ncol ∧ y.col ≤ x.col + x.ncol)

/-- An entry as a piece again: what is left of a host read when its place is lost. -/
def QEntry.piece (x : QEntry) : Piece :=
  let s := secStack x.sector
  { trk := x.who.tag, op := 1, stack := s, off := dpaOff x.dpa, dpa := x.dpa, len := (x.ncol + 1) * 32, part := x.part,
    requester := (x.who.attr).getD 0, cls := x.who.cls }

/-- An entry whose pseudo-channel or stack is FAILED: a host read takes the degraded path, or is poisoned; the write of a
sector is not stored there; a read-modify-write goes on without its read (R139, R240, R241). -/
def Hw.divert (h : Hw) (x : QEntry) : Hw :=
  let s := secStack x.sector
  if x.kind = 0 then
    if (h.sources s).isSome then
      let t := (h.proxyOf s).getD s
      { h with par.degReads := Table.put h.par.degReads t (Table.atD h.par.degReads (fun _ => []) t ++ [x.piece]) }
    else match h.trk x.who.tag with
      | some t =>
        let at_ := x.dpa - t.rq.addr
        h.deliver x.who.tag at_ (List.replicate ((x.ncol + 1) * 32) 0) true (x.ncol + 1)
      | none => h
  else if x.kind = 2 then h.finishRmw x.sector
  else h.nextEvict x.sector

/-- The class of a promoted write: the lowest among the reads that wait for it. -/
def lowerClass (old : Option Nat) (cls : Nat) : Option Nat := some (min cls (old.getD cls))

/-- An entry enters its bank queue: a read that overlaps a queued write sets raw_wait, and that write and every older one
to the same columns are promoted. -/
def Hw.enqueue (h : Hw) (g : Nat) (x : QEntry) : Hw :=
  let q := h.queue g
  let hit := x.kind != 1 && q.any (fun y => y.kind == 1 && x.overlaps y)
  let q := if hit then q.map (fun y => if y.kind = 1 ∧ x.overlaps y then { y with promoted := lowerClass y.promoted x.who.cls } else y) else q
  let h := if hit then h.countFix g 8 else h
  h.setQueue g (q ++ [{ x with rawWait := hit }])

/-- QUEUE_ENTRY_ADMIT (R73, R74): the oldest access of the input stage that its bank queue admits enters it; accesses to
other banks do not wait for one that cannot. -/
def execQueueEntryAdmit (g : PcIx) (s : State) : Host.Outcome State Fault Refusal :=
  s.on (fun h =>
    let st := g.val / 64
    let stage := h.stage st
    let mine (x : QEntry) : Bool := decide (h.entryPc x = g.val)
    if h.lostAt st (g.val % 64) then
      let out := h.queue g ++ stage.filter mine
      ((h.setQueue g []).setStage st (stage.filter (fun x => !mine x))) |> fun h => out.foldl (fun h x => h.divert x) h
    else
      let firstOfBank (x : QEntry) : Bool := (stage.filter (fun y => mine y && y.bank == x.bank)).head? == some x
      match stage.find? (fun x => mine x && firstOfBank x && h.admits g x) with
      | some x =>
        let h := h.setStage st (stage.erase x)
        let h := h.enqueue g x
        if x.kind = 0 then h.point x.who.tag 4 (fun p => { p with pc := g.val % 64, bank := x.bank }) else h
      | none => h)

/-! ### The column pick (R78, R80 to R82) -/

/-- Is a read held by an older write to its columns, or by an eviction it has forced (R82, R83). -/
def Hw.readWaits (h : Hw) (older : List QEntry) (x : QEntry) : Bool :=
  older.any (fun y => y.kind == 1 && x.overlaps y) || x.want.any (fun k => h.evicting k)

/-- Has the hit streak of a bank ended: sched_hit_streak entries were served while an older one waits for another row. -/
def Hw.streakEnded (h : Hw) (g : Nat) (older : List QEntry) (x : QEntry) : Bool :=
  let k := h.bank g x.bank
  decide (h.reg Od.schedRowPolicy = 0) && decide (h.reg Od.schedHitStreak ≤ k.streak) &&
    older.any (fun y => y.bank == x.bank && y.row != x.row)

/-- The entries whose row is open, which no older write holds back and whose streak has not ended, oldest first. -/
def Hw.qualify (h : Hw) (g : Nat) : List QEntry :=
  let q := h.queue g
  (q.zipIdx.filter (fun p =>
    let x := p.1
    let older := q.take p.2
    decide ((h.bank g x.bank).row = some x.row) && (x.kind == 1 || !h.readWaits older x) && !h.streakEnded g older x)).map (fun p => p.1)

/-- The first of a list by a key, the earliest among equals. -/
def firstBy (key : QEntry → Nat) : List QEntry → Option QEntry
  | [] => none
  | x :: xs => match firstBy key xs with
    | some y => if key y < key x then some y else some x
    | none => some x

/-- Did a bank serve a column since its activate: the next one is a row hit. -/
def Bank.hot (k : Bank) : Bool := k.lastRead.isSome || k.lastWrite.isSome

/-- The pick by rank among the entries that qualify in the current direction (R78); `true` when rank 3 picked it. -/
def Hw.pickColumn (h : Hw) (g : Nat) (c : List QEntry) : Option (QEntry × Bool) :=
  let aged (x : QEntry) : Bool := decide (h.reg Od.schedAgeLimitNs < h.now - x.arrival)
  match c.find? (fun x => x.kind != 1 && x.who.cls == 0) with
  | some x => some (x, false)
  | none => match firstBy (fun x => x.promoted.getD 8) (c.filter (fun x => x.promoted.isSome)) with
    | some x => some (x, false)
    | none => match c.find? aged with
      | some x => some (x, true)
      | none => match firstBy (fun x => x.who.cls) (c.filter (fun x => (h.bank g x.bank).hot)) with
        | some x => some (x, false)
        | none => (firstBy (fun x => x.who.cls) c).map (fun x => (x, false))

/-- Bus modes of pc_bus_mode. -/
def Bus.read : Nat := 0
def Bus.write : Nat := 1
def Bus.forced : Nat := 2

/-- The next bus mode and the entries that may be served in it (R81): the rows of the present mode in their order, the
first that applies acts. -/
def Hw.busStep (h : Hw) (g : Nat) : Nat × List QEntry :=
  let mode := h.reg Od.pcBusMode g
  let x := h.pc g
  let writes := ((h.queue g).filter (fun y => y.kind == 1)).length
  let c := h.qualify g
  let rd := c.filter (fun y => y.kind != 1)
  let wr := c.filter (fun y => y.kind == 1)
  let c0 := rd.filter (fun y => y.who.cls == 0)
  let prom := wr.filter (fun y => y.promoted.isSome)
  let settled := decide (1 ≤ x.colsSinceTurn)
  if mode = Bus.read then
    if 80 ≤ writes then (Bus.forced, wr)
    else if !c0.isEmpty then (Bus.read, c0)
    else if !prom.isEmpty then (Bus.read, prom)
    else if h.reg Od.schedWrHigh ≤ writes ∧ !wr.isEmpty ∧ settled then (Bus.write, wr)
    else if rd.isEmpty ∧ !wr.isEmpty ∧ settled then (Bus.write, wr)
    else (Bus.read, rd)
  else if mode = Bus.write then
    if 80 ≤ writes then (Bus.forced, wr)
    else if !c0.isEmpty ∧ settled then (Bus.read, c0)
    else if writes ≤ h.reg Od.schedWrLow ∧ !rd.isEmpty ∧ settled then (Bus.read, rd)
    else if wr.isEmpty ∧ !rd.isEmpty ∧ settled then (Bus.read, rd)
    else (Bus.write, wr)
  else
    if 4 ≤ x.fwWrites ∧ !c0.isEmpty then (Bus.forced, c0)
    else if writes < h.reg Od.schedWrHigh then
      if !rd.isEmpty ∧ settled then (Bus.read, rd) else (Bus.write, wr)
    else (Bus.forced, wr)

/-- A timing that has elapsed by now. -/
def Hw.past (h : Hw) (t : Option Nat) (gap : Nat) : Bool :=
  match t with
  | some t => decide (t + gap ≤ h.ps)
  | none => true

/-- May the sequencer release a column of `x` now (R25, R76). -/
def Hw.colReady (h : Hw) (g : Nat) (x : QEntry) : Bool :=
  let s := g / 64
  let w := decide (x.kind = 1)
  h.past (h.bank g x.bank).actAt (h.tim s Od.tRcd) &&
    match (h.pc g).lastCol with
    | none => true
    | some (t, b, wasWrite) =>
      let same := decide (b / 4 = x.bank / 4)
      let gap :=
        if wasWrite = w then h.tim s (if same then Od.tCcdL else Od.tCcdS)
        else if wasWrite then h.tim s Od.tCwl + h.tim s Od.tBurst + h.tim s (if same then Od.tWtrL else Od.tWtrS)
        else h.tim s Od.tCl + h.tim s Od.tBurst + h.tim s Od.tRtw - h.tim s Od.tCwl
      decide (t + gap ≤ h.ps)

/-- A bank's row closes after its last column: when the precharge issues, by t_ras, t_rtp and t_wr. -/
def Hw.closeRow (h : Hw) (g b : Nat) : Hw :=
  let k := h.bank g b
  let s := g / 64
  match k.row with
  | none => h
  | some _ =>
    let r := match k.lastRead with | some t => t + h.tim s Od.tRtp | none => 0
    let w := match k.lastWrite with | some t => t + h.tim s Od.tCwl + h.tim s Od.tBurst + h.tim s Od.tWr | none => 0
    let a := (k.actAt.getD 0) + h.tim s Od.tRas
    h.setBank g b { k with row := none, preAt := some (max (max r w) (max a h.ps)) }

/-- The last column of an entry is released: it leaves the queue; a read's credit returns when its request has no other
piece here; a row is closed when nothing else waits for it; reads that waited for an evicted sector go on. -/
def Hw.retireEntry (h : Hw) (g : Nat) (x : QEntry) : Hw :=
  let s := g / 64
  let q := h.queue g
  let waits := (q.takeWhile (fun y => decide (y ≠ x))).any (fun y => y.bank == x.bank && y.row != x.row)
  let rest := q.erase x
  let rest := if x.kind = 1 then rest.map (fun y => { y with want := y.want.erase x.sector }) else rest
  let h := h.setQueue g rest
  let h := if x.kind = 1 then
      (h.setStage s ((h.stage s).map (fun y => { y with want := y.want.erase x.sector }))).nextEvict x.sector
    else h
  let k := h.bank g x.bank
  let h := h.setBank g x.bank { k with streak := if waits then k.streak + 1 else k.streak }
  let more := rest.any (fun y => y.bank == x.bank && y.row == x.row)
  let h := if h.reg Od.schedRowPolicy = 1 ∨ !more then h.closeRow g x.bank else h
  let h := if h.reg Od.pcBusMode g = Bus.forced then
      h.setPc g { h.pc g with fwWrites := if x.kind = 1 then (h.pc g).fwWrites + 1 else 0 }
    else h
  if x.kind = 0 ∧ !(rest ++ h.stage s).any (fun y => decide (y.kind = 0 ∧ y.who.tag = x.who.tag ∧ h.entryPc y = g)) then
    h.creditDue g x.who.cls
  else h

/-- One column of an entry is released: a write's word goes to the DRAM, a read's data will arrive after t_cl and the
burst. -/
def Hw.releaseColumn (h : Hw) (g : Nat) (x : QEntry) : Hw :=
  let s := g / 64
  let k := h.bank g x.bank
  let w := decide (x.kind = 1)
  let c : Coord := { pc := g % 64, bank := x.bank, row := x.row, col := x.col + x.done }
  let h := if k.hot then h.countFix g 4 else h
  let h := h.countFix g (if w then 2 else 1)
  let h := if x.kind = 2 ∧ x.done = 0 then h.countFix g 3 else h
  let h := h.setBank g x.bank (if w then { k with lastWrite := some h.ps } else { k with lastRead := some h.ps })
  let p := h.pc g
  let h := h.setPc g { p with lastCol := some (h.ps, x.bank, w), colsSinceTurn := p.colsSinceTurn + 1 }
  let h := if w then h.putRaw s c (x.words.getD x.done [])
    else
      let p := h.pc g
      h.setPc g { p with inflight := p.inflight ++ [(h.ps + h.tim s Od.tCl + h.tim s Od.tBurst, { x with words := [h.rawCol s c] })] }
  let y := { x with done := x.done + 1 }
  let h := h.setQueue g ((h.queue g).map (fun z => if z = x then y else z))
  if x.ncol < y.done then h.retireEntry g y else h

/-- COLUMN_PICK (R78, R81): the bus mode steps, and one column of the entry picked by rank is released if every timing has
elapsed. -/
def execColumnPick (g : PcIx) (s : State) : Host.Outcome State Fault Refusal :=
  s.on (fun h =>
    let g := g.val
    if !h.canCommand g then h
    else if h.blankSlot (g / 64) then h.countFix g 20
    else
      let (mode, c) := h.busStep g
      let old := h.reg Od.pcBusMode g
      let h := if mode = old then h
        else
          let h := (h.setReg Od.pcBusMode g mode).countFix g 6
          let h := h.setPc g { h.pc g with colsSinceTurn := if mode = Bus.forced ∧ old = Bus.write then (h.pc g).colsSinceTurn else 0 }
          if mode = Bus.forced then (h.setPc g { h.pc g with fwWrites := 0 }).countFix g 7 else h
      match h.pickColumn g c with
      | some (x, aged) =>
        if h.colReady g x then
          let h := if aged then h.countFix g 10 else h
          let first := x.kind == 0 && x.done == 0
          let h := if first then h.point x.who.tag 5 (fun p => if p.points.getD 5 none = none then { p with rowHit := true } else p) else h
          h.releaseColumn g x
        else h
      | none => h)

/-! ### Row activity (R88 to R91) -/

/-- A row-activity tracker entry. -/
def Hw.raAt (h : Hw) (g b i : Nat) : RaEntry := Table.atD h.sl.ra (fun _ => {}) ((g * 64 + b) * 32 + i)
def Hw.setRa (h : Hw) (g b i : Nat) (e : RaEntry) : Hw :=
  { h with sl.ra := Table.setD h.sl.ra (fun _ => {}) ((g * 64 + b) * 32 + i) e }

/-- Add 1, saturating at FFFFh. -/
def satInc (n : Nat) : Nat := if n < 0xffff then n + 1 else n

/-- The index of the first attribution slot that passes a test. -/
def slotIdx (l : List (Nat × Nat)) (p : Nat × Nat → Bool) : Option Nat := l.findIdx? p

/-- Charge an activate to requester `q` (R89). -/
def chargeSlots (l : List (Nat × Nat)) (q : Nat) : List (Nat × Nat) :=
  match slotIdx l (fun s => s.1 == q && decide (s.2 ≠ 0)) with
  | some i => l.set i (q, satInc (l.getD i (0, 0)).2)
  | none => match slotIdx l (fun s => s.2 == 0) with
    | some i => l.set i (q, 1)
    | none => l.map (fun s => (s.1, s.2 - 1))

/-- The slot with the largest count, the lowest number among equals. -/
def topSlot (l : List (Nat × Nat)) : Option Nat :=
  let best := l.foldl (fun (b : Nat × Nat) s => if b.2 < s.2 then s else b) (0, 0)
  if best.2 = 0 then none else some best.1

/-- Queue an RFM for a bank: at most eight queued, the rest wait in trigger order; a bank already there joins (R90). -/
def Hw.queueRfm (h : Hw) (g b : Nat) : Hw :=
  let x := h.pc g
  if x.rfmQueued.contains b ∨ x.rfmWaiting.contains b then h
  else if x.rfmQueued.length < 8 then h.setPc g { x with rfmQueued := x.rfmQueued ++ [b] }
  else h.setPc g { x with rfmWaiting := x.rfmWaiting ++ [b] }

/-- Store a throttle table and the count of its live entries. -/
def Hw.setThrottles (h : Hw) (g : Nat) (l : List Throttle) : Hw :=
  (h.setPc g { h.pc g with throttles := l }).setReg Od.pcThrottleActive g l.length

/-- Enter or renew the throttle of a requester in a bank (R91). -/
def Hw.throttle (h : Hw) (g r b : Nat) : Hw :=
  let l := (h.pc g).throttles
  let till := h.now + h.reg Od.raThrottleMs * 1000000
  let h := h.countFix g 15
  if l.any (fun t => t.requester == r && t.bank == b) then
    h.setThrottles g (l.map (fun t => if t.requester = r ∧ t.bank = b then { t with expiry := till } else t))
  else
    let new : Throttle := { requester := r, bank := b, expiry := till }
    let h := if l.length < 16 then h.setThrottles g (l ++ [new])
      else
        let first := l.foldl (fun (m : Option Throttle) t => match m with
          | some u => if t.expiry < u.expiry then some t else some u
          | none => some t) none
        (h.countFix g 16).setThrottles g ((match first with | some u => l.erase u | none => l) ++ [new])
    h.raise { kind := 5, stack := some (g / 64), req := some r }

/-- An activate of row `r` in bank `b` is counted (R89). -/
def Hw.track (h : Hw) (g b r : Nat) (attr : Option Nat) : Hw :=
  let ix := List.range 32
  let found := ix.find? (fun i => (h.raAt g b i).valid && (h.raAt g b i).row == r)
  let free := ix.find? (fun i => !(h.raAt g b i).valid)
  let least := ix.foldl (fun (m : Option Nat) i =>
    if (h.raAt g b i).pending then m else match m with
      | some j => if (h.raAt g b i).acts < (h.raAt g b j).acts then some i else some j
      | none => some i) none
  let pick : Option (Nat × RaEntry) := match found with
    | some i => some (i, h.raAt g b i)
    | none => match free with
      | some i => some (i, { valid := true, row := r })
      | none => least.map (fun i => (i, { valid := true, row := r, acts := (h.raAt g b i).acts }))
  match pick with
  | none => h
  | some (i, e) =>
    let e := { e with acts := satInc e.acts, slots := match attr with | some q => chargeSlots e.slots q | none => e.slots }
    let limit := Table.atD h.sl.raNow (fun _ => 4096) (g / 64)
    if limit ≤ e.acts ∧ !e.pending then
      let h := (h.setRa g b i { e with pending := true }).countFix g 13
      let h := h.queueRfm g b
      match topSlot e.slots with
      | some q => h.throttle g q b
      | none => h
    else h.setRa g b i e

/-! ### The activate pick (R79, R80) -/

/-- Is an entry held back by a throttle (R91). -/
def Hw.heldBack (h : Hw) (g : Nat) (x : QEntry) : Bool :=
  match x.who.attr with
  | some r => (h.pc g).throttles.any (fun t => t.requester == r && t.bank == x.bank && decide (h.now < t.expiry)) &&
      (h.pc g).reqActs.any (fun a => a.1 == r && a.2.1 == x.bank && decide (h.now < a.2.2 + h.reg Od.raThrottleGapNs))
  | none => false

/-- The class an entry counts as in the activate pick: an aged one counts as 0. -/
def Hw.actClass (h : Hw) (x : QEntry) : Nat := if h.reg Od.schedAgeLimitNs < h.now - x.arrival then 0 else x.who.cls

/-- Open rows that nothing may use any more are precharged for the entries of other rows (R80). -/
def Hw.closeConflicts (h : Hw) (g : Nat) : Hw :=
  let q := h.queue g
  (q.map (fun x => x.bank)).dedup.foldl (fun h b =>
    match (h.bank g b).row with
    | some r =>
      let here := q.zipIdx.filter (fun p => p.1.bank == b && p.1.row == r)
      let others := q.any (fun x => x.bank == b && x.row != r)
      if others && here.all (fun p => h.streakEnded g (q.take p.2) p.1) then (h.countFix g 5).closeRow g b else h
    | none => h) h

/-- Is a bank eligible: precharged, t_rp and t_rc elapsed, with an entry that no throttle holds back (R79). -/
def Hw.bankEligible (h : Hw) (g b : Nat) : Bool :=
  let k := h.bank g b
  let s := g / 64
  k.row.isNone && h.past k.preAt (h.tim s Od.tRp) && h.past k.actAt (h.tim s Od.tRc) &&
    (h.queue g).any (fun x => x.bank == b && !h.heldBack g x)

/-- The entries of a bank that an activate may serve. -/
def Hw.bankWork (h : Hw) (g b : Nat) : List QEntry := (h.queue g).filter (fun x => x.bank == b && !h.heldBack g x)

/-- cls(b) of R79. -/
def Hw.bankClass (h : Hw) (g b : Nat) : Nat := ((h.bankWork g b).map (fun x => h.actClass x)).foldl min 8

/-- The rotating pick of R79. -/
def Hw.pickActivate (h : Hw) (g : Nat) : Option Nat :=
  let x := h.pc g
  (List.range 64).foldl (fun (best : Option Nat) i =>
    let b := (x.ptr + i) % 64
    if !h.bankEligible g b then best
    else match best with
      | none => some b
      | some k =>
        if h.bankClass g b < h.bankClass g k then some b
        else if h.bankClass g b = h.bankClass g k ∧ k / 4 = x.lastGrp ∧ b / 4 ≠ x.lastGrp then some b
        else some k) none

/-- The entry whose row an activate of bank `b` opens: the one that gave cls(b), or the oldest when a streak has ended. -/
def Hw.actEntry (h : Hw) (g b : Nat) : Option QEntry :=
  let w := h.bankWork g b
  if h.reg Od.schedHitStreak ≤ (h.bank g b).streak then w.head? else firstBy (fun x => h.actClass x) w

/-- Do t_rrd and t_faw allow an activate of bank `b` now (R76). -/
def Hw.actReady (h : Hw) (g b : Nat) : Bool :=
  let s := g / 64
  (h.pc g).acts.all (fun a => decide (a.1 + h.tim s (if a.2 / 4 = b / 4 then Od.tRrdL else Od.tRrdS) ≤ h.ps)) &&
    decide (((h.pc g).acts.filter (fun a => decide (h.ps < a.1 + h.tim s Od.tFaw))).length < 4)

/-- Note an activate (or an RFM, which counts as one for t_rrd and t_faw). -/
def Hw.noteAct (h : Hw) (g b t : Nat) : Hw :=
  let x := h.pc g
  h.setPc g { x with acts := (x.acts ++ [(t, b)]).drop (x.acts.length - 7) }

/-- Remember a requester's activate in a bank; the gap of R92 is at most 100 µs. -/
def noteReqAct (l : List (Nat × Nat × Nat)) (r b now : Nat) : List (Nat × Nat × Nat) :=
  l.filter (fun a => decide (now < a.2.2 + 100000) && !(a.1 == r && a.2.1 == b)) ++ [(r, b, now)]

/-- ACTIVATE_PICK (R79): the bank picked opens the row of its entry; the activate is counted by the row-activity
tracker. -/
def execActivatePick (g : PcIx) (s : State) : Host.Outcome State Fault Refusal :=
  s.on (fun h =>
    let g := g.val
    if !h.canCommand g then h
    else if h.blankSlot (g / 64) then h.countFix g 20
    else
      let h := h.closeConflicts g
      match h.pickActivate g with
      | none => h
      | some b => match h.actEntry g b with
        | none => h
        | some x =>
          if !h.actReady g b then h
          else
            let h := h.setBank g b { row := some x.row, actAt := some h.ps, preAt := none, streak := 0 }
            let h := h.setPc g { h.pc g with ptr := (b + 1) % 64, lastGrp := b / 4 }
            let h := (h.noteAct g b h.ps).countFix g 0
            let h := match x.who.attr with
              | some r => h.setPc g { h.pc g with reqActs := noteReqAct (h.pc g).reqActs r b h.now }
              | none => h
            let h := if x.kind = 0 then h.point x.who.tag 5 else h
            h.track g b x.row x.who.attr)

/-! ### Column data (R119, R135) -/

/-- The decoded data of a column that arrived: rebuilt from its parity group where it is uncorrectable (R135). -/
def Hw.landCol (h : Hw) (kind s : Nat) (c : Coord) (raw : List Byte) (req : Option Nat) (source : Nat) : Decoded × List Byte × Hw :=
  let (d, data, ps) := rsDecode (h.erasures s c) raw
  let h := h.noteDecode kind s c d data ps req source
  if d = .uncorrectable ∧ (h.sources s).isSome then
    match h.degradedCol s (h.offOf s c) with
    | (some x, h) => (.clean, x, h)
    | (none, h) => (d, data, h)
  else (d, data, h)

/-- COLUMN_DATA (R119): the oldest column on its way arrives with what the DRAM did to it (`flips`: errors by position),
is decoded, and goes to its request or to its read-modify-write. -/
def execColumnData (g : PcIx) (flips : List (Fin 36 × Byte)) (s : State) : Host.Outcome State Fault Refusal :=
  s.on (fun h =>
    let g := g.val
    let st := g / 64
    match (h.pc g).inflight with
    | [] => h
    | (t, x) :: rest =>
      if h.ps < t then h
      else
        let h := h.setPc g { h.pc g with inflight := rest }
        let raw := flips.foldl (fun (w : List Byte) f => w.set f.1 (w.getD f.1 0 ^^^ f.2)) (x.words.headD [])
        let c : Coord := { pc := g % 64, bank := x.bank, row := x.row, col := x.col + x.done }
        let (d, data, h) := h.landCol (if x.kind = 2 then 0x10 else 2) st c raw x.who.attr x.who.source
        let off := h.offOf st c
        if x.kind = 2 then
          match Table.look h.mem.rmw x.sector with
          | some w => { h with mem.rmw := Table.put h.mem.rmw x.sector { w with old := w.old ++ [(off % 256 / 32, d.code, data)] } }
          | none => h
        else
          match h.trk x.who.tag with
          | some t =>
            let unsettled := (h.unsettledLines (secKey st off)).testBit (off % 256 / 64)
            let h := if unsettled then h.logCol 2 st c x.who.attr 0 3 1 else h
            let bad := decide (d = .poisoned ∨ d = .uncorrectable) || unsettled
            h.deliver x.who.tag (dpaOf st (h.visible st off) - t.rq.addr) (h.decCol st off data) bad 1
          | none => h)

/-! ### Refresh (R85 to R90) -/

/-- A calibration pause starts on a pseudo-channel (R93, R310). -/
def Hw.startPause (h : Hw) (g till : Nat) (forced : Bool) : Hw :=
  let h := h.setPc g { h.pc g with pauseReq := none, pauseUntil := some till }
  let h := h.setReg Od.calState g 2
  h.countFix g (if forced then 18 else 17)

/-- May a pending pause be placed: one is asked for, and 10 µs have passed since the last one ended. -/
def Hw.pauseWanted (h : Hw) (g : Nat) : Bool :=
  let x := h.pc g
  x.pauseReq.isSome && x.pauseUntil.isNone && decide (x.pauseAfter ≤ h.now) && decide (h.reg Od.pcState g = 4) && !h.switching (g / 64)

/-- REFRESH_DUE (R85): commands stop, every open bank is precharged, the REFab issues and opens a refresh slot, in which a
pending pause starts if no RFM is queued (R93). -/
def execRefreshDue (g : PcIx) (s : State) : Host.Outcome State Fault Refusal :=
  s.on (fun h =>
    let g := g.val
    let st := g / 64
    match (h.pc g).nextDue with
    | none => h
    | some t =>
      if h.ps < t ∨ !h.refreshes g ∨ (h.pc g).slotUntil.isSome ∨ (h.pc g).pauseUntil.isSome ∨ h.switching st then h
      else
        let h := (List.range 64).foldl (fun h b => h.closeRow g b) h
        let start := (List.range 64).foldl (fun m b => match (h.bank g b).preAt with
          | some p => max m (p + h.tim st Od.tRp)
          | none => m) h.ps
        let till := start + h.reg Od.tRfcab st
        let h := h.setPc g { h.pc g with nextDue := some (t + max 1 (h.refi st)), slotUntil := some till }
        let h := h.countFix g 12
        if h.pauseWanted g && (h.pc g).rfmQueued.isEmpty then h.startPause g (start + 800000) false else h)

/-- An RFM of a bank issues: its pending tracker entries restart from the least count of the others (R89). -/
def Hw.issueRfm (h : Hw) (g b t : Nat) : Hw :=
  let st := g / 64
  let ix := List.range 32
  let h := (h.noteAct g b t).countFix g 14
  let h := h.setBank g b { h.bank g b with preAt := some (t + h.reg Od.tRfmpb st - h.tim st Od.tRp) }
  let base := ix.filter (fun i => !(h.raAt g b i).pending)
  let full := ix.all (fun i => (h.raAt g b i).valid)
  let least := if !full then 0 else match base.map (fun i => (h.raAt g b i).acts) with
    | [] => 0
    | a :: as => as.foldl min a
  ix.foldl (fun h i =>
    let e := h.raAt g b i
    if e.pending then h.setRa g b i { e with acts := least, slots := ({} : RaEntry).slots, pending := false } else h) h

/-- The first instant from `t` on at which t_rrd and t_faw allow an RFM of bank `b`, which counts as an activate (R76, R90). -/
def Hw.rfmTime (h : Hw) (g b t : Nat) : Nat :=
  let s := g / 64
  let acts := (h.pc g).acts
  let apart := (acts.map (fun a => a.1 + h.tim s (if a.2 / 4 = b / 4 then Od.tRrdL else Od.tRrdS))).foldl max t
  match acts.reverse[3]? with
  | some a => max apart (a.1 + h.tim s Od.tFaw)
  | none => apart

/-- RFM_ISSUE (R90): the queued RFMs issue in the refresh slot, directly after the REFab, paced by t_rrd and t_faw. -/
def execRfmIssue (g : PcIx) (s : State) : Host.Outcome State Fault Refusal :=
  s.on (fun h =>
    let g := g.val
    match (h.pc g).slotUntil with
    | some till =>
      let q := (h.pc g).rfmQueued
      let h := h.setPc g { h.pc g with rfmQueued := [] }
      q.foldl (fun h b => h.issueRfm g b (h.rfmTime g b till)) h
    | none => h)

/-- REFRESH_SLOT_END (R85, R90): the slot's time is over and its RFMs have issued; waiting triggers queue for the next. -/
def execRefreshSlotEnd (g : PcIx) (s : State) : Host.Outcome State Fault Refusal :=
  s.on (fun h =>
    let g := g.val
    let x := h.pc g
    match x.slotUntil with
    | some till =>
      if till ≤ h.ps ∧ x.rfmQueued = [] then
        h.setPc g { x with slotUntil := none, rfmQueued := x.rfmWaiting.take 8, rfmWaiting := x.rfmWaiting.drop 8 }
      else h
    | none => h)

/-- REFRESH_MULTIPLIER_CHANGE (R86): at the next phase-0 due time the pending multiplier takes effect; that instant is the
new T0. -/
def execRefreshMultiplierChange (stack : StackIx) (s : State) : Host.Outcome State Fault Refusal :=
  s.on (fun h =>
    let st := stack.val
    let m := h.reg Od.refPendingMultiplier st
    let t0 := h.timer Tm.refPend st
    if m = 0xff ∨ h.ps < t0 ∨ h.timer Tm.refDue st = 0 then h
    else
      let h := (h.setReg Od.refMultiplier st m).setReg Od.refPendingMultiplier st 0xff
      let h := h.setTimer Tm.refDue st (t0 + 1)
      (List.range 64).foldl (fun h pc =>
        let g := gOf st pc
        let f := pc % 16
        let x := h.pc g
        match x.nextDue with
        | some old =>
          let first := t0 + f * max 1 (h.refi st) / 16
          h.setPc g { x with nextDue := some (if f = 0 ∧ t0 < old then t0 + max 1 (h.refi st) else first) }
        | none => h) h)

/-- REFRESH_WINDOW_END (R88): every row-activity entry of the stack is cleared; the RFMs queued still issue; a changed
ra_threshold takes effect. -/
def execRefreshWindowEnd (stack : StackIx) (s : State) : Host.Outcome State Fault Refusal :=
  s.on (fun h =>
    let st := stack.val
    if !h.due Tm.refWin st then h
    else
      let h := { h with sl.ra := Table.drop h.sl.ra (fun k => decide (k / 131072 = st)),
                        sl.raNow := Table.setD h.sl.raNow (fun _ => 4096) st (h.reg Od.raThreshold) }
      let len := 8192 * h.refi st / 1000
      let h := h.setReg Od.refWindowNs st len
      h.setTimer Tm.refWin st (h.now + len))

/-- THROTTLE_EXPIRY (R91): throttle entries that have reached their expiry end. -/
def execThrottleExpiry (g : PcIx) (s : State) : Host.Outcome State Fault Refusal :=
  s.on (fun h =>
    let l := (h.pc g).throttles
    let live := l.filter (fun t => decide (h.now < t.expiry))
    if live.length = l.length then h else h.setThrottles g live)

/-! ### Pauses (R93) -/

/-- PAUSE_IDLE_GAP (R93): queues empty for 64 ns and no REFab due within 800 ns: the pending pause starts. -/
def execPauseIdleGap (g : PcIx) (s : State) : Host.Outcome State Fault Refusal :=
  s.on (fun h =>
    let g := g.val
    let x := h.pc g
    let quiet := match x.nextDue with | some t => decide (h.ps + 800000 < t) | none => true
    if h.pauseWanted g && x.slotUntil.isNone && (h.queue g).isEmpty && decide (x.emptySince + 64 ≤ h.now) && quiet then
      h.startPause g (h.ps + 800000) false
    else h)

/-- PAUSE_FORCED (R93): 10 ms after the request, the refresh slot takes the pause even with an RFM; the REFab and the RFMs
issue first, and the whole slot lasts at most 800 ns. -/
def execPauseForced (g : PcIx) (s : State) : Host.Outcome State Fault Refusal :=
  s.on (fun h =>
    let g := g.val
    let x := h.pc g
    match x.pauseReq, x.slotUntil with
    | some t, some till =>
      if h.pauseWanted g && decide (t + 10000000 ≤ h.now) && x.rfmQueued.isEmpty then
        h.startPause g (max h.ps (till - h.reg Od.tRfcab (g / 64) + 800000)) true
      else h
    | _, _ => h)

/-- PAUSE_END (R93): a pause ends; the pseudo-channel takes no further one for 10 µs. A run whose outcome has not come
ends with it. -/
def execPauseEnd (g : PcIx) (s : State) : Host.Outcome State Fault Refusal :=
  s.on (fun h =>
    let g := g.val
    let x := h.pc g
    match x.pauseUntil with
    | some t =>
      if t ≤ h.ps ∧ h.reg Od.calState g ≠ 2 then h.setPc g { x with pauseUntil := none, pauseAfter := h.now + 10000 } else h
    | none => h)

/-! ### Levels and rate switches (R94, R95) -/

/-- THERMAL_LEVEL_CHANGE (R94, R297): the stack takes the level it is asked for where the pin rate stays as it is. -/
def execThermalLevelChange (stack : StackIx) (s : State) : Host.Outcome State Fault Refusal :=
  s.on (fun h =>
    let st := stack.val
    let want := h.wantLevel st
    if h.switching st ∨ levelDivisor want ≠ levelDivisor (h.reg Od.thermLevel st) then h else h.setLevel st want)

/-- RATE_SWITCH (R95, R297, R304): a rise into L3 or L4 starts the switch at once, after a pause and a refresh slot in
progress; a fall waits for its dwell. -/
def execRateSwitch (stack : StackIx) (s : State) : Host.Outcome State Fault Refusal :=
  s.on (fun h =>
    let st := stack.val
    let want := h.wantLevel st
    let cur := h.reg Od.thermLevel st
    let ready := !h.switching st && !h.pausing st && !h.inSlot st && decide (h.reg Od.stackState st = 1)
    if !ready then h
    else if levelDivisor cur < levelDivisor want then h.startRateSwitch st want
    else h)

/-- RATE_SWITCH_DONE (R95): stored trained values apply, a new refresh epoch starts, commands resume, and every
pseudo-channel asks for a calibration run (R308). -/
def execRateSwitchDone (stack : StackIx) (s : State) : Host.Outcome State Fault Refusal :=
  s.on (fun h =>
    let st := stack.val
    match Table.look h.sl.rateSwitchTo st with
    | some level =>
      let h := { h with sl.rateSwitchTo := Table.del h.sl.rateSwitchTo st }
      let h := h.setReg Od.stackRateDivisor st (levelDivisor level)
      let h := h.setLevel st level
      let h := h.startEpoch st h.ps
      let h := (List.range 64).foldl (fun h pc => (h.countFix (gOf st pc) 19).askCal (gOf st pc)) h
      h.noteWant st
    | none => h)

/-! ### Start-up of a pseudo-channel (R96, R124, R377) -/

/-- The cold state of a stack (R295, R306): HOLD, WARN or NORMAL. -/
def Hw.coldState (h : Hw) (s : Nat) : Nat :=
  if (List.range 64).any (fun pc => h.reg Od.pcState (gOf s pc) = 1) then 2
  else if h.reg Od.wmLevel (0x80 + s) = 1 then 1 else 0

/-- A stack that has warmed to therm_cold_exit: its pseudo-channels begin TRAINING (R96, R303). -/
def Hw.coldExit (h : Hw) (st : Nat) : Hw :=
  let t := h.sreg Od.thermStackTemp st
  if t ≠ -128 ∧ h.sreg Od.thermColdExit ≤ t then
    let h := (List.range 64).foldl (fun h pc =>
      if h.reg Od.pcState (gOf st pc) = 1 then h.setReg Od.pcState (gOf st pc) 2 else h) h
    h.setReg Od.thermCold st (h.coldState st)
  else h

/-- COLD_HOLD_EXIT (R96, R303). -/
def execColdHoldExit (stack : StackIx) (s : State) : Host.Outcome State Fault Refusal := s.on (fun h => h.coldExit stack.val)

/-- The spare map of an attempt: each failed position takes a spare, SPR0 first, past spares that have failed. -/
def spareMapOf (failed : List Nat) : Nat :=
  let spares := [0, 1].filter (fun k => !failed.contains (36 + k))
  (((failed.filter (fun p => decide (p < 36))).zip spares)).foldl (fun m p => m - 0xff * 256 ^ p.2 + p.1 * 256 ^ p.2) 0xffff

/-- TRAINING_ATTEMPT_DONE (R96, R377): at most two failed lanes pass; trained values are stored and the pseudo-channel joins
the stack's refresh epoch, or starts it. The third failed attempt fails it. -/
def execTrainingAttemptDone (g : PcIx) (failedLanes : List (Fin 38)) (taps : List (BitVec 6)) (cl : BitVec 32) (s : State) :
    Host.Outcome State Fault Refusal :=
  s.on (fun h =>
    let g := g.val
    let st := g / 64
    if h.reg Od.pcState g ≠ 2 then h
    else
      let failed := (failedLanes.map (fun f => f.val)).dedup
      if failed.length ≤ 2 then
        let h := h.setReg Od.lanesFailed g (failed.foldl (fun m p => m ||| 2 ^ p) 0)
        let h := h.setReg Od.spareMap g (spareMapOf failed)
        let h := taps.zipIdx.foldl (fun h t => if t.2 < 38 then h.setElem Od.calLaneTaps g t.2 t.1.toNat else h) h
        let h := h.setReg Od.tCl st cl.toNat
        let h := (h.setReg Od.pcState g 3).setPc g { h.pc g with attempts := 0 }
        if h.timer Tm.refDue st = 0 then
          let len := 8192 * h.refi st / 1000
          ((h.startEpoch st h.ps).setReg Od.refWindowNs st len).setTimer Tm.refWin st (h.now + len)
        else h.joinEpoch g
      else
        let n := (h.pc g).attempts + 1
        let h := h.setPc g { h.pc g with attempts := n }
        if n < 3 then h
        else
          let h := (h.setReg Od.pcState g 6).raise { kind := 3, stack := some st, payload := packFields [(8, g % 64)] }
          if h.boot.stewardsRun then h.failCount st else h)

/-- Every column and every spare slot of a pseudo-channel holds the zero code word. -/
def Hw.zeroPc (h : Hw) (g : Nat) : Hw :=
  { h with mem.dram := Table.drop h.mem.dram (fun k => decide (k / 2 ^ 32 = g)),
           mem.fills := Table.drop h.mem.fills (fun k => decide (k = g)),
           mem.spare := Table.drop h.mem.spare (fun k => decide (k / 1024 = g)) }

/-- ZERO_FILL_DONE (R96, R124): every column and every spare slot holds the zero code word; the pseudo-channel is READY. -/
def execZeroFillDone (g : PcIx) (s : State) : Host.Outcome State Fault Refusal :=
  s.on (fun h =>
    let g := g.val
    if h.reg Od.pcState g ≠ 3 then h
    else
      (h.zeroPc g).setReg Od.pcState g 4)

end Sys2Proof.Machine
end

