-- ==== Sys2Proof/Machine/Arb.lean ====
section
/-! DEFINITION. Commands of chapter 5: the stack ingress arbiters, dispatch credits, quotas, the time-division frame, guarantee
misses, service modes and regulators (R98 to R116). -/

namespace Sys2Proof.Machine

/-- A stack ingress arbiter. -/
def Hw.arb (h : Hw) (s : Nat) : Arb := Table.atD h.req.arbs (fun _ => {}) s

/-- Store an arbiter. -/
def Hw.setArb (h : Hw) (s : Nat) (a : Arb) : Hw := { h with req.arbs := Table.put h.req.arbs s a }

/-! ### Candidates and credits (R99, R100) -/

/-- Bytes of memory that a request touches: an ATM 8 or 16. -/
def Rq.touched (r : Rq) : Nat := if r.op = 5 then (if r.subop = 2 then 16 else 8) else r.bytes

/-- The pseudo-channels whose credits a request needs: none for an ACW or a LAUNCH, none that is FAILED. -/
def Hw.needs (h : Hw) (r : Rq) : List Nat :=
  if [1, 2, 3, 5].contains r.op then
    let s := dpaStack r.addr
    if h.failed s then [] else (h.pcsOf s (dpaOff r.addr) r.touched).filter (fun g => h.reg Od.pcState g ≠ 6)
  else []

/-- Credits of a pseudo-channel held by C0, or by C1–C7. -/
def Hw.heldCredits (h : Hw) (g : Nat) (low : Bool) : Nat := Table.atD h.req.credits (fun _ => 0) (g * 2 + (if low then 1 else 0))

/-- Has a pseudo-channel a credit available to a class: 32 in all, at most 24 of them held by C1–C7. -/
def Hw.hasCredit (h : Hw) (g cls : Nat) : Bool :=
  let lo := h.heldCredits g true
  decide (h.heldCredits g false + lo < 32) && (cls == 0 || decide (lo < 24))

/-- Take a credit of a pseudo-channel. -/
def Hw.takeCredit (h : Hw) (g cls : Nat) : Hw :=
  let k := g * 2 + (if cls = 0 then 0 else 1)
  { h with req.credits := Table.setD h.req.credits (fun _ => 0) k (Table.atD h.req.credits (fun _ => 0) k + 1) }

/-- The candidate of a queue: the oldest entry whose requester is not gated. -/
def Hw.front (h : Hw) (s source cls : Nat) : Option Nat :=
  (Table.atD (h.arb s).queues (fun _ => []) (source * 8 + cls)).find? (fun uid => match h.trk uid with
    | some t => !h.gated t.rq.requester
    | none => false)

/-- Does a request carry a write. -/
def Rq.writes (r : Rq) : Bool := [2, 3, 5].contains r.op

/-- Entries of the intent table of parity slice `t`, with the intents on their way to it (R238). -/
def Hw.intentCount (h : Hw) (q t : Nat) : Nat :=
  (h.par.intents.filter (fun e => decide (h.partOf (secStack e.1) = some q ∧ h.parityStack q (secOff e.1) = some t))).length
    + (Table.atD h.par.intentsIn (fun _ => []) t).length

/-- What holds a request at stack ingress: a degrade of its stack in progress (R239); for one that carries a write, a full
mirror buffer (R252) or a full intent table of its group (R238). -/
def Hw.ingressHolds (h : Hw) (r : Rq) : Bool :=
  let s := dpaStack r.addr
  (r.op != 4 && h.degrading s) ||
    (r.writes && ((h.mirroring && decide (11534336 ≤ h.reg Od.mirrorBufferBytes)) ||
      match h.partOf s with
      | some q => h.parityOn q && (h.members q).any (fun t => decide (262144 ≤ h.intentCount q t))
      | none => false))

/-- The candidate of a queue, if every credit it needs exists and the slice takes requests (R74). -/
def Hw.candidate (h : Hw) (s source cls : Nat) : Option Nat :=
  (h.front s source cls).filter (fun uid => match h.trk uid with
    | some t => (h.needs t.rq).all (fun g => h.hasCredit g t.cls) && (h.failed s || decide ((h.stage s).length < 4096)) && !h.ingressHolds t.rq
    | none => false)

/-- The eligible candidates of a stack: (source, class) of each queue that offers one. -/
def Hw.candidates (h : Hw) (s : Nat) : List (Nat × Nat) :=
  ((h.arb s).queues.map (fun e => (e.1 / 8, e.1 % 8))).filter (fun c => (h.candidate s c.1 c.2).isSome)

/-! ### The pick (R101, R105, R106, R110) -/

/-- The class that owns slot `i` of a stack's frame, if it is reserved (R110). -/
def Hw.slotOwner (h : Hw) (s i : Nat) : Option Nat :=
  let b := ((h.arb s).mapNow.getD defaultFrameMap) / 2 ^ (8 * (i % 64)) % 256
  if b < 8 then some b else none

/-- class_quota and class_age_step as the arbiter has adopted them (R109). -/
def Arb.quota (a : Arb) (c : Nat) : Nat := Table.atD a.quotaNow (fun i => if i = 0 then 64 else if i < 4 then 48 else 0) c
def Arb.ageStep (a : Arb) (c : Nat) : Nat := max 1 (Table.atD a.ageNow (fun _ => 16) c)
def Arb.missLimit (a : Arb) (c : Nat) : Nat := Table.atD a.missNow (fun _ => 8) c

/-- Is a class masked: its quota of the window is used up. -/
def Arb.masked (a : Arb) (c : Nat) : Bool :=
  decide (c < 4 ∧ a.quota c ≠ 0 ∧ a.quota c ≤ Table.atD a.quotaUsed (fun _ => 0) c)

/-- The age of a candidate. -/
def Arb.age (a : Arb) (c : Nat × Nat) : Nat := Table.atD a.ages (fun _ => 0) (c.1 * 8 + c.2)

/-- The rank of a candidate: 0 for C0, else max(1, c − age div class_age_step). -/
def Arb.rank (a : Arb) (c : Nat × Nat) : Nat := if c.2 = 0 then 0 else max 1 (c.2 - a.age c / a.ageStep c.2)

/-- How far source `x` lies after the round-robin pointer `p` among the 34 sources. -/
def sourceAfter (p x : Nat) : Nat := (x + 34 - (p + 1) % 34) % 34

/-- The pick of R101: the winner, and the arbiter after it. -/
def Arb.pick (a : Arb) (cands : List (Nat × Nat)) (owner : Option Nat) : Option ((Nat × Nat) × Arb) :=
  let owned := match owner with
    | some o => cands.filter (fun c => c.2 == o)
    | none => []
  let inSlot := !owned.isEmpty
  let free := cands.filter (fun c => !a.masked c.2)
  let set := if inSlot then owned else if free.isEmpty then cands else free
  let r := (set.map (fun c => a.rank c)).foldl min 8
  let top := set.filter (fun c => a.rank c == r)
  let p := Table.atD a.rr (fun _ => 33) r
  let best := top.foldl (fun (b : Option (Nat × Nat)) c => match b with
    | some d =>
      if sourceAfter p c.1 < sourceAfter p d.1 ∨ (c.1 = d.1 ∧ c.2 < d.2) then some c else some d
    | none => some c) none
  best.map (fun w =>
    let ages := cands.foldl (fun t c =>
      let k := c.1 * 8 + c.2
      Table.setD t (fun _ => 0) k (if c = w then 0 else min 255 (Table.atD t (fun _ => 0) k + 1))) a.ages
    let used := if inSlot then a.quotaUsed else Table.put a.quotaUsed w.2 (Table.atD a.quotaUsed (fun _ => 0) w.2 + 1)
    (w, { a with rr := Table.put a.rr r w.1, ages := ages, quotaUsed := used, windowGrants := a.windowGrants + 1,
                 next := some { source := w.1, cls := w.2 } }))

/-- ARBITER_PICK (R101, R102): at the start of a grant the owner of the next one is decided, with the slot owner of that
moment. A window of 256 grants that is over ends first (R105). -/
def Hw.arbiterPick (h : Hw) (stack : Nat) : Hw :=
  let st := stack
  let a := h.arb st
  if a.next.isSome ∨ 256 ≤ a.windowGrants then h
  else match a.pick (h.candidates st) (h.slotOwner st (h.now / 16 % 64)) with
    | some (_, a) => h.setArb st a
    | none => h

/-- Row 97: ARBITER_PICK. -/
def execArbiterPick (stack : StackIx) (s : State) : Host.Outcome State Fault Refusal := s.on (fun h => h.arbiterPick stack.val)

/-! ### Grants (R102, R103, R113, R140) -/

/-- The piece of a request for its slice. -/
def Tracker.piece (t : Tracker) (uid : Nat) : Piece :=
  let r := t.rq
  { trk := uid, op := r.op, stack := dpaStack r.addr, off := dpaOff r.addr, dpa := r.addr, len := r.touched, part := t.part,
    requester := r.requester, cls := t.cls, data := r.data,
    mask := if r.op = 2 then List.replicate r.bytes true else r.mask, psn := r.psn, subop := r.subop }

/-- Does the hub answer requests for a stack itself: it is FAILED and its group, if it has one, cannot serve it (R140,
R242). -/
def Hw.hubAnswers (h : Hw) (s : Nat) : Bool :=
  h.failed s && match h.partOf s with
    | some p => !h.parityOn p || decide (2 ≤ (bitsOf (h.reg Od.partFailedStacks p)).length)
    | none => true

/-- The answer of the hub for a request to such a stack (R140). -/
def Hw.answerLost (h : Hw) (uid : Nat) (r : Rq) : Hw :=
  match r.op with
  | 1 => h.complete uid St.poison (List.replicate r.bytes 0) (List.replicate (r.len + 1) true)
  | 5 => h.complete uid St.poison (List.replicate 64 0) [true, true]
  | 6 => h.complete uid St.aborted
  | _ => h.complete uid St.poison

/-- A launch descriptor's fields (R180). -/
def descOf (b : Nat) : Desc :=
  { kind := b / 2 ^ 254 % 4, anyReq := b.testBit 253, requester := b / 2 ^ 241 % 2 ^ 12, base := b / 2 ^ 200 % 2 ^ 41,
    size := b / 2 ^ 188 % 2 ^ 12 + 1, deadline := b / 2 ^ 164 % 2 ^ 24 }

/-- The descriptors of a LAUNCH's data: 32 B each after the 128 B of registers; those of kind NONE are no descriptors. -/
def launchDescs (data : List Byte) : List Desc :=
  ((List.range 4).map (fun i => descOf (bytesNat ((data.drop (128 + 32 * i)).take 32))))

/-- The launch that a LAUNCH asks for (R168): g0–g15 of 8 bytes each, program ext[19:13], engine subop, stack addr[40:37]. -/
def Tracker.launch (t : Tracker) (uid : Nat) : Launch :=
  let r := t.rq
  { prog := r.ext / 2 ^ 13 % 128, launcher := some r.requester, seq := r.seq.getD 0, cls := t.cls,
    regs := (List.range 16).map (fun i => bytesNat ((r.data.drop (8 * i)).take 8)), descs := launchDescs r.data, trk := some uid,
    engine := r.subop, stack := dpaStack r.addr }

/-- The contribution that an ACW brings: `subop` its session, `off` its chunk, `dpa` its contributor index (R55, R219). -/
def Tracker.contribution (t : Tracker) (uid : Nat) : Piece :=
  let r := t.rq
  { trk := uid, op := 4, stack := t.stack.getD 0, off := r.addr % 2 ^ 32, dpa := r.ext % 4096, len := r.bytes, part := t.part,
    requester := r.requester, cls := t.cls, data := r.data, psn := r.psn, subop := r.ext / 4096 % 256 }

/-- A write's intents go to the parity slices of its sectors, on vc0 (R238). -/
def Hw.sendIntents (h : Hw) (r : Rq) : Hw :=
  if !r.writes then h
  else
    let s := dpaStack r.addr
    (sectorsOf s (h.physical s (dpaOff r.addr)) r.touched).foldl (fun h k =>
      match h.intentFor s (secOff k) with
      | some t =>
        let h := { h with par.intentsIn := Table.put h.par.intentsIn t (Table.atD h.par.intentsIn (fun _ => []) t ++ [(s, k)]) }
        h.sendQanat t true Fk.headers 0 (natBytes k 8)
      | none => h) h

/-- Send a granted request to where it goes: an accumulating slice, a launch input, or its slice's input over the qanat; a
request for a stack that is lost, and that no group serves, the hub answers itself. -/
def Hw.forward (h : Hw) (uid : Nat) : Hw :=
  match h.trk uid with
  | none => h
  | some t =>
    let r := t.rq
    let s := t.stack.getD 0
    if r.op = 9 then
      -- a BIRSP takes no tracker entry: it keeps its place in the queue under a number of its own (R147)
      let h := { h with req.trackers := Table.del h.req.trackers uid }
      let p : Piece := { trk := r.tag, op := 9, stack := s, off := dpaOff r.addr, dpa := r.addr, len := 0, requester := r.requester,
                         cls := t.cls, subop := r.subop }
      (h.sendQanat s true Fk.headers 0 r.header).setInbox s (h.inbox s ++ [p])
    else
    let h := h.setTrk uid { t with phase := .forwarded, granted := true }
    if r.op = 6 ∧ h.failed s then h.complete uid St.aborted
    else if h.hubAnswers s ∧ r.op ≠ 4 then h.answerLost uid r
    else
      let to_ := if h.failed s then (h.proxyOf s).getD s else s
      let h := h.sendIntents r
      let h := h.sendQanat to_ true Fk.headers 0 r.header
      let h := if r.data.isEmpty then h else h.sendQanat to_ true Fk.data 2 r.data
      match r.op with
      | 4 => { h with red.accIn := Table.put h.red.accIn to_ (Table.atD h.red.accIn (fun _ => []) to_ ++ [t.contribution uid]) }
      | 6 => { h with car.launchIn := Table.put h.car.launchIn s (Table.atD h.car.launchIn (fun _ => []) s ++ [t.launch uid]) }
      | _ => h.setInbox to_ (h.inbox to_ ++ [t.piece uid])

/-- Pass one header of a queue: its credits are taken, its requester charged, it goes to its slice. -/
def Hw.passHeader (h : Hw) (s source cls uid : Nat) : Hw :=
  match h.trk uid with
  | none => h
  | some t =>
    let a := h.arb s
    let key := source * 8 + cls
    let q := (Table.atD a.queues (fun _ => []) key).filter (fun u => u != uid)
    let h := h.setArb s { a with queues := Table.setD a.queues (fun _ => []) key q, slotGranted := a.slotGranted || a.slotClass == some cls }
    let h := (h.needs t.rq).foldl (fun h g => h.takeCredit g t.cls) h
    let h := h.countSel 7 t.rq.requester
    let h := (h.point uid 2 (fun p => { p with paceHub := h.reg Od.hubPace, paceSlice := h.reg Od.slicePace s, level := h.reg Od.thermLevel s }))
    let h := if t.rq.isRepeat ∧ t.rq.op ≠ 1 ∨ t.rq.op = 9 then h else h.charge t.rq.requester (if [5, 6].contains t.rq.op then 64 else t.rq.bytes)
    (h.forward uid).noteGate t.rq.requester

/-- Pass headers of a queue while it offers a candidate, at most `n`; how many were passed. -/
def Hw.passHeaders (s source cls : Nat) : Nat → Hw → Nat × Hw
  | 0, h => (0, h)
  | n + 1, h =>
    match h.candidate s source cls with
    | some uid =>
      let (k, h) := Hw.passHeaders s source cls n (h.passHeader s source cls uid)
      (k + 1, h)
    | none => (0, h)

/-- GRANT_START (R102, R103): the grant decided starts and passes up to arb_burst_max headers, or is a dead step because its
candidate has gone. -/
def Hw.grantStart (h : Hw) (stack : Nat) : Hw :=
  let st := stack
  let a := h.arb st
  match a.next with
  | none => h
  | some g =>
    if (h.candidate st g.source g.cls).isNone then h.setArb st { a with next := none, current := none, dead := true }
    else
      let h := h.setArb st { a with next := none, dead := false }
      let (n, h) := Hw.passHeaders st g.source g.cls (h.reg Od.arbBurstMax) h
      h.setArb st { h.arb st with current := some { g with passed := n } }

/-- Row 98: GRANT_START. -/
def execGrantStart (stack : StackIx) (s : State) : Host.Outcome State Fault Refusal := s.on (fun h => h.grantStart stack.val)

/-- BURST_CUTOFF (R103): the owner of the grant still requests after arb_burst_max headers: it is cut off, counted and named
in an event. The steward is privileged and is not (R104). -/
def execBurstCutoff (stack : StackIx) (s : State) : Host.Outcome State Fault Refusal :=
  s.on (fun h =>
    let st := stack.val
    let a := h.arb st
    match a.current with
    | some g =>
      if h.reg Od.arbBurstMax ≤ g.passed ∧ (h.candidate st g.source g.cls).isSome ∧ g.source < 33 then
        let h := (h.setArb st { a with current := none }).addReg Od.arbCutoffs 0
        h.raise { kind := 6, stack := some st, payload := packFields [(8, g.source)] }
      else h
    | none => h)

/-- DISPATCH_CREDIT_RETURN (R100): a credit on its way back reaches the hub. -/
def execDispatchCreditReturn (g : PcIx) (c0 : Bool) (s : State) : Host.Outcome State Fault Refusal :=
  s.on (fun h =>
    let k := g.val * 2 + (if c0 then 0 else 1)
    let due := Table.atD h.req.creditsDue (fun _ => 0) k
    let held := Table.atD h.req.credits (fun _ => 0) k
    if due = 0 then h
    else { h with req.creditsDue := Table.setD h.req.creditsDue (fun _ => 0) k (due - 1),
                  req.credits := Table.setD h.req.credits (fun _ => 0) k (held - 1) })

/-- QUOTA_WINDOW_END (R105, R109): after 256 grants the quotas start again and changed class records take effect here. -/
def execQuotaWindowEnd (stack : StackIx) (s : State) : Host.Outcome State Fault Refusal :=
  s.on (fun h =>
    let st := stack.val
    let a := h.arb st
    if a.windowGrants < 256 then h
    else
      let take (r : Reg) : Table Nat := (List.range 8).map (fun c => (c, h.reg r c))
      h.setArb st { a with windowGrants := 0, quotaUsed := [], quotaNow := take Od.classQuota, ageNow := take Od.classAgeStep,
                           missNow := take Od.classMissThreshold })

/-! ### The frame and guarantee misses (R110, R116) -/

/-- Does a candidate of class `c` wait at a stack whose requester is not gated. -/
def Hw.classWaits (h : Hw) (s c : Nat) : Bool :=
  (h.arb s).queues.any (fun e => e.1 % 8 == c && (h.front s (e.1 / 8) c).isSome)

/-- A guarantee miss of (stack, class): counted, and at the period's threshold the watermark crosses. -/
def Hw.miss (h : Hw) (s c : Nat) : Hw :=
  let a := h.arb s
  let n := Table.atD a.periodMiss (fun _ => 0) c + 1
  let h := (h.setArb s { a with periodMiss := Table.put a.periodMiss c n }).countSel 2 (s * 8 + c)
  if a.missLimit c ≤ n then h.cross (s * 8 + c) { kind := 7, stack := some s, payload := packFields [(8, c), (32, n)] } else h

/-- The slot that ends was a miss: it was reserved, its class waited when it started and no grant of it started. -/
def Hw.endSlot (h : Hw) (s : Nat) : Hw :=
  let a := h.arb s
  match a.slotClass with
  | some c => if a.slotWaiting ∧ !a.slotGranted then h.miss s c else h
  | none => h

/-- FRAME_SLOT_START (R110, R116): a 16 ns slot starts: the slot before it is judged, a written map takes effect at the start
of a frame, and the slot's class is noted. -/
def execFrameSlotStart (stack : StackIx) (s : State) : Host.Outcome State Fault Refusal :=
  s.on (fun h =>
    let st := stack.val
    let slot := h.now / 16
    if h.timer Tm.slot st = slot + 1 then h
    else
      let h := (h.endSlot st).setTimer Tm.slot st (slot + 1)
      let a := h.arb st
      let a := if slot % 64 = 0 then { a with mapNow := some (h.reg Od.frameMap st) } else a
      let h := h.setArb st a
      let c := h.slotOwner st (slot % 64)
      h.setArb st { a with slotClass := c, slotGranted := false,
                           slotWaiting := match c with | some c => h.classWaits st c | none => false })

/-- MISS_PERIOD_END (R116, R353): after 1,024 frames the period counts restart and the watermarks' levels fall. -/
def execMissPeriodEnd (stack : StackIx) (s : State) : Host.Outcome State Fault Refusal :=
  s.on (fun h =>
    let st := stack.val
    if !h.due Tm.missPeriod st then h
    else
      let h := h.setArb st { h.arb st with periodMiss := [] }
      let h := (List.range 8).foldl (fun h c => h.uncross (st * 8 + c)) h
      h.setTimer Tm.missPeriod st ((h.now / 1048576 + 1) * 1048576))

/-! ### Service modes and regulators (R112 to R115) -/

/-- Requesters whose gating may change with the mode. -/
def Hw.regulated (h : Hw) : List Nat :=
  (h.req.regNow.map (fun e => e.1) ++ h.req.trackers.map (fun e => e.2.rq.requester)).dedup

/-- service_mode changes; entering NORMAL makes every byte window start fresh at its next boundary. -/
def Hw.setMode (h : Hw) (m : Nat) : Hw :=
  let h := h.setReg Od.serviceMode 0 m
  let h := if m = 0 then
      { h with req.regFresh := Table.put h.req.regFresh 4096 (Table.atD h.req.regFresh (fun _ => 0) 4096 + 1) }
    else h
  h.regulated.foldl (fun h r => h.noteGate r) h

/-- SVC_STARTUP_EXPIRY (R112): svc_startup_ms after port release START_UP becomes NORMAL. -/
def execSvcStartupExpiry (s : State) : Host.Outcome State Fault Refusal :=
  s.on (fun h => if h.reg Od.serviceMode = 1 ∧ h.boot.portsReleased ∧ h.due Tm.startup 0 then h.setMode 0 else h)

/-- RECOVERY_DONE (R112): firmware records that the last degrade, takeover or resync is complete. -/
def execRecoveryDone (s : State) : Host.Outcome State Fault Refusal :=
  s.on (fun h => if h.reg Od.serviceMode = 3 ∧ h.par.degrades = [] ∧ h.pair.syncPart = none then h.setMode 0 else h)

/-- In NORMAL the credit is refilled: an overdraft carries over, but not into a window that starts fresh (R113, R115). -/
def Hw.refillCredit (h : Hw) (r bytes : Nat) : Hw :=
  let gen := Table.atD h.req.regFresh (fun _ => 0) 4096
  let fresh := Table.atD h.req.regFresh (fun _ => 0) r != gen
  if h.reg Od.serviceMode = 0 ∧ bytes ≠ 0 then
    let h := { h with req.regFresh := Table.setD h.req.regFresh (fun _ => 0) r gen }
    h.setSreg Od.regCredit r ((if fresh then 0 else min (h.sreg Od.regCredit r) 0) + (bytes : Int))
  else h

/-- A boundary of a requester's byte window: changed settings take effect. -/
def Hw.windowBoundary (h : Hw) (r : Nat) : Hw :=
  let h := if h.gated r then h.countSel 9 r else h
  let set := (h.reg Od.regBytes r, h.reg Od.regWindowLog2 r, h.reg Od.regOutstanding r)
  let h := { h with req.regNow := Table.setD h.req.regNow (fun _ => (0, 12, 64)) r set }.refillCredit r set.1
  let w := 2 ^ set.2.1
  (h.setTimer Tm.reg r ((h.now / w + 1) * w)).noteGate r

/-- REGULATOR_WINDOW (R113, R115). -/
def execRegulatorWindow (requester : BitVec 12) (s : State) : Host.Outcome State Fault Refusal :=
  s.on (fun h => if h.due Tm.reg requester.toNat then h.windowBoundary requester.toNat else h)

end Sys2Proof.Machine
end

