-- ==== Sys2Proof/Machine/Num.lean ====
section
/-! DEFINITION. Number formats (chapter 9): exact decoding of every element and scale, rounding, block quantization, guards,
and the binary32 arithmetic of the engines (R188 to R212). -/

namespace Sys2Proof.Machine

/-! ### Exact values -/

/-- An exact value: a NaN, an infinity, or ±m·2^e. -/
inductive Val
  | nan
  | inf (neg : Bool)
  | fin (neg : Bool) (m : Nat) (e : Int)
  deriving DecidableEq, Repr

/-- m·2^e as a fraction of natural numbers. -/
def dyFrac (m : Nat) (e : Int) : Nat × Nat := if 0 ≤ e then (m * 2 ^ e.toNat, 1) else (m, 2 ^ (-e).toNat)

/-- Is a value finite. -/
def Val.isFin : Val → Bool
  | .fin _ _ _ => true
  | _ => false

/-- A finite value as a signed fraction; anything else reads 0. -/
def Val.frac : Val → Int × Nat
  | .fin neg m e => let f := dyFrac m e; (if neg then -(f.1 : Int) else (f.1 : Int), f.2)
  | _ => (0, 1)

/-- The floor of the binary logarithm of a positive fraction. -/
def fracLog (n d : Nat) : Int :=
  let e : Int := (n.log2 : Int) - (d.log2 : Int)
  let ge := if 0 ≤ e then decide (d * 2 ^ e.toNat ≤ n) else decide (d ≤ n * 2 ^ (-e).toNat)
  if ge then e else e - 1

/-! ### Floating-point encodings (R189) -/

/-- A floating-point element: exponent and mantissa bits, bias, and what its top codes mean: 0 infinities and NaNs of
IEEE 754, 1 the one NaN of E4M3, 2 neither. -/
structure Fp where
  exp : Nat
  man : Nat
  bias : Int
  top : Nat
  deriving DecidableEq, Repr

def Fp.b32 : Fp := ⟨8, 23, 127, 0⟩
def Fp.bf16 : Fp := ⟨8, 7, 127, 0⟩
def Fp.b16 : Fp := ⟨5, 10, 15, 0⟩
def Fp.e4m3 : Fp := ⟨4, 3, 7, 1⟩
def Fp.e5m2 : Fp := ⟨5, 2, 15, 0⟩
def Fp.e3m2 : Fp := ⟨3, 2, 3, 2⟩
def Fp.e2m3 : Fp := ⟨2, 3, 1, 2⟩
def Fp.e2m1 : Fp := ⟨2, 1, 1, 2⟩
/-- The E6M2 scale (R191). -/
def Fp.e6m2 : Fp := ⟨6, 2, 31, 2⟩

/-- The exponent of the last place of the subnormals. -/
def Fp.qmin (f : Fp) : Int := 1 - f.bias - (f.man : Int)

/-- The exact magnitude of a magnitude code: m·2^e. -/
def Fp.mag (f : Fp) (code : Nat) : Nat × Int :=
  let x := code / 2 ^ f.man
  let m := code % 2 ^ f.man
  if x = 0 then (m, f.qmin) else (m + 2 ^ f.man, f.qmin + (x - 1 : Nat))

/-- The magnitude code of the first code that is no finite number. -/
def Fp.limit (f : Fp) : Nat :=
  if f.top = 0 then (2 ^ f.exp - 1) * 2 ^ f.man else if f.top = 1 then 2 ^ (f.exp + f.man) - 1 else 2 ^ (f.exp + f.man)

/-- Decode a code with its sign bit. -/
def Fp.decode (f : Fp) (code : Nat) : Val :=
  let w := f.exp + f.man
  let neg := decide (code / 2 ^ w % 2 = 1)
  let c := code % 2 ^ w
  if c < f.limit then .fin neg (f.mag c).1 (f.mag c).2
  else if f.top = 0 ∧ c = f.limit then .inf neg
  else .nan

/-- A rounding mode with, for stochastic rounding, its 24-bit draw (R193, R194). -/
inductive Rnd
  | even
  | draw (u : Nat)
  deriving DecidableEq, Repr

/-- The 24-bit draw of R194. -/
def srDraw (seed : BitVec 64) (index : Nat) : Nat :=
  let z := seed ^^^ (BitVec.ofNat 64 index * 0x9E3779B97F4A7C15#64)
  let z := (z ^^^ (z >>> 30)) * 0xBF58476D1CE4E5B9#64
  let z := (z ^^^ (z >>> 27)) * 0x94D049BB133111EB#64
  let z := z ^^^ (z >>> 31)
  (z >>> 40).toNat

/-- Round a signed fraction to an integer: nearest even, or up exactly when the fraction exceeds the draw. -/
def roundInt (r : Rnd) (num : Int) (den : Nat) : Int :=
  let f := num / (den : Int)
  let rem := (num % (den : Int)).toNat
  match r with
  | .even => if 2 * rem < den then f else if den < 2 * rem then f + 1 else if f % 2 = 0 then f else f + 1
  | .draw u => if rem = 0 then f else if u < rem * 2 ^ 24 / den then f + 1 else f

/-- Round a magnitude n/d of sign `neg` to a magnitude code; it may pass the largest finite code. -/
def Fp.roundMag (f : Fp) (r : Rnd) (neg : Bool) (n d : Nat) : Nat :=
  if n = 0 then 0
  else
    let q := max (fracLog n d - (f.man : Int)) f.qmin
    let num := if 0 ≤ q then n else n * 2 ^ (-q).toNat
    let den := if 0 ≤ q then d * 2 ^ q.toNat else d
    let k := (roundInt r (if neg then -(num : Int) else (num : Int)) den).natAbs
    (q - f.qmin).toNat * 2 ^ f.man + k

/-- The sign bit of a format above its magnitude. -/
def Fp.sign (f : Fp) (neg : Bool) : Nat := if neg then 2 ^ (f.exp + f.man) else 0

/-! ### Counts (R198, R213) -/

/-- What a conversion adds to the counters of its partition. -/
structure FmtCount where
  escapes : Nat := 0
  exhausted : Nat := 0
  poisoned : Nat := 0
  saturated : Nat := 0
  nonfinite : Nat := 0
  deriving DecidableEq, Repr

/-- The sum of two counts. -/
def FmtCount.add (a b : FmtCount) : FmtCount :=
  { escapes := a.escapes + b.escapes, exhausted := a.exhausted + b.exhausted, poisoned := a.poisoned + b.poisoned,
    saturated := a.saturated + b.saturated, nonfinite := a.nonfinite + b.nonfinite }

/-! ### Scalar destinations (R195) -/

/-- Compare magnitude n/d with m·2^e. -/
def magLt (m : Nat) (e : Int) (n d : Nat) : Bool :=
  let f := dyFrac m e
  decide (f.1 * d < n * f.2)

/-- Convert to FP32, BF16 or FP16. -/
def Fp.fromVal (f : Fp) (r : Rnd) (v : Val) : Nat × FmtCount :=
  match v with
  | .nan => (f.limit + 2 ^ (f.man - 1), { nonfinite := 1 })
  | .inf neg => (f.sign neg + f.limit, {})
  | .fin neg m e =>
    let x := dyFrac m e
    (f.sign neg + min f.limit (f.roundMag r neg x.1 x.2), {})

/-- Convert to scalar FP8: a magnitude at or above the largest finite value saturates. -/
def Fp.fromVal8 (f : Fp) (r : Rnd) (v : Val) : Nat × FmtCount :=
  let top := f.limit - 1
  match v with
  | .nan => (if f.top = 1 then 0x7f else 0x7e, { nonfinite := 1 })
  | .inf neg => if f.top = 1 then (f.sign neg + top, { saturated := 1 }) else (f.sign neg + f.limit, {})
  | .fin neg m e =>
    let x := dyFrac m e
    if magLt (f.mag top).1 (f.mag top).2 x.1 x.2 then (f.sign neg + top, { saturated := 1 })
    else (f.sign neg + min top (f.roundMag r neg x.1 x.2), {})

/-- Round a signed fraction to an integer within lo..hi, saturating beyond: the integer, whether it saturated. -/
def satInt (r : Rnd) (lo hi : Int) (num : Int) (den : Nat) : Int × Bool :=
  if hi * den < num then (hi, true) else if num < lo * den then (lo, true) else (roundInt r num den, false)

/-- Convert to INT8. -/
def int8FromVal (r : Rnd) (v : Val) : Nat × FmtCount :=
  let two (k : Int) : Nat := (k % 256).toNat
  match v with
  | .nan => (0, { nonfinite := 1 })
  | .inf neg => (if neg then 0x80 else 0x7f, { saturated := 1 })
  | .fin _ _ _ =>
    let x := v.frac
    let (k, s) := satInt r (-128) 127 x.1 x.2
    (two k, { saturated := if s then 1 else 0 })

/-! ### Format table (R188) -/

/-- Width in bytes of a scalar format, 0 for a block format. -/
def scalarWidth (fmt : Nat) : Nat :=
  if fmt = 0 then 4 else if fmt ≤ 2 then 2 else if fmt ≤ 4 ∨ fmt = 0x0a then 1 else 0

/-- Is a format code defined. -/
def fmtDefined (fmt : Nat) : Bool := decide (fmt ≤ 0x0d ∨ (0x10 ≤ fmt ∧ fmt ≤ 0x12))

/-- Is a format guarded. -/
def fmtGuarded (fmt : Nat) : Bool := decide (0x10 ≤ fmt ∧ fmt ≤ 0x12)

/-- The unguarded format with the same elements. -/
def fmtBase (fmt : Nat) : Nat := if fmt = 0x10 then 0x08 else if fmt = 0x11 then 0x0c else if fmt = 0x12 then 0x0d else fmt

/-- Elements of a block: 1 for a scalar format. -/
def blockElems (fmt : Nat) : Nat := if scalarWidth fmt ≠ 0 then 1 else if fmtBase fmt = 0x0d then 64 else 32

/-- Blocks of a full group. -/
def groupBlocks (fmt : Nat) : Nat := if fmtBase fmt = 0x0d then 320 else 64

/-- Element bytes of a 32-element block (R192). -/
def blockBytes (fmt : Nat) : Nat :=
  match fmtBase fmt with
  | 5 => 32
  | 6 => 24
  | 7 => 24
  | 8 => 16
  | 9 => 32
  | 0x0b => 16
  | _ => 8

/-- Round up to a multiple of 64. -/
def up64 (n : Nat) : Nat := (n + 63) / 64 * 64

/-- Bytes of a group of `j` blocks: its scale area and its element area (R192). -/
def groupAreas (fmt j : Nat) : Nat × Nat :=
  (up64 j, up64 (if fmtBase fmt = 0x0d then (64 * j + 4) / 5 else j * blockBytes fmt))

/-- Bytes of a full group. -/
def groupBytes (fmt : Nat) : Nat := let a := groupAreas fmt (groupBlocks fmt); a.1 + a.2

/-- The groups of a stream of `n` elements: how many blocks each holds (the last may be a tail). -/
def groupsOf (fmt n : Nat) : List Nat :=
  let blocks := n / blockElems fmt
  let g := groupBlocks fmt
  List.replicate (blocks / g) g ++ (if blocks % g = 0 then [] else [blocks % g])

/-- Bytes of a stream of `n` elements, scalar or block. -/
def streamBytes (fmt n : Nat) : Nat :=
  if scalarWidth fmt ≠ 0 then n * scalarWidth fmt
  else ((groupsOf fmt n).map (fun j => (groupAreas fmt j).1 + (groupAreas fmt j).2)).foldl (· + ·) 0

/-! ### Decoding (R189 to R191, R193) -/

/-- The number in `w` bytes of a list at byte `i`. -/
def leAt (b : List Byte) (i w : Nat) : Nat := bytesNat ((b.drop i).take w)

/-- Decode one scalar. -/
def scalarVal (fmt code : Nat) : Val :=
  match fmt with
  | 0 => Fp.b32.decode code
  | 1 => Fp.bf16.decode code
  | 2 => Fp.b16.decode code
  | 3 => Fp.e4m3.decode code
  | 4 => Fp.e5m2.decode code
  | _ => if code < 128 then .fin false code 0 else .fin true (256 - code) 0

/-- A scale byte: its value m·2^e; none for a poisoned or invalid one. The escape is settled before. -/
def scaleVal (fmt code : Nat) : Option (Nat × Int) :=
  if code = 0xff then none
  else match fmtBase fmt with
    | 0x0c => some (Fp.e6m2.mag code)
    | 0x0d => if code ≤ 0x7e then some (Fp.e4m3.mag code) else none
    | _ => some (1, (code : Int) - 127)

/-- A signed small value times a scale. -/
def Val.scale (v : Val) (s : Nat × Int) : Val :=
  match v with
  | .fin neg m e => .fin neg (m * s.1) (e + s.2)
  | v => v

/-- Element `i` of a block's element bytes, as an exact value before its scale. -/
def blockElem (fmt : Nat) (b : List Byte) (i : Nat) : Val :=
  let byte (k : Nat) : Nat := (b.getD k 0).toNat
  match fmtBase fmt with
  | 5 => Fp.e4m3.decode (byte i)
  | 6 => Fp.e3m2.decode (leAt b (i / 4 * 3) 3 / 2 ^ (6 * (i % 4)) % 64)
  | 7 => Fp.e2m3.decode (leAt b (i / 4 * 3) 3 / 2 ^ (6 * (i % 4)) % 64)
  | 8 => Fp.e2m1.decode (byte (i / 2) / 2 ^ (4 * (i % 2)) % 16)
  | 9 => let k := byte i; if k < 128 then .fin false k (-6) else .fin true (256 - k) (-6)
  | 0x0b => let k := byte (i / 2) / 2 ^ (4 * (i % 2)) % 16; if k < 8 then .fin false k 0 else .fin true (16 - k) 0
  | _ =>
    match byte (i / 4) / 2 ^ (2 * (i % 4)) % 4 with
    | 0 => .fin true 3 0
    | 1 => .fin true 1 0
    | 2 => .fin false 1 0
    | _ => .fin false 3 0

/-- Trit `i` of a group's trit bytes: none from an invalid byte. -/
def tritAt (b : List Byte) (i : Nat) : Option Val :=
  let x := (b.getD (i / 5) 0).toNat
  if 243 ≤ x then none
  else match x / 3 ^ (i % 5) % 3 with
    | 0 => some (.fin true 1 0)
    | 1 => some (.fin false 0 0)
    | _ => some (.fin false 1 0)

/-- The MXFP8 copy in a slot (R199, R205); one whose scale says so is poisoned (R191). -/
def slotVals (fmt : Nat) (slot : List Byte) : Option (List Val) :=
  let n := blockElems fmt
  let sc (i : Nat) : Nat := (slot.getD (if n = 64 then 64 + i / 32 else 32) 0).toNat
  if sc 0 = 0xff ∨ sc (n - 1) = 0xff then none
  else some ((List.range n).map (fun i => (Fp.e4m3.decode ((slot.getD i 0).toNat)).scale (1, (sc i : Int) - 127)))

/-- The slots that a group's scale bytes name: for each block its rank among the escapes, if it is one. -/
def escapeRanks (scales : List Nat) : List (Option Nat) :=
  (scales.foldl (fun (a : List (Option Nat) × Nat) c =>
    if c = 0xfe then (a.1 ++ [some a.2], a.2 + 1) else (a.1 ++ [none], a.2)) ([], 0)).1

/-- Decode a group of `j` blocks: values, poisoned blocks. `slots`: the slot bytes of escapes 0, 1, ...; an escape past them
reads as poisoned (R203). -/
def decodeGroup (fmt j : Nat) (b : List Byte) (slots : List (List Byte)) : List Val × Nat :=
  let n := blockElems fmt
  let a := groupAreas fmt j
  let scales := (List.range j).map (fun i => (b.getD i 0).toNat)
  let ranks := if fmtGuarded fmt then escapeRanks scales else List.replicate j none
  let elems := (b.drop a.1).take a.2
  let blocks := (List.range j).map (fun k =>
    let poisoned : List Val × Nat := (List.replicate n .nan, 1)
    match ranks.getD k none with
    | some r => match slots[r]?.bind (slotVals fmt) with
      | some vs => (vs, 0)
      | none => poisoned
    | none => match scaleVal fmt (scales.getD k 0) with
      | none => poisoned
      | some s =>
        if fmtBase fmt = 0x0d then
          let ts := (List.range n).map (fun i => tritAt elems (k * 64 + i))
          if ts.all (fun t => t.isSome) then (ts.map (fun (t : Option Val) => (t.getD .nan).scale s), 0) else poisoned
        else
          let eb := (elems.drop (k * blockBytes fmt)).take (blockBytes fmt)
          ((List.range n).map (fun i => (blockElem fmt eb i).scale s), 0))
  (blocks.flatMap (fun x => x.1), (blocks.map (fun x => x.2)).foldl (· + ·) 0)

/-- Decode a scalar stream of `n` elements. -/
def decodeScalars (fmt n : Nat) (b : List Byte) : List Val :=
  let w := scalarWidth fmt
  (List.range n).map (fun i => scalarVal fmt (leAt b (i * w) w))

/-! ### Quantizing a block (R196, R197) -/

/-- The largest magnitude of a block as a fraction. -/
def amaxOf (vs : List Val) : Nat × Nat :=
  vs.foldl (fun (a : Nat × Nat) v => let x := v.frac; if a.1 * x.2 < x.1.natAbs * a.2 then (x.1.natAbs, x.2) else a) (0, 1)

/-- e_max for scale selection (R189). -/
def emaxOf (fmt : Nat) : Int :=
  match fmtBase fmt with
  | 5 => 8
  | 6 => 4
  | 9 => 0
  | _ => 2

/-- The sum of the magnitudes of a block, m·2^e. -/
def sumMag (vs : List Val) : Nat × Int :=
  let lo := vs.foldl (fun (m : Int) v => match v with | .fin _ _ e => min m e | _ => m) 0
  (vs.foldl (fun (s : Nat) v => match v with | .fin _ m e => s + m * 2 ^ (e - lo).toNat | _ => s) 0, lo)

/-- The scale code chosen for a block of finite values. -/
def scaleCode (fmt : Nat) (vs : List Val) : Nat :=
  match fmtBase fmt with
  | 0x0c =>
    let a := amaxOf vs
    min (if fmt = 0x11 then 0xfd else 0xfe) (Fp.e6m2.roundMag .even false a.1 (a.2 * 3))
  | 0x0d =>
    let s := sumMag vs
    let x := dyFrac s.1 (s.2 - 6)
    min 0x7e (Fp.e4m3.roundMag .even false x.1 x.2)
  | _ =>
    let a := amaxOf vs
    if a.1 = 0 then 0
    else
      let x := fracLog a.1 a.2 - emaxOf fmt
      (max (-127) (min (if fmt = 0x10 then 126 else 127) x) + 127).toNat

/-- A signed fraction divided by m·2^e. -/
def divScale (x : Int × Nat) (s : Nat × Int) : Int × Nat :=
  let f := dyFrac s.1 s.2
  (x.1 * (f.2 : Int), x.2 * f.1)

/-- A block element of a floating-point kind: its code, whether it saturated. A zero result has a clear sign. -/
def quantFp (f : Fp) (r : Rnd) (y : Int × Nat) : Nat × Bool :=
  let top := f.limit - 1
  let neg := decide (y.1 < 0)
  if magLt (f.mag top).1 (f.mag top).2 y.1.natAbs y.2 then (f.sign neg + top, true)
  else
    let c := min top (f.roundMag r neg y.1.natAbs y.2)
    (if c = 0 then 0 else f.sign neg + c, false)

/-- The level −1, 0 or +1 of a trit, as its digit. -/
def quantTrit (r : Rnd) (y : Int × Nat) : Nat × Bool :=
  if (y.2 : Int) < y.1 then (2, true) else if y.1 < -(y.2 : Int) then (0, true)
  else match r with
    | .even => if 2 * y.1.natAbs ≤ y.2 then (1, false) else if y.1 < 0 then (0, false) else (2, false)
    | .draw _ => (((roundInt r y.1 y.2) + 1).toNat, false)

/-- The VM2 code of y: levels −3, −1, +1, +3; ties go to the smaller magnitude, 0 to +1. -/
def quantVm2 (r : Rnd) (y : Int × Nat) : Nat × Bool :=
  let d : Int := y.2
  if 3 * d ≤ y.1 then (3, decide (3 * d < y.1))
  else if y.1 ≤ -3 * d then (0, decide (y.1 < -3 * d))
  else match r with
    | .even => (if y.1 < -2 * d then 0 else if y.1 < 0 then 1 else if y.1 ≤ 2 * d then 2 else 3, false)
    -- levels are −3 + 2k: round (y + 3) / 2 to an integer
    | .draw _ => ((roundInt r (y.1 + 3 * d) (2 * y.2)).toNat, false)

/-- Quantize one element of a block whose scale is m·2^e: its code, whether it saturated. -/
def quantElem (fmt : Nat) (r : Rnd) (v : Val) (s : Nat × Int) : Nat × Bool :=
  if s.1 = 0 then (if fmtBase fmt = 0x0c then 2 else if fmtBase fmt = 0x0d then 1 else 0, false)
  else
    let y := divScale v.frac s
    match fmtBase fmt with
    | 5 => quantFp Fp.e4m3 r y
    | 6 => quantFp Fp.e3m2 r y
    | 7 => quantFp Fp.e2m3 r y
    | 8 => quantFp Fp.e2m1 r y
    | 9 => let k := satInt r (-128) 127 (y.1 * 64) y.2; ((k.1 % 256).toNat, k.2)
    | 0x0b => let k := satInt r (-8) 7 y.1 y.2; ((k.1 % 16).toNat, k.2)
    | 0x0c => quantVm2 r y
    | _ => quantTrit r y

/-- The rounding of element `i` of a step: nearest even, or stochastic under a seed. -/
def rndAt (seed : Option (BitVec 64)) (i : Nat) : Rnd :=
  match seed with
  | some s => .draw (srDraw s (i % 2 ^ 32))
  | none => .even

/-- The element bytes of a block from its codes (trits are packed by group). -/
def packBlock (fmt : Nat) (codes : List Nat) : List Byte :=
  let bits := match fmtBase fmt with
    | 5 => 8
    | 6 => 6
    | 7 => 6
    | 8 => 4
    | 9 => 8
    | 0x0b => 4
    | _ => 2
  natBytes (codes.zipIdx.foldl (fun n c => n + c.1 % 2 ^ bits * 2 ^ (bits * c.2)) 0) (blockBytes fmt)

/-- The value a code of a block stands for. -/
def codeVal (fmt : Nat) (code : Nat) : Val :=
  match fmtBase fmt with
  | 5 => Fp.e4m3.decode code
  | 6 => Fp.e3m2.decode code
  | 7 => Fp.e2m3.decode code
  | 8 => Fp.e2m1.decode code
  | 9 => if code < 128 then .fin false code (-6) else .fin true (256 - code) (-6)
  | 0x0b => if code < 8 then .fin false code 0 else .fin true (16 - code) 0
  | 0x0c => [Val.fin true 3 0, .fin true 1 0, .fin false 1 0, .fin false 3 0].getD code .nan
  | _ => [Val.fin true 1 0, .fin false 0 0, .fin false 1 0].getD code .nan

/-! ### Guards (R199 to R202) -/

/-- A signed number m·2^e. -/
abbrev Dy := Int × Int

/-- Difference and square of signed dyadic numbers. -/
def Dy.sub (a b : Dy) : Dy :=
  let lo := min a.2 b.2
  (a.1 * 2 ^ (a.2 - lo).toNat - b.1 * 2 ^ (b.2 - lo).toNat, lo)
def Dy.sq (a : Dy) : Dy := (a.1 * a.1, 2 * a.2)
def Dy.add (a b : Dy) : Dy := Dy.sub a (-b.1, b.2)
def Val.dy : Val → Dy
  | .fin neg m e => (if neg then -(m : Int) else (m : Int), e)
  | _ => (0, 0)

/-- The guard test: does a block escape (R200). -/
def escapes (theta : Nat) (vs qs : List Val) : Bool :=
  let e := (vs.zip qs).foldl (fun s p => Dy.add s (Dy.sq (Dy.sub p.1.dy p.2.dy))) ((0, 0) : Dy)
  let n := vs.foldl (fun s v => Dy.add s (Dy.sq v.dy)) ((0, 0) : Dy)
  decide (0 < (Dy.sub (e.1 * 2 ^ 32, e.2) (n.1 * (theta * theta : Nat), n.2)).1)

/-- The MXFP8 E4M3 quantization of up to 32 values from index `base` (R199). -/
def mxfp8 (vs : List Val) (seed : Option (BitVec 64)) (base : Nat) : List Byte × Nat × Nat :=
  let c := scaleCode 5 vs
  let s : Nat × Int := (1, (c : Int) - 127)
  let qs := vs.zipIdx.map (fun v => quantElem 5 (rndAt seed (base + v.2)) v.1 s)
  (qs.map (fun q => BitVec.ofNat 8 q.1), c, (qs.filter (fun q => q.2)).length)

/-- The slot copy of an escaped block, and its saturated elements. -/
def slotCopy (vs : List Val) (seed : Option (BitVec 64)) (base : Nat) : List Byte × Nat :=
  if vs.length ≤ 32 then
    let (b, c, n) := mxfp8 vs seed base
    (b ++ [BitVec.ofNat 8 c] ++ List.replicate 31 0, n)
  else
    let (b0, c0, n0) := mxfp8 (vs.take 32) seed base
    let (b1, c1, n1) := mxfp8 (vs.drop 32) seed (base + 32)
    (b0 ++ b1 ++ [BitVec.ofNat 8 c0, BitVec.ofNat 8 c1] ++ List.replicate 62 0, n0 + n1)

/-- A quantized block: scale byte, codes, the slot copy of an escape, its counts. -/
structure QBlock where
  scale : Nat
  codes : List Nat
  slot : Option (List Byte) := none
  cnt : FmtCount := {}
  deriving DecidableEq, Repr

/-- What a guarded format adds to quantization: theta, slots per group. -/
structure Guard where
  theta : Nat
  slots : Nat
  deriving DecidableEq, Repr

/-- Quantize one block of values whose first element has index `base`; `j`: escapes so far in its group (R196, R201). -/
def quantBlock (fmt : Nat) (g : Option Guard) (j : Nat) (vs : List Val) (seed : Option (BitVec 64)) (base : Nat) : QBlock :=
  let n := blockElems fmt
  let zeroCode := if fmtBase fmt = 0x0d then 1 else 0
  if vs.any (fun v => !v.isFin) then
    -- a poisoned block's element bytes are 00h: for trits, digits 0
    { scale := 0xff, codes := List.replicate n 0, cnt := { poisoned := 1 } }
  else
    let c := scaleCode fmt vs
    let s := (scaleVal (fmtBase fmt) c).getD (0, 0)
    let qs := vs.zipIdx.map (fun v => quantElem fmt (rndAt seed (base + v.2)) v.1 s)
    let sat := (qs.filter (fun q => q.2)).length
    let plain : QBlock := { scale := c, codes := qs.map (fun q => q.1), cnt := { saturated := sat } }
    match g with
    | none => plain
    | some g =>
      let deq := qs.map (fun q => (codeVal fmt q.1).scale s)
      if escapes g.theta vs deq then
        if j < g.slots then
          let (sl, n8) := slotCopy vs seed base
          { scale := 0xfe, codes := List.replicate n zeroCode, slot := some sl, cnt := { escapes := 1, saturated := n8 } }
        else { plain with cnt := { plain.cnt with exhausted := 1 } }
      else plain

/-- Pad with zeros to `n` bytes. -/
def padTo (n : Nat) (b : List Byte) : List Byte := b ++ List.replicate (n - b.length) 0

/-- Pack digits five to a byte. -/
def packTrits : Nat → List Nat → List Byte
  | 0, _ => []
  | k + 1, ds => BitVec.ofNat 8 (((ds.take 5).zipIdx).foldl (fun n d => n + d.1 * 3 ^ d.2) 0) :: packTrits k (ds.drop 5)

/-- Encode a group: its bytes, the slots written (rank, bytes), its counts. -/
def encodeGroup (fmt : Nat) (g : Option Guard) (blocks : List (List Val)) (seed : Option (BitVec 64)) (base : Nat) :
    List Byte × List (Nat × List Byte) × FmtCount :=
  let n := blockElems fmt
  let qs := (blocks.zipIdx.foldl (fun (a : List QBlock × Nat) b =>
    let q := quantBlock fmt g a.2 b.1 seed (base + b.2 * n)
    (a.1 ++ [q], if q.slot.isSome then a.2 + 1 else a.2)) ([], 0)).1
  let areas := groupAreas fmt blocks.length
  let scales := padTo areas.1 (qs.map (fun q => BitVec.ofNat 8 q.scale))
  let elems := if fmtBase fmt = 0x0d then packTrits ((64 * blocks.length + 4) / 5) (qs.flatMap (fun q => q.codes))
    else qs.flatMap (fun q => packBlock fmt q.codes)
  let slots := (qs.filterMap (fun q => q.slot)).zipIdx.map (fun p => (p.2, p.1))
  (scales ++ padTo areas.2 elems, slots, qs.foldl (fun c q => c.add q.cnt) {})

/-- Cut a list into pieces of `n`. -/
def chunksOf {α : Type} (n : Nat) : Nat → List α → List (List α)
  | 0, _ => []
  | k + 1, l => l.take n :: chunksOf n k (l.drop n)

/-- Encode one scalar. -/
def encodeScalar (fmt : Nat) (r : Rnd) (v : Val) : Nat × FmtCount :=
  match fmt with
  | 0 => Fp.b32.fromVal r v
  | 1 => Fp.bf16.fromVal r v
  | 2 => Fp.b16.fromVal r v
  | 3 => Fp.e4m3.fromVal8 r v
  | 4 => Fp.e5m2.fromVal8 r v
  | _ => int8FromVal r v

/-- Encode a scalar stream whose first element has index `base`. -/
def encodeScalars (fmt : Nat) (vs : List Val) (seed : Option (BitVec 64)) (base : Nat) : List Byte × FmtCount :=
  vs.zipIdx.foldl (fun (a : List Byte × FmtCount) v =>
    let (c, n) := encodeScalar fmt (rndAt seed (base + v.2)) v.1
    (a.1 ++ natBytes c (scalarWidth fmt), a.2.add n)) ([], {})

/-! ### Binary32 arithmetic (R206) -/

/-- The canonical NaN. -/
def f32nan : Nat := 0x7fc00000

/-- A binary32 code of an exact value, nearest even. -/
def f32of (v : Val) : Nat := (Fp.b32.fromVal .even v).1

/-- A binary32 code's exact value. -/
def f32val (c : Nat) : Val := Fp.b32.decode (c % 2 ^ 32)

/-- Is a binary32 code a NaN or an infinity. -/
def f32bad (c : Nat) : Bool := !(f32val c).isFin

/-- Sum. -/
def f32add (a b : Nat) : Nat :=
  match f32val a, f32val b with
  | .nan, _ => f32nan
  | _, .nan => f32nan
  | .inf x, .inf y => if x = y then f32of (.inf x) else f32nan
  | .inf x, _ => f32of (.inf x)
  | _, .inf y => f32of (.inf y)
  | .fin x m e, .fin y n f =>
    let s := Dy.add (Val.fin x m e).dy (Val.fin y n f).dy
    if s.1 = 0 then f32of (.fin (x && y) 0 0) else f32of (.fin (decide (s.1 < 0)) s.1.natAbs s.2)

/-- The opposite. -/
def f32neg (a : Nat) : Nat := if a % 2 ^ 32 < 2 ^ 31 then a % 2 ^ 32 + 2 ^ 31 else a % 2 ^ 32 - 2 ^ 31

/-- Difference. -/
def f32sub (a b : Nat) : Nat := f32add a (f32neg b)

/-- Product. -/
def f32mul (a b : Nat) : Nat :=
  match f32val a, f32val b with
  | .nan, _ => f32nan
  | _, .nan => f32nan
  | .inf x, .inf y => f32of (.inf (x ^^ y))
  | .inf x, .fin y n _ => if n = 0 then f32nan else f32of (.inf (x ^^ y))
  | .fin x m _, .inf y => if m = 0 then f32nan else f32of (.inf (x ^^ y))
  | .fin x m e, .fin y n f => f32of (.fin (x ^^ y) (m * n) (e + f))

/-- Quotient. -/
def f32div (a b : Nat) : Nat :=
  match f32val a, f32val b with
  | .nan, _ => f32nan
  | _, .nan => f32nan
  | .inf _, .inf _ => f32nan
  | .inf x, .fin y _ _ => f32of (.inf (x ^^ y))
  | .fin x _ _, .inf y => f32of (.fin (x ^^ y) 0 0)
  | .fin x m e, .fin y n f =>
    if n = 0 then (if m = 0 then f32nan else f32of (.inf (x ^^ y)))
    else
      let p := dyFrac m e
      let q := dyFrac n f
      Fp.b32.sign (x ^^ y) + min Fp.b32.limit (Fp.b32.roundMag .even false (p.1 * q.2) (p.2 * q.1))

/-- The integer square root, one bit at a time. -/
def isqrt : Nat → Nat → Nat → Nat
  | 0, r, _ => r
  | k + 1, r, n => let t := r + 2 ^ k; isqrt k (if t * t ≤ n then t else r) n

/-- Square root. -/
def f32sqrt (a : Nat) : Nat :=
  match f32val a with
  | .nan => f32nan
  | .inf x => if x then f32nan else f32of (.inf false)
  | .fin x m e =>
    if m = 0 then a % 2 ^ 32 else if x then f32nan
    else
      -- m·2^e with an even exponent and 64 extra bits; an inexact root lies strictly between integers
      let odd := decide (e % 2 = 1)
      let n := (if odd then 2 * m else m) * 2 ^ 64
      let h := ((if odd then e - 1 else e) - 64) / 2
      let r := isqrt (n.log2 / 2 + 1) 0 n
      f32of (.fin false (2 * r + (if r * r = n then 0 else 1)) (h - 1))

/-- b^t by square and multiply from bit 31 (R211). -/
def f32pow (b t : Nat) : Nat :=
  (List.range 32).foldl (fun p i => let p := f32mul p p; if t.testBit (31 - i) then f32mul p b else p) 0x3f800000

end Sys2Proof.Machine
end

