-- ==== Sys2Proof/Machine/Prog.lean ====
section
/-! DEFINITION. Caravan programs in the store: step words, load checks, the program record's commands, slice copies
(R163 to R167, R175). -/

namespace Sys2Proof.Machine

/-! ### Step words (R175) -/

/-- Bits lo+n−1..lo of a step word. -/
def wf (w : BitVec 128) (lo n : Nat) : Nat := (w.extractLsb' lo n).toNat

/-- Opcode, flags, formats, register numbers of a step word. -/
def stepOp (w : BitVec 128) : Nat := wf w 120 8
def stepFlag (w : BitVec 128) (b : Nat) : Bool := w.getLsbD (112 + b)
def stepIn (w : BitVec 128) : Nat := wf w 104 8
def stepOut (w : BitVec 128) : Nat := wf w 96 8
def stepA (w : BitVec 128) : Nat := wf w 92 4
def stepB (w : BitVec 128) : Nat := wf w 88 4
def stepC (w : BitVec 128) : Nat := wf w 84 4
def stepD (w : BitVec 128) : Nat := wf w 80 4

/-- Length field imm[79:56]. -/
def stepN (w : BitVec 128) : Nat := wf w 56 24

/-- What a step uses of its word: flag bits, registers ga gb gc gd, fmt_in, fmt_out, immediate bits. -/
structure StepUse where
  flags : Nat := 0
  a : Bool := false
  b : Bool := false
  c : Bool := false
  d : Bool := false
  fin : Bool := false
  fout : Bool := false
  imm : Nat := 0
  deriving DecidableEq, Repr

/-- Immediate bits hi..lo as a mask. -/
def immBits (hi lo : Nat) : Nat := 2 ^ (hi + 1) - 2 ^ lo

/-- The step table: what each opcode uses; none for an opcode that is not listed. -/
def stepUse (w : BitVec 128) : Option StepUse :=
  let n := immBits 79 56
  match stepOp w with
  | 0x01 => some { flags := 0x07, a := true, b := true, imm := n }
  | 0x02 => some { flags := 0x06, a := true, b := true, c := true, imm := immBits 79 48 }
  | 0x03 => some { flags := 0x05, a := true, b := true, c := true, imm := immBits 79 48 }
  | 0x04 => some
    { flags := 0x03, a := true, b := true, c := fmtGuarded (stepIn w) || fmtGuarded (stepOut w), d := true, fin := true,
      fout := true, imm := immBits 79 52 }
  | 0x05 => some { flags := 0x03, a := true, b := true, fin := true, imm := immBits 79 60 + immBits 57 56 }
  | 0x06 => some { flags := 0x03, a := true, b := true, fin := true, fout := true, imm := n }
  | 0x07 => some { flags := 0x02, b := true, c := true, imm := n }
  | 0x08 => some { flags := 0x19, a := true, b := stepFlag w 4, imm := n + immBits 1 0 }
  | 0x09 => some { flags := 0x23, a := true, b := true, c := true, imm := n }
  | 0x0a => some { flags := 0x43, a := true, b := true, d := true, imm := n }
  | 0x0b => some { a := true, b := true, fin := true, fout := true, imm := immBits 79 16 }
  | 0x0c => some { flags := 0x03, a := true, b := true, c := true, fin := true, fout := true, imm := immBits 79 16 }
  | 0x0d => some
    { flags := 0xe3, a := true, b := true, c := true, d := !stepFlag w 7, fin := true, fout := !stepFlag w 7,
      imm := immBits 79 32 }
  | 0x0e => some { flags := 0x1b, a := true, b := true, c := true, imm := n + immBits 9 0 }
  | 0x10 => some { a := true, imm := immBits 63 0 }
  | 0x11 => some { a := true, b := true, imm := immBits 63 0 }
  | 0x12 => some { imm := n + immBits 8 0 }
  | 0x18 => some
    { flags := 0x01, b := decide (wf w 76 4 = 2), d := stepFlag w 0,
      imm := immBits 79 56 + (match wf w 76 4 with | 0 => immBits 5 0 | 1 => immBits 1 0 | 2 => immBits 47 24 | _ => 0) }
  | 0x19 => some { a := decide (wf w 76 4 = 1), imm := immBits 79 76 + (if wf w 76 4 = 0 then immBits 5 0 else 0) }
  | 0x1a => some { flags := 0x01 }
  | 0x1f => some { imm := immBits 7 0 }
  | _ => none

/-! ### Load checks (R165, R209) -/

/-- FIELD: what a step does not use is 0. -/
def stepFieldOk (w : BitVec 128) : Bool :=
  match stepUse w with
  | none => true
  | some u =>
    decide (wf w 112 8 &&& u.flags = wf w 112 8) && (u.a || decide (stepA w = 0)) && (u.b || decide (stepB w = 0)) &&
      (u.c || decide (stepC w = 0)) && (u.d || decide (stepD w = 0)) && (u.fin || decide (stepIn w = 0)) &&
      (u.fout || decide (stepOut w = 0)) && decide (wf w 0 80 &&& u.imm = wf w 0 80)

/-- FORMAT: format codes are defined and allowed. -/
def stepFormatOk (w : BitVec 128) : Bool :=
  let i := stepIn w
  let o := stepOut w
  match stepOp w with
  | 0x04 => fmtDefined i && fmtDefined o && !(fmtGuarded i && fmtGuarded o)
  | 0x05 => [0, 1, 2, 3, 4, 8].contains i
  | 0x06 => fmtDefined i && !fmtGuarded i && decide (o = 0)
  | 0x0b => decide (i = o) && [0, 1, 2, 3, 4, 0x0a].contains i
  | 0x0c => fmtDefined i && !fmtGuarded i && decide (o = 0)
  | 0x0d => decide (i ≤ 2) && (stepFlag w 7 || fmtDefined o)
  | _ => true

/-- The limit of a stream or of staging moved by one step, 4 MiB. -/
def mib4 : Nat := 4194304

/-- LIMIT: every immediate lies within its limit. -/
def stepLimitOk (w : BitVec 128) : Bool :=
  let n := stepN w
  let within (lo hi : Nat) : Bool := decide (lo ≤ n ∧ n ≤ hi)
  match stepOp w with
  | 0x01 => within 1 65536
  | 0x02 => within 1 65536 && decide (n * ((wf w 48 8 + 1) * 64) ≤ mib4)
  | 0x03 => within 1 65536 && decide (n * ((wf w 48 8 + 1) * 64) ≤ mib4)
  | 0x04 =>
    decide (1 ≤ n) && decide (n % blockElems (stepIn w) = 0 ∧ n % blockElems (stepOut w) = 0) &&
      decide (streamBytes (stepIn w) n ≤ mib4 ∧ streamBytes (stepOut w) n ≤ mib4) && decide (wf w 52 4 ≤ 1)
  | 0x06 => within 1 1048576 && decide (n % blockElems (stepIn w) = 0)
  | 0x07 => within 1 65536
  | 0x08 => decide (n ≤ 65536) && (decide (n ≠ 0) || stepFlag w 3 || stepFlag w 4)
  | 0x09 => within 1 65536
  | 0x0a => within 1 65536 && decide (n % 512 = 0)
  | 0x0b =>
    let row := (wf w 56 12 + 1) * scalarWidth (stepIn w)
    decide (wf w 36 20 % 64 = 0 ∧ wf w 16 20 % 64 = 0) && decide (row ≤ wf w 36 20 ∧ row ≤ wf w 16 20) &&
      decide ((wf w 68 12 + 1) * row ≤ mib4)
  | 0x0d => within 1 1048576 && (stepFlag w 7 || decide (n % blockElems (stepOut w) = 0))
  | 0x0e => within 1 65536
  | 0x12 => decide (1 ≤ n)
  | 0x18 =>
    decide (wf w 76 4 ≤ 2) && decide (1 ≤ wf w 56 20 ∧ wf w 56 20 ≤ 1000000) &&
      (decide (wf w 76 4 ≠ 2) || decide (1 ≤ wf w 24 16))
  | 0x19 => decide (wf w 76 4 ≤ 1)
  | _ => true

/-- The loops of a program: index and target. -/
def loopsOf (ws : List (BitVec 128)) : List (Nat × Nat) :=
  ws.zipIdx.filterMap (fun p => if stepOp p.1 = 0x12 then some (p.2, wf p.1 0 9) else none)

/-- LOOP: each target lies below its own index, and any two bodies are nested or disjoint. -/
def loopsOk (ws : List (BitVec 128)) : Bool :=
  let ls := loopsOf ws
  ls.all (fun l => decide (l.2 < l.1)) &&
    ls.all (fun x => ls.all (fun y => decide (y.1 ≤ x.1) || decide (y.2 ≤ x.2 ∨ x.1 < y.2)))

/-- The load checks over the words of a program, in order: 0, or the reason for REJECTED. -/
def loadCheck (ws : List (BitVec 128)) : Nat :=
  if !ws.all (fun w => (stepUse w).isSome) then 1
  else if !ws.all stepFieldOk then 2
  else if !ws.all stepFormatOk then 3
  else if !ws.all stepLimitOk then 4
  else if !loopsOk ws then 5
  else match ws.getLast? with
    | some w => if stepOp w = 0x1f then 0 else 6
    | none => 6

/-! ### Program records (R163 to R166) -/

/-- The bytes of a step word, most significant first. -/
def stepBytes (w : BitVec 128) : List Byte := natBytesBE w.toNat 16

/-- The programs, VALID, LOADING or REJECTED, that name a partition. -/
def Hw.progsNaming (h : Hw) (p : Nat) : Nat :=
  ((List.range 128).filter (fun n => decide (h.reg Od.progState n ≠ 0) && h.bit Od.progBind n p)).length

/-- Is a BEGIN valid: the owner of every partition in prog_bind, each ACTIVE or DEGRADED, within the limit of 14; or firmware
on its own IDs with no partition. -/
def Hw.beginOk (h : Hw) (a : Actor) (n : Nat) : Bool :=
  let bind := h.reg Od.progBind n
  match a with
  | .firmware => decide (0x70 ≤ n ∧ bind = 0)
  | _ =>
    decide (n < 0x70 ∧ bind ≠ 0 ∧ bind < 65536) && (bitsOf bind).all (fun p =>
      h.tenantFor a p && decide (h.reg Od.partState p = 3 ∨ h.reg Od.partState p = 4) && decide (h.progsNaming p < 14))

/-- Forget the steps written to a program. -/
def Hw.dropSteps (h : Hw) (n : Nat) : Hw :=
  { h with car.progSteps := Table.drop h.car.progSteps (fun k => decide (k / 512 = n)) }

/-- BEGIN (R165): an EMPTY record goes to LOADING. -/
def Hw.progBegin (h : Hw) (a : Actor) (n : Nat) : Hw :=
  if h.reg Od.progState n ≠ 0 then h.ignore a Od.progCommand n Why.wrongState
  else if !h.beginOk a n then h.ignore a Od.progCommand n Why.invalidCommand
  else
    let owner := match (bitsOf (h.reg Od.progBind n)).head? with
      | some p => h.reg Od.partOwner p
      | none => 0
    (((h.dropSteps n).setReg Od.progOwner n owner).setReg Od.progIndex n 0).setReg Od.progState n 1

/-- The stacks whose slices hold program copies. -/
def Hw.slices (h : Hw) : List Nat := (List.range 16).filter (fun s => h.exists s)

/-- Write a program's copy to a slice store. -/
def Hw.putCopy (h : Hw) (s n : Nat) (c : ProgCopy) : Hw := { h with car.progCopies := Table.put h.car.progCopies (s * 128 + n) c }

/-- COMMIT (R165, R166): the load checks make the program VALID, with its digest and a copy in every slice store, or
REJECTED. -/
def Hw.progCommit (h : Hw) (a : Actor) (n : Nat) : Hw :=
  if h.reg Od.progState n ≠ 1 then h.ignore a Od.progCommand n Why.wrongState
  else
    let ws := (List.range (h.reg Od.progSteps n)).map (fun i => Table.look h.car.progSteps (n * 512 + i))
    let words := ws.map (fun (w : Option (BitVec 128)) => w.getD 0)
    let why := if ws.all (fun w => w.isSome) then loadCheck words else 7
    if why ≠ 0 then (h.setReg Od.progReject n why).setReg Od.progState n 3
    else
      let h := h.setReg Od.progDigest n (sha384Nat (words.flatMap stepBytes))
      let h := h.slices.foldl (fun h s => h.putCopy s n { steps := words, bind := h.reg Od.progBind n }) h
      h.setReg Od.progState n 2

/-- Is a launch of program `n` QUEUED or RUNNING. -/
def Hw.progLaunched (h : Hw) (n : Nat) : Bool :=
  h.car.engines.any (fun e => (e.2.queue ++ e.2.run.toList).any (fun l => l.prog == n))

/-- A record becomes EMPTY: copies removed, subs 03 to 0A cleared. -/
def Hw.progEmpty (h : Hw) (n : Nat) : Hw :=
  let h := h.dropSteps n
  let h := { h with car.progCopies := Table.drop h.car.progCopies (fun k => decide (k % 128 = n)) }
  let h := h.zeroRegs [Od.progBind, Od.progSteps, Od.progIndex, Od.progDigest, Od.progReject, Od.progLaunches, Od.progOwner] n
  h.setReg Od.progState n 0

/-- DELETE (R165). -/
def Hw.progDelete (h : Hw) (a : Actor) (n : Nat) : Hw :=
  if h.reg Od.progState n = 0 ∨ h.progLaunched n = true then h.ignore a Od.progCommand n Why.wrongState else h.progEmpty n

/-- A write of prog_step (R164): LOADING only; the word goes to prog_index, which rises by 1 up to 511. -/
def Hw.progStepWrite (h : Hw) (a : Actor) (n : Nat) (w : BitVec 128) : Hw :=
  if h.reg Od.progState n ≠ 1 then h.ignore a Od.progStep n Why.wrongState
  else
    let i := min 511 (h.reg Od.progIndex n)
    let h := { h with car.progSteps := Table.put h.car.progSteps (n * 512 + i) w }
    h.setReg Od.progIndex n (min 511 (i + 1))

/-- A good copy of a program: one whose digest checks. -/
def Hw.goodCopy (h : Hw) (n : Nat) : Option ProgCopy :=
  ((List.range 16).filterMap (fun s => (Table.look h.car.progCopies (s * 128 + n)).filter (fun c => c.valid))).head?

/-- PROGRAM_COPY_REPAIR (R167): firmware rewrites a missing or invalid copy of a VALID program from a good one. -/
def execProgramCopyRepair (stack : StackIx) (prog : Fin 128) (s : State) : Host.Outcome State Fault Refusal :=
  s.on (fun h =>
    let bad := match Table.look h.car.progCopies (stack.val * 128 + prog.val) with
      | some c => !c.valid
      | none => true
    if bad && h.exists stack && decide (h.reg Od.progState prog = 2) then
      match h.goodCopy prog with
      | some c => h.putCopy stack prog c
      | none => h
    else h)

end Sys2Proof.Machine
end

