-- ==== Sys2Proof/Machine/Caravan.lean ====
section
/-! DEFINITION. Caravan engines: launches, the operands of a step, control steps, waits, fences, ends and aborts
(R159 to R162, R168 to R174, R176 to R187). -/

namespace Sys2Proof.Machine

/-! ### Launches (R170, R171, R180) -/

/-- The launches at a slice's input, in arrival order. -/
def Hw.launches (h : Hw) (s : Nat) : List Launch := Table.atD h.car.launchIn (fun _ => []) s

/-- Queue length of an engine. -/
def Hw.engLen (h : Hw) (e : Nat) : Nat := (h.eng e).queue.length

/-- The engine that a launch's queue entry goes to: its own, or for Fh the one with the fewest entries, lowest first;
none when that queue is full. -/
def Hw.engineFor (h : Hw) (s : Nat) (l : Launch) : Option Nat :=
  let e := if l.engine < 4 then s * 4 + l.engine
    else (List.range 4).foldl (fun b i => if h.engLen (s * 4 + i) < h.engLen b then s * 4 + i else b) (s * 4)
  if h.engLen e < 64 then some e else none

/-- Armed descriptors whose range lies on stack `t`. -/
def Hw.armedAt (h : Hw) (t : Nat) : Nat :=
  (h.allDescs.filter (fun d => decide (d.2.kind ≠ 0) && decide (dpaStack d.2.base = t))).length

/-- Do a launch's descriptors find entries free in the pools of 64 of their slices (R169). -/
def Hw.descRoom (h : Hw) (l : Launch) : Bool :=
  (List.range 16).all (fun t =>
    let n := (l.descs.filter (fun d => decide (d.kind ≠ 0 ∧ dpaStack d.base = t))).length
    decide (n = 0 ∨ h.armedAt t + n ≤ 64))

/-- LAUNCH_QUEUE (R170): the oldest launch at the slice input whose queue has room takes an entry; its descriptors are armed
and its response leaves, mirrored where a pair is active (R252). One whose descriptors find no entries is ABORTED. -/
def execLaunchQueue (stack : StackIx) (s : State) : Host.Outcome State Fault Refusal :=
  s.on (fun h =>
    let st := stack.val
    match (h.launches st).find? (fun l => (h.engineFor st l).isSome) with
    | none => h
    | some l =>
      let e := (h.engineFor st l).getD 0
      let h := { h with car.launchIn := Table.setD h.car.launchIn (fun _ => []) st ((h.launches st).erase l) }
      if !h.descRoom l then
        match l.trk with
        | some uid => h.complete uid St.aborted
        | none => h
      else
        let arm (d : Desc) : Desc := if d.kind = 0 then d else { d with armedAt := some h.now, lines := [], expired := false }
        let l := { l with descs := l.descs.map arm, engine := e % 4, stack := st }
        let x := h.eng e
        let h := h.setEng e { x with queue := x.queue ++ [l] }
        let h := h.setReg Od.engQueue e (x.queue.length + 1)
        match l.trk with
        | some uid =>
          let m : Mirror := { seqNo := 0, kind := 2, requester := l.launcher.getD 0x8000, seq := some l.seq }
          (h.point uid 3).acceptWrite uid St.ok [] [] (if h.mirroring then some m else none)
        | none => h)

/-- LAUNCH_START (R171): the head of an idle engine's queue starts RUNNING, or ends with PROGRAM_INVALID when this slice has
no valid copy of its program. -/
def execLaunchStart (e : EngIx) (s : State) : Host.Outcome State Fault Refusal :=
  s.on (fun h =>
    let e := e.val
    let x := h.eng e
    match x.run, x.queue with
    | none, l :: rest =>
      let good := match Table.look h.car.progCopies (e / 4 * 128 + l.prog) with
        | some c => c.valid
        | none => false
      let h := h.setEng e { x with queue := rest }
      let h := h.setReg Od.engQueue e rest.length
      if !good then h.faultLaunch e l 0x0b 0
      else
        let h := h.setEng e
          { queue := rest, run := some l, regs := l.regs, startedAt := h.now, limit := h.reg Od.carRuntimeLimitMs }
        let h := h.addReg Od.progLaunches l.prog
        let h := h.setReg Od.engState e 1
        let h := h.setReg Od.engProgram e l.prog
        let h := h.setReg Od.engLauncher e (l.launcher.getD 0x8000)
        h.setReg Od.engStep e 0
    | _, _ => h)

/-! ### A running step -/

/-- Fault codes (R184). -/
def Cf.access : Nat := 1
def Cf.range : Nat := 2
def Cf.poison : Nat := 3
def Cf.format : Nat := 4
def Cf.session : Nat := 5
def Cf.waitTimeout : Nat := 6
def Cf.deadline : Nat := 7
def Cf.ingestAuth : Nat := 8
def Cf.key : Nat := 9
def Cf.runtime : Nat := 0x0a
def Cf.abort : Nat := 0x0d

/-- A step on its way: the state, the engine, its launch, the partitions of prog_bind, the registers, the next step's index,
a fault, and the line whose directory lookup makes the step wait (stack, line, whether it writes). -/
structure Run where
  h : Hw
  e : Nat
  l : Launch
  bind : Nat
  regs : List Nat
  next : Nat
  fault : Nat := 0
  stall : Option (Nat × Nat × Bool) := none
  deriving DecidableEq, Repr

/-- Does the step still go on. -/
def Run.ok (r : Run) : Bool := decide (r.fault = 0) && r.stall.isNone

/-- The step faults, unless it has already stopped. -/
def Run.stop (r : Run) (f : Nat) : Run := if r.ok then { r with fault := f } else r

/-- Register gi, and its change. -/
def Run.g (r : Run) (i : Nat) : Nat := r.regs.getD i 0
def Run.setG (r : Run) (i v : Nat) : Run := { r with regs := (List.range 16).map (fun k => if k = i then v % 2 ^ 64 else r.g k) }

/-- Change the engine. -/
def Run.modEng (r : Run) (f : Engine → Engine) : Run := { r with h := r.h.setEng r.e (f (r.h.eng r.e)) }

/-- Bytes of an engine's staging. -/
def stagingSize : Nat := 5242880

/-- Is `a` an address in staging. -/
def inStage (a : Nat) : Bool := decide (a / 2 ^ 61 = 1)

/-- What an access of `len` bytes at address `a` meets: 0, ACCESS or RANGE (R160, R161). -/
def Run.check (r : Run) (a len : Nat) : Nat :=
  let x := a % 2 ^ 41
  if a / 2 ^ 41 % 2 ^ 20 ≠ 0 ∨ 1 < a / 2 ^ 61 % 8 then Cf.range
  else if inStage a then (if stagingSize < x + len then Cf.range else 0)
  else
    match r.h.partOf (dpaStack x) with
    | none => Cf.access
    | some p =>
      let st := r.h.reg Od.partState p
      if r.bind.testBit p ∧ (st = 3 ∨ st = 4) ∧ dpaOff x + len ≤ r.h.visibleEnd p (dpaStack x) then 0 else Cf.access

/-- An operand's alignment, in bytes: a misaligned one faults with RANGE. -/
def Run.aligned (r : Run) (a n : Nat) : Run := if a % n = 0 then r else r.stop Cf.range

/-- The step needs [a, a + len) valid. -/
def Run.valid (r : Run) (a len : Nat) : Run :=
  match r.check a len with
  | 0 => r
  | f => r.stop f

/-- The lines of a stack whose full fan-out the waiting step has had (R151, R152). -/
def Run.gathered (r : Run) (s : Nat) : List Nat :=
  match (r.h.dirWaiting (r.h.dirStack s)).find? (fun p => p.source == r.e + 1 && p.stack == s) with
  | some p => p.gathered
  | none => []

/-- Pass the directory with lines [lo, hi] of stack `s` of a coherent partition (R152): lines that are LOST, the step. -/
def Run.coherent (r : Run) (s lo hi : Nat) (ask : Nat → Ask) (wr : Bool) : List Nat × Run :=
  if !r.h.coherent (r.h.partOf s) then ([], r)
  else
    (List.range (hi + 1 - lo)).foldl (fun (a : List Nat × Run) i =>
      let r := a.2
      if !r.ok then a
      else
        let line := lo + i
        let (look, h) := r.h.lookLine s line (ask line) ((r.gathered s).contains line)
        match look with
        | .pass => (a.1, { r with h := h })
        | .lost => (a.1 ++ [line], { r with h := h })
        | .wait => (a.1, { r with stall := some (s, line, wr) })) ([], r)

/-- Read bytes: data, a poison flag per 64 B line. -/
def Run.read (r : Run) (a len : Nat) : List Byte × List Bool × Run :=
  let r := r.valid a len
  let x := a % 2 ^ 41
  if !r.ok then ([], [], r)
  else if inStage a then
    ((List.range len).map (fun i => Table.atD r.h.car.staging (fun _ => 0) (r.e * 2 ^ 23 + x + i)), [], r)
  else
    let s := dpaStack x
    let o := dpaOff x
    let lo := o / 64
    let (lost, r) := r.coherent s lo ((o + len - 1) / 64) (fun _ => .engineRead) false
    if !r.ok then ([], [], r)
    else
      let (data, psn, h) := r.h.readBytes s o len r.l.launcher 1
      (data, psn.zipIdx.map (fun p => p.1 || lost.contains (lo + p.2)), { r with h := h })

/-- Read bytes that must not be poisoned. -/
def Run.readClean (r : Run) (a len : Nat) : List Byte × Run :=
  let (data, psn, r) := r.read a len
  if psn.any id then (data, r.stop Cf.poison) else (data, r)

/-- Reads that no PULL holds any more enter the read path (R181). -/
def Hw.releaseHolds (h : Hw) : Hw :=
  let out := h.sl.holds.filter (fun p => !h.isHeld p)
  let h := { h with sl.holds := h.sl.holds.filter (fun p => h.isHeld p) }
  out.foldl (fun h p => h.placeRead p) h

/-- A PULL takes the lines that a write of its launch covers whole (R181). -/
def Desc.pullDeliver (d : Desc) (dpa len : Nat) : Desc :=
  if d.kind = 1 ∧ d.armedAt.isSome ∧ !d.expired then
    let whole := (List.range (d.size * 64)).filter (fun i => decide (dpa ≤ d.base + 64 * i ∧ d.base + 64 * i + 64 ≤ dpa + len))
    { d with lines := whole.foldl (fun t i => Table.put t i true) d.lines }
  else d

/-- A MEM write of an engine's launch has been accepted: its PULL descriptors see it. -/
def Hw.pullWrite (h : Hw) (e dpa len : Nat) : Hw :=
  let x := h.eng e
  let f (l : Launch) : Launch := l.onDescs (fun _ d => d.pullDeliver dpa len)
  (h.setEng e { x with run := x.run.map f }).releaseHolds

/-- Write staging bytes, from key `base` on. -/
def Hw.putStaging (h : Hw) (base : Nat) (data : List Byte) : Hw :=
  { h with car.staging := data.zipIdx.foldl (fun (t : Table Byte) (p : Byte × Nat) => Table.setD t (fun _ => 0) (base + p.2) p.1) h.car.staging }

/-- Write bytes; `psn`: poison marks per 64 B line. -/
def Run.write (r : Run) (a : Nat) (data : List Byte) (psn : List Bool := []) : Run :=
  let len := data.length
  let r := r.valid a len
  let x := a % 2 ^ 41
  if !r.ok ∨ len = 0 then r
  else if inStage a then
    { r with h := r.h.putStaging (r.e * 2 ^ 23 + x) data }
  else
    let s := dpaStack x
    let o := dpaOff x
    let whole (line : Nat) : Bool := decide (o ≤ line * 64 ∧ line * 64 + 64 ≤ o + len)
    let (_, r) := r.coherent s (o / 64) ((o + len - 1) / 64) (fun line => .engineWrite (whole line)) true
    if !r.ok then r
    else
      let ks := sectorsOf s (r.h.physical s o) len
      let h := r.h.writeBytes s o data (List.replicate len true) psn { cls := r.l.cls, attr := r.l.launcher }
      let h := h.pullWrite r.e x len
      { r with h := h }.modEng (fun y => { y with touched := (y.touched ++ ks).dedup })

/-- Advance register `i` by `n` bytes where the step's flag says so: leaving the space faults with RANGE (R175). -/
def Run.advance (r : Run) (flag : Bool) (i n : Nat) : Run :=
  if !flag ∨ !r.ok then r
  else
    let a := r.g i
    let lim := if inStage a then stagingSize else 2 ^ 41
    if lim ≤ a % 2 ^ 41 + n then r.stop Cf.range else r.setG i (a + n)

/-- Cut `len` bytes into units of 256 B: (offset, length). -/
def units (len : Nat) : List (Nat × Nat) :=
  (List.range ((len + 255) / 256)).map (fun i => (i * 256, min 256 (len - i * 256)))

/-- The running step of engine `e`, when its opcode is `op`. -/
def Hw.stepNow (h : Hw) (e op : Nat) : Option (Launch × BitVec 128) :=
  let x := h.eng e
  match x.run, x.wait with
  | some l, none =>
    match (Table.look h.car.progCopies (e / 4 * 128 + l.prog)).bind (fun c => c.steps[x.pc]?) with
    | some w => if stepOp w = op then some (l, w) else none
    | none => none
  | _, _ => none

/-- A step that waits for a line: the snoops go out, and its access waits in the list (R152). -/
def Hw.stallStep (h : Hw) (e s line : Nat) (wr : Bool) : Hw :=
  let ds := h.dirStack s
  let old := (h.dirWaiting ds).find? (fun p => p.source == e + 1 && p.stack == s)
  let g := match old with
    | some p => p.gathered
    | none => []
  let fresh := (h.findWay s line).isNone && (h.invalidWay s line).isSome
  let (_, h) := h.lookLine s line (if wr then .engineWrite true else .engineRead) (g.contains line)
  let h := h.dropEngWait e
  let piece : Piece := { trk := 0, op := 0, stack := s, off := line * 64, dpa := dpaOf s (line * 64), len := 64, source := e + 1, gathered := g }
  -- a fan-out that ended at once has been done
  let piece := if fresh && (h.findWay s line).isNone then { piece with gathered := g ++ [line] } else piece
  h.setDirWaiting ds (h.dirWaiting ds ++ [piece])

/-- End of a step: it waits for a line, faults its launch, or hands over to the next one. -/
def Hw.endStep (h : Hw) (r : Run) : Hw :=
  match r.stall with
  | some (s, line, wr) => h.stallStep r.e s line wr
  | none =>
    if r.fault ≠ 0 then r.h.faultRunning r.e r.fault
    else
      let h := r.h.dropEngWait r.e
      let x := h.eng r.e
      let h := h.setEng r.e { x with regs := r.regs, pc := r.next }
      (h.setReg Od.engStep r.e r.next).countSel 0x0d r.e

/-- Run the step of engine `e` if it is an `op` that `p` accepts. -/
def Hw.runStep (h : Hw) (e op : Nat) (p : BitVec 128 → Bool) (f : BitVec 128 → Run → Run) : Hw :=
  match h.stepNow e op with
  | some (l, w) =>
    if p w then
      let bind := match Table.look h.car.progCopies (e / 4 * 128 + l.prog) with
        | some c => c.bind
        | none => 0
      let x := h.eng e
      h.endStep (f w { h := h, e := e, l := l, bind := bind, regs := x.regs, next := x.pc + 1 })
    else h
  | none => h

/-- Any step of the opcode. -/
def anyWord (_ : BitVec 128) : Bool := true

/-! ### Control steps (R175, R176) -/

/-- SETI. -/
def execSeti (e : EngIx) (s : State) : Host.Outcome State Fault Refusal :=
  s.on (fun h => h.runStep e 0x10 anyWord (fun w r => r.setG (stepA w) (wf w 0 64)))

/-- ADDI. -/
def execAddi (e : EngIx) (s : State) : Host.Outcome State Fault Refusal :=
  s.on (fun h => h.runStep e 0x11 anyWord (fun w r => r.setG (stepA w) (r.g (stepB w) + wf w 0 64)))

/-- LOOP (R176): idle reads as no entry; the counter holds the passes left. -/
def execLoop (e : EngIx) (s : State) : Host.Outcome State Fault Refusal :=
  s.on (fun h => h.runStep e 0x12 anyWord (fun w r =>
    let x := r.h.eng r.e
    let i := x.pc
    let ctr := (Table.look x.loops i).getD (stepN w - 1)
    if 0 < ctr then { r with next := wf w 0 9 }.modEng (fun y => { y with loops := Table.put y.loops i (ctr - 1) })
    else r.modEng (fun y => { y with loops := Table.del y.loops i })))

/-! ### Flags and notices (R172, R177) -/

/-- Counting flag `k` of the partition that holds stack `s`. -/
def Hw.flag (h : Hw) (s k : Nat) : Nat :=
  match h.partOf s with
  | some p => h.elem Od.caravanFlags p k
  | none => 0

/-- Store a counting flag. -/
def Hw.setFlag (h : Hw) (s k v : Nat) : Hw :=
  match h.partOf s with
  | some p => h.setElem Od.caravanFlags p k v
  | none => h

/-- SIGNAL FLAG: adds 1, saturating at FFFFh. -/
def execSignalFlag (e : EngIx) (s : State) : Host.Outcome State Fault Refusal :=
  s.on (fun h => h.runStep e 0x19 (fun w => decide (wf w 76 4 = 0)) (fun w r =>
    let k := wf w 0 6
    { r with h := r.h.setFlag (r.e / 4) k (min 0xffff (r.h.flag (r.e / 4) k + 1)) }))

/-- SIGNAL NOTICE: one CARAVAN_NOTE with the value of ga. -/
def execSignalNotice (e : EngIx) (s : State) : Host.Outcome State Fault Refusal :=
  s.on (fun h => h.runStep e 0x19 (fun w => decide (wf w 76 4 = 1)) (fun w r =>
    { r with h := r.h.launchNotice r.l 0x0c St.ok 0 (r.h.eng r.e).pc 0 (r.g (stepA w)) }))

/-! ### Waits (R177) -/

/-- Is a chunk of a session finalized. -/
def Hw.chunkDone (h : Hw) (n c : Nat) : Bool :=
  match Table.look (h.ses n).chunks c with
  | some k => decide (k.st = .final ∨ k.st = .partialSum)
  | none => false

/-- Has a wait its condition. -/
def Hw.waitMet (h : Hw) (e : Nat) (l : Launch) (w : WaitOn) : Bool :=
  match w.kind with
  | 0 => decide (1 ≤ h.flag (e / 4) w.arg)
  | 1 => match l.descs[w.arg]? with
    | some d => decide (d.kind = 2) && (List.range (d.size * 64)).all (fun i => (Table.look d.lines i).getD false)
    | none => false
  | _ => (List.range w.count).all (fun i => h.chunkDone w.arg (w.chunk + i))

/-- Does a CHUNK wait meet a session that cannot bring its chunks: closed unfinalized, or bound outside prog_bind. -/
def Hw.waitLost (h : Hw) (w : WaitOn) (bind : Nat) : Bool :=
  decide (w.kind = 2) && (!bind.testBit (h.reg Od.redPartition w.arg) ||
    (!(decide (h.reg Od.redState w.arg = 1 ∨ h.reg Od.redState w.arg = 2)) &&
      !(List.range w.count).all (fun i => h.chunkDone w.arg (w.chunk + i))))

/-- A wait ends normally: a flag falls by 1, the outcome register of CONTINUE becomes 0, the program goes on. -/
def Hw.waitEnds (h : Hw) (e : Nat) (w : WaitOn) (out : Nat) : Hw :=
  let x := h.eng e
  let regs := match w.cont with
    | some i => (List.range 16).map (fun k => if k = i then out else x.regs.getD k 0)
    | none => x.regs
  let h := h.setEng e { x with wait := none, regs := regs, pc := x.pc + 1 }
  let h := if w.kind = 0 ∧ out = 0 then h.setFlag (e / 4) w.arg (h.flag (e / 4) w.arg - 1) else h
  let h := h.setReg Od.engState e 1
  (h.setReg Od.engStep e (x.pc + 1)).countSel 0x0d e

/-- The partitions a launch may touch, by its slice's copy. -/
def Hw.bindOf (h : Hw) (e : Nat) (l : Launch) : Nat :=
  match Table.look h.car.progCopies (e / 4 * 128 + l.prog) with
  | some c => c.bind
  | none => 0

/-- A WAIT begins: it ends at once when its condition holds, faults when its session is lost, else the engine is WAITING. -/
def Hw.startWait (h : Hw) (e kind : Nat) (arg : BitVec 128 → Nat) : Hw :=
  match h.stepNow e 0x18 with
  | some (l, w) =>
    if wf w 76 4 ≠ kind then h
    else
      let x := h.eng e
      let on : WaitOn :=
        { kind := kind, arg := arg w, since := h.now, timeout := wf w 56 20,
          chunk := if kind = 2 then x.regs.getD (stepB w) 0 % 2 ^ 32 else 0, count := if kind = 2 then wf w 24 16 else 0,
          cont := if stepFlag w 0 then some (stepD w) else none }
      if h.waitLost on (h.bindOf e l) then h.faultRunning e Cf.session
      else if h.waitMet e l on then h.waitEnds e on 0
      else (h.setEng e { x with wait := some on }).setReg Od.engState e 2
  | none => h

/-- WAIT FLAG. -/
def execWaitFlag (e : EngIx) (s : State) : Host.Outcome State Fault Refusal := s.on (fun h => h.startWait e 0 (fun w => wf w 0 6))

/-- WAIT PUSH. -/
def execWaitPush (e : EngIx) (s : State) : Host.Outcome State Fault Refusal := s.on (fun h => h.startWait e 1 (fun w => wf w 0 2))

/-- WAIT CHUNK. -/
def execWaitChunk (e : EngIx) (s : State) : Host.Outcome State Fault Refusal := s.on (fun h => h.startWait e 2 (fun w => wf w 40 8))

/-- WAIT_END (R177): the condition of a WAITING engine holds, or its session is lost. -/
def execWaitEnd (e : EngIx) (s : State) : Host.Outcome State Fault Refusal :=
  s.on (fun h =>
    match (h.eng e).run, (h.eng e).wait with
    | some l, some w =>
      if h.waitLost w (h.bindOf e l) then h.faultRunning e Cf.session
      else if h.waitMet e l w then h.waitEnds e w 0
      else h
    | _, _ => h)

/-- Has the push descriptor of a wait passed its deadline. -/
def Hw.waitDeadline (h : Hw) (l : Launch) (w : WaitOn) : Bool :=
  decide (w.kind = 1) && match l.descs[w.arg]? with
    | some d => d.expired || (match d.armedAt with | some t => decide (d.kind = 2 ∧ t + d.deadline * 1000 ≤ h.now) | none => false)
    | none => false

/-- WAIT_TIMEOUT (R177): the timeout, or a push descriptor's deadline, passes: a fault, or under CONTINUE the outcome 1. -/
def execWaitTimeout (e : EngIx) (s : State) : Host.Outcome State Fault Refusal :=
  s.on (fun h =>
    match (h.eng e).run, (h.eng e).wait with
    | some l, some w =>
      let late := h.waitDeadline l w
      if h.waitMet e l w || !(late || decide (w.since + w.timeout * 1000 ≤ h.now)) then h
      else if w.cont.isSome then h.waitEnds e w 1
      else h.faultRunning e (if late then Cf.deadline else Cf.waitTimeout)
    | _, _ => h)

/-! ### Fences and ends (R171, R179, R183) -/

/-- Are contributions of an engine's launch on their way. -/
def Hw.engContributes (h : Hw) (e : Nat) : Bool := h.red.accIn.any (fun q => q.2.any (fun p => p.source == e + 1))

/-- FENCE (R179): it completes when what earlier steps wrote and contributed is accepted; with EVICT their sectors are forced
out, and it completes when the last of their column commands is released. -/
def execFence (e : EngIx) (s : State) : Host.Outcome State Fault Refusal :=
  s.on (fun h =>
    match h.stepNow e 0x1a with
    | some (l, w) =>
      let ks := (h.eng e).touched
      let h := if stepFlag w 0 then h.forceOut ks l.cls else h
      if h.engContributes e || (stepFlag w 0 && ks.any (fun k => h.evicting k)) then h
      else h.runStep e 0x1a anyWord (fun _ r => r.modEng (fun y => { y with touched := [] }))
    | none => h)

/-- END (R171, R179): after its fence the launch is DONE; its descriptors are disarmed and CARAVAN_DONE goes out. -/
def execEndStep (e : EngIx) (s : State) : Host.Outcome State Fault Refusal :=
  s.on (fun h =>
    let e := e.val
    match h.stepNow e 0x1f with
    | some (l, w) =>
      if h.engContributes e then h
      else
        let pc := (h.eng e).pc
        let h := h.countSel 0x0d e
        let h := l.descs.foldl (fun h d => h.abortHeld d) h
        ((h.launchNotice l 0x09 St.ok 0 pc (wf w 0 8) 0).mirrorLaunchEnd l).idleEngine e
    | none => h)

/-- RUNTIME_LIMIT (R184): a launch RUNNING longer than the limit it started under. -/
def execRuntimeLimit (e : EngIx) (s : State) : Host.Outcome State Fault Refusal :=
  s.on (fun h =>
    let x := h.eng e
    if x.run.isSome ∧ x.startedAt + x.limit * 1000000 < h.now then h.faultRunning e Cf.runtime else h)

/-- ABORT_RUNNING (R185). -/
def Hw.abortRunning (h : Hw) (e : Nat) : Hw := h.faultRunning e Cf.abort

/-- ABORT_ALL (R185). -/
def Hw.abortAll (h : Hw) (e : Nat) : Hw := h.faultEngine e Cf.abort (fun _ => true)

/-- Descriptor `i` of a launch reaches its deadline. -/
def Hw.passDeadline (h : Hw) (l : Launch) (i : Nat) : Bool :=
  match l.descs[i]? with
  | some d => decide (d.kind ≠ 0) && !d.expired && (match d.armedAt with | some t => decide (t + d.deadline * 1000 ≤ h.now) | none => false)
  | none => false

/-- DESCRIPTOR_DEADLINE (R183): held reads of a PULL complete with ABORTED, the descriptor disarms; a PULL of the running
launch sends one CARAVAN_DEADLINE notice. -/
def execDescriptorDeadline (e : EngIx) (desc : Fin 4) (s : State) : Host.Outcome State Fault Refusal :=
  s.on (fun h =>
    let e := e.val
    let i := desc.val
    let x := h.eng e
    let late := (x.queue ++ x.run.toList).filter (fun l => h.passDeadline l i)
    let h := late.foldl (fun h l => match l.descs[i]? with | some d => h.abortHeld d | none => h) h
    let x := h.eng e
    let mark (l : Launch) : Launch :=
      if h.passDeadline l i then { l with descs := l.descs.zipIdx.map (fun p => if p.2 = i then { p.1 with expired := true } else p.1) }
      else l
    let note := match x.run with
      | some l => if h.passDeadline l i && (match l.descs[i]? with | some d => decide (d.kind = 1) | none => false) then some l else none
      | none => none
    let h := h.setEng e { x with queue := x.queue.map mark, run := x.run.map mark }
    match note with
    | some l => h.launchNotice l 0x0b St.ok 0 x.pc 0 0
    | none => h)

end Sys2Proof.Machine
end

