-- ==== Sys2Proof/Machine/CaravanSteps.lean ====
section
/-! DEFINITION. Caravan steps that copy, fill, digest, compare and pack bytes, and INGEST (R175, R184, R281, R282). -/

namespace Sys2Proof.Machine

/-! ### Copies -/

/-- Copy `len` bytes in units of 256 B. -/
def Run.copy (r : Run) (src dst len : Nat) (pass : Bool) : Run :=
  (units len).foldl (fun r u =>
    if !r.ok then r
    else
      let (data, psn, r) := r.read (src + u.1) u.2
      let r := if psn.any id && !pass then r.stop Cf.poison else r
      r.write (dst + u.1) data psn) r

/-- MOVE. -/
def execMove (e : EngIx) (s : State) : Host.Outcome State Fault Refusal :=
  s.on (fun h => h.runStep e 0x01 anyWord (fun w r =>
    let n := stepN w * 64
    let a := r.g (stepA w)
    let b := r.g (stepB w)
    let r := ((r.aligned a 64).aligned b 64).copy a b n (stepFlag w 2)
    (r.advance (stepFlag w 0) (stepA w) n).advance (stepFlag w 1) (stepB w) n))

/-- The index list of a GATHER or SCATTER: U32 little-endian entries in STAGE. -/
def Run.indices (r : Run) (a n : Nat) : List Nat × Run :=
  let r := if inStage a then r.aligned a 4 else r.stop Cf.range
  let (data, r) := r.readClean a (4 * n)
  ((List.range n).map (fun i => leAt data (4 * i) 4), r)

/-- GATHER: record i comes from ga + idx_i × record. -/
def execGather (e : EngIx) (s : State) : Host.Outcome State Fault Refusal :=
  s.on (fun h => h.runStep e 0x02 anyWord (fun w r =>
    let n := stepN w
    let len := (wf w 48 8 + 1) * 64
    let a := r.g (stepA w)
    let b := r.g (stepB w)
    let (idx, r) := ((r.aligned a 64).aligned b 64).indices (r.g (stepC w)) n
    let r := idx.zipIdx.foldl (fun r p => r.copy (a + p.1 * len) (b + p.2 * len) len (stepFlag w 2)) r
    r.advance (stepFlag w 1) (stepB w) (n * len)))

/-- SCATTER: record i goes to gb + idx_i × record, in ascending i. -/
def execScatter (e : EngIx) (s : State) : Host.Outcome State Fault Refusal :=
  s.on (fun h => h.runStep e 0x03 anyWord (fun w r =>
    let n := stepN w
    let len := (wf w 48 8 + 1) * 64
    let a := r.g (stepA w)
    let b := r.g (stepB w)
    let (idx, r) := ((r.aligned a 64).aligned b 64).indices (r.g (stepC w)) n
    let r := idx.zipIdx.foldl (fun r p => r.copy (a + p.2 * len) (b + p.1 * len) len (stepFlag w 2)) r
    r.advance (stepFlag w 0) (stepA w) (n * len)))

/-- TILE: rows of columns × width bytes between two pitches. -/
def execTile (e : EngIx) (s : State) : Host.Outcome State Fault Refusal :=
  s.on (fun h => h.runStep e 0x0b anyWord (fun w r =>
    let row := (wf w 56 12 + 1) * scalarWidth (stepIn w)
    let a := r.g (stepA w)
    let b := r.g (stepB w)
    (List.range (wf w 68 12 + 1)).foldl (fun r i => r.copy (a + i * wf w 36 20) (b + i * wf w 16 20) row false)
      ((r.aligned a 64).aligned b 64)))

/-- FILL: the 64-bit pattern of gc, least significant byte first. -/
def execFill (e : EngIx) (s : State) : Host.Outcome State Fault Refusal :=
  s.on (fun h => h.runStep e 0x07 anyWord (fun w r =>
    let n := stepN w * 64
    let b := r.g (stepB w)
    let pat := natBytes (r.g (stepC w)) 8
    let r := (units n).foldl (fun r u => r.write (b + u.1) ((List.replicate (u.2 / 8) pat).flatten)) (r.aligned b 64)
    r.advance (stepFlag w 1) (stepB w) n))

/-- DELTA: destination = new XOR old. -/
def execDelta (e : EngIx) (s : State) : Host.Outcome State Fault Refusal :=
  s.on (fun h => h.runStep e 0x09 anyWord (fun w r =>
    let n := stepN w * 64
    let a := r.g (stepA w)
    let b := r.g (stepB w)
    let c := r.g (stepC w)
    let r := (units n).foldl (fun r u =>
      let (x, r) := r.readClean (a + u.1) u.2
      let (y, r) := r.readClean (c + u.1) u.2
      r.write (b + u.1) (xorBytes x y)) (((r.aligned a 64).aligned b 64).aligned c 64)
    ((r.advance (stepFlag w 0) (stepA w) n).advance (stepFlag w 1) (stepB w) n).advance (stepFlag w 5) (stepC w) n))

/-! ### PACKZ -/

/-- Pack one group of 32 KiB: a mask line, then the lines that are not zero. -/
def packGroup (data : List Byte) : List Byte :=
  let lines := chunksOf 64 512 data
  let keep := lines.map (fun l => l.any (fun b => b != 0))
  let mask := keep.zipIdx.foldl (fun (m : Nat) p => if p.1 then m + 2 ^ p.2 else m) 0
  natBytes mask 64 ++ ((lines.zip keep).filter (fun p => p.2)).flatMap (fun p => p.1)

/-- Lay out the lines of a packed group by its mask. -/
def expandGroup (mask : Nat) (data : List Byte) : List Byte :=
  ((List.range 512).foldl (fun (a : List (List Byte) × Nat) j =>
    if mask.testBit j then (a.1 ++ [(data.drop (64 * a.2)).take 64], a.2 + 1) else (a.1 ++ [List.replicate 64 0], a.2)) ([], 0)).1.flatten

/-- PACKZ, and with EXPAND its inverse; gd receives the packed byte count. -/
def execPackz (e : EngIx) (s : State) : Host.Outcome State Fault Refusal :=
  s.on (fun h => h.runStep e 0x0a anyWord (fun w r =>
    let n := stepN w * 64
    let a := r.g (stepA w)
    let b := r.g (stepB w)
    let expand := stepFlag w 6
    -- bytes consumed, bytes produced
    let (used, made, r) := (List.range (n / 32768)).foldl (fun (t : Nat × Nat × Run) _ =>
      let (used, made, r) := t
      if !r.ok then t
      else if expand then
        let (m, r) := r.readClean (a + used) 64
        let mask := bytesNat m
        let k := 64 * ((List.range 512).filter (fun j => mask.testBit j)).length
        let (data, r) := r.readClean (a + used + 64) k
        (used + 64 + k, made + 32768, r.write (b + made) (expandGroup mask data))
      else
        let (data, r) := r.readClean (a + used) 32768
        let out := packGroup data
        (used + 32768, made + out.length, r.write (b + made) out)) (0, 0, (r.aligned a 64).aligned b 64)
    let r := (r.advance (stepFlag w 0) (stepA w) used).advance (stepFlag w 1) (stepB w) made
    if r.ok then r.setG (stepD w) (if expand then used else made) else r))

/-! ### Digests (R175) -/

/-- A digest context of the engine. -/
def Run.ctx (r : Run) (i : Nat) : List Byte := (r.h.eng r.e).sha.getD i []

/-- Store a digest context. -/
def Run.setCtx (r : Run) (i : Nat) (d : List Byte) : Run := r.modEng (fun x => { x with sha := x.sha.set i d })

/-- A digest context after its FINAL: what further data would make of it is left open, so it holds a free value. -/
def Run.closeCtx (r : Run) (i : Nat) : Run :=
  let (v, h) := r.h.draw 64
  { r with h := h }.setCtx i (natBytes v.toNat 8)

/-- Read `len` bytes in units of 256 B; none may be poisoned. -/
def Run.stream (r : Run) (a len : Nat) : List Byte × Run :=
  (units len).foldl (fun (t : List Byte × Run) u =>
    if !t.2.ok then t
    else
      let (x, r) := t.2.readClean (a + u.1) u.2
      (t.1 ++ x, r)) ([], r)

/-- DIGEST: INIT resets the context, FINAL writes the 48 B digest and 16 zero bytes to gb. -/
def execDigest (e : EngIx) (s : State) : Host.Outcome State Fault Refusal :=
  s.on (fun h => h.runStep e 0x08 anyWord (fun w r =>
    let n := stepN w * 64
    let a := r.g (stepA w)
    let i := wf w 0 2
    let r := if n = 0 then r else r.aligned a 64
    let r := if stepFlag w 4 then r.aligned (r.g (stepB w)) 64 else r
    let r := if stepFlag w 3 then r.setCtx i [] else r
    let (data, r) := r.stream a n
    let r := if r.ok then r.setCtx i (r.ctx i ++ data) else r
    let r := if stepFlag w 4 then
        let r := r.write (r.g (stepB w)) (sha384 (r.ctx i) ++ List.replicate 16 0)
        if r.ok then r.closeCtx i else r
      else r
    r.advance (stepFlag w 0) (stepA w) n))

/-! ### INGEST (R280 to R282) -/

/-- The partition of an operand: that of its stack, or of the engine's own stack for staging. -/
def Run.partAt (r : Run) (a : Nat) : Option Nat := r.h.partOf (if inStage a then r.e / 4 else dpaStack (a % 2 ^ 41))

/-- The plaintext of the last `n` bytes of a GCM stream, and the tag over all of it; a stream with no INIT leaves both
open. -/
def Hw.gcmOf (h : Hw) (key : List Byte) (g : Option Gcm) (n : Nat) : List Byte × List Byte × Hw :=
  match g with
  | some g =>
    let (plain, tag) := gcmDec key g.iv g.aad g.text
    (plain.drop (g.text.length - n), tag, h)
  | none =>
    let (v, h) := h.draw (8 * n)
    let (t, h) := h.draw 128
    (natBytes v.toNat n, natBytes t.toNat 16, h)

/-- A FINAL whose tag checks extends the weight digest and the weight log of partition `p` (R282). -/
def Hw.foldWeight (h : Hw) (p tensor : Nat) (stream : List Byte) : Hw :=
  let d := sha384 stream
  let id := natBytes tensor 8
  let h := h.setReg Od.secWeightDigest p (sha384Nat (natBytes (h.reg Od.secWeightDigest p) 48 ++ id ++ d))
  let slot := h.reg Od.secWeightCount p % 1024
  let h := h.addReg Od.secWeightCount p
  let entry := id ++ d ++ natBytes (h.reg Od.secWeightCount p) 4 ++ List.replicate 4 0
  { h with car.weightLog := Table.put h.car.weightLog (p * 1024 + slot) (BitVec.ofNat 512 (bytesNat entry)) }

/-- INGEST: decrypts, writes the plaintext to gb, absorbs it; FINAL checks the tag and extends the weight digest, or fills the
destination with zeros and faults with INGEST_AUTH (R184). -/
def execIngest (e : EngIx) (s : State) : Host.Outcome State Fault Refusal :=
  s.on (fun h => h.runStep e 0x0e anyWord (fun w r =>
    let n := stepN w * 64
    let a := r.g (stepA w)
    let b := r.g (stepB w)
    let c := r.g (stepC w)
    let i := wf w 8 2
    let slot := wf w 0 8
    let r := ((r.aligned a 64).aligned b 64).aligned c 64
    let r := if inStage c then r else r.stop Cf.range
    let (blk, r) := r.readClean c 64
    let r := if bytesNat (blk.drop 36) = 0 then r else r.stop Cf.range
    let part := r.partAt b
    let r := match part with
      | some p => if r.h.reg Od.wkPartition slot = p ∧ (Table.look r.h.car.weightKeys slot).isSome then r else r.stop Cf.key
      | none => r.stop Cf.key
    let key := bytesOf (Table.atD r.h.car.weightKeys (fun _ => 0) slot) 32
    let r := if stepFlag w 3 then
        let fresh : Gcm := { iv := blk.take 12, aad := (blk.drop 28).take 8 }
        (r.setCtx i []).modEng (fun x => { x with gcm := x.gcm.set i (some fresh) })
      else r
    let (text, r) := r.stream a n
    if !r.ok then r
    else
      let g := ((r.h.eng r.e).gcm.getD i none).map (fun (g : Gcm) => { g with text := g.text ++ text })
      let (plain, tag, h) := r.h.gcmOf key g n
      let r := { r with h := h }.modEng (fun x => { x with gcm := x.gcm.set i g })
      let bad := stepFlag w 4 && tag != (blk.drop 12).take 16
      let out := if bad then List.replicate n 0 else plain
      let r := (units n).foldl (fun r u => r.write (b + u.1) ((out.drop u.1).take u.2)) r
      if bad then r.stop Cf.ingestAuth
      else
        let r := if r.ok then r.setCtx i (r.ctx i ++ plain) else r
        let r := if stepFlag w 4 && r.ok then
            { r with h := r.h.foldWeight (part.getD 0) (leAt blk 28 8) (r.ctx i) }.closeCtx i
          else r
        (r.advance (stepFlag w 0) (stepA w) n).advance (stepFlag w 1) (stepB w) n))

end Sys2Proof.Machine
end

