-- ==== Sys2Proof/Machine/CaravanArith.lean ====
section
/-! DEFINITION. Arithmetic steps: CONVERT, ACCUM, AXPBY, MOMENT, with guards and format counters (R194, R198 to R214). -/

namespace Sys2Proof.Machine

/-! ### Format counters (R213, R214) -/

/-- Count what a conversion did for partition `p`; GUARD_EXHAUSTED crosses after fmt_exhaust_threshold more. -/
def Hw.countFmt (h : Hw) (p : Option Nat) (c : FmtCount) : Hw :=
  match p with
  | none => h
  | some p =>
    let h := h.addReg Od.fmtEscapes p c.escapes
    let h := h.addReg Od.fmtExhausted p c.exhausted
    let h := h.addReg Od.fmtPoisoned p c.poisoned
    let h := h.addReg Od.fmtSaturated p c.saturated
    let h := h.addReg Od.fmtNonfinite p c.nonfinite
    let total := h.reg Od.fmtExhausted p
    let risen := (total + 2 ^ 64 - Table.atD h.car.fmtBase (fun _ => 0) p % 2 ^ 64) % 2 ^ 64
    if c.exhausted ≠ 0 ∧ h.reg Od.fmtExhaustThreshold p ≤ risen then
      h.cross (0x90 + p) { kind := 0x16, part := some p, payload := packFields [(64, total)] }
    else h

/-! ### Guard descriptors (R198) -/

/-- A guard descriptor as a step holds it, with the group number of the step's first group. -/
structure GuardAt where
  at_ : Nat
  fmt : Nat
  side : Nat
  guard : Guard
  first : Nat
  deriving DecidableEq, Repr

/-- Bytes of a slot. -/
def slotSize (fmt : Nat) : Nat := if fmtBase fmt = 0x0d then 128 else 64

/-- Read the guard descriptor at `a` of the guarded stream that register value `v` addresses. -/
def Run.guardAt (r : Run) (a fmt v : Nat) : Option GuardAt × Run :=
  let r := if inStage a then r.aligned a 64 else r.stop Cf.range
  let (b, r) := r.readClean a 64
  let base := leAt b 0 8
  let side := leAt b 8 8
  let theta := leAt b 16 2
  let log := leAt b 18 1
  let fine := decide (1 ≤ theta ∧ 2 ≤ log ∧ log ≤ 6 ∧ leAt b 19 1 = 0 ∧ leAt b 36 28 = 0 ∧ side % 64 = 0)
  let g := groupBytes fmt
  let r := if fine && decide (base ≤ v ∧ (v - base) % g = 0) then r else r.stop Cf.range
  if r.ok then
    (some { at_ := a, fmt := fmt, side := side, guard := { theta := theta, slots := groupBlocks fmt / 2 ^ log }, first := (v - base) / g }, r)
  else (none, r)

/-- Address of slot `j` of the step's group number `q`. -/
def GuardAt.slot (g : GuardAt) (q j : Nat) : Nat := g.side + ((g.first + q) * g.guard.slots + j) * slotSize g.fmt

/-- Add to a 4 B count in staging. -/
def Hw.addStaged (h : Hw) (base n : Nat) : Hw :=
  let old := bytesNat ((List.range 4).map (fun i => Table.atD h.car.staging (fun _ => 0) (base + i)))
  h.putStaging base (natBytes ((old + n) % 2 ^ 32) 4)

/-- Add a step's counts to its guard descriptor, as far as it has come. -/
def Run.guardCounts (r : Run) (g : GuardAt) (c : FmtCount) : Run :=
  let at_ := r.e * 2 ^ 23 + g.at_ % 2 ^ 41
  let h := ((r.h.addStaged (at_ + 20) c.escapes).addStaged (at_ + 24) c.exhausted).addStaged (at_ + 28) c.poisoned
  { r with h := h.addStaged (at_ + 32) c.saturated }

/-! ### Streams -/

/-- Read group `q` of `j` blocks of a block stream, or `j` scalars: values, poisoned blocks. `at_`: where it begins. -/
def Run.readGroup (r : Run) (fmt : Nat) (g : Option GuardAt) (at_ q j : Nat) : List Val × Nat × Run :=
  if scalarWidth fmt ≠ 0 then
    let (b, r) := r.stream at_ (j * scalarWidth fmt)
    (decodeScalars fmt j b, 0, r)
  else
    let a := groupAreas fmt j
    let (b, r) := r.stream at_ (a.1 + a.2)
    let n := if fmtGuarded fmt then ((b.take j).filter (fun x => x == 0xfe)).length else 0
    match g with
    | none => let d := decodeGroup fmt j b []; (d.1, d.2, r)
    | some g =>
      let (slots, r) := (List.range (min n g.guard.slots)).foldl (fun (t : List (List Byte) × Run) k =>
        let (x, r) := t.2.readClean (g.slot q k) (slotSize fmt)
        (t.1 ++ [x], r)) ([], r)
      let d := decodeGroup fmt j b slots
      (d.1, d.2, r)

/-- Write values as group `q` of a block stream, or as scalars, from element index `base`: its counts. -/
def Run.writeGroup (r : Run) (fmt : Nat) (g : Option GuardAt) (at_ q : Nat) (vs : List Val) (seed : Option (BitVec 64)) (base : Nat) :
    FmtCount × Run :=
  if !r.ok then ({}, r)
  else if scalarWidth fmt ≠ 0 then
    let (b, c) := encodeScalars fmt vs seed base
    (c, (units b.length).foldl (fun r u => r.write (at_ + u.1) ((b.drop u.1).take u.2)) r)
  else
    let n := blockElems fmt
    let (b, slots, c) := encodeGroup fmt (g.map (fun (x : GuardAt) => x.guard)) (chunksOf n (vs.length / n) vs) seed base
    let r := (units b.length).foldl (fun r u => r.write (at_ + u.1) ((b.drop u.1).take u.2)) r
    (c, match g with
      | some g => slots.foldl (fun r s => r.write (g.slot q s.1) s.2) r
      | none => r)

/-- Elements that a step takes at a time: a group of either stream, or 64 scalars (log entry 12). -/
def pieceElems (fin fout : Nat) : Nat :=
  let g (f : Nat) : Nat := if scalarWidth f ≠ 0 then 64 else blockElems f * groupBlocks f
  max (g fin) (g fout)

/-- Cut `n` elements into pieces: (first element, length). -/
def pieces (n k : Nat) : List (Nat × Nat) := (List.range ((n + k - 1) / k)).map (fun i => (i * k, min k (n - i * k)))

/-- Read `n` elements from element `first` of a stream at `at_`, group by group. -/
def Run.readPiece (r : Run) (fmt : Nat) (g : Option GuardAt) (at_ first n : Nat) : List Val × Nat × Run :=
  if scalarWidth fmt ≠ 0 then r.readGroup fmt g (at_ + first * scalarWidth fmt) 0 n
  else
    let ge := blockElems fmt * groupBlocks fmt
    (groupsOf fmt n).zipIdx.foldl (fun (t : List Val × Nat × Run) p =>
      let q := first / ge + p.2
      let (v, k, r) := t.2.2.readGroup fmt g (at_ + q * groupBytes fmt) q p.1
      (t.1 ++ v, t.2.1 + k, r)) ([], 0, r)

/-- Write values from element `first` of a stream at `at_`, group by group. -/
def Run.writePiece (r : Run) (fmt : Nat) (g : Option GuardAt) (at_ first : Nat) (vs : List Val) (seed : Option (BitVec 64)) (base : Nat) :
    FmtCount × Run :=
  if scalarWidth fmt ≠ 0 then r.writeGroup fmt g (at_ + first * scalarWidth fmt) 0 vs seed base
  else
    let ge := blockElems fmt * groupBlocks fmt
    (groupsOf fmt vs.length).zipIdx.foldl (fun (t : FmtCount × Run) p =>
      let q := first / ge + p.2
      let lo := p.2 * ge
      let (c, r) := t.2.writeGroup fmt g (at_ + q * groupBytes fmt) q ((vs.drop lo).take (p.1 * blockElems fmt)) seed (base + lo)
      (t.1.add c, r)) ({}, r)

/-- Count what a step read and wrote, for the partitions of its streams. -/
def Run.count (r : Run) (a : Nat) (c : FmtCount) : Run := { r with h := r.h.countFmt (r.partAt a) c }

/-! ### CONVERT (R209) -/

/-- The guard of a step that reads `fi` at `a` and writes `fo` at `b`: that of the guarded one of the two. -/
def Run.guardOf (r : Run) (w : BitVec 128) (fi fo a b : Nat) : Option GuardAt × Run :=
  if fmtGuarded fi then r.guardAt (r.g (stepC w)) fi a
  else if fmtGuarded fo then r.guardAt (r.g (stepC w)) fo b
  else (none, r)

/-- The elements of a CONVERT step, piece by piece: poisoned blocks read, what the writes count. -/
def Run.convertPieces (r : Run) (fi fo n a b d : Nat) (gi go : Option GuardAt) (seed : Option (BitVec 64)) : Nat × FmtCount × Run :=
  (pieces n (pieceElems fi fo)).foldl (fun (t : Nat × FmtCount × Run) p =>
    if !t.2.2.ok then t
    else
      let (vs, k, r) := t.2.2.readPiece fi gi a p.1 p.2
      if !r.ok then (t.1, t.2.1, r)
      else
        let (c, r) := r.writePiece fo go b p.1 vs seed (d % 2 ^ 32 + p.1)
        (t.1 + k, t.2.1.add c, r)) (0, {}, r)

/-- CONVERT: decode exactly, round once, quantize, guard. -/
def Run.convert (r : Run) (w : BitVec 128) (fi fo a b d : Nat) : Run :=
  let n := stepN w
  let seed : Option (BitVec 64) := if wf w 52 4 = 1 then some (BitVec.ofNat 64 (d / 2 ^ 32)) else none
  let (g, r) := ((r.aligned a 64).aligned b 64).guardOf w fi fo a b
  let (rc, wc, r) := r.convertPieces fi fo n a b d (if fmtGuarded fi then g else none) (if fmtGuarded fo then g else none) seed
  let r := (r.count a { poisoned := rc }).count b wc
  let r := match g with
    | some x => r.guardCounts x (if fmtGuarded fi then { poisoned := rc } else wc)
    | none => r
  let r := (r.advance (stepFlag w 0) (stepA w) (streamBytes fi n)).advance (stepFlag w 1) (stepB w) (streamBytes fo n)
  if r.ok && seed.isSome then
    let v := r.g (stepD w)
    r.setG (stepD w) (v / 2 ^ 32 * 2 ^ 32 + (v + n) % 2 ^ 32)
  else r

/-- CONVERT (R209). -/
def execConvert (e : EngIx) (s : State) : Host.Outcome State Fault Refusal :=
  s.on (fun h => h.runStep e 0x04 anyWord (fun w r =>
    r.convert w (stepIn w) (stepOut w) (r.g (stepA w)) (r.g (stepB w)) (r.g (stepD w))))

/-! ### ACCUM and AXPBY (R207, R208) -/

/-- Apply an FP32 operation elementwise to x (fmt_in) and y (FP32, in place). -/
def Run.elementwise (r : Run) (fi a b n : Nat) (f : Nat → Nat → Nat) : Run :=
  let (rc, r) := (pieces n (pieceElems fi 0)).foldl (fun (t : Nat × Run) p =>
    if !t.2.ok then t
    else
      let (xs, k, r) := t.2.readPiece fi none a p.1 p.2
      let (yb, r) := r.stream (b + 4 * p.1) (4 * p.2)
      let out := xs.zipIdx.flatMap (fun x => natBytes (f (f32of x.1) (leAt yb (4 * x.2) 4)) 4)
      let r := (units out.length).foldl (fun r u => r.write (b + 4 * p.1 + u.1) ((out.drop u.1).take u.2)) r
      (t.1 + k, r)) (0, r)
  r.count a { poisoned := rc }

/-- ACCUM: y := y + x. -/
def execAccum (e : EngIx) (s : State) : Host.Outcome State Fault Refusal :=
  s.on (fun h => h.runStep e 0x06 anyWord (fun w r =>
    let fi := stepIn w
    let n := stepN w
    let a := r.g (stepA w)
    let b := r.g (stepB w)
    let r := ((r.aligned a 64).aligned b 64).elementwise fi a b n (fun x y => f32add y x)
    (r.advance (stepFlag w 0) (stepA w) (streamBytes fi n)).advance (stepFlag w 1) (stepB w) (4 * n)))

/-- AXPBY: y := a·x + b·y, each operation rounded; the count is the value of gc. -/
def execAxpby (e : EngIx) (s : State) : Host.Outcome State Fault Refusal :=
  s.on (fun h => h.runStep e 0x0c anyWord (fun w r =>
    let fi := stepIn w
    let n := r.g (stepC w)
    let a := r.g (stepA w)
    let b := r.g (stepB w)
    let ca := wf w 48 32
    let cb := wf w 16 32
    let r := if 1 ≤ n ∧ n ≤ 1048576 ∧ n % blockElems fi = 0 then r else r.stop Cf.range
    let r := (r.aligned a 64).aligned b 64
    let r := if r.ok then r.elementwise fi a b n (fun x y => f32add (f32mul ca x) (f32mul cb y)) else r
    (r.advance (stepFlag w 0) (stepA w) (streamBytes fi n)).advance (stepFlag w 1) (stepB w) (4 * n)))

/-! ### MOMENT (R210 to R212) -/

/-- The MOMENT parameter block. -/
structure Params where
  lr : Nat
  beta1 : Nat
  beta2 : Nat
  eps : Nat
  wd : Nat
  gradScale : Nat
  t : Nat
  seed : Nat
  base : Nat
  round : Nat
  corr : Bool
  deriving DecidableEq, Repr

/-- Read a parameter block from its 64 bytes. -/
def paramsOf (b : List Byte) : Params :=
  { lr := leAt b 0 4, beta1 := leAt b 4 4, beta2 := leAt b 8 4, eps := leAt b 12 4, wd := leAt b 16 4, gradScale := leAt b 20 4,
    t := leAt b 24 4, seed := leAt b 28 4, base := leAt b 32 4, round := leAt b 36 1 % 16, corr := decide (leAt b 36 1 / 16 % 2 = 1) }

/-- Is a binary32 code a decay: 0 ≤ β < 1. -/
def isDecay (c : Nat) : Bool := decide (c < 0x3f800000 ∨ c = 0x80000000)

/-- Does a parameter block keep its ranges. -/
def paramsOk (b : List Byte) : Bool :=
  let p := paramsOf b
  !f32bad p.lr && isDecay p.beta1 && isDecay p.beta2 && !f32bad p.eps && decide (p.eps ≤ 0x80000000) && !f32bad p.wd &&
    !f32bad p.gradScale && (!p.corr || decide (1 ≤ p.t)) && decide (p.round ≤ 1) &&
    decide (leAt b 36 1 / 32 = 0 ∧ leAt b 37 27 = 0)

/-- The two bias corrections. -/
def Params.bias (p : Params) : Nat × Nat :=
  let one := 0x3f800000
  if p.corr then (f32div one (f32sub one (f32pow p.beta1 p.t)), f32div one (f32sub one (f32pow p.beta2 p.t))) else (one, one)

/-- One element's update: weight, m, v, and whether it was skipped. -/
def Params.update (p : Params) (bc : Nat × Nat) (grad w m v : Nat) : Nat × Nat × Nat × Bool :=
  let one := 0x3f800000
  let g := f32mul grad p.gradScale
  let m1 := f32add (f32mul p.beta1 m) (f32mul (f32sub one p.beta1) g)
  let gg := f32mul g g
  let v1 := f32add (f32mul p.beta2 v) (f32mul (f32sub one p.beta2) gg)
  let mh := f32mul m1 bc.1
  let vh := f32mul v1 bc.2
  let d := f32add (f32sqrt vh) p.eps
  let u2 := f32add (f32div mh d) (f32mul p.wd w)
  let w1 := f32sub w (f32mul p.lr u2)
  if f32bad g || f32bad m1 || f32bad v1 || f32bad w1 then (w, m, v, true) else (w1, m1, v1, false)

/-- Write bytes unit by unit. -/
def Run.writeUnits (r : Run) (at_ : Nat) (l : List Byte) : Run :=
  (units l.length).foldl (fun r u => r.write (at_ + u.1) ((l.drop u.1).take u.2)) r

/-- What one MOMENT step works with: formats, addresses, count, whether it writes a serving copy, parameters, guard. -/
structure MomentJob where
  fi : Nat
  fo : Nat
  serve : Bool
  n : Nat
  a : Nat
  b : Nat
  c : Nat
  d : Nat
  p : Params
  g : Option GuardAt
  deriving DecidableEq, Repr

/-- One piece of a MOMENT step, `cnt` elements from element `x` on: elements skipped, the serving copy's counts. -/
def Run.momentPiece (r : Run) (y : MomentJob) (x cnt : Nat) : Nat × FmtCount × Run :=
  let wd := scalarWidth y.fi
  let (gb, r) := r.stream (y.a + wd * x) (wd * cnt)
  let (wb, r) := r.stream (y.b + 4 * x) (4 * cnt)
  let (sb, r) := r.stream (y.c + 8 * x) (8 * cnt)
  let res := (List.range cnt).map (fun i =>
    y.p.update y.p.bias (f32of (scalarVal y.fi (leAt gb (wd * i) wd))) (leAt wb (4 * i) 4) (leAt sb (8 * i) 4) (leAt sb (8 * i + 4) 4))
  let ws := res.flatMap (fun u => natBytes u.1 4)
  let st := res.flatMap (fun u => natBytes u.2.1 4 ++ natBytes u.2.2.1 4)
  let r := (r.writeUnits (y.b + 4 * x) ws).writeUnits (y.c + 8 * x) st
  let skipped := (res.filter (fun u => u.2.2.2)).length
  if y.serve then
    let seed : Option (BitVec 64) := if y.p.round = 1 then some (BitVec.ofNat 64 y.p.seed) else none
    let (cn, r) := r.writePiece y.fo y.g y.d x (res.map (fun u => f32val u.1)) seed (y.p.base + x)
    (skipped, cn, r)
  else (skipped, {}, r)

/-- Every piece of a MOMENT step, until one stops it. -/
def Run.momentPieces (r : Run) (y : MomentJob) : Nat × FmtCount × Run :=
  (pieces y.n (if y.serve then pieceElems y.fi y.fo else 64)).foldl (fun (t : Nat × FmtCount × Run) x =>
    if !t.2.2.ok then t
    else
      let (skipped, cn, r) := t.2.2.momentPiece y x.1 x.2
      (t.1 + skipped, t.2.1.add cn, r)) (0, {}, r)

/-- The parameter block of a MOMENT step and its guard, their ranges checked and the streams aligned. -/
def Run.momentStart (r : Run) (w : BitVec 128) : List Byte × MomentJob × Run :=
  let serve := !stepFlag w 7
  let fo := stepOut w
  let d := r.g (stepD w)
  let pa := 2 ^ 61 + wf w 32 24
  let y : MomentJob :=
    { fi := stepIn w, fo := fo, serve := serve, n := stepN w, a := r.g (stepA w), b := r.g (stepB w), c := r.g (stepC w), d := d,
      p := paramsOf [], g := none }
  let (blk, r) := (r.aligned pa 64).readClean pa 64
  let r := if paramsOk blk then r else r.stop Cf.range
  let (g, r) := if serve && fmtGuarded fo && r.ok then r.guardAt (pa + 64) fo d else (none, r)
  let r := ((r.aligned y.a 64).aligned y.b 64).aligned y.c 64
  (blk, { y with p := paramsOf blk, g := g }, if serve then r.aligned d 64 else r)

/-- MOMENT: the optimizer update and the serving copy in one pass. -/
def execMoment (e : EngIx) (s : State) : Host.Outcome State Fault Refusal :=
  s.on (fun h => h.runStep e 0x0d anyWord (fun w r =>
    let (blk, y, r) := r.momentStart w
    let (skips, wc, r) := r.momentPieces y
    let r := r.count y.b { nonfinite := skips }
    let r := if y.serve then r.count y.d wc else r
    let r := match y.g with
      | some x => r.guardCounts x wc
      | none => r
    let r := ((r.advance (stepFlag w 0) (stepA w) (streamBytes y.fi y.n)).advance (stepFlag w 1) (stepB w) (4 * y.n)).advance
      (stepFlag w 5) (stepC w) (8 * y.n)
    let r := if y.serve then r.advance (stepFlag w 6) (stepD w) (streamBytes y.fo y.n) else r
    if r.ok then r.write (2 ^ 61 + wf w 32 24) (blk.take 32 ++ natBytes ((y.p.base + y.n) % 2 ^ 32) 4 ++ blk.drop 36) else r))

end Sys2Proof.Machine
end

