-- ==== Sys2Proof/Machine/Reduce.lean ====
section
/-! DEFINITION. Order-free reductions (chapter 10): sessions, exact accumulation, finalization, the done map, parking,
stragglers, exclusion; and the arming of watermarks (R214 to R236, R353, R354). -/

namespace Sys2Proof.Machine

/-! ### Geometry (R217, R218, R224) -/

/-- Slots of a page, by input format. -/
def slotsPerPage (fmtIn : Nat) : Nat :=
  if fmtIn = 0 then 146 else if fmtIn ≤ 2 then 93 else if fmtIn ≤ 4 then 53 else 29

/-- Bytes of `k` input elements. -/
def inputBytes (fmtIn k : Nat) : Nat := if fmtIn = 8 then (k + 1) / 2 else k * scalarWidth fmtIn

/-- Elements of chunk `c`. -/
def Hw.elemsOf (h : Hw) (n c : Nat) : Nat :=
  let e := chunkElems (h.reg Od.redFmtIn n)
  min e (h.reg Od.redElements n - c * e)

/-- Input length of chunk `c` in bytes, a multiple of 64. -/
def Hw.inputLen (h : Hw) (n c : Nat) : Nat := up64 (inputBytes (h.reg Od.redFmtIn n) (h.elemsOf n c))

/-- Output width in bytes. -/
def Hw.outWidth (h : Hw) (n : Nat) : Nat := scalarWidth (h.reg Od.redFmtOut n)

/-- Bytes of the done map. -/
def Hw.mapBytes (h : Hw) (n : Nat) : Nat := (h.chunkCount n + 255) / 256 * 64

/-- Status and slot pages a session needs. -/
def Hw.statusPagesOf (h : Hw) (n : Nat) : Nat := (h.chunkCount n + 1048575) / 1048576
def Hw.slotPagesOf (h : Hw) (n : Nat) : Nat :=
  let k := slotsPerPage (h.reg Od.redFmtIn n)
  (h.reg Od.redOpenChunks n + k - 1) / k

/-- The stack whose slice is the proxy of an output stack of a parity group (R233). -/
def Hw.proxyFor (h : Hw) (p s : Nat) : Option Nat :=
  if h.parityOn p then (h.members p).find? (fun t => t != s) else none

/-- Pages of slice `t` in use: those of sessions that accumulate there and those reserved there as proxy. -/
def Hw.pagesUsed (h : Hw) (t : Nat) : Nat :=
  (List.range 256).foldl (fun a n =>
    if h.reg Od.redState n = 0 then a
    else
      let x := h.ses n
      if x.stack = t ∨ h.proxyFor (h.reg Od.redPartition n) x.stack = some t then a + x.statusPages + x.slotPages else a) 0

/-- Is an OPEN valid (R217). -/
def Hw.openOk (h : Hw) (a : Actor) (n : Nat) : Bool :=
  let p := h.reg Od.redPartition n
  let out := h.reg Od.redOutBase n
  let len := h.reg Od.redElements n * h.outWidth n
  let map := h.reg Od.redMapBase n
  let m := h.mapBytes n
  let s := dpaStack out
  let inPart (b k : Nat) : Bool :=
    decide (b < 2 ^ 41) && (h.members p).contains (dpaStack b) && decide (dpaOff b + k ≤ h.visibleEnd p (dpaStack b))
  let need := h.statusPagesOf n + h.slotPagesOf n
  let free (t : Nat) : Bool := decide (h.pagesUsed t + need ≤ 768)
  decide (p < 16 ∧ (h.reg Od.partState p = 3 ∨ h.reg Od.partState p = 4)) && (a == .firmware || h.tenantFor a p) &&
    inPart out len && inPart map m && decide (out + len ≤ map ∨ map + m ≤ out) &&
    [0, 1, 2, 3, 4, 8].contains (h.reg Od.redFmtIn n) && decide (h.reg Od.redFmtOut n ≤ 4) &&
    free s && (match h.proxyFor p s with | some t => free t | none => true)

/-! ### Watermarks (R353, R354) -/

/-- The slot of a chunk, if it is OPEN. -/
def Hw.slotOfChunk (h : Hw) (n c : Nat) : Option Slot := (Table.look (h.ses n).chunks c).bind (fun k => k.slot)

/-- Contributors of a session that a bitmap lacks. -/
def missingIn (k bits : Nat) : List Nat := (List.range k).filter (fun i => !bits.testBit i)

/-- The STRAGGLER event of a chunk. -/
def Hw.stragglerEvent (h : Hw) (n c bits : Nat) : Event :=
  let ms := missingIn (h.reg Od.redContributors n) bits
  h.sessionEvent n 0x10 [(32, c), (16, ms.length), (16, ms.headD 0)]

/-- An OPEN chunk with an expired timer. -/
def Hw.straggling (h : Hw) (n : Nat) : Option (Nat × Slot) :=
  ((h.ses n).chunks.filterMap (fun c => match c.2.slot with | some s => if s.timerDone then some (c.1, s) else none | none => none)).head?

/-- The event that watermark `w` raises when it crosses. -/
def Hw.wmEvent (h : Hw) (w : Nat) : Event :=
  if w < 0x80 then { kind := 7, stack := some (w / 8), payload := packFields [(8, w % 8)] }
  else if w < 0x90 then { kind := 0x29, stack := some (w - 0x80) }
  else if w < 0xa0 then { kind := 0x16, part := some (w - 0x90), payload := packFields [(64, h.reg Od.fmtExhausted (w - 0x90))] }
  else
    let n := (w - 0x100) / 4
    match h.straggling n with
    | some (c, s) => h.stragglerEvent n c s.bits
    | none => h.sessionEvent n 0x10 []

/-- Arm a watermark: what its family does at arming, CROSSED clears; a LEVEL that stands is a crossing at once. -/
def Hw.armWm (h : Hw) (w : Nat) : Hw :=
  let h := if 0x90 ≤ w ∧ w < 0xa0 then
      { h with car.fmtBase := Table.setD h.car.fmtBase (fun _ => 0) (w - 0x90) (h.reg Od.fmtExhausted (w - 0x90)) }.uncross w
    else if 0x100 ≤ w ∧ w % 4 ≠ 0 then h.uncross w else h
  let h := (h.setReg Od.wmArmed w 1).setReg Od.wmCrossed w 0
  if h.reg Od.wmLevel w = 1 then (h.uncross w).cross w (h.wmEvent w) else h

/-- Watermark of a session: 0 STRAGGLER, 1 PARTIAL_FINAL, 2 WINDOW_HIGH, 3 NONFINITE_INPUT. -/
def sesWm (n k : Nat) : Nat := 0x100 + 4 * n + k

/-- Arm all four watermarks of a session. -/
def Hw.armSession (h : Hw) (n : Nat) : Hw := [0, 1, 2, 3].foldl (fun h k => h.armWm (sesWm n k)) h

/-! ### Exact accumulation (R221) -/

/-- Element i of a contribution, decoded exactly. -/
def inputVal (fmtIn : Nat) (data : List Byte) (i : Nat) : Val :=
  if fmtIn = 8 then Fp.e2m1.decode ((data.getD (i / 2) 0).toNat / 2 ^ (4 * (i % 2)) % 16)
  else scalarVal fmtIn (leAt data (i * scalarWidth fmtIn) (scalarWidth fmtIn))

/-- The contribution of a finite magnitude m·2^e in LSBs of 2^(eb − 100), and whether it saturated. -/
def lsbsOf (eb : Int) (m : Nat) (e : Int) : Nat × Bool :=
  let f := dyFrac m (e - (eb - 100))
  if 2 ^ 115 * f.2 ≤ f.1 then (2 ^ 115 - 1, true) else (f.1 / f.2, false)

/-- Add one element to a slot: the slot, whether it saturated, whether it was not finite. -/
def Slot.add (s : Slot) (eb : Int) (i : Nat) (x : Val) : Slot × Bool × Bool :=
  match x with
  | .nan => ({ s with nan := s.nan.set i true }, false, true)
  | .inf false => ({ s with pinf := s.pinf.set i true }, false, true)
  | .inf true => ({ s with ninf := s.ninf.set i true }, false, true)
  | .fin neg m e =>
    let (k, sat) := lsbsOf eb m e
    let a := s.acc.getD i 0
    ({ s with acc := s.acc.set i (if neg then a - k else a + k), saturated := s.saturated || sat }, sat, false)

/-- A fresh slot for `k` elements. -/
def freshSlot (k now : Nat) : Slot :=
  { acc := List.replicate k 0, nan := List.replicate k false, pinf := List.replicate k false, ninf := List.replicate k false,
    allocTime := now }

/-- Store a chunk. -/
def Hw.setChunk (h : Hw) (n c : Nat) (k : Chunk) : Hw :=
  let x := h.ses n
  h.setSes n { x with chunks := Table.setD x.chunks (fun _ => {}) c k }

/-- A chunk. -/
def Hw.chunk (h : Hw) (n c : Nat) : Chunk := Table.atD (h.ses n).chunks (fun _ => {}) c

/-- Add a contribution's elements: the slot, elements saturated, elements not finite (indices). -/
def addAll (fmtIn : Nat) (eb : Int) (k : Nat) (data : List Byte) (s : Slot) : Slot × List Nat × List Nat :=
  (List.range k).foldl (fun (t : Slot × List Nat × List Nat) i =>
    let (s, sat, bad) := t.1.add eb i (inputVal fmtIn data i)
    (s, if sat then t.2.1 ++ [i] else t.2.1, if bad then t.2.2 ++ [i] else t.2.2)) (s, [], [])

/-! ### Finalization (R220, R222) -/

/-- The value of element i that a slot finalizes to. -/
def Slot.value (s : Slot) (eb oe : Int) (i : Nat) : Val :=
  let nan := s.nan.getD i false
  let p := s.pinf.getD i false
  let q := s.ninf.getD i false
  if nan || (p && q) then .nan else if p then .inf false else if q then .inf true
  else
    let a := s.acc.getD i 0
    .fin (decide (a < 0)) a.natAbs (eb - 100 + oe)

/-- Send the oldest parked ACW of a session to its accumulating slice again (R225). -/
def Hw.resendParked (h : Hw) (n : Nat) : Hw :=
  match (h.ses n).parked with
  | [] => h
  | uid :: rest =>
    let h := h.setSes n { h.ses n with parked := rest }
    let h := h.setReg Od.redParked n rest.length
    match h.trk uid with
    | some t =>
      let to_ := h.accStack n
      let h := h.setTrk uid { t with phase := .forwarded }
      { h with red.accIn := Table.put h.red.accIn to_ (Table.atD h.red.accIn (fun _ => []) to_ ++ [t.contribution uid]) }
    | none => h

/-- Send every parked ACW of a session again, in order. -/
def Hw.resendAll (h : Hw) (n : Nat) : Hw := (h.ses n).parked.foldl (fun h _ => h.resendParked n) h

/-- Every chunk finished: the session is COMPLETE (R216). -/
def Hw.checkComplete (h : Hw) (n : Nat) : Hw :=
  if h.reg Od.redState n = 2 ∧ h.chunkCount n ≤ h.reg Od.redChunksDone n then
    (h.setRedState n 3).sessionNotice n 0x0d [(32, h.reg Od.redChunksDone n), (32, h.reg Od.redChunksPartial n)]
  else h

/-- The output of a chunk has been accepted: FINAL or PARTIAL, its slot frees, notices go out, the oldest parked ACW is sent
again. -/
def Hw.finishChunk (h : Hw) (n c : Nat) (sl : Slot) (partialSum : Bool) : Hw :=
  let h := h.setChunk n c { st := if partialSum then .partialSum else .final, finishedAt := h.now }
  let h := h.subReg Od.redOpenNow n
  let h := h.addReg Od.redChunksDone n
  let x := h.ses n
  let h := h.setSes n { x with finishes := (x.finishes ++ [h.now]).drop (x.finishes.length + 1 - 1025) }
  let ms := missingIn (h.reg Od.redContributors n) sl.bits
  let h := if partialSum then
      let h := h.addReg Od.redChunksPartial n
      let h := h.setReg Od.redMissing n (ms.foldl (fun m i => m ||| 2 ^ i) (h.reg Od.redMissing n))
      h.cross (sesWm n 1) (h.sessionEvent n 0x11 [(32, c), (16, ms.length)])
    else h
  let h := if (h.straggling n).isNone then h.uncross (sesWm n 0) else h
  let every := h.reg Od.redNotifyEvery n
  let done := h.reg Od.redChunksDone n
  let h := if every ≠ 0 ∧ done % every = 0 then h.sessionNotice n 0x0f [(32, done)] else h
  (h.resendParked n).checkComplete n

/-- Source code of a session's pieces in directory wait lists (R152). -/
def sesSource (n : Nat) : Nat := 100 + n

/-- Pass the directory with the lines of a session's output; a line that must be snooped makes its finalization wait. -/
def Hw.outputPasses (h : Hw) (n s o len : Nat) : Bool × Hw :=
  if !h.coherent (h.partOf s) then (true, h)
  else
    let ds := h.dirStack s
    let old := (h.dirWaiting ds).find? (fun p => p.source == sesSource n && p.stack == s)
    let g := match old with
      | some p => p.gathered
      | none => []
    let whole (line : Nat) : Bool := decide (o ≤ line * 64 ∧ line * 64 + 64 ≤ o + len)
    let (waits, _, h') := h.lookLines s (o / 64) ((o + len - 1) / 64) (fun l => .engineWrite (whole l)) g
    let h' := h'.dropEngWait (sesSource n - 1)
    if waits then
      let piece : Piece := { trk := 0, op := 0, stack := s, off := o / 64 * 64, dpa := dpaOf s (o / 64 * 64), len := len + o % 64,
                             source := sesSource n, gathered := g }
      (false, h'.setDirWaiting ds (h'.dirWaiting ds ++ [piece]))
    else (true, h')

/-- Finalize a chunk (R222): its output is written as one write of class red_class; where lines must be snooped, or a standby
must accept it, the chunk waits. -/
def Hw.finalizeChunk (h : Hw) (n c : Nat) (partialSum : Bool) : Hw :=
  match h.slotOfChunk n c with
  | none => h
  | some sl =>
    let e := chunkElems (h.reg Od.redFmtIn n)
    let base := h.reg Od.redOutBase n + c * e * h.outWidth n
    let s := dpaStack base
    let o := dpaOff base
    let k := sl.acc.length
    let (go, h) := h.outputPasses n s o (k * h.outWidth n)
    if !go then h.setChunk n c { h.chunk n c with slot := some { sl with due := some partialSum } }
    else
      let eb := h.sreg Od.redExp n
      let oe := h.sreg Od.redOutExp n
      let vals := (List.range k).map (fun i => sl.value eb oe i)
      let seed : Option (BitVec 64) := if h.reg Od.redRound n = 1 then some (BitVec.ofNat 64 (h.reg Od.redSeed n)) else none
      let (bytes, cnt) := encodeScalars (h.reg Od.redFmtOut n) vals seed (c * e)
      let before := h.pair.mirrorNext
      let h := h.writeBytes s o bytes (List.replicate bytes.length true) [] { cls := h.reg Od.redClass n, attr := none }
      let h := h.countFmt (some (h.reg Od.redPartition n)) cnt
      if h.pair.mirrorNext = before then h.finishChunk n c sl partialSum
      else h.setChunk n c { h.chunk n c with slot := some { sl with due := some partialSum, waitSeq := some h.pair.mirrorNext } }

/-- Chunks whose output the standby has accepted finish (R252). -/
def Hw.settleChunks (h : Hw) : Hw :=
  h.red.sessions.foldl (fun h x => x.2.chunks.foldl (fun h c => match c.2.slot with
    | some sl => match sl.due, sl.waitSeq with
      | some b, some q => if q ≤ h.pair.mirrorDone ∧ h.reg Od.redState x.1 = 2 then h.finishChunk x.1 c.1 sl b else h
      | _, _ => h
    | none => h) h) h

/-- Is a chunk complete: every contributor present or excluded (R220); then, whether it is partial. -/
def Hw.completeness (h : Hw) (n bits : Nat) : Option Bool :=
  let ex := h.reg Od.redExcluded n
  let ks := List.range (h.reg Od.redContributors n)
  if ks.all (fun i => (bits ||| ex).testBit i) then some (ks.any (fun i => ex.testBit i && !bits.testBit i)) else none

/-- Finalize a chunk if it is complete and its finalization does not wait already. -/
def Hw.tryFinalize (h : Hw) (n c : Nat) : Hw :=
  match h.slotOfChunk n c with
  | some sl =>
    if sl.due.isSome then h
    else match h.completeness n sl.bits with
      | some b => h.finalizeChunk n c b
      | none => h
  | none => h

/-! ### Contributions (R219, R220, R225) -/

/-- Answer a contribution: a host's ACW completes; an engine's has no answer. -/
def Hw.answerAcw (h : Hw) (p : Piece) (status : Nat) : Hw :=
  if p.source = 0 then
    let h := if status = St.ok then (h.point p.trk 4).point p.trk 6 else h
    ((h.point p.trk 7).point p.trk 8).complete p.trk status
  else h

/-- Park a host's ACW at the hub; an engine's contribution waits at the slice's input. -/
def Hw.parkAcw (h : Hw) (p : Piece) (s : Nat) : Hw :=
  let n := p.subop
  if p.source = 0 then
    match h.trk p.trk with
    | some t =>
      let h := h.setTrk p.trk { t with phase := .parked }
      let x := h.ses n
      let h := h.setSes n { x with parked := x.parked ++ [p.trk] }
      h.setReg Od.redParked n (x.parked.length + 1)
    | none => h
  else { h with red.accIn := Table.put h.red.accIn s (Table.atD h.red.accIn (fun _ => []) s ++ [p]) }

/-- Add a contribution to an OPEN chunk. -/
def Hw.addContribution (h : Hw) (p : Piece) (sl : Slot) : Hw :=
  let n := p.subop
  let c := p.off
  let fi := h.reg Od.redFmtIn n
  let (sl, high, bad) := addAll fi (h.sreg Od.redExp n) sl.acc.length p.data sl
  let sl := { sl with bits := sl.bits ||| 2 ^ p.dpa }
  let h := h.setChunk n c { h.chunk n c with st := .opened, slot := some sl }
  let h := h.addReg Od.redWindowHigh n high.length
  let h := h.addReg Od.redNonfinite n bad.length
  let h := match high with
    | [] => h
    | i :: _ => h.cross (sesWm n 2) (h.sessionEvent n 0x12 [(32, c), (16, i)])
  let h := match bad with
    | [] => h
    | i :: _ => h.cross (sesWm n 3) (h.sessionEvent n 0x13 [(32, c), (16, i)])
  let h := h.countSel 0x0f n
  (h.answerAcw p St.ok).tryFinalize n c

/-- A contribution at its accumulating slice (R220). -/
def Hw.contribute (h : Hw) (p : Piece) (s : Nat) : Hw :=
  let n := p.subop
  let c := p.off
  let dup (h : Hw) : Hw := (h.addReg Od.redDuplicates n).answerAcw p St.duplicate
  if h.reg Od.redState n = 1 then h.parkAcw p s
  else if h.reg Od.redState n ≠ 2 ∨ (h.reg Od.redExcluded n).testBit p.dpa = true then h.answerAcw p St.aborted
  else if p.psn.any id then h.answerAcw p St.poison
  else
    let k := h.chunk n c
    match k.st with
    | .final => dup h
    | .partialSum => h.answerAcw p St.aborted
    | .opened =>
      match k.slot with
      | some sl =>
        if sl.bits.testBit p.dpa then dup h
        else if sl.waitSeq.isSome then h.answerAcw p St.aborted
        else h.addContribution p sl
      | none => h
    | .fresh =>
      if h.reg Od.redOpenChunks n ≤ h.reg Od.redOpenNow n then h.parkAcw p s
      else (h.addReg Od.redOpenNow n).addContribution p (freshSlot (h.elemsOf n c) h.now)

/-- CONTRIBUTION (R220): the oldest contribution at the slice's accumulators. -/
def Hw.takeContribution (h : Hw) (stack : Nat) : Hw :=
  match Table.atD h.red.accIn (fun _ => []) stack with
  | [] => h
  | p :: rest =>
    let h := { h with red.accIn := Table.setD h.red.accIn (fun _ => []) stack rest }
    (if p.source = 0 then h.point p.trk 3 else h).contribute p stack

/-- Row CONTRIBUTION. -/
def execContribution (stack : StackIx) (s : State) : Host.Outcome State Fault Refusal := s.on (fun h => h.takeContribution stack.val)

/-- REDUCE (R175, R219): one chunk goes to the accumulating slice as an ACW does. -/
def execReduce (e : EngIx) (s : State) : Host.Outcome State Fault Refusal :=
  s.on (fun h => h.runStep e 0x05 anyWord (fun w r =>
    let n := wf w 72 8
    let k := wf w 60 12
    let len := (wf w 56 2 + 1) * 64
    let a := r.g (stepA w)
    let c := r.g (stepB w) % 2 ^ 32
    let r := r.aligned a 64
    let r := if r.h.reg Od.redState n = 2 ∧ r.bind.testBit (r.h.reg Od.redPartition n) = true then r else r.stop Cf.session
    let r := if stepIn w = r.h.reg Od.redFmtIn n then r else r.stop Cf.format
    let r := if c < r.h.chunkCount n ∧ k < r.h.reg Od.redContributors n ∧ len = r.h.inputLen n c then r else r.stop Cf.range
    let (data, r) := r.stream a len
    if !r.ok then r
    else
      let to_ := r.h.accStack n
      let p : Piece := { trk := 0, op := 4, stack := to_, off := c, dpa := k, len := len, data := data, subop := n, source := r.e + 1 }
      let q := Table.atD r.h.red.accIn (fun _ => []) to_
      let r := { r with h := { r.h with red.accIn := Table.put r.h.red.accIn to_ (q ++ [p]) } }
      let r := r.advance (stepFlag w 0) (stepA w) len
      if stepFlag w 1 && r.ok then r.setG (stepB w) (r.g (stepB w) + 1) else r))

/-! ### The done map (R223, R236) -/

/-- The two bits of a chunk in the map. -/
def Chunk.mapBits (k : Chunk) : Nat :=
  match k.st with
  | .final => 1
  | .partialSum => 2
  | _ => 0

/-- Write bytes of the done map. -/
def Hw.writeMap (h : Hw) (n at_ : Nat) (b : List Byte) : Hw :=
  let a := h.reg Od.redMapBase n + at_
  h.writeBytes (dpaStack a) (dpaOff a) b (List.replicate b.length true) [] { cls := h.reg Od.redClass n, attr := none }

/-- The sectors of a chunk's output. -/
def Hw.outputSectors (h : Hw) (n c : Nat) : List Nat :=
  let w := h.outWidth n
  let base := h.reg Od.redOutBase n + c * chunkElems (h.reg Od.redFmtIn n) * w
  sectorsOf (dpaStack base) (h.physical (dpaStack base) (dpaOff base)) (h.elemsOf n c * w)

/-- Has a sector left the buffer for good, its parity update accepted. -/
def Hw.sectorLanded (h : Hw) (k : Nat) : Bool :=
  (Table.look h.mem.wcb k).isNone && !h.evicting k &&
    h.par.deltas.all (fun t => t.2.all (fun d => !decide (secKey d.dataStack d.off = k)))

/-- MAP_ENTRY_WRITE (R223): the entry of a finished chunk is written once its output sectors have landed. A finalization that
waited for snoops goes on. -/
def execMapEntryWrite (session : Fin 256) (chunk : BitVec 32) (s : State) : Host.Outcome State Fault Refusal :=
  s.on (fun h =>
    let n := session.val
    let c := chunk.toNat
    let k := h.chunk n c
    if h.reg Od.redState n = 0 then h
    else match k.slot with
      | some sl => match sl.due, sl.waitSeq with
        | some b, none => if h.reg Od.redState n = 2 then h.finalizeChunk n c b else h
        | _, _ => h
      | none =>
        if k.mapBits = 0 ∨ k.mapped ∨ !(h.outputSectors n c).all (fun x => h.sectorLanded x) then h
        else
          let h := h.setChunk n c { k with mapped := true }
          let v := (List.range 4).foldl (fun (a : Nat) i =>
            let y := h.chunk n (c / 4 * 4 + i)
            a + (if y.mapped then y.mapBits * 4 ^ i else 0)) 0
          h.writeMap n (c / 4) [BitVec.ofNat 8 v])

/-- Read the done map back (R233, R236): finished chunks by their entries; with `repair`, a poisoned line is rewritten with
00b entries and reported LOST. -/
def Hw.readMap (h : Hw) (n : Nat) (repair : Bool) : Hw :=
  let a := h.reg Od.redMapBase n
  let total := h.chunkCount n
  (List.range (h.mapBytes n / 64)).foldl (fun h i =>
    let at_ := a + 64 * i
    let (b, psn, h) := h.readBytes (dpaStack at_) (dpaOff at_) 64 none 1
    let here := min 256 (total - 256 * i)
    if psn.any id then
      if repair then
        let h := h.writeMap n (64 * i) (List.replicate 64 0)
        let h := h.addReg Od.redChunksLost n here
        h.sessionNotice n 0x14 [(32, here), (64, a), (8, 3)]
      else h
    else
      (List.range here).foldl (fun h j =>
        match (b.getD (j / 4) 0).toNat / 4 ^ (j % 4) % 4 with
        | 1 => (h.setChunk n (256 * i + j) { st := .final, mapped := true }).addReg Od.redChunksDone n
        | 2 => ((h.setChunk n (256 * i + j) { st := .partialSum, mapped := true }).addReg Od.redChunksDone n).addReg Od.redChunksPartial n
        | _ => h) h) h

/-- SESSION_PREPARED (R216, R236): the map is zeroed or read back; the session is OPEN, its watermarks armed, its parked ACWs
on their way. -/
def execSessionPrepared (session : Fin 256) (s : State) : Host.Outcome State Fault Refusal :=
  s.on (fun h =>
    let n := session.val
    if h.reg Od.redState n ≠ 1 then h
    else
      let x := h.ses n
      let h := if h.reg Od.redResume n = 1 ∨ x.reread then h.readMap n true else h.writeMap n 0 (List.replicate (h.mapBytes n) 0)
      if h.reg Od.redState n ≠ 1 then h
      else
        let h := h.setSes n { h.ses n with preparedAt := h.now, reread := false }
        (((h.setRedState n 2).armSession n).resendAll n).checkComplete n)

/-! ### Commands (R216, R217, R228) -/

/-- OPEN: pages reserved, counts cleared, PREPARING. -/
def Hw.openSession (h : Hw) (a : Actor) (n : Nat) : Hw :=
  if h.reg Od.redState n ≠ 0 then h.ignore a Od.redCommand n Why.wrongState
  else if !h.openOk a n then h.ignore a Od.redCommand n Why.invalidCommand
  else
    let s := dpaStack (h.reg Od.redOutBase n)
    let h := h.zeroRegs [Od.redExcluded, Od.redMissing, Od.redChunksDone, Od.redChunksPartial, Od.redChunksLost, Od.redOpenNow,
      Od.redParked, Od.redDuplicates, Od.redWindowHigh, Od.redNonfinite, Od.redAbortReason] n
    let proxy := if h.failed s then h.proxyOf s else none
    let h := h.setReg Od.redProxyStack n (proxy.getD 0xff)
    let low := (h.reg Od.requestTimeoutUs + 100 + 999) / 1000
    let h := h.setSes n
      { stack := s, proxy := proxy, statusPages := h.statusPagesOf n, slotPages := h.slotPagesOf n, openedAt := h.now,
        stragglerNs := max (h.reg Od.redStragglerMs n) low * 1000000 }
    h.setRedState n 1

/-- ABORT. -/
def Hw.abortCommand (h : Hw) (a : Actor) (n : Nat) : Hw :=
  if h.reg Od.redState n = 1 ∨ h.reg Od.redState n = 2 then h.abortSession n 1 else h.ignore a Od.redCommand n Why.wrongState

/-- CLOSE: pages freed, FREE; the settings keep their values. -/
def Hw.closeSession (h : Hw) (a : Actor) (n : Nat) : Hw :=
  if h.reg Od.redState n = 3 ∨ h.reg Od.redState n = 4 then
    { h with red.sessions := Table.del h.red.sessions n }.setRedState n 0
  else h.ignore a Od.redCommand n Why.wrongState

/-- EXCLUDE (R228): a contributor is excluded and every OPEN chunk tested. -/
def Hw.excludeCommand (h : Hw) (a : Actor) (n : Nat) : Hw :=
  if h.reg Od.redState n = 2 then
    let h := h.setReg Od.redExcluded n (h.reg Od.redExcluded n ||| 2 ^ h.reg Od.redExcludeIndex n)
    (h.ses n).chunks.foldl (fun h c => if h.reg Od.redState n = 2 then h.tryFinalize n c.1 else h) h
  else h.ignore a Od.redCommand n Why.wrongState

/-- REARM. -/
def Hw.rearmCommand (h : Hw) (a : Actor) (n : Nat) : Hw :=
  if h.reg Od.redState n = 2 then h.armSession n else h.ignore a Od.redCommand n Why.wrongState

/-- STRAGGLER_EXPIRY (R227): the straggler time of an OPEN chunk has passed; red_policy decides. -/
def execStragglerExpiry (session : Fin 256) (chunk : BitVec 32) (s : State) : Host.Outcome State Fault Refusal :=
  s.on (fun h =>
    let n := session.val
    let c := chunk.toNat
    match h.slotOfChunk n c with
    | some sl =>
      if h.reg Od.redState n ≠ 2 ∨ sl.timerDone ∨ sl.due.isSome ∨ h.now < sl.allocTime + (h.ses n).stragglerNs then h
      else match h.reg Od.redPolicy n with
        | 1 => h.finalizeChunk n c true
        | 2 => h.abortSession n 2
        | _ =>
          let h := h.setChunk n c { h.chunk n c with slot := some { sl with timerDone := true } }
          h.cross (sesWm n 0) (h.stragglerEvent n c sl.bits)
    | none => h)

/-! ### Ends and moves of sessions (R216, R233 to R235) -/

/-- Clear a session's record to reset values and free its pages. -/
def Hw.clearSession (h : Hw) (n : Nat) : Hw :=
  let h := { h with red.sessions := Table.del h.red.sessions n }
  h.resetRegs (fun k => decide ((keyReg k).index = 0x8000 ∧ keyInst k = n))

/-- The sessions of a partition that begins RELEASING (R216, R235). -/
def Hw.releaseSessions (h : Hw) (p : Nat) : Hw :=
  (List.range 256).foldl (fun h n =>
    if h.reg Od.redState n ≠ 0 ∧ h.reg Od.redPartition n = p then (h.abortSession n 4).clearSession n else h) h

/-- The slice of stack `s` is reset without becoming FAILED: its sessions become ABORTED (R234). -/
def Hw.sliceResetSessions (h : Hw) (s : Nat) : Hw :=
  (List.range 256).foldl (fun h n => if h.reg Od.redState n ≠ 0 ∧ h.accStack n = s then h.abortSession n 5 else h) h

/-- The proxy takes over the sessions of a failed stack of a parity group (R233). -/
def Hw.sessionsToProxy (h : Hw) (s : Nat) : Hw :=
  (List.range 256).foldl (fun h n =>
    let st := h.reg Od.redState n
    if (st = 1 ∨ st = 2) ∧ h.accStack n = s then
      match h.proxyOf s with
      | none => h.abortSession n 3
      | some t =>
        let lost := ((h.ses n).chunks.filter (fun c => decide (c.2.st = .opened) || (decide (c.2.mapBits ≠ 0) && !c.2.mapped))).length
        let q := Table.atD h.red.accIn (fun _ => []) s
        let h := { h with red.accIn := Table.setD h.red.accIn (fun _ => []) s (q.filter (fun p => p.subop != n)) }
        let h := (q.filter (fun p => p.subop == n)).foldl (fun h p => h.answerAcw p St.aborted) h
        let h := h.setSes n { h.ses n with proxy := some t, chunks := [] }
        let h := h.setReg Od.redProxyStack n t
        let h := h.zeroRegs [Od.redOpenNow, Od.redChunksDone, Od.redChunksPartial] n
        let h := h.uncross (sesWm n 0)
        if st = 1 then h
        else
          let h := h.readMap n false
          let h := h.addReg Od.redChunksLost n lost
          let h := h.sessionNotice n 0x14 [(32, lost), (64, h.reg Od.redMapBase n), (8, 1)]
          (h.resendAll n).checkComplete n
    else h) h

/-- This unit takes over in a mirrored pair: sessions PREPARING or OPEN prepare again from their maps (R216). -/
def Hw.sessionsTakeover (h : Hw) : Hw :=
  (List.range 256).foldl (fun h n =>
    let st := h.reg Od.redState n
    if st = 1 ∨ st = 2 then
      let lost := h.reg Od.redOpenNow n
      let x := h.ses n
      let h := h.setSes n { x with chunks := [], parked := [], reread := true }
      let h := h.zeroRegs [Od.redOpenNow, Od.redChunksDone, Od.redChunksPartial, Od.redParked] n
      let h := h.addReg Od.redChunksLost n lost
      let h := h.setRedState n 1
      h.sessionNotice n 0x14 [(32, lost), (64, h.reg Od.redMapBase n), (8, 2)]
    else h) h

end Sys2Proof.Machine
end

