-- ==== Sys2Proof/Machine/Parity.lean ====
section
/-! DEFINITION. Commands of chapter 11 inside a parity group: write intents, deltas, settle notices, the degrade of a failed
stack, degraded reads (R237 to R242). -/

namespace Sys2Proof.Machine

/-! ### Intents, deltas, settle notices (R237, R238) -/

/-- Add to the intent count of a sector; an entry whose count is 0 is freed. -/
def Hw.addIntent (h : Hw) (k : Nat) (n : Int) : Hw :=
  { h with par.intents := Table.setD h.par.intents (fun _ => 0) k (Table.atD h.par.intents (fun _ => 0) k + n) }

/-- WRITE_INTENT (R238): the oldest intent on its way to a parity slice adds 1 to its sector's count. -/
def execWriteIntent (stack : StackIx) (s : State) : Host.Outcome State Fault Refusal :=
  s.on (fun h =>
    match Table.atD h.par.intentsIn (fun _ => []) stack with
    | [] => h
    | x :: rest => { h with par.intentsIn := Table.setD h.par.intentsIn (fun _ => []) stack rest }.addIntent x.2 1)

/-- PARITY_DELTA (R237 step 4): the parity slice applies every delta staged for the sector of the oldest one. -/
def execParityDelta (stack : StackIx) (s : State) : Host.Outcome State Fault Refusal :=
  s.on (fun h =>
    match h.deltasAt stack with
    | [] => h
    | d :: _ => h.settleDeltas stack d.off)

/-- A settle notice subtracts the writes merged from its sector's count. -/
def Hw.settleOne (h : Hw) (n : Settle) : Hw := h.addIntent (secKey n.dataStack n.off) (-(n.merges : Int))

/-- SETTLE_NOTICE (R238): the oldest settle notice of a data slice. -/
def execSettleNotice (stack : StackIx) (s : State) : Host.Outcome State Fault Refusal :=
  s.on (fun h =>
    match Table.atD h.par.settles (fun _ => []) stack with
    | [] => h
    | n :: rest => { h with par.settles := Table.setD h.par.settles (fun _ => []) stack rest }.settleOne n)

/-! ### The degrade of a failed stack (R239) -/

/-- Everything sent to the parity slices of a group before a declaration lands: intents, and deltas of the failed stack. -/
def Hw.landParity (h : Hw) (p s : Nat) : Hw :=
  (h.members p).foldl (fun h t =>
    let q := Table.atD h.par.intentsIn (fun _ => []) t
    let h := { h with par.intentsIn := Table.del h.par.intentsIn t }
    let h := q.foldl (fun h x => h.addIntent x.2 1) h
    ((h.deltasAt t).filter (fun d => d.dataStack == s)).foldl (fun h d => h.settleDeltas t d.off) h) h

/-- The write-combining sectors of a stack, older evictions of a sector first. -/
def Hw.bufferedOf (h : Hw) (s : Nat) : List (Nat × Wcb) :=
  let mine {α : Type} (t : Table α) : List (Nat × α) := t.filter (fun e => decide (secStack e.1 = s))
  mine h.mem.rmw ++ (mine h.mem.wcbWait).flatMap (fun e => e.2.map (fun w => (e.1, w))) ++ mine h.mem.wcb

/-- A stack's write-combining sectors leave it. -/
def Hw.emptyBuffer (h : Hw) (s : Nat) : Hw :=
  let mine (k : Nat) : Bool := decide (secStack k = s)
  { h with mem.rmw := Table.drop h.mem.rmw mine, mem.wcbWait := Table.drop h.mem.wcbWait mine, mem.wcb := Table.drop h.mem.wcb mine }

/-- Reads of a stack's read-modify-writes leave its queues: their sectors have gone to the proxy. -/
def Hw.dropRmwReads (h : Hw) (s : Nat) : Hw :=
  let notRead (x : QEntry) : Bool := x.kind != 2
  let h := h.setStage s ((h.stage s).filter notRead)
  (List.range 64).foldl (fun h pc => h.setQueue (gOf s pc) ((h.queue (gOf s pc)).filter notRead)) h

/-- The failed slice drains: its sectors go to the proxy, which applies them as degraded writes (R241). -/
def Hw.drainFailed (h : Hw) (s : Nat) : Hw :=
  let ws := h.bufferedOf s
  (ws.foldl (fun h w => h.storeLost s (secOff w.1) w.2) ((h.emptyBuffer s).dropRmwReads s))

/-- The proxy collects what is uncleared: each such sector becomes unsettled, all four of its lines. -/
def Hw.collectIntents (h : Hw) (s : Nat) : Hw :=
  let settles := Table.atD h.par.settles (fun _ => []) s
  let h := settles.foldl (fun h n => h.settleOne n) { h with par.settles := Table.del h.par.settles s }
  let mine (k : Nat) : Bool := decide (secStack k = s)
  let open_ := h.par.intents.filter (fun e => mine e.1 && decide (0 < e.2))
  let h := { h with par.intents := Table.drop h.par.intents mine }
  open_.foldl (fun h e => { h with mem.unsettled := Table.setD h.mem.unsettled (fun _ => 0) e.1 15 }) h

/-- DEGRADE_DRAIN_END (R239): the drain of a failed stack ends, at 20 µs when its slice does not answer; what is uncleared is
collected. -/
def execDegradeDrainEnd (stack : StackIx) (s : State) : Host.Outcome State Fault Refusal :=
  s.on (fun h =>
    let st := stack.val
    match h.par.degrades.find? (fun d => d.stack == st) with
    | none => h
    | some d =>
      let answers := !(h.modulesIn st .up).isEmpty
      if d.collected ∨ (!answers ∧ h.now < d.since + 20000) then h
      else
        let h := h.landParity d.part st
        let h := if answers then h.drainFailed st else (h.emptyBuffer st).dropRmwReads st
        let h := h.collectIntents st
        { h with par.degrades := h.par.degrades.map (fun x => if x.stack = st then { x with collected := true } else x) })

/-- The directory entries of a failed slice are gone; its snoops with them (R157). -/
def Hw.dropDirectory (h : Hw) (s : Nat) : Hw :=
  let keys := (h.coh.dir.filter (fun e => decide (e.1 / 16 / 65536 = s))).map (fun e => e.1)
  let h := keys.foldl (fun h k => h.freeWay k) h
  { h with coh.dirPend := h.coh.dirPend.filter (fun d => decide (d.key / 16 / 65536 ≠ s)),
           coh.snoops := Table.drop h.coh.snoops (fun k => decide (k / 4096 = s)),
           coh.snoopQ := Table.del h.coh.snoopQ s }

/-- Requests in flight to the failed slice are reissued to the proxy; ATMs complete with POISON, their effect unknown. -/
def Hw.reissue (h : Hw) (s t : Nat) : Hw :=
  let atm (p : Piece) : Bool := p.op == 5
  let waiting := h.dirIn s ++ (h.dirWaiting s).filter (fun p => p.source == 0)
  let input := h.inbox s
  let h := ((h.setDirIn s []).setDirWaiting s []).setInbox s []
  let h := ((waiting ++ input).filter atm).foldl (fun h p => h.complete p.trk St.poison (List.replicate 64 0) [true, true]) h
  let keep (l : List Piece) : List Piece := (l.filter (fun p => !atm p)).map (fun p => { p with gathered := [] })
  let h := h.setInbox t (h.inbox t ++ keep waiting ++ keep input)
  let entries := h.stage s ++ (List.range 64).flatMap (fun pc => h.queue (gOf s pc))
  let h := (List.range 64).foldl (fun h pc => h.setQueue (gOf s pc) []) (h.setStage s [])
  entries.foldl (fun h x => h.divert x) h

/-- DEGRADE_COMPLETE (R239): routing switches to the degraded path, the group is DEGRADED, held requests are released. -/
def execDegradeComplete (stack : StackIx) (s : State) : Host.Outcome State Fault Refusal :=
  s.on (fun h =>
    let st := stack.val
    match h.par.degrades.find? (fun d => d.stack == st && d.collected) with
    | none => h
    | some d =>
      let h := h.dropDirectory st
      let h := h.sessionsToProxy st
      let h := h.reissue st ((h.proxyOf st).getD st)
      let h := if h.reg Od.partState d.part = 3 then h.setReg Od.partState d.part 4 else h
      let h := { h with par.degrades := h.par.degrades.filter (fun x => x.stack != st) }
      h.raise { kind := 0x17, stack := some st, part := some d.part })

/-! ### Degraded reads (R240) -/

/-- DEGRADED_READ (R240): the proxy serves the oldest read waiting on the degraded path, a line at a time. -/
def execDegradedRead (stack : StackIx) (s : State) : Host.Outcome State Fault Refusal :=
  s.on (fun h =>
    match Table.atD h.par.degReads (fun _ => []) stack with
    | [] => h
    | p :: rest =>
      let h := { h with par.degReads := Table.setD h.par.degReads (fun _ => []) stack rest }
      match h.trk p.trk with
      | none => h
      | some t =>
        let (bytes, bad, h) := h.readBytes p.stack p.off p.len (some p.requester) 0
        (List.range (p.len / 64)).foldl (fun h i =>
          h.deliver p.trk (p.dpa + 64 * i - t.rq.addr) ((bytes.drop (64 * i)).take 64) (bad.getD i false) 2) h)

end Sys2Proof.Machine
end

