-- ==== Sys2Proof/Machine/Part.lean ====
section
/-! DEFINITION. Partitions: CREATE, GROW, RELEASE, the drain, fills and the release scrub; the key install that starts a fill
(R35 to R40, R275, R277, R279, R285, R287 to R289). -/

namespace Sys2Proof.Machine

/-! ### Coarse values (R285) -/

/-- Operators begin to see coarse values: what they read is taken now, and refreshed from here on. -/
def Hw.beginCoarse (h : Hw) : Hw :=
  let h := { h with odMs := h.od, odPace := h.od.filter (fun e => isPace e.1), odPower := h.od }
  ((h.setTimer Tm.coarse 0 ((h.now / 1000000 + 1) * 1000000)).setTimer Tm.paceRef 0 (h.now + 100000000)).setTimer Tm.power 0
    (h.now + 100000000)

/-! ### Validity (R35, R38) -/

/-- The hub of a stack within a cascade. -/
def hubOf (s : Nat) : Nat := s / 8

/-- Is a stack growing into a partition. -/
def Hw.growing (h : Hw) (s : Nat) : Bool := h.sec.parts.any (fun e => e.2.growing.testBit s)

/-- May a stack be named by a CREATE or a GROW. -/
def Hw.stackFree (h : Hw) (s : Nat) : Bool :=
  decide (h.reg Od.stackState s = 1) && (h.partOf s).isNone && !h.growing s && decide (h.reg Od.testStack ≠ s)

/-- Stacks that count as a partition's: its own and those growing into it. -/
def Hw.partMask (h : Hw) (p : Nat) : Nat := h.reg Od.partStacks p ||| (Table.atD h.sec.parts (fun _ => {}) p).growing

/-- Does the limit of eight partitions per hub hold when partition `p` holds the stacks of `m`. -/
def Hw.hubLimit (h : Hw) (p m : Nat) : Bool :=
  [0, 1].all (fun b =>
    decide (((List.range 16).filter (fun q =>
      let mask := if q = p then m else if h.inUse q then h.partMask q else 0
      (bitsOf mask).any (fun s => hubOf s == b))).length ≤ 8))

/-- Is the unit a cascade, so that P8–P15 exist (R35). -/
def Hw.isCascade (h : Hw) : Bool := decide (h.boot.shape = 1 ∨ h.boot.shape = 3)

/-- Is a CREATE of partition `p` valid (R38). -/
def Hw.createOk (h : Hw) (p : Nat) : Bool :=
  let m := h.reg Od.partStacks p
  let ss := bitsOf m
  let same (f : Nat → Nat) : Bool := ss.all (fun s => decide (f s = f (ss.headD 0)))
  decide (h.reg Od.lcState = 2) && (decide (p < 8) || h.isCascade) && decide (1 ≤ ss.length ∧ ss.length ≤ 8) &&
    ss.all (fun s => h.stackFree s) && h.hubLimit p m &&
    (!h.parityOn p || (decide (2 ≤ ss.length) && same hubOf && same (fun s => h.reg Od.stackHeight s) && same (fun s => h.reg Od.stackDieGbit s))) &&
    decide (h.reg Od.partOwner p ≠ 0 ∧ h.reg Od.tamperSeen = 0 ∧ h.reg Od.dbgHalted = 0)

/-- Is a GROW of partition `p` valid (R38). -/
def Hw.growOk (h : Hw) (p : Nat) : Bool :=
  let g := h.reg Od.partGrow p
  let m := h.reg Od.partStacks p ||| g
  decide (h.reg Od.lcState = 2) && !h.parityOn p && decide (bitsOf g ≠ []) && (bitsOf g).all (fun s => h.stackFree s) &&
    decide ((bitsOf m).length ≤ 8) && h.hubLimit p m

/-! ### Fills (R37, R287) -/

/-- The fill of partition `p` under a key with its layout. -/
def Hw.fillFor (h : Hw) (p s : Nat) (key : BitVec 512) : Fill :=
  { key := key, epoch := h.reg Od.partEpoch p, gb := h.grainLog (some p), sids := h.sids s,
    group := if h.parityOn p then h.members p else [] }

/-- A pseudo-channel holds a fill: nothing has written its columns since. -/
def Hw.putFill (h : Hw) (g : Nat) (f : Fill) : Hw :=
  { h with mem.dram := Table.drop h.mem.dram (fun k => decide (k / 2 ^ 32 = g)), mem.fills := Table.put h.mem.fills g f }

/-- Fill a stack: every pseudo-channel that is not FAILED holds the fill, remapped columns in their slots too; what waited to
be written there is gone, and no line is unsettled. -/
def Hw.fillStack (h : Hw) (s : Nat) (f : Fill) : Hw :=
  let keep (x : QEntry) : Bool := x.kind == 0
  let h := (h.emptyBuffer s).setStage s ((h.stage s).filter keep)
  let h := { h with mem.unsettled := Table.drop h.mem.unsettled (fun k => decide (secStack k = s)) }
  (List.range 64).foldl (fun h pc =>
    let g := gOf s pc
    if h.reg Od.pcState g = 6 then h
    else
      let h := h.setQueue g ((h.queue g).filter keep)
      let h := h.putFill g f
      (List.range 16).foldl (fun h n =>
        let e := h.elem Od.remapTable g n
        if 2 ^ 63 ≤ e then
          h.putSpare g n (f.word s { pc := pc, bank := e / 2 ^ 57 % 64, row := e / 2 ^ 42 % 32768, col := e / 2 ^ 37 % 32 })
        else h) h) h

/-- Registers of a partition that its CREATE and its return to FREE restore (R276, R314). -/
def Hw.resetPartClass (h : Hw) (p : Nat) : Hw :=
  let h := h.resetRegs (fun k =>
    decide (keyInst k = p ∧ (keyReg k).cls = .part) &&
      match recOf (keyReg k).index with
      | some d => decide (d.tie = .part)
      | none => false)
  { h with car.weightLog := Table.drop h.car.weightLog (fun k => decide (k / 1024 = p)),
           msg.lossRing := Table.drop h.msg.lossRing (fun k => decide (k / 4096 = p)) }

/-- The four tenant counters of a partition return to source NONE (R365); as with every change of source their counts
clear (R359). -/
def Hw.idleCounters (h : Hw) (p : Nat) : Hw :=
  (List.range 4).foldl (fun h k => (h.setReg Od.selSource (0xc0 + 4 * p + k) 0).setReg Od.selCount (0xc0 + 4 * p + k) 0) h

/-! ### CREATE, GROW, key install -/

/-- CREATE (R37, R38; a halted steward core ignores it, R389): the epoch rises, the stacks are bound, the partition waits for its key. -/
def Hw.createPart (h : Hw) (a : Actor) (p : Nat) : Hw :=
  if h.reg Od.partState p ≠ 0 ∨ h.reg Od.dbgHalted ≠ 0 then h.ignore a Od.partCommand p Why.wrongState
  else if !h.createOk p then h.ignore a Od.partCommand p Why.invalidCommand
  else
    let first := !h.confidential
    let ss := bitsOf (h.reg Od.partStacks p)
    let caps := ss.map (fun s => h.reg Od.stackCapacity s)
    let low := caps.foldl min (caps.headD 0)
    let h := (h.resetPartClass p).idleCounters p
    let h := h.addReg Od.partEpoch p
    let h := h.setReg Od.partVisible p (if h.parityOn p then visibleOf low ss.length else low)
    let h := ((h.setReg Od.partAlloc p 1).setReg Od.partState p 1).setReg Od.partFailedStacks p 0
    let h := { h with sec.parts := Table.del h.sec.parts p }
    let h := ss.foldl (fun h s => h.suspectSlice s false) h
    let h := h.armWm (0x90 + p)
    if first then h.beginCoarse else h

/-- GROW (R37, R38): the stacks of part_grow begin to fill. -/
def Hw.growPart (h : Hw) (a : Actor) (p : Nat) : Hw :=
  let x := Table.atD h.sec.parts (fun _ => {}) p
  if h.reg Od.partState p ≠ 3 ∨ x.growing ≠ 0 then h.ignore a Od.partCommand p Why.wrongState
  else if !h.growOk p then h.ignore a Od.partCommand p Why.invalidCommand
  else { h with sec.parts := Table.put h.sec.parts p { x with growing := h.reg Od.partGrow p } }

/-- The key install (R277): in KEY_WAIT, with K1 ≠ K2, the key enters its slot and the fill starts. -/
def Hw.installKey (h : Hw) (a : Actor) (p : Nat) (key : BitVec 512) : Hw :=
  if h.reg Od.partState p ≠ 1 then h.ignore a Od.keyInstall p Why.wrongState
  else if key.extractLsb' 0 256 = key.extractLsb' 256 256 then h.ignore a Od.keyInstall p Why.reservedValue
  else
    let h := { h with sec.memKeys := Table.put h.sec.memKeys p key }
    let h := (h.setReg Od.secKeyInstalled p 1).setReg Od.partState p 2
    if h.mirroring then h.sendMirror { seqNo := 0, kind := 4, key := p, value := key.toNat } else h

/-- PARTITION_FILL_DONE (R37): every stack that is not FAILED holds zeros under the key; the partition serves. In a pair it is
then SYNCED (R258). -/
def execPartitionFillDone (part : PartIx) (s : State) : Host.Outcome State Fault Refusal :=
  s.on (fun h =>
    let p := part.val
    match Table.look h.sec.memKeys p with
    | some key =>
      if h.reg Od.partState p ≠ 2 then h
      else
        let h := ((h.members p).filter (fun s => !h.failed s)).foldl (fun h s => h.fillStack s (h.fillFor p s key)) h
        let h := h.setReg Od.partState p (if h.parityOn p ∧ h.reg Od.partFailedStacks p ≠ 0 then 4 else 3)
        if h.reg Od.pairState = 4 ∨ h.reg Od.pairState = 7 then h.setReg Od.syncState p 2 else h
    | none => h)

/-- GROW_FILL_DONE (R38): every growing stack that is not FAILED is filled and bound; part_grow clears. -/
def execGrowFillDone (part : PartIx) (s : State) : Host.Outcome State Fault Refusal :=
  s.on (fun h =>
    let p := part.val
    let x := Table.atD h.sec.parts (fun _ => {}) p
    match Table.look h.sec.memKeys p with
    | some key =>
      if h.reg Od.partState p ≠ 3 ∨ x.growing = 0 then h
      else
        let new := bitsOf (x.growing &&& h.reg Od.partGrow p)
        let h := new.foldl (fun h s => ((h.fillStack s (h.fillFor p s key)).setBit Od.partStacks p s true).suspectSlice s false) h
        let h := { (h.setReg Od.partGrow p 0) with sec.parts := Table.put h.sec.parts p { x with growing := 0 } }
        let caps := (h.members p).map (fun s => h.reg Od.stackCapacity s)
        h.setReg Od.partVisible p (caps.foldl min (caps.headD 0))
    | none => h)

/-! ### RELEASE (R40, R287) -/

/-- A scrub marker (R287). -/
def markerBits (p : Nat) (destroyed : Bool) (members epoch hwm : Nat) : BitVec 256 :=
  BitVec.ofNat 256 (2 ^ 255 + p % 16 * 2 ^ 251 + (if destroyed then 2 ^ 250 else 0) + members % 65536 * 2 ^ 234
    + epoch % 2 ^ 32 * 2 ^ 202 + hwm % 2 ^ 37 * 2 ^ 165)

/-- Write the marker of partition `p`, its hwm copied to part_scrub_hwm. -/
def Hw.putMarker (h : Hw) (p : Nat) (destroyed : Bool) (hwm : Nat) : Hw :=
  let m := markerBits p destroyed (h.reg Od.partStacks p) (h.reg Od.partEpoch p) hwm
  { h with sec.markers := Table.put h.sec.markers p m }.setReg Od.partScrubHwm p hwm

/-- Is a marker's key destroyed, and how far is its fill. -/
def Hw.markerDestroyed (h : Hw) (p : Nat) : Bool := (Table.atD h.sec.markers (fun _ => 0) p).getLsbD 250
def Hw.markerHwm (h : Hw) (p : Nat) : Nat := ((Table.atD h.sec.markers (fun _ => 0) p).extractLsb' 165 37).toNat

/-- A weight key slot is zeroized and unbound (R280). -/
def Hw.destroyWeight (h : Hw) (n : Nat) : Hw :=
  { h with car.weightKeys := Table.del h.car.weightKeys n }.setReg Od.wkPartition n 0xff

/-- Destroy the memory key of a partition and its weight key slots (R279). -/
def Hw.destroyKeys (h : Hw) (p : Nat) : Hw :=
  let h := { h with sec.memKeys := Table.del h.sec.memKeys p }
  let h := h.setReg Od.secKeyInstalled p 0
  (List.range 256).foldl (fun h n => if h.reg Od.wkPartition n = p then h.destroyWeight n else h) h

/-- Change what the model keeps of a partition's transition. -/
def Hw.modPart (h : Hw) (p : Nat) (f : PartX → PartX) : Hw :=
  { h with sec.parts := Table.put h.sec.parts p (f (Table.atD h.sec.parts (fun _ => {}) p)) }

/-- Steps 1 and 2 of the release scrub: the marker, then the keys. -/
def Hw.beginScrub (h : Hw) (p : Nat) : Hw :=
  let h := (h.putMarker p false 0).destroyKeys p
  (h.putMarker p true 0).modPart p (fun x => { x with stage := 3, filled := false, stopped := false })

/-- Device interfaces of a partition enter ERROR when it leaves ACTIVE or DEGRADED (R275). -/
def Hw.tdiError (h : Hw) (p : Nat) : Hw :=
  let rs := (h.od.filterMap (fun e => if keyReg e.1 = Od.tdiLocked ∨ keyReg e.1 = Od.tdiRun then some (keyInst e.1) else none)).dedup
  rs.foldl (fun h r =>
    if h.bit Od.tdiLocked r p || h.bit Od.tdiRun r p then
      ((h.setBit Od.tdiLocked r p false).setBit Od.tdiRun r p false).setBit Od.tdiError r p true
    else h) h

/-- Caravan programs bound to a partition: launches end with ABORT, records become EMPTY (R165, R171). -/
def Hw.releasePrograms (h : Hw) (p : Nat) : Hw :=
  let bound (h : Hw) (n : Nat) : Bool := h.bit Od.progBind n p
  let h := (List.range 64).foldl (fun h e => h.faultEngine e Cf.abort (fun l => bound h l.prog)) h
  let h := (List.range 16).foldl (fun h s =>
    let q := Table.atD h.car.launchIn (fun _ => []) s
    let out := q.filter (fun l => bound h l.prog)
    let h := { h with car.launchIn := Table.setD h.car.launchIn (fun _ => []) s (q.filter (fun l => !bound h l.prog)) }
    out.foldl (fun h l => match l.trk with | some uid => h.complete uid St.aborted | none => h) h) h
  (List.range 128).foldl (fun h n => if h.reg Od.progState n ≠ 0 ∧ bound h n = true then h.progEmpty n else h) h

/-- A partition's stacks are unbound and it is FREE (R37). -/
def Hw.freePart (h : Hw) (p : Nat) : Hw :=
  let h := h.zeroRegs [Od.partStacks, Od.partGrow, Od.partFailedStacks, Od.partScrubHwm, Od.partAlloc, Od.partState, Od.syncState,
    Od.syncHwm] p
  let h := (h.setReg Od.syncStack p 0xff).resetPartClass p
  { h with sec.parts := Table.del h.sec.parts p, sec.markers := Table.del h.sec.markers p }

/-- What a group kept for parity goes with its partition. -/
def Hw.dropParity (h : Hw) (p : Nat) : Hw :=
  let mine (s : Nat) : Bool := (h.members p).contains s
  { h with par.intents := Table.drop h.par.intents (fun k => mine (secStack k)),
           par.intentsIn := Table.drop h.par.intentsIn mine,
           par.deltas := Table.drop h.par.deltas mine,
           par.settles := Table.drop h.par.settles mine,
           par.degrades := h.par.degrades.filter (fun d => d.part != p) }

/-- RELEASE (R37, R39, R40): in KEY_WAIT the partition is FREE at once; while it fills the scrub begins at once; otherwise it
drains. One whose verification has stopped starts its fill again (R288). -/
def Hw.releasePart (h : Hw) (a : Actor) (p : Nat) : Hw :=
  let x := Table.atD h.sec.parts (fun _ => {}) p
  match h.reg Od.partState p with
  | 1 => (h.idleCounters p).freePart p
  | 2 => (((h.idleCounters p).setReg Od.partState p 5).dropParity p).beginScrub p
  | 3 | 4 =>
    -- a RELEASE while a GROW fills stops that fill and takes the growing stacks along
    let h := (h.idleCounters p).setReg Od.partStacks p (h.reg Od.partStacks p ||| x.growing)
    let h := (h.setReg Od.partState p 5).modPart p (fun x => { x with growing := 0, stage := 1 })
    ((h.tdiError p).releasePrograms p).releaseSessions p
  | 5 =>
    if x.stopped then (h.putMarker p true 0).modPart p (fun x => { x with filled := false, stopped := false })
    else h.ignore a Od.partCommand p Why.wrongState
  | _ => h.ignore a Od.partCommand p Why.wrongState

/-- The ways of partition `p`. -/
def Hw.waysOf (h : Hw) (p : Nat) : List Nat :=
  (h.coh.dir.filter (fun e => decide (e.2.part = p ∧ e.2.st ≠ .invalid))).map (fun e => e.1)

/-- Step 5 of R40: INV to the holders of each SHARED and OWNED entry, LOST ones dropped. -/
def Hw.resolveDirectory (h : Hw) (p : Nat) : Hw :=
  (h.waysOf p).foldl (fun h k =>
    let e := h.way k
    if e.busy then h
    else if e.st = .lost then h.freeWay k
    else h.snoopHolders e.home k (e.tag * 65536 + k / 16 % 65536) 4096 false) h

/-- PARTITION_DRAIN_DONE (R40): no tracker entry addresses the partition; the directory's entries are resolved and, when none
is left, the suspect bits clear, the marker is written and the keys are destroyed. -/
def execPartitionDrainDone (part : PartIx) (s : State) : Host.Outcome State Fault Refusal :=
  s.on (fun h =>
    let p := part.val
    let x := Table.atD h.sec.parts (fun _ => {}) p
    if h.reg Od.partState p ≠ 5 ∨ h.req.trackers.any (fun e => e.2.part == some p) then h
    else if x.stage = 1 ∨ x.stage = 2 then
      let h := (h.resolveDirectory p).modPart p (fun x => { x with stage := 2 })
      if (h.waysOf p).isEmpty then
        let h := (h.members p).foldl (fun h s => h.suspectSlice s false) h
        (h.dropParity p).beginScrub p
      else h
    else h)

/-! ### The release scrub (R287 to R289) -/

/-- The fill key of a scrub (R288). -/
def Hw.fillKey (h : Hw) (p : Nat) : BitVec 512 :=
  let half (n : Nat) : List Byte :=
    hmac384 (bytesOf h.sec.fillSecret 32) ([0x66, 0x69, 0x6c, 0x6c] ++ [BitVec.ofNat 8 p] ++ natBytes (h.reg Od.partEpoch p) 4 ++ [BitVec.ofNat 8 n])
  BitVec.ofNat 512 (bytesNat ((half 1 ++ half 2).take 64))

/-- The stacks of a partition that a scrub fills: those not FAILED. -/
def Hw.scrubbed (h : Hw) (p : Nat) : List Nat := (h.members p).filter (fun s => !h.failed s)

/-- Where the longest visible range of the stacks scrubbed ends. -/
def Hw.scrubEnd (h : Hw) (p : Nat) : Nat := ((h.scrubbed p).map (fun s => h.visibleEnd p s)).foldl max 0

/-- SCRUB_HWM_STEP (R287): every stack has passed the next 256 MiB boundary, or the end of its range; the fill is complete at
the end. -/
def execScrubHwmStep (part : PartIx) (s : State) : Host.Outcome State Fault Refusal :=
  s.on (fun h =>
    let p := part.val
    let x := Table.atD h.sec.parts (fun _ => {}) p
    if h.reg Od.partState p ≠ 5 ∨ x.stage ≠ 3 ∨ x.filled ∨ x.stopped ∨ !h.markerDestroyed p then h
    else
      let at_ := h.markerHwm p
      let end_ := h.scrubEnd p
      let h := if at_ + 2 ^ 28 ≤ end_ then h.putMarker p true (at_ + 2 ^ 28) else h
      if end_ ≤ at_ + 2 ^ 28 then
        let key := h.fillKey p
        let h := (h.scrubbed p).foldl (fun h s => h.fillStack s (h.fillFor p s key)) h
        h.modPart p (fun x => { x with filled := true })
      else h)

/-- The staging of a stack's engines is filled with zeros (R187). -/
def Hw.zeroStaging (h : Hw) (s : Nat) : Hw :=
  { h with car.staging := Table.drop h.car.staging (fun k => decide (k / 2 ^ 23 / 4 = s)) }

/-- SCRUB_VERIFY (R288): the samples of every stack are read. `failing`: stacks where a sample has failed for the third time; the
partition then stays RELEASING. With none, the staging is zeroed, the marker clears and the partition is FREE. -/
def execScrubVerify (part : PartIx) (failing : List StackIx) (s : State) : Host.Outcome State Fault Refusal :=
  s.on (fun h =>
    let p := part.val
    let x := Table.atD h.sec.parts (fun _ => {}) p
    if h.reg Od.partState p ≠ 5 ∨ !x.filled ∨ x.stopped then h
    else
      let bad := (failing.map (fun s => s.val)).filter (fun s => (h.scrubbed p).contains s)
      if bad.isEmpty then ((h.members p).foldl (fun h s => h.zeroStaging s) h).freePart p
      else
        (bad.foldl (fun h s => h.raise { kind := 0x22, stack := some s, part := some p }) h).modPart p (fun x => { x with stopped := true }))

/-- SCRUB_RESUME (R289): a scrub that a reset interrupted goes on: at step 2 when the key is not destroyed, else from hwm. -/
def execScrubResume (part : PartIx) (s : State) : Host.Outcome State Fault Refusal :=
  s.on (fun h =>
    let p := part.val
    if h.reg Od.partState p ≠ 6 then h
    else
      let h := h.setReg Od.partState p 5
      if h.markerDestroyed p then h.modPart p (fun x => { x with stage := 3, filled := false, stopped := false })
      else h.beginScrub p)

end Sys2Proof.Machine
end

