-- ==== Sys2Proof/Machine/Pair.lean ====
section
/-! DEFINITION. Span ports, the cascade, mirrored pairs, leases, takeover and resync (R244 to R259). -/

namespace Sys2Proof.Machine

/-! ### Formation (R248, R249) -/

/-- The bytes of a register in its dictionary encoding, least significant first. -/
def Hw.regBytes (h : Hw) (r : Reg) (i : Nat := 0) : List Byte := natBytes (h.reg r i) ((r.width + 7) / 8)

/-- The formation set of the unit's shape, in table order. -/
def Hw.formationSet (h : Hw) : List Byte :=
  let shape := h.boot.shape
  let roles : List Byte := if shape = 1 ∨ shape = 3 then [1, 2] else [0]
  let base := h.regBytes Od.hubVariant ++ natBytes (h.reg Od.fwVersion / 65536) 2 ++ h.regBytes Od.dictSchema ++ h.regBytes Od.unitShape ++ roles
  if shape = 2 ∨ shape = 3 then
    base ++ (List.range 16).flatMap (fun s =>
      h.regBytes Od.stackState s ++ h.regBytes Od.stackHeight s ++ h.regBytes Od.stackDieGbit s ++ h.regBytes Od.stackPinRate s)
  else base

/-- Take the digest of the formation set. -/
def Hw.takeFormation (h : Hw) : Hw := h.setReg Od.formationDigest 0 (sha384Nat h.formationSet)

/-- Do the peer's records allow formation: equal major version and digest. -/
def Hw.formationOk (h : Hw) (fw digest : Nat) : Bool :=
  decide (fw / 65536 = h.reg Od.fwVersion / 65536 ∧ digest = h.reg Od.formationDigest)

/-- Keep what the peer published. -/
def Hw.notePeer (h : Hw) (fw digest : Nat) : Hw := (h.setReg Od.peerFwVersion 0 fw).setReg Od.peerFormationDigest 0 digest

/-- The timebase steps by an offset. -/
def Hw.stepTime (h : Hw) (d : Int) : Hw := { h with now := ((h.now : Int) - d).toNat, boot.releasedAt := h.boot.releasedAt - d }

/-! ### Span ports (R244, R245) -/

/-- Consequences of SP0 going DOWN in a cascade that is JOINED (R250), and of a cascade span lost in a pair (R256). -/
def Hw.cascadeLost (h : Hw) : Hw :=
  let h := h.setReg Od.cascadeState 0 4
  let h := if h.reg Od.cascadeRole = 1 then
      (List.range 8).foldl (fun h i => if h.reg Od.stackState (8 + i) = 1 then h.failStack (8 + i) else h.setReg Od.stackState (8 + i) 2) h
    else
      h.req.trackers.foldl (fun h e =>
        let r := e.2.rq
        h.complete e.1 St.poison (if r.op = 1 then List.replicate r.bytes 0 else if r.op = 5 then List.replicate 64 0 else [])
          (if r.op = 1 then List.replicate (r.len + 1) true else if r.op = 5 then [true, true] else [])) h
  if h.reg Od.pairState = 4 then h.fenceUnit else h

/-- A span port goes DOWN, with the event that says why. -/
def Hw.downSpan (h : Hw) (p kind : Nat) : Hw :=
  let left := (h.span p).buf
  let h := (h.setSpan p { st := .failed }).setBit Od.spanState 0 p false
  let h := h.raise { kind := kind, payload := packFields [(8, p)] }
  if h.pairLink p then
    if [0, 1].any (fun q => h.pairLink q && h.spanUp q) then
      -- the other pair link is up: traffic reroutes to it (R251, R259)
      left.foldl (fun h f => h.sendPeer f.kind f.vc f.payload) (h.raise { kind := 0x20, payload := packFields [(8, p)] })
    else h
  else if h.reg Od.cascadeState = 3 then h.cascadeLost
  else h

/-- A span port starts a retrain. -/
def Hw.retrainSpan (h : Hw) (p : Nat) : Hw :=
  let l := h.span p
  h.setSpan p { l with st := .retrain, retrains := l.retrains + 1 }

/-- SPAN_FLIT_RECEIVE (R244, R245): as a qanat flit; on a pair link a failed tag counts as a CRC failure, and three within 1 ms
put the link DOWN. Eight failed replays start a retrain. -/
def execSpanFlitReceive (port : Fin 2) (header : BitVec 32) (payload : List Byte) (crc : BitVec 32) (tagOk : Bool) (s : State) :
    Host.Outcome State Fault Refusal :=
  s.on (fun h =>
    let p := port.val
    let l := h.span p
    if l.st ≠ .up then h
    else
      let tagBad := h.pairLink p && !tagOk
      let good := flitGood header payload crc && !tagBad
      let (l, _, _) := l.take h.now header payload good
      let fails := if tagBad then l.tagFails.filter (fun t => decide (h.now < t + 1000000)) ++ [h.now] else l.tagFails
      let h := h.setSpan p { l with tagFails := fails }
      let h := if good ∧ h.pairLink p = true then h.setTimer Tm.peerRx 0 h.now else h
      if tagBad ∧ 3 ≤ fails.length then h.downSpan p 0x19
      else if 8 ≤ l.replays then h.retrainSpan p
      else h.pumpSpan p)

/-- SPAN_IDLE_RETRAIN (R244): no valid flit for 2 µs. -/
def execSpanIdleRetrain (port : Fin 2) (s : State) : Host.Outcome State Fault Refusal :=
  s.on (fun h =>
    let l := h.span port
    if l.st = .up ∧ l.lastRx + 2000 ≤ h.now then h.retrainSpan port else h)

/-- SPAN_RETRAIN_DONE (R244): the port carries flits again; a retrain that did not deliver the flit that failed counts. -/
def execSpanRetrainDone (port : Fin 2) (delivered : Bool) (s : State) : Host.Outcome State Fault Refusal :=
  s.on (fun h =>
    let l := h.span port
    if l.st ≠ .retrain then h
    else
      let n := { l.renumber with st := .up, lastRx := h.now }
      (h.setSpan port (if delivered then { n with retrains := 0, firstFail := none } else { n with retrains := l.retrains })).pumpSpan port)

/-- A flit of a span port is still undelivered after two retrains, or at the end of the retry budget of 100 µs (R244). -/
def Link.givesUp (l : Link) (now : Nat) : Bool :=
  let late := match l.firstFail with
    | some t => decide (t + 100000 ≤ now)
    | none => false
  decide ((l.st = .up ∨ l.st = .retrain) ∧ l.buf ≠ []) && (decide (2 ≤ l.retrains) || late)

/-- SPAN_DOWN (R244): a flit still undelivered after two retrains, or at the end of the retry budget of 100 µs. -/
def execSpanDown (port : Fin 2) (s : State) : Host.Outcome State Fault Refusal :=
  s.on (fun h =>
    if (h.span port).givesUp h.now then h.downSpan port 0x18 else h)

/-! ### The cascade (R250) -/

/-- The pair begins to form: its links train (R256). -/
def Hw.startPair (h : Hw) : Hw := (h.setReg Od.pairState 0 1).setTimer Tm.spanTrain 1 h.now

/-- The cascade begins to form: SP0 trains. -/
def Hw.startCascade (h : Hw) : Hw := (h.setReg Od.cascadeState 0 1).setTimer Tm.spanTrain 0 h.now

/-- A span port is up. -/
def Hw.raiseSpan (h : Hw) (p : Nat) : Hw :=
  (h.setSpan p { (h.span p).renumber with st := .up, lastRx := h.now, retrains := 0, firstFail := none }).setBit Od.spanState 0 p true

/-- The control flit by which the master of a cascade passes a write to the secondary (R246). -/
def Hw.passOn (h : Hw) (key v : Nat) : Hw :=
  if h.reg Od.cascadeRole = 1 ∧ h.reg Od.cascadeState = 3 then h.sendSpan 0 Fk.control 4 (natBytes key 8 ++ natBytes v 8) else h

/-- The master of a cascade that has just JOINED pushes its dictionary: what has been configured (R250). -/
def Hw.pushDictionary (h : Hw) : Hw :=
  (h.od.filter (fun e => decide ((keyReg e.1).cls = .config ∨ (keyReg e.1).cls = .part ∨ (keyReg e.1).cls = .mailbox))).foldl
    (fun h e => h.passOn e.1 e.2) h

/-- SP0_TRAINED (R248 to R250): with equal major versions and digests the cascade is JOINED, the secondary's timebase stepped;
otherwise it waits for its configuration. -/
def execSp0Trained (peerFw : BitVec 32) (peerDigest : BitVec 384) (peerTime : BitVec 64) (latencyNs : BitVec 32) (s : State) :
    Host.Outcome State Fault Refusal :=
  s.on (fun h =>
    if h.reg Od.cascadeState ≠ 1 then h.ignoreEvent Od.cascadeState 0
    else
      let h := h.takeFormation
      let h := (h.notePeer peerFw.toNat peerDigest.toNat).setElem Od.spanLatencyNs 0 0 latencyNs.toNat
      let h := h.raiseSpan 0
      if h.formationOk peerFw.toNat peerDigest.toNat then
        let h := h.setReg Od.cascadeState 0 3
        let h := if h.reg Od.cascadeRole = 2 then h.stepTime ((h.now : Int) - (peerTime.toNat : Int)) else h
        let h := h.pushDictionary
        if h.boot.shape = 3 then h.startPair else h
      else ({ h with msg.subs := [] }.setReg Od.cascadeState 0 2).raise { kind := 0x1a })

/-- SPAN_TRAIN_TIMEOUT (R250): SP0 has not trained within 100 ms. -/
def execSpanTrainTimeout (s : State) : Host.Outcome State Fault Refusal :=
  s.on (fun h =>
    if h.reg Od.cascadeState ≠ 1 then h.ignoreEvent Od.cascadeState 0
    else if h.now < h.timer Tm.spanTrain 0 + 100000000 then h
    else h.cascadeLost)

/-! ### Mirror traffic (R252, R253, R258) -/

/-- The partitions whose sync state matters: those ACTIVE or DEGRADED. -/
def Hw.syncParts (h : Hw) : List Nat := (List.range 16).filter (fun p => h.inUse p && decide (h.reg Od.partState p = 3 ∨ h.reg Od.partState p = 4))

/-- A partition is UNSYNCED. -/
def Hw.unsync (h : Hw) (p : Nat) : Hw := ((h.setReg Od.syncState p 0).setReg Od.syncHwm p 0).setReg Od.syncStack p 0xff

/-- Every partition is UNSYNCED. -/
def Hw.unsyncAll (h : Hw) : Hw := { (List.range 16).foldl (fun h p => h.unsync p) h with pair.syncPart := none }

/-- The areas whose dictionary writes are mirrored (R252). -/
def mirroredReg (r : Reg) : Bool :=
  let area := r.index / 4096
  let writable := match fieldOf r with
    | some f => f.o != .no && f.o != .r || f.t != .no && f.t != .r || f.f != .no && f.f != .r
    | none => false
  r.index = 0x1100 || (r.index = 0x1200 && decide (1 ≤ r.sub ∧ r.sub ≤ 3)) || [2, 4, 5, 7, 8, 10].contains area ||
    (area = 6 && (writable || decide (r = Od.retiredPages)))

/-- A dictionary write goes to the standby. -/
def Hw.mirrorDict (h : Hw) (key value : Nat) : Hw :=
  if h.mirroring && mirroredReg (keyReg key) then h.sendMirror { seqNo := 0, kind := 1, key := key, value := value } else h

/-- The next partition to copy. -/
def Hw.nextSync (h : Hw) : Hw := { h with pair.syncPart := h.syncParts.find? (fun p => decide (h.reg Od.syncState p ≠ 2)) }

/-- Resync begins: service_mode RECOVERY, every partition UNSYNCED, the mirrored dictionary areas copied first. -/
def Hw.startResync (h : Hw) : Hw :=
  let h := h.enterRecovery.unsyncAll
  let h := h.od.foldl (fun h e => h.mirrorDict e.1 e.2) h
  h.nextSync

/-- The last sector of a partition has been accepted: it is SYNCED (R258). -/
def Hw.synced (h : Hw) (p : Nat) : Hw := ((h.setReg Od.syncState p 2).setReg Od.syncStack p 0xff).nextSync

/-- The standby has accepted every mirror message up to `n`: held responses go out. -/
def Hw.acceptMirrors (h : Hw) (n : Nat) : Hw :=
  let done := h.pair.mirrors.filter (fun m => decide (m.seqNo ≤ n))
  let h := { h with pair.mirrors := h.pair.mirrors.filter (fun m => decide (n < m.seqNo)), pair.mirrorDone := max h.pair.mirrorDone (min n h.pair.mirrorNext) }
  let h := done.foldl (fun h m =>
    let h := h.subReg Od.mirrorBufferBytes 0 (max 16 m.data.length)
    if m.kind = 5 then (if m.key = 1 then h.synced m.value else h)
    else match m.trk with
      | some uid => match h.trk uid with
        | some t => h.complete uid t.status (t.out.flatMap (fun o => o.2)) t.poison
        | none => h
      | none => h) h
  h.settleChunks

/-- MIRROR_ACCEPTED (R252): the standby reports a message accepted. -/
def execMirrorAccepted (seqNo : Nat) (s : State) : Host.Outcome State Fault Refusal :=
  s.on (fun h => if h.reg Od.pairState = 4 then h.acceptMirrors seqNo else h.ignoreEvent Od.pairState 0)

/-- The mirror digest: over the mirrored dictionary areas. -/
def Hw.mirrorDigest (h : Hw) : Nat :=
  sha384Nat ((h.od.filter (fun e => mirroredReg (keyReg e.1))).flatMap (fun e => natBytes e.1 8 ++ natBytes e.2 (((keyReg e.1).width + 7) / 8)))

/-- MIRROR_DIGEST_COMPARE (R253): every 64 s; a mismatch raises MIRROR_DIVERGED and restarts resync with a dictionary copy. -/
def execMirrorDigestCompare (peer : BitVec 384) (s : State) : Host.Outcome State Fault Refusal :=
  s.on (fun h =>
    let st := h.reg Od.pairState
    if (st ≠ 4 ∧ st ≠ 7) ∨ h.due Tm.mirrorDigest 0 = false then h
    else
      let h := h.setTimer Tm.mirrorDigest 0 (h.now + 64000000000)
      if h.mirrorDigest = peer.toNat then h
      else
        let h := (h.addReg Od.mirrorDivergences 0).raise { kind := 0x1c }
        if st = 4 then h.startResync else h.unsyncAll)

/-- RESYNC_SECTOR (R258): the active copies the next sector of the partition being copied, below encryption. -/
def execResyncSector (s : State) : Host.Outcome State Fault Refusal :=
  s.on (fun h =>
    match h.pair.syncPart with
    | none => h
    | some p =>
      if h.reg Od.pairState ≠ 4 ∨ 11534336 ≤ h.reg Od.mirrorBufferBytes then h
      else
        let ms := h.members p
        let h := if h.reg Od.syncState p = 0 then ((h.setReg Od.syncState p 1).setReg Od.syncStack p (ms.headD 0)).setReg Od.syncHwm p 0 else h
        let st := h.reg Od.syncStack p
        let at_ := h.reg Od.syncHwm p
        let end_ := h.reg Od.stackCapacity st
        if end_ ≤ at_ then h
        else
          let h := h.flushSector (secKey st at_)
          let cols := (List.range 8).foldl (fun (a : List (List Byte × Bool) × Hw) j =>
            let (d, data, h) := a.2.cipherCol 2 st (at_ + 32 * j) none 4
            (a.1 ++ [(data, decide (d = .poisoned ∨ d = .uncorrectable))], h)) ([], h)
          let h := cols.2
          let marked := (List.range 4).filter (fun l => [2 * l, 2 * l + 1].any (fun j => (cols.1.getD j ([], false)).2))
          let next := ms.find? (fun t => decide (st < t))
          let atEnd := decide (end_ ≤ at_ + 256)
          let last := atEnd && next.isNone
          let h := h.sendMirror
            { seqNo := 0, kind := 5, dpa := dpaOf st at_, data := cols.1.flatMap (fun c => c.1), mask := List.replicate 256 true,
              marked := marked, key := if last then 1 else 0, value := p }
          match atEnd, next with
          | true, some t => (h.setReg Od.syncStack p t).setReg Od.syncHwm p 0
          | _, _ => h.setReg Od.syncHwm p (at_ + 256))

/-! ### Leases and pair states (R251, R254 to R256) -/

/-- Ask the witness for a lease. -/
def Hw.askLease (h : Hw) : Hw := h.raise { kind := 0x1d, payload := packFields [(32, h.reg Od.pairEpoch)] }

/-- Is the peer reachable: a pair link is up. -/
def Hw.peerReachable (h : Hw) : Bool := [0, 1].any (fun p => h.pairLink p && h.spanUp p)

/-- Hold a lease for pair_lease_ms from receipt, at a new epoch. -/
def Hw.takeLease (h : Hw) (epoch role : Nat) : Hw :=
  let len := h.reg Od.pairLeaseMs * 1000000
  let h := h.setReg Od.pairEpoch 0 epoch
  { h with pair.leaseUntil := some (h.now + len), pair.leaseRole := role }.setTimer Tm.lease 0 (h.now + len / 2)

/-- While the peer was lost completions were held: they go out, and the mirror buffer is discarded (R256). -/
def Hw.releaseHeld (h : Hw) : Hw :=
  let h := h.setReg Od.pairState 0 5
  let units := h.pair.heldUnits
  let h := { h with pair.heldUnits := [] }
  let h := units.foldl (fun h u => h.emit u.1 u.2) h
  (h.acceptMirrors h.pair.mirrorNext).unsyncAll

/-- A write of lease_grant (R255, R256). -/
def Hw.leaseGrant (h : Hw) (a : Actor) (v : Nat) : Hw :=
  let epoch := v % 2 ^ 32
  let role := v / 2 ^ 32 % 256
  let st := h.reg Od.pairState
  let h := h.setReg Od.leaseGrant 0 v
  let no (why : Nat) : Hw := h.ignore a Od.leaseGrant 0 why
  if ([3, 4, 5, 6, 8] : List Nat).contains st = false then no Why.wrongState
  else if role = 0xff then h.fenceUnit
  else if role ≠ 1 ∧ role ≠ 2 then no Why.reservedValue
  else if epoch ≤ h.reg Od.pairEpoch then no Why.invalidCommand
  else
    let took := h.takeLease epoch role
    if st = 3 then
      if role = 2 then took.setReg Od.pairState 0 5
      else if h.peerReachable then (took.setReg Od.pairState 0 4).startResync
      else no Why.wrongState
    else if st = 6 then (if role = 2 then took.releaseHeld else no Why.wrongState)
    else took

/-- HEARTBEAT_SEND (R254): every 8 µs, on each pair link. -/
def execHeartbeatSend (s : State) : Host.Outcome State Fault Refusal :=
  s.on (fun h =>
    if h.due Tm.heartbeat 0 = false ∨ h.peerReachable = false then h
    else
      let body := natBytes (h.reg Od.pairState) 1 ++ natBytes (h.reg Od.pairEpoch) 4 ++ natBytes h.now 8 ++ natBytes h.pair.mirrorDone 8
      (h.sendPairLinks Fk.control 4 body).setTimer Tm.heartbeat 0 (h.now + 8000))

/-- A slave's timebase follows its master's (R249): `d` is how far it is ahead; at most 4 ns are corrected per heartbeat;
three heartbeats in a row with more than 1 µs set the flag, and the next three count afresh. -/
def Hw.slew (h : Hw) (d : Int) : Hw :=
  let h := h.setSreg Od.timebaseOffsetNs 0 d
  let runs := if 1000 < d.natAbs then h.pair.offsetRuns + 1 else 0
  let h := { h with pair.offsetRuns := runs % 3 }
  let h := h.stepTime (max (-4) (min 4 d))
  if runs = 3 then (h.setReg Od.timeOffsetFlag 0 1).raise { kind := 0x1b, payload := packFields [(64, (d % 2 ^ 64).toNat)] } else h

/-- HEARTBEAT_RECEIVE (R249, R254 to R256): the peer's state, epoch, time and last accepted message. -/
def execHeartbeatReceive (port : Fin 2) (peerState : BitVec 8) (peerEpoch : BitVec 32) (offset : Int) (accepted : Nat) (s : State) :
    Host.Outcome State Fault Refusal :=
  s.on (fun h =>
    let p := port.val
    if (h.span p).st ≠ .up then h
    else
      let h := h.setSpan p { h.span p with lastRx := h.now }
      if h.pairLink p then
        let h := { h.setTimer Tm.peerRx 0 h.now with pair.peerState := peerState.toNat }
        let st := h.reg Od.pairState
        let serving := decide (peerState = 4 ∨ peerState = 5)
        if [4, 5, 6, 8].contains st ∧ h.reg Od.pairEpoch < peerEpoch.toNat then (h.setReg Od.pairEpoch 0 peerEpoch.toNat).fenceUnit
        else match st with
          | 3 =>
            if serving then
              ((h.stepTime offset).setReg Od.pairEpoch 0 (max (h.reg Od.pairEpoch) peerEpoch.toNat)).unsyncAll.setReg Od.pairState 0 7
            else h
          | 4 => h.acceptMirrors accepted
          | 5 => if peerState = 7 then (h.setReg Od.pairState 0 4).startResync else h
          | 7 => (h.setReg Od.pairEpoch 0 (max (h.reg Od.pairEpoch) peerEpoch.toNat)).slew offset
          | _ => h
      else if h.reg Od.cascadeRole = 2 ∧ h.reg Od.cascadeState = 3 then h.slew offset
      else h)

/-- The peer is lost: an ACTIVE unit holds every completion, a STANDBY asks for a takeover lease; others ignore it. -/
def Hw.losePeer (h : Hw) : Hw :=
  match h.reg Od.pairState with
  | 4 => (h.setReg Od.pairState 0 6).askLease
  | 7 => ({ h.setReg Od.pairState 0 8 with pair.leaseUntil := none }).askLease
  | _ => h.ignoreEvent Od.pairState 0

/-- PEER_LOST (R254): 40 µs without a valid flit on any pair link. -/
def execPeerLost (s : State) : Host.Outcome State Fault Refusal :=
  s.on (fun h => if h.timer Tm.peerRx 0 + 40000 ≤ h.now then h.losePeer else h)

/-- FENCE_FLIT (R254): the peer fences itself; this unit acts at once. -/
def execFenceFlit (s : State) : Host.Outcome State Fault Refusal := s.on (fun h => h.losePeer)

/-- LEASE_RENEW (R255): at half of pair_lease_ms. -/
def execLeaseRenew (s : State) : Host.Outcome State Fault Refusal :=
  s.on (fun h =>
    match h.pair.leaseUntil with
    | some t => if (h.reg Od.pairState = 4 ∨ h.reg Od.pairState = 5) ∧ h.due Tm.lease 0 then h.askLease.setTimer Tm.lease 0 t else h
    | none => h)

/-- LEASE_EXPIRY (R255, R256): the lease ends unrenewed. -/
def execLeaseExpiry (s : State) : Host.Outcome State Fault Refusal :=
  s.on (fun h =>
    match h.pair.leaseUntil with
    | some t => if t ≤ h.now ∧ [4, 5, 6].contains (h.reg Od.pairState) then h.fenceUnit else h
    | none => h)

/-- A write of pair_epoch (R255): above the current value it fences the unit. -/
def Hw.writePairEpoch (h : Hw) (epoch : Nat) : Hw :=
  let up := decide (h.reg Od.pairEpoch < epoch)
  let h := h.setReg Od.pairEpoch 0 epoch
  if up && [4, 5, 6, 8].contains (h.reg Od.pairState) then h.fenceUnit else h

/-- pair_command FORM (R250, R256): formation is tried again. -/
def Hw.form (h : Hw) (a : Actor) : Hw :=
  if h.reg Od.cascadeState = 2 then h.startCascade
  else if h.reg Od.pairState = 2 then h.startPair
  else h.ignore a Od.pairCommand 0 Why.wrongState

/-- pair_command REJOIN (R256): a FENCED unit whose peer serves becomes its standby, every partition UNSYNCED. -/
def Hw.rejoin (h : Hw) (a : Actor) : Hw :=
  if h.reg Od.pairState = 9 ∧ (h.pair.peerState = 4 ∨ h.pair.peerState = 5) then h.unsyncAll.setReg Od.pairState 0 7
  else h.ignore a Od.pairCommand 0 Why.wrongState

/-- pair_command RELINQUISH (R256). -/
def Hw.relinquish (h : Hw) (a : Actor) : Hw :=
  if h.reg Od.pairState = 4 then h.fenceUnit else h.ignore a Od.pairCommand 0 Why.wrongState

/-- PAIR_SESSION_UP (R245, R248, R256): the peer is the one of pair_peer_id and formation holds: a lease is asked for. -/
def execPairSessionUp (peerKeyDigest : BitVec 384) (peerFw : BitVec 32) (peerDigest : BitVec 384) (s : State) :
    Host.Outcome State Fault Refusal :=
  s.on (fun h =>
    if h.reg Od.pairState ≠ 1 then h.ignoreEvent Od.pairState 0
    else
      let h := h.takeFormation
      let h := h.notePeer peerFw.toNat peerDigest.toNat
      if peerKeyDigest.toNat = h.reg Od.pairPeerId ∧ h.formationOk peerFw.toNat peerDigest.toNat = true then
        let h := [0, 1].foldl (fun h p => if h.pairLink p then h.raiseSpan p else h) h
        let h := { h with pair.linkKey := some (Config.sessionSecret h.drawn), drawn := h.drawn + 1 }
        let h := (h.setTimer Tm.peerRx 0 h.now).setTimer Tm.mirrorDigest 0 (h.now + 64000000000)
        (h.setReg Od.pairState 0 3).askLease
      else ({ h with msg.subs := [] }.setReg Od.pairState 0 2).raise { kind := 0x1a })

/-- PAIR_LINK_TIMEOUT (R256): no pair link within 100 ms: a lease is asked for alone. -/
def execPairLinkTimeout (s : State) : Host.Outcome State Fault Refusal :=
  s.on (fun h =>
    if h.reg Od.pairState ≠ 1 then h.ignoreEvent Od.pairState 0
    else if h.now < h.timer Tm.spanTrain 1 + 100000000 then h
    else (h.setReg Od.pairState 0 3).askLease)

/-! ### Takeover (R257) -/

/-- The notice for a launch that the failed unit did not end: of its record only requester and sequence number are known. -/
def Hw.lostLaunch (h : Hw) (x : Nat × Nat) : Hw :=
  let (prog, h) := h.draw 8
  let (eng, h) := h.draw 8
  let (step, h) := h.draw 16
  h.raise
    { kind := 0x0a, req := some x.1, dests := [x.1],
      payload := packFields [(16, x.2), (8, prog.toNat), (8, eng.toNat), (8, St.aborted), (8, Cf.abort), (16, step.toNat), (8, 0), (64, 0)] }

/-- TAKEOVER (R257): the standby that holds a takeover lease becomes the active unit. -/
def execTakeover (s : State) : Host.Outcome State Fault Refusal :=
  s.on (fun h =>
    if h.reg Od.pairState ≠ 8 then h.ignoreEvent Od.pairState 0
    else if h.pair.leaseUntil.isNone then h
    else
      let h := ((List.range 16).filter (fun p => h.inUse p && decide (h.reg Od.syncState p ≠ 2))).foldl (fun h p =>
        (h.raise { kind := 0x1e, part := some p }).releasePart .firmware p) h
      let h := (List.range 16).foldl (fun h s => if h.exists s then h.suspectSlice s true else h) h
      let h := h.sessionsTakeover
      let recs := h.pair.launchRecs
      let h := recs.foldl (fun h x => h.lostLaunch x) { h with pair.launchRecs := [] }
      let h := (h.setReg Od.serviceMode 0 3).setReg Od.pairState 0 5
      h.unsyncAll.raise { kind := 0x1f })

end Sys2Proof.Machine
end

