-- ==== Sys2Proof/Machine/Life.lean ====
section
/-! DEFINITION. The life cycle, identity, SPDM, IDE_KM, TDISP, weight keys and the tamper alarm (R260 to R284, R290 to R292,
R389, R394). Codes of SPDM and TDISP messages are those of their public standards (PRESUMED, log entry 9). -/

namespace Sys2Proof.Machine

/-! ### The journal (R265) -/

/-- The cistern's counter in ticks of 1/32,768 s. -/
def Hw.ticks (h : Hw) : Nat := h.sec.cisternNs * 32768 / 1000000000

/-- Write a journal entry. -/
def Hw.journalWrite (h : Hw) (kind to_ : Nat) : Hw :=
  let n := h.reg Od.journalCount
  let v := kind * 2 ^ 120 + h.reg Od.lcState % 16 * 2 ^ 116 + to_ % 16 * 2 ^ 112 + (if h.boot.pwrok then 0 else 2 ^ 111) + h.ticks % 2 ^ 64
  { h with sec.journal := Table.put h.sec.journal (n % 64) (BitVec.ofNat 128 v) }.satReg Od.journalCount 0

/-- An entry for an event that is no transition. -/
def Hw.journalNote (h : Hw) (kind : Nat) : Hw := h.journalWrite kind (h.reg Od.lcState)

/-! ### Identity (R267, R268) -/

/-- CDI_rom, CDI_fw as numbers of 384 bits. -/
def Hw.cdiRom (h : Hw) : BitVec 384 :=
  BitVec.ofNat 384 (bytesNat (hmac384 (bytesOf (h.sec.uds.getD 0) 48) (bytesOf h.boot.measRom 48)))
def Hw.cdiFw (h : Hw) : BitVec 384 :=
  BitVec.ofNat 384 (bytesNat (hmac384 (bytesOf h.cdiRom 48)
    (bytesOf h.boot.measSteward 48 ++ bytesOf h.boot.measSlice 48 ++ natBytes (h.reg Od.svSteward) 4 ++ natBytes (h.reg Od.svSlice) 4)))

/-- The bytes of an OCTETS register. -/
def Hw.octets (h : Hw) (r : Reg) (i e n : Nat) : List Byte := natBytes (h.elem r i e) n

/-- Is `x` a run of bytes within `l`. -/
def containsBytes (x : List Byte) : List Byte → Bool
  | [] => x.isEmpty
  | b :: l => x.isPrefixOf (b :: l) || containsBytes x l

/-- Is an identity certificate present whose subject key is the identity key (R262). -/
def Hw.certOk (h : Hw) : Bool :=
  decide (h.reg Od.idPublic ≠ 0) && containsBytes (h.octets Od.idPublic 0 0 97) (h.octets Od.idCert 0 0 2048)

/-! ### Transitions (R261 to R263) -/

/-- Debug levels (R284). -/
def Dbg.locked : Nat := 0
def Dbg.operator : Nat := 1
def Dbg.opened : Nat := 2
def Dbg.returnedOpen : Nat := 3

/-- Every key the unit holds is zeroized. -/
def Hw.zeroizeKeys (h : Hw) : Hw :=
  let h := { h with sec.memKeys := [], car.weightKeys := [] }
  let h := (List.range 16).foldl (fun h p => h.setReg Od.secKeyInstalled p 0) h
  (List.range 256).foldl (fun h n => h.setReg Od.wkPartition n 0xff) h

/-- The side actions of a transition (R263). -/
def Hw.sideActions (h : Hw) (to_ : Nat) : Hw :=
  let withdraw (h : Hw) : Hw :=
    let h := h.zeroizeKeys
    { h with sec.handoff := none, sec.resume := [], sec.uds := none, sec.aliasGen := h.sec.aliasGen + 1 }.setReg Od.idPublic 0 0
  match to_ with
  | 1 => { h with sec.mfgAccess := false }.setReg Od.dbgLevel 0 Dbg.operator
  | 2 => { h with sec.rollbackArmed := true }.setReg Od.dbgLevel 0 Dbg.locked
  | 3 => (withdraw h).setReg Od.dbgLevel 0 Dbg.returnedOpen
  | _ =>
    let h := (List.range 4).foldl (fun h k => h.setElem Od.opKeys 0 k 0) (withdraw h)
    (h.setReg Od.opKeysUsed 0 0).setReg Od.dbgLevel 0 Dbg.locked

/-- All 39 bits of an OTP word. -/
def otpFull : Nat := 2 ^ 39 - 1

/-- A transition in its order: journal, word, side actions, journal. -/
def Hw.transition (h : Hw) (to_ : Nat) : Hw :=
  let h := h.journalWrite 1 to_
  let h := { h with sec.otp := h.sec.otp.set (to_ - 1) otpFull }
  let h := h.sideActions to_
  (h.journalWrite 2 to_).setReg Od.lcState 0 to_

/-- Sessions open other than the one that acts. -/
def Hw.otherSessions (h : Hw) (a : Actor) : Bool := h.sec.spdm.any (fun e => a != .session e.1)

/-- The lc_command of a transition: from the state directly below, under its conditions. -/
def Hw.lcTransition (h : Hw) (a : Actor) (to_ : Nat) : Hw :=
  if h.reg Od.lcState + 1 ≠ to_ then h.ignore a Od.lcCommand 0 Why.wrongState
  else
    let ok := match to_ with
      | 1 => h.certOk && (List.range 4).any (fun k => decide (h.elem Od.opKeys 0 k ≠ 0))
      | 3 => (List.range 16).all (fun p => !h.inUse p) && !h.otherSessions a
      | _ => true
    if ok then h.transition to_ else h.ignore a Od.lcCommand 0 Why.wrongState

/-- tamper_ack ACK (R292). -/
def Hw.tamperAck (h : Hw) : Hw := (h.setReg Od.tamperSeen 0 0).journalNote 7

/-! ### The tamper alarm (R291) -/

/-- The journal kind of an alarm. -/
def alarmKind : TamperCause → Nat
  | .tamperPin => 4
  | .voltage => 5
  | .clockGlitch => 5
  | .temperature => 6

/-- Every cistern secret is zeroized; new ones are drawn when main power is present. The resume record can no longer be
unwrapped, and fills under the old fill secret start again at offset 0. -/
def Hw.zeroizeCistern (h : Hw) : Hw :=
  let h := (List.range 16).foldl (fun h p =>
    match Table.look h.sec.markers p with
    | some m =>
      let h := { h with sec.markers := Table.put h.sec.markers p (m &&& ~~~ ((BitVec.allOnes 37).setWidth 256 <<< 165)) }.setReg Od.partScrubHwm p 0
      h.modPart p (fun x => { x with filled := false })
    | none => h) h
  if h.boot.pwrok then
    let (a, h) := h.random 256
    let (b, h) := h.random 256
    let (c, h) := h.random 256
    { h with sec.fillSecret := a, sec.resumeKek := b, sec.nonceSeed := c, sec.resume := [] }
  else { h with sec.fillSecret := 0, sec.resumeKek := 0, sec.nonceSeed := 0, sec.resume := [], sec.drawSecrets := true }

/-- An alarm of the cistern. With main power present the key store is zeroized, a TAMPER event is raised and firmware
releases every partition in use. -/
def Hw.alarm (h : Hw) (kind : Nat) : Hw :=
  let h := h.zeroizeCistern
  let h := ((h.setReg Od.tamperSeen 0 1).satReg Od.tamperCount 0).journalNote kind
  if h.boot.pwrok then
    let h := h.zeroizeKeys.raise { kind := 0x21 }
    if h.boot.stewardsRun then
      (List.range 16).foldl (fun h p => if [1, 2, 3, 4].contains (h.reg Od.partState p) then h.releasePart .firmware p else h) h
    else h
  else h

/-- TAMPER_ALARM (R291). -/
def execTamperAlarm (cause : TamperCause) (s : State) : Host.Outcome State Fault Refusal := s.on (fun h => h.alarm (alarmKind cause))

/-! ### SPDM messages (R269, R270) -/

/-- Does the responder answer: the stewards run and are not both halted (R375, R389). -/
def Hw.responds (h : Hw) : Bool := h.boot.stewardsRun && decide (h.reg Od.dbgHalted % 4 ≠ 3)

/-- Is a message delivered: outside a session always, inside one while it is established. -/
def Hw.delivered (h : Hw) (s : Option Nat) : Bool :=
  h.responds && match s with
    | some n => (h.session n).isSome
    | none => true

/-- Note a message of a session. -/
def Hw.touch (h : Hw) (s : Option Nat) : Hw :=
  match s with
  | some n => match Table.look h.sec.spdm n with
    | some x => { h with sec.spdm := Table.put h.sec.spdm n { x with lastAt := h.now } }
    | none => h
  | none => h

/-- An SPDM response: code 500h + its SPDM code. -/
def Hw.spdm (h : Hw) (s : Option Nat) (code : Nat) (body : List Byte := []) (status : Nat := 0) : Hw :=
  (h.touch s).sendMs { session := s, code := 0x500 + code, status := status, body := body }

/-- An SPDM ERROR: InvalidRequest 01h, Busy 03h, Unspecified 05h, UnsupportedRequest 07h. -/
def Hw.spdmError (h : Hw) (s : Option Nat) (e : Nat) : Hw := h.spdm s 0x7f [] e

/-- Has the unit an identity: it signs and shows certificates. -/
def Hw.identity (h : Hw) : Bool := h.sec.uds.isSome

/-- The operand of a session. -/
def sesOf (s : Option SpdmIx) : Option Nat := s.map (fun n => n.val)

/-- GET_VERSION (R269): 1.3. -/
def execGetVersion (s : Option SpdmIx) (st : State) : Host.Outcome State Fault Refusal :=
  st.on (fun h => if h.delivered (sesOf s) then h.spdm (sesOf s) 0x04 [0x00, 0x13] else h)

/-- GET_CAPABILITIES (R269): CERT, CHAL, MEAS with signature, ENCRYPT, MAC, MUT_AUTH, KEY_EX, HBEAT and KEY_UPD; the largest
message is 4,096 B. -/
def execGetCapabilities (s : Option SpdmIx) (st : State) : Host.Outcome State Fault Refusal :=
  st.on (fun h => if h.delivered (sesOf s) then h.spdm (sesOf s) 0x61 (natBytes 0x63d6 4 ++ natBytes 4096 4) else h)

/-- NEGOTIATE_ALGORITHMS (R269): ECDSA P-384 (bit 7) and SHA-384 (bit 1), or no agreement. -/
def execNegotiateAlgorithms (s : Option SpdmIx) (baseAsym baseHash : BitVec 32) (st : State) : Host.Outcome State Fault Refusal :=
  st.on (fun h =>
    if !h.delivered (sesOf s) then h
    else if baseAsym.getLsbD 7 && baseHash.getLsbD 1 then h.spdm (sesOf s) 0x63 (natBytes 0x80 4 ++ natBytes 2 4)
    else h.spdmError (sesOf s) 1)

/-- The certificate chain of slot 0: what id_cert supplies, then the alias certificate (R268). -/
def Hw.chain (h : Hw) : List Byte := h.octets Od.idCert 0 0 2048 ++ Config.aliasCert h.cdiFw

/-- GET_DIGESTS (R269): slot 0 alone. -/
def execGetDigests (s : Option SpdmIx) (st : State) : Host.Outcome State Fault Refusal :=
  st.on (fun h =>
    if !h.delivered (sesOf s) then h
    else if h.identity then h.spdm (sesOf s) 0x01 (1 :: natBytes (sha384Nat h.chain) 48) else h.spdmError (sesOf s) 5)

/-- GET_CERTIFICATE (R268, R269): at most 1,024 B of the slot 0 chain; the other slots are empty. -/
def execGetCertificate (s : Option SpdmIx) (slot : BitVec 4) (offset length : BitVec 16) (st : State) : Host.Outcome State Fault Refusal :=
  st.on (fun h =>
    if !h.delivered (sesOf s) then h
    else if slot ≠ 0 then h.spdmError (sesOf s) 1
    else if h.identity then
      let part := (h.chain.drop offset.toNat).take (min length.toNat 1024)
      h.spdm (sesOf s) 0x02 (natBytes part.length 2 ++ natBytes (h.chain.length - offset.toNat - part.length) 2 ++ part)
    else h.spdmError (sesOf s) 5)

/-- A signature with the alias key. -/
def Hw.aliasSign (h : Hw) (msg : List Byte) : List Byte := bytesOf (Config.sign h.cdiFw (BitVec.ofNat 384 (sha384Nat msg))) 96

/-! ### Measurements (R272, R273) -/

/-- VALID programs bound to a partition, in ascending order. -/
def Hw.validProgs (h : Hw) (p : Nat) : List Nat := (List.range 128).filter (fun n => decide (h.reg Od.progState n = 2) && h.bit Od.progBind n p)

/-- The partition record for one who may see it. -/
def Hw.partRecord (h : Hw) (p : Nat) : List Byte :=
  let b (r : Reg) : Nat := h.reg r p
  let flags := b Od.secConfidential + 2 * b Od.secConsentDebug + 4 * b Od.secConsentProfile + 8 * b Od.secKeyInstalled
  let ps := h.validProgs p
  let progs : List Byte := if ps.isEmpty then List.replicate 48 0
    else sha384 (ps.flatMap (fun n => BitVec.ofNat 8 n :: h.octets Od.progDigest n 0 48))
  natBytes (b Od.partState) 1 ++ natBytes flags 1 ++ natBytes ps.length 1 ++ [0] ++ natBytes (b Od.partEpoch) 4
    ++ h.octets Od.partOwner p 0 48 ++ progs ++ h.octets Od.secWeightDigest p 0 48 ++ natBytes (b Od.secWeightCount) 4 ++ natBytes 0 4

/-- The partition record as a requester sees it. -/
def Hw.seenRecord (h : Hw) (a : Actor) (p : Nat) : List Byte :=
  if a = .firmware ∨ h.tenantFor a p = true then h.partRecord p else 0xff :: List.replicate 159 0

/-- The value of a measurement index. -/
def Hw.measurement (h : Hw) (a : Actor) (i : Nat) : Option (List Byte) :=
  match i with
  | 1 => some (bytesOf h.boot.measRom 48)
  | 2 => some (bytesOf h.boot.measSteward 48)
  | 3 => some (bytesOf h.boot.measSlice 48)
  | 4 => some (sha384 (h.regBytes Od.lcState ++ h.regBytes Od.unitShape ++ h.regBytes Od.cascadeRole ++ h.regBytes Od.pairPeerId
      ++ (List.range 4).flatMap (fun k => h.octets Od.opKeys 0 k 48) ++ h.formationSet))
  | 5 => some (natBytes (h.reg Od.dbgLevel) 1 ++ natBytes (h.reg Od.tamperSeen + 2 * h.reg Od.dbgUnlocked) 1
      ++ natBytes (h.reg Od.tamperCount) 4 ++ List.replicate 10 0)
  | n => if 16 ≤ n ∧ n < 32 then some (h.seenRecord a (n - 16)) else none

/-- A block in the DMTF format: index, specification, sizes, value type (bit 7: raw), value. -/
def measBlock (i : Nat) (v : List Byte) : List Byte :=
  let ty : Nat := if 5 ≤ i then 0x80 + 4 else if i = 1 then 0 else if i = 4 then 3 else 1
  natBytes i 1 ++ [1] ++ natBytes (v.length + 3) 2 ++ natBytes ty 1 ++ natBytes v.length 2 ++ v

/-- The actor of a message. -/
def spdmActor (s : Option Nat) : Actor := match s with | some n => .session n | none => .nobody

/-- The blocks of an index: 0 asks how many there are, FFh for all. -/
def Hw.measBlocks (h : Hw) (a : Actor) (i : Nat) : Option (List Byte) :=
  let all := [1, 2, 3, 4, 5] ++ (List.range 16).map (fun p => 16 + p)
  if i = 0 then some (natBytes all.length 1)
  else if i = 0xff then some (all.flatMap (fun k => measBlock k ((h.measurement a k).getD [])))
  else (h.measurement a i).map (fun v => measBlock i v)

/-- GET_MEASUREMENTS (R272, R273): signed with the alias key. -/
def execGetMeasurements (s : Option SpdmIx) (index : BitVec 8) (st : State) : Host.Outcome State Fault Refusal :=
  st.on (fun h =>
    if !h.delivered (sesOf s) then h
    else match h.measBlocks (spdmActor (sesOf s)) index.toNat with
      | some b => h.spdm (sesOf s) 0x60 (b ++ h.aliasSign b)
      | none => h.spdmError (sesOf s) 1)

/-- CHALLENGE (R269): the chain's digest, a nonce and the signature of the alias key over them and the requester's nonce. -/
def execChallenge (s : Option SpdmIx) (slot : BitVec 4) (nonce : BitVec 256) (st : State) : Host.Outcome State Fault Refusal :=
  st.on (fun h =>
    if !h.delivered (sesOf s) then h
    else if slot ≠ 0 then h.spdmError (sesOf s) 1
    else if h.identity then
      let (mine, h) := h.random 256
      let body := sha384 h.chain ++ bytesOf mine 32
      h.spdm (sesOf s) 0x03 (body ++ h.aliasSign (body ++ bytesOf nonce 32))
    else h.spdmError (sesOf s) 5)

/-! ### Sessions (R270, R271) -/

/-- A session ends: its subscriptions with it. -/
def Hw.endSession (h : Hw) (n : Nat) : Hw :=
  { h with sec.spdm := Table.del h.sec.spdm n, msg.subs := h.msg.subs.filter (fun e => e.2.session != n) }

/-- KEY_EXCHANGE (R270, R271): a session for the authenticated key, or Busy beyond 32. -/
def execKeyExchange (peerKey : List Byte) (heartbeatMs : BitVec 16) (st : State) : Host.Outcome State Fault Refusal :=
  st.on (fun h =>
    if !h.responds then h
    else if !h.identity then h.spdmError none 5
    else match (List.range 32).find? (fun n => (Table.look h.sec.spdm n).isNone) with
      | some n =>
        let x : Spdm := { peer := sha384Nat peerKey, heartbeatMs := heartbeatMs.toNat, lastAt := h.now }
        let h := { h with sec.spdm := Table.put h.sec.spdm n x }
        let (mine, h) := h.random 256
        let body := natBytes n 2 ++ bytesOf mine 32
        h.spdm none 0x64 (body ++ h.aliasSign body)
      | none => h.spdmError none 3)

/-- FINISH (R269, R271): the session is established, its role assigned by its key; a requester whose proof does not verify
gets no session. -/
def execFinish (s : SpdmIx) (verified : Bool) (st : State) : Host.Outcome State Fault Refusal :=
  st.on (fun h =>
    match Table.look h.sec.spdm s with
    | some x =>
      if !h.responds ∨ x.established then h
      else if verified then
        { h with sec.spdm := Table.put h.sec.spdm s { x with established := true, lastAt := h.now } }.spdm (some s) 0x65
      else (h.endSession s).spdmError none 1
    | none => h)

/-- HEARTBEAT (R270): the session stays alive. -/
def execHeartbeat (s : SpdmIx) (st : State) : Host.Outcome State Fault Refusal :=
  st.on (fun h => if h.delivered (some s) then h.spdm (some s) 0x68 else h)

/-- KEY_UPDATE (R269): the session's keys are derived afresh. -/
def execKeyUpdate (s : SpdmIx) (st : State) : Host.Outcome State Fault Refusal :=
  st.on (fun h =>
    match h.session s with
    | some x =>
      if h.responds then { h with sec.spdm := Table.put h.sec.spdm s { x with keyGen := x.keyGen + 1 } }.spdm (some s) 0x69 else h
    | none => h)

/-- END_SESSION (R270). -/
def execEndSession (s : SpdmIx) (st : State) : Host.Outcome State Fault Refusal :=
  st.on (fun h => if h.delivered (some s) then (h.spdm (some s) 0x6c).endSession s else h)

/-- SPDM_UNSUPPORTED_REQUEST (R269): ERROR UnsupportedRequest, with the request's code. -/
def execSpdmUnsupportedRequest (s : Option SpdmIx) (code : BitVec 8) (st : State) : Host.Outcome State Fault Refusal :=
  st.on (fun h => if h.delivered (sesOf s) then h.spdm (sesOf s) 0x7f [code] 7 else h)

/-- SPDM_SESSION_TIMEOUT (R270): no message for twice the heartbeat period. -/
def execSpdmSessionTimeout (s : SpdmIx) (st : State) : Host.Outcome State Fault Refusal :=
  st.on (fun h =>
    match Table.look h.sec.spdm s with
    | some x => if x.heartbeatMs ≠ 0 ∧ x.lastAt + 2 * x.heartbeatMs * 1000000 ≤ h.now then h.endSession s else h
    | none => h)

/-! ### IDE_KM (R274, R394) -/

/-- A VENDOR_DEFINED response: protocol 0 IDE_KM, 1 TDISP, then its object. -/
def Hw.vendor (h : Hw) (s proto code : Nat) (body : List Byte := []) : Hw :=
  h.spdm (some s) 0x7e ([BitVec.ofNat 8 proto, BitVec.ofNat 8 code] ++ body)

/-- QUERY (R274). -/
def execQuery (s : SpdmIx) (st : State) : Host.Outcome State Fault Refusal :=
  st.on (fun h => if h.delivered (some s) then h.vendor s 0 0x01 (h.sec.ideSets.flatMap (fun x => natBytes x.1 1 ++ natBytes x.2 1)) else h)

/-- KEY_PROG (R274, R394): the key goes to the node die in five transfers; the response waits for its status. -/
def execKeyProg (s : SpdmIx) (stream : BitVec 8) (keySet dirSub : BitVec 2) (key : BitVec 256) (st : State) : Host.Outcome State Fault Refusal :=
  st.on (fun h =>
    if !h.delivered (some s) then h
    else if h.sec.handoff.isSome then h.spdmError (some s) 3
    else
      let t0 : BitVec 64 := BitVec.ofNat 64 (stream.toNat + keySet.toNat * 2 ^ 8 + dirSub.toNat * 2 ^ 10)
      let ws := (List.range 4).map (fun i => key.extractLsb' (64 * i) 64)
      { h.touch (some s.val) with sec.handoff := some { session := s, words := t0 :: ws, since := h.now } })

/-- The handoff ends with a KH_STATUS: the key's copy is overwritten and KEY_PROG is answered. -/
def Hw.endHandoff (h : Hw) (x : KeyHandoff) (status : Nat) : Hw :=
  let h := { h with sec.handoff := none }
  if (h.session x.session).isSome then h.vendor x.session 0 0x03 (natBytes status 1) else h

/-- KH_ACK (R394). -/
def execKhAck (status : BitVec 2) (st : State) : Host.Outcome State Fault Refusal :=
  st.on (fun h => match h.sec.handoff with
    | some x => h.endHandoff x status.toNat
    | none => h)

/-- KEY_HANDOFF_TIMEOUT (R394): no KH_ACK within 10 µs: REFUSED. -/
def execKeyHandoffTimeout (st : State) : Host.Outcome State Fault Refusal :=
  st.on (fun h => match h.sec.handoff with
    | some x => if x.since + 10000 ≤ h.now then h.endHandoff x 1 else h
    | none => h)

/-- K_SET_GO (R274). -/
def execKSetGo (s : SpdmIx) (stream : BitVec 8) (keySet : BitVec 2) (st : State) : Host.Outcome State Fault Refusal :=
  st.on (fun h =>
    let x := (stream.toNat, keySet.toNat)
    if h.delivered (some s) then { h with sec.ideSets := x :: h.sec.ideSets.filter (fun y => y != x) }.vendor s 0 0x05 else h)

/-- K_SET_STOP (R274). -/
def execKSetStop (s : SpdmIx) (stream : BitVec 8) (keySet : BitVec 2) (st : State) : Host.Outcome State Fault Refusal :=
  st.on (fun h =>
    let x := (stream.toNat, keySet.toNat)
    if h.delivered (some s) then { h with sec.ideSets := h.sec.ideSets.filter (fun y => y != x) }.vendor s 0 0x05 else h)

/-! ### TDISP (R275) -/

/-- The state of an interface: 0 CONFIG_UNLOCKED, 1 CONFIG_LOCKED, 2 RUN, 3 ERROR. -/
def Hw.tdiState (h : Hw) (r p : Nat) : Nat :=
  if h.bit Od.tdiError r p then 3 else if h.bit Od.tdiRun r p then 2 else if h.bit Od.tdiLocked r p then 1 else 0

/-- Put an interface into a state. -/
def Hw.setTdi (h : Hw) (r p v : Nat) : Hw :=
  ((h.setBit Od.tdiLocked r p (v == 1)).setBit Od.tdiRun r p (v == 2)).setBit Od.tdiError r p (v == 3)

/-- TDISP_ERROR with INVALID_INTERFACE_STATE. -/
def Hw.tdispError (h : Hw) (s : Nat) : Hw := h.vendor s 1 0x7f (natBytes 4 4)

/-- GET_TDISP_VERSION (R275). -/
def execGetTdispVersion (s : SpdmIx) (st : State) : Host.Outcome State Fault Refusal :=
  st.on (fun h => if h.delivered (some s) then h.vendor s 1 0x01 [1, 0x10] else h)

/-- GET_TDISP_CAPABILITIES (R275): the requests it supports. -/
def execGetTdispCapabilities (s : SpdmIx) (st : State) : Host.Outcome State Fault Refusal :=
  st.on (fun h => if h.delivered (some s) then h.vendor s 1 0x02 [0x81, 0x82, 0x83, 0x84, 0x85, 0x86, 0x87] else h)

/-- LOCK_INTERFACE_REQUEST (R275): accepted only while the requester holds the partition and it is ACTIVE or DEGRADED. -/
def execLockInterfaceRequest (s : SpdmIx) (requester : BitVec 12) (part : PartIx) (st : State) : Host.Outcome State Fault Refusal :=
  st.on (fun h =>
    if !h.delivered (some s) then h
    else
      let r := requester.toNat
      let p := part.val
      if h.tdiState r p = 0 ∧ h.bit Od.reqPartitions r p = true ∧ (h.reg Od.partState p = 3 ∨ h.reg Od.partState p = 4) then
        let (nonce, h) := h.random 256
        (h.setTdi r p 1).vendor s 1 0x03 (bytesOf nonce 32)
      else h.tdispError s)

/-- The interface report: per stack its range of DPAs, then the grain, coherence and the digest of measurement 16 + p. -/
def Hw.tdiReport (h : Hw) (p : Nat) : List Byte :=
  (h.members p).flatMap (fun s => natBytes (dpaOf s 0) 8 ++ natBytes (h.visibleEnd p s) 8)
    ++ h.regBytes Od.partGrain p ++ h.regBytes Od.partCoherent p ++ sha384 (h.partRecord p)

/-- GET_DEVICE_INTERFACE_REPORT (R275): of an interface that is locked or runs. -/
def execGetDeviceInterfaceReport (s : SpdmIx) (requester : BitVec 12) (part : PartIx) (st : State) : Host.Outcome State Fault Refusal :=
  st.on (fun h =>
    if !h.delivered (some s) then h
    else
      let v := h.tdiState requester.toNat part
      if v = 1 ∨ v = 2 then h.vendor s 1 0x04 (h.tdiReport part) else h.tdispError s)

/-- GET_DEVICE_INTERFACE_STATE (R275). -/
def execGetDeviceInterfaceState (s : SpdmIx) (requester : BitVec 12) (part : PartIx) (st : State) : Host.Outcome State Fault Refusal :=
  st.on (fun h => if h.delivered (some s) then h.vendor s 1 0x05 (natBytes (h.tdiState requester.toNat part) 1) else h)

/-- START_INTERFACE_REQUEST (R275): a locked interface runs. -/
def execStartInterfaceRequest (s : SpdmIx) (requester : BitVec 12) (part : PartIx) (st : State) : Host.Outcome State Fault Refusal :=
  st.on (fun h =>
    if !h.delivered (some s) then h
    else if h.tdiState requester.toNat part = 1 then (h.setTdi requester.toNat part 2).vendor s 1 0x06
    else h.tdispError s)

/-- STOP_INTERFACE_REQUEST (R275): CONFIG_UNLOCKED. -/
def execStopInterfaceRequest (s : SpdmIx) (requester : BitVec 12) (part : PartIx) (st : State) : Host.Outcome State Fault Refusal :=
  st.on (fun h => if h.delivered (some s) then (h.setTdi requester.toNat part 0).vendor s 1 0x07 else h)

/-- Interfaces of a requester enter ERROR when its epoch advances (R275). -/
def Hw.tdiEpoch (h : Hw) (r : Nat) : Hw :=
  (List.range 16).foldl (fun h p => if h.tdiState r p = 1 ∨ h.tdiState r p = 2 then h.setTdi r p 3 else h) h

/-! ### Weight keys and consent (R280, R283, R389) -/

/-- A write of wk_key: into a slot bound to a partition. -/
def Hw.writeWeightKey (h : Hw) (a : Actor) (n : Nat) (key : BitVec 256) : Hw :=
  let p := h.reg Od.wkPartition n
  if p < 16 then
    let h := { h with car.weightKeys := Table.put h.car.weightKeys n key }
    if h.mirroring then h.sendMirror { seqNo := 0, kind := 6, dpa := p, key := n, value := key.toNat } else h
  else h.ignore a Od.wkKey n Why.wrongState

/-- A write of sec_consent_debug: 0 first resumes every halted core. -/
def Hw.writeConsent (h : Hw) (p v : Nat) : Hw :=
  let h := if v = 0 then h.setReg Od.dbgHalted 0 0 else h
  h.setReg Od.secConsentDebug p v

end Sys2Proof.Machine
end

