-- ==== Sys2Proof/Machine/Heat.lean ====
section
/-! DEFINITION. Commands of chapter 13: sensors and thresholds, levels, shutdown, THROT_REQ, power, calibration (R293 to
R310). -/

namespace Sys2Proof.Machine

/-! ### Sensors (R293, R294) -/

/-- Key of a sensor: core dies 0–15 and slice sensors 16–19 of a stack, the hub's sensors after all stacks. -/
def sensorKey : SensorSrc → Nat
  | .coreDie s d => s.val * 32 + d.val
  | .slice s i => s.val * 32 + 16 + i.val
  | .hub i => 512 + i.val

/-- A sensor. -/
def Hw.sensor (h : Hw) (k : Nat) : Sensor := Table.atD h.sl.sensors (fun _ => {}) k

/-- A valid reading. -/
def validReading (v : Option Int) : Option Int := v.filter (fun x => decide (-40 ≤ x ∧ x ≤ 150))

/-- A sensor after one interval: three invalid ones in a row make it faulty, three valid ones end that. -/
def Sensor.next (x : Sensor) (v : Option Int) : Sensor :=
  match validReading v with
  | some t => { last := some t, bad := 0, good := x.good + 1, faulty := x.faulty && decide (x.good + 1 < 3) }
  | none => { x with bad := x.bad + 1, good := 0, faulty := x.faulty || decide (3 ≤ x.bad + 1) }

/-- What a sensor counts as reading; `sub` while it is at fault. -/
def Sensor.value (x : Sensor) (sub : Int) : Option Int := if x.faulty then some sub else x.last

/-- The hottest of readings. -/
def hottest (l : List (Option Int)) : Option Int :=
  l.foldl (fun m v => match m, v with
    | some a, some b => some (max a b)
    | some a, none => some a
    | none, b => b) none

/-- Core dies, slice sensors and hub sensors as they count. -/
def Hw.dieValues (h : Hw) (s : Nat) : List (Option Int) :=
  (List.range 16).map (fun d => (h.sensor (s * 32 + d)).value (h.sreg Od.thermL2 + 1))
def Hw.sliceValues (h : Hw) (s : Nat) : List (Option Int) :=
  (List.range 4).map (fun i => (h.sensor (s * 32 + 16 + i)).value (h.sreg Od.thermStretch3 + 1))
def Hw.hubValues (h : Hw) : List (Option Int) :=
  (List.range 16).map (fun i => (h.sensor (512 + i)).value (h.sreg Od.thermStretch3 + 1))

/-- Store a temperature, or 80h for no reading. -/
def Hw.putTemp (h : Hw) (r : Reg) (i : Nat) (v : Option Int) : Hw := h.setSreg r i (v.getD (-128))

/-! ### Thresholds with hysteresis (R295) -/

/-- Is a rising condition held: entered above the threshold, left at the threshold minus the hysteresis. -/
def held (was : Bool) (t th hyst : Int) : Bool := decide (th < t) || (was && decide (th - hyst < t))

/-- The highest of conditions 1, 2, ... that are held, from the highest held before. -/
def levelOf (was : Nat) (t hyst : Int) (ths : List Int) : Nat :=
  (ths.zipIdx.filter (fun x => held (decide (x.2 + 1 ≤ was)) t x.1 hyst)).foldl (fun m x => max m (x.2 + 1)) 0

/-! ### Shutdown (R301, R302) -/

/-- A stack reaches therm_stack_shut: it is shut down and FAILED. -/
def Hw.shutStack (h : Hw) (s : Nat) : Hw :=
  if h.reg Od.thermShutdown s = 1 then h
  else
    let h := h.setReg Od.thermShutdown s 1
    let h := { h with boot.shutLatch := h.boot.shutLatch ||| 2 ^ s }
    let h := (List.range 64).foldl (fun h pc => h.setPc (gOf s pc) { h.pc (gOf s pc) with nextDue := none, slotUntil := none, pauseUntil := none }) h
    (h.failStack s).raise { kind := 0x25, stack := some s }

/-- A junction sensor reaches therm_junction_shut: TSHUT_N falls and latches, and the stacks of slices
still below the limit go to self-refresh. -/
def Hw.shutDevice (h : Hw) : Hw :=
  if !h.boot.tshutN then h
  else
    let h := { h with boot.tshutN := false }.raise { kind := 0x26 }
    let below (h : Hw) (s : Nat) : Bool := decide (h.sreg Od.thermSliceTemp s < h.sreg Od.thermJunctionShut ∧ h.reg Od.thermShutdown s = 0)
    (List.range 1024).foldl (fun h g => if h.reg Od.pcState g = 4 ∧ below h (g / 64) = true then h.setReg Od.pcState g 5 else h) h

/-! ### What a reading does -/

/-- The present or pending refresh multiplier code. -/
def Hw.askedMultiplier (h : Hw) (s : Nat) : Nat :=
  if h.reg Od.refPendingMultiplier s = 0xff then h.reg Od.refMultiplier s else h.reg Od.refPendingMultiplier s

/-- Pseudo-channels of a stack that have drifted more than cal_delta_t ask for a run (R308). -/
def Hw.driftCal (h : Hw) (s : Nat) : Hw :=
  let far (a b : Int) : Bool := decide ((h.reg Od.calDeltaT : Int) < (a - b).natAbs)
  (List.range 64).foldl (fun h pc =>
    let g := gOf s pc
    let was := h.sreg Od.calLastTemp g
    let t := h.sreg Od.thermStackTemp s
    let moved := was != -128 && t != -128 && far t was
    let slice := match (h.pc g).calSlice, (h.sensor (s * 32 + 16 + pc / 16)).last with
      | some a, some b => far b a
      | _, _ => false
    if moved || slice then h.askCal g else h) h

/-- A stack's temperature is evaluated against its thresholds. -/
def Hw.evalStack (h : Hw) (s : Nat) (t : Int) : Hw :=
  let hyst : Int := h.reg Od.thermHyst
  let level := levelOf (h.reg Od.thermLevelThermal s) t hyst [h.sreg Od.thermL1, h.sreg Od.thermL2, h.sreg Od.thermL3, h.sreg Od.thermL4]
  let ref2 := held (decide (1 ≤ h.askedMultiplier s)) t (h.sreg Od.thermRef2) hyst
  let h := h.setReg Od.thermLevelThermal s level
  let h := h.askMultiplier s (if 1 ≤ level then 2 else if ref2 then 1 else 0)
  let h := h.noteWant s
  let warn := h.sreg Od.thermColdWarn
  let h := if t < warn then h.cross (0x80 + s) (h.wmEvent (0x80 + s)) else if warn + hyst ≤ t then h.uncross (0x80 + s) else h
  h.setReg Od.thermCold s (h.coldState s)

/-- A stack falls below therm_cold_hold while READY: COLD_RUN. -/
def Hw.coldRun (h : Hw) (s : Nat) (was t : Int) : Hw :=
  let hold := h.sreg Od.thermColdHold
  if t < hold ∧ (hold ≤ was ∨ was = -128) ∧ (List.range 64).any (fun pc => decide (h.reg Od.pcState (gOf s pc) = 4)) = true then
    h.raise { kind := 0x28, stack := some s }
  else h

/-- The pace stretch that a hottest junction calls for. -/
def Hw.stretchOf (h : Hw) (was : Nat) (t : Int) : Nat :=
  levelOf was t (h.reg Od.thermHyst) [h.sreg Od.thermStretch1, h.sreg Od.thermStretch2, h.sreg Od.thermStretch3]

/-- SENSOR_READING (R293 to R295, R299 to R303): a sensor's reading, or none, and all that it brings about. -/
def execSensorReading (src : SensorSrc) (reading : Option Int) (st : State) : Host.Outcome State Fault Refusal :=
  st.on (fun h =>
    let k := sensorKey src
    let old := h.sensor k
    let x := old.next reading
    let h := { h with sl.sensors := Table.put h.sl.sensors k x }
    let fresh := x.faulty && !old.faulty
    match src with
    | .coreDie s d =>
      let s := s.val
      let h := h.setBit Od.thermSensorFaults s d x.faulty
      let h := if fresh then h.raise { kind := 0x24, stack := some s, payload := packFields [(8, d.val)] } else h
      let h := h.setElem Od.thermDieTemps s d (((if x.faulty then none else x.last).getD (-128) % 256).toNat)
      let was := h.sreg Od.thermStackTemp s
      let h := h.putTemp Od.thermStackTemp s (hottest (h.dieValues s))
      if h.reg Od.stackState s ≠ 1 then h
      else match validReading reading, hottest (h.dieValues s) with
        | some v, some t =>
          if h.sreg Od.thermStackShut ≤ v ∧ !x.faulty then h.shutStack s else ((h.evalStack s t).coldRun s was t).driftCal s
        | none, some t => (h.evalStack s t).driftCal s
        | _, none => h
    | .slice s i =>
      let s := s.val
      let h := h.setBit Od.thermSensorFaults s (16 + i) x.faulty
      let h := if fresh then h.raise { kind := 0x24, stack := some s, payload := packFields [(8, 16 + i.val)] } else h
      match hottest (h.sliceValues s) with
      | none => h
      | some t =>
        let h := h.putTemp Od.thermSliceTemp s (some t)
        let code := h.stretchOf (h.reg Od.slicePaceStretch s) t
        let h := if code = h.reg Od.slicePaceStretch s then h else (h.setReg Od.slicePaceStretch s code).sirocco s
        let h := if h.reg Od.stackState s = 1 then h.driftCal s else h
        match validReading reading with
        | some v => if h.sreg Od.thermJunctionShut ≤ v ∧ !x.faulty then h.shutDevice else h
        | none => h
    | .hub i =>
      let h := h.setBit Od.hubSensorFaults 0 i x.faulty
      let h := if fresh then h.raise { kind := 0x24, payload := packFields [(8, i.val)] } else h
      match hottest h.hubValues with
      | none => h
      | some t =>
        let h := h.putTemp Od.hubTemp 0 (some t)
        let h := h.setReg Od.hubPaceStretch 0 (h.stretchOf (h.reg Od.hubPaceStretch 0) t)
        match validReading reading with
        | some v => if h.sreg Od.thermJunctionShut ≤ v ∧ !x.faulty then h.shutDevice else h
        | none => h)

/-- LEVEL_DWELL_EXPIRY (R297): a level with a smaller divisor has been asked for throughout the dwell: its rate switch starts,
after a pause and a refresh slot in progress. -/
def execLevelDwellExpiry (stack : StackIx) (s : State) : Host.Outcome State Fault Refusal :=
  s.on (fun h =>
    let st := stack.val
    match Table.look h.sl.dwell st with
    | some (level, since) =>
      if since + h.reg Od.thermRateDwellMs * 1000000 ≤ h.now ∧ !h.switching st ∧ !h.pausing st ∧ !h.inSlot st then h.startRateSwitch st level
      else h
    | none => h)

/-- THROT_REQ_CHANGE (R298): the value at the pins; one that has been stable for 1 µs is accepted for every stack. -/
def execThrotReqChange (value : Fin 4) (s : State) : Host.Outcome State Fault Refusal :=
  s.on (fun h =>
    match h.boot.throtSeen with
    | some (v, t) =>
      if v ≠ value.val then { h with boot.throtSeen := some (value, h.now) }
      else if t + 1000 ≤ h.now then ({ h with boot.throtSeen := none }.setReg Od.throtReq 0 v).noteWants
      else h
    | none => if h.reg Od.throtReq = value.val then h else { h with boot.throtSeen := some (value, h.now) })

/-- COLD_HOLD_WAIT (R303): once per second while a stack waits in COLD_HOLD. -/
def execColdHoldWait (stack : StackIx) (s : State) : Host.Outcome State Fault Refusal :=
  s.on (fun h =>
    let st := stack.val
    if h.coldState st = 2 ∧ h.timer Tm.cold st + 1000000000 ≤ h.now then
      (h.setTimer Tm.cold st h.now).raise { kind := 0x27, stack := some st }
    else h)

/-! ### Power (R305, R306) -/

/-- POWER_ESTIMATE (R305): every 1 ms. -/
def execPowerEstimate (hubMw : BitVec 32) (stackMw : List (BitVec 32)) (s : State) : Host.Outcome State Fault Refusal :=
  s.on (fun h =>
    if !h.due Tm.estimate 0 then h
    else
      let h := h.setTimer Tm.estimate 0 (h.now + 1000000)
      let h := (List.range 16).foldl (fun h i => h.setElem Od.pwrStackMw 0 i (stackMw.getD i 0).toNat) h
      let h := h.setReg Od.pwrHubMw 0 hubMw.toNat
      h.setReg Od.pwrTotalMw 0 (hubMw.toNat + (stackMw.map (fun x => x.toNat)).foldl (fun a b => a + b) 0))

/-- POWER_TEMP_COARSE_REFRESH (R285, R306): every 100 ms, while a confidential partition exists. -/
def execPowerTempCoarseRefresh (s : State) : Host.Outcome State Fault Refusal :=
  s.on (fun h => if h.confidential ∧ h.due Tm.power 0 then { h.setTimer Tm.power 0 (h.now + 100000000) with odPower := h.od } else h)

/-! ### Calibration (R307 to R310) -/

/-- A lane becomes unusable: its position fails (R129). A spare lane in use gives its position back. -/
def Hw.laneUnusable (h : Hw) (g lane : Nat) : Hw :=
  if h.bit Od.lanesFailed g lane then h
  else if lane < 36 then h.failLane g lane
  else
    let k := lane - 36
    let m := h.reg Od.spareMap g
    let p := m / 256 ^ k % 256
    let h := h.setBit Od.lanesFailed g lane true
    if p = 0xff then h
    else
      let x := h.pc g
      let h := h.setPc g { x with sparing := x.sparing.filter (fun q => q != p) }
      (h.setReg Od.spareMap g (m + (0xff - p) * 256 ^ k)).failLane g p

/-- The lanes in use: those not failed and, of the spares, those that carry a position. -/
def Hw.activeLane (h : Hw) (g lane : Nat) : Bool :=
  !h.bit Od.lanesFailed g lane && (decide (lane < 36) || decide (h.reg Od.spareMap g / 256 ^ (lane - 36) % 256 ≠ 0xff))

/-- Keep cal_margin_min: the smallest distance of an active lane from the end of its usable range. -/
def Hw.noteMargin (h : Hw) (g : Nat) : Hw :=
  let off := h.reg Od.calMonitorOffset
  let ms := ((List.range 38).filter (fun l => h.activeLane g l)).map (fun l =>
    let t := h.elem Od.calLaneTaps g l % 64
    min (t - off) (63 - off - t))
  h.setReg Od.calMarginMin g (ms.foldl min 0x20)

/-- CENTERING_WINDOW (R307): the end of a pair of windows of one read lane, with its disagreement counts. -/
def execCenteringWindow (g : PcIx) (lane : Fin 38) (dPlus dMinus : Nat) (s : State) : Host.Outcome State Fault Refusal :=
  s.on (fun h =>
    let g := g.val
    let l := lane.val
    if h.reg Od.pcState g ≠ 4 ∨ !h.activeLane g l then h
    else
      let w := 2 ^ h.reg Od.calWindowLog2
      let off := h.reg Od.calMonitorOffset
      let v := h.elem Od.calLaneTaps g l
      let tap := v % 64
      let dup := v / 64 % 2
      if w / 16 < dPlus ∧ w / 16 < dMinus then h.laneUnusable g l
      else
        let tap := if dMinus + w / 1024 < dPlus then tap - 1 else if dPlus + w / 1024 < dMinus then min 63 (tap + 1) else tap
        if off ≤ tap ∧ tap ≤ 63 - off then (h.setElem Od.calLaneTaps g l (tap + 64 * dup)).noteMargin g
        else
          let other := if tap < off then tap + 32 else tap - 32
          if off ≤ other ∧ other ≤ 63 - off then (h.setElem Od.calLaneTaps g l (other + 64 * (1 - dup))).noteMargin g
          else h.laneUnusable g l)

/-- CAL_INTERVAL_EXPIRY (R308): cal_max_interval_ms since the last run. -/
def execCalIntervalExpiry (g : PcIx) (s : State) : Host.Outcome State Fault Refusal :=
  s.on (fun h =>
    let g := g.val
    if h.reg Od.calLastNs g + h.reg Od.calMaxIntervalMs * 1000000 ≤ h.now then h.askCal g else h)

/-- CALIBRATION_RUN (R309, R310): the run of a pause ends: `caPassed` says whether step 1 passed, `badWriteLanes` which write
lanes have no passing tap. -/
def execCalibrationRun (g : PcIx) (caPassed : Bool) (badWriteLanes : List (Fin 38)) (s : State) : Host.Outcome State Fault Refusal :=
  s.on (fun h =>
    let g := g.val
    if h.reg Od.calState g ≠ 2 then h
    else
      let asked := (h.pc g).pauseReq
      let h := badWriteLanes.foldl (fun h l => h.laneUnusable g l) h
      let h := h.spareLanes g
      let h := if (h.pc g).unspared = [] then h.setPc g { h.pc g with pauseReq := asked } else h
      let h := h.setReg Od.calLastTemp g (h.reg Od.thermStackTemp (g / 64))
      let h := (h.setReg Od.calLastNs g h.now).addReg Od.calRuns g
      let h := h.setPc g { h.pc g with calSlice := (h.sensor (g / 64 * 32 + 16 + g % 64 / 16)).last }
      let streak := h.reg Od.calCaFailStreak g
      if caPassed then
        (h.setReg Od.calCaFailStreak g 0).setReg Od.calState g (if (h.pc g).pauseReq.isSome then 1 else 0)
      else if streak < 2 then
        let h := (h.setReg Od.calCaFailStreak g (streak + 1)).setReg Od.calState g 1
        h.setPc g { h.pc g with pauseReq := some ((h.pc g).pauseReq.getD h.now) }
      else (h.dropCal g).failPc g)

end Sys2Proof.Machine
end

