-- ==== Sys2Proof/Machine/Mail.lean ====
section
/-! DEFINITION. Mailboxes: bindings, queues, locks, doorbells, timeouts and what resets do to them (R331 to R345); route
buckets (R350). -/

namespace Sys2Proof.Machine

/-! ### Bindings (R332) -/

/-- What an endpoint of a channel is bound to: 0 UNBOUND, 1 REQUESTER, 2 GROUP, 3 STEWARD. `b`: endpoint B. -/
def Hw.mbKind (h : Hw) (ch : Nat) (b : Bool) : Nat := h.reg (if b then Od.mbEndB else Od.mbEndA) ch / 16384

/-- The requester ID or group value of an endpoint. -/
def Hw.mbValue (h : Hw) (ch : Nat) (b : Bool) : Nat := h.reg (if b then Od.mbEndB else Od.mbEndA) ch % 4096

/-- Does requester `r` match an endpoint. -/
def Hw.mbMatches (h : Hw) (ch : Nat) (b : Bool) (r : Nat) : Bool :=
  let mask := h.reg (if b then Od.mbMaskB else Od.mbMaskA) ch % 4096
  match h.mbKind ch b with
  | 1 => decide (h.mbValue ch b = r)
  | 2 => decide (r &&& mask = h.mbValue ch b &&& mask)
  | _ => false

/-- The endpoint of requester `r` on a channel (B: true), A where it matches both. -/
def Hw.mbSide (h : Hw) (ch r : Nat) : Option Bool :=
  if h.mbMatches ch false r then some false else if h.mbMatches ch true r then some true else none

/-- The endpoint of the steward cores on a channel (A where both are STEWARD, log entry 13). -/
def Hw.mbStewardSide (h : Hw) (ch : Nat) : Option Bool :=
  if h.mbKind ch false = 3 then some false else if h.mbKind ch true = 3 then some true else none

/-- The rights test of an MBX (R334): an endpoint whose other endpoint is bound, and secure for channels 0–15. -/
def Hw.mbAllowed (h : Hw) (ch r : Nat) (secure : Bool) : Bool :=
  h.active r && (secure || decide (16 ≤ ch)) &&
    (match h.mbSide ch r with
    | some b => decide (h.mbKind ch (!b) ≠ 0)
    | none => false)

/-! ### Queues -/

/-- The queue that leads away from endpoint A (`b` false) or B (`b` true). -/
def Hw.mbq (h : Hw) (ch : Nat) (b : Bool) : MbQueue := Table.atD h.msg.mbq (fun _ => {}) (ch * 2 + (if b then 1 else 0))

/-- The owner code of a lock (R338). -/
def ownerCode (lock : Nat) : Nat := lock % 65536

/-- Store a queue, and what the channel's status record shows of it (R345). -/
def Hw.setMbq (h : Hw) (ch : Nat) (b : Bool) (q : MbQueue) : Hw :=
  let h := { h with msg.mbq := Table.setD h.msg.mbq (fun _ => {}) (ch * 2 + (if b then 1 else 0)) q }
  let h := if b then h.setReg Od.mbFillBa ch q.words.length else h.setReg Od.mbFillAb ch q.words.length
  let h := if b then h.setReg Od.mbLockBa ch (ownerCode q.lock) else h.setReg Od.mbLockAb ch (ownerCode q.lock)
  let h := h.setBit Od.mbFlags ch (if b then 1 else 0) q.timedOut
  h.setBit Od.mbFlags ch (if b then 2 else 3) q.peerReset

/-- An empty queue's drain timer stops and its TIMEOUT flag falls (R340). -/
def MbQueue.settled (q : MbQueue) : MbQueue := if q.words.isEmpty then { q with timer := none, timedOut := false } else q

/-- Append words to a queue (R336): false when fewer entries are free. The first words start the drain timer (R340). -/
def MbQueue.append (q : MbQueue) (now writer epoch : Nat) (words : List (BitVec 64)) : Option MbQueue :=
  if 16 < q.words.length + words.length then none
  else if words.isEmpty then some q
  else
    let ws : List MbWord := words.map (fun w => { data := w, writer := writer, epoch := epoch })
    some { q with words := q.words ++ ws, timer := if q.words.isEmpty then some now else q.timer }

/-- How many words a read of up to `n` pops: it stops before a word whose across_reset bit differs (R337). -/
def popCount (n : Nat) (ws : List MbWord) : Nat :=
  match ws with
  | [] => 0
  | w :: _ => ((ws.take n).takeWhile (fun x => x.across == w.across)).length

/-- Pop up to `n` words: what is left, its drain timer restarted, peer_reset cleared (R337, R340). -/
def MbQueue.pop (q : MbQueue) (now n : Nat) : List MbWord × MbQueue :=
  let k := popCount n q.words
  (q.words.take k,
    MbQueue.settled { q with words := q.words.drop k, peerReset := false, timer := if q.words.isEmpty then none else some now })

/-- The mailbox status word (R337): words returned, those toward the reader, its outbound queue. -/
def mbStatus (popped : List MbWord) (peerReset : Bool) (inward outward : MbQueue) : BitVec 64 :=
  BitVec.ofNat 64 (packBits popped.length ((popped.head?.map (fun w => w.across)).getD false) peerReset outward.timedOut
    inward.words.length (16 - outward.words.length))
where
  packBits (k : Nat) (across peer timedOut : Bool) (left free : Nat) : Nat :=
    k % 32 + (if across then 32 else 0) + (if peer then 64 else 0) + (if timedOut then 128 else 0) + left % 32 * 256
      + free % 32 * 8192

/-- Ring the doorbell of the endpoint that queue `b` leads to (R339). A STEWARD's power domain wakes, a GROUP polls. -/
def Hw.doorbell (h : Hw) (ch : Nat) (b : Bool) : Hw :=
  if h.mbKind ch (!b) = 1 then
    h.raise { kind := 0x2a, dests := [h.mbValue ch (!b)], payload := packFields [(8, ch), (8, (h.mbq ch b).words.length)] }
  else h

/-- A QUEUE write from endpoint `b` (R336): its status. -/
def Hw.mbWrite (h : Hw) (ch : Nat) (b : Bool) (writer epoch : Nat) (words : List (BitVec 64)) : Nat × Hw :=
  let q := h.mbq ch b
  match q.append h.now writer epoch words with
  | some q' =>
    let h := h.setMbq ch b q'
    (St.ok, if q.words.isEmpty && !words.isEmpty then h.doorbell ch b else h)
  | none => (St.full, h)

/-- A QUEUE read at endpoint `b` (R337): the status word, the words. -/
def Hw.mbRead (h : Hw) (ch : Nat) (b : Bool) (n : Nat) : BitVec 64 × List (BitVec 64) × Hw :=
  let q := h.mbq ch (!b)
  let (ws, q') := q.pop h.now n
  (mbStatus ws q.peerReset q' (h.mbq ch b), ws.map (fun w => w.data), h.setMbq ch (!b) q')

/-- A STATUS read at endpoint `b` (R337). -/
def Hw.mbStatusAt (h : Hw) (ch : Nat) (b : Bool) : BitVec 64 :=
  mbStatus [] (h.mbq ch (!b)).peerReset (h.mbq ch (!b)) (h.mbq ch b)

/-! ### Locks and semaphores (R338) -/

/-- A lock read by `who`: the new owner, and what is returned. -/
def lockTake (owner who : Nat) : Nat × Nat :=
  if owner = 0 then (who, 0) else if owner = who then (owner, 0) else (owner, ownerCode owner)

/-- The owner that stands for a steward core. -/
def coreOwner (core : Nat) : Nat := 0x2000 + core * 0x10000

/-- A freed lock goes to the steward core that has waited longest. -/
def lockFree (waiting : List (Nat × Nat)) : Nat × List (Nat × Nat) :=
  match waiting with
  | [] => (0, [])
  | w :: ws => (coreOwner w.1, ws)

/-- Read of the lock of the queue that endpoint `b` writes. -/
def Hw.lockRead (h : Hw) (ch : Nat) (b : Bool) (who : Nat) : Nat × Hw :=
  let q := h.mbq ch b
  let (owner, v) := lockTake q.lock who
  (v, h.setMbq ch b { q with lock := owner })

/-- Free the lock of a queue. -/
def Hw.lockRelease (h : Hw) (ch : Nat) (b : Bool) : Hw :=
  let q := h.mbq ch b
  let (owner, ws) := lockFree q.acquiring
  h.setMbq ch b { q with lock := owner, acquiring := ws }

/-- Write of the lock of the queue that endpoint `b` writes. -/
def Hw.lockWrite (h : Hw) (ch : Nat) (b : Bool) (who v : Nat) : Hw :=
  if v = 0 ∧ who = (h.mbq ch b).lock then h.lockRelease ch b else h.addReg Od.mbLockErrors ch

/-- Who owns a steward semaphore. -/
def Hw.sem (h : Hw) (i : Nat) : Nat := Table.atD h.msg.sems (fun _ => 0) i
def Hw.setSem (h : Hw) (i v : Nat) : Hw := { h with msg.sems := Table.setD h.msg.sems (fun _ => 0) i v }

/-- The steward cores that wait for a semaphore, and since when. -/
def Hw.semWaiting (h : Hw) (i : Nat) : List (Nat × Nat) := Table.atD h.msg.semTry (fun _ => []) i
def Hw.setSemWaiting (h : Hw) (i : Nat) (l : List (Nat × Nat)) : Hw :=
  { h with msg.semTry := Table.setD h.msg.semTry (fun _ => []) i l }

/-- A steward core acquires a lock, or waits for it (R338). -/
def Hw.coreAcquire (h : Hw) (ch core : Nat) (b : Bool) : Hw :=
  let (v, h) := h.lockRead ch b (coreOwner core)
  let q := h.mbq ch b
  if v = 0 ∨ q.acquiring.any (fun x => x.1 == core) then h else h.setMbq ch b { q with acquiring := q.acquiring ++ [(core, h.now)] }

/-- A steward core acquires a semaphore, or waits for it (R338). -/
def Hw.semAcquire (h : Hw) (i core : Nat) : Hw :=
  let (owner, v) := lockTake (h.sem i) (coreOwner core)
  if v = 0 then h.setSem i owner
  else if (h.semWaiting i).any (fun x => x.1 == core) then h
  else h.setSemWaiting i (h.semWaiting i ++ [(core, h.now)])

/-- A steward core frees a semaphore it owns. -/
def Hw.semRelease (h : Hw) (i core : Nat) : Hw :=
  if h.sem i = coreOwner core then
    let (owner, ws) := lockFree (h.semWaiting i)
    (h.setSem i owner).setSemWaiting i ws
  else h

/-! ### An MBX at the mailbox block (R335 to R338) -/

/-- Bytes of an MBX response: padded to whole 64 B units. -/
def mbBytes (b : List Byte) : List Byte := b ++ List.replicate ((64 - b.length % 64) % 64) 0

/-- The i-th word of a QUEUE write. -/
def mbWordAt (data : List Byte) (i : Nat) : BitVec 64 := BitVec.ofNat 64 (bytesNat ((data.drop (8 * i)).take 8))

/-- Complete an MBX read. -/
def Hw.mbAnswer (h : Hw) (uid : Nat) (b : List Byte) : Hw :=
  let d := mbBytes b
  h.complete uid St.ok d (List.replicate (d.length / 64) false)

/-- Serve the MBX of a tracker entry. -/
def Hw.mbServe (h : Hw) (uid : Nat) : Hw :=
  match h.trk uid with
  | none => h
  | some t =>
    let r := t.rq
    let ch := r.ext % 64
    let n := r.ext / 256 % 32
    if r.parBad then h.complete uid St.poison
    else match h.mbSide ch r.requester with
    | none => h.complete uid St.denied
    | some b =>
      match r.ext / 64 % 4, r.subop with
      | 0, 1 =>
        let (st, h) := h.mbWrite ch b (r.requester + 1) r.epoch ((List.range n).map (mbWordAt r.data))
        h.complete uid st
      | 0, _ =>
        let (st, ws, h) := h.mbRead ch b n
        h.mbAnswer uid (bytesOf st 8 ++ ws.flatMap (fun w => bytesOf w 8))
      | 1, 1 => (h.lockWrite ch b (r.requester + 1) (mbWordAt r.data 0).toNat).complete uid St.ok
      | 1, _ =>
        let (v, h) := h.lockRead ch b (r.requester + 1)
        h.mbAnswer uid (natBytes v 8)
      | _, _ => h.mbAnswer uid (bytesOf (h.mbStatusAt ch b) 8)

/-! ### Timeouts -/

/-- A queue's drain timer reaches mb_timeout_us (R340). -/
def Hw.mbTimeout (h : Hw) (ch : Nat) (b : Bool) : Hw :=
  let q := h.mbq ch b
  match q.timer, q.words with
  | some t, w :: _ =>
    if t + h.reg Od.mbTimeoutUs ch * 1000 ≤ h.now then
      let h := h.setMbq ch b { q with timedOut := true, timer := none }
      h.raise { kind := 0x2b, dests := if w.writer < 0x2000 then [w.writer - 1] else [],
                payload := packFields [(8, ch), (8, q.words.length)] }
    else h
  | _, _ => h

/-- Row 226. A queue's drain timer expires. -/
def execMailboxTimeout (channel : Fin 64) (fromB : Bool) (s : State) : Host.Outcome State Fault Refusal :=
  s.on (fun h => h.mbTimeout channel.val fromB)

/-- The LOCK_STALL event (R347). -/
def Hw.lockStalled (h : Hw) (i : Nat) (semaphore : Bool) (owner : Nat) : Hw :=
  h.raise { kind := 0x2d, payload := i % 64 + (if semaphore then 64 else 0) + ownerCode owner * 65536 }

/-- The first acquire that has been retried for 1 ms (R338). -/
def stalledOf (now : Nat) (l : List (Nat × Nat)) : Option (Nat × Nat) := l.find? (fun x => decide (x.2 + 1000000 ≤ now))

/-- Row 227. A firmware acquire retried for 1 ms fails. -/
def execLockStall (semaphore : Bool) (index : Fin 64) (s : State) : Host.Outcome State Fault Refusal :=
  s.on (fun h =>
    let i := index.val
    if semaphore then
      match stalledOf h.now (h.semWaiting i) with
      | some x => (h.setSemWaiting i ((h.semWaiting i).erase x)).lockStalled i true (h.sem i)
      | none => h
    else [false, true].foldl (fun h b =>
      let q := h.mbq i b
      match stalledOf h.now q.acquiring with
      | some x => (h.setMbq i b { q with acquiring := q.acquiring.erase x }).lockStalled i false q.lock
      | none => h) h)

/-! ### Resets (R341 to R343) -/

/-- A receiver reset of the endpoint that queue `b` leads to (R341). -/
def Hw.mbReceiverReset (h : Hw) (ch : Nat) (b : Bool) : Hw :=
  let q := h.mbq ch b
  if q.words.isEmpty then h
  else if h.reg Od.mbFlushOnReset ch = 1 then
    (h.addReg Od.mbFlushed ch q.words.length).setMbq ch b (MbQueue.settled { q with words := [] })
  else h.setMbq ch b { q with words := q.words.map (fun (w : MbWord) => { w with across := true }) }

/-- The words a reset writer left in queue `b` are discarded (R342). -/
def Hw.mbWriterReset (h : Hw) (ch : Nat) (b : Bool) (r : Nat) : Hw :=
  let q := h.mbq ch b
  let kept := q.words.filter (fun w => w.writer != r + 1)
  if kept.length = q.words.length then h
  else
    let h := h.setMbq ch b (MbQueue.settled { q with words := kept, peerReset := true })
    let e : Event := { kind := 0x2c, req := some r, payload := packFields [(8, ch), (8, q.words.length - kept.length)] }
    match h.mbKind ch (!b) with
    | 1 => h.raise { e with dests := [h.mbValue ch (!b)] }
    | 3 => h.raise e
    | _ => h

/-- The queues of every channel: (channel, leads away from B). -/
def mbQueues : List (Nat × Bool) := (List.range 64).flatMap (fun ch => [(ch, false), (ch, true)])

/-- What an advance of a requester's epoch does to the mailboxes (R338, R341, R342). -/
def Hw.mbEpoch (h : Hw) (r : Nat) : Hw :=
  mbQueues.foldl (fun h x =>
    let h := h.mbWriterReset x.1 x.2 r
    let h := if h.mbKind x.1 (!x.2) = 1 ∧ h.mbValue x.1 (!x.2) = r then h.mbReceiverReset x.1 x.2 else h
    if (h.mbq x.1 x.2).lock = r + 1 then h.lockRelease x.1 x.2 else h) h

/-- What a hub-only reset does to the mailboxes (R343). -/
def Hw.mbHubReset (h : Hw) : Hw :=
  let h := mbQueues.foldl (fun h x =>
    let h := h.mbReceiverReset x.1 x.2
    let q := h.mbq x.1 x.2
    h.setMbq x.1 x.2 { q with timedOut := false, lock := 0, acquiring := [] }) h
  { h with msg.sems := [], msg.semTry := [] }

/-! ### Binding lock, route buckets -/

/-- Row 228. Firmware sets mb_binding_lock (R333). -/
def execMbBindingLockWrite (s : State) : Host.Outcome State Fault Refusal := s.on (fun h => h.setReg Od.mbBindingLock 0 1)

/-- Row 229. A route's bucket refills at route_rate per ms (R350). -/
def execRouteBucketRefill (route : Fin 32) (s : State) : Host.Outcome State Fault Refusal :=
  s.on (fun h =>
    let k := route.val
    if h.due Tm.refill k then
      let used := Table.atD h.msg.routeTokens (fun _ => 0) k
      let h := { h with msg.routeTokens := Table.setD h.msg.routeTokens (fun _ => 0) k (used - h.reg Od.routeRate k) }
      h.setTimer Tm.refill k ((h.now / 1000000 + 1) * 1000000)
    else h)

/-- A steward core's QUEUE write. -/
def Hw.coreWrite (h : Hw) (ch : Nat) (words : List (BitVec 64)) : Hw :=
  match h.mbStewardSide ch with
  | some b => (h.mbWrite ch b 0x2000 0 (words.take 16)).2
  | none => h

/-- A steward core's QUEUE read. -/
def Hw.coreRead (h : Hw) (ch n : Nat) : Hw :=
  match h.mbStewardSide ch with
  | some b => if n = 0 then h else (h.mbRead ch b n).2.2
  | none => h

/-- A steward core's read of a lock or a semaphore. -/
def Hw.coreLockRead (h : Hw) (i core : Nat) (semaphore : Bool) : Hw :=
  if semaphore then (if i < 32 then h.semAcquire i core else h)
  else match h.mbStewardSide i with
    | some b => h.coreAcquire i core b
    | none => h

/-- A steward core's write of a lock or a semaphore. -/
def Hw.coreLockWrite (h : Hw) (i core : Nat) (semaphore : Bool) (v : Nat) : Hw :=
  if semaphore then (if v = 0 then h.semRelease i core else h)
  else match h.mbStewardSide i with
    | some b => h.lockWrite i b (coreOwner core) v
    | none => h

end Sys2Proof.Machine
end

