-- ==== Sys2Proof/Machine/Counters.lean ====
section
/-! DEFINITION. Counters and the sampler: clears, retargeting, freeze and snapshot, seed, the coarse refresh
(R355 to R369, R285). Counting itself stands in Events. -/

namespace Sys2Proof.Machine

/-! ### Clears (R357, R359) -/

/-- CLEAR of a pseudo-channel's 24 counters (R357). -/
def Hw.fixClear (h : Hw) (g : Nat) : Hw := (List.range 24).foldl (fun h e => h.setElem Od.fixCounts g e 0) h

/-- CLEAR of a selectable counter (R359). -/
def Hw.selClear (h : Hw) (n : Nat) : Hw := h.setReg Od.selCount n 0

/-! ### Sources (R360, R361) -/

/-- Source codes run from NONE 0 to EVENTS_DROPPED 10h (R360). -/
def selLast : Nat := 0x10

/-- The range of instances of a source, as the nearest instance within it. `nst`: how many the unit has. -/
def selInRange (nst source inst : Nat) : Nat :=
  match source with
  | 1 => min (inst / 256) (nst - 1) * 256 + min (inst % 256) 23
  | 2 => min inst (nst * 8 - 1)
  | 3 => min inst 31
  | 4 => min inst 31
  | 5 => min inst 31
  | 7 => min inst 4095
  | 8 => min inst 4095
  | 9 => min inst 4095
  | 0xa => min inst (nst - 1)
  | 0xb => min inst (nst - 1)
  | 0xc => min inst (nst - 1)
  | 0xd => min inst (nst * 4 - 1)
  | 0xe => min inst (nst - 1)
  | 0xf => min inst 255
  | 0x10 => min inst 31
  | _ => inst

/-- The partitions a source's counts are attributed to (R360). -/
def Hw.attribution (h : Hw) (source inst : Nat) : List Nat :=
  match source with
  | 1 => h.stackTie (inst / 256)
  | 7 => bitsOf (h.reg Od.reqPartitions inst)
  | 8 => bitsOf (h.reg Od.reqPartitions inst)
  | 9 => bitsOf (h.reg Od.reqPartitions inst)
  | 0xb => h.stackTie inst
  | 0xc => h.stackTie inst
  | 0xd => h.stackTie (inst / 4)
  | 0xe => h.stackTie inst
  | 0xf => [h.reg Od.redPartition inst]
  | 0x10 => if 16 ≤ inst then [inst - 16] else []
  | _ => []

/-- The partitions a selectable counter's count is attributed to. -/
def Hw.selParts (h : Hw) (n : Nat) : List Nat := h.attribution (h.reg Od.selSource n) (h.reg Od.selInstance n)

/-! ### Freeze and snapshot (R363, R364) -/

/-- Copy every element of register `src` into register `dst`. -/
def Hw.copyReg (h : Hw) (src dst : Reg) : Hw :=
  let h0 := h.resetRegs (fun k => decide (keyReg k = dst))
  (h.od.filter (fun e => decide (keyReg e.1 = src))).foldl (fun h e => h.setElem dst (keyInst e.1) (e.1 % 4096) e.2) h0

/-- A counter command is accepted: it takes effect 2 µs later (R363). 1 FREEZE, 2 UNFREEZE, 3 SNAPSHOT. -/
def Hw.countCommand (h : Hw) (a : Actor) (v : Nat) : Hw :=
  let frozen := decide (h.reg Od.cntFrozen = 1)
  if h.cntPending.isSome || (v == 1 && frozen) || (v == 2 && !frozen) then h.ignore a Od.cntCommand 0 Why.wrongState
  else { h with cntPending := some (v, h.now + 2000) }

/-- What a pending counter command does at its instant. -/
def Hw.countApply (h : Hw) (v t : Nat) : Hw :=
  match v with
  | 1 => h.setReg Od.cntFrozen 0 1
  | 2 => h.setReg Od.cntFrozen 0 0
  | _ =>
    let h := (h.copyReg Od.fixCounts Od.fixSnapshot).copyReg Od.selCount Od.selSnapshot
    (h.setReg Od.cntSnapNs 0 t).addReg Od.cntSnapSeq 0

/-- Row 239. The instant T_s arrives. -/
def execCounterCommandInstant (s : State) : Host.Outcome State Fault Refusal :=
  s.on (fun h =>
    match h.cntPending with
    | some (v, t) => if t ≤ h.now then { h with cntPending := none }.countApply v t else h
    | none => h)

/-! ### The sampler (R366) -/

/-- One step of the 32-bit Galois LFSR with feedback mask 8020_0003h. -/
def lfsrStep (x : BitVec 32) : BitVec 32 := if x.getLsbD 0 then (x >>> 1) ^^^ 0x80200003#32 else x >>> 1

/-- A write of smp_seed loads the state. -/
def Hw.loadSeed (h : Hw) (v : Nat) : Hw := { h.setReg Od.smpSeed 0 v with lfsr := BitVec.ofNat 32 v }

/-- Row 241. At a 1 ms boundary of the timebase the values that operators read coarsely are taken afresh (R285). -/
def execCoarseValueRefresh (s : State) : Host.Outcome State Fault Refusal :=
  s.on (fun h =>
    if h.confidential ∧ h.due Tm.coarse 0 then
      { h.setTimer Tm.coarse 0 ((h.now / 1000000 + 1) * 1000000) with odMs := h.od }
    else h)

end Sys2Proof.Machine
end

