-- ==== Sys2Proof/Machine/PortOps.lean ====
section
/-! DEFINITION. What closes, resets and reopens a fabric port (R51, R52, R384), and what a reset of a requester does
(R59, R62). -/

namespace Sys2Proof.Machine

/-! ### Requests a port holds (R60, R61) -/

/-- Beats still to come for a request are discarded as they arrive. -/
def orphanBeats (uid : Nat) (l : List BeatWait) : List BeatWait :=
  l.map (fun (b : BeatWait) => if b.uid = some uid then { b with uid := none } else b)

/-- Discard the requests of port `n` deferred or held that `p` names, without response (R62). `forget`: those still in ingress too,
and the window entries return to EMPTY, since none has executed (R52, R384). -/
def Hw.dropHeld (h : Hw) (n : Nat) (p : Rq → Bool) (forget : Bool) : Hw :=
  let q := h.port n
  let gone := q.deferred.filter p ++ q.held.toList.filter p
  let dropIn (r : Rq) : Bool := forget && p r
  let kept := q.deferred.filter (fun r => !p r)
  let h := h.setPort n
    { q with deferred := kept, held := q.held.filter (fun r => !p r), ingress := q.ingress.filter (fun r => !dropIn r),
             beats := (gone ++ q.ingress.filter dropIn).foldl (fun l r => orphanBeats r.uid l) q.beats }
  let h := h.setReg Od.portDeferred n kept.length
  gone.foldl (fun h r => match r.seq with
    | some s => if forget && !r.isRepeat then h.winForget r.requester s else h
    | none => h) h

/-- Discard responses waiting at egress of port `n` that `p` names; their tracker entries are released. -/
def Hw.dropUnits (h : Hw) (n : Nat) (p : OutUnit → Bool) : Hw :=
  let q := h.port n
  let gone := q.ready.filter p
  let h := h.setPort n { q with ready := q.ready.filter (fun u => !p u) }
  gone.foldl (fun h u => match u.trk with
    | some t => h.releaseTrk t
    | none => h) h

/-- Drop the writes admitted on port `n` whose data beats have not all arrived: unexecuted, without response (R52). -/
def Hw.dropUnfed (h : Hw) (n : Nat) : Hw :=
  (h.req.trackers.filter (fun e => e.2.rq.port == n && decide (e.2.phase = .waitData))).foldl (fun h e =>
    let h := match e.2.rq.seq with
      | some s => if e.2.rq.isRepeat then h else h.winForget e.2.rq.requester s
      | none => h
    (h.releaseTrk e.1)) h

/-- A port enters ERROR (R52). -/
def Hw.portError (h : Hw) (n : Nat) : Hw :=
  if h.reg Od.portState n ≠ 1 then h
  else
    let h := (h.setReg Od.portState n 2).addReg Od.portProtocolErrors n
    let h := (h.dropHeld n (fun r => decide (r.beatsLeft ≠ 0)) true).dropUnfed n
    let h := (h.dropUnits n (fun _ => true)).setPort n { (h.dropUnits n (fun _ => true)).port n with beats := [] }
    h.raise { kind := 1, payload := packFields [(8, n)] }

/-- BISNPs that will never leave egress: their snoops' timers run from now (R148, R384 step 4). -/
def Hw.lostBisnps (h : Hw) (us : List OutUnit) : Hw :=
  us.foldl (fun h u =>
    match Table.look h.coh.snoops u.tag with
    | some x => if u.op = 0x10 then { h with coh.snoops := Table.put h.coh.snoops u.tag { x with sentAt := some (x.sentAt.getD h.now) } } else h
    | none => h) h

/-- A port stops: OFF, its generation advanced, everything it holds discarded, the responses of its tracker entries too
(R384 steps 1 to 4). -/
def Hw.closePort (h : Hw) (n : Nat) : Hw :=
  let h := (h.dropHeld n (fun _ => true) true).dropUnfed n
  let h := h.dropUnits n (fun _ => true)
  let h := h.lostBisnps ((h.port n).bisnps ++ (h.port n).sending.toList)
  let h := match (h.port n).sending with
    | some u => (match u.trk with | some t => h.releaseTrk t | none => h)
    | none => h
  let h := { h with req.trackers := h.req.trackers.map (fun (e : Nat × Tracker) => (e.1, if e.2.rq.port = n then { e.2 with orphan := true } else e.2)) }
  let h := h.setPort n { generation := ((h.port n).generation + 1) % 256 }
  (h.setReg Od.portState n 0).setReg Od.portRefusalLine n 0

/-- A port becomes UP: it holds no header and no beat, so its 4,096 credits of either kind are out (R51). -/
def Hw.openPort (h : Hw) (n : Nat) : Hw :=
  (h.setReg Od.portState n 1).setPort n { h.port n with idleFrom := none }

/-- port_command RESET (R384): from UP or ERROR. -/
def Hw.resetPort (h : Hw) (a : Actor) (n : Nat) : Hw :=
  if h.reg Od.portState n = 0 then h.ignore a Od.portCommand n Why.wrongState
  else
    let h := h.closePort n
    if h.reg Od.portEnable n = 1 then h.setPort n { h.port n with idleFrom := some h.now } else h

/-- Row 253. The node die has held the port's wires for 1 µs: UP with credits (R384 step 5), if it was reset while
enabled (R383). -/
def execPortIdleUp (port : PortIx) (s : State) : Host.Outcome State Fault Refusal :=
  s.on (fun h =>
    let n := port.val
    match (h.port n).idleFrom with
    | some t => if t + 1000 ≤ h.now then h.openPort n else h
    | none => h)

/-! ### Requester states (R59, R62) -/

/-- The stacks whose slices keep a directory. -/
def Hw.directories (h : Hw) : List Nat := (List.range 16).filter (fun s => h.exists s)

/-- The requester's epoch advances, once the sweeps of an earlier advance have ended: its slices' copies follow and their directories are swept, its mailbox words go, its
device interfaces leave RUN (R62 steps 4 and 5, R144, R275, R342). -/
def Hw.advanceEpoch (h : Hw) (r : Nat) : Hw :=
  let h := (h.finishSweeps r).addReg Od.reqEpoch r
  let ds := h.directories
  let h := ds.foldl (fun h s =>
    { h with coh.epochCopy := Table.setD h.coh.epochCopy (fun _ => 0) (s * 4096 + r) (h.reg Od.reqEpoch r % 256) }) h
  let h := { h with coh.sweeps := h.coh.sweeps ++ ds.map (fun s => (s, r)) }
  (h.mbEpoch r).tdiEpoch r

/-- The reset actions of R62: responses of the old epoch are discarded, waiting requests dropped, the window cleared. -/
def Hw.resetActions (h : Hw) (r : Nat) : Hw :=
  let h := (h.req.trackers.filter (fun e => e.2.rq.requester == r && decide (e.2.phase = .waitOriginal))).foldl (fun h e => h.releaseTrk e.1) h
  let h := (List.range 32).foldl (fun h n =>
    (h.dropHeld n (fun q => q.requester == r) false).dropUnits n (fun u => u.requester == r && u.trk.isSome)) h
  let gone := h.pair.heldUnits.filter (fun u => u.2.requester == r && u.2.trk.isSome)
  let h := { h with pair.heldUnits := h.pair.heldUnits.filter (fun u => !(u.2.requester == r && u.2.trk.isSome)) }
  let h := gone.foldl (fun h u => match u.2.trk with
    | some t => h.releaseTrk t
    | none => h) h
  h.clearWin r

/-- Entering ACTIVE, a requester has no first admitted request yet (R58). -/
def Hw.dropHome (h : Hw) (r : Nat) : Hw := { h with req.homes := Table.del h.req.homes r }

/-- A write of req_state: 0 ABSENT, 1 ACTIVE, 2 RESET, 3 DEAD (R59). -/
def Hw.writeReqState (h : Hw) (a : Actor) (r v : Nat) : Hw :=
  match h.reg Od.reqState r, v with
  | 0, 1 => (((h.advanceEpoch r).clearWin r).dropHome r).setReg Od.reqState r 1
  | 1, 2 => (h.advanceEpoch r).resetActions r
  | 1, 3 => ((h.advanceEpoch r).resetActions r).setReg Od.reqState r 3
  | 1, 0 => ((((h.advanceEpoch r).resetActions r).setReg Od.reqState r 0).setReg Od.reqPartitions r 0 |>.setReg Od.reqWrite r 0).setReg Od.reqSecure r 0
  | 3, 0 => (((h.advanceEpoch r).setReg Od.reqState r 0).setReg Od.reqPartitions r 0 |>.setReg Od.reqWrite r 0).setReg Od.reqSecure r 0
  | 3, 1 => (((h.advanceEpoch r).clearWin r).dropHome r).setReg Od.reqState r 1
  | _, _ => h.ignore a Od.reqState r Why.wrongState

end Sys2Proof.Machine
end

