-- ==== Sys2Proof/Machine/Dict.lean ====
section
/-! DEFINITION. The dictionary engine, reads: which objects exist, what each role may read and write, and what it
reads (R271, R283, R285, R311 to R313, R320, R327, R328, R352, R362). -/

namespace Sys2Proof.Machine

/-! ### Which objects exist (R311, R328) -/

/-- How many stacks the unit's records cover: eight per hub. -/
def Hw.stackCount (h : Hw) : Nat := if h.isCascade then 16 else 8

/-- How many instances a record has on this unit. -/
def Hw.instCount (h : Hw) (d : RecDesc) : Nat :=
  if ([0x3000, 0x3200, 0x4000, 0x4100, 0x5100, 0x6210, 0x6310, 0xA010, 0xC010] : List Nat).contains d.index then h.stackCount
  else if ([0x3100, 0x6100, 0xA100, 0xC000] : List Nat).contains d.index then h.stackCount * 64
  else if d.index = 0x7000 then h.stackCount * 4
  else if d.insts = 16 then h.stackCount
  else d.insts

/-- Records that describe one hub's own hardware: the secondary's copy has instance bit 11 set. -/
def hubLocal (index : Nat) : Bool := ([0x0020, 0x2200, 0x2210, 0x6300, 0xA020, 0xA030, 0xC300, 0xC310] : List Nat).contains index

/-- Does an access name the secondary's copy of a hub-local object. -/
def Hw.remoteCopy (h : Hw) (index inst : Nat) : Bool := h.isCascade && hubLocal index && decide (2048 ≤ inst)

/-- The field an access names, if the configuration defines it. -/
def Hw.fieldAt (h : Hw) (r : Reg) (inst : Nat) : Option FieldDesc :=
  match recOf r.index with
  | some d =>
    let i := if h.remoteCopy r.index inst then inst - 2048 else inst
    if i < h.instCount d then d.fields.find? (fun f => f.sub == r.sub) else none
  | none => none

/-- Does an access name a record's subindex 00. -/
def Hw.headAt (h : Hw) (r : Reg) (inst : Nat) : Bool :=
  r.sub == 0 && (match recOf r.index with
    | some d => decide ((if h.remoteCopy r.index inst then inst - 2048 else inst) < h.instCount d)
    | none => false)

/-- Elements of a field, and bytes of one. -/
def FieldDesc.count (f : FieldDesc) : Nat := max 1 f.elems
def FieldDesc.bytes (f : FieldDesc) : Nat := f.ty.width / 8

/-! ### Rights (R271, R313, R327) -/

/-- Debug levels that reach everything. -/
def Hw.debugOpen (h : Hw) : Bool := decide (h.reg Od.dbgLevel = Dbg.opened ∨ h.reg Od.dbgLevel = Dbg.returnedOpen)

/-- Do all of the partitions consent to debug (R283). -/
def Hw.debugConsent (h : Hw) (ps : List Nat) : Bool := ps.all (fun p => decide (h.reg Od.secConsentDebug p = 1))

/-- The tenant side of an object: its partitions all held; one with none belongs to whoever takes it, where its own rule
says so (R164, R280). -/
def Hw.tenantReach (h : Hw) (a : Actor) (r : Reg) (i : Nat) (wr : Bool) : Bool :=
  let holds (p : Nat) : Bool := h.tenantFor a p && (match a with
    | .requester q _ => !wr || h.bit Od.reqWrite q p
    | _ => true)
  let anyT : Bool := match a with
    | .session _ => decide (h.roleOf a = .t)
    | .requester q _ => h.active q && decide (h.reg Od.reqPartitions q ≠ 0)
    | _ => false
  match h.tied r i with
  | none => anyT
  | some [] => anyT && decide (r.index = 0x7100 ∨ r.index = 0x1310)
  | some ps => ps.all holds || (anyT && decide (r = Od.redPartition ∧ h.reg Od.redState i = 0))

/-- Objects an ODW never reaches (R327): all of area 1; for writes also the listed fields. -/
def sessionOnly (r : Reg) (wr : Bool) : Bool :=
  decide (r.index / 4096 = 1) || (wr &&
    (decide (r.index = 0x2000) || decide (r.index = 0x2100 ∧ r.sub ≤ 3) || decide (r.index = 0x7100 ∧ 2 ≤ r.sub ∧ r.sub ≤ 6)
      || decide (r.index = 0x8000 ∧ 3 ≤ r.sub ∧ r.sub ≤ 0x12)))

/-- What the operator holds where the record's instances differ (R138, R349, R354, R359). -/
def operatorRight (f : FieldDesc) (r : Reg) (i : Nat) : Right :=
  if r = Od.retiredPages then .no
  else if r.index = 0xB100 ∧ 16 ≤ i ∧ (r.sub ≤ 4 ∨ r.sub = 6) then .no
  else if r.index = 0xC100 ∧ 0xc0 ≤ i ∧ (r.sub ≤ 2 ∨ r.sub = 5) then .no
  else if r.index = 0xB130 ∧ 0x90 ≤ i then .no
  else f.o

/-- What a tenant holds where the record's instances differ. -/
def tenantRight (f : FieldDesc) (r : Reg) (i : Nat) : Right :=
  if r.index = 0xB100 ∧ i < 16 then .no
  else if r.index = 0xC100 ∧ i < 0xc0 ∧ (r.sub ≤ 2 ∨ r.sub = 5) then .no
  else if r = Od.wmCommand ∧ i < 0x90 then .no
  else f.t

/-- What an access holds on an object that exists. `wr`: it is a write. -/
def Hw.right (h : Hw) (a : Actor) (f : FieldDesc) (r : Reg) (i : Nat) (wr : Bool) : Right :=
  let tenant : Right := if h.tenantReach a r i wr then tenantRight f r i else .no
  match a with
  | .firmware => f.f
  | .debug =>
    if h.debugOpen then .r
    else if h.reg Od.dbgLevel = Dbg.operator ∧ f.peek = true ∧ h.debugConsent ((h.tied r i).getD []) = true then .r
    else .no
  | .nobody => .no
  | .session _ => match h.roleOf a with
    | .o => operatorRight f r i
    | .t => tenant
    | _ => .no
  | .requester _ _ => if sessionOnly r wr then .no else tenant

/-- In BLANK, PROVISION and writes of op_keys and id_cert need no session (R271). -/
def Hw.blankWrite (h : Hw) (a : Actor) (r : Reg) (v : Nat) : Bool :=
  decide (h.reg Od.lcState = 0) && decide (r = Od.opKeys ∨ r = Od.idCert ∨ (r = Od.lcCommand ∧ v = 1)) &&
    (match a with | .nobody => true | .session _ => true | _ => false)

/-- May an access write a value to an object (R36, R313, R327); the Yuvin return token carries SCRAP over the debug port
(R262). -/
def Hw.mayWrite (h : Hw) (a : Actor) (r : Reg) (i v : Nat) : Bool :=
  h.blankWrite a r v || decide (a = .debug ∧ r = Od.lcCommand ∧ v = 4 ∧ h.reg Od.lcState = 3) ||
    (match h.fieldAt r i with
    | some f =>
      (match h.right a f r i true with | .w => true | .rw => decide (a ≠ .debug) | _ => false) &&
        (decide (h.roleOf a ≠ .t) || !(decide (r = Od.partCommand) && decide (v ≠ 3))) &&
        (match a with | .requester _ _ => !(decide (r = Od.redCommand) && decide (v = 1)) | _ => true)
    | none => false)

/-- Does a role hold w on an object. -/
def Hw.holdsW (h : Hw) (a : Actor) (f : FieldDesc) (r : Reg) (i : Nat) : Bool :=
  match h.right a f r i true with
  | .w => true
  | .rw => true
  | _ => false

/-- Does a role hold r on an object, or is the object "all r". -/
def Hw.holdsR (h : Hw) (a : Actor) (f : FieldDesc) (r : Reg) (i : Nat) : Bool :=
  f.pub || (match h.right a f r i false with | .r => true | .rw => true | _ => false)

/-! ### Coarse values (R23, R285, R306, R362) -/

/-- The objects that count: events, entries, occupancy, bytes or time (R285). -/
def countRegs : List Reg :=
  [Od.hubPaceWindows, Od.bootReleaseMs, Od.reqInflight, Od.reqTimeouts, Od.reqRefusals, Od.portBlockedNs, Od.portDeferred,
    Od.portHdrParity, Od.portProtocolErrors, Od.portRefusalLine, Od.qanatReplays, Od.qanatLanesRepaired, Od.pcQueueEntries,
    Od.pcThrottleActive, Od.regCredit, Od.regGatedNs, Od.arbCutoffs, Od.remapUsed, Od.spprCount, Od.scrubPasses, Od.logHead,
    Od.mirrorBufferBytes, Od.mirrorDivergences, Od.thermLevelChanges, Od.calRuns, Od.calCaFailStreak, Od.mbFillAb, Od.mbFillBa,
    Od.mbFlushed, Od.mbLockErrors, Od.routePending, Od.routeDropped, Od.evHead, Od.wmCount, Od.fixCounts, Od.fixSnapshot,
    Od.stackCounters, Od.selCount, Od.selSnapshot, Od.cntSnapSeq, Od.smpHead, Od.clampHead, Od.ignTotal, Od.ignByArea]

/-- The pace objects (R23). -/
def paceRegs : List Reg := [Od.hubPace, Od.hubPacePeak, Od.slicePace, Od.slicePacePeak]

/-- The power figures, and the temperatures (R285, R306). -/
def powerRegs : List Reg := [Od.pwrTotalMw, Od.pwrHubMw, Od.pwrStackMw]
def tempRegs : List Reg := [Od.thermStackTemp, Od.thermDieTemps, Od.thermSliceTemp, Od.hubTemp]

/-- What an operator or tenant sees in place of a live value while a confidential partition exists. -/
def Hw.coarse (h : Hw) (role : Role) (r : Reg) (i e live : Nat) : Nat :=
  let k := odKey r i e
  if h.confidential = false then live
  else if paceRegs.contains r ∧ (role = .o ∨ role = .t) then Table.atD h.odPace odDefault k / 10 * 10
  else if role ≠ .o then live
  else if countRegs.contains r then Table.atD h.odMs odDefault k / 4096 * 4096
  else if powerRegs.contains r then Table.atD h.odPower odDefault k / 5000 * 5000
  else if tempRegs.contains r then Table.atD h.odPower odDefault k
  else live

/-! ### Selected records (R137, R265, R282, R324, R352, R369) -/

/-- Who selects a record: the selections of clamp_index, ev_index and smp_index are kept per session. -/
def readerId : Actor → Nat
  | .session n => n
  | .requester r _ => 4096 + r
  | .firmware => 8192
  | .debug => 8193
  | .nobody => 8194

/-- The selection registers kept per session, by ring. -/
def selectRing (r : Reg) : Option Nat :=
  if r = Od.clampIndex then some 0 else if r = Od.evIndex then some 1 else if r = Od.smpIndex then some 2 else none

/-- A reader's selection. -/
def Hw.selection (h : Hw) (a : Actor) (ring : Nat) : Nat := Table.atD h.msg.logSel (fun _ => 0) (readerId a * 4 + ring)

/-- Does a tenant hold every partition that an object is tied to. -/
def Hw.tiedTo (h : Hw) (a : Actor) (r : Reg) (i : Nat) : Bool :=
  match h.tied r i with
  | some (p :: ps) => (p :: ps).all (fun q => h.tenantFor a q)
  | _ => false

/-- A clamp record as a reader sees it (R324). -/
def Hw.clampSeen (h : Hw) (a : Actor) (v : Nat) : Nat :=
  let r : Reg := ⟨v / 2 ^ 240, v / 2 ^ 220 % 256⟩
  let i := v / 2 ^ 228 % 4096
  match h.roleOf a with
  | .f => v
  | .d => if h.debugOpen || h.debugConsent ((h.tied r i).getD []) then v else 0
  | .o => if v / 2 ^ 204 % 16 = 0 then v else 0
  | .t => if h.tiedTo a r i then v else 0
  | .none => 0

/-- An error-log record as a reader sees it (R137). -/
def Hw.errSeen (h : Hw) (a : Actor) (v : Nat) : Nat :=
  let s := v / 2 ^ 244 % 16
  let own := match h.partOf s with | some p => h.tenantFor a p | none => false
  let consent := match h.partOf s with | some p => h.debugConsent [p] | none => true
  match h.roleOf a with
  | .f => v
  | .d => if h.debugOpen || consent then v else h.filterErr v
  | .o => h.filterErr v
  | .t => if own then v else v / 2 ^ 248 * 2 ^ 248 + v % 2 ^ 64 / 1000000 * 1000000
  | .none => 0

/-- A watermark notice is sampled at hand-over (R353). -/
def Hw.resample (h : Hw) (wm : Option Nat) (v : Nat) : Nat :=
  match wm with
  | some w =>
    let clear := v - v / 2 ^ 1005 % 4 * 2 ^ 1005
    clear + h.reg Od.wmCrossed w % 2 * 2 ^ 1006 + h.reg Od.wmLevel w % 2 * 2 ^ 1005
  | none => v

/-- A record of the event ring as a reader sees it (R352). -/
def Hw.eventSeen (h : Hw) (a : Actor) (slot : Nat) : Nat :=
  match Table.look h.msg.evRing slot with
  | none => 0
  | some b =>
    let (dests, wm) := Table.atD h.msg.evMeta (fun _ => ([], none)) slot
    let v := h.resample wm b.toNat
    let kind := v / 2 ^ 1016
    let part := if (v / 2 ^ 990) % 2 = 1 then some (v / 2 ^ 991 % 16) else none
    let mine := match part with
      | some p => partKinds.contains kind && h.tenantFor a p
      | none => false
    let tenantOf (r : Nat) : Bool := (bitsOf (h.reg Od.reqPartitions r)).any (fun p => h.tenantFor a p)
    let floorTime (v : Nat) : Nat :=
      if h.confidential then v - v / 2 ^ 849 % 2 ^ 64 * 2 ^ 849 + v / 2 ^ 849 % 2 ^ 64 / 1000000 * 1000000 * 2 ^ 849 else v
    match h.roleOf a with
    | .f => v
    | .d =>
      let ps := part.toList ++ dests.flatMap (fun r => bitsOf (h.reg Od.reqPartitions r))
      if h.debugOpen || h.debugConsent ps then v else 0
    | .o =>
      if unitKinds.contains kind then floorTime v
      else if kind = 4 then floorTime (v / 2 ^ 512 * 2 ^ 512 + h.filterErr (v % 2 ^ 256))
      else 0
    | .t => if mine || dests.any tenantOf then v else 0
    | .none => 0

/-- A sample record as a reader sees it (R362, R369). -/
def Hw.sampleSeen (h : Hw) (a : Actor) (v : Nat) : Nat :=
  let part := if v / 2 ^ 104 % 2 = 1 then h.partOf (v / 2 ^ 105 % 16) else none
  let noStack := decide (v / 2 ^ 104 % 2 = 0)
  let r := v / 2 ^ 143 % 4096
  match h.roleOf a with
  | .f => v
  | .d => if h.debugOpen || h.debugConsent part.toList then v else 0
  | .o => match part with
    | some p => if h.reg Od.secConfidential p = 1 ∧ h.reg Od.secConsentProfile p = 0 then 0 else v
    | none => v
  | .t => match part with
    | some p => if h.tenantFor a p then v else 0
    | none => if noStack && (bitsOf (h.reg Od.reqPartitions r)).any (fun p => h.tenantFor a p) then v else 0
  | .none => 0

/-- A journal entry as a reader sees it: its time floored to 1 ms for the operator (R285). -/
def Hw.journalSeen (h : Hw) (a : Actor) (v : Nat) : Nat :=
  if h.roleOf a = .o ∧ h.confidential = true then
    let ms := v % 2 ^ 64 * 1000 / 32768
    v / 2 ^ 64 * 2 ^ 64 + (ms * 32768 + 999) / 1000
  else v

/-- The number under a key of a table of bit vectors. -/
def Table.num {w : Nat} (t : Table (BitVec w)) (k : Nat) : Nat := ((Table.look t k).getD 0).toNat

/-- What an object holds now, as firmware reads it; the records that a selection names as the reader sees them. -/
def Hw.live (h : Hw) (a : Actor) (r : Reg) (i e : Nat) : Nat :=
  match selectRing r with
  | some ring => h.selection a ring
  | none =>
    if r = Od.clampRecord then h.clampSeen a (Table.num h.msg.clampRing (h.selection a 0 % 256))
    else if r = Od.evRecord then h.eventSeen a (h.selection a 1 % 1024)
    else if r = Od.smpRecord then h.sampleSeen a (Table.num h.msg.smpRing (h.selection a 2 % 4096))
    else if r = Od.logRecord then h.errSeen a (Table.num h.msg.errRing (h.reg Od.logIndex % 4096))
    else if r = Od.lossRecord then Table.num h.msg.lossRing (i * 4096 + h.reg Od.lossIndex i % 4096)
    else if r = Od.journalEntry then h.journalSeen a (Table.num h.sec.journal (h.reg Od.journalIndex % 64))
    else if r = Od.secWlogEntry then Table.num h.car.weightLog (i * 1024 + h.reg Od.secWlogIndex i % 1024)
    else if r = Od.leaseRemainingUs then (match h.pair.leaseUntil with | some t => (t - h.now) / 1000 | none => 0)
    else if r = Od.dictVendorId then Config.vendorId.toNat
    else h.elem r i e

/-! ### Reading one element -/

/-- Is a count withheld from a tenant or the operator (R362). -/
def Hw.countHidden (h : Hw) (a : Actor) (r : Reg) (i : Nat) : Bool :=
  let ps := if r.index = 0xC000 then h.stackTie (i / 64) else h.selParts i
  if r = Od.fixCounts ∨ r = Od.fixSnapshot ∨ r = Od.selCount ∨ r = Od.selSnapshot then
    match h.roleOf a with
    | .o => ps.any (fun p => h.inUse p && decide (h.reg Od.secConfidential p = 1 ∧ h.reg Od.secConsentProfile p = 0))
    | .t => !ps.all (fun p => h.tenantFor a p)
    | .d => !(h.debugOpen || h.debugConsent ps)
    | _ => false
  else false

/-- What the operator cannot see of channels 0–15 while a confidential partition exists (R345). -/
def Hw.mailboxHidden (h : Hw) (a : Actor) (r : Reg) (i : Nat) : Bool :=
  decide (r.index = 0xB020 ∧ r.sub ≤ 5 ∧ i < 16 ∧ h.roleOf a = .o) && h.confidential

/-- One element as an access reads it: none is UNAVAILABLE. -/
def Hw.view (h : Hw) (a : Actor) (r : Reg) (i e : Nat) : Option Nat :=
  match h.fieldAt r i with
  | none => none
  | some f =>
    if h.holdsR a f r i = true ∧ h.countHidden a r i = false ∧ h.mailboxHidden a r i = false then
      some (h.coarse (h.roleOf a) r i e (h.live a r i e))
    else if (f.cmd = true ∨ r = Od.keyInstall ∨ r = Od.wkKey) ∧ h.holdsW a f r i = true then some 0
    else none

/-- Subindex 00 of a record: the highest defined subindex; of `OD 6310/s`, how many pages are retired (R138, R311). -/
def Hw.head (h : Hw) (a : Actor) (r : Reg) (i : Nat) : Nat :=
  if r.index = 0x6310 then
    let n := Table.atD h.mem.retiredCount (fun _ => 0) i
    if h.roleOf a = .o ∧ h.confidential = true then n / 4096 * 4096 else n
  else match recOf r.index with
    | some d => d.highest
    | none => 0

end Sys2Proof.Machine
end

