-- ==== Sys2Proof/Machine/Ecc.lean ====
section
/-! DEFINITION. Commands of chapter 6: evictions, the split-write test, the patrol scrubber, lane rebuild, post-package repair
and page retirement (R122 to R138). -/

namespace Sys2Proof.Machine

/-! ### Evictions (R122, R123) -/

/-- WCB_EVICT (R123): a buffered sector that is complete, or past its hold time, or over the occupancy limit, is evicted; one
that waited for an earlier eviction of the sector goes on once that has ended. -/
def execWcbEvict (stack : StackIx) (sector : BitVec 29) (s : State) : Host.Outcome State Fault Refusal :=
  s.on (fun h =>
    let k := secKey stack (sector.toNat * 256)
    if h.waiting k ≠ [] ∧ h.evictions k = (h.waiting k).length then h.nextEvict k
    else match Table.look h.mem.wcb k with
      | some w =>
        if w.complete ∨ w.firstAt + h.reg Od.wcbHoldNs ≤ h.now ∨ h.reg Od.wcbHigh ≤ h.wcbCount stack then h.evict k else h
      | none => h)

/-- WCB_HOLD_EXPIRY (R123): wcb_hold_ns after a sector's first write it is evicted. -/
def execWcbHoldExpiry (stack : StackIx) (sector : BitVec 29) (s : State) : Host.Outcome State Fault Refusal :=
  s.on (fun h =>
    let k := secKey stack (sector.toNat * 256)
    match Table.look h.mem.wcb k with
    | some w => if w.firstAt + h.reg Od.wcbHoldNs ≤ h.now then h.evict k else h
    | none => h)

/-- RMW_MERGE (R122): an RMW_READ has brought its last column: the sector is merged line by line and its write queued. -/
def execRmwMerge (stack : StackIx) (sector : BitVec 29) (s : State) : Host.Outcome State Fault Refusal :=
  s.on (fun h =>
    let k := secKey stack (sector.toNat * 256)
    let st := stack.val
    let g := gOf st (h.coord st (secOff k)).pc
    let reading := (h.queue g ++ h.stage st).any (fun x => decide (x.kind = 2 ∧ x.sector = k)) ||
      (h.pc g).inflight.any (fun p => decide (p.2.kind = 2 ∧ p.2.sector = k))
    if reading then h else h.finishRmw k)

/-! ### The split-write test (R126) -/

/-- The coordinates of test_column. -/
def Hw.testCoord (h : Hw) (s : Nat) : Coord := h.coord s (h.reg Od.testColumn / 32 * 32)

/-- The coordinates that a column key spells. -/
def coordAt (ck : Nat) : Coord := { pc := ck / 2 ^ 26 % 64, bank := ck / 2 ^ 20 % 64, row := ck / 32 % 32768, col := ck % 32 }

/-- The test ends: every recorded column becomes a zero code word and the stack is free. -/
def Hw.endTest (h : Hw) : Hw :=
  let zero (h : Hw) (ck : Nat) : Hw := h.putLanes (ck / 2 ^ 32) (coordAt ck) (List.replicate 36 0)
  let h := h.mem.testCols.foldl zero { h with mem.testCols := [] }
  h.setReg Od.testStack 0 0xff

/-- The stack under test, if one is and it is in no partition, and test_column lies in it. -/
def Hw.underTest (h : Hw) : Option Nat :=
  let s := h.reg Od.testStack
  if s < 16 ∧ h.reg Od.stackState s = 1 ∧ h.partOf s = none ∧ h.reg Od.testColumn < h.reg Od.stackCapacity s then some s else none

/-- A test_command: 1 WRITE_SPLIT, 2 READ_RAW, 3 READ_DECODED, 4 END. -/
def Hw.testCommand (h : Hw) (a : Actor) (v : Nat) : Hw :=
  if v = 4 then h.endTest
  else match h.underTest with
    | none => h.ignore a Od.testCommand 0 Why.wrongState
    | some s =>
      let c := h.testCoord s
      match v with
      | 1 =>
        if 256 ≤ h.mem.testCols.length then h.ignore a Od.testCommand 0 Why.limit
        else
          let word := natBytes (h.reg Od.testData) 32 ++ natBytes (h.reg Od.testCheck) 4
          let h := h.putRaw s c word
          { h with mem.testCols := if h.mem.testCols.contains (colKey s c) then h.mem.testCols else h.mem.testCols ++ [colKey s c] }
      | 2 =>
        let w := h.rawCol s c
        (h.setReg Od.testData 0 (bytesNat (w.take 32))).setReg Od.testCheck 0 (bytesNat (w.drop 32))
      | _ =>
        let er := h.erasures s c
        let (d, data, ps) := rsDecode er (h.rawCol s c)
        let h := h.noteDecode 2 s c d data ps none 5
        let h := h.setReg Od.testData 0 (bytesNat data)
        let h := h.setReg Od.testResult 0 d.code
        h.setReg Od.testPositions 0 ((ps ++ er).dedup.foldl (fun m p => m + 2 ^ p) 0)

/-! ### Correctable errors and the scrubber (R125, R127, R128, R134) -/

/-- Firmware appends a row to ppr_list, once (R134). -/
def Hw.appendPpr (h : Hw) (g bank row : Nat) : Hw :=
  let e := 2 ^ 31 + g * 2 ^ 21 + bank * 2 ^ 15 + row
  if (List.range 1024).any (fun i => decide (h.elem Od.pprList 0 i = e)) then h
  else match (List.range 1024).find? (fun i => decide (h.elem Od.pprList 0 i < 2 ^ 31)) with
    | some i => h.setElem Od.pprList 0 i e
    | none => h

/-- CE_HISTORY_EXPIRY (R125): entries leave the history ecc_ce_window_h after their first time. -/
def execCeHistoryExpiry (g : PcIx) (s : State) : Host.Outcome State Fault Refusal :=
  s.on (fun h =>
    let x := h.pc g
    let old := h.reg Od.eccCeWindowH * 3600000000000
    let live := x.history.filter (fun e => decide (h.now < e.since + old))
    if live.length = x.history.length then h else h.setPc g { x with history := live })

/-- A word as the DRAM returns it, with errors by position. -/
def flipWord (w : List Byte) (flips : List (Fin 36 × Byte)) : List Byte :=
  flips.foldl (fun w f => w.set f.1 (w.getD f.1 0 ^^^ f.2)) w

/-- Rewrite a word, unless its sector counts as written since the read (R128). -/
def Hw.rewrite (h : Hw) (s off : Nat) (word : List Byte) : Bool × Hw :=
  if h.evicting (secKey s off) then (false, h) else (true, h.putRaw s (h.coord s off) word)

/-- A hard fault of a column that read UNCORRECTABLE (R131): a remap entry, and its row joins the repair list (R134). -/
def Hw.hardUe (h : Hw) (s : Nat) (c : Coord) (word : List Byte) : Hw :=
  let h := h.allocRemap s c 2 word
  if (h.slotOf s c).any (fun n => decide (h.elem Od.remapTable (gOf s c.pc) n / 2 ^ 34 % 8 = 2)) then
    h.appendPpr (gOf s c.pc) c.bank c.row
  else h

/-- The scrubber at one column (R127): what it reads (`flips`) and what it reads again after its rewrite (`again`). -/
def Hw.scrubCol (h : Hw) (s off : Nat) (flips again : List (Fin 36 × Byte)) : Hw :=
  let c := h.coord s off
  let (d, data, ps) := rsDecode (h.erasures s c) (flipWord (h.rawCol s c) flips)
  let h := h.noteDecode 2 s c d data ps none 4
  match d with
  | .corrected =>
    let (done, h) := h.rewrite s off (rsWord data)
    if !done then h
    else
      let (_, _, ps2) := rsDecode (h.erasures s c) (flipWord (h.rawCol s c) again)
      if ps2 ≠ [] ∧ ps2 = ps then h.allocRemap s c 1 (rsWord data) else h
  | .uncorrectable =>
    match (if h.holdsParity s off then (none, h) else h.degradedCol s off) with
    | (some x, h) =>
      -- a data column of a parity group is repaired from the group (R135)
      let (done, h) := h.rewrite s off (rsWord x)
      if done && (rsDecode (h.erasures s c) (flipWord (h.rawCol s c) again)).1 == .uncorrectable then h.hardUe s c (rsWord x) else h
    | (none, h) =>
      -- the line's two columns take a poison mark
      let first := off / 64 * 64
      let pair (h : Hw) (o : Nat) : Hw :=
        let c := h.coord s o
        let x := if o = off then data else (rsDecode (h.erasures s c) (h.rawCol s c)).2.1
        (h.rewrite s o (rsPoisoned x)).2
      let (done, h) := h.rewrite s off (rsPoisoned data)
      if !done then h
      else
        let h := [first, first + 32].foldl pair h
        let (d2, data2, _) := rsDecode (h.erasures s c) (flipWord (h.rawCol s c) again)
        if d2 = .poisoned then h else h.hardUe s c (rsPoisoned data2)
  | _ => h

/-- Is a column one the scrubber reads: its pseudo-channel READY, no retired page, no recorded test column. -/
def Hw.scrubs (h : Hw) (s off : Nat) : Bool :=
  let c := h.coord s off
  decide (h.reg Od.pcState (gOf s c.pc) = 4) && !h.retired (dpaOf s (h.visible s off)) && !h.testCol s c

/-- SCRUB_READ (R127): the patrol scrubber reads the column at scrub_position and acts by outcome; at the end of the stack a
pass is complete, and the next begins scrub_period_h after this one began. -/
def execScrubRead (stack : StackIx) (flips : List (Fin 36 × Byte)) (again : List (Fin 36 × Byte)) (s : State) :
    Host.Outcome State Fault Refusal :=
  s.on (fun h =>
    let st := stack.val
    let off := h.reg Od.scrubPosition st
    if h.reg Od.stackState st ≠ 1 ∨ (off = 0 ∧ !h.due Tm.scrubPass st) then h
    else
      let h := if off = 0 then h.setTimer Tm.scrubPass st (h.now + h.reg Od.scrubPeriodH * 3600000000000) else h
      let h := if h.scrubs st off then h.scrubCol st off flips again else h
      if h.reg Od.stackCapacity st ≤ off + 32 then (h.setReg Od.scrubPosition st 0).addReg Od.scrubPasses st
      else h.setReg Od.scrubPosition st (off + 32))

/-! ### Rebuild of a spared lane (R129) -/

/-- The physical offset of byte `w` of a pseudo-channel's share. -/
def Hw.shareOff (h : Hw) (g w : Nat) : Nat :=
  let gb := h.grainLog (h.partOf (g / 64))
  w / 2 ^ gb * 2 ^ (gb + 6) + g % 64 * 2 ^ gb + w % 2 ^ gb

/-- Rewrite one column of a rebuild through the spare lane. -/
def Hw.rebuildCol (h : Hw) (s off : Nat) : Hw :=
  let c := h.coord s off
  let (d, data, ps) := rsDecode (h.erasures s c) (h.rawCol s c)
  let h := h.noteDecode 2 s c d data ps none 4
  match d with
  | .uncorrectable => h
  | .poisoned => (h.rewrite s off (rsPoisoned data)).2
  | _ => (h.rewrite s off (rsWord data)).2

/-- REBUILD_ROW (R129): the sweep reads the next row in physical order and rewrites it; at the end the erasure clears. -/
def execRebuildRow (g : PcIx) (s : State) : Host.Outcome State Fault Refusal :=
  s.on (fun h =>
    let g := g.val
    let st := g / 64
    match (h.pc g).rebuildRow with
    | none => h
    | some n =>
      let rows := h.reg Od.stackCapacity st / 65536
      if rows ≤ n then
        let h := h.setPc g { h.pc g with rebuildRow := none, sparing := [] }
        let h := h.setReg Od.rebuildPointer g (2 ^ 64 - 1)
        h.logErr { kind := 8, stack := st, pc := g % 64, source := 4 }
      else
        let h := (List.range 32).foldl (fun h i => h.rebuildCol st (h.shareOff g (n * 1024 + i * 32))) h
        let h := h.setPc g { h.pc g with rebuildRow := some (n + 1) }
        h.setReg Od.rebuildPointer g (h.shareOff g ((n + 1) * 1024)))

/-! ### Post-package repair (R133, R134) -/

/-- The valid remap entries of a row: their slots. -/
def Hw.rowEntries (h : Hw) (g bank row : Nat) : List Nat :=
  (List.range 16).filter (fun n =>
    let e := h.elem Od.remapTable g n
    decide (2 ^ 63 ≤ e ∧ e / 2 ^ 57 % 64 = bank ∧ e / 2 ^ 42 % 32768 = row))

/-- Does firmware repair a row at run time (R133). -/
def Hw.wantsSppr (h : Hw) (g bank row : Nat) : Bool :=
  let es := h.rowEntries g bank row
  let quick := match Table.look h.sl.descriptors (g / 64) with
    | some d => decide (d.tSppr ≤ 600000)
    | none => false
  let hard := es.any (fun n => decide (h.elem Od.remapTable g n / 2 ^ 34 % 8 ≠ 0))
  quick && (decide (2 ≤ es.length) || (decide (12 ≤ h.reg Od.remapUsed g) && hard))

/-- Set ppr_state of remap entries. -/
def Hw.setPprState (h : Hw) (g : Nat) (es : List Nat) (v : Nat) : Hw :=
  es.foldl (fun h n =>
    let e := h.elem Od.remapTable g n
    h.setElem Od.remapTable g n (e - e / 2 ^ 32 % 4 * 2 ^ 32 + v * 2 ^ 32)) h

/-- SPPR (R133): firmware queues the repair of a row that meets the conditions and asks for a pause; in the pause the row is
staged through its remap slots and repaired; then it is written back and its entries are freed, or, where the repair
failed (`ok` false), they stay valid and the record says so. -/
def execSppr (g : PcIx) (bank : Fin 64) (row : BitVec 15) (ok : Bool) (s : State) : Host.Outcome State Fault Refusal :=
  s.on (fun h =>
    let g := g.val
    let st := g / 64
    let b := bank.val
    let r := row.toNat
    let es := h.rowEntries g b r
    let queued := es.filter (fun n => decide (h.elem Od.remapTable g n / 2 ^ 32 % 4 = 1))
    if queued = [] then
      if h.wantsSppr g b r ∧ h.reg Od.pcState g = 4 then (h.setPprState g es 1).askCal g else h
    else if (h.pc g).pauseUntil = none then h
    else
      let cols := (List.range 32).map (fun c => ({ pc := g % 64, bank := b, row := r, col := c } : Coord))
      let words := cols.map (fun c => (c, h.rawCol st c))
      if ok then
        let h := es.foldl (fun h n => h.setElem Od.remapTable g n 0) h
        let h := h.subReg Od.remapUsed g es.length
        let h := words.foldl (fun h w => h.putLanes st w.1 w.2) h
        let h := (h.addReg Od.spprCount g).appendPpr g b r
        h.logErr { kind := 9, stack := st, pc := g % 64, bank := b, row := r, source := 5 }
      else
        let h := h.setPprState g es 0
        h.logErr { kind := 9, stack := st, pc := g % 64, bank := b, row := r, source := 5, count := 0xff })

/-- HPPR (R134): after dictionary load and before port release, the oldest row on a pseudo-channel's repair list is repaired
and refilled with zero code words; without a repair resource the row stays under R131 to R133. -/
def execHppr (g : PcIx) (ok : Bool) (s : State) : Host.Outcome State Fault Refusal :=
  s.on (fun h =>
    let g := g.val
    let st := g / 64
    match Table.look h.mem.ppr g with
    | none => h
    | some [] => h
    | some (i :: rest) =>
      let h := { h with mem.ppr := Table.setD h.mem.ppr (fun _ => []) g rest }
      let e := h.elem Od.pprList 0 i.toNat
      let b := e / 2 ^ 15 % 64
      let r := e % 2 ^ 15
      if ok then
        let zero (h : Hw) (c : Nat) : Hw := h.putLanes st { pc := g % 64, bank := b, row := r, col := c } (List.replicate 36 0)
        let h := (List.range 32).foldl zero h
        let h := h.setElem Od.pprList 0 i.toNat 0
        h.logErr { kind := 0x0a, stack := st, pc := g % 64, bank := b, row := r, source := 5 }
      else h.logErr { kind := 0x0b, stack := st, pc := g % 64, bank := b, row := r, source := 5 })

/-! ### Retired pages (R138) -/

/-- Retire the page of a DPA; a 257th of a stack is ignored and logged. -/
def Hw.retire (h : Hw) (a : Actor) (dpa : Nat) : Hw :=
  let page := dpa % 2 ^ 41 / 4096 * 4096
  let s := dpaStack page
  let n := Table.atD h.mem.retiredCount (fun _ => 0) s
  if h.retired page then h
  else if n < 256 then
    let h := h.setElem Od.retiredPages s n page
    let h := { h with mem.retiredCount := Table.put h.mem.retiredCount s (n + 1) }
    h.logErr { kind := 0x0f, stack := s, dpa := page, source := 5 }
  else (h.ignore a Od.retirePage 0 Why.limit).logErr { kind := 0x0f, stack := s, dpa := page, source := 5, count := 0xff }

/-- retire_clear: the retired list of a stack that is in no partition is cleared. -/
def Hw.clearRetired (h : Hw) (a : Actor) (s : Nat) : Hw :=
  if 16 ≤ s ∨ (h.partOf s).isSome then h.ignore a Od.retireClear 0 Why.target
  else
    let h := (List.range 256).foldl (fun h i => h.setElem Od.retiredPages s i 0) h
    { h with mem.retiredCount := Table.del h.mem.retiredCount s }

end Sys2Proof.Machine
end

