-- ==== Sys2Proof/Machine/DictWrite.lean ====
section
/-! DEFINITION. The dictionary engine, writes: checks and clamps (R312, R323), what each object's own rule ignores (R325),
commands, and what a stored value sets off. -/

namespace Sys2Proof.Machine

/-! ### Ranges (R323) -/

/-- A value of `w` bits read as signed. -/
def signedOf (w v : Nat) : Int := if v % 2 ^ w < 2 ^ (w - 1) then ((v % 2 ^ w : Nat) : Int) else ((v % 2 ^ w : Nat) : Int) - (2 ^ w : Nat)

/-- The descriptor's value of a timing field at the rate the slice runs (R76, R376); the table's typical value while no
descriptor has been read. -/
def bestRate (d : StackDescriptor) : Option (Nat × List Nat) :=
  (d.rates.map (fun (x : Fin 4 × List Nat) => (x.1.val, x.2))).foldl (fun b x =>
    match b with
    | some y => if y.1 < x.1 then some x else b
    | none => some x) none

/-- The value of `OD 4000/s` subindex `sub` that the stack descriptor gives. -/
def Hw.descTiming (h : Hw) (s sub : Nat) : Nat :=
  match (Table.look h.sl.descriptors s).bind bestRate with
  | some x => x.2.getD (sub - 1) 0
  | none => odDefault (odKey ⟨0x4000, sub⟩ s 0)

/-- The range within which thresholds of one group rise strictly (R295): the static range cut at 1 °C inside the
neighbours. -/
def Hw.thermRange (h : Hw) (f : FieldDesc) (r : Reg) : Option Int × Option Int :=
  let group : List Nat := if r.sub ≤ 6 then [1, 2, 3, 4, 5, 6] else [10, 11, 12, 13]
  let at_ (s : Nat) : Int := h.sreg ⟨0xa000, s⟩
  let lo := match f.lo with
    | some l => if group.contains (r.sub - 1) then some (max l (at_ (r.sub - 1) + 1)) else some l
    | none => none
  let hi := match f.hi with
    | some u => if group.contains (r.sub + 1) then some (min u (at_ (r.sub + 1) - 1)) else some u
    | none => none
  (lo, hi)

/-- The range of a field at this moment. -/
def Hw.rangeOf (h : Hw) (f : FieldDesc) (r : Reg) (i : Nat) : Option Int × Option Int :=
  if r = Od.schedWrLow then (some 0, some ((h.reg Od.schedWrHigh : Int) - 4))
  else if r = Od.wcbLow then (some 0, some ((h.reg Od.wcbHigh : Int) - 256))
  else if r = Od.thermColdExit then (some (h.sreg Od.thermColdHold + 1), some 25)
  else if r.index = 0xa000 ∧ (r.sub ≤ 6 ∨ (10 ≤ r.sub ∧ r.sub ≤ 13)) then h.thermRange f r
  else if r = Od.classQuota ∧ 4 ≤ i then (some 0, some 0)
  else if r = Od.redOpenChunks then (some 1, some ((767 * slotsPerPage (h.reg Od.redFmtIn i) : Nat) : Int))
  else if r.index = 0x4000 then (some (h.descTiming i r.sub : Int), some (4 * (h.descTiming i r.sub : Int)))
  else if r = Od.regBytes then (f.lo, f.hi)
  else (f.lo, f.hi)

/-- A number brought to the nearest bound. -/
def nearest (lo hi : Option Int) (v : Int) : Int :=
  let v := match hi with
    | some u => min v u
    | none => v
  match lo with
  | some l => max v l
  | none => v

/-- Objects that a write of 0 clears and a write of 1 leaves. -/
def clearOnly (r : Reg) : Bool :=
  ([Od.clampOverflow, Od.logOverflow, Od.lossOverflow, Od.evOverflow, Od.smpOverflow, Od.timeOffsetFlag] : List Reg).contains r

/-- Bytes of a frame that name no class become FFh (R110). -/
def frameFixed (v : Nat) : Nat := (List.range 64).foldl (fun a k => let b := v / 2 ^ (8 * k) % 256; a + (if b < 8 then b else 0xff) * 2 ^ (8 * k)) 0

/-- The longest cyclic run of slots reserved to classes other than C0 (R110). -/
def frameGap (v : Nat) : Nat :=
  let other (k : Nat) : Bool := let b := v / 2 ^ (8 * (k % 64)) % 256; decide (b ≠ 0 ∧ b ≠ 0xff)
  min 64 ((List.range 128).foldl (fun (a : Nat × Nat) k => if other k then (a.1 + 1, max a.2 (a.1 + 1)) else (0, a.2)) (0, 0)).2

/-- What one object stores in place of a value where its own rule says more than a range. -/
def Hw.ownCheck (h : Hw) (r : Reg) (i v : Nat) : Nat :=
  if r = Od.regBytes ∧ v ≠ 0 ∧ v < 256 then 256
  else if r = Od.frameMap then frameFixed v
  else if r = Od.routeKind ∧ 16 ≤ i ∧ v = 3 then 0
  else if r = Od.smpSeed ∧ v = 0 then 1
  else if r = Od.selInstance then selInRange h.stackCount (h.reg Od.selSource i) v
  else v

/-- Reserved bits that R10 discards: stored as zero without a clamp. -/
def silentMask (r : Reg) (v : Nat) : Nat :=
  if r = Od.redSubscribers then v &&& 0x8fff
  else if r = Od.mbEndA ∨ r = Od.mbEndB then v &&& 0xcfff
  else if r = Od.mbMaskA ∨ r = Od.mbMaskB then v &&& 0x0fff
  else v

/-- The value stored for a written one, and whether that is a clamp (R312, R323); none: a reserved code. -/
def Hw.check (h : Hw) (f : FieldDesc) (r : Reg) (i v : Nat) : Option (Nat × Bool) :=
  let w := f.ty.width
  let v := silentMask r (v % 2 ^ w)
  match f.ty with
  | .bool => some (if v = 0 then 0 else 1, decide (1 < v))
  | .enum8 codes => if codes.contains v then some (h.ownCheck r i v, decide (h.ownCheck r i v ≠ v)) else none
  | .bits _ m => some (v &&& m, decide (v &&& m ≠ v))
  | .octets _ => some (h.ownCheck r i v, decide (h.ownCheck r i v ≠ v))
  | .uint _ =>
    match f.indexMask with
    | some m => some (v &&& m, false)
    | none =>
      let (lo, hi) := h.rangeOf f r i
      let x := (nearest lo hi (v : Int)).toNat / f.align * f.align
      let x := h.ownCheck r i x
      some (x, decide (x ≠ v))
  | .sint _ =>
    let (lo, hi) := h.rangeOf f r i
    let x := (nearest lo hi (signedOf w v) % ((2 ^ w : Nat) : Int)).toNat
    some (x, decide (x ≠ v))

/-- A written value as a clamp record shows it: its low 64 bits, zero- or sign-extended (R324). -/
def shown (f : FieldDesc) (v : Nat) : Nat :=
  match f.ty with
  | .sint w => (signedOf w v % ((2 ^ 64 : Nat) : Int)).toNat
  | _ => v % 2 ^ 64

/-! ### Writes that an object's rule ignores (R325) -/

/-- Does a tenant's counter attribution rule refuse the source and instance (R361): the counts of C0h–FFh belong to their
partition. -/
def Hw.selForeign (h : Hw) (n source inst : Nat) : Bool :=
  decide (0xc0 ≤ n ∧ source ≠ 0) && decide (h.attribution source (selInRange h.stackCount source inst) ≠ [(n - 0xc0) / 4])

/-- The reason for which a write that is no command is ignored, if any. -/
def Hw.blocks (h : Hw) (a : Actor) (r : Reg) (i v : Nat) (beside : Option Nat) : Option Nat :=
  let when_ (b : Bool) (why : Nat) : Option Nat := if b then some why else none
  let tenant := decide (h.roleOf a = .t)
  if r = Od.partGrow then when_ (h.reg Od.partState i ≠ 3) Why.wrongState
  else if r.index = 0x2000 ∧ 4 ≤ r.sub ∧ r.sub ≤ 8 then when_ (h.inUse i) Why.wrongState
  else if r = Od.redPartition then
    if h.reg Od.redState i ≠ 0 then some Why.wrongState else when_ (tenant && !(decide (v < 16) && h.tenantFor a v)) Why.target
  else if r.index = 0x8000 ∧ 3 ≤ r.sub ∧ r.sub ≤ 0x12 then when_ (h.reg Od.redState i ≠ 0) Why.wrongState
  else if r = Od.progBind then when_ (h.reg Od.progState i ≠ 0) Why.wrongState
  else if r = Od.progSteps then when_ (h.reg Od.progState i ≠ 1) Why.wrongState
  else if r = Od.secConfidential then when_ (h.reg Od.partState i ≠ 1) Why.wrongState
  else if r = Od.wkPartition then
    if h.reg Od.wkPartition i ≠ 0xff then some Why.wrongState else when_ (tenant && !(decide (v < 16) && h.tenantFor a v)) Why.target
  else if r = Od.pairPeerId then when_ (h.reg Od.pairState ≠ 0 ∧ h.reg Od.pairState ≠ 2) Why.wrongState
  else if r = Od.idCert then when_ (h.reg Od.lcState ≠ 0) Why.wrongState
  else if r.index = 0xb000 ∧ 1 ≤ r.sub ∧ r.sub ≤ 4 then when_ (h.reg Od.mbBindingLock = 1) Why.wrongState
  else if r = Od.mbBindingLock then when_ (h.reg Od.mbBindingLock = 1 ∧ v % 256 = 0) Why.wrongState
  else if r = Od.testStack then
    when_ (v % 256 ≠ 0xff ∧ (16 ≤ v % 256 ∨ h.reg Od.stackState (v % 256) ≠ 1 ∨ (h.partOf (v % 256)).isSome = true)) Why.target
  else if r = Od.selSource then
    if selLast < v % 2 ^ 16 then some Why.reservedValue
    else when_ (h.selForeign i (v % 2 ^ 16) (beside.getD (h.reg Od.selInstance i))) Why.target
  else if r = Od.selInstance then when_ (h.selForeign i (h.reg Od.selSource i) (v % 2 ^ 16)) Why.target
  else if r = Od.retirePage then
    when_ (tenant && !(match h.partOf (dpaStack v) with | some p => h.tenantFor a p && h.tenantReach a ⟨0x2000, 1⟩ p true | none => false)) Why.target
  else none

/-! ### Commands -/

/-- The rows of ppr_list, by pseudo-channel: their places in the list (R134). -/
def Hw.repairLists (h : Hw) : Table (List (BitVec 32)) :=
  (List.range 1024).foldl (fun (t : Table (List (BitVec 32))) i =>
    let e := h.elem Od.pprList 0 i
    let g := e / 2 ^ 21 % 1024
    if 2 ^ 31 ≤ e ∧ h.reg Od.pcState g = 4 then
      Table.put t g (Table.atD t (fun _ => []) g ++ [BitVec.ofNat 32 i])
    else t) []

/-- LOAD_DONE in LOAD: RUN; after a cold start hard repair of ppr_list begins (R134, R330, R375). -/
def Hw.loadDone (h : Hw) : Hw :=
  let h := h.setReg Od.dictState 0 1
  if h.boot.cold ∧ !h.boot.portsReleased then { h with mem.ppr := h.repairLists }.setReg Od.bootStage 0 4 else h

/-- A write of a command object with a code it lists. -/
def Hw.command (h : Hw) (a : Actor) (r : Reg) (i v : Nat) : Hw :=
  if r = Od.dictCommand then
    (if h.reg Od.dictState = 0 then h.loadDone else h.ignore a r i Why.wrongState)
  else if r = Od.lcCommand then h.lcTransition a v
  else if r = Od.tamperAck then h.tamperAck
  else if r = Od.wkCommand then h.destroyWeight i
  else if r = Od.partCommand then
    match v with
    | 1 => h.createPart a i
    | 2 => h.growPart a i
    | _ => h.releasePart a i
  else if r = Od.cohLostAccept then h.acceptAll i
  else if r = Od.portCommand then h.resetPort a i
  else if r = Od.testCommand then h.testCommand a v
  else if r = Od.engCommand then (if v = 1 then h.abortRunning i else h.abortAll i)
  else if r = Od.progCommand then
    match v with
    | 1 => h.progBegin a i
    | 2 => h.progCommit a i
    | _ => h.progDelete a i
  else if r = Od.redCommand then
    match v with
    | 1 => h.openSession a i
    | 2 => h.abortCommand a i
    | 3 => h.closeSession a i
    | 4 => h.excludeCommand a i
    | _ => h.rearmCommand a i
  else if r = Od.pairCommand then
    match v with
    | 1 => h.form a
    | 2 => h.rejoin a
    | _ => h.relinquish a
  else if r = Od.routeAck then h.setReg Od.routePending i 0
  else if r = Od.wmCommand then (if v = 1 then h.armWm i else (h.setReg Od.wmCount i 0).setReg Od.wmCrossed i 0)
  else if r = Od.fixCommand then
    (if h.roleOf a = .o ∧ (h.partOf (i / 64)).isSome = true then h.ignore a r i Why.target else h.fixClear i)
  else if r = Od.selCommand then h.selClear i
  else if r = Od.cntCommand then h.countCommand a v
  else h

/-- Commands that firmware alone carries out: partition and session commands (R389). -/
def firmwareCommand (r : Reg) : Bool := decide (r = Od.partCommand ∨ r = Od.redCommand)

/-- A command, unless both steward cores are halted: then partition and session commands wait for one to resume, but a
CREATE is ignored (R389). -/
def Hw.runCommand (h : Hw) (a : Actor) (r : Reg) (i v : Nat) : Hw :=
  if firmwareCommand r ∧ h.reg Od.dbgHalted % 4 = 3 ∧ ¬ (r = Od.partCommand ∧ v = 1) then
    { h with boot.stalled := h.boot.stalled ++ [(a, odKey r i 0, v)] }
  else h.command a r i v

/-- A core runs again: the commands that waited are carried out. -/
def Hw.runStalled (h : Hw) : Hw :=
  if h.reg Od.dbgHalted % 4 = 3 then h
  else h.boot.stalled.foldl (fun h c => h.command c.1 (keyReg c.2.1) (keyInst c.2.1) c.2.2) { h with boot.stalled := [] }

/-! ### Storing -/

/-- A write of service_mode (R112): START_UP or TEST to NORMAL, NORMAL to TEST. -/
def Hw.writeServiceMode (h : Hw) (a : Actor) (v : Nat) : Hw :=
  match h.reg Od.serviceMode, v with
  | 1, 0 => h.setMode 0
  | 2, 0 => h.setMode 0
  | 0, 2 => h.setMode 2
  | _, _ => h.ignore a Od.serviceMode 0 Why.wrongState

/-- What a tenant session's write of a requester's rights leaves: the bits of its own partitions (R58). -/
def Hw.ownBits (h : Hw) (a : Actor) (old new_ : Nat) : Nat :=
  if h.roleOf a = .t then
    let own := (List.range 16).foldl (fun m p => if h.tenantFor a p then m + 2 ^ p else m) 0
    (new_ &&& own) ||| (old - (old &&& own))
  else new_

/-- The writes that do more than store. -/
def Hw.store (h : Hw) (a : Actor) (r : Reg) (i e v : Nat) : Hw :=
  match selectRing r with
  | some ring => { h with msg.logSel := Table.setD h.msg.logSel (fun _ => 0) (readerId a * 4 + ring) v }
  | none =>
    if r = Od.leaseGrant then h.leaseGrant a v
    else if r = Od.pairEpoch then h.writePairEpoch v
    else if r = Od.wkKey then h.writeWeightKey a i (BitVec.ofNat 256 v)
    else if r = Od.keyInstall then h.installKey a i (BitVec.ofNat 512 v)
    else if r = Od.secConsentDebug then (h.writeConsent i v).runStalled
    else if r = Od.reqState then h.writeReqState a i v
    else if r = Od.serviceMode then h.writeServiceMode a v
    else if r = Od.retirePage then h.retire a v
    else if r = Od.retireClear then h.clearRetired a v
    else if r = Od.progStep then h.progStepWrite a i (BitVec.ofNat 128 v)
    else if r = Od.smpSeed then h.loadSeed v
    else if r = Od.testStack then (if v = h.reg Od.testStack then h else h.endTest.setReg r i v)
    else if r = Od.frameMap then (h.setReg r i v).setReg Od.frameLongestC0Gap i (frameGap v)
    else if r = Od.thermLevelFloor then (h.setReg r i v).noteWants
    else if r = Od.selSource ∨ r = Od.selInstance then (h.setReg r i v).setReg Od.selCount i 0
    else if r = Od.reqPartitions ∨ r = Od.reqWrite ∨ r = Od.reqSecure then h.setReg r i (h.ownBits a (h.reg r i) v)
    else if r = Od.secConfidential then
      let was := h.confidential
      let h := h.setReg r i v
      if h.confidential ∧ was = false then h.beginCoarse else h
    else if clearOnly r then h.setReg r i (if v = 0 then 0 else h.reg r i)
    else h.setElem r i e v

/-- Fields whose range refers to a field that has just moved (R323). -/
def dependents (r : Reg) : List Reg :=
  if r = Od.schedWrHigh then [Od.schedWrLow]
  else if r = Od.wcbHigh then [Od.wcbLow]
  else if r = Od.thermColdHold then [Od.thermColdExit]
  else if r = Od.redFmtIn then [Od.redOpenChunks]
  else if r = Od.selSource then [Od.selInstance]
  else []

/-- Bring a dependent field back into its range, with a clamp record of its own. -/
def Hw.reclamp (h : Hw) (a : Actor) (d : Reg) (i : Nat) : Bool × Hw :=
  match fieldOf d with
  | some f => match h.check f d i (h.reg d i) with
    | some (x, true) => (true, (h.setReg d i x).logClamp a d i 0 (shown f (h.reg d i)) (shown f x))
    | _ => (false, h)
  | none => (false, h)

/-- Objects whose write acts rather than stores: what is passed on is the value written. -/
def actsOn (r : Reg) : Bool := ([Od.retirePage, Od.retireClear, Od.progStep, Od.reqState] : List Reg).contains r

/-- One element is written by an actor that holds the right: whether it clamped, and what it leaves. -/
def Hw.writeOne (h : Hw) (a : Actor) (r : Reg) (i e v : Nat) (beside : Option Nat := none) : Bool × Hw :=
  match h.fieldAt r i with
  | none => (false, h)
  | some f =>
    if h.remoteCopy r.index i then (false, h)
    else
      let total := h.reg Od.ignTotal
      let v := v % 2 ^ f.ty.width
      let (clamped, h1) : Bool × Hw :=
        match h.blocks a r i v beside with
        | some why => (false, h.ignore a r i why)
        | none => match h.check f r i v with
          | none => (false, h.ignore a r i Why.reservedValue)
          | some (x, c) =>
            if f.cmd then (false, h.runCommand a r i v)
            else
              let h := h.store a r i e x
              let h := if c then h.logClamp a r i e (shown f v) (shown f x) else h
              (dependents r).foldl (fun (b : Bool × Hw) d => let (c, h) := b.2.reclamp a d i; (b.1 || c, h)) (c, h)
      if h1.reg Od.ignTotal = total then
        let now_ := if f.cmd || actsOn r then v else h1.elem r i e
        (clamped, (h1.mirrorDict (odKey r i e) now_).passOn (odKey r i e) now_)
      else (clamped, h1)

/-- Merge digests written into op_keys (R271). -/
def Hw.keysWith (h : Hw) (first : Nat) (vs : List Nat) : List Nat :=
  (List.range 4).map (fun k => if first ≤ k ∧ k < first + vs.length then vs.getD (k - first) 0 else h.elem Od.opKeys 0 k)

/-- The elements of one item, in order. A write of op_keys that leaves no operator key is ignored whole (R271). -/
def Hw.writeItem (h : Hw) (a : Actor) (r : Reg) (i first : Nat) (vs : List Nat) (beside : Option Nat := none) : Bool × Hw :=
  if r = Od.opKeys then
    let ks := h.keysWith first vs
    if ks.all (fun k => decide (k % 2 ^ 384 = 0)) then (false, h.ignore a r i Why.reservedValue)
    else
      let out := (vs.zipIdx).foldl (fun (b : Bool × Hw) x => let (c, h) := b.2.writeOne a r i (first + x.2) x.1; (b.1 || c, h)) (false, h)
      (out.1, out.2.setReg Od.opKeysUsed 0 ((List.range 4).filter (fun k => decide (out.2.elem Od.opKeys 0 k ≠ 0))).length)
  else
    (vs.zipIdx).foldl (fun (b : Bool × Hw) x => let (c, h) := b.2.writeOne a r i (first + x.2) x.1 beside; (b.1 || c, h)) (false, h)

/-- A write by an actor, where it holds the right; a refused one has no effect. -/
def Hw.dictWrite (h : Hw) (a : Actor) (r : Reg) (i v : Nat) (e : Nat := 0) : Hw :=
  if h.mayWrite a r i v then (h.writeItem a r i e [v]).2 else h

end Sys2Proof.Machine
end

