-- ==== Sys2Proof/Machine/Adp.lean ====
section
/-! DEFINITION. The dictionary protocol: ADP messages (R316 to R322), subscriptions, the window opcode ODW (R326, R327), and
the rows that are writes of one object. -/

namespace Sys2Proof.Machine

/-! ### Items (R318) -/

/-- The register an item names, and its instance (bits 15..12 reserved). -/
def itemReg (it : Item) : Reg := ⟨it.index.toNat, it.sub.toNat⟩
def itemInst (it : Item) : Nat := it.inst.toNat % 4096

/-- The key under which a response repeats an item's address. -/
def itemKey (it : Item) : Nat := odKey (itemReg it) (itemInst it) it.first.toNat

/-- Is a field one OCTETS object, addressed by byte (R312). -/
def FieldDesc.whole (f : FieldDesc) : Bool := match f.ty with
  | .octets _ => decide (f.elems = 0)
  | _ => false

/-- The elements of a defined object and the bytes of each (R312); none: the configuration does not define it. -/
def Hw.shape (h : Hw) (r : Reg) (i : Nat) : Option (Nat × Nat) :=
  match h.fieldAt r i with
  | some f => some (if f.whole then (f.bytes, 1) else (f.count, f.bytes))
  | none => if h.headAt r i then some (1, if r.index = 0x6310 then 2 else 1) else none

/-- How many elements an access from `first` covers, if it stays within the object; 0 asks for all to the end. -/
def spanOf (total first count : Nat) : Option Nat :=
  if first < total ∧ first + count ≤ total then some (if count = 0 then total - first else count) else none

/-- The elements and their size that an access covers: none is MALFORMED. -/
def Hw.covers (h : Hw) (r : Reg) (i first count : Nat) : Option (Nat × Nat) :=
  (h.shape r i).bind (fun s => (spanOf s.1 first count).map (fun n => (n, s.2)))

/-- Is an access a whole OCTETS object, where it names one. -/
def Hw.wholeOk (h : Hw) (r : Reg) (i n : Nat) : Bool := match h.fieldAt r i with
  | some f => !f.whole || decide (n = f.bytes)
  | none => true

/-- Is a read item well-formed, and how many bytes it reads. -/
def Hw.readSize (h : Hw) (it : Item) : Option Nat :=
  if it.value ≠ [] then none else (h.covers (itemReg it) (itemInst it) it.first.toNat it.count.toNat).map (fun c => c.1 * c.2)

/-- Is a write well-formed: value of the size of the elements, and a whole OCTETS object. -/
def Hw.writeOk (h : Hw) (r : Reg) (i first count len : Nat) : Bool :=
  match h.covers r i first count with
  | some (n, u) => decide (len = n * u) && h.wholeOk r i n
  | none => false

/-- The element values that the bytes of a write spell. -/
def Hw.elemsIn (h : Hw) (r : Reg) (i : Nat) (value : List Byte) : List Nat :=
  match h.fieldAt r i with
  | some f =>
    if f.whole then [bytesNat value]
    else (List.range (value.length / max 1 f.bytes)).map (fun k => bytesNat ((value.drop (k * f.bytes)).take f.bytes))
  | none => [bytesNat value]

/-! ### Reading -/

/-- The bytes of `n` elements from `first` as an actor reads them: none is UNAVAILABLE. -/
def Hw.readLocal (h : Hw) (a : Actor) (r : Reg) (i first n : Nat) : Option (List Byte) :=
  match h.fieldAt r i with
  | some f =>
    if f.whole then (h.view a r i 0).map (fun v => ((natBytes v f.bytes).drop first).take n)
    else
      let vs := (List.range n).map (fun k => h.view a r i (first + k))
      if vs.all (fun v => v.isSome) then some (vs.flatMap (fun v => natBytes (v.getD 0) f.bytes)) else none
  | none => if h.headAt r i then some (natBytes (h.head a r i) (if r.index = 0x6310 then 2 else 1)) else none

/-- The same for any object of the unit: what the secondary's copies hold is not this hub's state, so they read free
values (R328, log entry 1). -/
def Hw.readObject (h : Hw) (a : Actor) (r : Reg) (i first n : Nat) : Option (List Byte) × Hw :=
  if h.remoteCopy r.index i then
    match h.fieldAt r i with
    | some f =>
      if h.holdsR a f r i then
        let len := n * (if f.whole then 1 else f.bytes)
        let (v, h) := h.draw (8 * len)
        (some (bytesOf v len), h)
      else (none, h)
    | none => (h.readLocal a r i first n, h)
  else (h.readLocal a r i first n, h)

/-- What stands between an item and its object while a cascade is not JOINED (R328): a fenced secondary answers only for
itself, and the secondary's copies cannot be reached. -/
def Hw.itemAway (h : Hw) (r : Reg) (i : Nat) : Option Nat :=
  if h.reg Od.cascadeRole = 2 ∧ h.isCascade = true ∧ h.reg Od.cascadeState ≠ 3 ∧ 0x1000 ≤ r.index ∧ r.index ≠ 0x9000 then some St.fenced
  else if h.remoteCopy r.index i = true ∧ h.reg Od.cascadeState ≠ 3 then some St.aborted
  else none

/-! ### Messages (R316, R319) -/

/-- A number rounded up to whole words of 4 B. -/
def up4 (n : Nat) : Nat := (n + 3) / 4 * 4

/-- Is a message served here: the stewards run and its session is open; a unit whose boot failed answers reads of area 0
outside sessions (R374). -/
def Hw.adpServed (h : Hw) (s : Option Nat) (items : List Item) (reads : Bool) : Bool :=
  if h.boot.stewardsRun then (match s with
    | some n => (h.session n).isSome
    | none => true)
  else decide (h.reg Od.bootStage = 0xff) && reads && s.isNone && items.all (fun it => decide (it.index.toNat < 0x1000))

/-- A secondary of a JOINED cascade passes every message on to the master (R246, R328). -/
def Hw.adpForwards (h : Hw) : Bool := h.isCascade && decide (h.reg Od.cascadeRole = 2 ∧ h.reg Od.cascadeState = 3)

/-- The flit that carries a message on. -/
def Hw.adpPass (h : Hw) (op reqId : Nat) (items : List Item) : Hw :=
  h.sendSpan 0 Fk.control 4 (natBytes op 1 ++ natBytes reqId 2 ++ items.flatMap (fun it => natBytes (itemKey it) 8 ++ it.value))

/-- A response: one that refuses, or that withholds an item, leaves 500 µs after the request (R286, R319). -/
def Hw.adpReply (h : Hw) (s : Option Nat) (op status reqId : Nat) (items : List (Nat × Nat × List Byte)) : Hw :=
  let m : MsMsg := { session := s, code := 0x80 + op, status := status, reqId := reqId, items := items }
  if status = St.denied ∨ items.any (fun x => x.2.1 == St.unavailable) then
    { h with msg.msDelayed := h.msg.msDelayed ++ [(h.now + 500000, m)] }
  else h.sendMs m

/-- A message whose items break a rule of R318: nothing is applied. -/
def Hw.adpMalformed (h : Hw) (s : Option Nat) (op reqId : Nat) (items : List Item) (ok : Item → Bool) : Hw :=
  h.adpReply s op St.malformed reqId (items.map (fun it => (itemKey it, if ok it then St.aborted else St.malformed, [])))

/-- Has a message a legal number of items and at most 4,096 B. -/
def msgFits (items : List Item) : Bool :=
  decide (items ≠ [] ∧ items.length ≤ 64 ∧ 8 + (items.map (fun it => 12 + up4 it.value.length)).sum ≤ 4096)

/-- READ and PEEK (R319, R320): the items in order, each read between writes. -/
def Hw.adpRead (h : Hw) (s : Option Nat) (op reqId : Nat) (items : List Item) : Hw :=
  if !h.adpServed s items true then h
  else
    let h := h.touch s
    let a := spdmActor s
    if h.adpForwards then h.adpPass op reqId items
    else if !msgFits items then h.adpReply s op St.malformed reqId []
    else if !items.all (fun it => (h.readSize it).isSome) then h.adpMalformed s op reqId items (fun it => (h.readSize it).isSome)
    else if 4096 < 8 + (items.map (fun it => 12 + up4 ((h.readSize it).getD 0))).sum then h.adpReply s op St.malformed reqId []
    else
      let out := items.foldl (fun (b : List (Nat × Nat × List Byte) × Hw) it =>
        let r := itemReg it
        let i := itemInst it
        match b.2.itemAway r i with
        | some st => (b.1 ++ [(itemKey it, st, [])], b.2)
        | none => match b.2.covers r i it.first.toNat it.count.toNat with
          | some (n, _) => match b.2.readObject a r i it.first.toNat n with
            | (some v, h) => (b.1 ++ [(itemKey it, St.ok, v)], h)
            | (none, h) => (b.1 ++ [(itemKey it, St.unavailable, [])], h)
          | none => b) ([], h)
      out.2.adpReply s op St.ok reqId out.1

/-! ### Writes (R319, R322) -/

/-- Is an item a write of a command object. -/
def Hw.isCommand (h : Hw) (it : Item) : Bool := match h.fieldAt (itemReg it) (itemInst it) with
  | some f => f.cmd
  | none => false

/-- The place of an item that is no command in the order of R322. -/
def itemOrder (it : Item) : Nat := ((it.index.toNat * 4096 + itemInst it) * 256 + it.sub.toNat) * 65536 + it.first.toNat

/-- Put an item into a list ordered by place, behind its equals. -/
def insertItem (x : Item × Nat) : List (Item × Nat) → List (Item × Nat)
  | [] => [x]
  | y :: ys => if itemOrder x.1 < itemOrder y.1 then x :: y :: ys else y :: insertItem x ys

/-- The items of a message, each with its number, in the order they are applied (R322). -/
def Hw.applyOrder (h : Hw) (items : List Item) : List (Item × Nat) :=
  let l := items.zipIdx
  (l.filter (fun x => !h.isCommand x.1)).foldl (fun q x => insertItem x q) [] ++ l.filter (fun x => h.isCommand x.1)

/-- The instance written to a counter beside its source, in the same message (R361). -/
def Hw.besideOf (h : Hw) (items : List Item) (it : Item) : Option Nat :=
  if itemReg it = Od.selSource then
    (items.find? (fun x => decide (itemReg x = Od.selInstance ∧ itemInst x = itemInst it))).map (fun x => (h.elemsIn (itemReg x) (itemInst x) x.value).headD 0)
  else none

/-- Does an actor hold the right to write every element of an access. -/
def Hw.mayWriteAll (h : Hw) (a : Actor) (r : Reg) (i : Nat) (vs : List Nat) : Bool := vs.all (fun v => h.mayWrite a r i v)

/-- One item is applied: its status and what it leaves. -/
def Hw.applyItem (h : Hw) (a : Actor) (items : List Item) (it : Item) : Nat × Hw :=
  let r := itemReg it
  let i := itemInst it
  match h.itemAway r i with
  | some st => (st, h)
  | none =>
    let vs := h.elemsIn r i it.value
    if h.remoteCopy r.index i then (St.ok, h.passOn (itemKey it) (bytesNat it.value))
    else
      let (c, h) := h.writeItem a r i it.first.toNat vs (h.besideOf items it)
      (if c then St.clamped else St.ok, h)

/-- Apply the items in order: none when one of them is refused, at the state the items before it left (R319, R322). -/
def Hw.applyItems (h : Hw) (a : Actor) (items : List Item) : Option (List (Nat × Nat) × Hw) :=
  (h.applyOrder items).foldl (fun (b : Option (List (Nat × Nat) × Hw)) x =>
    b.bind (fun b =>
      let r := itemReg x.1
      let i := itemInst x.1
      if b.2.mayWriteAll a r i (b.2.elemsIn r i x.1.value) then
        let (st, h) := b.2.applyItem a items x.1
        some (b.1 ++ [(x.2, st)], h)
      else none)) (some ([], h))

/-- WRITE and MULTI_WRITE. -/
def Hw.adpWrite (h : Hw) (s : Option Nat) (op reqId : Nat) (items : List Item) : Hw :=
  if !h.adpServed s items false then h
  else
    let h := h.touch s
    let ok (it : Item) : Bool := h.writeOk (itemReg it) (itemInst it) it.first.toNat it.count.toNat it.value.length
    if h.adpForwards then h.adpPass op reqId items
    else if !msgFits items then h.adpReply s op St.malformed reqId []
    else if !items.all ok then h.adpMalformed s op reqId items ok
    else match h.applyItems (spdmActor s) items with
      | none => h.adpReply s op St.denied reqId []
      | some (sts, h) =>
        let of_ (k : Nat) : Nat := ((sts.find? (fun x => x.1 == k)).map (fun x => x.2)).getD St.ok
        let status := if sts.any (fun x => x.2 == St.clamped) then St.clamped else St.ok
        h.adpReply s op status reqId (items.zipIdx.map (fun x => (itemKey x.1, of_ x.2, [])))

/-- Row READ (R319). -/
def execRead (s : Option SpdmIx) (reqId : BitVec 16) (items : List Item) (st : State) : Host.Outcome State Fault Refusal :=
  st.on (fun h => h.adpRead (sesOf s) 1 reqId.toNat items)

/-- Row PEEK (R320): reads without side effects, as every READ of a session here. -/
def execPeek (s : Option SpdmIx) (reqId : BitVec 16) (items : List Item) (st : State) : Host.Outcome State Fault Refusal :=
  st.on (fun h => h.adpRead (sesOf s) 4 reqId.toNat items)

/-- Row WRITE (R319): one item. -/
def execWrite (s : Option SpdmIx) (reqId : BitVec 16) (item : Item) (st : State) : Host.Outcome State Fault Refusal :=
  st.on (fun h => h.adpWrite (sesOf s) 2 reqId.toNat [item])

/-- Row MULTI_WRITE (R322). -/
def execMultiWrite (s : Option SpdmIx) (reqId : BitVec 16) (items : List Item) (st : State) : Host.Outcome State Fault Refusal :=
  st.on (fun h => h.adpWrite (sesOf s) 3 reqId.toNat items)

/-- Row REFUSAL_RESPONSE_DUE (R286): the first response held for its 500 µs leaves. -/
def execRefusalResponseDue (st : State) : Host.Outcome State Fault Refusal :=
  st.on (fun h =>
    match h.msg.msDelayed with
    | (t, m) :: rest => if t ≤ h.now then { h with msg.msDelayed := rest }.sendMs m else h
    | [] => h)

/-! ### Subscriptions (R321) -/

/-- The whole value of an object as an actor sees it now, element by element. -/
def Hw.seen (h : Hw) (a : Actor) (r : Reg) (i : Nat) : Option (List Nat) :=
  if (h.itemAway r i).isSome then none
  else match h.fieldAt r i with
    | some f =>
      let vs := (List.range (if f.whole then 1 else f.count)).map (fun k => h.view a r i k)
      if vs.all (fun v => v.isSome) then some (vs.map (fun v => v.getD 0)) else none
    | none => if h.headAt r i then some [h.head a r i] else none

/-- The bytes of an object's elements. -/
def Hw.seenBytes (h : Hw) (r : Reg) (i : Nat) (vs : List Nat) : List Byte := match h.fieldAt r i with
  | some f => vs.flatMap (fun v => natBytes v f.bytes)
  | none => vs.flatMap (fun v => natBytes v (if r.index = 0x6310 then 2 else 1))

/-- The subscription of a session for an object. -/
def Hw.subscribed (h : Hw) (n : Nat) (r : Reg) (i : Nat) : Bool :=
  h.msg.subs.any (fun e => decide (e.2.session = n ∧ e.2.index = r.index ∧ e.2.sub = r.sub ∧ e.2.inst = i))

/-- Row SUBSCRIBE. -/
def execSubscribe (s : SpdmIx) (reqId : BitVec 16) (item : Item) (st : State) : Host.Outcome State Fault Refusal :=
  st.on (fun h =>
    let n := s.val
    if !h.adpServed (some n) [item] false then h
    else
      let h := h.touch (some n)
      let r := itemReg item
      let i := itemInst item
      let answer (h : Hw) (st : Nat) : Hw := h.adpReply (some n) 5 St.ok reqId.toNat [(itemKey item, st, [])]
      if h.adpForwards then h.adpPass 5 reqId.toNat [item]
      else if (h.covers r i item.first.toNat item.count.toNat).isNone ∨ item.value.length ≠ 4 then
        h.adpMalformed (some n) 5 reqId.toNat [item] (fun _ => false)
      else match h.itemAway r i with
        | some x => answer h x
        | none => match h.seen (.session n) r i with
          | none => answer h St.unavailable
          | some vs =>
            match (List.range 256).find? (fun k => (Table.look h.msg.subs k).isNone) with
            | some k =>
              if h.subscribed n r i then answer h St.full
              else
                let every := max 1 (min 1000000 (bytesNat item.value % 2 ^ 20))
                let x : Subscription := { session := n, index := r.index, inst := i, sub := r.sub, intervalMs := every, nextAt := h.now, last := vs }
                answer { h with msg.subs := Table.put h.msg.subs k x } St.ok
            | none => answer h St.full)

/-- Row UNSUBSCRIBE. -/
def execUnsubscribe (s : SpdmIx) (reqId : BitVec 16) (item : Item) (st : State) : Host.Outcome State Fault Refusal :=
  st.on (fun h =>
    let n := s.val
    if !h.adpServed (some n) [item] false then h
    else
      let h := h.touch (some n)
      let r := itemReg item
      let i := itemInst item
      if h.adpForwards then h.adpPass 6 reqId.toNat [item]
      else if (h.readSize item).isNone then h.adpMalformed (some n) 6 reqId.toNat [item] (fun _ => false)
      else
        let mine (e : Nat × Subscription) : Bool := decide (e.2.session = n ∧ e.2.index = r.index ∧ e.2.sub = r.sub ∧ e.2.inst = i)
        { h with msg.subs := h.msg.subs.filter (fun e => !mine e) }.adpReply (some n) 6 St.ok reqId.toNat [(itemKey item, St.ok, [])])

/-- Row NOTIFY: after a change and the subscriber's interval the current value leaves; a subscription whose rights have
lapsed ends with UNAVAILABLE, and one on a unit in CONFIG_WAIT or fenced ends. -/
def execNotify (slot : Fin 256) (st : State) : Host.Outcome State Fault Refusal :=
  st.on (fun h =>
    match Table.look h.msg.subs slot with
    | none => h
    | some x =>
      let r : Reg := ⟨x.index, x.sub⟩
      let key := odKey r x.inst 0
      let drop := { h with msg.subs := Table.del h.msg.subs slot.val }
      let note (h : Hw) (st : Nat) (v : List Byte) : Hw := h.sendMs { session := some x.session, code := 7, status := St.ok, items := [(key, st, v)] }
      if h.fenced ∨ (h.session x.session).isNone then drop
      else if h.now < x.nextAt then h
      else match h.seen (.session x.session) r x.inst with
        | none => note drop St.unavailable []
        | some vs =>
          if vs = x.last then h
          else note { h with msg.subs := Table.put h.msg.subs slot.val { x with last := vs, nextAt := h.now + x.intervalMs * 1000000 } } St.ok
            (h.seenBytes r x.inst vs))

/-! ### The dictionary window (R326, R327) -/

/-- The register and the instance in an ODW's address. -/
def odwReg (q : Rq) : Reg := ⟨q.addr / 2 ^ 20 % 65536, q.addr % 256⟩
def odwInst (q : Rq) : Nat := q.addr / 2 ^ 8 % 4096

/-- The access header: elem_first, elem_count, value_len; and the value. -/
def odwFirst (q : Rq) : Nat := bytesNat (q.data.take 2)
def odwCount (q : Rq) : Nat := bytesNat ((q.data.drop 2).take 2)
def odwLen (q : Rq) : Nat := bytesNat ((q.data.drop 4).take 2)
def odwValue (q : Rq) : List Byte := (q.data.drop 16).take (odwLen q)

/-- The item checks of admission step 1: as R318, within the 4,080 B that an ODW moves. -/
def Hw.odwOk (h : Hw) (q : Rq) : Bool :=
  match q.subop with
  | 0 => decide (odwLen q = 0) && (match h.covers (odwReg q) (odwInst q) (odwFirst q) (odwCount q) with
      | some (n, u) => decide (n * u ≤ 4080)
      | none => false)
  | 1 => h.writeOk (odwReg q) (odwInst q) (odwFirst q) (odwCount q) (odwLen q) && decide (16 + odwLen q ≤ q.bytes)
  | _ => false

/-- The rights test of admission step 4: a write without the right is DENIED, and everything while the dictionary loads
(R327, R330). -/
def Hw.odwRights (h : Hw) (q : Rq) : Bool :=
  h.active q.requester && decide (h.reg Od.dictState = 1) &&
    (decide (q.subop = 0) ||
      h.mayWriteAll (.requester q.requester q.secure) (odwReg q) (odwInst q) (h.elemsIn (odwReg q) (odwInst q) (odwValue q)))

/-- Bytes padded with zeros to whole units of 64 B. -/
def padUnits (b : List Byte) : List Byte := b ++ List.replicate ((64 - b.length % 64) % 64) 0

/-- Serve the ODW of a tracker entry, in the sequence of R315. -/
def Hw.odwServe (h : Hw) (uid : Nat) : Hw :=
  match h.trk uid with
  | none => h
  | some t =>
    let q := t.rq
    let r := odwReg q
    let i := odwInst q
    let a : Actor := .requester q.requester q.secure
    let away := (h.itemAway r i).isSome
    if q.parBad then h.complete uid St.poison
    else if h.adpForwards then
      (h.setTrk uid { t with phase := .dict }).sendSpan 0 Fk.control 4 (natBytes 8 1 ++ q.header ++ q.data)
    else if q.subop = 0 then
      match h.covers r i (odwFirst q) (odwCount q) with
      | some (n, u) =>
        if away then h.complete uid St.unavailable
        else match h.readObject a r i (odwFirst q) n with
          | (some v, h) =>
            let d := padUnits (natBytes (n * u) 2 ++ List.replicate 14 0 ++ v)
            h.complete uid St.ok d (List.replicate (d.length / 64) false)
          | (none, h) => h.complete uid St.unavailable
      | none => h.complete uid St.malformed
    else
      let vs := h.elemsIn r i (odwValue q)
      if away then h.complete uid St.fenced
      else if !h.mayWriteAll a r i vs then h.complete uid St.denied
      else
        let (c, h) := h.writeItem a r i (odwFirst q) vs
        h.complete uid (if c then St.clamped else St.ok)

/-! ### Writes of one object -/

/-- Row REGISTER_WRITE (R323): one element of a defined field. -/
def execRegisterWrite (who : Actor) (index : BitVec 16) (inst : BitVec 12) (sub : BitVec 8) (elem : BitVec 12) (value : Nat) (s : State) :
    Host.Outcome State Fault Refusal :=
  s.on (fun h =>
    let r : Reg := ⟨index.toNat, sub.toNat⟩
    match h.fieldAt r inst.toNat with
    | some f => if elem.toNat < f.count then h.dictWrite who r inst.toNat value elem.toNat else h
    | none => h)

/-- Row LOAD_DONE (R330). -/
def execLoadDone (who : Actor) (s : State) : Host.Outcome State Fault Refusal := s.on (fun h => h.dictWrite who Od.dictCommand 0 1)

end Sys2Proof.Machine
end

