-- ==== Sys2Proof/Machine/Reset.lean ====
section
/-! DEFINITION. What the resets leave (R302, R314, R379 to R382, R385): a loss of main power, a full reset, the entry of a
hub-only reset, a slice reset; and the pins that begin them (R370 to R373). -/

namespace Sys2Proof.Machine

/-- Does the block heed its reset inputs: PWROK is high and TSHUT_N is high (R302, R372, R385). -/
def Hw.heedsResets (h : Hw) : Bool := h.boot.pwrok && h.boot.tshutN

/-- The registers that no reset restores: they follow OTP and cistern rules (class LIFE, R314). -/
def Hw.lifeRegs (h : Hw) : Table Nat := h.od.filter (fun e => decide ((keyReg e.1).cls = .life))

/-- OTP and cistern through a loss of everything else: keys, sessions, handoffs and partitions are gone (R379). -/
def SecSt.afterPower (x : SecSt) : SecSt :=
  { x with memKeys := [], resume := [], spdm := [], handoff := none, ideSets := [], parts := [] }

/-- What a power cycle and a full reset leave: OTP, cistern, the debug port, what has been sent and drawn (R373, R379). -/
def Hw.wipe (h : Hw) : Hw :=
  { od := h.lifeRegs, drawn := h.drawn, tap := { h.tap with nonce := none, barredUntil := h.tap.barredUntil - h.now },
    boot := { pwrok := h.boot.pwrok, tshutN := h.boot.tshutN }, req := { uidNext := h.req.uidNext }, sec := h.sec.afterPower,
    msg := { msTx := h.msg.msTx } }

/-- With no backup cell a loss of main power clears the cistern (R290). -/
def Hw.clearCistern (h : Hw) : Hw :=
  let x := h.sec
  let h := { h with sec := { x with markers := [], journal := [], cisternNs := 0, fillSecret := 0, resumeKek := 0, nonceSeed := 0,
                                    cisternSv := (0, 0), drawSecrets := true, backupLost := true } }
  h.zeroRegs [Od.tamperSeen, Od.tamperCount, Od.journalCount] 0

/-- Main power is lost: latches of shutdowns clear, the pins are low (R302, R372, R379). -/
def Hw.powerLost (h : Hw) : Hw :=
  let w := h.wipe
  let w := { w with boot := { cold := true }, tap := {} }
  if h.sec.vbak then w else w.clearCistern

/-- PWROK_RISE (R370, R372): the supplies are good; the next start is cold (R373). -/
def execPwrokRise (s : State) : Host.Outcome State Fault Refusal :=
  s.on (fun h => if h.boot.pwrok then h else { h with boot.pwrok := true, boot.cold := true })

/-- PWROK_FALL (R372, R385): a reset in progress is abandoned and main power counts as lost. -/
def execPwrokFall (s : State) : Host.Outcome State Fault Refusal := s.on (fun h => if h.boot.pwrok then h.powerLost else h)

/-- A full reset (R373): as a power cycle, but the cistern stays on main power and shutdowns stay latched. -/
def Hw.fullReset (h : Hw) : Hw :=
  let w := h.wipe
  { w with boot := { w.boot with cold := true, shutLatch := h.boot.shutLatch } }

/-! ### Hub-only reset entry (R380) -/

/-- The resume record: the keys of ACTIVE and DEGRADED partitions (R279). -/
def Hw.resumeRecord (h : Hw) : List Resume :=
  ((List.range 16).filter (fun p => decide (h.reg Od.partState p = 3 ∨ h.reg Od.partState p = 4))).filterMap (fun p =>
    (Table.look h.sec.memKeys p).map (fun k =>
      ({ part := p, epoch := h.reg Od.partEpoch p, owner := h.reg Od.partOwner p, members := h.reg Od.partStacks p, key := k.toNat } : Resume)))

/-- A pseudo-channel enters self-refresh: banks precharge, its schedule stops, a pause or a slot in progress has ended (R96,
R380). -/
def Hw.selfRefresh (h : Hw) (g : Nat) : Hw :=
  if h.reg Od.pcState g = 4 then
    let h := (h.dropCal g).setReg Od.pcState g 5
    h.setPc g { h.pc g with nextDue := none, slotUntil := none, pauseUntil := none, lastCol := none, acts := [], rfmWaiting := [] }
  else h

/-- A rate switch in progress completes (R380). -/
def Hw.finishSwitch (h : Hw) (s : Nat) : Hw :=
  match Table.look h.sl.rateSwitchTo s with
  | some level =>
    ({ h with sl.rateSwitchTo := Table.del h.sl.rateSwitchTo s }.setReg Od.stackRateDivisor s (levelDivisor level)).setReg Od.thermLevel s level
  | none => h

/-- The replay buffers of a module are empty; it numbers afresh and stays trained. -/
def Link.hubReset (l : Link) : Link := { st := l.st, half := l.half }

/-- The hub core's state is lost, what R379 keeps is kept: OTP and cistern, mailboxes, slice state, CONFIG, SLICE, PART and
LIVE objects, req_epoch, retired pages. Timers of mailboxes start again, snoops whose BISNPs are lost run out (R148). -/
def Hw.hubCoreReset (h : Hw) : Hw :=
  { od := h.od.filter (fun e => decide ((keyReg e.1).cls ≠ .state)), drawn := h.drawn,
    tap := { h.tap with nonce := none, barredUntil := h.tap.barredUntil - h.now },
    boot := { pwrok := true, tshutN := true, hubRstN := false, sliceRstN := h.boot.sliceRstN, cold := h.boot.cold && !h.boot.portsReleased,
              absentLatch := h.boot.absentLatch, shutLatch := h.boot.shutLatch, failedLatch := h.boot.failedLatch },
    lnk := { links := h.lnk.links.map (fun (e : Nat × Link) => (e.1, e.2.hubReset)) },
    req := { uidNext := h.req.uidNext, homes := h.req.homes },
    sl := { h.sl with banks := [], dwell := [], holds := [], cancels := [] },
    mem := { h.mem with testCols := [], ppr := [] },
    coh := { h.coh with snoops := h.coh.snoops.map (fun (e : Nat × Snoop) => (e.1, { e.2 with sentAt := some 0 })) },
    car := { progCopies := h.car.progCopies, staging := h.car.staging, weightLog := h.car.weightLog, fmtBase := h.car.fmtBase },
    par := h.par,
    sec := { h.sec with memKeys := [], spdm := [], handoff := none, ideSets := [] },
    msg := { mbq := h.msg.mbq.map (fun (e : Nat × MbQueue) => (e.1, { e.2 with timer := e.2.timer.map (fun _ => 0) })), msTx := h.msg.msTx,
             lossRing := h.msg.lossRing } }

/-- The entry of a hub-only reset (R380): keys into the resume record, weight key slots empty, slices finish what is in
progress and enter self-refresh, launches stop, the hub core resets. -/
def Hw.hubResetEntry (h : Hw) : Hw :=
  let h := { h with sec.resume := h.resumeRecord }
  let h := h.endTest
  let h := (List.range 16).foldl (fun h s => h.finishSwitch s) h
  let h := (List.range 1024).foldl (fun h g => h.selfRefresh g) h
  h.hubCoreReset

/-- HUB_RST_ASSERT (R302, R373, R380): with every SLICE_RST_N low too a full reset, else a hub-only reset begins. -/
def execHubRstAssert (s : State) : Host.Outcome State Fault Refusal :=
  s.on (fun h =>
    if !h.heedsResets || !h.boot.hubRstN then h
    else if h.boot.sliceRstN = 0 then h.fullReset
    else h.hubResetEntry)

/-! ### Slice reset (R382) -/

/-- Does a register belong to the slice of stack `s`: SLICE objects, and what is read from its hardware. -/
def sliceReg (s k : Nat) : Bool :=
  let r := keyReg k
  let i := keyInst k
  ((([0x3200, 0x4000, 0x6210, 0xC010, 0x3000, 0x4100, 0xA010] : List Nat).contains r.index) && decide (i = s)) ||
    ((([0x6100, 0xA100, 0xC000, 0x3100] : List Nat).contains r.index) && decide (i / 64 = s))

/-- The engines of a stack stop: no notice (R186). -/
def Hw.stopEngines (h : Hw) (s : Nat) : Hw :=
  let h := { h with car.launchIn := Table.del h.car.launchIn s }
  (List.range 4).foldl (fun h i =>
    let e := s * 4 + i
    let h := ((h.eng e).run.toList ++ (h.eng e).queue).foldl (fun h l => l.descs.foldl (fun h d => h.abortHeld d) h) h
    ((h.setEng e {}).idleEngine e).setReg Od.engQueue e 0) h

/-- Timers of a stack, and of its pseudo-channels. -/
def sliceTimer (s k : Nat) : Bool :=
  let kind := k / 65536
  let i := k % 65536
  (([Tm.silence, Tm.silPause, Tm.budget, Tm.refDue, Tm.refWin, Tm.rate, Tm.levelDwell, Tm.cold, Tm.refPend, Tm.scrubPass, Tm.sand] : List Nat).contains kind
      && decide (i = s)) || (decide (kind = Tm.cal) && decide (i / 64 = s))

/-- Its pseudo-channels are OFF and its queues discarded (R96). -/
def SliceSt.without (x : SliceSt) (s : Nat) : SliceSt :=
  let mine (g : Nat) : Bool := decide (g / 64 = s)
  { inbox := Table.del x.inbox s, stage := Table.del x.stage s, queues := Table.drop x.queues mine,
    banks := Table.drop x.banks (fun k => mine (k / 64)), pcs := Table.drop x.pcs mine,
    ra := Table.drop x.ra (fun k => mine (k / 2048)), cancels := x.cancels, holds := x.holds.filter (fun p => p.stack != s),
    descriptors := Table.del x.descriptors s, rateSwitchTo := Table.del x.rateSwitchTo s, dwell := Table.del x.dwell s,
    raNow := Table.del x.raNow s, sensors := Table.drop x.sensors (fun k => decide (k / 32 = s)) }

/-- Its DRAM and its write-combining buffer are lost. -/
def MemSt.without (x : MemSt) (s : Nat) : MemSt :=
  let mine (g : Nat) : Bool := decide (g / 64 = s)
  let sector (k : Nat) : Bool := decide (secStack k = s)
  { dram := Table.drop x.dram (fun k => mine (k / 2 ^ 32)), fills := Table.drop x.fills mine,
    spare := Table.drop x.spare (fun k => mine (k / 1024)), wcb := Table.drop x.wcb sector, rmw := Table.drop x.rmw sector,
    wcbWait := Table.drop x.wcbWait sector, wcbClock := x.wcbClock, testCols := x.testCols.filter (fun k => k / 2 ^ 32 != s),
    ppr := Table.drop x.ppr mine, unsettled := Table.drop x.unsettled sector, retiredCount := x.retiredCount }

/-- Its directory is empty (R156). -/
def CohSt.without (x : CohSt) (s : Nat) : CohSt :=
  { dir := Table.drop x.dir (fun k => decide (k / 1048576 = s)), dirPend := x.dirPend.filter (fun d => d.stack != s),
    snoops := Table.drop x.snoops (fun k => decide (k / 4096 = s)), snoopQ := Table.del x.snoopQ s, dirQ := Table.del x.dirQ s,
    dirWait := Table.del x.dirWait s, suspectAll := x.suspectAll, suspect := x.suspect, dirPtr := Table.del x.dirPtr s,
    victimPtr := Table.drop x.victimPtr (fun k => decide (k / 65536 = s)),
    epochCopy := Table.drop x.epochCopy (fun k => decide (k / 4096 = s)), sweeps := x.sweeps.filter (fun w => w.1 != s) }

/-- Its registers return to reset values; a FAILED stack stays FAILED, a shutdown stays latched (R243, R301, R314). -/
def Hw.resetSliceRegs (h : Hw) (s : Nat) : Hw :=
  let state := h.reg Od.stackState s
  let h := h.resetRegs (fun k => sliceReg s k)
  (h.setReg Od.stackState s (if state = 2 then 2 else 0)).setReg Od.thermShutdown s (if h.boot.shutLatch.testBit s then 1 else 0)

/-- What travels between it and the hub is lost. -/
def Hw.dropSliceLinks (h : Hw) (s : Nat) : Hw :=
  let mine (g : Nat) : Bool := decide (g / 64 = s)
  { h with timers := Table.drop h.timers (fun k => sliceTimer s k),
           lnk := { h.lnk with links := Table.drop h.lnk.links (fun k => decide (k / 16 = s)),
                               txWait := Table.drop h.lnk.txWait (fun k => decide (k / 2 = s)) },
           req := { h.req with credits := Table.drop h.req.credits (fun k => mine (k / 2)),
                               creditsDue := Table.drop h.req.creditsDue (fun k => mine (k / 2)) },
           red := { h.red with accIn := Table.del h.red.accIn s } }

/-- Its program store, staging and parity work are lost (R167). -/
def Hw.dropSliceWork (h : Hw) (s : Nat) : Hw :=
  { h with car := { h.car with progCopies := Table.drop h.car.progCopies (fun k => decide (k / 128 = s)),
                               staging := Table.drop h.car.staging (fun k => decide (k / 2 ^ 23 / 4 = s)) },
           par := { h.par with intentsIn := Table.del h.par.intentsIn s, deltas := Table.del h.par.deltas s,
                               settles := Table.del h.par.settles s, degReads := Table.del h.par.degReads s } }

/-- The slice of a stack loses its state: queues discarded, pseudo-channels OFF, directory empty and suspect, program store,
remap table and counters gone, DRAM lost (R96, R156, R167, R379). -/
def Hw.wipeSlice (h : Hw) (s : Nat) : Hw :=
  let h := (((h.stopEngines s).resetSliceRegs s).dropSliceLinks s).dropSliceWork s
  { h with sl := h.sl.without s, mem := h.mem.without s, coh := h.coh.without s }.suspectSlice s true

/-- What goes before the slice of a stack resets while the hub runs: a stack of a partition is declared FAILED; otherwise what is
outstanding completes, and its sessions abort (R234, R379, R382). -/
def Hw.leaveSlice (h : Hw) (s : Nat) : Hw :=
  if (h.partOf s).isSome then h.failStack s else (h.poisonOutstanding s (fun _ => false)).sliceResetSessions s

/-- SLICE_RST_N of a stack is low. -/
def Hw.sliceLow (h : Hw) (s : Nat) : Hw := { h with boot.sliceRstN := h.boot.sliceRstN - 2 ^ s }

/-- SLICE_RST_N of a stack falls. The last one to fall beside HUB_RST_N makes a full reset (R373). -/
def Hw.assertSlice (h : Hw) (s : Nat) : Hw :=
  let h := if h.boot.hubRstN then h.leaveSlice s else h
  let h := (h.wipeSlice s).sliceLow s
  if h.boot.sliceRstN = 0 ∧ h.boot.hubRstN = false then h.fullReset else h

/-- SLICE_RST_ASSERT (R302, R372, R381, R382). -/
def execSliceRstAssert (stack : StackIx) (st : State) : Host.Outcome State Fault Refusal :=
  st.on (fun h => if !h.heedsResets || !h.boot.sliceRstN.testBit stack.val then h else h.assertSlice stack.val)

/-- SLICE_RST_N of a stack rises: its start begins. -/
def Hw.releaseSlice (h : Hw) (s : Nat) : Hw :=
  let absent := h.boot.absentLatch
  { h with boot.sliceRstN := h.boot.sliceRstN + 2 ^ s, boot.absentLatch := if absent.testBit s then absent - 2 ^ s else absent }

/-- SLICE_RST_RELEASE (R372, R381, R382): the slice starts; once HUB_RST_N is high too its modules train (stage 2). -/
def execSliceRstRelease (stack : StackIx) (st : State) : Host.Outcome State Fault Refusal :=
  st.on (fun h => if !h.heedsResets || h.boot.sliceRstN.testBit stack.val then h else h.releaseSlice stack.val)

end Sys2Proof.Machine
end

