-- ==== Sys2Proof/Machine/Boot.lean ====
section
/-! DEFINITION. Start-up: the release of HUB_RST_N and the ROM's work (R264 to R267, R374), the stages of a start (R375 to
R377, R380), steward release, port release (R378). -/

namespace Sys2Proof.Machine

/-! ### The ROM's work (R264, R266, R267, R284, R290) -/

/-- The life-cycle state that the thermometer spells: the highest word with any bit programmed (R261). -/
def lcOf (otp : List Nat) : Nat := ((otp.take 4).zipIdx.filter (fun w => decide (w.1 ≠ 0))).foldl (fun m w => max m (w.2 + 1)) 0

/-- Is a transition to state `n` unfinished: a word partly programmed, or its newest journal entry a TRANSITION_START (R264). -/
def Hw.unfinished (h : Hw) (n : Nat) : Bool :=
  let count := h.reg Od.journalCount
  let entry (i : Nat) : Nat := ((Table.look h.sec.journal (i % 64)).getD 0).toNat
  let ofState := (List.range (min 64 count)).map (fun i => entry (count - 1 - i)) |>.filter
    (fun v => decide (v / 2 ^ 112 % 16 = n ∧ 1 ≤ v / 2 ^ 120 ∧ v / 2 ^ 120 ≤ 3))
  (h.sec.otp.take n).any (fun w => decide (w ≠ 0 ∧ w ≠ otpFull)) || decide (ofState.head?.map (fun v => v / 2 ^ 120) = some 1)

/-- The thermometer is read before any other work: an unfinished transition is completed, never undone (R264). -/
def Hw.rollForward (h : Hw) : Hw :=
  let n := lcOf h.sec.otp
  let h := h.setReg Od.lcState 0 n
  if n ≠ 0 ∧ h.unfinished n then
    let h := { h with sec.otp := h.sec.otp.zipIdx.map (fun (w : Nat × Nat) => if w.2 < n then otpFull else w.1) }
    let h := (List.range n).foldl (fun h k => h.sideActions (k + 1)) h
    h.journalWrite 3 n
  else h

/-- The secrets of a cistern that has just received power are drawn; one that lost its backup is reported (R288, R290). -/
def Hw.checkCistern (h : Hw) : Hw :=
  let h := if h.sec.backupLost then
      (({ h with sec.backupLost := false }.setReg Od.tamperSeen 0 1).satReg Od.tamperCount 0).journalNote 5
    else h
  if h.sec.drawSecrets then
    let (a, h) := h.random 256
    let (b, h) := h.random 256
    let (c, h) := h.random 256
    { h with sec.fillSecret := a, sec.resumeKek := b, sec.nonceSeed := c, sec.drawSecrets := false }
  else h

/-- In BLANK a blank UDS field is programmed. -/
def Hw.programUds (h : Hw) : Hw :=
  if h.reg Od.lcState = 0 ∧ h.sec.uds = none then
    let (u, h) := h.random 384
    { h with sec.uds := some u }
  else h

/-- In BLANK a blank UDS field is programmed; id_public is that of the identity derived from it (R267). -/
def Hw.takeIdentity (h : Hw) : Hw :=
  let h := { h with boot.measRom := Config.romDigest }.programUds
  h.setReg Od.idPublic 0 (if h.sec.uds.isSome then (Config.publicKey h.cdiRom).toNat else 0)

/-- The debug level at boot (R284). -/
def dbgAtBoot (lc : Nat) : Nat := if lc = 0 then Dbg.opened else if lc = 3 then Dbg.returnedOpen else Dbg.locked

/-- The effective anti-rollback counter: the larger of the cistern's value and 16 per programmed OTP step (R266). -/
def effectiveSv (cistern steps : Nat) : Nat := max cistern (16 * steps)

/-- The security versions as the life-cycle record reports them. -/
def Hw.showSv (h : Hw) : Hw :=
  (h.setReg Od.svSteward 0 (effectiveSv h.sec.cisternSv.1 h.sec.otpSteps.1)).setReg Od.svSlice 0
    (effectiveSv h.sec.cisternSv.2 h.sec.otpSteps.2)

/-- Stage 1 begins: the ROM's own work, then both images are asked for. -/
def Hw.romStart (h : Hw) : Hw :=
  let h := h.rollForward.checkCistern.takeIdentity.showSv
  let h := h.setReg Od.dbgLevel 0 (dbgAtBoot (h.reg Od.lcState))
  (h.setTimer Tm.bootRead 0 h.now).setTimer Tm.bootRead 1 h.now

/-! ### Release of HUB_RST_N (R46, R371, R373, R375, R380) -/

/-- Port modes are sampled from FP_MODE (R46). -/
def Hw.sampleModes (h : Hw) (straps : BitVec 32) : Hw :=
  (List.range 32).foldl (fun h n => h.setReg Od.portMode n (if straps.getLsbD n then 1 else 0)) h

/-- Each slice exits self-refresh: a new refresh epoch, and a calibration run asked for (R96, R308, R380). -/
def Hw.leaveSelfRefresh (h : Hw) (s : Nat) : Hw :=
  let gs := ((List.range 64).map (fun pc => gOf s pc)).filter (fun g => decide (h.reg Od.pcState g = 5))
  if gs.isEmpty then h
  else
    let h := gs.foldl (fun h g => h.setReg Od.pcState g 4) h
    let len := 8192 * h.refi s / 1000
    let h := ((h.startEpoch s h.ps).setReg Od.refWindowNs s len).setTimer Tm.refWin s (h.now + len)
    gs.foldl (fun h g => h.askCal g) h

/-- A stack of a partition whose slice was reset beside the hub is FAILED (R381, R382). -/
def Hw.lostInReset (h : Hw) (s : Nat) : Hw :=
  if (h.partOf s).isSome && decide (h.reg Od.stackState s = 0) then (h.setReg Od.stackState s 1).failStack s else h

/-- The cascade or the pair forms again, by the shape that this release takes (R250, R256). -/
def Hw.formAgain (h : Hw) : Hw :=
  let h := { h with boot.shape := h.reg Od.unitShape }
  if h.isCascade then h.startCascade else if h.boot.shape = 2 then h.startPair else h

/-- A cold start finds every object at its reset value, every memory lost; which slices are out of reset and which stacks have
failed stays (R243, R314, R379). -/
def Hw.coldState0 (h : Hw) : Hw :=
  let w := h.wipe
  { w with boot := { w.boot with cold := true, sliceRstN := h.boot.sliceRstN, shutLatch := h.boot.shutLatch, failedLatch := h.boot.failedLatch } }

/-- The watermarks that a hub reset arms (R354). -/
def Hw.armAtReset (h : Hw) : Hw := (List.range 0x90).foldl (fun h w => h.setReg Od.wmArmed w 1) h

/-- HUB_RST_N is released. -/
def Hw.releaseHub (h : Hw) (straps : BitVec 32) : Hw :=
  let cold := h.boot.cold
  let h := if cold then h.coldState0 else h
  let h := { h with now := 0, boot.hubRstN := true, boot.releasedAt := 0 }
  let h := (h.sampleModes straps).armAtReset
  let h := if cold then h else (h.setReg Od.resetCause 0 1).mbHubReset
  let h := h.romStart
  let h := if cold then h else (List.range 16).foldl (fun h s => (h.leaveSelfRefresh s).lostInReset s) h
  let h := if h.confidential then h.beginCoarse else h
  h.formAgain

/-- HUB_RST_RELEASE (R375, R380). -/
def execHubRstRelease (modeStraps : BitVec 32) (s : State) : Host.Outcome State Fault Refusal :=
  s.on (fun h => if !h.heedsResets || h.boot.hubRstN then h else h.releaseHub modeStraps)

/-! ### Stage 1: images (R266, R272, R374) -/

/-- What a signature covers and a measurement digests: the image's bytes with its version fields. -/
def imageDigest (x : Image) : List Byte := sha384 (x.bytes ++ bytesOf x.fw 4 ++ natBytes x.version 4)

/-- Why the ROM refuses an image: 1 SIGNATURE, 2 ROLLBACK; 0 it passes. -/
def Hw.imageFault (h : Hw) (slice : Bool) (x : Image) : Nat :=
  let counter := h.reg (if slice then Od.svSlice else Od.svSteward)
  if !ecdsaVerify Config.romKeyX Config.romKeyY x.sigR x.sigS (imageDigest x) then 1
  else if 1023 < x.version ∨ (2 ≤ h.reg Od.lcState ∧ x.version < counter) then 2
  else 0

/-- Has the ROM an image already. -/
def Boot.has (b : Boot) (slice : Bool) : Bool := if slice then b.sliceImage else b.stewardImage

/-- Is a boot read of an image from a slot outstanding: slot A, or B once A has failed. -/
def Hw.fetching (h : Hw) (slice slotB : Bool) : Bool :=
  h.boot.pwrok && h.boot.hubRstN && decide (h.reg Od.bootStage = 0) && !h.boot.has slice &&
    (h.boot.slotAFailed.testBit (if slice then 1 else 0) == slotB)

/-- An image fails: the same image of slot B is fetched; with both slots failed the boot has FAILED (R374). -/
def Hw.imageFails (h : Hw) (slice slotB : Bool) (why : Nat) : Hw :=
  let h := h.setReg Od.bootError 0 why
  let k := if slice then 1 else 0
  if slotB then h.setReg Od.bootStage 0 0xff
  else { h with boot.slotAFailed := h.boot.slotAFailed ||| 2 ^ k }.setTimer Tm.bootRead k h.now

/-- Raise an anti-rollback counter: the cistern's value, and OTP steps of 16 (R266). -/
def Hw.raiseSv (h : Hw) (slice : Bool) (v : Nat) : Hw :=
  let h := if slice then
      { h with sec.cisternSv := (h.sec.cisternSv.1, v), sec.otpSteps := (h.sec.otpSteps.1, max h.sec.otpSteps.2 (v / 16)) }
    else { h with sec.cisternSv := (v, h.sec.cisternSv.2), sec.otpSteps := (max h.sec.otpSteps.1 (v / 16), h.sec.otpSteps.2) }
  h.showSv

/-- The measurement of an image that passes, and the slot it came from. -/
def Hw.measure (h : Hw) (slice slotB : Bool) (x : Image) : Hw :=
  let m := BitVec.ofNat 384 (bytesNat (imageDigest x))
  let h := if slice then { h with boot.sliceImage := true, boot.measSlice := m }
    else { h with boot.stewardImage := true, boot.measSteward := m }.setReg Od.fwVersion 0 x.fw.toNat
  if slotB then h.setBit Od.bootSlot 0 (if slice then 1 else 0) true else h

/-- From MISSION on a higher security version raises the counter. -/
def Hw.raiseVersion (h : Hw) (slice : Bool) (version : Nat) : Hw :=
  let counter := h.reg (if slice then Od.svSlice else Od.svSteward)
  if 2 ≤ h.reg Od.lcState ∧ counter < version then h.raiseSv slice version else h

/-- An image passes: it is measured, its security version may raise the counter, the slot is reported. -/
def Hw.imagePasses (h : Hw) (slice slotB : Bool) (x : Image) : Hw :=
  let h := (h.measure slice slotB x).raiseVersion slice x.version
  if h.boot.stewardImage && h.boot.sliceImage then h.setReg Od.bootStage 0 1 else h

/-- BOOT_READ_ANSWER (R374): the image arrives and is verified, checked for rollback and measured. -/
def execBootReadAnswer (slice slotB : Bool) (image : Image) (s : State) : Host.Outcome State Fault Refusal :=
  s.on (fun h =>
    if !h.fetching slice slotB then h
    else
      let why := h.imageFault slice image
      if why = 0 then h.imagePasses slice slotB image else h.imageFails slice slotB why)

/-- FETCH_TIMEOUT (R378): no answer within 10 ms. -/
def execFetchTimeout (slice slotB : Bool) (s : State) : Host.Outcome State Fault Refusal :=
  s.on (fun h =>
    if h.fetching slice slotB && decide (h.timer Tm.bootRead (if slice then 1 else 0) + 10000000 ≤ h.now) then
      h.imageFails slice slotB 3
    else h)

/-! ### Stages 2 to 4: a stack (R375, R376, R391) -/

/-- Has a stack's qanat been trained since its slice started. -/
def Hw.qanatTrained (h : Hw) (s : Nat) : Bool :=
  (List.range 8).any (fun m => decide ((h.link (linkKey s m true)).st ≠ .off))

/-- The start of a stack ends with no stack: ABSENT (R1, R375). -/
def Hw.findAbsent (h : Hw) (s : Nat) : Hw := { h with boot.absentLatch := h.boot.absentLatch ||| 2 ^ s }

/-- QANAT_TRAINING_DONE (R16, R375, R391): modules that read their own numbers come up, others are FAILED. -/
def execQanatTrainingDone (stack : StackIx) (modules : List (Option (Fin 16 × Fin 8))) (st : State) : Host.Outcome State Fault Refusal :=
  st.on (fun h =>
    let s := stack.val
    if !h.boot.hubRstN || !h.boot.sliceRstN.testBit s || h.qanatTrained s then h
    else
      let ok (m : Nat) : Bool := match modules.getD m none with
        | some x => decide (x.1.val = s ∧ x.2.val = m)
        | none => false
      let good := (List.range 8).filter ok
      let h := (List.range 8).foldl (fun h m =>
        let l : Link := if ok m then { st := .up, lastRx := h.now } else { st := .failed }
        (h.setLink (linkKey s m false) l).setLink (linkKey s m true) l) h
      let h := (h.setReg Od.qanatModulesActive s good.length).setTimer Tm.silence s h.now
      let h := ((List.range 8).filter (fun m => !ok m)).foldl (fun h m => h.raise { kind := 2, stack := some s, payload := packFields [(8, m)] }) h
      if good.isEmpty then h.findAbsent s else h)

/-- Firmware writes a started slice's program store and epoch copies anew (R144, R167, R382). -/
def Hw.refillSlice (h : Hw) (s : Nat) : Hw :=
  let h := (List.range 128).foldl (fun h n =>
    match (h.car.progCopies.find? (fun e => e.1 % 128 == n && e.2.valid)) with
    | some e => if h.reg Od.progState n = 2 then h.putCopy s n e.2 else h
    | none => h) h
  h.od.foldl (fun (h : Hw) (e : Nat × Nat) =>
    if keyReg e.1 = Od.reqEpoch then
      { h with coh.epochCopy := Table.setD h.coh.epochCopy (fun _ => 0) (s * 4096 + keyInst e.1) (e.2 % 256) }
    else h) h

/-- A timing field of `OD 4000/s` takes the value that the descriptor gives it. -/
def Hw.setTiming (h : Hw) (s sub v : Nat) : Hw := h.setReg ⟨0x4000, sub⟩ s v

/-- A valid descriptor is published: geometry, the highest pin rate, its timing record (R32, R76, R376). -/
def Hw.publish (h : Hw) (s : Nat) (d : StackDescriptor) (rate : Nat × List Nat) : Hw :=
  let sids := d.height / 4
  let rows := d.dieGbit * 512
  let h := { h with sl.descriptors := Table.put h.sl.descriptors s d }
  let h := (((((h.setReg Od.stackHeight s d.height).setReg Od.stackDieGbit s d.dieGbit).setReg Od.stackSids s sids).setReg
    Od.stackRowsPerBank s rows).setReg Od.stackCapacity s (64 * sids * 16 * rows * 1024)).setReg Od.stackPinRate s rate.1
  rate.2.zipIdx.foldl (fun h x => h.setTiming s (x.2 + 1) x.1) h

/-- STACK_DESCRIPTOR_READ (R96, R303, R375, R376): an invalid descriptor leaves the stack ABSENT; a valid one is published and
the pseudo-channels begin TRAINING, or wait in COLD_HOLD. One shut down stays as it is (R301). -/
def execStackDescriptorRead (stack : StackIx) (descriptor : StackDescriptor) (st : State) : Host.Outcome State Fault Refusal :=
  st.on (fun h =>
    let s := stack.val
    if !h.boot.hubRstN || !h.qanatTrained s || h.boot.absentLatch.testBit s || (Table.look h.sl.descriptors s).isSome then h
    else match (if descriptor.crcOk then bestRate descriptor else none) with
      | none => (h.findAbsent s).raise { kind := 3, stack := some s }
      | some rate =>
        let h := h.publish s descriptor rate
        let shut := h.boot.shutLatch.testBit s
        let h := h.setReg Od.stackState s (if shut || h.boot.failedLatch.testBit s then 2 else 1)
        let h := h.setReg Od.thermShutdown s (if shut then 1 else 0)
        if shut then h
        else
          let t := h.sreg Od.thermStackTemp s
          let hold := decide (t ≠ -128 ∧ t < h.sreg Od.thermColdHold)
          let h := (List.range 64).foldl (fun h pc => h.setReg Od.pcState (gOf s pc) (if hold then 1 else 2)) h
          let h := if hold then h.setTimer Tm.cold s h.now else h
          (h.setReg Od.thermCold s (h.coldState s)).refillSlice s)

/-! ### Stage 7: the stewards (R140, R289, R375, R380) -/

/-- Has the start of a stack that is out of reset ended: ABSENT, FAILED, or every pseudo-channel READY or FAILED. -/
def Hw.stackStarted (h : Hw) (s : Nat) : Bool :=
  h.boot.absentLatch.testBit s || decide (h.reg Od.stackState s = 2) ||
    (decide (h.reg Od.stackState s = 1) &&
      (List.range 64).all (fun pc => decide (h.reg Od.pcState (gOf s pc) = 4 ∨ h.reg Od.pcState (gOf s pc) = 6)))

/-- May the stewards be released. -/
def Hw.stewardsMayRun (h : Hw) : Bool :=
  h.boot.pwrok && h.boot.hubRstN && h.boot.stewardImage && h.boot.sliceImage && !h.boot.stewardsRun &&
    (List.range 16).all (fun s => !h.boot.sliceRstN.testBit s || h.stackStarted s)

/-- After a cold start every scrub marker is cleared, with a journal entry for each (R289). -/
def Hw.clearMarkers (h : Hw) : Hw :=
  let n := h.sec.markers.length
  (List.range n).foldl (fun h _ => h.journalNote 8) { h with sec.markers := [] }

/-- Does a resume entry restore a partition: it names the partition as it stands, and no scrub marker does (R279). -/
def Hw.resumes (h : Hw) (x : Resume) : Bool :=
  decide (h.reg Od.partState x.part = 3 ∨ h.reg Od.partState x.part = 4) && (Table.look h.sec.markers x.part).isNone &&
    decide (x.epoch = h.reg Od.partEpoch x.part ∧ x.owner = h.reg Od.partOwner x.part ∧ x.members = h.reg Od.partStacks x.part)

/-- What firmware does with a partition after a hub-only reset: FILLING waits for its key again, a release is pending, a key is
restored, or the partition is released (R37, R279, R289). -/
def Hw.resumePart (h : Hw) (p : Nat) : Hw :=
  match h.reg Od.partState p with
  | 2 => (h.setReg Od.secKeyInstalled p 0).setReg Od.partState p 1
  | 5 => h.setReg Od.partState p 6
  | st =>
    if st = 3 ∨ st = 4 then
      match h.sec.resume.find? (fun x => x.part == p && h.resumes x) with
      | some x => { h with sec.memKeys := Table.put h.sec.memKeys p (BitVec.ofNat 512 x.key) }
      | none => (h.setReg Od.secKeyInstalled p 0).releasePart .firmware p
    else h

/-- `OD 7100` is rebuilt from any slice copy whose digest checks (R167). -/
def Hw.rebuildPrograms (h : Hw) : Hw :=
  (List.range 128).foldl (fun h n =>
    match h.car.progCopies.find? (fun e => e.1 % 128 == n && e.2.valid) with
    | some e =>
      let h := (h.setReg Od.progBind n e.2.bind).setReg Od.progSteps n e.2.steps.length
      (h.setReg Od.progDigest n (sha384Nat (e.2.steps.flatMap stepBytes))).setReg Od.progState n 2
    | none => h) h

/-- Firmware after a hub-only reset: the store is KEPT, keys, programs, the binding lock, RUN (R330, R380). -/
def Hw.firmwareResume (h : Hw) : Hw :=
  let h := ((h.setReg Od.dictStoreCheck 0 1).setReg Od.dictState 0 1).rebuildPrograms
  let h := (List.range 16).foldl (fun h p => h.resumePart p) h
  let h := { h with sec.resume := [], req.seqWin := [], req.seqLive := [] }
  (h.setReg Od.mbBindingLock 0 1).setReg Od.bootStage 0 2

/-- Firmware after a cold start: markers, stacks with too many FAILED pseudo-channels, LOAD (R140, R289, R375). -/
def Hw.firmwareCold (h : Hw) : Hw :=
  let h := h.clearMarkers
  let h := (List.range 16).foldl (fun h s => if h.reg Od.stackState s = 1 then h.failCount s else h) h
  h.setReg Od.bootStage 0 3

/-- STEWARD_RELEASE (R375). -/
def execStewardRelease (s : State) : Host.Outcome State Fault Refusal :=
  s.on (fun h =>
    if !h.stewardsMayRun then h
    else
      let h := { h with boot.stewardsRun := true }
      if h.boot.cold then h.firmwareCold else h.firmwareResume)

/-! ### Port release (R112, R378) -/

/-- Do all the release conditions hold. -/
def Hw.portsMayOpen (h : Hw) : Bool :=
  h.boot.pwrok && h.boot.tshutN && h.boot.hubRstN && h.boot.stewardsRun && !h.boot.portsReleased && decide (h.reg Od.dictState = 1) &&
    h.mem.ppr.isEmpty && decide (h.reg Od.mbBindingLock = 1) &&
    (!h.isCascade || decide (h.reg Od.cascadeState = 3 ∨ h.reg Od.cascadeState = 2 ∨ h.reg Od.cascadeState = 4))

/-- PORT_RELEASE (R5, R378): the enabled ports of the variant become UP, START_UP begins, the time since release is reported. -/
def execPortRelease (s : State) : Host.Outcome State Fault Refusal :=
  s.on (fun h =>
    if !h.portsMayOpen then h
    else
      let h := (List.range (min 32 (4 * h.reg Od.hubVariant))).foldl (fun h n => if h.reg Od.portEnable n = 1 then h.openPort n else h) { h with boot.portsReleased := true }
      let h := (h.setMode 1).setTimer Tm.startup 0 (h.now + h.reg Od.svcStartupMs * 1000000)
      (h.setReg Od.bootReleaseMs 0 (((h.now : Int) - h.boot.releasedAt).toNat / 1000000)).setReg Od.bootStage 0 5)

end Sys2Proof.Machine
end

