-- ==== Sys2Proof/Machine/Commands.lean ====
section
/-! DEFINITION. The rows that are a write of one command or field of the dictionary by an actor: each is carried out where the
actor holds the right, and its object's own rule decides what it does (DictWrite). -/

namespace Sys2Proof.Machine

/-- Row REQ_STATE_ACTIVE (R59). -/
def execReqStateActive (who : Actor) (requester : BitVec 12) (s : State) : Host.Outcome State Fault Refusal :=
  s.on (fun h => h.dictWrite who Od.reqState requester.toNat 1)

/-- Row REQ_STATE_RESET (R59, R62). -/
def execReqStateReset (who : Actor) (requester : BitVec 12) (s : State) : Host.Outcome State Fault Refusal :=
  s.on (fun h => h.dictWrite who Od.reqState requester.toNat 2)

/-- Row REQ_STATE_DEAD (R59, R62). -/
def execReqStateDead (who : Actor) (requester : BitVec 12) (s : State) : Host.Outcome State Fault Refusal :=
  s.on (fun h => h.dictWrite who Od.reqState requester.toNat 3)

/-- Row REQ_STATE_ABSENT (R59, R62). -/
def execReqStateAbsent (who : Actor) (requester : BitVec 12) (s : State) : Host.Outcome State Fault Refusal :=
  s.on (fun h => h.dictWrite who Od.reqState requester.toNat 0)

/-- Row SERVICE_MODE_WRITE_NORMAL (R112). -/
def execServiceModeWriteNormal (who : Actor) (s : State) : Host.Outcome State Fault Refusal :=
  s.on (fun h => h.dictWrite who Od.serviceMode 0 0)

/-- Row SERVICE_MODE_WRITE_TEST (R112). -/
def execServiceModeWriteTest (who : Actor) (s : State) : Host.Outcome State Fault Refusal :=
  s.on (fun h => h.dictWrite who Od.serviceMode 0 2)

/-- Row WRITE_SPLIT (R126). -/
def execWriteSplit (who : Actor) (s : State) : Host.Outcome State Fault Refusal :=
  s.on (fun h => h.dictWrite who Od.testCommand 0 1)

/-- Row READ_RAW (R126). -/
def execReadRaw (who : Actor) (s : State) : Host.Outcome State Fault Refusal :=
  s.on (fun h => h.dictWrite who Od.testCommand 0 2)

/-- Row READ_DECODED (R126). -/
def execReadDecoded (who : Actor) (s : State) : Host.Outcome State Fault Refusal :=
  s.on (fun h => h.dictWrite who Od.testCommand 0 3)

/-- Row TEST_END (R126). -/
def execTestEnd (who : Actor) (s : State) : Host.Outcome State Fault Refusal :=
  s.on (fun h => h.dictWrite who Od.testCommand 0 4)

/-- Row RETIRE_PAGE (R138). -/
def execRetirePage (who : Actor) (dpa : BitVec 64) (s : State) : Host.Outcome State Fault Refusal :=
  s.on (fun h => h.dictWrite who Od.retirePage 0 dpa.toNat)

/-- Row RETIRE_CLEAR (R138). -/
def execRetireClear (who : Actor) (stack : BitVec 8) (s : State) : Host.Outcome State Fault Refusal :=
  s.on (fun h => h.dictWrite who Od.retireClear 0 stack.toNat)

/-- Row ACCEPT_ALL (R149). -/
def execAcceptAll (who : Actor) (part : PartIx) (s : State) : Host.Outcome State Fault Refusal :=
  s.on (fun h => h.dictWrite who Od.cohLostAccept part.val 1)

/-- Row PROG_BEGIN (R165). -/
def execProgBegin (who : Actor) (prog : Fin 128) (s : State) : Host.Outcome State Fault Refusal :=
  s.on (fun h => h.dictWrite who Od.progCommand prog.val 1)

/-- Row COMMIT (R165, R166). -/
def execCommit (who : Actor) (prog : Fin 128) (s : State) : Host.Outcome State Fault Refusal :=
  s.on (fun h => h.dictWrite who Od.progCommand prog.val 2)

/-- Row DELETE (R165). -/
def execDelete (who : Actor) (prog : Fin 128) (s : State) : Host.Outcome State Fault Refusal :=
  s.on (fun h => h.dictWrite who Od.progCommand prog.val 3)

/-- Row PROG_STEP_WRITE (R165). -/
def execProgStepWrite (who : Actor) (prog : Fin 128) (word : BitVec 128) (s : State) : Host.Outcome State Fault Refusal :=
  s.on (fun h => h.dictWrite who Od.progStep prog.val word.toNat)

/-- Row ABORT_RUNNING (R185). -/
def execAbortRunning (who : Actor) (e : EngIx) (s : State) : Host.Outcome State Fault Refusal :=
  s.on (fun h => h.dictWrite who Od.engCommand e.val 1)

/-- Row ABORT_ALL (R185). -/
def execAbortAll (who : Actor) (e : EngIx) (s : State) : Host.Outcome State Fault Refusal :=
  s.on (fun h => h.dictWrite who Od.engCommand e.val 2)

/-- Row OPEN (R217). -/
def execOpenSession (who : Actor) (session : Fin 256) (s : State) : Host.Outcome State Fault Refusal :=
  s.on (fun h => h.dictWrite who Od.redCommand session.val 1)

/-- Row ABORT (R216). -/
def execAbort (who : Actor) (session : Fin 256) (s : State) : Host.Outcome State Fault Refusal :=
  s.on (fun h => h.dictWrite who Od.redCommand session.val 2)

/-- Row CLOSE (R216). -/
def execClose (who : Actor) (session : Fin 256) (s : State) : Host.Outcome State Fault Refusal :=
  s.on (fun h => h.dictWrite who Od.redCommand session.val 3)

/-- Row EXCLUDE (R228). -/
def execExclude (who : Actor) (session : Fin 256) (s : State) : Host.Outcome State Fault Refusal :=
  s.on (fun h => h.dictWrite who Od.redCommand session.val 4)

/-- Row REARM (R216). -/
def execRearm (who : Actor) (session : Fin 256) (s : State) : Host.Outcome State Fault Refusal :=
  s.on (fun h => h.dictWrite who Od.redCommand session.val 5)

/-- Row LEASE_GRANT (R255). -/
def execLeaseGrant (who : Actor) (value : BitVec 128) (s : State) : Host.Outcome State Fault Refusal :=
  s.on (fun h => h.dictWrite who Od.leaseGrant 0 value.toNat)

/-- Row PAIR_EPOCH_WRITE (R255). -/
def execPairEpochWrite (who : Actor) (epoch : BitVec 32) (s : State) : Host.Outcome State Fault Refusal :=
  s.on (fun h => h.dictWrite who Od.pairEpoch 0 epoch.toNat)

/-- Row FORM (R250, R256). -/
def execForm (who : Actor) (s : State) : Host.Outcome State Fault Refusal :=
  s.on (fun h => h.dictWrite who Od.pairCommand 0 1)

/-- Row REJOIN (R256). -/
def execRejoin (who : Actor) (s : State) : Host.Outcome State Fault Refusal :=
  s.on (fun h => h.dictWrite who Od.pairCommand 0 2)

/-- Row RELINQUISH (R256). -/
def execRelinquish (who : Actor) (s : State) : Host.Outcome State Fault Refusal :=
  s.on (fun h => h.dictWrite who Od.pairCommand 0 3)

/-- Row CREATE (R37, R38). -/
def execCreate (who : Actor) (part : PartIx) (s : State) : Host.Outcome State Fault Refusal :=
  s.on (fun h => h.dictWrite who Od.partCommand part.val 1)

/-- Row GROW (R37, R38). -/
def execGrow (who : Actor) (part : PartIx) (s : State) : Host.Outcome State Fault Refusal :=
  s.on (fun h => h.dictWrite who Od.partCommand part.val 2)

/-- Row RELEASE (R37, R39). -/
def execRelease (who : Actor) (part : PartIx) (s : State) : Host.Outcome State Fault Refusal :=
  s.on (fun h => h.dictWrite who Od.partCommand part.val 3)

/-- Row KEY_INSTALL (R277). -/
def execKeyInstall (who : Actor) (part : PartIx) (key : BitVec 512) (s : State) : Host.Outcome State Fault Refusal :=
  s.on (fun h => h.dictWrite who Od.keyInstall part.val key.toNat)

/-- Row PROVISION (R262). -/
def execProvision (who : Actor) (s : State) : Host.Outcome State Fault Refusal :=
  s.on (fun h => h.dictWrite who Od.lcCommand 0 1)

/-- Row DEPLOY (R262). -/
def execDeploy (who : Actor) (s : State) : Host.Outcome State Fault Refusal :=
  s.on (fun h => h.dictWrite who Od.lcCommand 0 2)

/-- Row RETURN (R262). -/
def execReturnLc (who : Actor) (s : State) : Host.Outcome State Fault Refusal :=
  s.on (fun h => h.dictWrite who Od.lcCommand 0 3)

/-- Row SCRAP (R262). -/
def execScrap (who : Actor) (s : State) : Host.Outcome State Fault Refusal :=
  s.on (fun h => h.dictWrite who Od.lcCommand 0 4)

/-- Row WK_KEY_WRITE (R280). -/
def execWkKeyWrite (who : Actor) (slot : Fin 256) (key : BitVec 256) (s : State) : Host.Outcome State Fault Refusal :=
  s.on (fun h => h.dictWrite who Od.wkKey slot.val key.toNat)

/-- Row DESTROY (R280). -/
def execDestroy (who : Actor) (slot : Fin 256) (s : State) : Host.Outcome State Fault Refusal :=
  s.on (fun h => h.dictWrite who Od.wkCommand slot.val 1)

/-- Row SEC_CONSENT_DEBUG_WRITE (R389): the write of 0. -/
def execSecConsentDebugWrite (who : Actor) (part : PartIx) (s : State) : Host.Outcome State Fault Refusal :=
  s.on (fun h => h.dictWrite who Od.secConsentDebug part.val 0)

/-- Row TAMPER_ACK (R292). -/
def execTamperAck (who : Actor) (s : State) : Host.Outcome State Fault Refusal :=
  s.on (fun h => h.dictWrite who Od.tamperAck 0 1)

/-- Row ROUTE_ACK (R349). -/
def execRouteAck (who : Actor) (route : Fin 32) (s : State) : Host.Outcome State Fault Refusal :=
  s.on (fun h => h.dictWrite who Od.routeAck route.val 1)

/-- Row WM_REARM (R353). -/
def execWmRearm (who : Actor) (w : Fin 1280) (s : State) : Host.Outcome State Fault Refusal :=
  s.on (fun h => h.dictWrite who Od.wmCommand w.val 1)

/-- Row WM_CLEAR (R353). -/
def execWmClear (who : Actor) (w : Fin 1280) (s : State) : Host.Outcome State Fault Refusal :=
  s.on (fun h => h.dictWrite who Od.wmCommand w.val 2)

/-- Row FIX_CLEAR (R357). -/
def execFixClear (who : Actor) (g : PcIx) (s : State) : Host.Outcome State Fault Refusal :=
  s.on (fun h => h.dictWrite who Od.fixCommand g.val 1)

/-- Row SEL_CLEAR (R359). -/
def execSelClear (who : Actor) (n : Fin 256) (s : State) : Host.Outcome State Fault Refusal :=
  s.on (fun h => h.dictWrite who Od.selCommand n.val 1)

/-- Row FREEZE (R363). -/
def execFreeze (who : Actor) (s : State) : Host.Outcome State Fault Refusal :=
  s.on (fun h => h.dictWrite who Od.cntCommand 0 1)

/-- Row UNFREEZE (R363). -/
def execUnfreeze (who : Actor) (s : State) : Host.Outcome State Fault Refusal :=
  s.on (fun h => h.dictWrite who Od.cntCommand 0 2)

/-- Row SNAPSHOT (R363). -/
def execSnapshot (who : Actor) (s : State) : Host.Outcome State Fault Refusal :=
  s.on (fun h => h.dictWrite who Od.cntCommand 0 3)

/-- Row SMP_SEED_WRITE (R366). -/
def execSmpSeedWrite (who : Actor) (seed : BitVec 32) (s : State) : Host.Outcome State Fault Refusal :=
  s.on (fun h => h.dictWrite who Od.smpSeed 0 seed.toNat)

/-- Row PORT_RESET (R384). -/
def execPortReset (who : Actor) (port : PortIx) (s : State) : Host.Outcome State Fault Refusal :=
  s.on (fun h => h.dictWrite who Od.portCommand port.val 1)

/-- A selectable counter's source and instance written together (R359, R361). -/
def Hw.retarget (h : Hw) (who : Actor) (n source inst : Nat) : Hw :=
  if h.mayWrite who Od.selSource n source && h.mayWrite who Od.selInstance n inst then
    let h := (h.writeItem who Od.selSource n 0 [source] (some inst)).2
    (h.writeItem who Od.selInstance n 0 [inst]).2
  else h

/-- Row SEL_SOURCE_WRITE (R359). -/
def execSelSourceWrite (who : Actor) (n : Fin 256) (source : BitVec 16) (inst : BitVec 16) (s : State) :
    Host.Outcome State Fault Refusal :=
  s.on (fun h => h.retarget who n.val source.toNat inst.toNat)

end Sys2Proof.Machine
end

