-- ==== Sys2Proof/Machine/Debug.lean ====
section
/-! DEFINITION. The debug port: TAP instructions, unlock, peeks, wrappers, halts (R284, R386 to R389). -/

namespace Sys2Proof.Machine

/-- Change the debug port. -/
def Hw.setTap (h : Hw) (f : Tap → Tap) : Hw := { h with tap := f h.tap }

/-- Is the level one of OPERATOR, OPEN and RETURNED_OPEN. -/
def Hw.dbgReach (h : Hw) : Bool := decide (h.reg Od.dbgLevel ≠ Dbg.locked)

/-- Is a TAP instruction permitted at this level (R386); the halt of R389 stands with its command. -/
def Hw.tapPermits (h : Hw) (code : Nat) : Bool :=
  match code with
  | 0x02 => true
  | 0xff => true
  | 0x10 => decide (h.reg Od.dbgLevel = Dbg.locked ∧ (h.reg Od.lcState = 1 ∨ h.reg Od.lcState = 2))
  | c => ([0x00, 0x01, 0x11, 0x12, 0x14] : List Nat).contains c && h.dbgReach

/-- Select an instruction; one that is not permitted selects BYPASS. -/
def Hw.tapSelect (h : Hw) (code : Nat) (ok : Bool) : Hw := h.setTap (fun t => { t with ir := if ok then code else 0xff, out := [] })

/-- Select an instruction and, where it is permitted, run what it does. A block without power has no TAP. -/
def Hw.tapRun (h : Hw) (code : Nat) (ok : Bool) (f : Hw → Hw) : Hw :=
  if h.boot.pwrok then (if ok then f (h.tapSelect code true) else h.tapSelect code false) else h

/-- EXTEST (R386): every port is FENCED while it is selected (`Hw.fenced`). -/
def execExtest (s : State) : Host.Outcome State Fault Refusal := s.on (fun h => h.tapRun 0x00 (h.tapPermits 0x00) (fun h => h))

/-- SAMPLE/PRELOAD (R386). -/
def execSamplePreload (s : State) : Host.Outcome State Fault Refusal := s.on (fun h => h.tapRun 0x01 (h.tapPermits 0x01) (fun h => h))

/-- The device identification: revision, 8A08h, manufacturer, 1 (R386). -/
def idcodeWord : BitVec 32 := Config.revision ++ (0x8a08#16 ++ (Config.manufacturer ++ 1#1))

/-- IDCODE (R386). -/
def execIdcode (s : State) : Host.Outcome State Fault Refusal :=
  s.on (fun h => h.tapRun 0x02 true (fun h => h.setTap (fun t => { t with out := bytesOf idcodeWord 4 })))

/-- The key that an unlock shifts in, 04h ‖ X ‖ Y. -/
def unlockKey (x y : Nat) : List Byte := 4 :: (natBytesBE x 48 ++ natBytesBE y 48)

/-- Does an unlock verify: a key of op_keys, and its signature over SHA-384(nonce ‖ id_public) (R387). -/
def Hw.unlocks (h : Hw) (nonce : BitVec 384) (x y r s : Nat) : Bool :=
  h.opKey (sha384Nat (unlockKey x y)) && ecdsaVerify x y r s (sha384 (bytesOf nonce 48 ++ h.octets Od.idPublic 0 0 97))

/-- The two halves of an unlock: a nonce is shifted out, unless a failed attempt bars it; the answer to it raises the level
to OPERATOR and is journalled, or is refused and bars a new nonce for 1 s (R387). -/
def Hw.unlock (h : Hw) (x y r s : Nat) : Hw :=
  match h.tap.nonce with
  | none =>
    if h.now < h.tap.barredUntil then h
    else
      let (n, h) := h.random 384
      h.setTap (fun t => { t with nonce := some n, out := bytesOf n 48 })
  | some n =>
    if h.unlocks n x y r s then
      (((h.setTap (fun t => { t with nonce := none })).setReg Od.dbgLevel 0 Dbg.operator).setReg Od.dbgUnlocked 0 1).journalNote 9
    else h.setTap (fun t => { t with nonce := none, barredUntil := h.now + 1000000000 })

/-- DBG_UNLOCK (R387). -/
def execDbgUnlock (pubX pubY sigR sigS : Nat) (s : State) : Host.Outcome State Fault Refusal :=
  s.on (fun h => h.tapRun 0x10 (h.tapPermits 0x10) (fun h => h.unlock pubX pubY sigR sigS))

/-- The status and data of a peek of `words` 8-byte words (R320, R388): as many elements as fit, from `first`; the last word
is filled with zeros. -/
def Hw.peekBytes (h : Hw) (r : Reg) (i first words : Nat) : Nat × List Byte × Hw :=
  match h.shape r i with
  | none => (St.malformed, [], h)
  | some (total, size) =>
    let n := min (total - first) (8 * words / max 1 size)
    if words = 0 ∨ 512 < words ∨ n = 0 then (St.malformed, [], h)
    else match h.readObject .debug r i first n with
      | (some b, h) => (St.ok, b ++ List.replicate (8 * words - b.length) 0, h)
      | (none, h) => (St.unavailable, [], h)

/-- DICT_PEEK (R388): the address word picks the object; status byte and data are shifted out, nothing else changes. -/
def execDictPeek (address : BitVec 64) (s : State) : Host.Outcome State Fault Refusal :=
  s.on (fun h => h.tapRun 0x11 (h.tapPermits 0x11) (fun h =>
    let f (lo n : Nat) : Nat := (address.extractLsb' lo n).toNat
    let (st, data, h) := h.peekBytes ⟨f 48 16, f 28 8⟩ (f 36 12) (f 16 12) (f 0 16)
    h.setTap (fun t => { t with out := BitVec.ofNat 8 (st % 16) :: data })))

/-- May the debug port reach the wrappers of a stack: it is in no partition, or its partition consents (R283, R388). -/
def Hw.wrapperOpen (h : Hw) (s : Nat) : Bool := h.debugConsent (h.partOf s).toList

/-- WIR_SELECT (R386, R388): the wrapper of a slice, where it is open. -/
def execWirSelect (stack : StackIx) (st : State) : Host.Outcome State Fault Refusal :=
  st.on (fun h => h.tapRun 0x12 (h.tapPermits 0x12) (fun h =>
    h.setTap (fun t => { t with wir := if h.wrapperOpen stack.val then some stack.val else none })))

/-- May a core be halted: OPEN or RETURNED_OPEN; OPERATOR while every partition in use consents (R389). -/
def Hw.mayHalt (h : Hw) : Bool :=
  h.debugOpen || (decide (h.reg Od.dbgLevel = Dbg.operator) && h.debugConsent ((List.range 16).filter (fun p => h.inUse p)))

/-- STEWARD_HALT (R389). -/
def execStewardHalt (core : Fin 2) (s : State) : Host.Outcome State Fault Refusal :=
  s.on (fun h => h.tapRun 0x13 h.mayHalt (fun h => h.setBit Od.dbgHalted 0 core.val true))

/-- STEWARD_RESUME (R386, R389): the core runs again; what waited for a core is carried out. -/
def execStewardResume (core : Fin 2) (s : State) : Host.Outcome State Fault Refusal :=
  s.on (fun h => h.tapRun 0x14 (h.tapPermits 0x14) (fun h => (h.setBit Od.dbgHalted 0 core.val false).runStalled))

/-- Is a code an instruction of the table that is permitted: its own command runs it. -/
def Hw.tapKnown (h : Hw) (code : Nat) : Bool :=
  (([0x00, 0x01, 0x02, 0x10, 0x11, 0x12, 0x14] : List Nat).contains code && h.tapPermits code) || (decide (code = 0x13) && h.mayHalt)

/-- BYPASS (R386): code FFh, and every instruction that is not permitted or not in the table. -/
def execBypass (code : BitVec 8) (s : State) : Host.Outcome State Fault Refusal :=
  s.on (fun h => if h.tapKnown code.toNat then h else h.tapRun 0xff true (fun h => h))

/-- TAP_RESET (R386): Test-Logic-Reset, which selects IDCODE; the level and any halt stay. -/
def execTapReset (s : State) : Host.Outcome State Fault Refusal :=
  s.on (fun h => h.setTap (fun t => { t with ir := 0x02, nonce := none, wir := none, out := [] }))

end Sys2Proof.Machine
end

