-- ==== Sys2Proof/Machine/Mirror.lean ====
section
/-! DEFINITION. The standby's side of a mirrored pair: what a mirror message does there (R252, R258). -/

namespace Sys2Proof.Machine

/-- A mirrored write, through the standby's own write path. -/
def Hw.mirrorWrite (h : Hw) (dpa : Nat) (data : List Byte) (mask : List Bool) (marked : List Nat)
    (window : Option (BitVec 12 × BitVec 16 × BitVec 4)) : Hw :=
  let psn := (List.range 4).map (fun l => marked.contains l)
  let h := h.writeBytes (dpaStack dpa) (dpaOff dpa / 256 * 256) data mask psn { cls := 1, attr := none } false
  match window with
  | some (r, q, st) => h.setWin r.toNat q.toNat (winBits (q.toNat / 1024) Win.done st.toNat)
  | none => h

/-- A mirrored dictionary write: applied verbatim, without range checks; a command is carried out. -/
def Hw.mirrorSet (h : Hw) (r : Reg) (i e v : Nat) : Hw :=
  match fieldOf r with
  | none => h
  | some f =>
    if f.cmd then h.command .firmware r i v
    else if r = Od.reqState then (if h.reg r i = v then h else h.writeReqState .firmware i v)
    else if r = Od.serviceMode then h.setMode v
    else if actsOn r then h.store .firmware r i e v
    else if r = Od.frameMap then (h.setReg r i v).setReg Od.frameLongestC0Gap i (frameGap v)
    else h.setElem r i e v

/-- The standby's fill of a partition begins under a key; under another key than before it starts afresh. -/
def Hw.refill (h : Hw) (p : Nat) (old : Option (BitVec 512)) (key : BitVec 512) : Hw :=
  if h.reg Od.partState p = 1 then h.setReg Od.partState p 2
  else if old = some key then h
  else (h.members p).foldl (fun h s => h.fillStack s (h.fillFor p s key)) h

/-- A mirrored partition key: the standby's fill begins under it. -/
def Hw.mirrorKey (h : Hw) (p : Nat) (key : BitVec 512) : Hw :=
  ({ h with sec.memKeys := Table.put h.sec.memKeys p key }.setReg Od.secKeyInstalled p 1).refill p (Table.look h.sec.memKeys p) key

/-- One sector of a resync copy: ciphertext and marks, stored below encryption; after the last one the partition is SYNCED. -/
def Hw.mirrorCopy (h : Hw) (s off : Nat) (data : List Byte) (marked : List Nat) : Hw :=
  let at_ := off / 256 * 256
  let h := (List.range 8).foldl (fun h j =>
    h.putRaw s (h.sectorCol s at_ j) (markWord (marked.contains (j / 2)) ((data.drop (32 * j)).take 32))) h
  match h.partOf s with
  | none => h
  | some p =>
    let ms := h.members p
    if h.reg Od.stackCapacity s ≤ at_ + 256 then
      match ms.find? (fun t => decide (s < t)) with
      | some t => ((h.setReg Od.syncState p 1).setReg Od.syncStack p t).setReg Od.syncHwm p 0
      | none => (h.setReg Od.syncState p 2).setReg Od.syncStack p 0xff
    else ((h.setReg Od.syncState p 1).setReg Od.syncStack p s).setReg Od.syncHwm p (at_ + 256)

/-- What a message asks. -/
def Hw.mirrorApply (h : Hw) : MirrorMsg → Hw
  | .write dpa data mask marked window => h.mirrorWrite dpa.toNat data mask marked window
  | .dict index inst sub elem value => h.mirrorSet ⟨index.toNat, sub.toNat⟩ inst.toNat elem.toNat value
  | .launchRecord r q ended =>
    let x := (r.toNat, q.toNat)
    { h with pair.launchRecs := if ended then h.pair.launchRecs.erase x else h.pair.launchRecs ++ [x] }
  | .key p key => h.mirrorKey p.val key
  | .weightKey n p key =>
    { h with car.weightKeys := Table.put h.car.weightKeys n.val key }.setReg Od.wkPartition n.val p.val
  | .copy s off data marked => h.mirrorCopy s.val off.toNat data marked

/-- Row MIRROR_MESSAGE: the standby applies the message and reports it accepted; in any other pair state it is ignored. -/
def execMirrorMessage (m : MirrorMsg) (s : State) : Host.Outcome State Fault Refusal :=
  s.on (fun h =>
    if h.reg Od.pairState = 7 ∨ h.reg Od.pairState = 8 then
      let h := h.mirrorApply m
      let n := h.pair.mirrorDone + 1
      { h with pair.mirrorDone := n }.sendPeer Fk.control 4 (natBytes n 8)
    else h.ignoreEvent Od.pairState 0)

end Sys2Proof.Machine
end

