-- ==== Sys2Proof/Machine/Ports.lean ====
section
/-! DEFINITION. Port ingress, admission, the tracker, and port egress (R50 to R68, R141, R147, R169, R219, R326, R334, R335,
R366, R396). -/

namespace Sys2Proof.Machine

/-! ### Fields (R54, R55, R335) -/

/-- Data beats that a request brings: WR, WRP, ACW, ATM, LAUNCH, ODW and an MBX write (R50, R55). -/
def Rq.beats (r : Rq) : Nat :=
  if [2, 3, 4, 5, 6, 8].contains r.op || (r.op == 7 && r.subop == 1) then beatsOf r.len else 0

/-- The word count and the register of an MBX. -/
def mbxWords (r : Rq) : Nat := r.ext / 256 % 32
def mbxReg (r : Rq) : Nat := r.ext / 64 % 4

/-- Does an MBX keep the limits of R335. -/
def mbxFormed (r : Rq) : Bool :=
  let n := mbxWords r
  match mbxReg r, r.subop with
  | 0, 0 => decide (1 ≤ n ∧ n ≤ 16 ∧ r.len = 0)
  | 0, 1 => decide (1 ≤ n ∧ n ≤ 16 ∧ r.len = (n + 7) / 8 - 1)
  | 1, 0 => decide (n = 0 ∧ r.len = 0)
  | 1, 1 => decide (n = 0 ∧ r.len = 0)
  | 2, 0 => decide (n = 0 ∧ r.len = 0)
  | _, _ => false

/-- Is a launch descriptor well-formed (R169): a kind, an aligned base, a deadline, a range within its stack. -/
def descFormed (d : Desc) : Bool :=
  decide (d.kind = 0) ||
    decide (d.kind ≠ 3 ∧ d.base % 4096 = 0 ∧ d.deadline ≠ 0 ∧ dpaOff d.base + d.size * 4096 ≤ 2 ^ 37)

/-- The descriptors of a LAUNCH that carries any. -/
def rqDescs (r : Rq) : List Desc := if r.len = 3 then (launchDescs r.data).filter (fun d => decide (d.kind ≠ 0)) else []

/-- Bytes of a DPA read or write stay within one 4 KiB block (R44). -/
def blockFormed (r : Rq) : Bool := decide (r.addr % 64 = 0 ∧ r.addr % 4096 + r.bytes ≤ 4096)

/-- Admission step 1: opcode, length, subop, alignment, the 4 KiB rule, a sequence number where one is required. -/
def Hw.formed (h : Hw) (r : Rq) : Bool :=
  match r.op with
  | 1 => blockFormed r
  | 2 => blockFormed r
  | 3 => blockFormed r && decide (r.len < 4)
  | 4 => decide (r.len < 4) && r.seq.isSome
  | 5 => decide (r.len = 0 ∧ r.subop < 3) && r.seq.isSome && decide (r.addr % (if r.subop = 2 then 16 else 8) = 0)
  | 6 => decide ((r.len = 1 ∨ r.len = 3) ∧ (r.subop < 4 ∨ r.subop = 15)) && r.seq.isSome && (rqDescs r).all descFormed
  | 7 => mbxFormed r
  | 8 => h.odwOk r
  | 9 => decide (r.subop < 2)
  | _ => false

/-- Admission step 3 (R33): a stack that does not exist or is ABSENT, an offset at or above its capacity. -/
def Hw.unmapped (h : Hw) (r : Rq) : Bool :=
  let s := dpaStack r.addr
  if [1, 2, 3, 5, 9].contains r.op then !h.exists s || decide (h.reg Od.stackCapacity s ≤ dpaOff r.addr)
  else r.op == 6 && !h.exists s

/-- A requester's rights in partition `p` (R56 step 4, R58): ACTIVE or DEGRADED, its bits, and secure where it is asked. -/
def Hw.reach (h : Hw) (r : Rq) (p : Nat) (wr : Bool) : Bool :=
  decide (p < 16) && decide (h.reg Od.partState p = 3 ∨ h.reg Od.partState p = 4) && h.bit Od.reqPartitions r.requester p &&
    (!wr || h.bit Od.reqWrite r.requester p) && (r.secure || !h.bit Od.reqSecure r.requester p)

/-- Step 4 of a LAUNCH (R169). -/
def Hw.launchRights (h : Hw) (r : Rq) : Bool :=
  let n := r.ext / 2 ^ 13 % 128
  let bind := h.reg Od.progBind n
  let inBind (s : Nat) : Bool := match h.partOf s with
    | some p => bind.testBit p
    | none => false
  decide (h.reg Od.progState n = 2 ∧ n < 0x70) && inBind (dpaStack r.addr) && (bitsOf bind).all (fun p => h.reach r p true) &&
    (rqDescs r).all (fun d => inBind (dpaStack d.base))

/-- Admission step 4. -/
def Hw.rights (h : Hw) (r : Rq) : Bool :=
  h.active r.requester && (match r.op with
    | 4 =>
      let n := r.ext / 4096 % 256
      decide (h.reg Od.redState n ≠ 0) && h.reach r (h.reg Od.redPartition n) true
    | 6 => h.launchRights r
    | 7 => h.mbAllowed (r.ext % 64) r.requester r.secure
    | 8 => h.adpForwards || h.odwRights r
    | _ =>
      let s := dpaStack r.addr
      match h.partOf s with
      | some p => h.reach r p (r.op != 1) && decide (dpaOff r.addr < h.visibleEnd p s)
      | none => false)

/-- The tests of an ACW between steps 4 and 5 (R219). -/
def Hw.acwFits (h : Hw) (r : Rq) : Bool :=
  let n := r.ext / 4096 % 256
  let c := r.addr % 2 ^ 32
  decide (c < h.chunkCount n ∧ r.ext % 4096 < h.reg Od.redContributors n ∧ r.bytes = h.inputLen n c)

/-- The class of a label (R108). -/
def Hw.classOf (h : Hw) (r : Rq) : Nat := h.reg Od.reqClassMap r.requester / 2 ^ (3 * r.label) % 8

/-! ### Refusals (R56, R57) -/

/-- The beats still to come of a request are discarded. -/
def Hw.dropBeats (h : Hw) (n uid : Nat) : Hw := h.setPort n { h.port n with beats := orphanBeats uid (h.port n).beats }

/-- A refusal that is sent at once. -/
def Hw.refuse (h : Hw) (r : Rq) (status : Nat) (rep : Bool := false) : Hw := (h.dropBeats r.port r.uid).reply r status rep (h.classOf r)

/-- A DENIED enters the refusal delay line: it leaves 2 µs after port ingress. -/
def Hw.deny (h : Hw) (r : Rq) : Hw :=
  let h := (h.dropBeats r.port r.uid).addReg Od.reqRefusals r.requester
  let h := h.countSel 4 r.port
  if h.reg Od.portState r.port = 1 then
    let q := h.port r.port
    let u : OutUnit := { op := r.op, requester := r.requester, tag := r.tag, status := St.denied, cls := h.classOf r }
    let h := h.setPort r.port { q with refusals := q.refusals ++ [(r.start + 2000, u)] }
    h.setReg Od.portRefusalLine r.port (q.refusals.length + 1)
  else h

/-! ### Tracker entries (R61) -/

/-- Is one of the 65,536 tracker entries free. -/
def Hw.trkFree (h : Hw) : Bool := decide ((h.req.trackers.filter (fun e => e.2.rq.op != 9)).length < 65536)

/-- Does a repeat of this request execute again (R66, R326): an RD, or an ODW read. -/
def Rq.rereads (r : Rq) : Bool := r.op == 1 || (r.op == 8 && r.subop == 0)

/-- Is stack `s` on the other hub of a cascade (R31). -/
def Hw.otherHub (h : Hw) (s : Nat) : Bool := h.isCascade && decide ((s < 8) = (h.reg Od.cascadeRole = 2))

/-- A tracker entry waits in its stack ingress queue (R99); for a stack of the other hub it crosses SP0 and waits there, with
source span (R247). -/
def Hw.queueUp (h : Hw) (uid s : Nat) : Hw :=
  match h.trk uid with
  | some t =>
    let h := h.setTrk uid { t with phase := .queued, stack := some s }
    if h.otherHub s then (h.enqueueArb uid s 32 t.cls).sendSpan 0 Fk.headers 0 t.rq.header
    else h.enqueueArb uid s t.rq.port t.cls
  | none => h

/-- An admitted ACW (R219, after step 5). -/
def Hw.dispatchAcw (h : Hw) (uid : Nat) (t : Tracker) : Hw :=
  let n := t.rq.ext / 4096 % 256
  if 3 ≤ h.reg Od.redState n ∨ h.reg Od.redState n = 0 ∨ (h.reg Od.redExcluded n).testBit (t.rq.ext % 4096) = true then h.complete uid St.aborted
  else if h.reg Od.redState n = 1 then h.parkAcw (t.contribution uid) (h.accStack n)
  else h.queueUp uid (h.accStack n)

/-- A request whose tracker entry is allocated and whose data is whole goes on its way. -/
def Hw.dispatchNew (h : Hw) (uid : Nat) (t : Tracker) : Hw :=
  let r := t.rq
  if r.parBad ∨ (4 < r.op ∧ r.psn.any id = true) then
    if r.op = 5 then h.complete uid St.poison (List.replicate 64 0) [true, true] else h.complete uid St.poison
  else match r.op with
  | 4 => h.dispatchAcw uid t
  | 6 => if h.failed (dpaStack r.addr) then h.complete uid St.aborted else h.queueUp uid (dpaStack r.addr)
  | 7 => ((h.setTrk uid { t with phase := .mailbox }).charge r.requester r.bytes).mbServe uid
  | 8 => ((h.setTrk uid { t with phase := .dict }).charge r.requester 64).odwServe uid
  | _ => h.queueUp uid (dpaStack r.addr)

/-- A repeat that holds a tracker entry (R66): it waits for its original, reads again, or answers the stored status. -/
def Hw.dispatchRepeat (h : Hw) (uid : Nat) (t : Tracker) : Hw :=
  let r := t.rq
  let w := h.win r.requester (r.seq.getD 0)
  let same := decide (winHi w = (r.seq.getD 0) / 1024 % 64)
  if same && decide (winState w = Win.inFlight) then h.setTrk uid { t with phase := .waitOriginal }
  else if same && decide (winState w = Win.done) then
    if r.rereads then h.dispatchNew uid { t with status := winStatus w } else h.complete uid (winStatus w)
  else h.complete uid St.aborted

/-- A tracker entry with all its data goes on. -/
def Hw.dispatch (h : Hw) (uid : Nat) : Hw :=
  match h.trk uid with
  | some t => if t.phase = .waitData then (if t.rq.isRepeat then h.dispatchRepeat uid t else h.dispatchNew uid t) else h
  | none => h

/-- The sampler's draw for a new tracker entry (R366). -/
def Hw.tagNew (h : Hw) (r : Rq) : Option Sample × Hw :=
  let x := lfsrStep h.lfsr
  let h := { h with lfsr := x }
  let hit := h.reg Od.smpEnable == 1 && h.reg Od.cntFrozen == 0 && x.toNat % 2 ^ h.reg Od.smpLog2 == 0
  (if hit then some { points := [some r.arrived, some h.now] ++ List.replicate 8 none } else none, h)

/-- The partition a request is for. -/
def Hw.partFor (h : Hw) (r : Rq) : Option Nat :=
  match r.op with
  | 4 => some (h.reg Od.redPartition (r.ext / 4096 % 256))
  | 7 => none
  | 8 => none
  | _ => h.partOf (dpaStack r.addr)

/-- Allocate a tracker entry (R61): the request's epoch, class and coherence mode are those of this moment (R62, R141); the
requester's first one gives it a home port (R58). -/
def Hw.allocTrk (h : Hw) (r : Rq) : Hw :=
  let q := r.requester
  let (smp, h) := h.tagNew r
  let h := { h with req.homes := if (Table.look h.req.homes q).isSome then h.req.homes else Table.put h.req.homes q r.port }
  let r := { r with epoch := h.reg Od.reqEpoch q, subop := if r.op = 1 then h.reg Od.cohMode q else r.subop }
  let t : Tracker := { rq := r, cls := h.classOf r, part := h.partFor r, stack := if [7, 8].contains r.op then none else some (dpaStack r.addr),
                       sample := smp }
  let h := (h.setTrk r.uid t).addReg Od.reqInflight q
  if r.beatsLeft = 0 then h.dispatch r.uid else h

/-! ### Admission steps 5 to 7 (R60, R61, R64 to R66) -/

/-- Step 7: a tracker entry, or the header is held in ingress. -/
def Hw.admitTrk (h : Hw) (r : Rq) : Hw :=
  if h.trkFree then h.allocTrk r
  else (h.setPort r.port { h.port r.port with held := some r }).countSel 6 0

/-- Step 6: below req_limit and behind no deferred request of its own, or deferred. -/
def Hw.admitLimit (h : Hw) (r : Rq) : Hw :=
  let q := h.port r.port
  if h.reg Od.reqInflight r.requester < h.reg Od.reqLimit r.requester ∧ q.deferred.all (fun x => x.requester != r.requester) = true then h.admitTrk r
  else
    let h := h.setPort r.port { q with deferred := q.deferred ++ [{ r with wasDeferred := true }] }
    (h.setReg Od.portDeferred r.port (q.deferred.length + 1)).countSel 5 r.port

/-- Step 5: the sequence window. -/
def Hw.admitWindow (h : Hw) (r : Rq) : Hw :=
  match r.seq with
  | none => h.admitLimit r
  | some s =>
    let q := r.requester
    let n := h.reg Od.reqSeqNewest q
    let w := h.win q s
    let live := (Table.look h.req.seqLive q).isSome
    let fwd := (s + 65536 - n) % 65536
    let ahead := !live || decide (1 ≤ fwd ∧ fwd ≤ 32767)
    let inside := live && decide ((n + 65536 - s) % 65536 ≤ 1023)
    let same := decide (winHi w = s / 1024 % 64)
    if !ahead && !inside then h.refuse r St.duplicate
    else if winState w = Win.empty ∨ (same = false ∧ winState w = Win.done) then
      let h := h.setWin q s (winBits (s / 1024) Win.inFlight 0)
      let h := if ahead then { h.setReg Od.reqSeqNewest q s with req.seqLive := Table.put h.req.seqLive q 1 } else h
      h.admitLimit r
    else if same = false then h.refuse r St.malformed
    else
      let r := { r with isRepeat := true }
      if winState w = Win.done ∧ r.rereads = false then h.refuse r (winStatus w) true
      else h.admitLimit r

/-- A BIRSP that passes steps 1 to 3 (R147): it waits in the queue of the stack its snoop ID names, holds no tracker entry and
takes no response. -/
def Hw.admitBirsp (h : Hw) (r : Rq) : Hw :=
  let s := r.tag / 4096
  if h.exists s then
    let t : Tracker := { rq := r, cls := h.classOf r, stack := some s, part := h.partOf s, phase := .queued }
    (h.setTrk r.uid t).enqueueArb r.uid s r.port (h.classOf r)
  else h.resolveBirsp r.tag r.requester r.addr r.subop

/-- Admission (R56), in its order. -/
def Hw.admission (h : Hw) (r : Rq) : Hw :=
  if !h.formed r then h.refuse r St.malformed
  else if h.fenced then h.refuse r St.fenced
  else if h.unmapped r then h.refuse r St.unmapped
  else if r.op = 9 then h.admitBirsp r
  else if !h.rights r then h.deny r
  else if r.op = 4 ∧ h.acwFits r = false then h.refuse r St.malformed
  else h.admitWindow r

/-! ### Port ingress (R51, R52, R60, R61) -/

/-- The next header that can leave port ingress: none while the deferred buffer is full or a header is held. A LAUNCH and an
ODW are tested with their data. -/
def Hw.ingressNext (h : Hw) (n : Nat) : Option Rq :=
  let q := h.port n
  if q.held.isSome ∨ 64 ≤ q.deferred.length then none
  else q.ingress.head?.filter (fun r => decide (r.beatsLeft = 0) || !([6, 8] : List Nat).contains r.op)

/-- Keep port_blocked_ns: credits are withheld while the deferred buffer is full or a header is held. -/
def Hw.noteBlock (h : Hw) (n : Nat) : Hw :=
  let q := h.port n
  match q.blockedSince, q.held.isSome || decide (64 ≤ q.deferred.length) with
  | none, true => h.setPort n { q with blockedSince := some h.now }
  | some t, false => (h.setPort n { q with blockedSince := none }).addReg Od.portBlockedNs n (h.now - t)
  | _, _ => h

/-- Headers leave port ingress, at most `fuel`. -/
def Hw.ingress (n : Nat) : Nat → Hw → Hw
  | 0, h => h
  | fuel + 1, h =>
    match h.ingressNext n with
    | some r =>
      let h := h.setPort n { h.port n with ingress := (h.port n).ingress.tail }
      Hw.ingress n fuel ((h.countSel 3 n).admission { r with start := h.now })
    | none => h

/-- Every header of a port that can leave ingress does. -/
def Hw.pumpIngress (h : Hw) (n : Nat) : Hw := (Hw.ingress n (h.port n).ingress.length h).noteBlock n

/-- Request data beats that a port's requests hold at the hub: neither forwarded nor discarded (R51). -/
def Hw.dataHeld (h : Hw) (n : Nat) : Nat :=
  let q := h.port n
  let of_ (r : Rq) : Nat := (r.data.length + 127) / 128
  let kept := (q.ingress ++ q.deferred ++ q.held.toList).map of_
  let trks := (h.req.trackers.filter (fun e => e.2.rq.port == n && decide (e.2.phase = .waitData ∨ e.2.phase = .queued))).map (fun e => of_ e.2.rq)
  kept.sum + trks.sum

/-- A header enters port ingress: it takes a request credit. -/
def Hw.headerIn (h : Hw) (r : Rq) : Hw :=
  let n := r.port
  if h.reg Od.portState n ≠ 1 then h
  else if 4096 ≤ (h.port n).ingress.length then (h.portError n).pumpIngress n
  else
    let q := h.port n
    let b := if r.beatsLeft = 0 then [] else [{ uid := some r.uid, left := r.beatsLeft : BeatWait }]
    let h := { h with req.uidNext := h.req.uidNext + 1 }
    (h.setPort n { q with ingress := q.ingress ++ [r], beats := q.beats ++ b }).pumpIngress n

/-- Row REQUEST_HEADER (R53, R56). -/
def execRequestHeader (port : PortIx) (header : BitVec 128) (parity : BitVec 16) (s : State) : Host.Outcome State Fault Refusal :=
  s.on (fun h =>
    let n := port.val
    let bad (i : Nat) : Bool := !headerParityOk header parity i
    let r := headerRq header n h.req.uidNext h.now
    if h.reg Od.portState n ≠ 1 then h
    else if bad 8 || bad 15 then ((h.addReg Od.portHdrParity n).portError n).pumpIngress n
    else if (List.range 16).any bad then
      let h := h.addReg Od.portHdrParity n
      if r.op = 2 ∨ r.op = 3 then
        h.setPort n { h.port n with beats := (h.port n).beats ++ [{ uid := none, left := beatsOf r.len }] }
      else h
    else h.headerIn { r with beatsLeft := r.beats })

/-- One data beat joins its request. -/
def Rq.addBeat (r : Rq) (data : List Byte) (mask : List Bool) (psn : List Bool) (bad : Bool) : Rq :=
  let n := r.bytes
  { r with data := (r.data ++ data).take n, mask := (r.mask ++ mask).take n, psn := (r.psn ++ psn).take (r.len + 1),
           parBad := r.parBad || bad, beatsLeft := r.beatsLeft - 1 }

/-- Change the request `uid` of port `n`, wherever the hub holds it. -/
def Hw.modRq (h : Hw) (n uid : Nat) (f : Rq → Rq) : Hw :=
  let g (r : Rq) : Rq := if r.uid = uid then f r else r
  let q := h.port n
  let h := h.setPort n { q with ingress := q.ingress.map g, deferred := q.deferred.map g, held := q.held.map g }
  h.modTrk uid (fun t => { t with rq := f t.rq })

/-- Row DATA_BEAT (R50, R52, R53): the beat belongs to the oldest header that still waits for data. -/
def execDataBeat (port : PortIx) (data : List Byte) (parity : BitVec 128) (mask : BitVec 128) (psn : BitVec 2) (last : Bool) (s : State) :
    Host.Outcome State Fault Refusal :=
  s.on (fun h =>
    let n := port.val
    if h.reg Od.portState n ≠ 1 then h
    else match (h.port n).beats with
    | [] => (h.portError n).pumpIngress n
    | b :: rest =>
      if 4096 ≤ h.dataHeld n ∨ last ≠ decide (b.left ≤ 1) then (h.portError n).pumpIngress n
      else
        let h := h.setPort n { h.port n with beats := if b.left ≤ 1 then rest else { b with left := b.left - 1 } :: rest }
        match b.uid with
        | none => h
        | some uid =>
          let h := h.modRq n uid (fun r => r.addBeat data ((List.range 128).map mask.getLsbD) [psn.getLsbD 0, psn.getLsbD 1] (!beatParityOk data parity))
          if b.left ≤ 1 then (h.dispatch uid).pumpIngress n else h)

/-! ### Requests with their data (the typed rows) -/

/-- A list brought to a length. -/
def fitTo {α : Type} (n : Nat) (d : α) (l : List α) : List α := (l ++ List.replicate (n - l.length) d).take n

/-- The header fields of a typed row. -/
def Hw.typed (h : Hw) (x : Hdr) (op : Nat) (len subop ext addr : Nat) : Rq :=
  { uid := h.req.uidNext, op := op, port := x.port.val, requester := x.requester.toNat, tag := x.tag.toNat,
    seq := x.seq.map (fun v => v.toNat), label := x.label.toNat, secure := x.secure, len := len % 64, subop := subop % 16,
    ext := ext % 2 ^ 20, addr := addr % 2 ^ 41, arrived := h.now }

/-- A request arrives whole: its header and its data beats. -/
def Hw.arrive (h : Hw) (r : Rq) (data : List Byte := []) (mask : List Bool := []) (psn : List Bool := []) : Hw :=
  let beats := r.beats
  if h.reg Od.portState r.port = 1 ∧ 4096 < h.dataHeld r.port + beats then (h.portError r.port).pumpIngress r.port
  else if beats = 0 then h.headerIn r
  else h.headerIn { r with data := fitTo r.bytes 0 data, mask := fitTo r.bytes true mask, psn := fitTo (r.len + 1) false psn }

/-- With nothing ahead of it, a request passes its stack ingress at once. -/
def Hw.passIdle (h : Hw) (uid : Nat) : Hw :=
  match h.trk uid with
  | some t =>
    let s := t.stack.getD 0
    if t.phase = .queued ∧ (h.arb s).next.isNone = true ∧ ((h.arb s).queues.flatMap (fun e => e.2)) = [uid] then (h.arbiterPick s).grantStart s
    else h
  | none => h

/-- With nothing ahead of it there either, a write, an ATM or a BIRSP is taken up by its slice, through the directory where its
partition is coherent. -/
def Hw.takeIdle (h : Hw) (s : Nat) : Hw :=
  if (h.inbox s).length = 1 then
    let h := h.sliceInput s
    if (h.dirIn s).length = 1 then h.directoryLookup s else h
  else h

/-- The stack a tracker entry has been forwarded to. -/
def Hw.forwardedTo (h : Hw) (uid : Nat) : Option Nat :=
  match h.trk uid with
  | some t => if t.phase = .forwarded then some (let s := t.stack.getD 0; if h.failed s then (h.proxyOf s).getD s else s) else none
  | none => none

/-- A typed request that its slice takes up. -/
def Hw.throughSlice (h : Hw) (uid : Nat) : Hw :=
  let h := h.passIdle uid
  match h.forwardedTo uid with
  | some s => h.takeIdle s
  | none => h

/-- Row RD (R44). -/
def execRd (h : Hdr) (len : BitVec 6) (addr : BitVec 41) (s : State) : Host.Outcome State Fault Refusal :=
  s.on (fun w => (w.arrive (w.typed h 1 len.toNat 0 0 addr.toNat)).passIdle w.req.uidNext)

/-- Row WR (R45). -/
def execWr (h : Hdr) (len : BitVec 6) (addr : BitVec 41) (data : List Byte) (psn : List Bool) (s : State) : Host.Outcome State Fault Refusal :=
  s.on (fun w => (w.arrive (w.typed h 2 len.toNat 0 0 addr.toNat) data [] psn).throughSlice w.req.uidNext)

/-- Row WRP (R45). -/
def execWrp (h : Hdr) (len : BitVec 6) (addr : BitVec 41) (data : List Byte) (mask : List Bool) (psn : List Bool) (s : State) :
    Host.Outcome State Fault Refusal :=
  s.on (fun w => (w.arrive (w.typed h 3 len.toNat 0 0 addr.toNat) data mask psn).throughSlice w.req.uidNext)

/-- Row ACW (R219): with nothing ahead of it, it is contributed. -/
def execAcw (h : Hdr) (len : BitVec 6) (session : BitVec 8) (contributor : BitVec 12) (chunk : BitVec 32) (data : List Byte)
    (psn : List Bool) (s : State) : Host.Outcome State Fault Refusal :=
  s.on (fun w =>
    let uid := w.req.uidNext
    let w := (w.arrive (w.typed h 4 len.toNat 0 (session.toNat * 4096 + contributor.toNat) chunk.toNat) data [] psn).passIdle uid
    match w.forwardedTo uid with
    | some st => if (Table.atD w.red.accIn (fun _ => []) st).length = 1 then w.takeContribution st else w
    | none => w)

/-- An ATM with its operand bytes. -/
def Hw.atm (w : Hw) (h : Hdr) (subop : Nat) (addr : BitVec 41) (operands : List Byte) : Hw :=
  (w.arrive (w.typed h 5 0 subop 0 addr.toNat) operands).throughSlice w.req.uidNext

/-- Row FADD64 (R55). -/
def execFadd64 (h : Hdr) (addr : BitVec 41) (operand : BitVec 64) (s : State) : Host.Outcome State Fault Refusal :=
  s.on (fun w => w.atm h 0 addr (bytesOf operand 8))

/-- Row SWAP64 (R55). -/
def execSwap64 (h : Hdr) (addr : BitVec 41) (operand : BitVec 64) (s : State) : Host.Outcome State Fault Refusal :=
  s.on (fun w => w.atm h 1 addr (bytesOf operand 8))

/-- Row CAS128 (R55). -/
def execCas128 (h : Hdr) (addr : BitVec 41) (compare : BitVec 128) (swap : BitVec 128) (s : State) : Host.Outcome State Fault Refusal :=
  s.on (fun w => w.atm h 2 addr (bytesOf compare 16 ++ bytesOf swap 16))

/-- Row LAUNCH (R168, R169): a register beat, and a descriptor beat where it has descriptors. -/
def execLaunch (h : Hdr) (engine : BitVec 4) (prog : BitVec 7) (stack : StackIx) (regs : List (BitVec 64)) (descs : List (BitVec 256))
    (s : State) : Host.Outcome State Fault Refusal :=
  s.on (fun w =>
    let data := fitTo 128 0 (regs.flatMap (fun g => bytesOf g 8)) ++ descs.flatMap (fun d => bytesOf d 32)
    (w.arrive (w.typed h 6 (if descs.isEmpty then 1 else 3) engine.toNat (prog.toNat * 2 ^ 13) (stack.val * 2 ^ 37)) data).passIdle w.req.uidNext)

/-- The address of an ODW. -/
def odwAddr (index : BitVec 16) (inst : BitVec 12) (sub : BitVec 8) : Nat := index.toNat * 2 ^ 20 + inst.toNat * 2 ^ 8 + sub.toNat

/-- Row ODW_READ (R326). -/
def execOdwRead (h : Hdr) (index : BitVec 16) (inst : BitVec 12) (sub : BitVec 8) (first : BitVec 16) (count : BitVec 16) (s : State) :
    Host.Outcome State Fault Refusal :=
  s.on (fun w => w.arrive (w.typed h 8 0 0 0 (odwAddr index inst sub)) (bytesOf first 2 ++ bytesOf count 2))

/-- Row ODW_WRITE (R326). -/
def execOdwWrite (h : Hdr) (index : BitVec 16) (inst : BitVec 12) (sub : BitVec 8) (first : BitVec 16) (count : BitVec 16)
    (value : List Byte) (s : State) : Host.Outcome State Fault Refusal :=
  s.on (fun w =>
    let data := bytesOf first 2 ++ bytesOf count 2 ++ natBytes value.length 2 ++ List.replicate 10 0 ++ value
    w.arrive (w.typed h 8 ((data.length + 63) / 64 - 1) 1 0 (odwAddr index inst sub)) data)

/-- Row BIRSP (R147): with nothing ahead of it, it resolves its snoop. -/
def execBirsp (h : Hdr) (kind : BitVec 4) (addr : BitVec 41) (s : State) : Host.Outcome State Fault Refusal :=
  s.on (fun w =>
    let uid := w.req.uidNext
    let st := h.tag.toNat / 4096
    let w' := (w.arrive (w.typed h 9 0 kind.toNat 0 addr.toNat)).passIdle uid
    if (w'.inbox st).length = 1 ∧ (w'.inbox st).all (fun p => p.op == 9) = true then w'.sliceInput st else w')

/-! ### Mailbox rows (R335 to R338) -/

/-- An MBX on a fabric port. -/
def Hw.mbx (w : Hw) (h : Hdr) (channel reg n : Nat) (write : Bool) (data : List Byte) : Hw :=
  w.arrive (w.typed h 7 (if write then (n + 7) / 8 - 1 else 0) (if write then 1 else 0) (channel + reg * 64 + n % 32 * 256) 0) data

/-- Row QUEUE_WRITE (R336). -/
def execQueueWrite (h : Option Hdr) (channel : Fin 64) (words : List (BitVec 64)) (s : State) : Host.Outcome State Fault Refusal :=
  s.on (fun w => match h with
    | some x => w.mbx x channel.val 0 words.length true (words.flatMap (fun v => bytesOf v 8))
    | none => w.coreWrite channel.val words)

/-- Row QUEUE_READ (R337). -/
def execQueueRead (h : Option Hdr) (channel : Fin 64) (n : Fin 17) (s : State) : Host.Outcome State Fault Refusal :=
  s.on (fun w => match h with
    | some x => w.mbx x channel.val 0 n.val false []
    | none => w.coreRead channel.val n.val)

/-- Row STATUS_READ (R337): a steward core's own read pops nothing and changes nothing. -/
def execStatusRead (h : Option Hdr) (channel : Fin 64) (s : State) : Host.Outcome State Fault Refusal :=
  s.on (fun w => match h with
    | some x => w.mbx x channel.val 2 0 false []
    | none => w)

/-- Row LOCK_READ (R338): only steward cores reach the semaphores. -/
def execLockRead (h : Option Hdr) (core : Fin 2) (semaphore : Bool) (channel : Fin 64) (s : State) : Host.Outcome State Fault Refusal :=
  s.on (fun w => match h with
    | some x => if semaphore then w else w.mbx x channel.val 1 0 false []
    | none => w.coreLockRead channel.val core.val semaphore)

/-- Row LOCK_WRITE (R338). -/
def execLockWrite (h : Option Hdr) (core : Fin 2) (semaphore : Bool) (channel : Fin 64) (value : BitVec 64) (s : State) :
    Host.Outcome State Fault Refusal :=
  s.on (fun w => match h with
    | some x => if semaphore then w else w.mbx x channel.val 1 0 true (bytesOf value 8)
    | none => w.coreLockWrite channel.val core.val semaphore value.toNat)

/-! ### What waits at a port (R57, R60, R61, R63) -/

/-- Row DENIED_DUE (R57): a DENIED leaves the refusal delay line and joins egress. -/
def execDeniedDue (port : PortIx) (s : State) : Host.Outcome State Fault Refusal :=
  s.on (fun h =>
    let n := port.val
    match (h.port n).refusals with
    | (t, u) :: rest =>
      if t ≤ h.now then
        let h := (h.setPort n { h.port n with refusals := rest }).setReg Od.portRefusalLine n rest.length
        h.emit n u
      else h
    | [] => h)

/-- Row DEFERRED_RELEASE (R60): the oldest deferred request whose requester is below req_limit takes a tracker entry. -/
def execDeferredRelease (port : PortIx) (s : State) : Host.Outcome State Fault Refusal :=
  s.on (fun h =>
    let n := port.val
    let q := h.port n
    match q.deferred.find? (fun r => decide (h.reg Od.reqInflight r.requester < h.reg Od.reqLimit r.requester)) with
    | some r =>
      if h.trkFree then
        let h := (h.setPort n { q with deferred := q.deferred.erase r }).setReg Od.portDeferred n (q.deferred.erase r).length
        (h.allocTrk r).pumpIngress n
      else h
    | none => h)

/-- Row HELD_INGRESS_ADMIT (R61). -/
def execHeldIngressAdmit (port : PortIx) (s : State) : Host.Outcome State Fault Refusal :=
  s.on (fun h =>
    let n := port.val
    match (h.port n).held with
    | some r => if h.trkFree then ((h.setPort n { h.port n with held := none }).allocTrk r).pumpIngress n else h
    | none => h)

/-- Has a request waited request_timeout_us (R63). -/
def Hw.timedOut (h : Hw) (r : Rq) : Bool := decide (r.start + h.reg Od.requestTimeoutUs * 1000 ≤ h.now)

/-- A deferred or held request times out: it leaves unexecuted. -/
def Hw.timeoutWaiting (h : Hw) (n : Nat) (r : Rq) : Hw :=
  let q := h.port n
  let h := h.setPort n { q with deferred := q.deferred.filter (fun x => x.uid != r.uid), held := q.held.filter (fun x => x.uid != r.uid) }
  let h := h.setReg Od.portDeferred n (h.port n).deferred.length
  let h := if r.isRepeat then h else h.settleWin r St.timeout
  (h.refuse r St.timeout r.isRepeat).pumpIngress n

/-- A request with a tracker entry times out: what is not placed is dropped, a cancel goes to its slice. -/
def Hw.timeoutTrk (h : Hw) (uid : Nat) (t : Tracker) : Hw :=
  let n := t.rq.ext / 4096 % 256
  let h := match t.phase with
    | .waitData => h.dropBeats t.rq.port uid
    | .queued => h.unqueueArb uid
    | .parked =>
      let rest := (h.ses n).parked.filter (fun u => u != uid)
      (h.setSes n { h.ses n with parked := rest }).setReg Od.redParked n rest.length
    | .forwarded | .held =>
      let s := t.stack.getD 0
      { h.sendQanat s true Fk.control 4 (natBytes (uid % 65536) 2) with sl.cancels := h.sl.cancels ++ [uid] }
    | _ => h
  h.complete uid St.timeout

/-- Row REQUEST_TIMEOUT (R63). -/
def execRequestTimeout (uid : Nat) (s : State) : Host.Outcome State Fault Refusal :=
  s.on (fun h =>
    match h.trk uid with
    | some t => if t.phase ≠ .responding ∧ t.rq.op ≠ 9 ∧ h.timedOut t.rq = true then h.timeoutTrk uid t else h
    | none =>
      match (List.range 32).find? (fun n => ((h.port n).deferred ++ (h.port n).held.toList).any (fun r => r.uid == uid)) with
      | some n => match ((h.port n).deferred ++ (h.port n).held.toList).find? (fun r => r.uid == uid) with
        | some r => if h.timedOut r then h.timeoutWaiting n r else h
        | none => h
      | none => h)

/-! ### Port egress (R50, R146, R348, R396) -/

/-- May a unit start: the response it must follow has left. -/
def Hw.mayFollow (h : Hw) (u : OutUnit) : Bool := match u.after with
  | some uid => (h.trk uid).isNone
  | none => true

/-- The older of two units. -/
def olderOf (a b : Option OutUnit) : Option OutUnit :=
  match a, b with
  | some x, some y => if y.ready < x.ready then some y else some x
  | some x, none => some x
  | none, y => y

/-- The unit that egress takes next: a due DENIED, then a response of C0, then the oldest. -/
def Hw.egressNext (h : Hw) (n : Nat) : Option OutUnit :=
  let q := h.port n
  match q.ready.find? (fun u => u.status == St.denied) with
  | some u => some u
  | none => match q.ready.find? (fun u => u.cls == 0) with
    | some u => some u
    | none => olderOf q.ready.head? (olderOf (q.bisnps.find? (fun u => h.mayFollow u)) (q.evts.head?.filter (fun u => h.mayFollow u)))

/-- Row EGRESS_PICK: the next unit starts; a watermark notice is sampled as it is handed over (R353). -/
def execEgressPick (port : PortIx) (s : State) : Host.Outcome State Fault Refusal :=
  s.on (fun h =>
    let n := port.val
    let q := h.port n
    if q.sending.isSome ∨ h.reg Od.portState n ≠ 1 then h
    else match h.egressNext n with
    | some u =>
      let v := if u.wm.isSome then { u with data := natBytes (h.resample u.wm (bytesNat u.data)) u.data.length } else u
      h.setPort n { q with ready := q.ready.erase u, bisnps := if u.op = 0x10 then q.bisnps.erase u else q.bisnps,
                           evts := if u.op = 0x11 then q.evts.erase u else q.evts, sending := some v }
    | none => h)

/-- Row RESPONSE_LAST_BEAT (R61, R148): the unit has left; its tracker entry is released, or its snoop's timer starts. -/
def execResponseLastBeat (port : PortIx) (s : State) : Host.Outcome State Fault Refusal :=
  s.on (fun h =>
    let n := port.val
    match (h.port n).sending with
    | some u =>
      let h := h.setPort n { h.port n with sending := none }
      let h := match u.trk with
        | some uid => (h.point uid 9).releaseTrk uid
        | none => h
      if u.op = 0x10 then
        match Table.look h.coh.snoops u.tag with
        | some x => { h with coh.snoops := Table.put h.coh.snoops u.tag { x with sentAt := some h.now } }
        | none => h
      else h
    | none => h)

end Sys2Proof.Machine
end

