-- ==== Sys2Proof/Machine/Dispatch.lean ====
section
/-! DEFINITION. One arm per command: the command's effect on everything but the queue. -/

namespace Sys2Proof.Machine

/-- The effect of a command (each arm's meaning stands in the file of its family). -/
def exec (i : Instr) (s : State) : Host.Outcome State Fault Refusal :=
  match i with
  | .flitReceive stack a_module hubEnd header payload crc => Sys2Proof.Machine.execFlitReceive stack a_module hubEnd header payload crc s
  | .replayLimitRetrain stack a_module hubEnd => Sys2Proof.Machine.execReplayLimitRetrain stack a_module hubEnd s
  | .moduleRetrainDone stack a_module hubEnd failedLanes delivered => Sys2Proof.Machine.execModuleRetrainDone stack a_module hubEnd failedLanes delivered s
  | .flitDeliveryTimeout stack a_module hubEnd => Sys2Proof.Machine.execFlitDeliveryTimeout stack a_module hubEnd s
  | .qanatRetryBudgetExpiry stack => Sys2Proof.Machine.execQanatRetryBudgetExpiry stack s
  | .flitIdleTimeout stack a_module hubEnd => Sys2Proof.Machine.execFlitIdleTimeout stack a_module hubEnd s
  | .sandglassWindow die tau => Sys2Proof.Machine.execSandglassWindow die tau s
  | .paceQuantizedRefresh => Sys2Proof.Machine.execPaceQuantizedRefresh s
  | .sliceSilenceTimeout stack => Sys2Proof.Machine.execSliceSilenceTimeout stack s
  | .requestHeader port header parity => Sys2Proof.Machine.execRequestHeader port header parity s
  | .dataBeat port data parity mask psn last => Sys2Proof.Machine.execDataBeat port data parity mask psn last s
  | .rd h len addr => Sys2Proof.Machine.execRd h len addr s
  | .wr h len addr data psn => Sys2Proof.Machine.execWr h len addr data psn s
  | .wrp h len addr data mask psn => Sys2Proof.Machine.execWrp h len addr data mask psn s
  | .acw h len session contributor chunk data psn => Sys2Proof.Machine.execAcw h len session contributor chunk data psn s
  | .fadd64 h addr operand => Sys2Proof.Machine.execFadd64 h addr operand s
  | .swap64 h addr operand => Sys2Proof.Machine.execSwap64 h addr operand s
  | .cas128 h addr compare swap => Sys2Proof.Machine.execCas128 h addr compare swap s
  | .launch h engine prog stack regs descs => Sys2Proof.Machine.execLaunch h engine prog stack regs descs s
  | .odwRead h index inst sub first count => Sys2Proof.Machine.execOdwRead h index inst sub first count s
  | .odwWrite h index inst sub first count value => Sys2Proof.Machine.execOdwWrite h index inst sub first count value s
  | .birsp h kind addr => Sys2Proof.Machine.execBirsp h kind addr s
  | .deniedDue port => Sys2Proof.Machine.execDeniedDue port s
  | .deferredRelease port => Sys2Proof.Machine.execDeferredRelease port s
  | .heldIngressAdmit port => Sys2Proof.Machine.execHeldIngressAdmit port s
  | .egressPick port => Sys2Proof.Machine.execEgressPick port s
  | .responseLastBeat port => Sys2Proof.Machine.execResponseLastBeat port s
  | .reqStateActive who requester => Sys2Proof.Machine.execReqStateActive who requester s
  | .reqStateReset who requester => Sys2Proof.Machine.execReqStateReset who requester s
  | .reqStateDead who requester => Sys2Proof.Machine.execReqStateDead who requester s
  | .reqStateAbsent who requester => Sys2Proof.Machine.execReqStateAbsent who requester s
  | .requestTimeout uid => Sys2Proof.Machine.execRequestTimeout uid s
  | .cancel tracker => Sys2Proof.Machine.execCancel tracker s
  | .sliceInput stack => Sys2Proof.Machine.execSliceInput stack s
  | .queueEntryAdmit g => Sys2Proof.Machine.execQueueEntryAdmit g s
  | .columnPick g => Sys2Proof.Machine.execColumnPick g s
  | .activatePick g => Sys2Proof.Machine.execActivatePick g s
  | .columnData g flips => Sys2Proof.Machine.execColumnData g flips s
  | .refreshDue g => Sys2Proof.Machine.execRefreshDue g s
  | .rfmIssue g => Sys2Proof.Machine.execRfmIssue g s
  | .refreshSlotEnd g => Sys2Proof.Machine.execRefreshSlotEnd g s
  | .refreshMultiplierChange stack => Sys2Proof.Machine.execRefreshMultiplierChange stack s
  | .refreshWindowEnd stack => Sys2Proof.Machine.execRefreshWindowEnd stack s
  | .throttleExpiry g => Sys2Proof.Machine.execThrottleExpiry g s
  | .pauseIdleGap g => Sys2Proof.Machine.execPauseIdleGap g s
  | .pauseForced g => Sys2Proof.Machine.execPauseForced g s
  | .pauseEnd g => Sys2Proof.Machine.execPauseEnd g s
  | .thermalLevelChange stack => Sys2Proof.Machine.execThermalLevelChange stack s
  | .rateSwitch stack => Sys2Proof.Machine.execRateSwitch stack s
  | .rateSwitchDone stack => Sys2Proof.Machine.execRateSwitchDone stack s
  | .coldHoldExit stack => Sys2Proof.Machine.execColdHoldExit stack s
  | .trainingAttemptDone g failedLanes taps cl => Sys2Proof.Machine.execTrainingAttemptDone g failedLanes taps cl s
  | .zeroFillDone g => Sys2Proof.Machine.execZeroFillDone g s
  | .arbiterPick stack => Sys2Proof.Machine.execArbiterPick stack s
  | .grantStart stack => Sys2Proof.Machine.execGrantStart stack s
  | .burstCutoff stack => Sys2Proof.Machine.execBurstCutoff stack s
  | .dispatchCreditReturn g c0 => Sys2Proof.Machine.execDispatchCreditReturn g c0 s
  | .quotaWindowEnd stack => Sys2Proof.Machine.execQuotaWindowEnd stack s
  | .frameSlotStart stack => Sys2Proof.Machine.execFrameSlotStart stack s
  | .missPeriodEnd stack => Sys2Proof.Machine.execMissPeriodEnd stack s
  | .serviceModeWriteNormal who => Sys2Proof.Machine.execServiceModeWriteNormal who s
  | .serviceModeWriteTest who => Sys2Proof.Machine.execServiceModeWriteTest who s
  | .svcStartupExpiry => Sys2Proof.Machine.execSvcStartupExpiry s
  | .recoveryDone => Sys2Proof.Machine.execRecoveryDone s
  | .regulatorWindow requester => Sys2Proof.Machine.execRegulatorWindow requester s
  | .wcbEvict stack sector => Sys2Proof.Machine.execWcbEvict stack sector s
  | .wcbHoldExpiry stack sector => Sys2Proof.Machine.execWcbHoldExpiry stack sector s
  | .rmwMerge stack sector => Sys2Proof.Machine.execRmwMerge stack sector s
  | .writeSplit who => Sys2Proof.Machine.execWriteSplit who s
  | .readRaw who => Sys2Proof.Machine.execReadRaw who s
  | .readDecoded who => Sys2Proof.Machine.execReadDecoded who s
  | .testEnd who => Sys2Proof.Machine.execTestEnd who s
  | .ceHistoryExpiry g => Sys2Proof.Machine.execCeHistoryExpiry g s
  | .scrubRead stack flips again => Sys2Proof.Machine.execScrubRead stack flips again s
  | .rebuildRow g => Sys2Proof.Machine.execRebuildRow g s
  | .sppr g bank row ok => Sys2Proof.Machine.execSppr g bank row ok s
  | .hppr g ok => Sys2Proof.Machine.execHppr g ok s
  | .retirePage who dpa => Sys2Proof.Machine.execRetirePage who dpa s
  | .retireClear who stack => Sys2Proof.Machine.execRetireClear who stack s
  | .directoryLookup stack => Sys2Proof.Machine.execDirectoryLookup stack s
  | .snoopTimeout id => Sys2Proof.Machine.execSnoopTimeout id s
  | .directorySweep stack => Sys2Proof.Machine.execDirectorySweep stack s
  | .acceptAll who part => Sys2Proof.Machine.execAcceptAll who part s
  | .progBegin who prog => Sys2Proof.Machine.execProgBegin who prog s
  | .commit who prog => Sys2Proof.Machine.execCommit who prog s
  | .delete who prog => Sys2Proof.Machine.execDelete who prog s
  | .progStepWrite who prog word => Sys2Proof.Machine.execProgStepWrite who prog word s
  | .programCopyRepair stack prog => Sys2Proof.Machine.execProgramCopyRepair stack prog s
  | .launchQueue stack => Sys2Proof.Machine.execLaunchQueue stack s
  | .launchStart e => Sys2Proof.Machine.execLaunchStart e s
  | .move e => Sys2Proof.Machine.execMove e s
  | .gather e => Sys2Proof.Machine.execGather e s
  | .scatter e => Sys2Proof.Machine.execScatter e s
  | .convert e => Sys2Proof.Machine.execConvert e s
  | .reduce e => Sys2Proof.Machine.execReduce e s
  | .accum e => Sys2Proof.Machine.execAccum e s
  | .fill e => Sys2Proof.Machine.execFill e s
  | .digest e => Sys2Proof.Machine.execDigest e s
  | .delta e => Sys2Proof.Machine.execDelta e s
  | .packz e => Sys2Proof.Machine.execPackz e s
  | .tile e => Sys2Proof.Machine.execTile e s
  | .axpby e => Sys2Proof.Machine.execAxpby e s
  | .moment e => Sys2Proof.Machine.execMoment e s
  | .ingest e => Sys2Proof.Machine.execIngest e s
  | .seti e => Sys2Proof.Machine.execSeti e s
  | .addi e => Sys2Proof.Machine.execAddi e s
  | .loop e => Sys2Proof.Machine.execLoop e s
  | .waitFlag e => Sys2Proof.Machine.execWaitFlag e s
  | .waitPush e => Sys2Proof.Machine.execWaitPush e s
  | .waitChunk e => Sys2Proof.Machine.execWaitChunk e s
  | .waitEnd e => Sys2Proof.Machine.execWaitEnd e s
  | .waitTimeout e => Sys2Proof.Machine.execWaitTimeout e s
  | .signalFlag e => Sys2Proof.Machine.execSignalFlag e s
  | .signalNotice e => Sys2Proof.Machine.execSignalNotice e s
  | .fence e => Sys2Proof.Machine.execFence e s
  | .endStep e => Sys2Proof.Machine.execEndStep e s
  | .runtimeLimit e => Sys2Proof.Machine.execRuntimeLimit e s
  | .abortRunning who e => Sys2Proof.Machine.execAbortRunning who e s
  | .abortAll who e => Sys2Proof.Machine.execAbortAll who e s
  | .descriptorDeadline e desc => Sys2Proof.Machine.execDescriptorDeadline e desc s
  | .openSession who session => Sys2Proof.Machine.execOpenSession who session s
  | .abort who session => Sys2Proof.Machine.execAbort who session s
  | .close who session => Sys2Proof.Machine.execClose who session s
  | .exclude who session => Sys2Proof.Machine.execExclude who session s
  | .rearm who session => Sys2Proof.Machine.execRearm who session s
  | .sessionPrepared session => Sys2Proof.Machine.execSessionPrepared session s
  | .contribution stack => Sys2Proof.Machine.execContribution stack s
  | .mapEntryWrite session chunk => Sys2Proof.Machine.execMapEntryWrite session chunk s
  | .stragglerExpiry session chunk => Sys2Proof.Machine.execStragglerExpiry session chunk s
  | .writeIntent stack => Sys2Proof.Machine.execWriteIntent stack s
  | .parityDelta stack => Sys2Proof.Machine.execParityDelta stack s
  | .settleNotice stack => Sys2Proof.Machine.execSettleNotice stack s
  | .degradeDrainEnd stack => Sys2Proof.Machine.execDegradeDrainEnd stack s
  | .degradeComplete stack => Sys2Proof.Machine.execDegradeComplete stack s
  | .degradedRead stack => Sys2Proof.Machine.execDegradedRead stack s
  | .spanFlitReceive port header payload crc tagOk => Sys2Proof.Machine.execSpanFlitReceive port header payload crc tagOk s
  | .spanIdleRetrain port => Sys2Proof.Machine.execSpanIdleRetrain port s
  | .spanDown port => Sys2Proof.Machine.execSpanDown port s
  | .sp0Trained peerFw peerDigest peerTime latencyNs => Sys2Proof.Machine.execSp0Trained peerFw peerDigest peerTime latencyNs s
  | .spanTrainTimeout => Sys2Proof.Machine.execSpanTrainTimeout s
  | .heartbeatSend => Sys2Proof.Machine.execHeartbeatSend s
  | .heartbeatReceive port peerState peerEpoch offset accepted => Sys2Proof.Machine.execHeartbeatReceive port peerState peerEpoch offset accepted s
  | .peerLost => Sys2Proof.Machine.execPeerLost s
  | .fenceFlit => Sys2Proof.Machine.execFenceFlit s
  | .leaseGrant who value => Sys2Proof.Machine.execLeaseGrant who value s
  | .leaseRenew => Sys2Proof.Machine.execLeaseRenew s
  | .leaseExpiry => Sys2Proof.Machine.execLeaseExpiry s
  | .pairEpochWrite who epoch => Sys2Proof.Machine.execPairEpochWrite who epoch s
  | .form who => Sys2Proof.Machine.execForm who s
  | .rejoin who => Sys2Proof.Machine.execRejoin who s
  | .relinquish who => Sys2Proof.Machine.execRelinquish who s
  | .pairSessionUp peerKeyDigest peerFw peerDigest => Sys2Proof.Machine.execPairSessionUp peerKeyDigest peerFw peerDigest s
  | .pairLinkTimeout => Sys2Proof.Machine.execPairLinkTimeout s
  | .takeover => Sys2Proof.Machine.execTakeover s
  | .mirrorMessage m => Sys2Proof.Machine.execMirrorMessage m s
  | .mirrorAccepted seqNo => Sys2Proof.Machine.execMirrorAccepted seqNo s
  | .mirrorDigestCompare peer => Sys2Proof.Machine.execMirrorDigestCompare peer s
  | .resyncSector => Sys2Proof.Machine.execResyncSector s
  | .create who part => Sys2Proof.Machine.execCreate who part s
  | .grow who part => Sys2Proof.Machine.execGrow who part s
  | .release who part => Sys2Proof.Machine.execRelease who part s
  | .partitionDrainDone part => Sys2Proof.Machine.execPartitionDrainDone part s
  | .partitionFillDone part => Sys2Proof.Machine.execPartitionFillDone part s
  | .growFillDone part => Sys2Proof.Machine.execGrowFillDone part s
  | .keyInstall who part key => Sys2Proof.Machine.execKeyInstall who part key s
  | .scrubHwmStep part => Sys2Proof.Machine.execScrubHwmStep part s
  | .scrubVerify part failing => Sys2Proof.Machine.execScrubVerify part failing s
  | .scrubResume part => Sys2Proof.Machine.execScrubResume part s
  | .provision who => Sys2Proof.Machine.execProvision who s
  | .deploy who => Sys2Proof.Machine.execDeploy who s
  | .returnLc who => Sys2Proof.Machine.execReturnLc who s
  | .scrap who => Sys2Proof.Machine.execScrap who s
  | .getVersion a_s => Sys2Proof.Machine.execGetVersion a_s s
  | .getCapabilities a_s => Sys2Proof.Machine.execGetCapabilities a_s s
  | .negotiateAlgorithms a_s baseAsym baseHash => Sys2Proof.Machine.execNegotiateAlgorithms a_s baseAsym baseHash s
  | .getDigests a_s => Sys2Proof.Machine.execGetDigests a_s s
  | .getCertificate a_s slot offset length => Sys2Proof.Machine.execGetCertificate a_s slot offset length s
  | .challenge a_s slot nonce => Sys2Proof.Machine.execChallenge a_s slot nonce s
  | .getMeasurements a_s index => Sys2Proof.Machine.execGetMeasurements a_s index s
  | .keyExchange peerKey heartbeatMs => Sys2Proof.Machine.execKeyExchange peerKey heartbeatMs s
  | .finish a_s verified => Sys2Proof.Machine.execFinish a_s verified s
  | .heartbeat a_s => Sys2Proof.Machine.execHeartbeat a_s s
  | .keyUpdate a_s => Sys2Proof.Machine.execKeyUpdate a_s s
  | .endSession a_s => Sys2Proof.Machine.execEndSession a_s s
  | .spdmUnsupportedRequest a_s code => Sys2Proof.Machine.execSpdmUnsupportedRequest a_s code s
  | .spdmSessionTimeout a_s => Sys2Proof.Machine.execSpdmSessionTimeout a_s s
  | .query a_s => Sys2Proof.Machine.execQuery a_s s
  | .keyProg a_s stream keySet dirSub key => Sys2Proof.Machine.execKeyProg a_s stream keySet dirSub key s
  | .kSetGo a_s stream keySet => Sys2Proof.Machine.execKSetGo a_s stream keySet s
  | .kSetStop a_s stream keySet => Sys2Proof.Machine.execKSetStop a_s stream keySet s
  | .getTdispVersion a_s => Sys2Proof.Machine.execGetTdispVersion a_s s
  | .getTdispCapabilities a_s => Sys2Proof.Machine.execGetTdispCapabilities a_s s
  | .lockInterfaceRequest a_s requester part => Sys2Proof.Machine.execLockInterfaceRequest a_s requester part s
  | .getDeviceInterfaceReport a_s requester part => Sys2Proof.Machine.execGetDeviceInterfaceReport a_s requester part s
  | .getDeviceInterfaceState a_s requester part => Sys2Proof.Machine.execGetDeviceInterfaceState a_s requester part s
  | .startInterfaceRequest a_s requester part => Sys2Proof.Machine.execStartInterfaceRequest a_s requester part s
  | .stopInterfaceRequest a_s requester part => Sys2Proof.Machine.execStopInterfaceRequest a_s requester part s
  | .wkKeyWrite who slot key => Sys2Proof.Machine.execWkKeyWrite who slot key s
  | .destroy who slot => Sys2Proof.Machine.execDestroy who slot s
  | .secConsentDebugWrite who part => Sys2Proof.Machine.execSecConsentDebugWrite who part s
  | .tamperAlarm cause => Sys2Proof.Machine.execTamperAlarm cause s
  | .tamperAck who => Sys2Proof.Machine.execTamperAck who s
  | .sensorReading src reading => Sys2Proof.Machine.execSensorReading src reading s
  | .levelDwellExpiry stack => Sys2Proof.Machine.execLevelDwellExpiry stack s
  | .throtReqChange value => Sys2Proof.Machine.execThrotReqChange value s
  | .coldHoldWait stack => Sys2Proof.Machine.execColdHoldWait stack s
  | .powerEstimate hubMw stackMw => Sys2Proof.Machine.execPowerEstimate hubMw stackMw s
  | .centeringWindow g lane dPlus dMinus => Sys2Proof.Machine.execCenteringWindow g lane dPlus dMinus s
  | .calIntervalExpiry g => Sys2Proof.Machine.execCalIntervalExpiry g s
  | .calibrationRun g caPassed badWriteLanes => Sys2Proof.Machine.execCalibrationRun g caPassed badWriteLanes s
  | .read a_s reqId items => Sys2Proof.Machine.execRead a_s reqId items s
  | .write a_s reqId item => Sys2Proof.Machine.execWrite a_s reqId item s
  | .multiWrite a_s reqId items => Sys2Proof.Machine.execMultiWrite a_s reqId items s
  | .peek a_s reqId items => Sys2Proof.Machine.execPeek a_s reqId items s
  | .subscribe a_s reqId item => Sys2Proof.Machine.execSubscribe a_s reqId item s
  | .unsubscribe a_s reqId item => Sys2Proof.Machine.execUnsubscribe a_s reqId item s
  | .notify slot => Sys2Proof.Machine.execNotify slot s
  | .refusalResponseDue => Sys2Proof.Machine.execRefusalResponseDue s
  | .registerWrite who index inst sub elem value => Sys2Proof.Machine.execRegisterWrite who index inst sub elem value s
  | .loadDone who => Sys2Proof.Machine.execLoadDone who s
  | .queueWrite h channel words => Sys2Proof.Machine.execQueueWrite h channel words s
  | .queueRead h channel n => Sys2Proof.Machine.execQueueRead h channel n s
  | .statusRead h channel => Sys2Proof.Machine.execStatusRead h channel s
  | .lockRead h core semaphore channel => Sys2Proof.Machine.execLockRead h core semaphore channel s
  | .lockWrite h core semaphore channel value => Sys2Proof.Machine.execLockWrite h core semaphore channel value s
  | .mailboxTimeout channel fromB => Sys2Proof.Machine.execMailboxTimeout channel fromB s
  | .lockStall semaphore index => Sys2Proof.Machine.execLockStall semaphore index s
  | .mbBindingLockWrite => Sys2Proof.Machine.execMbBindingLockWrite s
  | .routeBucketRefill route => Sys2Proof.Machine.execRouteBucketRefill route s
  | .routeAck who route => Sys2Proof.Machine.execRouteAck who route s
  | .wmRearm who w => Sys2Proof.Machine.execWmRearm who w s
  | .wmClear who w => Sys2Proof.Machine.execWmClear who w s
  | .fixClear who g => Sys2Proof.Machine.execFixClear who g s
  | .selSourceWrite who n source inst => Sys2Proof.Machine.execSelSourceWrite who n source inst s
  | .selClear who n => Sys2Proof.Machine.execSelClear who n s
  | .freeze who => Sys2Proof.Machine.execFreeze who s
  | .unfreeze who => Sys2Proof.Machine.execUnfreeze who s
  | .snapshot who => Sys2Proof.Machine.execSnapshot who s
  | .counterCommandInstant => Sys2Proof.Machine.execCounterCommandInstant s
  | .smpSeedWrite who seed => Sys2Proof.Machine.execSmpSeedWrite who seed s
  | .coarseValueRefresh => Sys2Proof.Machine.execCoarseValueRefresh s
  | .pwrokRise => Sys2Proof.Machine.execPwrokRise s
  | .pwrokFall => Sys2Proof.Machine.execPwrokFall s
  | .hubRstAssert => Sys2Proof.Machine.execHubRstAssert s
  | .hubRstRelease modeStraps => Sys2Proof.Machine.execHubRstRelease modeStraps s
  | .sliceRstAssert stack => Sys2Proof.Machine.execSliceRstAssert stack s
  | .sliceRstRelease stack => Sys2Proof.Machine.execSliceRstRelease stack s
  | .bootReadAnswer slice slotB image => Sys2Proof.Machine.execBootReadAnswer slice slotB image s
  | .fetchTimeout slice slotB => Sys2Proof.Machine.execFetchTimeout slice slotB s
  | .stewardRelease => Sys2Proof.Machine.execStewardRelease s
  | .portRelease => Sys2Proof.Machine.execPortRelease s
  | .portReset who port => Sys2Proof.Machine.execPortReset who port s
  | .portIdleUp port => Sys2Proof.Machine.execPortIdleUp port s
  | .extest => Sys2Proof.Machine.execExtest s
  | .samplePreload => Sys2Proof.Machine.execSamplePreload s
  | .idcode => Sys2Proof.Machine.execIdcode s
  | .dbgUnlock pubX pubY sigR sigS => Sys2Proof.Machine.execDbgUnlock pubX pubY sigR sigS s
  | .dictPeek address => Sys2Proof.Machine.execDictPeek address s
  | .wirSelect stack => Sys2Proof.Machine.execWirSelect stack s
  | .stewardHalt core => Sys2Proof.Machine.execStewardHalt core s
  | .stewardResume core => Sys2Proof.Machine.execStewardResume core s
  | .bypass code => Sys2Proof.Machine.execBypass code s
  | .tapReset => Sys2Proof.Machine.execTapReset s
  | .khAck status => Sys2Proof.Machine.execKhAck status s
  | .keyHandoffTimeout => Sys2Proof.Machine.execKeyHandoffTimeout s
  | .qanatTrainingDone stack modules => Sys2Proof.Machine.execQanatTrainingDone stack modules s
  | .stackDescriptorRead stack descriptor => Sys2Proof.Machine.execStackDescriptorRead stack descriptor s
  | .spanRetrainDone port delivered => Sys2Proof.Machine.execSpanRetrainDone port delivered s
  | .powerTempCoarseRefresh => Sys2Proof.Machine.execPowerTempCoarseRefresh s

end Sys2Proof.Machine
end

