-- ==== Sys2Proof/Safety.lean ====
section
/-! DEFINITION. What the statements speak of: a command that completes, what a command leaves alone, and the canonical form of
the register file, the timers and the memories. -/

namespace Sys2Proof.Machine

/-- The step from `s` answers a next state. -/
def Safe (s : State) : Prop := ∃ t, step s = .next t

/-- Command `c` answers, from `s`, a next state that holds `h` and the same queue. -/
def Completes (c : Instr) (s : State) (h : Hw) : Prop := exec c s = .next { s with hw := h }

/-- The register file, the timers, the DRAM with its spare slots and the staging of the engines are in canonical form: keys
strictly rising, no entry equal to what an unlisted key reads as. -/
def Hw.tidy (h : Hw) : Bool :=
  Table.wf odDefault h.od && Table.wf (fun _ => 0) h.timers && Table.wf h.dramDefault h.mem.dram &&
    Table.wf (fun _ => 0) h.mem.spare && Table.wf (fun _ => 0) h.car.staging

/-- What the block holds beside the dictionary's registers, in groups: the hub timebase; the count of free values drawn; the
coarse copies of counts, of pace, and of power and temperature; the timers; the counter command under way; the sampler's LFSR;
the debug port; pins and start-up; the links; ports, trackers and arbiters; slices; the buffers beside the DRAM; coherence; the
engines without their staging; reductions; parity work; pair and cascade; security; mailboxes, events, messages and log rings;
the DRAM with its fills and spare slots; the staging. -/
inductive Part
  | time | draws | coarse | pace | power | timers | count | lfsr | tap | boot | links | requests | slices | buffers | coherence
  | engines | reductions | parity | pair | security | messages | dram | staging
  deriving DecidableEq, Repr

/-- A group is the same in `a` and in `b`. -/
def Part.same (p : Part) (a b : Hw) : Prop :=
  match p with
  | .time => b.now = a.now
  | .draws => b.drawn = a.drawn
  | .coarse => b.odMs = a.odMs
  | .pace => b.odPace = a.odPace
  | .power => b.odPower = a.odPower
  | .timers => b.timers = a.timers
  | .count => b.cntPending = a.cntPending
  | .lfsr => b.lfsr = a.lfsr
  | .tap => b.tap = a.tap
  | .boot => b.boot = a.boot
  | .links => b.lnk = a.lnk
  | .requests => b.req = a.req
  | .slices => b.sl = a.sl
  | .buffers => b.mem = { a.mem with dram := b.mem.dram, fills := b.mem.fills, spare := b.mem.spare }
  | .coherence => b.coh = a.coh
  | .engines => b.car = { a.car with staging := b.car.staging }
  | .reductions => b.red = a.red
  | .parity => b.par = a.par
  | .pair => b.pair = a.pair
  | .security => b.sec = a.sec
  | .messages => b.msg = a.msg
  | .dram => b.mem.dram = a.mem.dram ∧ b.mem.fills = a.mem.fills ∧ b.mem.spare = a.mem.spare
  | .staging => b.car.staging = a.car.staging

/-- From `a` to `b`, of the groups only those of `ps`, and of the dictionary's registers only those of `rs`, have changed. -/
def Hw.ChangesOnly (ps : List Part) (rs : List Reg) (a b : Hw) : Prop :=
  (∀ p, p ∉ ps → p.same a b) ∧ ∀ r i e, (fieldOf r).isSome = true → r ∉ rs → b.elem r i e = a.elem r i e

/-- Wherever command `c` starts, it answers a next state with the same queue, in which only `ps` and `rs` have changed. -/
def KeepsTo (c : Instr) (ps : List Part) (rs : List Reg) : Prop := ∀ s, ∃ h, Completes c s h ∧ s.hw.ChangesOnly ps rs h

/-- From `s` command `c` answers a next state with the same queue, of which `P` holds. -/
def Leads (c : Instr) (s : State) (P : Hw → Prop) : Prop := ∃ h, Completes c s h ∧ P h

/-! ### Registers and groups that travel together in the frames -/

/-- Registers: what an event, its routing and the selectable counters may change. -/
def eventRegs : List Reg := [Od.routePending, Od.routeDropped, Od.routeSeq, Od.evHead, Od.evOverflow, Od.selCount]

/-- Registers: what an error-log record may change beside its event. -/
def logRegs : List Reg := eventRegs ++ [Od.logHead, Od.logOverflow]

/-- Registers: what the end of a tracked request may change. -/
def doneRegs : List Reg := [Od.reqInflight, Od.reqTimeouts, Od.regGatedNs, Od.smpHead, Od.smpOverflow]

/-- Registers: what an ignored write or event may change. -/
def ignoreRegs : List Reg := [Od.ignTotal, Od.ignByArea, Od.ignLast, Od.ignPartTotal, Od.ignPartLast]

/-- Registers: what a crossed watermark may change beside its event. -/
def markRegs : List Reg := eventRegs ++ [Od.wmArmed, Od.wmCrossed, Od.wmLevel, Od.wmCount, Od.wmLastNs]

/-- Registers: what the end of a launch may change at its engine. -/
def launchRegs : List Reg := [Od.engState, Od.engProgram, Od.engLauncher, Od.engStep, Od.engLastFault, Od.engLastFaultStep]

/-- Registers: what a failed stack may change. -/
def failRegs : List Reg := logRegs ++ launchRegs ++ doneRegs ++ [Od.partGrow, Od.partFailedStacks, Od.portDeferred,
  Od.stackState, Od.serviceMode, Od.engQueue, Od.redState, Od.redOpenNow, Od.redParked, Od.redAbortReason, Od.pairState,
  Od.leaseRemainingUs, Od.mirrorBufferBytes, Od.syncState, Od.syncHwm, Od.syncStack]

/-- Registers: what a column that lands may change. -/
def columnRegs : List Reg := failRegs ++ [Od.pcState, Od.pcQueueEntries, Od.remapUsed, Od.remapTable, Od.lanesFailed,
  Od.fixCounts, Od.stackCounters]

/-- Registers: what a freed partition gives back. -/
def freeRegs : List Reg := [Od.secConfidential, Od.secConsentDebug, Od.secConsentProfile, Od.secKeyInstalled,
  Od.secWeightDigest, Od.secWeightCount, Od.secWlogIndex, Od.secWlogEntry, Od.keyInstall, Od.partAlloc, Od.partState,
  Od.partStacks, Od.partGrow, Od.partScrubHwm, Od.partFailedStacks, Od.cohOwnerLoss, Od.cohSnoopTimeoutUs, Od.cohLostAccept,
  Od.lossHead, Od.lossIndex, Od.lossRecord, Od.lossOverflow, Od.caravanFlags, Od.fmtEscapes, Od.fmtExhausted, Od.fmtPoisoned,
  Od.fmtSaturated, Od.fmtNonfinite, Od.fmtExhaustThreshold, Od.syncState, Od.syncHwm, Od.syncStack, Od.ignPartTotal,
  Od.ignPartLast]

/-- Registers: what a stack descriptor publishes. -/
def timingRegs : List Reg := [Od.stackHeight, Od.stackDieGbit, Od.stackCapacity, Od.stackSids, Od.stackRowsPerBank,
  Od.stackPinRate, Od.tRc, Od.tRcd, Od.tRp, Od.tRas, Od.tCl, Od.tCwl, Od.tBurst, Od.tCcdS, Od.tCcdL, Od.tRrdS, Od.tRrdL,
  Od.tFaw, Od.tWr, Od.tRtp, Od.tWtrS, Od.tWtrL, Od.tRtw, Od.tRfcab, Od.tRefi, Od.tRfmpb, Od.tXs]

/-- Groups: what a failed stack may change. -/
def failParts : List Part := [.timers, .boot, .links, .requests, .slices, .coherence, .engines, .reductions, .parity, .pair, .messages]

/-- Groups: what a column that lands may change. -/
def columnParts : List Part := failParts ++ [.dram]

/-! ### Requests at a port -/

/-- Port `n` is UP and nothing waits at its ingress: no header, none deferred or held, no credits withheld. -/
def Hw.portQuiet (h : Hw) (n : Nat) : Prop :=
  h.reg Od.portState n = 1 ∧ (h.port n).ingress = [] ∧ (h.port n).held = none ∧ (h.port n).deferred = [] ∧
    (h.port n).blockedSince = none

/-- Groups: what an admitted request, an event and the end of a request may change. -/
def servedParts : List Part := [.lfsr, .timers, .requests, .pair, .messages]

/-- Registers: what an admitted request, an event and the end of a request may change. -/
def servedRegs : List Reg := eventRegs ++ doneRegs ++ [Od.reqSeqNewest, Od.regCredit]

/-- Registers: what an MBX may change. -/
def mailRegs : List Reg :=
  servedRegs ++ [Od.mbFillAb, Od.mbFillBa, Od.mbFlags, Od.mbLockAb, Od.mbLockBa, Od.mbLockErrors]

/-- A request passes steps 1 to 4 of admission (R56, R219). -/
def Hw.permits (h : Hw) (r : Rq) : Prop :=
  h.formed r = true ∧ h.fenced = false ∧ h.unmapped r = false ∧ h.rights r = true ∧ (r.op = 4 → h.acwFits r = true)

/-- Its sequence number, if it has one, is a new one at an EMPTY window entry (R64), its requester is below req_limit and a
tracker entry is free (steps 5 to 7). -/
def Hw.hasRoom (h : Hw) (r : Rq) : Prop :=
  (∀ n, r.seq = some n → winState (h.win r.requester n) = Win.empty ∧ ((Table.look h.req.seqLive r.requester).isSome = false ∨
    (1 ≤ (n + 65536 - h.reg Od.reqSeqNewest r.requester) % 65536 ∧ (n + 65536 - h.reg Od.reqSeqNewest r.requester) % 65536 ≤ 32767))) ∧
    h.reg Od.reqInflight r.requester < h.reg Od.reqLimit r.requester ∧ h.trkFree = true

/-- A request as its tracker entry keeps it: started now, in the requester's epoch, an RD with its coherence mode (R61, R62, R141). -/
def Hw.kept (h : Hw) (r : Rq) : Rq :=
  { r with start := h.now, epoch := h.reg Od.reqEpoch r.requester, subop := if r.op = 1 then h.reg Od.cohMode r.requester else r.subop }

/-- A request with the data its beats bring: data, mask and poison marks, of the lengths its header gives. -/
def Rq.bringing (r : Rq) (data : List Byte) (mask psn : List Bool) : Rq :=
  { r with data := fitTo r.bytes 0 data, mask := fitTo r.bytes true mask, psn := fitTo (r.len + 1) false psn }

/-- Port `x` takes request `r` with all its data, and its stack ingress `st` has decided a grant already, so that it waits. -/
def Hw.waitsAt (h : Hw) (r : Rq) (st : Nat) : Prop :=
  h.portQuiet r.port ∧ h.dataHeld r.port + r.beats ≤ 4096 ∧ h.permits r ∧ h.hasRoom r ∧ (h.arb st).next.isSome = true

/-- Request `r` of `a` holds a tracker entry in `b` and waits in the queue of its port (or of the span) and class at stack ingress
`st`; its requester has one more in flight, and its sequence number is in flight; nothing else has changed but the sampler, a span that
carries the header to the other hub, and what counts admission. -/
def Hw.queuedAt (a b : Hw) (r : Rq) (st : Nat) : Prop :=
  (∃ t, b.trk r.uid = some t ∧ t.rq = a.kept r ∧ t.cls = a.classOf r ∧ t.stack = some st ∧ t.phase = .queued ∧
    r.uid ∈ Table.atD (b.arb st).queues (fun _ => []) ((if a.otherHub st then 32 else r.port) * 8 + a.classOf r)) ∧
    b.reg Od.reqInflight r.requester = (a.reg Od.reqInflight r.requester + 1) % 2 ^ Od.reqInflight.width ∧ b.req.uidNext = r.uid + 1 ∧
    (∀ n, r.seq = some n → b.win r.requester n = winBits (n / 1024) Win.inFlight 0) ∧
    a.ChangesOnly [.lfsr, .links, .requests] [Od.selCount, Od.reqSeqNewest, Od.reqInflight] b

/-- An actor may write value `v` to instance `i` of `r`, the configuration defines the object, it is this hub's own, and a core
of the steward runs where firmware must act. -/
def Hw.accepts (h : Hw) (who : Actor) (r : Reg) (i v : Nat) : Prop :=
  h.mayWrite who r i v = true ∧ (h.fieldAt r i).isSome = true ∧ h.remoteCopy r.index i = false ∧ h.reg Od.dbgHalted % 4 ≠ 3

/-! ### Steps of the caravan engines over staging -/

/-- [a, a + n) is a range of caravan addresses in staging. -/
def stageRange (a n : Nat) : Prop := a / 2 ^ 41 = 2 ^ 20 ∧ a % 2 ^ 41 + n ≤ stagingSize

/-- [a, a + n) and [b, b + m) do not meet. -/
def apart (a n b m : Nat) : Prop := a + n ≤ b ∨ b + m ≤ a

/-- The `n` staging bytes of engine `e` at caravan address `a`. -/
def Hw.staged (h : Hw) (e a n : Nat) : List Byte :=
  (List.range n).map (fun i => Table.atD h.car.staging (fun _ => 0) (e * 2 ^ 23 + a % 2 ^ 41 + i))

/-- Outside [b, b + n) of engine `e` the staging is the same in `x` and `y`. -/
def Hw.stageKept (x y : Hw) (e b n : Nat) : Prop :=
  ∀ k, (k < e * 2 ^ 23 + b % 2 ^ 41 ∨ e * 2 ^ 23 + b % 2 ^ 41 + n ≤ k) →
    Table.atD y.car.staging (fun _ => 0) k = Table.atD x.car.staging (fun _ => 0) k

/-- Register gk of engine `e`. -/
def Hw.greg (h : Hw) (e k : Nat) : Nat := (h.eng e).regs.getD k 0

/-- Engine `e` has gone on from its step in `x` to the next one in `y`, with registers `g`. -/
def Hw.stepped (x y : Hw) (e : Nat) (g : Nat → Nat) : Prop :=
  (y.eng e).pc = (x.eng e).pc + 1 ∧ (y.eng e).run = (x.eng e).run ∧ (y.eng e).wait = none ∧
    y.reg Od.engStep e = ((x.eng e).pc + 1) % 2 ^ Od.engStep.width ∧ ∀ k, k < 16 → y.greg e k = g k

/-- Registers `g` after an advance of register `i` by `n` where flag `f` of the step word asks for it (R175). -/
def bumped (w : BitVec 128) (f i n : Nat) (g : Nat → Nat) (k : Nat) : Nat :=
  if stepFlag w f = true ∧ k = i then (g i + n) % 2 ^ 64 else g k

/-- Such an advance of staging address `a` stays within staging. -/
def advances (w : BitVec 128) (f a n : Nat) : Prop := stepFlag w f = true → a % 2 ^ 41 + n < stagingSize

/-- The running launch of engine `e` has ended with fault code `f`. -/
def Hw.faulted (h : Hw) (e f : Nat) : Prop :=
  (h.eng e).run = none ∧ h.reg Od.engState e = 0 ∧ h.reg Od.engLastFault e = f

/-- The response to request `r`, of status `st` with data `d`, waits at its port's egress with its tracker entry. -/
def Hw.respondsTo (h : Hw) (r : Rq) (st : Nat) (d : List Byte) : Prop :=
  (∃ t, h.trk r.uid = some t ∧ t.phase = .responding ∧ t.status = st) ∧
    ∃ u, u ∈ (h.port r.port).ready ∧ u.trk = some r.uid ∧ u.tag = r.tag ∧ u.status = st ∧ u.data = d

/-- A quiet port takes request `r` with its data, and the request passes admission while responses go out. -/
def Hw.takesIn (h : Hw) (r : Rq) : Prop :=
  h.portQuiet r.port ∧ h.dataHeld r.port + r.beats ≤ 4096 ∧ h.permits r ∧ h.hasRoom r ∧ h.reg Od.pairState ≠ 6

end Sys2Proof.Machine
end

