-- ==== Sys2Proof/Certificates/Slice0/Obligations.lean ====
section
/-! DEFINITION. The statements for the provers, by the chapters of the spec. -/

open Sys2Proof Sys2Proof.Machine

/-- With a command at the front of the queue a step is that command's meaning, run with the queue's rest. -/
def Obligations.QueueFront : Prop :=
  ∀ (c : Instr) (cs : List Instr) (s : State), s.pending = c :: cs → step s = exec c { s with pending := cs }

/-- On an empty queue a step lets 1 ns pass, which is the model's choice (log entry 5): the timebase advances while PWROK and
HUB_RST_N are high, the cistern's counter always, and nothing else changes. -/
def Obligations.IdleTick : Prop :=
  ∀ s : State, s.pending = [] → ∃ t, step s = .next t ∧ t.pending = [] ∧
    t.hw.now = (if s.hw.boot.pwrok = true ∧ s.hw.boot.hubRstN = true then s.hw.now + 1 else s.hw.now) ∧
    t.hw.sec = { s.hw.sec with cisternNs := s.hw.sec.cisternNs + 1 } ∧ s.hw.ChangesOnly [.time, .security] [] t.hw

/-- Every command, from every state, answers a next state; the queue is the same. -/
def Obligations.EveryCommandRuns : Prop := ∀ (c : Instr) (s : State), ∃ h, Completes c s h

/-- As many steps as commands are waiting, or fewer, take that many commands from the front of the queue, in order. -/
def Obligations.QueueServed : Prop :=
  ∀ (n : Nat) (s : State), n ≤ s.pending.length → ∃ t, Sys2Proof.core.run n s = .next t ∧ t.pending = s.pending.drop n

/-- At reset the register file, the timers, the DRAM, its spare slots and the staging are in canonical form. -/
def Obligations.ResetTidy : Prop := State.reset.hw.tidy = true

/-- Whatever the queue holds, a step from a state in canonical form leaves the register file, the timers, the DRAM, its spare
slots and the staging in canonical form. -/
def Obligations.TidyKept : Prop := ∀ s t : State, s.hw.tidy = true → step s = .next t → t.hw.tidy = true

/-- At reset the pins are low but for TSHUT_N, no command waits, memories, queues and tables are empty, and every register
whose reset value is one number reads that number, at every index. -/
def Obligations.ResetValues : Prop :=
  State.reset.pending = [] ∧ State.reset.hw.boot = {} ∧ State.reset.hw.boot.pwrok = false ∧ State.reset.hw.boot.hubRstN = false ∧
    State.reset.hw.boot.sliceRstN = 0 ∧ State.reset.hw.boot.tshutN = true ∧ State.reset.hw.mem.dram = [] ∧
    State.reset.hw.req.trackers = [] ∧
    (∀ n, State.reset.hw.reg Od.portState n = 0) ∧ (∀ n, State.reset.hw.reg Od.stackState n = 0) ∧
    ∀ r f i e, fieldOf r = some f → r ∉ [Od.classQuota, Od.frameMap, Od.routeKind, Od.routeTarget, Od.routeMask] →
      State.reset.hw.elem r i e = f.reset

/-- At reset the frame map of every stack is the default frame: with j = i mod 8, byte i reserves slot i to C0, C1, C2, C3, C0
for j = 0 to 4, to C4 or C5 for j = 5 and C6 or C7 for j = 6 as the block is even or odd, and to none for j = 7. That is 16
slots to C0, 8 each to C1, C2 and C3, 4 each to C4 to C7, 8 unreserved, and the longest run of slots reserved to others than C0
is 3. -/
def Obligations.DefaultFrame : Prop :=
  ∀ s : StackIx, let byte (i : Nat) : Nat := State.reset.hw.reg Od.frameMap s / 2 ^ (8 * i) % 256
    let count (v : Nat) : Nat := ((List.range 64).filter (fun i => byte i == v)).length
    (∀ i : Fin 64, byte i = match i.val % 8 with
      | 0 => 0
      | 1 => 1
      | 2 => 2
      | 3 => 3
      | 4 => 0
      | 5 => if i.val / 8 % 2 = 0 then 4 else 5
      | 6 => if i.val / 8 % 2 = 0 then 6 else 7
      | _ => 0xff) ∧
    count 0 = 16 ∧ count 1 = 8 ∧ count 2 = 8 ∧ count 3 = 8 ∧ count 4 = 4 ∧ count 5 = 4 ∧ count 6 = 4 ∧ count 7 = 4 ∧
    count 0xff = 8 ∧ State.reset.hw.reg Od.frameLongestC0Gap s = 3

/-- No command moves the hub timebase but the release of HUB_RST_N, the formation and the heartbeats of a span, and a loss of
power or a reset. -/
def Obligations.TimebaseWriters : Prop :=
  ∀ (c : Instr) (s t : State), exec c s = .next t → t.hw.now = s.hw.now ∨ c = .pwrokFall ∨ c = .hubRstAssert ∨
    (∃ m, c = .hubRstRelease m) ∨ (∃ x, c = .sliceRstAssert x) ∨ (∃ a b d e, c = .sp0Trained a b d e) ∨
    ∃ a b d e f, c = .heartbeatReceive a b d e f

/-- While PWROK and TSHUT_N are high and HUB_RST_N is low, its release raises it and starts the timebase at 0. -/
def Obligations.TimebaseRelease : Prop :=
  ∀ (m : BitVec 32) (s : State), s.hw.boot.pwrok = true → s.hw.boot.tshutN = true → s.hw.boot.hubRstN = false →
    Leads (.hubRstRelease m) s (fun h => h.now = 0 ∧ h.boot.hubRstN = true)

/-- What the debug port holds (selected instruction, challenge nonce, wrapper, what is shifted out) is the same after every
command that is no instruction of the debug port and no reset or loss of power. -/
def Obligations.DebugPortAlone : Prop :=
  ∀ (c : Instr) (s t : State), exec c s = .next t → t.hw.tap = s.hw.tap ∨ c = .pwrokFall ∨ c = .hubRstAssert ∨
    (∃ m, c = .hubRstRelease m) ∨ (∃ x, c = .sliceRstAssert x) ∨ c = .extest ∨ c = .samplePreload ∨ c = .idcode ∨
    (∃ a b d e, c = .dbgUnlock a b d e) ∨ (∃ a, c = .dictPeek a) ∨ (∃ x, c = .wirSelect x) ∨ (∃ k, c = .stewardHalt k) ∨
    (∃ k, c = .stewardResume k) ∨ (∃ k, c = .bypass k) ∨ c = .tapReset

/-- The staging of the engines changes only by a caravan step that writes through a caravan address, by the zeroing that ends a
release, and by a reset or a loss of power. -/
def Obligations.StagingWriters : Prop :=
  ∀ (c : Instr) (s t : State), exec c s = .next t → t.hw.car.staging = s.hw.car.staging ∨ c = .pwrokFall ∨ c = .hubRstAssert ∨
    (∃ m, c = .hubRstRelease m) ∨ (∃ x, c = .sliceRstAssert x) ∨ (∃ p f, c = .scrubVerify p f) ∨
    ∃ e, c = .move e ∨ c = .gather e ∨ c = .scatter e ∨ c = .convert e ∨ c = .accum e ∨ c = .fill e ∨ c = .digest e ∨
      c = .delta e ∨ c = .packz e ∨ c = .tile e ∨ c = .axpby e ∨ c = .moment e ∨ c = .ingest e

/-- FLIT_RECEIVE at a module that is up. A good flit that is no IDLE flit and carries the next sequence number is accepted: the
number is kept, no nak is owed, and the flit is handed on. One that is good but further ahead, or bad, is discarded and a nak is
owed; a repeated one is discarded. -/
def Obligations.FlitReception : Prop :=
  ∀ (stack : StackIx) (m : Fin 8) (e : Bool) (header : BitVec 32) (payload : List Byte) (crc : BitVec 32) (s : State),
    let k := linkKey stack m e
    let l := s.hw.link k
    let seq := flitField header 16 12
    l.st = .up →
    (flitGood header payload crc = true → flitField header 28 4 ≠ 0 → seq = (l.rxSeq + 1) % 4096 →
      Leads (.flitReceive stack m e header payload crc) s (fun h =>
        (h.link k).st = .up ∧ (h.link k).rxSeq = seq ∧ (h.link k).nak = false ∧ (h.link k).lastRx = s.hw.now ∧
        (h.link k).rx = [⟨seq, flitField header 28 4, flitField header 0 3, payload⟩])) ∧
    (flitGood header payload crc = true → flitField header 28 4 ≠ 0 → seq ≠ (l.rxSeq + 1) % 4096 →
      Leads (.flitReceive stack m e header payload crc) s (fun h =>
        (h.link k).rxSeq = l.rxSeq ∧ (h.link k).rx = l.rx ∧
        (h.link k).nak = if seqPast l.rxSeq seq < 2048 then l.nak else true)) ∧
    (flitGood header payload crc = false →
      Leads (.flitReceive stack m e header payload crc) s (fun h =>
        (h.link k).rxSeq = l.rxSeq ∧ (h.link k).rx = l.rx ∧ (h.link k).lastRx = l.lastRx ∧ (h.link k).nak = true))

/-- A module that is up and whose oldest flit has failed eight replays, or that has received nothing valid for 2 µs, retrains at
both ends; one whose flit stands undelivered 96 µs after its first failure fails at both ends at once. A retrain that delivers the
flit brings both ends up again with their retrains forgotten, with up to four lanes repaired at full width. -/
def Obligations.ModuleRetrain : Prop :=
  ∀ (stack : StackIx) (m : Fin 8) (e d : Bool) (s : State),
    let l := s.hw.link (linkKey stack m e)
    (l.st = .up → 8 ≤ l.replays → Leads (.replayLimitRetrain stack m e) s (fun h =>
      (h.link (linkKey stack m d)).st = .retrain ∧
      (h.link (linkKey stack m d)).retrains = (s.hw.link (linkKey stack m d)).retrains + 1)) ∧
    (l.st = .up → l.lastRx + 2000 ≤ s.hw.now → Leads (.flitIdleTimeout stack m e) s (fun h =>
      (h.link (linkKey stack m d)).st = .retrain)) ∧
    (∀ t, l.firstFail = some t → (l.st = .up ∨ l.st = .retrain) → t + 96000 ≤ s.hw.now →
      Leads (.flitDeliveryTimeout stack m e) s (fun h => (h.link (linkKey stack m d)).st = .failed ∧
        h.reg Od.qanatModulesActive stack = (s.hw.reg Od.qanatModulesActive stack - 1) % 2 ^ Od.qanatModulesActive.width)) ∧
    (∀ lanes, l.st = .retrain → Leads (.moduleRetrainDone stack m e lanes true) s (fun h =>
      (h.link (linkKey stack m d)).st = .up ∧ (h.link (linkKey stack m d)).retrains = 0 ∧
      (h.link (linkKey stack m d)).firstFail = none ∧ (h.link (linkKey stack m d)).lastRx = s.hw.now ∧
      (lanes ≤ 4 → (h.link (linkKey stack m d)).half = (s.hw.link (linkKey stack m d)).half ∧
        h.reg Od.qanatLanesRepaired stack = (s.hw.reg Od.qanatLanesRepaired stack + lanes) % 2 ^ Od.qanatLanesRepaired.width) ∧
      (4 < lanes → (h.link (linkKey stack m e)).half = true)))

/-- A PRESENT stack whose link has no module left when the retry budget runs out, or whose slice has sent no vc4 control flit for
10 µs while a module is up, is FAILED; the failure latches. -/
def Obligations.StackFailure : Prop :=
  ∀ (stack : StackIx) (s : State), s.hw.reg Od.stackState stack = 1 →
    (s.hw.reg Od.qanatModulesActive stack = 0 → s.hw.due Tm.budget stack = true →
      Leads (.qanatRetryBudgetExpiry stack) s (fun h => h.reg Od.stackState stack = 2 ∧ h.boot.failedLatch.testBit stack.val = true)) ∧
    (s.hw.modulesIn stack .up ≠ [] → s.hw.timer Tm.silence stack + 10000 ≤ s.hw.now →
      Leads (.sliceSilenceTimeout stack) s (fun h => h.reg Od.stackState stack = 2 ∧ h.boot.failedLatch.testBit stack.val = true))

/-- At its window a die publishes its τ and keeps the highest; the hub counts its windows. Every 100 ms, while a confidential
partition exists, the copies of the pace that operators and tenants read are taken afresh. -/
def Obligations.PaceWindows : Prop :=
  ∀ (s : State) (tau : BitVec 16),
    (s.hw.due Tm.sand 16 = true → Leads (.sandglassWindow none tau) s (fun h => h.reg Od.hubPace = tau.toNat ∧
      h.reg Od.hubPacePeak = max (s.hw.reg Od.hubPacePeak) tau.toNat % 2 ^ 16 ∧
      h.reg Od.hubPaceWindows = (s.hw.reg Od.hubPaceWindows + 1) % 2 ^ Od.hubPaceWindows.width ∧
      h.timer Tm.sand 16 = (s.hw.now / 1024 + 1) * 1024)) ∧
    (∀ d : StackIx, s.hw.due Tm.sand d = true → Leads (.sandglassWindow (some d) tau) s (fun h => h.reg Od.slicePace d = tau.toNat ∧
      h.reg Od.slicePacePeak d = max (s.hw.reg Od.slicePacePeak d) tau.toNat % 2 ^ 16 ∧
      h.timer Tm.sand d = (s.hw.now / 1024 + 1) * 1024)) ∧
    (s.hw.confidential = true → s.hw.due Tm.paceRef 0 = true → Leads .paceQuantizedRefresh s (fun h =>
      h.timer Tm.paceRef 0 = s.hw.now + 100000000 ∧
      ∀ r i e, r ∈ [Od.hubPace, Od.hubPacePeak, Od.slicePace, Od.slicePacePeak] →
        Table.look h.odPace (odKey r i e) = Table.look s.hw.od (odKey r i e)))

/-- An RD, WR, WRP, ATM or LAUNCH that arrives on a quiet port and passes all seven steps of admission takes a tracker entry with
its fields and data, its requester's epoch and class, marks its sequence number in flight, and waits at the stack ingress of the
stack it names, where a grant is already decided. -/
def Obligations.RequestsQueued : Prop :=
  ∀ (x : Hdr) (s : State),
    (∀ len addr, let r := s.hw.typed x 1 len.toNat 0 0 addr.toNat
      s.hw.waitsAt r (dpaStack r.addr) → Leads (.rd x len addr) s (fun h => s.hw.queuedAt h r (dpaStack r.addr))) ∧
    (∀ len addr data psn, let r := (s.hw.typed x 2 len.toNat 0 0 addr.toNat).bringing data [] psn
      s.hw.waitsAt r (dpaStack r.addr) → Leads (.wr x len addr data psn) s (fun h => s.hw.queuedAt h r (dpaStack r.addr))) ∧
    (∀ len addr data mask psn, let r := (s.hw.typed x 3 len.toNat 0 0 addr.toNat).bringing data mask psn
      s.hw.waitsAt r (dpaStack r.addr) → Leads (.wrp x len addr data mask psn) s (fun h => s.hw.queuedAt h r (dpaStack r.addr))) ∧
    (∀ addr v, let r := (s.hw.typed x 5 0 0 0 addr.toNat).bringing (bytesOf v 8) [] []
      s.hw.waitsAt r (dpaStack r.addr) → Leads (.fadd64 x addr v) s (fun h => s.hw.queuedAt h r (dpaStack r.addr))) ∧
    (∀ addr v, let r := (s.hw.typed x 5 0 1 0 addr.toNat).bringing (bytesOf v 8) [] []
      s.hw.waitsAt r (dpaStack r.addr) → Leads (.swap64 x addr v) s (fun h => s.hw.queuedAt h r (dpaStack r.addr))) ∧
    (∀ addr v w, let r := (s.hw.typed x 5 0 2 0 addr.toNat).bringing (bytesOf v 16 ++ bytesOf w 16) [] []
      s.hw.waitsAt r (dpaStack r.addr) → Leads (.cas128 x addr v w) s (fun h => s.hw.queuedAt h r (dpaStack r.addr))) ∧
    (∀ engine prog (stack : StackIx) regs descs,
      let r := (s.hw.typed x 6 (if descs.isEmpty then 1 else 3) engine.toNat (prog.toNat * 2 ^ 13) (stack.val * 2 ^ 37)).bringing
        (fitTo 128 0 (regs.flatMap (fun g => bytesOf g 8)) ++ descs.flatMap (fun d => bytesOf d 32)) [] []
      s.hw.failed stack = false → s.hw.waitsAt r stack →
        Leads (.launch x engine prog stack regs descs) s (fun h => s.hw.queuedAt h r stack))

/-- An ACW that passes admission on a quiet port, of a session that is OPEN and does not exclude its contributor, waits at the
ingress of the stack that accumulates, where a grant is already decided; of a session that is no longer to take any (state 3 or
above) it completes with ABORTED. -/
def Obligations.ContributionQueued : Prop :=
  ∀ (x : Hdr) (len : BitVec 6) (n : BitVec 8) (k : BitVec 12) (chunk : BitVec 32) (data : List Byte) (psn : List Bool) (s : State),
    let r := (s.hw.typed x 4 len.toNat 0 (n.toNat * 4096 + k.toNat) chunk.toNat).bringing data [] psn
    s.hw.waitsAt r (s.hw.accStack n.toNat) →
    (s.hw.reg Od.redState n.toNat = 2 → (s.hw.reg Od.redExcluded n.toNat).testBit k.toNat = false →
      Leads (.acw x len n k chunk data psn) s (fun h => s.hw.queuedAt h r (s.hw.accStack n.toNat))) ∧
    (3 ≤ s.hw.reg Od.redState n.toNat → Leads (.acw x len n k chunk data psn) s (fun h =>
      ∃ t, h.trk r.uid = some t ∧ t.rq = s.hw.kept r ∧ t.phase = .responding ∧ t.status = St.aborted ∧
        s.hw.ChangesOnly servedParts servedRegs h))

/-- What an RD meets on a quiet port, in the order of admission: MALFORMED, FENCED or UNMAPPED is answered at once; a requester
without the rights is DENIED through the refusal delay line, 2 µs later; in each case no tracker entry is taken. -/
def Obligations.RequestsRefused : Prop :=
  ∀ (x : Hdr) (len : BitVec 6) (addr : BitVec 41) (s : State),
    let r := s.hw.typed x 1 len.toNat 0 0 addr.toNat
    let answered (status : Nat) (h : Hw) : Prop := h.req.trackers = s.hw.req.trackers ∧
      s.hw.ChangesOnly [.requests, .pair] [Od.selCount, Od.reqTimeouts] h ∧
      (h.port r.port).ready = (s.hw.port r.port).ready ++
        [{ op := 1, requester := r.requester, tag := r.tag, status := status, cls := s.hw.classOf r, ready := s.hw.now }]
    s.hw.portQuiet r.port → s.hw.dataHeld r.port ≤ 4096 → s.hw.reg Od.pairState ≠ 6 →
    (s.hw.formed r = false → Leads (.rd x len addr) s (answered St.malformed)) ∧
    (s.hw.formed r = true → s.hw.fenced = true → Leads (.rd x len addr) s (answered St.fenced)) ∧
    (s.hw.formed r = true → s.hw.fenced = false → s.hw.unmapped r = true → Leads (.rd x len addr) s (answered St.unmapped)) ∧
    (s.hw.formed r = true → s.hw.fenced = false → s.hw.unmapped r = false → s.hw.rights r = false →
      Leads (.rd x len addr) s (fun h => h.req.trackers = s.hw.req.trackers ∧
        (h.port r.port).refusals = (s.hw.port r.port).refusals ++
          [(s.hw.now + 2000, { op := 1, requester := r.requester, tag := r.tag, status := St.denied, cls := s.hw.classOf r })] ∧
        s.hw.ChangesOnly [.requests] [Od.selCount, Od.reqRefusals, Od.portRefusalLine] h ∧
        h.reg Od.reqRefusals r.requester = (s.hw.reg Od.reqRefusals r.requester + 1) % 2 ^ Od.reqRefusals.width))

/-- A header whose parity checks and that brings no data is admitted at once; a WR or WRP header takes its tracker entry and waits
for its beats, in the order of headers. A header with bad parity in its opcode or length byte puts the port into ERROR; one with
bad parity elsewhere is discarded, and so are its beats. A beat joins the request it belongs to while more are to come, or is
discarded; one that no header asked for puts the port into ERROR. -/
def Obligations.HeadersAndBeats : Prop :=
  ∀ (port : PortIx) (header : BitVec 128) (parity : BitVec 16) (s : State),
    let n := port.val
    let r := headerRq header n s.hw.req.uidNext s.hw.now
    let errored (h : Hw) : Prop := s.hw.ChangesOnly [.timers, .requests, .messages]
      (eventRegs ++ doneRegs ++ [Od.portState, Od.portHdrParity, Od.portDeferred, Od.portProtocolErrors, Od.portBlockedNs]) h
    ((∀ i, i < 16 → headerParityOk header parity i = true) → r.op = 1 → s.hw.waitsAt r (dpaStack r.addr) →
      Leads (.requestHeader port header parity) s (fun h => s.hw.queuedAt h r (dpaStack r.addr))) ∧
    ((∀ i, i < 16 → headerParityOk header parity i = true) → (r.op = 2 ∨ r.op = 3) → s.hw.portQuiet n → s.hw.permits r →
      s.hw.hasRoom r → Leads (.requestHeader port header parity) s (fun h =>
        (∃ t, h.trk r.uid = some t ∧ t.rq = s.hw.kept { r with beatsLeft := r.beats } ∧ t.phase = .waitData) ∧
        (h.port n).beats = (s.hw.port n).beats ++ [{ uid := some r.uid, left := r.beats }] ∧
        s.hw.ChangesOnly [.lfsr, .requests] [Od.selCount, Od.reqSeqNewest, Od.reqInflight] h)) ∧
    ((headerParityOk header parity 8 = false ∨ headerParityOk header parity 15 = false) → s.hw.reg Od.portState n = 1 →
      (s.hw.port n).ingress = [] →
      Leads (.requestHeader port header parity) s (fun h => h.reg Od.portState n = 2 ∧ errored h)) ∧
    (headerParityOk header parity 8 = true → headerParityOk header parity 15 = true →
      (∃ i, i < 16 ∧ headerParityOk header parity i = false) → (r.op = 2 ∨ r.op = 3) → s.hw.reg Od.portState n = 1 →
      Leads (.requestHeader port header parity) s (fun h => h.req.trackers = s.hw.req.trackers ∧
        s.hw.ChangesOnly [.requests] [Od.portHdrParity] h ∧ (h.port n).beats = (s.hw.port n).beats ++ [{ uid := none, left := beatsOf r.len }] ∧
        h.reg Od.portHdrParity n = (s.hw.reg Od.portHdrParity n + 1) % 2 ^ Od.portHdrParity.width)) ∧
    ∀ data par mask psn last, s.hw.reg Od.portState n = 1 →
      ((s.hw.port n).beats = [] → (s.hw.port n).ingress = [] → Leads (.dataBeat port data par mask psn last) s (fun h => h.reg Od.portState n = 2 ∧ errored h)) ∧
      (∀ b rest, (s.hw.port n).beats = b :: rest → b.uid = none → s.hw.dataHeld n < 4096 → last = decide (b.left ≤ 1) →
        Leads (.dataBeat port data par mask psn last) s (fun h => h = { s.hw with req := { s.hw.req with ports := h.req.ports } } ∧
          (h.port n).beats = if b.left ≤ 1 then rest else { b with left := b.left - 1 } :: rest)) ∧
      (∀ b rest uid t, (s.hw.port n).beats = b :: rest → b.uid = some uid → s.hw.trk uid = some t → 1 < b.left → last = false →
        s.hw.dataHeld n < 4096 → Leads (.dataBeat port data par mask psn last) s (fun h => h = { s.hw with req := h.req } ∧
          h.trk uid = some { t with rq := t.rq.addBeat data ((List.range 128).map mask.getLsbD) [psn.getLsbD 0, psn.getLsbD 1] (!beatParityOk data par) } ∧
          (h.port n).beats = { b with left := b.left - 1 } :: rest))

/-- The first deferred request whose requester is below req_limit, and a held header, take a tracker entry once one is free. A
DENIED that is due joins egress. Egress takes the next unit when the one before it has left, and the last beat of a response
releases its tracker entry. A request that has waited request_timeout_us completes with TIMEOUT. -/
def Obligations.PortWaits : Prop :=
  ∀ (port : PortIx) (s : State), let n := port.val
    (∀ r, (s.hw.port n).deferred.find? (fun r => decide (s.hw.reg Od.reqInflight r.requester < s.hw.reg Od.reqLimit r.requester)) = some r →
      s.hw.trkFree = true → (s.hw.port n).ingress = [] → r.beatsLeft ≠ 0 → Leads (.deferredRelease port) s (fun h =>
        (∃ t, h.trk r.uid = some t ∧ t.phase = .waitData ∧ t.rq.requester = r.requester ∧ t.rq.tag = r.tag) ∧
        (h.port n).deferred = (s.hw.port n).deferred.erase r ∧
        s.hw.ChangesOnly [.lfsr, .requests] [Od.portDeferred, Od.reqInflight, Od.portBlockedNs] h ∧
        h.reg Od.reqInflight r.requester = (s.hw.reg Od.reqInflight r.requester + 1) % 2 ^ Od.reqInflight.width)) ∧
    (∀ r, (s.hw.port n).held = some r → s.hw.trkFree = true → (s.hw.port n).ingress = [] → r.beatsLeft ≠ 0 →
      Leads (.heldIngressAdmit port) s (fun h => (h.port n).held = none ∧
        (∃ t, h.trk r.uid = some t ∧ t.phase = .waitData ∧ t.rq.requester = r.requester ∧ t.rq.tag = r.tag) ∧
        s.hw.ChangesOnly [.lfsr, .requests] [Od.reqInflight, Od.portBlockedNs] h ∧
        h.reg Od.reqInflight r.requester = (s.hw.reg Od.reqInflight r.requester + 1) % 2 ^ Od.reqInflight.width)) ∧
    (∀ t u rest, (s.hw.port n).refusals = (t, u) :: rest → t ≤ s.hw.now → s.hw.reg Od.pairState ≠ 6 →
      Leads (.deniedDue port) s (fun h => (h.port n).refusals = rest ∧
        (h.port n).ready = (s.hw.port n).ready ++ [{ u with ready := s.hw.now }] ∧
        h.reg Od.portRefusalLine n = rest.length % 2 ^ Od.portRefusalLine.width)) ∧
    (∀ u, (s.hw.port n).sending = none → s.hw.reg Od.portState n = 1 → s.hw.egressNext n = some u → u.wm = none →
      Leads (.egressPick port) s (fun h => (h.port n).sending = some u ∧ (h.port n).ready = (s.hw.port n).ready.erase u)) ∧
    (∀ u uid t, (s.hw.port n).sending = some u → u.trk = some uid → s.hw.trk uid = some t → t.rq.op ≠ 9 → u.op ≠ 0x10 →
      Leads (.responseLastBeat port) s (fun h => (h.port n).sending = none ∧ h.trk uid = none ∧
        h.reg Od.reqInflight t.rq.requester = (s.hw.reg Od.reqInflight t.rq.requester - 1) % 2 ^ Od.reqInflight.width)) ∧
    ∀ uid t, s.hw.trk uid = some t → t.phase ≠ .responding → t.rq.op ≠ 9 → s.hw.timedOut t.rq = true → s.hw.discards t = false →
      (∀ e ∈ s.hw.req.trackers, e.2.phase ≠ .waitOriginal) →
      Leads (.requestTimeout uid) s (fun h => h.trk uid = some { t with phase := .responding, status := St.timeout } ∧
        s.hw.ChangesOnly [.timers, .links, .requests, .slices, .reductions, .pair, .messages] (doneRegs ++ [Od.redParked]) h)

/-- An ODW that passes admission on a quiet port is served as it is dispatched: its response, with its tracker entry, waits at
the port's egress. A read answers OK or UNAVAILABLE; one of a reduction's objects brings the length, 14 zero bytes and the value,
padded to whole units of 64 B. A write of a partition's owner-loss rule or snoop timeout stores the value in range and answers OK. -/
def Obligations.DictionaryByOdw : Prop :=
  ∀ (x : Hdr) (index : BitVec 16) (inst : BitVec 12) (sub : BitVec 8) (first count : BitVec 16) (s : State),
    let g : Reg := ⟨index.toNat, sub.toNat⟩
    let i := inst.toNat
    let a : Actor := .requester x.requester.toNat x.secure
    let taken (r : Rq) : Prop := s.hw.takesIn r ∧ s.hw.adpForwards = false ∧ s.hw.itemAway g i = none ∧ s.hw.remoteCopy g.index i = false
    let answers (r : Rq) (st : Nat) (data : List Byte) (h : Hw) : Prop := h.respondsTo r st data
    let r := (s.hw.typed x 8 0 0 0 (odwAddr index inst sub)).bringing (bytesOf first 2 ++ bytesOf count 2) [] []
    (taken r → Leads (.odwRead x index inst sub first count) s (fun h =>
      s.hw.ChangesOnly (servedParts ++ ([.draws] : List Part)) servedRegs h ∧ ((∃ d, answers r St.ok d h) ∨ answers r St.unavailable [] h))) ∧
    (∀ n u v, taken r → g.index / 4096 = 8 → s.hw.covers g i first.toNat count.toNat = some (n, u) →
        s.hw.readLocal a g i first.toNat n = some v → Leads (.odwRead x index inst sub first count) s
          (answers r St.ok (padUnits (natBytes (n * u) 2 ++ List.replicate 14 0 ++ v)))) ∧
    ∀ value : List Byte,
      let data := bytesOf first 2 ++ bytesOf count 2 ++ natBytes value.length 2 ++ List.replicate 10 0 ++ value
      let r := (s.hw.typed x 8 ((data.length + 63) / 64 - 1) 1 0 (odwAddr index inst sub)).bringing data [] []
      taken r → (g = Od.cohOwnerLoss ∨ g = Od.cohSnoopTimeoutUs) → first = 0 → value.length ≤ 16 →
        (∀ f, s.hw.fieldAt g i = some f → s.hw.check f g i (bytesNat value) = some (bytesNat value, false)) →
        Leads (.odwWrite x index inst sub first count value) s (fun h => h.reg g i = bytesNat value ∧ answers r St.ok [] h ∧
          s.hw.ChangesOnly (servedParts ++ ([.links] : List Part)) (servedRegs ++ [g, Od.mirrorBufferBytes]) h)

/-- A write of req_state that the dictionary accepts and the requester's state allows takes effect: its epoch advances, and
ACTIVE and RESET leave an empty sequence window, ABSENT no rights in any partition. -/
def Obligations.RequesterStates : Prop :=
  ∀ (who : Actor) (r : BitVec 12) (s : State), let n := r.toNat
    let old := s.hw.reg Od.reqState n
    let cleared (h : Hw) : Prop := h.reg Od.reqSeqNewest n = 0 ∧ Table.look h.req.seqLive n = none ∧ ∀ q, h.win n q = 0
    let advanced (h : Hw) : Prop := h.reg Od.reqEpoch n = (s.hw.reg Od.reqEpoch n + 1) % 2 ^ Od.reqEpoch.width
    (s.hw.accepts who Od.reqState n 1 → (old = 0 ∨ old = 3) → Leads (.reqStateActive who r) s (fun h =>
      h.reg Od.reqState n = 1 ∧ advanced h ∧ cleared h ∧ Table.look h.req.homes n = none)) ∧
    (s.hw.accepts who Od.reqState n 2 → old = 1 → Leads (.reqStateReset who r) s (fun h =>
      h.reg Od.reqState n = 1 ∧ advanced h ∧ cleared h)) ∧
    (s.hw.accepts who Od.reqState n 3 → old = 1 → Leads (.reqStateDead who r) s (fun h =>
      h.reg Od.reqState n = 3 ∧ advanced h ∧ cleared h)) ∧
    (s.hw.accepts who Od.reqState n 0 → (old = 1 ∨ old = 3) → Leads (.reqStateAbsent who r) s (fun h =>
      h.reg Od.reqState n = 0 ∧ advanced h ∧ h.reg Od.reqPartitions n = 0 ∧ h.reg Od.reqWrite n = 0 ∧ h.reg Od.reqSecure n = 0))

/-- A BIRSP that passes admission on a quiet port waits at the stack its snoop ID names, where a grant is already decided, and
takes no place among its requester's requests. The oldest piece at a slice's input goes to the directory where its partition is
coherent; a read of another partition is cut into queue entries; a BIRSP that no snoop waits for is discarded and counted. CANCEL
drops what a slice has not yet placed of a request. -/
def Obligations.SliceInput : Prop :=
  ∀ (s : State),
    (∀ x kind addr, let r := s.hw.typed x 9 0 (BitVec.toNat kind) 0 (BitVec.toNat addr)
      let st := r.tag / 4096
      s.hw.portQuiet r.port → s.hw.dataHeld r.port ≤ 4096 → s.hw.formed r = true → s.hw.fenced = false → s.hw.unmapped r = false →
      s.hw.exists st = true → (s.hw.arb st).next.isSome = true → (s.hw.inbox st).length ≠ 1 →
      Leads (.birsp x kind addr) s (fun h =>
        (∃ t, h.trk r.uid = some t ∧ t.rq.op = 9 ∧ t.rq.tag = r.tag ∧ t.phase = .queued) ∧
        r.uid ∈ Table.atD (h.arb st).queues (fun _ => []) (r.port * 8 + s.hw.classOf r) ∧
        s.hw.ChangesOnly [.requests] [Od.selCount] h)) ∧
    (∀ (stack : StackIx) p rest, s.hw.inbox stack = p :: rest → s.hw.degrading stack = false → s.hw.wcbFull p = false →
      (s.hw.stage stack).length < 4096 →
      (p.op ≠ 9 → s.hw.coherent p.part = true → Leads (.sliceInput stack) s (fun h => h.inbox stack = rest ∧
        h.dirIn (s.hw.dirStack p.stack) = s.hw.dirIn (s.hw.dirStack p.stack) ++ [p])) ∧
      (∀ t, let phys := s.hw.physical p.stack p.off
        p.op = 1 → s.hw.coherent p.part = false → s.hw.trk p.trk = some t → s.hw.isHeld p = false → s.hw.retired p.dpa = false →
        (∀ q, q ∈ s.hw.cutRows p.stack phys p.len → s.hw.lostAt p.stack (s.hw.coord p.stack q.1).pc = false ∧
          ∀ k, k ∈ sectorsOf p.stack q.1 q.2 → Table.look s.hw.mem.wcb k = none) →
        Leads (.sliceInput stack) s (fun h => h.inbox stack = rest ∧
          (h.stage p.stack).length = (s.hw.stage p.stack).length + (s.hw.cutRows p.stack phys p.len).length ∧
          ∃ u, h.trk p.trk = some u ∧ u.rq = t.rq ∧ u.piecesLeft = p.len / 32)) ∧
      (p.op = 9 → Table.look s.hw.coh.snoops p.trk = none → Leads (.sliceInput stack) s (fun h => h.inbox stack = rest ∧
        h.coh.snoops = s.hw.coh.snoops ∧
        h.reg Od.dirBirspStale (p.trk / 4096 % 16) =
          (s.hw.reg Od.dirBirspStale (p.trk / 4096 % 16) + 1) % 2 ^ Od.dirBirspStale.width))) ∧
    ∀ (tracker : BitVec 16) uid, s.hw.sl.cancels.find? (fun u => u % 65536 == tracker.toNat) = some uid →
      let other (p : Piece) : Bool := p.trk != uid || p.op == 9
      Leads (.cancel tracker) s (fun h => uid ∉ h.sl.cancels ∧ (∀ st, h.inbox st = (s.hw.inbox st).filter other) ∧
        (∀ st, h.dirIn st = (s.hw.dirIn st).filter other) ∧ (∀ st, h.dirWaiting st = (s.hw.dirWaiting st).filter other) ∧
        h.sl.holds = s.hw.sl.holds.filter other)

/-- The oldest access of its bank that the bank queue admits enters it, and waits for older writes to its columns. The activate
pick opens the row of its entry. The column pick steps the bus mode, and releases one column of the entry picked if every timing
has elapsed: a read's word arrives after t_cl and the burst. A clean word that arrives goes to its request. -/
def Obligations.SchedulerPicks : Prop :=
  ∀ (g : PcIx) (s : State), let st := g.val / 64
    (∀ x, s.hw.lostAt st (g.val % 64) = false →
      (s.hw.stage st).find? (fun x => decide (s.hw.entryPc x = g.val) && (((s.hw.stage st).filter (fun y =>
        decide (s.hw.entryPc y = g.val) && y.bank == x.bank)).head? == some x) && s.hw.admits g x) = some x →
      Leads (.queueEntryAdmit g) s (fun h => h.stage st = (s.hw.stage st).erase x ∧
        (h.queue g).length = (s.hw.queue g).length + 1 ∧ (h.queue g).getLast? =
          some { x with rawWait := x.kind != 1 && (s.hw.queue g).any (fun y => y.kind == 1 && x.overlaps y) })) ∧
    (s.hw.canCommand g = true → s.hw.blankSlot st = false → (s.hw.busStep g).2 = [] → Leads (.columnPick g) s (fun h =>
      h.reg Od.pcBusMode g = (s.hw.busStep g).1 ∧ h.queue g = s.hw.queue g)) ∧
    (∀ x aged, s.hw.canCommand g = true → s.hw.blankSlot st = false → (s.hw.busStep g).1 = s.hw.reg Od.pcBusMode g →
      s.hw.pickColumn g (s.hw.busStep g).2 = some (x, aged) → s.hw.colReady g x = true → x.done < x.ncol →
      Leads (.columnPick g) s (fun h => (h.pc g).lastCol = some (s.hw.ps, x.bank, decide (x.kind = 1)) ∧
        { x with done := x.done + 1 } ∈ h.queue g ∧
        (x.kind = 1 → (h.bank g x.bank).lastWrite = some s.hw.ps) ∧
        (x.kind ≠ 1 → (h.bank g x.bank).lastRead = some s.hw.ps ∧
          (h.pc g).inflight = (s.hw.pc g).inflight ++ [(s.hw.ps + s.hw.tim st Od.tCl + s.hw.tim st Od.tBurst,
            { x with words := [s.hw.rawCol st { pc := g.val % 64, bank := x.bank, row := x.row, col := x.col + x.done }] })]))) ∧
    (∀ b x, let k := s.hw.closeConflicts g
      s.hw.canCommand g = true → s.hw.blankSlot st = false → k.pickActivate g = some b → k.actEntry g b = some x → k.actReady g b = true →
      Leads (.activatePick g) s (fun h => h.bank g b = { row := some x.row, actAt := some s.hw.ps, preAt := none, streak := 0 } ∧
        (h.pc g).ptr = (b + 1) % 64)) ∧
    ∀ flips t x rest u data p, let c : Coord := { pc := g.val % 64, bank := x.bank, row := x.row, col := x.col + x.done }
      let off := s.hw.offOf st c
      (s.hw.pc g).inflight = (t, x) :: rest → t ≤ s.hw.ps → x.kind = 0 → s.hw.trk x.who.tag = some u → 1 < u.piecesLeft →
      rsDecode (s.hw.erasures st c) (flips.foldl (fun (w : List Byte) (f : Fin 36 × Byte) => w.set f.1 (w.getD f.1 0 ^^^ f.2)) (x.words.headD [])) = (.clean, data, p) →
      (s.hw.unsettledLines (secKey st off)).testBit (off % 256 / 64) = false →
      Leads (.columnData g flips) s (fun h => (h.pc g).inflight = rest ∧ h.trk x.who.tag =
        some { u with out := u.out ++ [(dpaOf st (s.hw.visible st off) - u.rq.addr, s.hw.decCol st off data)], piecesLeft := u.piecesLeft - 1 })

/-- A REFab that is due closes every bank and opens a refresh slot; the queued RFMs issue in it, and at its end the waiting ones
queue. A changed multiplier starts a new epoch; a refresh window's end clears the row-activity entries of its stack; expired
throttles go; a pending calibration pause starts in an idle gap, or after 10 ms in a slot, and at its end no other starts for 10 µs. -/
def Obligations.RefreshAndRfm : Prop :=
  ∀ (g : PcIx) (stack : StackIx) (s : State),
    (∀ t, (s.hw.pc g).nextDue = some t → t ≤ s.hw.ps → s.hw.refreshes g = true → (s.hw.pc g).slotUntil = none →
      (s.hw.pc g).pauseUntil = none → s.hw.switching (g.val / 64) = false → Leads (.refreshDue g) s (fun h =>
        (h.pc g).nextDue = some (t + max 1 (s.hw.refi (g.val / 64))) ∧ (h.pc g).slotUntil.isSome = true ∧
        ∀ b, b < 64 → (h.bank g b).row = none)) ∧
    (∀ t, (s.hw.pc g).slotUntil = some t → Leads (.rfmIssue g) s (fun h => (h.pc g).rfmQueued = [] ∧
      ∀ b i, b ∈ (s.hw.pc g).rfmQueued → i < 32 → (h.raAt g b i).pending = false)) ∧
    (∀ t, (s.hw.pc g).slotUntil = some t → t ≤ s.hw.ps → (s.hw.pc g).rfmQueued = [] → Leads (.refreshSlotEnd g) s (fun h =>
      (h.pc g).slotUntil = none ∧ (h.pc g).rfmQueued = (s.hw.pc g).rfmWaiting.take 8 ∧
      (h.pc g).rfmWaiting = (s.hw.pc g).rfmWaiting.drop 8)) ∧
    (s.hw.reg Od.refPendingMultiplier stack ≠ 0xff → s.hw.timer Tm.refPend stack ≤ s.hw.ps → s.hw.timer Tm.refDue stack ≠ 0 →
      Leads (.refreshMultiplierChange stack) s (fun h => h.reg Od.refMultiplier stack = s.hw.reg Od.refPendingMultiplier stack ∧
        h.reg Od.refPendingMultiplier stack = 0xff ∧ h.timer Tm.refDue stack = s.hw.timer Tm.refPend stack + 1)) ∧
    (s.hw.due Tm.refWin stack = true → Leads (.refreshWindowEnd stack) s (fun h =>
      h.timer Tm.refWin stack = s.hw.now + 8192 * s.hw.refi stack / 1000 ∧
      Table.atD h.sl.raNow (fun _ => 4096) stack = s.hw.reg Od.raThreshold ∧
      ∀ pc b i, pc < 64 → b < 64 → i < 32 → h.raAt (gOf stack pc) b i = {})) ∧
    Leads (.throttleExpiry g) s (fun h => (h.pc g).throttles = (s.hw.pc g).throttles.filter (fun t => decide (s.hw.now < t.expiry))) ∧
    (s.hw.pauseWanted g = true → (s.hw.pc g).slotUntil = none → s.hw.queue g = [] → (s.hw.pc g).emptySince + 64 ≤ s.hw.now →
      (∀ t, (s.hw.pc g).nextDue = some t → s.hw.ps + 800000 < t) → Leads (.pauseIdleGap g) s (fun h =>
        (h.pc g).pauseUntil = some (s.hw.ps + 800000) ∧ (h.pc g).pauseReq = none ∧ h.reg Od.calState g = 2)) ∧
    (∀ t till, s.hw.pauseWanted g = true → (s.hw.pc g).pauseReq = some t → (s.hw.pc g).slotUntil = some till →
      t + 10000000 ≤ s.hw.now → (s.hw.pc g).rfmQueued = [] → Leads (.pauseForced g) s (fun h =>
        (h.pc g).pauseUntil = some (max s.hw.ps (till - s.hw.reg Od.tRfcab (g.val / 64) + 800000)) ∧
        (h.pc g).pauseReq = none ∧ h.reg Od.calState g = 2)) ∧
    (∀ t, (s.hw.pc g).pauseUntil = some t → t ≤ s.hw.ps → s.hw.reg Od.calState g ≠ 2 → Leads (.pauseEnd g) s (fun h =>
      (h.pc g).pauseUntil = none ∧ (h.pc g).pauseAfter = s.hw.now + 10000))

/-- A stack takes the level it is asked for at once where its pin rate stays; a rise into L3 or L4 starts a rate switch, at whose
end divisor and level are set and every READY pseudo-channel asks for a calibration pause. A stack warm enough leaves COLD_HOLD for
TRAINING. An attempt with at most two failed lanes leads to ZERO_FILL, the third one with more to FAILED; after the fill every
word reads as the fill and the pseudo-channel is READY. -/
def Obligations.LevelsAndStartUp : Prop :=
  ∀ (g : PcIx) (stack : StackIx) (s : State),
    let want := s.hw.wantLevel stack
    let level := s.hw.reg Od.thermLevel stack
    (s.hw.switching stack = false → levelDivisor want = levelDivisor level →
      Leads (.thermalLevelChange stack) s (fun h => h.reg Od.thermLevel stack = want % 2 ^ Od.thermLevel.width)) ∧
    (s.hw.switching stack = false → s.hw.pausing stack = false → s.hw.inSlot stack = false → s.hw.reg Od.stackState stack = 1 →
      levelDivisor level < levelDivisor want → Leads (.rateSwitch stack) s (fun h =>
        Table.look h.sl.rateSwitchTo stack = some want ∧ Table.look h.sl.dwell stack = none ∧
        ∀ pc, pc < 64 → (h.pc (gOf stack pc)).nextDue = none)) ∧
    (∀ to_, Table.look s.hw.sl.rateSwitchTo stack = some to_ → Leads (.rateSwitchDone stack) s (fun h =>
      h.switching stack = false ∧ h.reg Od.stackRateDivisor stack = levelDivisor to_ ∧
      h.reg Od.thermLevel stack = to_ % 2 ^ Od.thermLevel.width ∧
      ∀ pc, pc < 64 → s.hw.reg Od.pcState (gOf stack pc) = 4 → (h.pc (gOf stack pc)).pauseReq.isSome = true)) ∧
    (s.hw.sreg Od.thermStackTemp stack ≠ -128 → s.hw.sreg Od.thermColdExit ≤ s.hw.sreg Od.thermStackTemp stack →
      Leads (.coldHoldExit stack) s (fun h => ∀ pc, pc < 64 → h.reg Od.pcState (gOf stack pc) =
        if s.hw.reg Od.pcState (gOf stack pc) = 1 then 2 else s.hw.reg Od.pcState (gOf stack pc))) ∧
    (∀ lanes taps cl, s.hw.reg Od.pcState g = 2 → (lanes.map (fun (f : Fin 38) => f.val)).dedup.length ≤ 2 →
      Leads (.trainingAttemptDone g lanes taps cl) s (fun h => h.reg Od.pcState g = 3 ∧ (h.pc g).attempts = 0 ∧
        h.reg Od.spareMap g = spareMapOf (lanes.map (fun (f : Fin 38) => f.val)).dedup % 2 ^ Od.spareMap.width)) ∧
    (∀ lanes taps cl, s.hw.reg Od.pcState g = 2 → 2 < (lanes.map (fun (f : Fin 38) => f.val)).dedup.length →
      Leads (.trainingAttemptDone g lanes taps cl) s (fun h => (h.pc g).attempts = (s.hw.pc g).attempts + 1 ∧
        h.reg Od.pcState g = if (s.hw.pc g).attempts < 2 then 2 else 6)) ∧
    (s.hw.reg Od.pcState g = 3 → Leads (.zeroFillDone g) s (fun h => h.reg Od.pcState g = 4 ∧
      (∀ k, k / 2 ^ 32 = g.val → Table.look h.mem.dram k = none) ∧ Table.look h.mem.fills g = none ∧
      ∀ k, k / 1024 = g.val → Table.look h.mem.spare k = none))

/-- While no grant is decided and the window of 256 grants lasts, the pick decides the next owner among the candidates. The grant
that starts passes between one and arb_burst_max of its owner's headers, or is a dead step where its candidate has gone; an owner
that still requests after them is cut off and counted. A credit on its way back arrives; at a window's end the quotas start again
and the changed class records apply; a slot's start notes its class; a period's end restarts the miss counts. -/
def Obligations.ArbiterGrants : Prop :=
  ∀ (stack : StackIx) (s : State), let a := s.hw.arb stack
    (∀ w b, a.next = none → a.windowGrants < 256 →
      a.pick (s.hw.candidates stack) (s.hw.slotOwner stack (s.hw.now / 16 % 64)) = some (w, b) →
      Leads (.arbiterPick stack) s (fun h => h.arb stack = b ∧ b.next = some { source := w.1, cls := w.2 } ∧
        w ∈ s.hw.candidates stack ∧ b.windowGrants = a.windowGrants + 1)) ∧
    (∀ g, a.next = some g →
      (s.hw.candidate stack g.source g.cls = none → Leads (.grantStart stack) s (fun h =>
        (h.arb stack).next = none ∧ (h.arb stack).current = none ∧ (h.arb stack).dead = true)) ∧
      (s.hw.candidate stack g.source g.cls ≠ none → 1 ≤ s.hw.reg Od.arbBurstMax → Leads (.grantStart stack) s (fun h =>
        (h.arb stack).next = none ∧ (h.arb stack).dead = false ∧ ∃ n, 1 ≤ n ∧ n ≤ s.hw.reg Od.arbBurstMax ∧
          (h.arb stack).current = some { g with passed := n }))) ∧
    (∀ g, a.current = some g → s.hw.reg Od.arbBurstMax ≤ g.passed → (s.hw.candidate stack g.source g.cls).isSome = true →
      g.source < 33 → Leads (.burstCutoff stack) s (fun h => (h.arb stack).current = none ∧
        h.reg Od.arbCutoffs = (s.hw.reg Od.arbCutoffs + 1) % 2 ^ Od.arbCutoffs.width)) ∧
    (∀ (g : PcIx) (c0 : Bool), let k := g.val * 2 + (if c0 then 0 else 1)
      Table.atD s.hw.req.creditsDue (fun _ => 0) k ≠ 0 → Leads (.dispatchCreditReturn g c0) s (fun h =>
        Table.atD h.req.creditsDue (fun _ => 0) k = Table.atD s.hw.req.creditsDue (fun _ => 0) k - 1 ∧
        h.heldCredits g (!c0) = s.hw.heldCredits g (!c0) - 1)) ∧
    (256 ≤ a.windowGrants → Leads (.quotaWindowEnd stack) s (fun h => (h.arb stack).windowGrants = 0 ∧ (h.arb stack).quotaUsed = [] ∧
      ∀ c, c < 8 → (h.arb stack).quota c = s.hw.reg Od.classQuota c ∧ (h.arb stack).ageStep c = max 1 (s.hw.reg Od.classAgeStep c) ∧
        (h.arb stack).missLimit c = s.hw.reg Od.classMissThreshold c)) ∧
    (s.hw.timer Tm.slot stack ≠ s.hw.now / 16 + 1 → Leads (.frameSlotStart stack) s (fun h =>
      h.timer Tm.slot stack = s.hw.now / 16 + 1 ∧ (h.arb stack).slotGranted = false ∧
      (h.arb stack).slotClass = h.slotOwner stack (s.hw.now / 16 % 64) ∧
      (s.hw.now / 16 % 64 = 0 → (h.arb stack).mapNow = some (s.hw.reg Od.frameMap stack)))) ∧
    (s.hw.due Tm.missPeriod stack = true → Leads (.missPeriodEnd stack) s (fun h => (h.arb stack).periodMiss = [] ∧
      h.timer Tm.missPeriod stack = (s.hw.now / 1048576 + 1) * 1048576 ∧ ∀ c, c < 8 → h.reg Od.wmLevel (stack * 8 + c) = 0))

/-- START_UP and TEST lead to NORMAL and NORMAL to TEST by a write that the dictionary accepts; START_UP ends by itself after its
time and RECOVERY when its last work is done. A boundary of a requester's byte window adopts its settings, and in NORMAL refills its
credit: an overdraft carries over, but not into a window that starts fresh. -/
def Obligations.ServiceModes : Prop :=
  ∀ (who : Actor) (requester : BitVec 12) (s : State), let mode := s.hw.reg Od.serviceMode
    let r := requester.toNat
    let b := s.hw.reg Od.regBytes r
    let w := s.hw.reg Od.regWindowLog2 r
    (s.hw.accepts who Od.serviceMode 0 0 → (mode = 1 ∨ mode = 2) → Leads (.serviceModeWriteNormal who) s (fun h => h.reg Od.serviceMode = 0)) ∧
    (s.hw.accepts who Od.serviceMode 0 2 → mode = 0 → Leads (.serviceModeWriteTest who) s (fun h => h.reg Od.serviceMode = 2)) ∧
    (mode = 1 → s.hw.boot.portsReleased = true → s.hw.due Tm.startup 0 = true → Leads .svcStartupExpiry s (fun h => h.reg Od.serviceMode = 0)) ∧
    (mode = 3 → s.hw.par.degrades = [] → s.hw.pair.syncPart = none → Leads .recoveryDone s (fun h => h.reg Od.serviceMode = 0)) ∧
    (s.hw.due Tm.reg r = true → Leads (.regulatorWindow requester) s (fun h =>
      h.regSet r = (b, w, s.hw.reg Od.regOutstanding r) ∧ h.timer Tm.reg r = (s.hw.now / 2 ^ w + 1) * 2 ^ w ∧
      (mode = 0 → b ≠ 0 → b < 2 ^ 62 → (-(2 : Int) ^ 62 ≤ s.hw.sreg Od.regCredit r) → h.sreg Od.regCredit r = (b : Int) +
        if Table.atD s.hw.req.regFresh (fun _ => 0) r = Table.atD s.hw.req.regFresh (fun _ => 0) 4096
          then min (s.hw.sreg Od.regCredit r) 0 else 0)))

/-- A buffered sector that is complete, past its hold time or over the occupancy limit leaves the buffer: behind an eviction of the
same sector it waits, one whose old data is needed takes its read, another one's write joins the input stage. A read-modify-write
that has its columns ends with a write there. Old entries leave the correctable-error history; the scrubber moves on by one column,
and at the end of the stack counts a pass; a rebuild sweeps row by row and ends after the last. -/
def Obligations.WriteBufferAndScrub : Prop :=
  ∀ (stack : StackIx) (sector : BitVec 29) (g : PcIx) (s : State), let k := secKey stack (sector.toNat * 256)
    let off := secOff k
    let evicted (w : Wcb) (c : Instr) : Prop := let w' := { w with force := none }
      (s.hw.evicting k = true → Leads c s (fun h => Table.look h.mem.wcb k = none ∧ h.waiting k = s.hw.waiting k ++ [w'])) ∧
      (s.hw.evicting k = false → (∀ p, w.part = some p → (Table.look s.hw.sec.memKeys p).isSome = true) →
        s.hw.lostAt stack (s.hw.coord stack off).pc = false →
        (s.hw.needsRead stack off w = true → Leads c s (fun h => Table.look h.mem.wcb k = none ∧ Table.look h.mem.rmw k = some w' ∧
          ∃ x, x ∈ h.stage stack ∧ x.kind = 2 ∧ x.sector = k)) ∧
        (s.hw.needsRead stack off w = false → w.gap = [] → Leads c s (fun h => Table.look h.mem.wcb k = none ∧
          ∃ x, x ∈ h.stage stack ∧ x.writes k = true)))
    (∀ w, s.hw.waiting k = [] → Table.look s.hw.mem.wcb k = some w →
      (w.complete = true ∨ w.firstAt + s.hw.reg Od.wcbHoldNs ≤ s.hw.now ∨ s.hw.reg Od.wcbHigh ≤ s.hw.wcbCount stack) →
      evicted w (.wcbEvict stack sector)) ∧
    (∀ w, Table.look s.hw.mem.wcb k = some w → w.firstAt + s.hw.reg Od.wcbHoldNs ≤ s.hw.now → evicted w (.wcbHoldExpiry stack sector)) ∧
    (∀ w, Table.look s.hw.mem.rmw k = some w → (∀ j, j < 8 → ∃ x, x ∈ w.old ∧ x.1 = j) →
      (let p := gOf stack (s.hw.coord stack off).pc
       (∀ x, x ∈ s.hw.queue p ++ s.hw.stage stack → x.kind = 2 → x.sector ≠ k) ∧
       ∀ x, x ∈ (s.hw.pc p).inflight → x.2.kind = 2 → x.2.sector ≠ k) →
      Leads (.rmwMerge stack sector) s (fun h => Table.look h.mem.rmw k = none ∧ ∃ x, x ∈ h.stage stack ∧ x.writes k = true)) ∧
    Leads (.ceHistoryExpiry g) s (fun h => (h.pc g).history =
      (s.hw.pc g).history.filter (fun e => decide (s.hw.now < e.since + s.hw.reg Od.eccCeWindowH * 3600000000000))) ∧
    (∀ flips again, let pos := s.hw.reg Od.scrubPosition stack
      s.hw.reg Od.stackState stack = 1 → (pos = 0 → s.hw.due Tm.scrubPass stack = true) →
      Leads (.scrubRead stack flips again) s (fun h =>
        if s.hw.reg Od.stackCapacity stack ≤ pos + 32 then h.reg Od.scrubPosition stack = 0 ∧
          h.reg Od.scrubPasses stack = (s.hw.reg Od.scrubPasses stack + 1) % 2 ^ Od.scrubPasses.width
        else h.reg Od.scrubPosition stack = (pos + 32) % 2 ^ Od.scrubPosition.width)) ∧
    (∀ n, (s.hw.pc g).rebuildRow = some n → Leads (.rebuildRow g) s (fun h =>
      if s.hw.reg Od.stackCapacity (g.val / 64) / 65536 ≤ n then
        (h.pc g).rebuildRow = none ∧ (h.pc g).sparing = [] ∧ h.reg Od.rebuildPointer g = 2 ^ 64 - 1
      else (h.pc g).rebuildRow = some (n + 1)))

/-- On a PRESENT stack under test and in no partition, WRITE_SPLIT stores test_data and test_check as a column's word and records
the column, READ_RAW reads a word back, READ_DECODED gives the decoder's outcome and data; TEST_END frees the stack. A row that meets
the conditions is queued for repair with a pause asked for, and in the pause its remap entries are freed, or stay valid where the
repair failed; before port release a row of ppr_list is repaired and leaves the list. A retired page reads as retired; a cleared
stack has none. -/
def Obligations.TestsAndRepairs : Prop :=
  ∀ (who : Actor) (s : State),
    (∀ st, s.hw.underTest = some st → let c := s.hw.testCoord st
      (s.hw.accepts who Od.testCommand 0 1 → s.hw.mem.testCols.length < 256 → s.hw.slotOf st c = none →
        Leads (.writeSplit who) s (fun h => colKey st c ∈ h.mem.testCols ∧
          h.rawCol st c = natBytes (s.hw.reg Od.testData) 32 ++ natBytes (s.hw.reg Od.testCheck) 4)) ∧
      (s.hw.accepts who Od.testCommand 0 2 → Leads (.readRaw who) s (fun h =>
        h.reg Od.testData = bytesNat ((s.hw.rawCol st c).take 32) % 2 ^ Od.testData.width ∧
        h.reg Od.testCheck = bytesNat ((s.hw.rawCol st c).drop 32) % 2 ^ Od.testCheck.width)) ∧
      (∀ d data ps, s.hw.accepts who Od.testCommand 0 3 → rsDecode (s.hw.erasures st c) (s.hw.rawCol st c) = (d, data, ps) →
        Leads (.readDecoded who) s (fun h => h.reg Od.testResult = d.code ∧
          h.reg Od.testData = bytesNat data % 2 ^ Od.testData.width))) ∧
    (s.hw.accepts who Od.testCommand 0 4 → Leads (.testEnd who) s (fun h => h.mem.testCols = [] ∧ h.reg Od.testStack = 0xff)) ∧
    (∀ (g : PcIx) (bank : Fin 64) (row : BitVec 15) (ok : Bool), let es := s.hw.rowEntries g bank row.toNat
      let queued := es.filter (fun n => decide (s.hw.elem Od.remapTable g n / 2 ^ 32 % 4 = 1))
      (queued = [] → s.hw.wantsSppr g bank row.toNat = true → s.hw.reg Od.pcState g = 4 → Leads (.sppr g bank row ok) s (fun h =>
        (h.pc g).pauseReq.isSome = true ∧ ∀ n, n ∈ es → h.elem Od.remapTable g n / 2 ^ 32 % 4 = 1)) ∧
      (queued ≠ [] → (s.hw.pc g).pauseUntil.isSome = true → ok = true → Leads (.sppr g bank row ok) s (fun h =>
        (∀ n, n ∈ es → h.elem Od.remapTable g n = 0) ∧
        h.reg Od.spprCount g = (s.hw.reg Od.spprCount g + 1) % 2 ^ Od.spprCount.width)) ∧
      (queued ≠ [] → (s.hw.pc g).pauseUntil.isSome = true → ok = false → Leads (.sppr g bank row ok) s (fun h =>
        ∀ n, n ∈ es → h.elem Od.remapTable g n / 2 ^ 32 % 4 = 0 ∧ 2 ^ 63 ≤ h.elem Od.remapTable g n))) ∧
    (∀ (g : PcIx) i rest, Table.look s.hw.mem.ppr g = some (i :: rest) →
      Leads (.hppr g true) s (fun h => Table.atD h.mem.ppr (fun _ => []) g = rest ∧ h.elem Od.pprList 0 i.toNat = 0) ∧
      Leads (.hppr g false) s (fun h => Table.atD h.mem.ppr (fun _ => []) g = rest ∧
        h.elem Od.pprList 0 i.toNat = s.hw.elem Od.pprList 0 i.toNat)) ∧
    (∀ dpa : BitVec 64, let page := dpa.toNat % 2 ^ 41 / 4096 * 4096
      s.hw.accepts who Od.retirePage 0 dpa.toNat → s.hw.blocks who Od.retirePage 0 dpa.toNat none = none →
      Table.atD s.hw.mem.retiredCount (fun _ => 0) (dpaStack page) < 256 →
      Leads (.retirePage who dpa) s (fun h => h.retired page = true)) ∧
    (∀ stack : BitVec 8, s.hw.accepts who Od.retireClear 0 stack.toNat → stack.toNat < 16 → s.hw.partOf stack.toNat = none →
      Leads (.retireClear who stack) s (fun h => Table.atD h.mem.retiredCount (fun _ => 0) stack.toNat = 0 ∧
        ∀ i, i < 256 → h.elem Od.retiredPages stack.toNat i = 0))

/-- A read of one line that no entry tracks, in a set that is not suspect, leaves the directory with a way naming its requester, as
owner or as sharer by its mode. With no request waiting at the slice: a snoop unanswered for its time frees its slot and is counted,
and where its holder owned the line and the partition keeps losses the line is LOST; a sweep leaves its requester no line of the
slice that nothing holds busy and that its old epoch owned or shared; ACCEPT_ALL leaves the partition no LOST line. -/
def Obligations.DirectoryActs : Prop :=
  ∀ (s : State),
    (∀ (stack : StackIx) p k, let line := p.off / 64
      let phys := s.hw.physical p.stack p.off
      s.hw.dirIn stack = [p] → p.stack = stack → p.op = 1 → (p.subop = 1 ∨ p.subop = 2) → p.len = 64 → p.off % 64 = 0 → p.source = 0 →
      s.hw.degrading stack = false → (s.hw.dirWaiting stack).length < 2048 → s.hw.failed stack = false →
      s.hw.findWay stack line = none → s.hw.isSuspect stack line = false → s.hw.invalidWay stack line = some k →
      s.hw.isHeld p = false → s.hw.retired p.dpa = false →
      (∀ q, q ∈ s.hw.cutRows p.stack phys p.len → s.hw.lostAt p.stack (s.hw.coord p.stack q.1).pc = false ∧
        ∀ k, k ∈ sectorsOf p.stack q.1 q.2 → Table.look s.hw.mem.wcb k = none) →
      Leads (.directoryLookup stack) s (fun h => h.dirIn stack = [] ∧ (h.way k).ptrs = [p.requester] ∧ (h.way k).home = stack ∧
        (h.way k).tag = line / 65536 ∧ (h.way k).st = if p.subop = 2 then DirState.owned else DirState.shared)) ∧
    (∀ (id : BitVec 16) x t, let ds := id.toNat / 4096
      let part := (s.hw.way x.dirKey).part
      Table.look s.hw.coh.snoops id.toNat = some x → x.sentAt = some t → t + s.hw.reg Od.cohSnoopTimeoutUs part * 1000 ≤ s.hw.now →
      s.hw.dirWaiting ds = [] → Table.atD s.hw.coh.snoopQ (fun _ => []) ds = [] →
      Leads (.snoopTimeout id) s (fun h => Table.look h.coh.snoops id.toNat = none ∧
        h.reg Od.dirSnoopTimeouts ds = (s.hw.reg Od.dirSnoopTimeouts ds + 1) % 2 ^ Od.dirSnoopTimeouts.width ∧
        (x.owner = true → s.hw.reg Od.cohOwnerLoss part = 0 → s.hw.reg Od.partState part ≠ 5 → (h.way x.dirKey).st = .lost))) ∧
    (∀ (stack : StackIx) st r, s.hw.coh.sweeps.find? (fun x => x.1 == stack.val) = some (st, r) → s.hw.dirWaiting stack = [] →
      Leads (.directorySweep stack) s (fun h => h.coh.sweeps = s.hw.coh.sweeps.erase (st, r) ∧
        ∀ key, key / 16 / 65536 = stack.val → (h.way key).busy = false →
          ((h.way key).st = .shared → (h.way key).coarse = false → r ∉ (h.way key).ptrs) ∧
          ¬((h.way key).st = .owned ∧ (h.way key).ptrs = [r] ∧ h.ownerGone key = true))) ∧
    ∀ (who : Actor) (p : PartIx), s.hw.accepts who Od.cohLostAccept p 1 → (∀ ds, s.hw.dirWaiting ds = []) →
      Leads (.acceptAll who p) s (fun h => ∀ key, (h.way key).st = .lost → (h.way key).part ≠ p.val)

/-- BEGIN takes an EMPTY record to LOADING with no steps; each word written goes to prog_index, which rises up to 511; COMMIT makes
a program whose words pass the load checks VALID, with its digest and a copy at every slice, and any other REJECTED with its
reason; DELETE empties a record no launch uses. A missing or invalid copy of a VALID program is rewritten from a good one. -/
def Obligations.ProgramStore : Prop :=
  ∀ (who : Actor) (prog : Fin 128) (s : State), let n := prog.val
    let st := s.hw.reg Od.progState n
    (s.hw.accepts who Od.progCommand n 1 → st = 0 → s.hw.beginOk who n = true → Leads (.progBegin who prog) s (fun h =>
      h.reg Od.progState n = 1 ∧ h.reg Od.progIndex n = 0 ∧ ∀ i, i < 512 → Table.look h.car.progSteps (n * 512 + i) = none)) ∧
    (∀ word : BitVec 128, let i := min 511 (s.hw.reg Od.progIndex n)
      s.hw.accepts who Od.progStep n word.toNat → st = 1 → Leads (.progStepWrite who prog word) s (fun h =>
        Table.look h.car.progSteps (n * 512 + i) = some word ∧ h.reg Od.progIndex n = min 511 (i + 1))) ∧
    (∀ ws : List (BitVec 128), s.hw.accepts who Od.progCommand n 2 → st = 1 →
      (List.range (s.hw.reg Od.progSteps n)).map (fun i => Table.look s.hw.car.progSteps (n * 512 + i)) = ws.map some →
      (loadCheck ws = 0 → Leads (.commit who prog) s (fun h => h.reg Od.progState n = 2 ∧
        h.reg Od.progDigest n = sha384Nat (ws.flatMap stepBytes) % 2 ^ Od.progDigest.width ∧
        ∀ x, x < 16 → s.hw.exists x = true →
          ∃ c, Table.look h.car.progCopies (x * 128 + n) = some c ∧ c.steps = ws ∧ c.bind = s.hw.reg Od.progBind n)) ∧
      (loadCheck ws ≠ 0 → Leads (.commit who prog) s (fun h => h.reg Od.progState n = 3 ∧ h.reg Od.progReject n = loadCheck ws))) ∧
    (s.hw.accepts who Od.progCommand n 3 → st ≠ 0 → s.hw.progLaunched n = false → Leads (.delete who prog) s (fun h =>
      h.reg Od.progState n = 0 ∧ h.reg Od.progBind n = 0 ∧ (∀ x, Table.look h.car.progCopies (x * 128 + n) = none) ∧
      ∀ i, i < 512 → Table.look h.car.progSteps (n * 512 + i) = none)) ∧
    ∀ (stack : StackIx) c, (∀ d, Table.look s.hw.car.progCopies (stack.val * 128 + n) = some d → d.valid = false) →
      s.hw.exists stack = true → st = 2 → s.hw.goodCopy n = some c →
      Leads (.programCopyRepair stack prog) s (fun h => Table.look h.car.progCopies (stack.val * 128 + n) = some c)

/-- The oldest launch at a slice whose queue has room takes an entry there, its descriptors armed, and answers OK. The head of an idle
engine's queue starts with its registers at step 0 where the slice has a valid copy of its program, and else ends with
PROGRAM_INVALID. A launch over its run time, or aborted, ends with a fault; ABORT_ALL empties the queue too. A descriptor at
its deadline is disarmed. -/
def Obligations.Launches : Prop :=
  ∀ (stack : StackIx) (e : EngIx) (who : Actor) (s : State), let x := s.hw.eng e
    (∀ l g, (s.hw.launches stack).find? (fun l => (s.hw.engineFor stack l).isSome) = some l → s.hw.engineFor stack l = some g →
      s.hw.descRoom l = true → Leads (.launchQueue stack) s (fun h => h.launches stack = (s.hw.launches stack).erase l ∧
        (h.eng g).queue.length = (s.hw.eng g).queue.length + 1 ∧
        (∃ l', (h.eng g).queue.getLast? = some l' ∧ l'.prog = l.prog ∧ l'.regs = l.regs ∧ l'.launcher = l.launcher ∧
          ∀ d, d ∈ l'.descs → d.kind ≠ 0 → d.armedAt = some s.hw.now) ∧
        ∀ uid t, l.trk = some uid → s.hw.trk uid = some t → t.phase = .forwarded → t.rq.op = 6 → s.hw.discards t = false →
          s.hw.mirroring = false → ∃ u, h.trk uid = some u ∧ u.phase = .responding ∧ u.status = St.ok)) ∧
    (∀ l rest, x.run = none → x.queue = l :: rest →
      (∀ c, Table.look s.hw.car.progCopies (e.val / 4 * 128 + l.prog) = some c → c.valid = true →
        Leads (.launchStart e) s (fun h => (h.eng e).run = some l ∧ (h.eng e).queue = rest ∧ (h.eng e).regs = l.regs ∧
          (h.eng e).pc = 0 ∧ h.reg Od.engState e = 1 ∧ h.reg Od.engProgram e = l.prog % 2 ^ Od.engProgram.width)) ∧
      ((∀ c, Table.look s.hw.car.progCopies (e.val / 4 * 128 + l.prog) = some c → c.valid = false) →
        Leads (.launchStart e) s (fun h => (h.eng e).run = none ∧ (h.eng e).queue = rest ∧ h.reg Od.engLastFault e = 0x0b))) ∧
    (x.run.isSome = true → x.startedAt + x.limit * 1000000 < s.hw.now → Leads (.runtimeLimit e) s (fun h => h.faulted e Cf.runtime)) ∧
    (s.hw.accepts who Od.engCommand e 1 → x.run.isSome = true → Leads (.abortRunning who e) s (fun h => h.faulted e Cf.abort ∧
      (h.eng e).queue = x.queue)) ∧
    (s.hw.accepts who Od.engCommand e 2 → Leads (.abortAll who e) s (fun h => (h.eng e).run = none ∧ (h.eng e).queue = [])) ∧
    ∀ (i : Fin 4) l d t, x.run = some l → l.descs[i.val]? = some d → d.kind ≠ 0 → d.expired = false → d.armedAt = some t →
      t + d.deadline * 1000 ≤ s.hw.now → Leads (.descriptorDeadline e i) s (fun h =>
        ∃ l', (h.eng e).run = some l' ∧ l'.descs[i.val]? = some { d with expired := true })

/-- On operands in staging, aligned and apart from the destination, a copying step leaves exactly its bytes at its destination and
goes on to the next step with the registers its flags advance. -/
def Obligations.CopySteps : Prop :=
  ∀ (e : EngIx) (l : Launch) (w : BitVec 128) (s : State), let g := s.hw.greg e
    let a := g (stepA w)
    let b := g (stepB w)
    let c := g (stepC w)
    let n := stepN w
    let len := (wf w 48 8 + 1) * 64
    (s.hw.stepNow e 0x01 = some (l, w) → a % 64 = 0 → b % 64 = 0 → stageRange a (64 * n) → stageRange b (64 * n) → apart a (64 * n) b (64 * n) →
      advances w 0 a (64 * n) → advances w 1 b (64 * n) → Leads (.move e) s (fun h =>
        h.staged e b (64 * n) = s.hw.staged e a (64 * n) ∧ s.hw.stageKept h e b (64 * n) ∧
        s.hw.stepped h e (bumped w 1 (stepB w) (64 * n) (bumped w 0 (stepA w) (64 * n) g)))) ∧
    (let idx (i : Nat) : Nat := leAt (s.hw.staged e c (4 * n)) (4 * i) 4;
      s.hw.stepNow e 0x02 = some (l, w) → a % 64 = 0 → b % 64 = 0 → c % 4 = 0 → stageRange c (4 * n) → stageRange b (n * len) →
      (∀ i, i < n → stageRange (a + idx i * len) len ∧ apart (a + idx i * len) len b (n * len)) → advances w 1 b (n * len) →
      Leads (.gather e) s (fun h => s.hw.stageKept h e b (n * len) ∧ s.hw.stepped h e (bumped w 1 (stepB w) (n * len) g) ∧
        ∀ i, i < n → h.staged e (b + i * len) len = s.hw.staged e (a + idx i * len) len)) ∧
    (let idx (i : Nat) : Nat := leAt (s.hw.staged e c (4 * n)) (4 * i) 4;
      s.hw.stepNow e 0x03 = some (l, w) → a % 64 = 0 → b % 64 = 0 → c % 4 = 0 → stageRange c (4 * n) → stageRange a (n * len) →
      (∀ i, i < n → stageRange (b + idx i * len) len ∧ apart (b + idx i * len) len a (n * len)) → advances w 0 a (n * len) →
      Leads (.scatter e) s (fun h => s.hw.stepped h e (bumped w 0 (stepA w) (n * len) g) ∧
        ∀ i, i < n → (∀ j, i < j → j < n → idx j ≠ idx i) → h.staged e (b + idx i * len) len = s.hw.staged e (a + i * len) len)) ∧
    (let row := (wf w 56 12 + 1) * scalarWidth (stepIn w);
      let rows := wf w 68 12 + 1;
      let p := wf w 36 20;
      let q := wf w 16 20;
      s.hw.stepNow e 0x0b = some (l, w) → a % 64 = 0 → b % 64 = 0 → row ≤ p → row ≤ q → stageRange a (rows * p) → stageRange b (rows * q) →
      apart a (rows * p) b (rows * q) → Leads (.tile e) s (fun h => s.hw.stageKept h e b (rows * q) ∧ s.hw.stepped h e g ∧
        ∀ i, i < rows → h.staged e (b + i * q) row = s.hw.staged e (a + i * p) row)) ∧
    (s.hw.stepNow e 0x07 = some (l, w) → b % 64 = 0 → stageRange b (64 * n) → advances w 1 b (64 * n) → Leads (.fill e) s (fun h =>
      h.staged e b (64 * n) = (List.replicate (8 * n) (natBytes c 8)).flatten ∧ s.hw.stageKept h e b (64 * n) ∧
      s.hw.stepped h e (bumped w 1 (stepB w) (64 * n) g))) ∧
    (s.hw.stepNow e 0x09 = some (l, w) → a % 64 = 0 → b % 64 = 0 → c % 64 = 0 → stageRange a (64 * n) → stageRange b (64 * n) →
      stageRange c (64 * n) → apart a (64 * n) b (64 * n) → apart c (64 * n) b (64 * n) → stepFlag w 0 = false → stepFlag w 1 = false →
      stepFlag w 5 = false → Leads (.delta e) s (fun h =>
        h.staged e b (64 * n) = xorBytes (s.hw.staged e a (64 * n)) (s.hw.staged e c (64 * n)) ∧
        s.hw.stageKept h e b (64 * n) ∧ s.hw.stepped h e g))

/-- DIGEST absorbs its stream into its context, from an empty one under INIT, and under FINAL writes the SHA-384 and 16 zero bytes.
PACKZ packs group by group and gives the packed length, and expands a group by its mask. REDUCE sends a chunk of an OPEN session to
the slice that accumulates. INGEST with INIT decrypts its stream with the slot's key by the descriptor's vector; where FINAL finds
another tag it fills the destination with zeros and faults. -/
def Obligations.StreamSteps : Prop :=
  ∀ (e : EngIx) (l : Launch) (w : BitVec 128) (s : State), let g := s.hw.greg e
    let a := g (stepA w)
    let b := g (stepB w)
    let c := g (stepC w)
    let n := stepN w * 64
    (let i := wf w 0 2;
      let ctx := (if stepFlag w 3 then [] else (s.hw.eng e).sha.getD i []) ++ s.hw.staged e a n;
      let d := sha384 ctx ++ List.replicate 16 0;
      s.hw.stepNow e 0x08 = some (l, w) → a % 64 = 0 → stageRange a n → advances w 0 a n → (s.hw.eng e).sha.length = 4 →
      (stepFlag w 4 = false → Leads (.digest e) s (fun h => (h.eng e).sha.getD i [] = ctx ∧
        s.hw.stepped h e (bumped w 0 (stepA w) n g))) ∧
      (stepFlag w 4 = true → b % 64 = 0 → stageRange b d.length → Leads (.digest e) s (fun h =>
        h.staged e b d.length = d ∧ s.hw.stageKept h e b d.length ∧ s.hw.stepped h e (bumped w 0 (stepA w) n g)))) ∧
    (let d := (List.range (n / 32768)).flatMap (fun j => packGroup (s.hw.staged e (a + 32768 * j) 32768));
      s.hw.stepNow e 0x0a = some (l, w) → stepFlag w 6 = false → stepFlag w 0 = false → stepFlag w 1 = false → a % 64 = 0 → b % 64 = 0 →
      stageRange a n → stageRange b d.length → apart a n b d.length → Leads (.packz e) s (fun h =>
        h.staged e b d.length = d ∧ s.hw.stepped h e (fun k => if k = stepD w then d.length else g k))) ∧
    (let mask := bytesNat (s.hw.staged e a 64);
      let m := 64 * ((List.range 512).filter (fun j => mask.testBit j)).length;
      let d := expandGroup mask (s.hw.staged e (a + 64) m);
      s.hw.stepNow e 0x0a = some (l, w) → stepFlag w 6 = true → stepFlag w 0 = false → stepFlag w 1 = false → n = 32768 → a % 64 = 0 →
      b % 64 = 0 → stageRange a (64 + m) → stageRange b d.length → Leads (.packz e) s (fun h =>
        h.staged e b d.length = d ∧ s.hw.stepped h e (fun k => if k = stepD w then 64 + m else g k))) ∧
    (let r := wf w 72 8;
      let to_ := s.hw.accStack r;
      let len := (wf w 56 2 + 1) * 64;
      s.hw.stepNow e 0x05 = some (l, w) → a % 64 = 0 → stageRange a len → s.hw.reg Od.redState r = 2 →
      (s.hw.bindOf e l).testBit (s.hw.reg Od.redPartition r) = true → stepIn w = s.hw.reg Od.redFmtIn r → b % 2 ^ 32 < s.hw.chunkCount r →
      wf w 60 12 < s.hw.reg Od.redContributors r → len = s.hw.inputLen r (b % 2 ^ 32) → advances w 0 a len → stepA w ≠ stepB w →
      Leads (.reduce e) s (fun h =>
        Table.atD h.red.accIn (fun _ => []) to_ = Table.atD s.hw.red.accIn (fun _ => []) to_ ++
          [{ trk := 0, op := 4, stack := to_, off := b % 2 ^ 32, dpa := wf w 60 12, len := len, data := s.hw.staged e a len, subop := r,
             source := e + 1 }] ∧
        s.hw.stepped h e (bumped w 1 (stepB w) 1 (bumped w 0 (stepA w) len g)))) ∧
    (let slot := wf w 0 8;
      let i := wf w 8 2;
      let blk := s.hw.staged e c 64;
      let key := bytesOf (Table.atD s.hw.car.weightKeys (fun _ => 0) slot) 32;
      let out := gcmDec key (blk.take 12) ((blk.drop 28).take 8) (s.hw.staged e a n);
      s.hw.stepNow e 0x0e = some (l, w) → stepFlag w 3 = true → a % 64 = 0 → b % 64 = 0 → c % 64 = 0 → stageRange a n → stageRange b n →
      stageRange c 64 → bytesNat (blk.drop 36) = 0 → s.hw.partOf (e.val / 4) = some (s.hw.reg Od.wkPartition slot) →
      (Table.look s.hw.car.weightKeys slot).isSome = true → (s.hw.eng e).gcm.length = 4 → (s.hw.eng e).sha.length = 4 →
      (stepFlag w 4 = false → advances w 0 a n → advances w 1 b n → apart a n b n → Leads (.ingest e) s (fun h =>
        (h.staged e b n).take out.1.length = out.1 ∧ (h.eng e).sha.getD i [] = out.1 ∧
        s.hw.stepped h e (bumped w 1 (stepB w) n (bumped w 0 (stepA w) n g)))) ∧
      (stepFlag w 4 = true → out.2 ≠ (blk.drop 12).take 16 → Leads (.ingest e) s (fun h =>
        h.faulted e Cf.ingestAuth ∧ h.staged e b n = List.replicate n 0)))

/-- On scalar streams in staging that are apart: CONVERT rounds every element of its input once into its output format; ACCUM adds
x to y and AXPBY gives a·x + b·y, each operation rounded to FP32; MOMENT without a serving copy updates weights and moments element
by element by its parameter block, whose element base it moves on. Each goes on to the next step. -/
def Obligations.ArithmeticSteps : Prop :=
  ∀ (e : EngIx) (l : Launch) (w : BitVec 128) (s : State), let g := s.hw.greg e
    let a := g (stepA w)
    let b := g (stepB w)
    let c := g (stepC w)
    let n := stepN w
    let fi := stepIn w
    let wi := scalarWidth fi
    wi ≠ 0 → a % 64 = 0 → b % 64 = 0 →
    (let fo := stepOut w;
      let wo := scalarWidth fo;
      let d := g (stepD w);
      let seed : Option (BitVec 64) := if wf w 52 4 = 1 then some (BitVec.ofNat 64 (d / 2 ^ 32)) else none;
      s.hw.stepNow e 0x04 = some (l, w) → wo ≠ 0 → stageRange a (n * wi) → stageRange b (n * wo) → apart a (n * wi) b (n * wo) →
      advances w 0 a (n * wi) → advances w 1 b (n * wo) → Leads (.convert e) s (fun h =>
        h.staged e b (n * wo) = (encodeScalars fo (decodeScalars fi n (s.hw.staged e a (n * wi))) seed (d % 2 ^ 32)).1 ∧
        s.hw.stageKept h e b (n * wo) ∧
        (wf w 52 4 ≠ 1 → s.hw.stepped h e (bumped w 1 (stepB w) (n * wo) (bumped w 0 (stepA w) (n * wi) g))))) ∧
    (s.hw.stepNow e 0x06 = some (l, w) → stageRange a (n * wi) → stageRange b (4 * n) → apart a (n * wi) b (4 * n) →
      advances w 0 a (n * wi) → advances w 1 b (4 * n) → Leads (.accum e) s (fun h => s.hw.stageKept h e b (4 * n) ∧
        s.hw.stepped h e (bumped w 1 (stepB w) (4 * n) (bumped w 0 (stepA w) (n * wi) g)) ∧
        ∀ i, i < n → leAt (h.staged e b (4 * n)) (4 * i) 4 = f32add (leAt (s.hw.staged e b (4 * n)) (4 * i) 4)
          (f32of (scalarVal fi (leAt (s.hw.staged e a (n * wi)) (i * wi) wi))) % 2 ^ 32)) ∧
    (s.hw.stepNow e 0x0c = some (l, w) → 1 ≤ c → c ≤ 1048576 → stageRange a (c * wi) → stageRange b (4 * c) → apart a (c * wi) b (4 * c) →
      advances w 0 a (c * wi) → advances w 1 b (4 * c) → Leads (.axpby e) s (fun h => s.hw.stageKept h e b (4 * c) ∧
        s.hw.stepped h e (bumped w 1 (stepB w) (4 * c) (bumped w 0 (stepA w) (c * wi) g)) ∧
        ∀ i, i < c → leAt (h.staged e b (4 * c)) (4 * i) 4 =
          f32add (f32mul (wf w 48 32) (f32of (scalarVal fi (leAt (s.hw.staged e a (c * wi)) (i * wi) wi))))
            (f32mul (wf w 16 32) (leAt (s.hw.staged e b (4 * c)) (4 * i) 4)) % 2 ^ 32)) ∧
    (let pa := 2 ^ 61 + wf w 32 24;
      let blk := s.hw.staged e pa 64;
      let p := paramsOf blk;
      let u (i : Nat) : Nat × Nat × Nat × Bool :=
        p.update p.bias (f32of (scalarVal fi (leAt (s.hw.staged e a (n * wi)) (wi * i) wi))) (leAt (s.hw.staged e b (4 * n)) (4 * i) 4)
          (leAt (s.hw.staged e c (8 * n)) (8 * i) 4) (leAt (s.hw.staged e c (8 * n)) (8 * i + 4) 4);
      s.hw.stepNow e 0x0d = some (l, w) → stepFlag w 7 = true → c % 64 = 0 → pa % 64 = 0 → paramsOk blk = true →
      stageRange pa 64 → stageRange a (n * wi) → stageRange b (4 * n) → stageRange c (8 * n) → apart pa 64 a (n * wi) →
      apart pa 64 b (4 * n) → apart pa 64 c (8 * n) → apart a (n * wi) b (4 * n) → apart a (n * wi) c (8 * n) → apart b (4 * n) c (8 * n) →
      stepFlag w 0 = false → stepFlag w 1 = false → stepFlag w 5 = false → Leads (.moment e) s (fun h => s.hw.stepped h e g ∧
        h.staged e pa 64 = blk.take 32 ++ natBytes ((p.base + n) % 2 ^ 32) 4 ++ blk.drop 36 ∧
        ∀ i, i < n → leAt (h.staged e b (4 * n)) (4 * i) 4 = (u i).1 % 2 ^ 32 ∧
          leAt (h.staged e c (8 * n)) (8 * i) 4 = (u i).2.1 % 2 ^ 32 ∧ leAt (h.staged e c (8 * n)) (8 * i + 4) 4 = (u i).2.2.1 % 2 ^ 32))

/-- SETI and ADDI write one register. LOOP goes back while its counter is above 0, and falls idle at 0. SIGNAL adds 1 to a counting
flag, up to FFFFh, or raises a notice. FENCE without EVICT goes on once nothing of the launch is on its way as a contribution, and
END then ends the launch, the engine idle. A step whose operand ga is misaligned ends its launch with RANGE. -/
def Obligations.ControlSteps : Prop :=
  ∀ (e : EngIx) (l : Launch) (w : BitVec 128) (s : State), let g := s.hw.greg e
    let x := s.hw.eng e
    (s.hw.stepNow e 0x10 = some (l, w) → Leads (.seti e) s (fun h =>
      s.hw.stepped h e (fun k => if k = stepA w then wf w 0 64 else g k))) ∧
    (s.hw.stepNow e 0x11 = some (l, w) → Leads (.addi e) s (fun h =>
      s.hw.stepped h e (fun k => if k = stepA w then (g (stepB w) + wf w 0 64) % 2 ^ 64 else g k))) ∧
    (let left := (Table.look x.loops x.pc).getD (stepN w - 1);
      s.hw.stepNow e 0x12 = some (l, w) → Leads (.loop e) s (fun h =>
        if 0 < left then (h.eng e).pc = wf w 0 9 ∧ Table.look (h.eng e).loops x.pc = some (left - 1)
        else (h.eng e).pc = x.pc + 1 ∧ Table.look (h.eng e).loops x.pc = none)) ∧
    (∀ p, s.hw.stepNow e 0x19 = some (l, w) → wf w 76 4 = 0 → s.hw.partOf (e.val / 4) = some p → Leads (.signalFlag e) s (fun h =>
      s.hw.stepped h e g ∧ h.elem Od.caravanFlags p (wf w 0 6) = min 0xffff (s.hw.elem Od.caravanFlags p (wf w 0 6) + 1))) ∧
    (s.hw.stepNow e 0x19 = some (l, w) → wf w 76 4 = 1 → Leads (.signalNotice e) s (fun h => s.hw.stepped h e g ∧
      h.reg Od.evHead = (s.hw.reg Od.evHead + 1) % 2 ^ Od.evHead.width)) ∧
    (s.hw.stepNow e 0x1a = some (l, w) → s.hw.engContributes e = false → stepFlag w 0 = false → Leads (.fence e) s (fun h =>
      s.hw.stepped h e g ∧ (h.eng e).touched = [])) ∧
    (s.hw.stepNow e 0x1f = some (l, w) → s.hw.engContributes e = false → Leads (.endStep e) s (fun h =>
      (h.eng e).run = none ∧ (h.eng e).queue = x.queue ∧ h.reg Od.engState e = 0)) ∧
    ∀ c op, (op, c) ∈ [(0x01, Instr.move e), (0x02, .gather e), (0x03, .scatter e), (0x04, .convert e), (0x05, .reduce e), (0x06, .accum e),
        (0x09, .delta e), (0x0a, .packz e), (0x0b, .tile e), (0x0c, .axpby e), (0x0d, .moment e), (0x0e, .ingest e)] →
      s.hw.stepNow e op = some (l, w) → g (stepA w) % 64 ≠ 0 → Leads c s (fun h => h.faulted e Cf.range)

/-- A WAIT whose condition holds goes on at once, a flag counting down by one; another one stands in its step, WAITING. A CHUNK wait
on a session that cannot bring its chunks faults with SESSION. A waiting engine goes on when its condition holds; after its timeout it
faults, or under CONTINUE goes on with 1 in its outcome register. -/
def Obligations.EngineWaits : Prop :=
  ∀ (e : EngIx) (l : Launch) (w : BitVec 128) (s : State), let g := s.hw.greg e
    let x := s.hw.eng e
    let wants (on : WaitOn) : Prop := on.kind = wf w 76 4 ∧ on.since = s.hw.now ∧ on.timeout = wf w 56 20 ∧
      on.cont = if stepFlag w 0 then some (stepD w) else none
    let begun (c : Instr) (on : WaitOn) : Prop :=
      (s.hw.waitLost on (s.hw.bindOf e l) = true → Leads c s (fun h => h.faulted e Cf.session)) ∧
      (s.hw.waitLost on (s.hw.bindOf e l) = false → s.hw.waitMet e l on = true → Leads c s (fun h => h.reg Od.engState e = 1 ∧
        s.hw.stepped h e (fun k => if stepFlag w 0 = true ∧ k = stepD w then 0 else g k))) ∧
      (s.hw.waitLost on (s.hw.bindOf e l) = false → s.hw.waitMet e l on = false → Leads c s (fun h =>
        (h.eng e).wait = some on ∧ (h.eng e).pc = x.pc ∧ h.reg Od.engState e = 2))
    (∀ on, s.hw.stepNow e 0x18 = some (l, w) → wants on →
      (wf w 76 4 = 0 → on.arg = wf w 0 6 → on.chunk = 0 → on.count = 0 → begun (.waitFlag e) on) ∧
      (wf w 76 4 = 1 → on.arg = wf w 0 2 → on.chunk = 0 → on.count = 0 → begun (.waitPush e) on) ∧
      (wf w 76 4 = 2 → on.arg = wf w 40 8 → on.chunk = g (stepB w) % 2 ^ 32 → on.count = wf w 24 16 → begun (.waitChunk e) on)) ∧
    ∀ on, x.run = some l → x.wait = some on →
      (s.hw.waitLost on (s.hw.bindOf e l) = false → s.hw.waitMet e l on = true → Leads (.waitEnd e) s (fun h =>
        h.reg Od.engState e = 1 ∧ s.hw.stepped h e (fun k => if on.cont = some k then 0 else g k) ∧
        ∀ p, on.kind = 0 → s.hw.partOf (e.val / 4) = some p →
          h.elem Od.caravanFlags p on.arg = (s.hw.elem Od.caravanFlags p on.arg - 1) % 2 ^ Od.caravanFlags.width)) ∧
      (s.hw.waitMet e l on = false → s.hw.waitDeadline l on = false → on.since + on.timeout * 1000 ≤ s.hw.now →
        (on.cont = none → Leads (.waitTimeout e) s (fun h => h.faulted e Cf.waitTimeout)) ∧
        ∀ i, on.cont = some i → Leads (.waitTimeout e) s (fun h => s.hw.stepped h e (fun k => if k = i then 1 else g k)))

/-- A valid OPEN of a FREE session clears its counts and makes it PREPARING; when its map is zeroed it is OPEN, its watermarks armed, or
COMPLETE if nothing is left to do. EXCLUDE excludes the contributor that red_exclude_index names, REARM arms the watermarks, ABORT
frees the slots and makes the session ABORTED with reason COMMAND, CLOSE frees the session. -/
def Obligations.SessionCommands : Prop :=
  ∀ (who : Actor) (session : Fin 256) (s : State), let n := session.val
    let st := s.hw.reg Od.redState n
    let armed (h : Hw) : Prop := ∀ k, 1 ≤ k → k < 4 → h.reg Od.wmArmed (sesWm n k) = 1 ∧ h.reg Od.wmCrossed (sesWm n k) = 0
    (s.hw.accepts who Od.redCommand n 1 → st = 0 → s.hw.openOk who n = true → Leads (.openSession who session) s (fun h =>
      h.reg Od.redState n = 1 ∧ (h.ses n).stack = dpaStack (s.hw.reg Od.redOutBase n) ∧ (h.ses n).chunks = [] ∧ (h.ses n).parked = [] ∧
      ∀ r, r ∈ [Od.redExcluded, Od.redMissing, Od.redChunksDone, Od.redChunksPartial, Od.redChunksLost, Od.redOpenNow, Od.redParked,
        Od.redDuplicates, Od.redWindowHigh, Od.redNonfinite] → h.reg r n = 0)) ∧
    (let w := s.hw.writeMap n 0 (List.replicate (s.hw.mapBytes n) 0);
      st = 1 → s.hw.reg Od.redResume n = 0 → (s.hw.ses n).reread = false → w.reg Od.redState n = 1 →
      Leads (.sessionPrepared session) s (fun h => (h.ses n).preparedAt = w.now ∧ armed h ∧
        h.reg Od.redState n = if w.chunkCount n ≤ w.reg Od.redChunksDone n then 3 else 2)) ∧
    (s.hw.accepts who Od.redCommand n 4 → st = 2 → Leads (.exclude who session) s (fun h =>
      h.reg Od.redExcluded n = (s.hw.reg Od.redExcluded n ||| 2 ^ s.hw.reg Od.redExcludeIndex n) % 2 ^ Od.redExcluded.width)) ∧
    (s.hw.accepts who Od.redCommand n 5 → st = 2 → Leads (.rearm who session) s (fun h => armed h ∧ h.reg Od.redState n = 2)) ∧
    (s.hw.accepts who Od.redCommand n 2 → st = 1 ∨ st = 2 → Leads (.abort who session) s (fun h => h.reg Od.redState n = 4 ∧
      h.reg Od.redAbortReason n = 1 ∧ h.reg Od.redOpenNow n = 0 ∧ h.reg Od.redParked n = 0 ∧ (h.ses n).parked = [] ∧
      ∀ c, h.slotOfChunk n c = none)) ∧
    (s.hw.accepts who Od.redCommand n 3 → st = 3 ∨ st = 4 → Leads (.close who session) s (fun h => h.reg Od.redState n = 0 ∧
      Table.look h.red.sessions n = none))

/-- The oldest contribution at a slice whose chunk is NEW, with room, or OPEN without its contributor is added element by element and its
bit set; one already added, or for a FINAL chunk, counts as a duplicate; one for a session that takes none changes no chunk.
A chunk whose output has landed gets its map entry. A straggler under WAIT loses its timer, under FINALIZE_PARTIAL is written
out rounded and PARTIAL, under ABORT aborts its session. -/
def Obligations.Contributions : Prop :=
  ∀ (stack : StackIx) (session : Fin 256) (chunk : BitVec 32) (s : State),
    (∀ p rest, Table.atD s.hw.red.accIn (fun _ => []) stack.val = p :: rest → let n := p.subop
      let c := p.off
      let k := s.hw.chunk n c
      let st := s.hw.reg Od.redState n
      let out := (s.hw.reg Od.redExcluded n).testBit p.dpa
      let taken (h : Hw) : Prop := Table.atD h.red.accIn (fun _ => []) stack.val = rest
      (∀ sl, st = 2 → out = false → p.psn.any id = false →
        (k.st = .opened ∧ k.slot = some sl ∧ sl.bits.testBit p.dpa = false ∧ sl.waitSeq = none ∨
          k.st = .fresh ∧ s.hw.reg Od.redOpenNow n < s.hw.reg Od.redOpenChunks n ∧ sl = freshSlot (s.hw.elemsOf n c) s.hw.now) →
        s.hw.completeness n (sl.bits ||| 2 ^ p.dpa) = none → Leads (.contribution stack) s (fun h => taken h ∧
          (h.chunk n c).st = .opened ∧ (h.chunk n c).slot =
            some { (addAll (s.hw.reg Od.redFmtIn n) (s.hw.sreg Od.redExp n) sl.acc.length p.data sl).1 with bits := sl.bits ||| 2 ^ p.dpa })) ∧
      (st = 2 → out = false → p.psn.any id = false →
        k.st = .final ∨ (k.st = .opened ∧ ∃ sl, k.slot = some sl ∧ sl.bits.testBit p.dpa = true) →
        Leads (.contribution stack) s (fun h => taken h ∧ h.chunk n c = k ∧
          h.reg Od.redDuplicates n = (s.hw.reg Od.redDuplicates n + 1) % 2 ^ Od.redDuplicates.width)) ∧
      ((st ≠ 1 ∧ st ≠ 2) ∨ (st = 2 ∧ (out = true ∨ k.st = .partialSum)) → Leads (.contribution stack) s (fun h => taken h ∧
        h.chunk n c = k ∧ h.reg Od.redDuplicates n = s.hw.reg Od.redDuplicates n))) ∧
    let n := session.val
    let c := chunk.toNat
    let k := s.hw.chunk n c
    (let a := s.hw.reg Od.redMapBase n + c / 4;
      let t := dpaStack a;
      let b := s.hw.physical t (dpaOff a);
      s.hw.reg Od.redState n ≠ 0 → k.slot = none → k.mapBits ≠ 0 → k.mapped = false →
      (∀ x, x ∈ s.hw.outputSectors n c → s.hw.sectorLanded x = true) → s.hw.retired (dpaOf t (dpaOff a)) = false →
      s.hw.storable (secKey t b) = true → s.hw.mirroring = false → Table.look s.hw.mem.wcb (secKey t b) = none →
      s.hw.wcbCount t + 1 < s.hw.reg Od.wcbHigh →
      Leads (.mapEntryWrite session chunk) s (fun h => (h.chunk n c).mapped = true ∧ ∃ w v, Table.look h.mem.wcb (secKey t b) = some w ∧
        Table.look w.bytes (b % 256) = some v ∧ v.toNat / 4 ^ (c % 4) % 4 = k.mapBits)) ∧
    ∀ sl, s.hw.slotOfChunk n c = some sl → s.hw.reg Od.redState n = 2 → sl.timerDone = false → sl.due = none →
      sl.allocTime + (s.hw.ses n).stragglerNs ≤ s.hw.now →
      (s.hw.reg Od.redPolicy n = 0 → Leads (.stragglerExpiry session chunk) s (fun h =>
        h.chunk n c = { k with slot := some { sl with timerDone := true } })) ∧
      (let e := chunkElems (s.hw.reg Od.redFmtIn n);
        let base := s.hw.reg Od.redOutBase n + c * e * s.hw.outWidth n;
        let seed : Option (BitVec 64) := if s.hw.reg Od.redRound n = 1 then some (BitVec.ofNat 64 (s.hw.reg Od.redSeed n)) else none;
        let vals := (List.range sl.acc.length).map (fun i => sl.value (s.hw.sreg Od.redExp n) (s.hw.sreg Od.redOutExp n) i);
        let bytes := (encodeScalars (s.hw.reg Od.redFmtOut n) vals seed (c * e)).1;
        let w := s.hw.writeBytes (dpaStack base) (dpaOff base) bytes (List.replicate bytes.length true) [] { cls := s.hw.reg Od.redClass n, attr := none };
        s.hw.reg Od.redPolicy n = 1 → s.hw.coherent (s.hw.partOf (dpaStack base)) = false → w.pair.mirrorNext = s.hw.pair.mirrorNext →
        Leads (.stragglerExpiry session chunk) s (fun h => h.chunk n c = { st := .partialSum, finishedAt := w.now } ∧ h.mem.wcb = w.mem.wcb ∧
          h.reg Od.redChunksDone n = (w.reg Od.redChunksDone n + 1) % 2 ^ Od.redChunksDone.width ∧
          h.reg Od.redChunksPartial n = (w.reg Od.redChunksPartial n + 1) % 2 ^ Od.redChunksPartial.width)) ∧
      (s.hw.reg Od.redPolicy n = 2 → Leads (.stragglerExpiry session chunk) s (fun h => h.reg Od.redState n = 4 ∧
        h.reg Od.redAbortReason n = 2))

/-- An intent adds 1 to its sector's count and a settle notice takes its merged writes off it. A staged delta is applied to its parity
sector, and its settle notice goes back. At 20 µs of a degrade whose slice does not answer, every sector with a count left is
unsettled in all four lines, and nothing is left of its counts; the degrade's completion makes the partition DEGRADED. A degraded
read delivers the lines it forms. -/
def Obligations.ParityAndDegrade : Prop :=
  ∀ (stack : StackIx) (s : State), let t := stack.val
    let count (h : Hw) (k : Nat) : Int := Table.atD h.par.intents (fun _ => 0) k
    (∀ x rest, Table.atD s.hw.par.intentsIn (fun _ => []) t = x :: rest → Leads (.writeIntent stack) s (fun h =>
      Table.atD h.par.intentsIn (fun _ => []) t = rest ∧ ∀ k, count h k = if k = x.2 then count s.hw k + 1 else count s.hw k)) ∧
    (∀ x rest, Table.atD s.hw.par.settles (fun _ => []) t = x :: rest → Leads (.settleNotice stack) s (fun h =>
      Table.atD h.par.settles (fun _ => []) t = rest ∧
      ∀ k, count h k = if k = secKey x.dataStack x.off then count s.hw k - x.merges else count s.hw k)) ∧
    (∀ d, s.hw.deltasAt t = [d] →
      let w := { s.hw with par.deltas := Table.put s.hw.par.deltas t [] }.applyDelta d
      Leads (.parityDelta stack) s (fun h => h.deltasAt t = w.deltasAt t ∧ (∀ c, h.rawCol t c = w.rawCol t c) ∧
        Table.atD h.par.settles (fun _ => []) d.dataStack = Table.atD w.par.settles (fun _ => []) d.dataStack ++
          [{ parityStack := d.parityStack, dataStack := d.dataStack, off := d.off, merges := d.merges }])) ∧
    (∀ d, s.hw.par.degrades.find? (fun x => x.stack == t) = some d → d.collected = false → s.hw.modulesIn t .up = [] →
      d.since + 20000 ≤ s.hw.now → (∀ u, Table.look s.hw.par.intentsIn u = none) → (∀ u, s.hw.deltasAt u = []) →
      Table.atD s.hw.par.settles (fun _ => []) t = [] → Leads (.degradeDrainEnd stack) s (fun h =>
        (∃ x, x ∈ h.par.degrades ∧ x.stack = t ∧ x.collected = true) ∧
        (∀ e, e ∈ s.hw.par.intents → secStack e.1 = t → 0 < e.2 → h.unsettledLines e.1 = 15) ∧
        ∀ k, secStack k = t → Table.look h.par.intents k = none ∧ Table.look h.mem.wcb k = none ∧ Table.look h.mem.rmw k = none)) ∧
    (∀ d, s.hw.par.degrades.find? (fun x => x.stack == t && x.collected) = some d → s.hw.reg Od.partState d.part = 3 →
      (∀ n, s.hw.accStack n = t → s.hw.reg Od.redState n ≠ 1 ∧ s.hw.reg Od.redState n ≠ 2) → s.hw.stage t = [] →
      (∀ c, s.hw.queue (gOf t c) = []) → Leads (.degradeComplete stack) s (fun h => h.reg Od.partState d.part = 4 ∧
        ∀ x, x ∈ h.par.degrades → x.stack ≠ t)) ∧
    ∀ p rest x, Table.atD s.hw.par.degReads (fun _ => []) t = p :: rest → (s.hw.trk p.trk).isSome = true →
      let w := { s.hw with par.degReads := Table.setD s.hw.par.degReads (fun _ => []) t rest }.readBytes p.stack p.off p.len (some p.requester) 0
      w.2.2.trk p.trk = some x → 2 * (p.len / 64) < x.piecesLeft → (∀ y, s.hw.trk p.trk = some y → y.rq.addr = x.rq.addr) →
      Leads (.degradedRead stack) s (fun h => ∃ u, h.trk p.trk = some u ∧ u.piecesLeft = x.piecesLeft - 2 * (p.len / 64) ∧
        u.out = x.out ++ (List.range (p.len / 64)).map (fun i => (p.dpa + 64 * i - x.rq.addr, (w.1.drop (64 * i)).take 64)))

/-- A span port takes a good flit in order, with its tag on a pair link; a third failed tag within 1 ms puts a pair link DOWN. Silent for
2 µs it retrains; a retrain that delivers brings it up, one that does not counts towards the two after which it is DOWN. SP0
trained, a cascade is JOINED where version and formation agree, the secondary at the master's time, and else waits for its
configuration; 100 ms without training it is SPAN_LOST. -/
def Obligations.SpansAndCascade : Prop :=
  ∀ (port : Fin 2) (s : State), let p := port.val
    let l := s.hw.span p
    (∀ header payload crc tagOk, let seq := flitField header 16 12
      l.st = .up → flitGood header payload crc = true → (s.hw.pairLink p = true → tagOk = true) → flitField header 28 4 ≠ 0 →
      seq = (l.rxSeq + 1) % 4096 → Leads (.spanFlitReceive port header payload crc tagOk) s (fun h =>
        (h.span p).rxSeq = seq ∧ (h.span p).nak = false ∧ (h.span p).lastRx = s.hw.now ∧
        (h.span p).rx = [⟨seq, flitField header 28 4, flitField header 0 3, payload⟩])) ∧
    (∀ header payload crc, l.st = .up → s.hw.pairLink p = true →
      2 ≤ (l.tagFails.filter (fun t => decide (s.hw.now < t + 1000000))).length →
      Leads (.spanFlitReceive port header payload crc false) s (fun h => (h.span p).st = .failed ∧ h.spanUp p = false)) ∧
    (l.st = .up → l.lastRx + 2000 ≤ s.hw.now → Leads (.spanIdleRetrain port) s (fun h =>
      (h.span p).st = .retrain ∧ (h.span p).retrains = l.retrains + 1)) ∧
    (∀ delivered, l.st = .retrain → Leads (.spanRetrainDone port delivered) s (fun h => (h.span p).st = .up ∧
      (h.span p).lastRx = s.hw.now ∧ (h.span p).retrains = if delivered then 0 else l.retrains)) ∧
    (l.givesUp s.hw.now = true → Leads (.spanDown port) s (fun h => (h.span p).st = .failed ∧ h.spanUp p = false)) ∧
    (∀ fw digest time latency, s.hw.reg Od.cascadeState = 1 →
      let same := fw.toNat / 65536 = s.hw.reg Od.fwVersion / 65536 ∧ digest.toNat = sha384Nat s.hw.formationSet % 2 ^ Od.formationDigest.width
      (same → Leads (.sp0Trained fw digest time latency) s (fun h => h.reg Od.cascadeState = 3 ∧ h.spanUp 0 = true ∧
        h.elem Od.spanLatencyNs 0 0 = latency.toNat % 2 ^ Od.spanLatencyNs.width ∧ (s.hw.reg Od.cascadeRole = 2 → h.now = time.toNat))) ∧
      (¬ same → Leads (.sp0Trained fw digest time latency) s (fun h => h.reg Od.cascadeState = 2 ∧ h.msg.subs = []))) ∧
    (s.hw.reg Od.cascadeState = 1 → s.hw.timer Tm.spanTrain 0 + 100000000 ≤ s.hw.now → Leads .spanTrainTimeout s (fun h =>
      h.reg Od.cascadeState = 4 ∧ (s.hw.reg Od.cascadeRole = 1 → ∀ i, i < 8 → h.reg Od.stackState (8 + i) = 2)))

/-- pair_state as chapter 11 moves it: FORM and the session lead to LEASE_WAIT or CONFIG_WAIT; a granted lease to ALONE or, with a peer that
can be reached, ACTIVE, its epoch taken; heartbeats to STANDBY, or to ACTIVE with a standby, or to FENCED at a higher epoch; a lost
peer to the state that waits for the witness; an expired lease, a refusal, a higher epoch or RELINQUISH to FENCED; REJOIN to
STANDBY; a takeover lease makes the standby serve alone. -/
def Obligations.PairStates : Prop :=
  ∀ (who : Actor) (s : State), let st := s.hw.reg Od.pairState
    let ep := s.hw.reg Od.pairEpoch
    let unsynced (h : Hw) : Prop := ∀ p, p < 16 → h.reg Od.syncState p = 0
    let fencedNow (h : Hw) : Prop := h.reg Od.pairState = 9 ∧ h.pair.mirrors = [] ∧ h.reg Od.mirrorBufferBytes = 0
    (s.hw.accepts who Od.pairCommand 0 1 → (s.hw.reg Od.cascadeState = 2 → Leads (.form who) s (fun h => h.reg Od.cascadeState = 1)) ∧
      (s.hw.reg Od.cascadeState ≠ 2 → st = 2 → Leads (.form who) s (fun h => h.reg Od.pairState = 1))) ∧
    (∀ key fw digest, st = 1 →
      let same := key.toNat = s.hw.reg Od.pairPeerId ∧ fw.toNat / 65536 = s.hw.reg Od.fwVersion / 65536 ∧
        digest.toNat = sha384Nat s.hw.formationSet % 2 ^ Od.formationDigest.width
      (same → Leads (.pairSessionUp key fw digest) s (fun h => h.reg Od.pairState = 3 ∧ h.pair.linkKey.isSome = true)) ∧
      (¬ same → Leads (.pairSessionUp key fw digest) s (fun h => h.reg Od.pairState = 2))) ∧
    (st = 1 → s.hw.timer Tm.spanTrain 1 + 100000000 ≤ s.hw.now → Leads .pairLinkTimeout s (fun h => h.reg Od.pairState = 3)) ∧
    (∀ (epoch : BitVec 32) role, role < 256 → let v := BitVec.ofNat 128 (epoch.toNat + role * 2 ^ 32)
      s.hw.accepts who Od.leaseGrant 0 v.toNat → st ∈ [3, 4, 5, 6, 8] →
      let held (h : Hw) : Prop := h.reg Od.pairEpoch = epoch.toNat ∧ h.pair.leaseUntil = some (s.hw.now + s.hw.reg Od.pairLeaseMs * 1000000)
      (role = 0xff → Leads (.leaseGrant who v) s fencedNow) ∧
      (ep < epoch.toNat → (st = 3 ∨ st = 6) → role = 2 → Leads (.leaseGrant who v) s (fun h => h.reg Od.pairState = 5 ∧ held h)) ∧
      (ep < epoch.toNat → st = 3 → role = 1 → s.hw.peerReachable = true → Leads (.leaseGrant who v) s (fun h =>
        h.reg Od.pairState = 4 ∧ unsynced h ∧ held h)) ∧
      (ep < epoch.toNat → st = 4 ∨ st = 5 ∨ st = 8 → role = 1 ∨ role = 2 → Leads (.leaseGrant who v) s (fun h =>
        h.reg Od.pairState = st ∧ held h)) ∧
      (epoch.toNat ≤ ep → role = 1 ∨ role = 2 → Leads (.leaseGrant who v) s (fun h => h.reg Od.pairState = st ∧ h.reg Od.pairEpoch = ep))) ∧
    (∀ t, s.hw.pair.leaseUntil = some t → (st = 4 ∨ st = 5 → s.hw.due Tm.lease 0 = true → Leads .leaseRenew s (fun h =>
        h.timer Tm.lease 0 = t ∧ h.reg Od.evHead = (s.hw.reg Od.evHead + 1) % 2 ^ Od.evHead.width)) ∧
      (t ≤ s.hw.now → st ∈ [4, 5, 6] → Leads .leaseExpiry s fencedNow)) ∧
    (∀ epoch : BitVec 32, s.hw.accepts who Od.pairEpoch 0 epoch.toNat → Leads (.pairEpochWrite who epoch) s (fun h =>
      h.reg Od.pairEpoch = epoch.toNat ∧ h.reg Od.pairState = if ep < epoch.toNat ∧ st ∈ [4, 5, 6, 8] then 9 else st)) ∧
    (let body := natBytes st 1 ++ natBytes ep 4 ++ natBytes s.hw.now 8 ++ natBytes s.hw.pair.mirrorDone 8;
      s.hw.due Tm.heartbeat 0 = true → s.hw.peerReachable = true → Leads .heartbeatSend s (fun h =>
        h.timer Tm.heartbeat 0 = s.hw.now + 8000 ∧ ∀ p, p < 2 → s.hw.pairLink p = true → s.hw.spanUp p = true →
          (s.hw.span p).buf.length < 1920 → (h.span p).buf = (s.hw.span p).buf ++ [⟨(s.hw.span p).txSeq, Fk.control, 4, body⟩])) ∧
    (∀ (port : Fin 2) (ps : BitVec 8) (pe : BitVec 32) (d : Int) (n : Nat), (s.hw.span port).st = .up → s.hw.pairLink port = true →
      (st ∈ [4, 5, 6, 8] → ep < pe.toNat → Leads (.heartbeatReceive port ps pe d n) s (fun h => fencedNow h ∧ h.reg Od.pairEpoch = pe.toNat)) ∧
      (st = 3 → ps = 4 ∨ ps = 5 → Leads (.heartbeatReceive port ps pe d n) s (fun h => h.reg Od.pairState = 7 ∧
        h.reg Od.pairEpoch = max ep pe.toNat % 2 ^ Od.pairEpoch.width ∧ unsynced h ∧ h.now = ((s.hw.now : Int) - d).toNat)) ∧
      (st = 5 → pe.toNat ≤ ep → ps = 7 → Leads (.heartbeatReceive port ps pe d n) s (fun h => h.reg Od.pairState = 4 ∧ unsynced h)) ∧
      (st = 7 → Leads (.heartbeatReceive port ps pe d n) s (fun h => h.reg Od.pairState = 7 ∧ h.reg Od.pairEpoch = max ep pe.toNat % 2 ^ Od.pairEpoch.width ∧
        h.now = ((s.hw.now : Int) - max (-4) (min 4 d)).toNat))) ∧
    (∀ c, (c = Instr.fenceFlit ∨ (c = Instr.peerLost ∧ s.hw.timer Tm.peerRx 0 + 40000 ≤ s.hw.now)) →
      (st = 4 → Leads c s (fun h => h.reg Od.pairState = 6)) ∧
      (st = 7 → Leads c s (fun h => h.reg Od.pairState = 8 ∧ h.pair.leaseUntil = none))) ∧
    (s.hw.accepts who Od.pairCommand 0 2 → st = 9 → s.hw.pair.peerState = 4 ∨ s.hw.pair.peerState = 5 →
      Leads (.rejoin who) s (fun h => h.reg Od.pairState = 7 ∧ unsynced h)) ∧
    (s.hw.accepts who Od.pairCommand 0 3 → st = 4 → Leads (.relinquish who) s fencedNow) ∧
    (st = 8 → s.hw.pair.leaseUntil.isSome = true → Leads .takeover s (fun h => h.reg Od.pairState = 5 ∧ h.reg Od.serviceMode = 3 ∧
      unsynced h ∧ h.pair.launchRecs = []))

/-- A unit in STANDBY or TAKEOVER_WAIT applies each message and reports one more accepted. At the active unit the acceptance of a held write's
message lets its response go. Every 64 s digests are compared; a mismatch counts, and every partition is UNSYNCED. Resync sends the
next sector of the partition in hand and moves its mark, from stack to stack. -/
def Obligations.MirrorTraffic : Prop :=
  ∀ (s : State), let st := s.hw.reg Od.pairState
    (∀ m, st = 7 ∨ st = 8 → let w := s.hw.mirrorApply m
      Leads (.mirrorMessage m) s (fun h => h.pair.mirrorDone = w.pair.mirrorDone + 1 ∧ ∀ r i, h.reg r i = w.reg r i)) ∧
    (∀ (i : Reg) index inst sub elem value f, st = 7 ∨ st = 8 → i = ⟨index.toNat, sub.toNat⟩ → fieldOf i = some f → f.cmd = false →
      i ≠ Od.reqState → i ≠ Od.serviceMode → actsOn i = false →
      Leads (.mirrorMessage (.dict index inst sub elem value)) s (fun h => i ≠ Od.frameMap →
        h.elem i inst.toNat elem.toNat = value % 2 ^ i.width)) ∧
    (∀ r q, st = 7 ∨ st = 8 → Leads (.mirrorMessage (.launchRecord r q false)) s (fun h =>
      h.pair.launchRecs = s.hw.pair.launchRecs ++ [(r.toNat, q.toNat)])) ∧
    (∀ n m uid t, st = 4 → s.hw.pair.mirrors = [m] → m.seqNo ≤ n → n ≤ s.hw.pair.mirrorNext → m.kind = 0 → m.trk = some uid →
      s.hw.trk uid = some t → t.phase = .held → t.rq.op ≠ 9 → t.rq.seq = none → s.hw.discards t = false → s.hw.red.sessions = [] →
      Leads (.mirrorAccepted n) s (fun h => h.pair.mirrors = [] ∧ h.pair.mirrorDone = max s.hw.pair.mirrorDone n ∧
        ∃ u, h.trk uid = some u ∧ u.phase = .responding ∧ u.status = t.status)) ∧
    (∀ peer, st = 4 ∨ st = 7 → s.hw.due Tm.mirrorDigest 0 = true →
      Leads (.mirrorDigestCompare peer) s (fun h => h.timer Tm.mirrorDigest 0 = s.hw.now + 64000000000 ∧
        if s.hw.mirrorDigest = peer.toNat then h.reg Od.mirrorDivergences = s.hw.reg Od.mirrorDivergences
        else h.reg Od.mirrorDivergences = (s.hw.reg Od.mirrorDivergences + 1) % 2 ^ Od.mirrorDivergences.width ∧
          ∀ p, p < 16 → h.reg Od.syncState p = 0)) ∧
    ∀ p, s.hw.pair.syncPart = some p → st = 4 → s.hw.reg Od.mirrorBufferBytes < 11534336 →
      let new_ := s.hw.reg Od.syncState p = 0
      let a := if new_ then (s.hw.members p).headD 0 else s.hw.reg Od.syncStack p
      let o := if new_ then 0 else s.hw.reg Od.syncHwm p
      let size := s.hw.reg Od.stackCapacity a
      a < 16 → o < size → Leads .resyncSector s (fun h => (∃ m, m ∈ h.pair.mirrors ∧ m.kind = 5 ∧ m.dpa = dpaOf a o) ∧
        (o + 256 < size → h.reg Od.syncHwm p = (o + 256) % 2 ^ Od.syncHwm.width) ∧
        (size ≤ o + 256 → ∀ t, (s.hw.members p).find? (fun t => decide (a < t)) = some t →
          h.reg Od.syncStack p = t % 2 ^ Od.syncStack.width ∧ h.reg Od.syncHwm p = 0))

/-- A valid CREATE raises the epoch and waits for the key; the key starts the fill; filled, every pseudo-channel of its stacks holds the
fill and it is ACTIVE, or DEGRADED. GROW fills and binds the stacks of part_grow. RELEASE of a partition that waits for its key
frees it; else it is RELEASING: drained, its key destroyed and its marker written, scrubbed by 256 MiB, verified, it is FREE. -/
def Obligations.PartitionLife : Prop :=
  ∀ (who : Actor) (part : PartIx) (s : State), let p := part.val
    let st := s.hw.reg Od.partState p
    let x (h : Hw) : PartX := Table.atD h.sec.parts (fun _ => {}) p
    let keyless (h : Hw) : Prop := Table.look h.sec.memKeys p = none ∧ h.reg Od.secKeyInstalled p = 0 ∧ h.markerDestroyed p = true ∧
      h.markerHwm p = 0 ∧ (x h).stage = 3 ∧ (x h).filled = false
    (let caps := (bitsOf (s.hw.reg Od.partStacks p)).map (fun t => s.hw.reg Od.stackCapacity t);
      let low := caps.foldl min (caps.headD 0);
      s.hw.accepts who Od.partCommand p 1 → st = 0 → s.hw.reg Od.dbgHalted = 0 → s.hw.createOk p = true → Leads (.create who part) s (fun h =>
        h.reg Od.partState p = 1 ∧ h.reg Od.partAlloc p = 1 ∧ h.reg Od.partEpoch p = (s.hw.reg Od.partEpoch p + 1) % 2 ^ Od.partEpoch.width ∧
        h.reg Od.partVisible p = (if s.hw.parityOn p then visibleOf low caps.length else low) % 2 ^ Od.partVisible.width ∧
        ∀ t, t ∈ bitsOf (s.hw.reg Od.partStacks p) → h.reg Od.dirSuspectSets t = 0)) ∧
    (∀ key : BitVec 512, s.hw.accepts who Od.keyInstall p key.toNat → st = 1 → key.extractLsb' 0 256 ≠ key.extractLsb' 256 256 →
      Leads (.keyInstall who part key) s (fun h => Table.look h.sec.memKeys p = some key ∧ h.reg Od.secKeyInstalled p = 1 ∧
        h.reg Od.partState p = 2)) ∧
    (∀ key, Table.look s.hw.sec.memKeys p = some key →
      (st = 2 → Leads (.partitionFillDone part) s (fun h =>
        h.reg Od.partState p = (if s.hw.parityOn p = true ∧ s.hw.reg Od.partFailedStacks p ≠ 0 then 4 else 3) ∧
        ∀ t c, t ∈ s.hw.members p → s.hw.failed t = false → c < 64 → s.hw.reg Od.pcState (gOf t c) ≠ 6 →
          Table.look h.mem.fills (gOf t c) = some (s.hw.fillFor p t key))) ∧
      (st = 3 → (x s.hw).growing ≠ 0 → Leads (.growFillDone part) s (fun h => h.reg Od.partGrow p = 0 ∧ (x h).growing = 0 ∧
        ∀ t, t ∈ bitsOf ((x s.hw).growing &&& s.hw.reg Od.partGrow p) → h.bit Od.partStacks p t = true ∧ h.reg Od.dirSuspectSets t = 0))) ∧
    (s.hw.accepts who Od.partCommand p 2 → st = 3 → (x s.hw).growing = 0 → s.hw.growOk p = true → Leads (.grow who part) s (fun h =>
      (x h).growing = s.hw.reg Od.partGrow p ∧ h.reg Od.partState p = 3)) ∧
    (s.hw.accepts who Od.partCommand p 3 →
      (st = 1 → Leads (.release who part) s (fun h => h.reg Od.partState p = 0 ∧ h.reg Od.partStacks p = 0)) ∧
      (st = 2 → Leads (.release who part) s (fun h => h.reg Od.partState p = 5 ∧ keyless h)) ∧
      (st = 3 ∨ st = 4 → Leads (.release who part) s (fun h => h.reg Od.partState p = 5 ∧ (x h).stage = 1 ∧ (x h).growing = 0 ∧
        ∀ n, n < 256 → s.hw.reg Od.redPartition n = p → h.reg Od.redState n = 0))) ∧
    (st = 5 → (∀ u t, (u, t) ∈ s.hw.req.trackers → t.part ≠ some p) → (x s.hw).stage = 1 ∨ (x s.hw).stage = 2 → s.hw.waysOf p = [] →
      Leads (.partitionDrainDone part) s (fun h => h.reg Od.partState p = 5 ∧ keyless h)) ∧
    (st = 5 → (x s.hw).stage = 3 → (x s.hw).filled = false → (x s.hw).stopped = false → s.hw.markerDestroyed p = true →
      let at_ := s.hw.markerHwm p
      (at_ + 2 ^ 28 < s.hw.scrubEnd p → Leads (.scrubHwmStep part) s (fun h => h.markerHwm p = (at_ + 2 ^ 28) % 2 ^ 37 ∧
        h.reg Od.partScrubHwm p = (at_ + 2 ^ 28) % 2 ^ Od.partScrubHwm.width)) ∧
      (s.hw.scrubEnd p ≤ at_ + 2 ^ 28 → Leads (.scrubHwmStep part) s (fun h => (x h).filled = true))) ∧
    (∀ failing : List StackIx, st = 5 → (x s.hw).filled = true → (x s.hw).stopped = false →
      let bad := failing.any (fun t => (s.hw.scrubbed p).contains t.val)
      (bad = false → Leads (.scrubVerify part failing) s (fun h => h.reg Od.partState p = 0 ∧ h.reg Od.partStacks p = 0 ∧
        Table.look h.sec.markers p = none ∧ ∀ t k, t ∈ s.hw.members p → k / 2 ^ 23 / 4 = t → Table.look h.car.staging k = none)) ∧
      (bad = true → Leads (.scrubVerify part failing) s (fun h => h.reg Od.partState p = 5 ∧ (x h).stopped = true))) ∧
    (st = 6 → Leads (.scrubResume part) s (fun h => h.reg Od.partState p = 5 ∧ (x h).stage = 3 ∧ (x h).filled = false ∧
      if s.hw.markerDestroyed p then h.markerHwm p = s.hw.markerHwm p else keyless h))

/-- Each transition runs from the state below it, burns its OTP word, sets the debug level and, towards RETURNED and SCRAPPED, destroys
every key and the identity; from any other state its command changes no state. A weight key enters a bound slot and DESTROY
empties it. Consent withdrawn resumes the steward. An alarm zeroizes the cistern's secrets and the key store, and is acknowledged
in the journal. -/
def Obligations.LifeCycleAndTamper : Prop :=
  ∀ (who : Actor) (s : State), let lc := s.hw.reg Od.lcState
    let steps (c : Instr) (n : Nat) (also : Hw → Prop) : Prop := s.hw.accepts who Od.lcCommand 0 n → (lc + 1 = n → Leads c s (fun h =>
        h.reg Od.lcState = n ∧ h.sec.otp = s.hw.sec.otp.set (n - 1) otpFull ∧ also h)) ∧
      (lc + 1 ≠ n → Leads c s (fun h => h.reg Od.lcState = lc ∧ h.sec.otp = s.hw.sec.otp))
    let bare (h : Hw) : Prop := h.sec.memKeys = [] ∧ h.car.weightKeys = [] ∧ h.sec.uds = none ∧ h.sec.resume = [] ∧ h.reg Od.idPublic = 0
    (s.hw.certOk = true → (∃ k, k < 4 ∧ s.hw.elem Od.opKeys 0 k ≠ 0) → steps (.provision who) 1 (fun h => h.reg Od.dbgLevel = Dbg.operator)) ∧
    steps (.deploy who) 2 (fun h => h.reg Od.dbgLevel = Dbg.locked ∧ h.sec.rollbackArmed = true) ∧
    ((∀ p, p < 16 → s.hw.inUse p = false) → s.hw.otherSessions who = false →
      steps (.returnLc who) 3 (fun h => h.reg Od.dbgLevel = Dbg.returnedOpen ∧ bare h)) ∧
    steps (.scrap who) 4 (fun h => h.reg Od.dbgLevel = Dbg.locked ∧ bare h ∧ ∀ k, k < 4 → h.elem Od.opKeys 0 k = 0) ∧
    (∀ (slot : Fin 256) (key : BitVec 256),
      (s.hw.accepts who Od.wkKey slot key.toNat → s.hw.reg Od.wkPartition slot < 16 → Leads (.wkKeyWrite who slot key) s (fun h =>
        Table.look h.car.weightKeys slot = some key)) ∧
      (s.hw.accepts who Od.wkCommand slot 1 → Leads (.destroy who slot) s (fun h => Table.look h.car.weightKeys slot = none ∧
        h.reg Od.wkPartition slot = 0xff))) ∧
    (∀ part : PartIx, s.hw.mayWrite who Od.secConsentDebug part 0 = true → (s.hw.fieldAt Od.secConsentDebug part).isSome = true →
      s.hw.remoteCopy Od.secConsentDebug.index part = false → s.hw.boot.stalled = [] → Leads (.secConsentDebugWrite who part) s (fun h =>
        h.reg Od.dbgHalted = 0 ∧ h.reg Od.secConsentDebug part = 0)) ∧
    (∀ cause, let n := s.hw.reg Od.tamperCount
      Leads (.tamperAlarm cause) s (fun h => h.reg Od.tamperSeen = 1 ∧ h.sec.resume = [] ∧
        h.reg Od.tamperCount = (if n + 1 < 2 ^ Od.tamperCount.width then n + 1 else n) ∧
        if s.hw.boot.pwrok then h.sec.memKeys = [] ∧ h.car.weightKeys = [] ∧ h.sec.fillSecret = Config.drbg 256 s.hw.drawn
        else h.sec.fillSecret = 0 ∧ h.sec.resumeKek = 0)) ∧
    (s.hw.accepts who Od.tamperAck 0 1 → Leads (.tamperAck who) s (fun h => h.reg Od.tamperSeen = 0 ∧
      ∃ v, Table.look h.sec.journal (s.hw.reg Od.journalCount % 64) = some v ∧ v.toNat / 2 ^ 120 = 7))

/-- Where the steward responds and the session stands, each request is answered on the management stream as R269 to R275 say. KEY_EXCHANGE
opens the first free session, or finds the unit Busy; FINISH establishes it, or ends it; HEARTBEAT keeps it, KEY_UPDATE derives its
keys afresh, END_SESSION and silence end it. KEY_PROG hands a key over; a key set starts and stops. An interface is locked, runs and
is unlocked. -/
def Obligations.SpdmAnswers : Prop :=
  ∀ (o : Option SpdmIx) (n : SpdmIx) (s : State),
    let said (x : Option Nat) (code : Nat) (body : List Byte) (status : Nat) (h : Hw) : Prop :=
      h.msg.msTx = s.hw.msg.msTx ++ [{ session := x, code := 0x500 + code, status := status, body := body }]
    let on := sesOf o
    (s.hw.delivered on = true →
      Leads (.getVersion o) s (said on 0x04 [0x00, 0x13] 0) ∧
      Leads (.getCapabilities o) s (said on 0x61 (natBytes 0x63d6 4 ++ natBytes 4096 4) 0) ∧
      (∀ a d : BitVec 32, Leads (.negotiateAlgorithms o a d) s
        (if a.getLsbD 7 && d.getLsbD 1 then said on 0x63 (natBytes 0x80 4 ++ natBytes 2 4) 0 else said on 0x7f [] 1)) ∧
      (∀ b : BitVec 8, Leads (.spdmUnsupportedRequest o b) s (said on 0x7f [b] 7)) ∧
      (∀ (i : BitVec 8) b, s.hw.measBlocks (spdmActor on) i.toNat = some b →
        Leads (.getMeasurements o i) s (said on 0x60 (b ++ s.hw.aliasSign b) 0)) ∧
      (s.hw.identity = true → Leads (.getDigests o) s (said on 0x01 (1 :: natBytes (sha384Nat s.hw.chain) 48) 0) ∧
        (∀ f l : BitVec 16, let part := (s.hw.chain.drop f.toNat).take (min l.toNat 1024)
          Leads (.getCertificate o 0 f l) s
            (said on 0x02 (natBytes part.length 2 ++ natBytes (s.hw.chain.length - f.toNat - part.length) 2 ++ part) 0)) ∧
        ∀ nonce : BitVec 256, let body := sha384 s.hw.chain ++ bytesOf (Config.drbg 256 s.hw.drawn) 32
          Leads (.challenge o 0 nonce) s (said on 0x03 (body ++ s.hw.aliasSign (body ++ bytesOf nonce 32)) 0))) ∧
    (∀ (key : List Byte) (ms : BitVec 16), s.hw.responds = true → s.hw.identity = true →
      (∀ k, k < 32 → (∀ j, j < k → (Table.look s.hw.sec.spdm j).isSome = true) → Table.look s.hw.sec.spdm k = none →
        let body := natBytes k 2 ++ bytesOf (Config.drbg 256 s.hw.drawn) 32
        Leads (.keyExchange key ms) s (fun h => said none 0x64 (body ++ s.hw.aliasSign body) 0 h ∧
          Table.look h.sec.spdm k = some { peer := sha384Nat key, heartbeatMs := ms.toNat, lastAt := s.hw.now })) ∧
      ((∀ j, j < 32 → (Table.look s.hw.sec.spdm j).isSome = true) → Leads (.keyExchange key ms) s (said none 0x7f [] 3))) ∧
    (∀ x, Table.look s.hw.sec.spdm n = some x →
      (s.hw.responds = true → x.established = false →
        Leads (.finish n true) s (fun h => said (some n.val) 0x65 [] 0 h ∧
          Table.look h.sec.spdm n = some { x with established := true, lastAt := s.hw.now }) ∧
        Leads (.finish n false) s (fun h => said none 0x7f [] 1 h ∧ Table.look h.sec.spdm n = none)) ∧
      (s.hw.responds = true → x.established = true →
        Leads (.heartbeat n) s (fun h => said (some n.val) 0x68 [] 0 h ∧ Table.look h.sec.spdm n = some { x with lastAt := s.hw.now }) ∧
        Leads (.keyUpdate n) s (fun h => said (some n.val) 0x69 [] 0 h ∧
          Table.look h.sec.spdm n = some { x with keyGen := x.keyGen + 1, lastAt := s.hw.now }) ∧
        Leads (.endSession n) s (fun h => said (some n.val) 0x6c [] 0 h ∧ Table.look h.sec.spdm n = none)) ∧
      (x.heartbeatMs ≠ 0 → x.lastAt + 2 * x.heartbeatMs * 1000000 ≤ s.hw.now → Leads (.spdmSessionTimeout n) s (fun h =>
        Table.look h.sec.spdm n = none))) ∧
    (s.hw.delivered (some n.val) = true →
      let vendor (proto code : Nat) (body : List Byte) (h : Hw) : Prop :=
        said (some n.val) 0x7e ([BitVec.ofNat 8 proto, BitVec.ofNat 8 code] ++ body) 0 h
      Leads (.query n) s (vendor 0 0x01 (s.hw.sec.ideSets.flatMap (fun x => natBytes x.1 1 ++ natBytes x.2 1))) ∧
      (∀ (stream : BitVec 8) (k d : BitVec 2) (key : BitVec 256), s.hw.sec.handoff = none → Leads (.keyProg n stream k d key) s (fun h =>
        ∃ x, h.sec.handoff = some x ∧ x.session = n.val ∧ x.since = s.hw.now ∧
          x.words = BitVec.ofNat 64 (stream.toNat + k.toNat * 2 ^ 8 + d.toNat * 2 ^ 10) ::
            (List.range 4).map (fun i => key.extractLsb' (64 * i) 64))) ∧
      (∀ (stream : BitVec 8) (k : BitVec 2), let x := (stream.toNat, k.toNat)
        Leads (.kSetGo n stream k) s (fun h => vendor 0 0x05 [] h ∧ x ∈ h.sec.ideSets) ∧
        Leads (.kSetStop n stream k) s (fun h => vendor 0 0x05 [] h ∧ x ∉ h.sec.ideSets ∧ ∀ y, y ≠ x → (y ∈ h.sec.ideSets ↔ y ∈ s.hw.sec.ideSets))) ∧
      Leads (.getTdispVersion n) s (vendor 1 0x01 [1, 0x10]) ∧
      Leads (.getTdispCapabilities n) s (vendor 1 0x02 [0x81, 0x82, 0x83, 0x84, 0x85, 0x86, 0x87]) ∧
      ∀ (r : BitVec 12) (part : PartIx), let p := part.val
        let v := s.hw.tdiState r.toNat p
        (s.hw.bit Od.reqPartitions r.toNat p = true → v = 0 → s.hw.reg Od.partState p = 3 ∨ s.hw.reg Od.partState p = 4 →
          Leads (.lockInterfaceRequest n r part) s (fun h => h.tdiState r.toNat p = 1 ∧
            vendor 1 0x03 (bytesOf (Config.drbg 256 s.hw.drawn) 32) h)) ∧
        (v = 1 ∨ v = 2 → Leads (.getDeviceInterfaceReport n r part) s (vendor 1 0x04 (s.hw.tdiReport p))) ∧
        Leads (.getDeviceInterfaceState n r part) s (vendor 1 0x05 (natBytes v 1)) ∧
        (v = 1 → Leads (.startInterfaceRequest n r part) s (fun h => h.tdiState r.toNat p = 2 ∧ vendor 1 0x06 [] h)) ∧
        Leads (.stopInterfaceRequest n r part) s (fun h => h.tdiState r.toNat p = 0 ∧ vendor 1 0x07 [] h))

/-- A reading moves its sensor on. A core die's sets the thermal level and the multiplier asked for, a junction's the pace stretch, by
their thresholds with hysteresis; one at the shutdown limit shuts the stack down, or drops TSHUT_N. A dwell that has run starts
its rate switch; a THROT_REQ stable for 1 µs is taken; a cold hold is told once per second; power is published every 1 ms. A
window pair moves its lane's tap by one; an interval that has run asks for a calibration, whose run is counted. -/
def Obligations.HeatAndCalibration : Prop :=
  ∀ (s : State),
    let seen (src : SensorSrc) (v : Option Int) : Hw :=
      { s.hw with sl.sensors := Table.put s.hw.sl.sensors (sensorKey src) ((s.hw.sensor (sensorKey src)).next v) }
    (∀ src v, Leads (.sensorReading src v) s (fun h => h.sensor (sensorKey src) = (s.hw.sensor (sensorKey src)).next v)) ∧
    (∀ (st : StackIx) (d : Fin 16) (v t : Int), let src := SensorSrc.coreDie st d
      let hyst : Int := s.hw.reg Od.thermHyst
      let level := levelOf (s.hw.reg Od.thermLevelThermal st) t hyst [s.hw.sreg Od.thermL1, s.hw.sreg Od.thermL2, s.hw.sreg Od.thermL3, s.hw.sreg Od.thermL4]
      let ref2 := held (decide (1 ≤ s.hw.askedMultiplier st)) t (s.hw.sreg Od.thermRef2) hyst;
      -40 ≤ v → v ≤ 150 → s.hw.reg Od.stackState st = 1 → hottest ((seen src v).dieValues st) = some t →
      (let shut : Prop := s.hw.sreg Od.thermStackShut ≤ v ∧ ((s.hw.sensor (sensorKey src)).next v).faulty = false;
      (¬ shut → Leads (.sensorReading src v) s (fun h => h.reg Od.thermLevelThermal st = level ∧
        h.askedMultiplier st = if 1 ≤ level then 2 else if ref2 then 1 else 0)) ∧
      (shut → s.hw.reg Od.thermShutdown st ≠ 1 → Leads (.sensorReading src v) s (fun h => h.reg Od.thermShutdown st = 1 ∧
        h.reg Od.stackState st = 2 ∧ h.boot.shutLatch = s.hw.boot.shutLatch ||| 2 ^ st.val)))) ∧
    (∀ (st : StackIx) (i : Fin 4) (v t : Int), let src := SensorSrc.slice st i;
      -40 ≤ v → v ≤ 150 → hottest ((seen src v).sliceValues st) = some t → Leads (.sensorReading src v) s (fun h =>
        h.reg Od.slicePaceStretch st = s.hw.stretchOf (s.hw.reg Od.slicePaceStretch st) t ∧
        (s.hw.sreg Od.thermJunctionShut ≤ v → ((s.hw.sensor (sensorKey src)).next v).faulty = false → h.boot.tshutN = false))) ∧
    (∀ (i : Fin 16) (v t : Int), let src := SensorSrc.hub i;
      -40 ≤ v → v ≤ 150 → hottest (seen src v).hubValues = some t → Leads (.sensorReading src v) s (fun h =>
        h.reg Od.hubPaceStretch = s.hw.stretchOf (s.hw.reg Od.hubPaceStretch) t ∧
        (s.hw.sreg Od.thermJunctionShut ≤ v → ((s.hw.sensor (sensorKey src)).next v).faulty = false → h.boot.tshutN = false))) ∧
    (∀ (st : StackIx) level since, Table.look s.hw.sl.dwell st = some (level, since) →
      since + s.hw.reg Od.thermRateDwellMs * 1000000 ≤ s.hw.now → s.hw.switching st = false → s.hw.pausing st = false →
      s.hw.inSlot st = false → Leads (.levelDwellExpiry st) s (fun h => Table.look h.sl.rateSwitchTo st = some level ∧
        Table.look h.sl.dwell st = none ∧ ∀ c, c < 64 → (h.pc (gOf st c)).nextDue = none)) ∧
    (∀ v : Fin 4, (s.hw.boot.throtSeen = none → s.hw.reg Od.throtReq ≠ v.val → Leads (.throtReqChange v) s (fun h =>
        h.boot.throtSeen = some (v.val, s.hw.now))) ∧
      (∀ w t, s.hw.boot.throtSeen = some (w, t) → w ≠ v.val → Leads (.throtReqChange v) s (fun h =>
        h.boot.throtSeen = some (v.val, s.hw.now))) ∧
      (∀ t, s.hw.boot.throtSeen = some (v.val, t) → t + 1000 ≤ s.hw.now → Leads (.throtReqChange v) s (fun h =>
        h.boot.throtSeen = none ∧ h.reg Od.throtReq = v.val))) ∧
    (∀ st : StackIx, s.hw.coldState st = 2 → s.hw.timer Tm.cold st + 1000000000 ≤ s.hw.now → Leads (.coldHoldWait st) s (fun h =>
      h.timer Tm.cold st = s.hw.now ∧ h.reg Od.evHead = (s.hw.reg Od.evHead + 1) % 2 ^ Od.evHead.width)) ∧
    (∀ (hub : BitVec 32) (mw : List (BitVec 32)), s.hw.due Tm.estimate 0 = true → Leads (.powerEstimate hub mw) s (fun h =>
      h.timer Tm.estimate 0 = s.hw.now + 1000000 ∧ h.reg Od.pwrHubMw = hub.toNat ∧
      h.reg Od.pwrTotalMw = (hub.toNat + (mw.map (fun x => x.toNat)).foldl (fun a b => a + b) 0) % 2 ^ Od.pwrTotalMw.width ∧
      ∀ i, i < 16 → h.elem Od.pwrStackMw 0 i = (mw.getD i 0).toNat)) ∧
    (∀ (g : PcIx) (lane : Fin 38) (p m : Nat), let w := 2 ^ s.hw.reg Od.calWindowLog2
      let off := s.hw.reg Od.calMonitorOffset
      let v := s.hw.elem Od.calLaneTaps g lane
      let tap := if m + w / 1024 < p then v % 64 - 1 else if p + w / 1024 < m then min 63 (v % 64 + 1) else v % 64
      s.hw.reg Od.pcState g = 4 → s.hw.activeLane g lane = true → ¬ (w / 16 < p ∧ w / 16 < m) → off ≤ tap → tap ≤ 63 - off →
      Leads (.centeringWindow g lane p m) s (fun h => h.elem Od.calLaneTaps g lane = tap + 64 * (v / 64 % 2))) ∧
    (∀ g : PcIx, let x := s.hw.pc g
      s.hw.reg Od.pcState g = 4 → s.hw.reg Od.calLastNs g + s.hw.reg Od.calMaxIntervalMs * 1000000 ≤ s.hw.now →
      Leads (.calIntervalExpiry g) s (fun h => (h.pc g).pauseReq = some (x.pauseReq.getD s.hw.now) ∧
        (s.hw.reg Od.calState g = 0 → h.reg Od.calState g = 1))) ∧
    ∀ (g : PcIx) (passed : Bool), let streak := s.hw.reg Od.calCaFailStreak g
      s.hw.reg Od.calState g = 2 → Leads (.calibrationRun g passed []) s (fun h =>
        (passed = true → h.reg Od.calLastNs g = s.hw.now % 2 ^ Od.calLastNs.width ∧
          h.reg Od.calRuns g = (s.hw.reg Od.calRuns g + 1) % 2 ^ Od.calRuns.width ∧ h.reg Od.calCaFailStreak g = 0) ∧
        (passed = false → streak < 2 → h.reg Od.calCaFailStreak g = streak + 1 ∧ h.reg Od.calState g = 1) ∧
        (passed = false → 2 ≤ streak → h.reg Od.pcState g = 6))

/-- A READ or PEEK of readable objects answers with their values in order; a WRITE or MULTI_WRITE whose items are applied answers OK, or
CLAMPED; a refused one changes no register and its answer is held for 500 µs, then leaves. A value written to a field is stored as
checked; where its object's rule ignores it, or its code is reserved, the field stays and the write is counted. SUBSCRIBE enters a
subscription, NOTIFY tells a change, UNSUBSCRIBE ends it. LOAD_DONE takes the dictionary to RUN. -/
def Obligations.DictionaryProtocol : Prop :=
  ∀ (o : Option SpdmIx) (n : SpdmIx) (id : BitVec 16) (who : Actor) (s : State),
    let said (x : Option Nat) (op st : Nat) (items : List (Nat × Nat × List Byte)) (h : Hw) : Prop :=
      h.msg.msTx = s.hw.msg.msTx ++ [{ session := x, code := 0x80 + op, status := st, reqId := id.toNat, items := items }]
    let on := sesOf o
    let w := s.hw.touch on
    let okItem (it : Item) : Bool := w.writeOk (itemReg it) (itemInst it) it.first.toNat it.count.toNat it.value.length
    (∀ items, s.hw.adpServed on items true = true → w.adpForwards = false → msgFits items = true →
      (∀ v : Item → List Byte, (∀ it, it ∈ items → it.value = [] ∧ w.itemAway (itemReg it) (itemInst it) = none ∧
          w.remoteCopy (itemReg it).index (itemInst it) = false ∧ ∃ k u, w.covers (itemReg it) (itemInst it) it.first.toNat it.count.toNat = some (k, u) ∧
            w.readLocal (spdmActor on) (itemReg it) (itemInst it) it.first.toNat k = some (v it)) →
        8 + (items.map (fun it => 12 + up4 ((w.readSize it).getD 0))).sum ≤ 4096 →
        ∀ c op, (c, op) ∈ [(Instr.read o id items, 1), (Instr.peek o id items, 4)] →
          Leads c s (said on op St.ok (items.map (fun it => (itemKey it, St.ok, v it)))))) ∧
    (∀ items c op, (c = Instr.multiWrite o id items ∧ op = 3) ∨ (∃ it, items = [it] ∧ c = Instr.write o id it ∧ op = 2) →
      s.hw.adpServed on items false = true → w.adpForwards = false → msgFits items = true → items.all okItem = true →
      (∀ x, w.applyItems (spdmActor on) items = some x → x.2.msg.msTx = s.hw.msg.msTx → Leads c s (fun h => h.od = x.2.od ∧
        ∃ ys, said on op (if x.1.any (fun y => y.2 == St.clamped) then St.clamped else St.ok) ys h)) ∧
      (w.applyItems (spdmActor on) items = none → Leads c s (fun h => h.od = s.hw.od ∧ h.msg.msTx = s.hw.msg.msTx ∧
        ∃ m, h.msg.msDelayed = s.hw.msg.msDelayed ++ [(s.hw.now + 500000, m)] ∧ m.status = St.denied))) ∧
    (∀ t m rest, s.hw.msg.msDelayed = (t, m) :: rest → t ≤ s.hw.now → Leads .refusalResponseDue s (fun h =>
      h.msg.msDelayed = rest ∧ h.msg.msTx = s.hw.msg.msTx ++ [m])) ∧
    (∀ (index : BitVec 16) (inst : BitVec 12) (sub : BitVec 8) (e : BitVec 12) (v : Nat) f, let r : Reg := ⟨index.toNat, sub.toNat⟩
      let c := Instr.registerWrite who index inst sub e v
      let i := inst.toNat
      s.hw.accepts who r i v → s.hw.fieldAt r i = some f → e.toNat < f.count → f.cmd = false → r ≠ Od.opKeys →
      r ∉ [Od.mirrorBufferBytes, Od.clampHead, Od.clampOverflow] → dependents r = [] →
      (s.hw.blocks who r i (v % 2 ^ f.ty.width) none = none →
        (∀ x k, s.hw.check f r i (v % 2 ^ f.ty.width) = some (x, k) → s.hw.store who r i e.toNat x = s.hw.setElem r i e.toNat x →
          Leads c s (fun h => h.elem r i e.toNat = x % 2 ^ r.width ∧ s.hw.ChangesOnly [.links, .pair, .messages]
            [r, Od.mirrorBufferBytes, Od.clampHead, Od.clampOverflow] h)) ∧
        (s.hw.check f r i (v % 2 ^ f.ty.width) = none → r ≠ Od.ignTotal → Leads c s (fun h =>
          h.reg Od.ignTotal = (s.hw.reg Od.ignTotal + 1) % 2 ^ Od.ignTotal.width ∧ s.hw.ChangesOnly [] ignoreRegs h))) ∧
      (∀ why, s.hw.blocks who r i (v % 2 ^ f.ty.width) none = some why → Leads c s (fun h =>
        h.reg Od.ignTotal = (s.hw.reg Od.ignTotal + 1) % 2 ^ Od.ignTotal.width ∧ s.hw.ChangesOnly [] ignoreRegs h))) ∧
    (s.hw.accepts who Od.dictCommand 0 1 → s.hw.reg Od.dictState = 0 → Leads (.loadDone who) s (fun h => h.reg Od.dictState = 1 ∧
      (s.hw.boot.cold = true → s.hw.boot.portsReleased = false → h.reg Od.bootStage = 4))) ∧
    (let u := s.hw.touch (some n.val);
      ∀ it, let r := itemReg it
        let i := itemInst it
        s.hw.adpServed (some n.val) [it] false = true → u.adpForwards = false →
        (∀ k vs, (u.covers r i it.first.toNat it.count.toNat).isSome = true → it.value.length = 4 → u.itemAway r i = none →
          u.seen (.session n) r i = some vs → k < 256 → Table.look s.hw.msg.subs k = none →
          (∀ j, j < k → (Table.look s.hw.msg.subs j).isSome = true) → u.subscribed n r i = false →
          Leads (.subscribe n id it) s (fun h => said (some n.val) 5 St.ok [(itemKey it, St.ok, [])] h ∧ Table.look h.msg.subs k =
            some { session := n, index := r.index, inst := i, sub := r.sub, intervalMs := max 1 (min 1000000 (bytesNat it.value % 2 ^ 20)),
                   nextAt := s.hw.now, last := vs })) ∧
        ((u.readSize it).isSome = true → Leads (.unsubscribe n id it) s (fun h => said (some n.val) 6 St.ok [(itemKey it, St.ok, [])] h ∧
          h.subscribed n r i = false))) ∧
    ∀ (slot : Fin 256) x vs, Table.look s.hw.msg.subs slot = some x → s.hw.fenced = false → (s.hw.session x.session).isSome = true →
      x.nextAt ≤ s.hw.now → s.hw.seen (.session x.session) ⟨x.index, x.sub⟩ x.inst = some vs → vs ≠ x.last → Leads (.notify slot) s (fun h =>
        Table.look h.msg.subs slot = some { x with last := vs, nextAt := s.hw.now + x.intervalMs * 1000000 } ∧
        ∃ m, h.msg.msTx = s.hw.msg.msTx ++ [m] ∧ m.session = some x.session ∧ m.code = 7)

/-- R336, for a requester's QUEUE write that passes admission and for a steward core's: with n of the 16 entries free the words stand behind
those that were queued, in order, next to one another, and the write is OK; else the queue is as it was, and a requester's write
completes with FULL. The queue is the one that leads away from the writer's endpoint; the other one keeps its words. -/
def Obligations.MailboxQueueWrites : Prop :=
  ∀ (ch : Fin 64) (words : List (BitVec 64)) (b : Bool) (s : State), let q := (s.hw.mbq ch b).words
    let n := words.length
    1 ≤ n → n ≤ 16 →
    let appended (h : Hw) : Prop := (∃ ws, (h.mbq ch b).words = q ++ ws ∧ ws.map (fun w => w.data) = words) ∧ h.mbq ch (!b) = s.hw.mbq ch (!b)
    let kept (h : Hw) : Prop := ∀ c d, h.mbq c d = s.hw.mbq c d
    (∀ x : Hdr, s.hw.mbSide ch x.requester.toNat = some b →
      let r := (s.hw.typed x 7 ((n + 7) / 8 - 1) 1 (ch + 0 * 64 + n % 32 * 256) 0).bringing (words.flatMap (fun v => bytesOf v 8)) [] []
      s.hw.takesIn r →
      (q.length + n ≤ 16 → Leads (.queueWrite (some x) ch words) s (fun h => s.hw.ChangesOnly servedParts mailRegs h ∧ appended h ∧ h.respondsTo r St.ok [])) ∧
      (16 < q.length + n → Leads (.queueWrite (some x) ch words) s (fun h => s.hw.ChangesOnly servedParts mailRegs h ∧ kept h ∧ h.respondsTo r St.full []))) ∧
    (s.hw.mbStewardSide ch = some b →
      (q.length + n ≤ 16 → Leads (.queueWrite none ch words) s appended) ∧
      (16 < q.length + n → Leads (.queueWrite none ch words) s kept))

/-- A QUEUE read pops up to n words of one across_reset mark and answers with the status word and the words; a STATUS read pops none. A lock
read takes a free lock, or returns its owner's code; the owner's write of 0 frees it, for the steward core that waits longest. At
mb_timeout_us a queue's TIMEOUT flag rises; an acquire retried for 1 ms fails. Firmware sets the binding lock. -/
def Obligations.MailboxReadsAndLocks : Prop :=
  ∀ (ch : Fin 64) (b : Bool) (s : State), let out := s.hw.mbq ch b
    let inq := s.hw.mbq ch (!b)
    let popped (k : Nat) (h : Hw) : Prop := (h.mbq ch (!b)).words = inq.words.drop k ∧ (h.mbq ch (!b)).peerReset = false ∧ h.mbq ch b = out
    let owner (h : Hw) (v : Nat) : Prop := (h.mbq ch b).lock = v ∧ (h.mbq ch b).words = out.words
    let mbx (x : Hdr) (reg n sub : Nat) : Rq := s.hw.typed x 7 0 sub (ch + reg * 64 + n % 32 * 256) 0
    (∀ x : Hdr, s.hw.mbSide ch x.requester.toNat = some b → let me := x.requester.toNat + 1
      (∀ n : Fin 17, let k := popCount n inq.words
        s.hw.takesIn (mbx x 0 n 0) → Leads (.queueRead (some x) ch n) s (fun h => s.hw.ChangesOnly servedParts mailRegs h ∧ popped k h ∧ h.respondsTo (mbx x 0 n 0) St.ok
          (mbBytes (bytesOf (s.hw.mbRead ch b n).1 8 ++ (inq.words.take k).flatMap (fun w => bytesOf w.data 8))))) ∧
      (s.hw.takesIn (mbx x 2 0 0) → Leads (.statusRead (some x) ch) s (fun h => s.hw.ChangesOnly servedParts mailRegs h ∧ h.mbq ch b = out ∧ h.mbq ch (!b) = inq ∧
        h.respondsTo (mbx x 2 0 0) St.ok (mbBytes (bytesOf (s.hw.mbStatusAt ch b) 8)))) ∧
      (∀ c, s.hw.takesIn (mbx x 1 0 0) → Leads (.lockRead (some x) c false ch) s (fun h => s.hw.ChangesOnly servedParts mailRegs h ∧
        owner h (if out.lock = 0 then me else out.lock) ∧ h.respondsTo (mbx x 1 0 0) St.ok
          (mbBytes (natBytes (if out.lock = 0 ∨ out.lock = me then 0 else ownerCode out.lock) 8)))) ∧
      ∀ c (v : BitVec 64), let r := (mbx x 1 0 1).bringing (bytesOf v 8) [] []
        s.hw.takesIn r → (v = 0 → out.lock = me → out.acquiring = [] → Leads (.lockWrite (some x) c false ch v) s (fun h => s.hw.ChangesOnly servedParts mailRegs h ∧
            owner h 0 ∧ h.respondsTo r St.ok [])) ∧
          (¬ (v = 0 ∧ out.lock = me) → Leads (.lockWrite (some x) c false ch v) s (fun h => s.hw.ChangesOnly servedParts mailRegs h ∧ h.mbq ch b = out ∧ h.respondsTo r St.ok [] ∧
            h.reg Od.mbLockErrors ch = (s.hw.reg Od.mbLockErrors ch + 1) % 2 ^ Od.mbLockErrors.width))) ∧
    (s.hw.mbStewardSide ch = some b →
      (∀ n : Fin 17, n ≠ 0 → Leads (.queueRead none ch n) s (popped (popCount n inq.words))) ∧
      Leads (.statusRead none ch) s (fun h => h = s.hw) ∧
      (∀ c : Fin 2, out.lock = 0 → Leads (.lockRead none c false ch) s (fun h => owner h (coreOwner c))) ∧
      (∀ c : Fin 2, out.lock ≠ 0 → out.lock ≠ coreOwner c → (∀ x, x ∈ out.acquiring → x.1 ≠ c.val) → Leads (.lockRead none c false ch) s (fun h =>
        owner h out.lock ∧ (h.mbq ch b).acquiring = out.acquiring ++ [(c.val, s.hw.now)])) ∧
      ∀ (c : Fin 2) w ws, out.lock = coreOwner c → out.acquiring = w :: ws → Leads (.lockWrite none c false ch 0) s (fun h =>
        owner h (coreOwner w.1) ∧ (h.mbq ch b).acquiring = ws)) ∧
    (∀ c : Fin 2, ch.val < 32 → s.hw.sem ch = 0 → Leads (.lockRead none c true ch) s (fun h => h.sem ch = coreOwner c)) ∧
    (∀ c : Fin 2, s.hw.sem ch = coreOwner c → s.hw.semWaiting ch = [] → Leads (.lockWrite none c true ch 0) s (fun h => h.sem ch = 0)) ∧
    (∀ t, out.timer = some t → out.words ≠ [] → t + s.hw.reg Od.mbTimeoutUs ch * 1000 ≤ s.hw.now → Leads (.mailboxTimeout ch b) s (fun h =>
      (h.mbq ch b).timedOut = true ∧ (h.mbq ch b).words = out.words ∧ h.bit Od.mbFlags ch (if b then 1 else 0) = true)) ∧
    (∀ x, stalledOf s.hw.now (s.hw.semWaiting ch) = some x → Leads (.lockStall true ch) s (fun h =>
      h.semWaiting ch = (s.hw.semWaiting ch).erase x ∧ h.reg Od.evHead = (s.hw.reg Od.evHead + 1) % 2 ^ Od.evHead.width)) ∧
    (∀ x, stalledOf s.hw.now out.acquiring = some x → Leads (.lockStall false ch) s (fun h =>
      (h.mbq ch b).acquiring = out.acquiring.erase x ∧ (h.mbq ch b).lock = out.lock)) ∧
    Leads .mbBindingLockWrite s (fun h => h.reg Od.mbBindingLock = 1)

/-- A route's bucket refills at its rate; ACK takes what is pending back to 0. REARM arms a watermark, which crosses at once where its LEVEL
stands; CLEAR zeroes count and CROSSED. A pseudo-channel's counters and a selectable counter clear; a retargeted one starts at 0 in
range. FREEZE, UNFREEZE and SNAPSHOT take effect 2 µs later. A seed loads the sampler. The copies operators read are taken afresh at
their intervals while a confidential partition exists. -/
def Obligations.EventsAndCounters : Prop :=
  ∀ (who : Actor) (s : State),
    (∀ k : Fin 32, s.hw.due Tm.refill k = true → Leads (.routeBucketRefill k) s (fun h =>
      Table.atD h.msg.routeTokens (fun _ => 0) k = Table.atD s.hw.msg.routeTokens (fun _ => 0) k - s.hw.reg Od.routeRate k ∧
      h.timer Tm.refill k = (s.hw.now / 1000000 + 1) * 1000000)) ∧
    (∀ k : Fin 32, s.hw.accepts who Od.routeAck k 1 → Leads (.routeAck who k) s (fun h => h.reg Od.routePending k = 0)) ∧
    (∀ w : Fin 1280, s.hw.accepts who Od.wmCommand w 1 →
      (s.hw.reg Od.wmLevel w = 0 → Leads (.wmRearm who w) s (fun h => h.reg Od.wmArmed w = 1 ∧ h.reg Od.wmCrossed w = 0)) ∧
      (s.hw.reg Od.wmLevel w = 1 → w.val < 0x90 → Leads (.wmRearm who w) s (fun h => h.reg Od.wmArmed w = 0 ∧ h.reg Od.wmCrossed w = 1 ∧
        h.reg Od.wmCount w = (s.hw.reg Od.wmCount w + 1) % 2 ^ Od.wmCount.width))) ∧
    (∀ w : Fin 1280, s.hw.accepts who Od.wmCommand w 2 → Leads (.wmClear who w) s (fun h => h.reg Od.wmCount w = 0 ∧ h.reg Od.wmCrossed w = 0)) ∧
    (∀ g : PcIx, s.hw.accepts who Od.fixCommand g 1 → ¬ (s.hw.roleOf who = .o ∧ (s.hw.partOf (g.val / 64)).isSome = true) →
      Leads (.fixClear who g) s (fun h => ∀ e, e < 24 → h.elem Od.fixCounts g e = 0)) ∧
    (∀ (n : Fin 256) (source inst : BitVec 16), s.hw.accepts who Od.selSource n source.toNat → s.hw.accepts who Od.selInstance n inst.toNat →
      n.val < 0xc0 → source.toNat ≤ 0x10 → Leads (.selSourceWrite who n source inst) s (fun h => h.reg Od.selSource n = source.toNat ∧
        h.reg Od.selInstance n = selInRange s.hw.stackCount source.toNat inst.toNat % 2 ^ Od.selInstance.width ∧ h.reg Od.selCount n = 0)) ∧
    (∀ n : Fin 256, s.hw.accepts who Od.selCommand n 1 → Leads (.selClear who n) s (fun h => h.reg Od.selCount n = 0)) ∧
    (∀ c v, (c, v) ∈ [(Instr.freeze who, 1), (.unfreeze who, 2), (.snapshot who, 3)] → s.hw.accepts who Od.cntCommand 0 v →
      s.hw.cntPending = none → (v = 1 → s.hw.reg Od.cntFrozen = 0) → (v = 2 → s.hw.reg Od.cntFrozen = 1) → Leads c s (fun h =>
        h.cntPending = some (v, s.hw.now + 2000))) ∧
    (∀ v t, s.hw.cntPending = some (v, t) → t ≤ s.hw.now → Leads .counterCommandInstant s (fun h => h.cntPending = none ∧
      (v = 1 → h.reg Od.cntFrozen = 1) ∧ (v = 2 → h.reg Od.cntFrozen = 0) ∧
      (v = 3 → h.reg Od.cntSnapNs = t % 2 ^ Od.cntSnapNs.width ∧ h.reg Od.cntSnapSeq = (s.hw.reg Od.cntSnapSeq + 1) % 2 ^ Od.cntSnapSeq.width ∧
        (s.hw.tidy = true → ∀ n, n < 256 → h.reg Od.selSnapshot n = s.hw.reg Od.selCount n % 2 ^ Od.selSnapshot.width)))) ∧
    (∀ seed : BitVec 32, s.hw.accepts who Od.smpSeed 0 seed.toNat → let v := if seed = 0 then 1 else seed
      Leads (.smpSeedWrite who seed) s (fun h => h.reg Od.smpSeed = v.toNat ∧ h.lfsr = v)) ∧
    (s.hw.confidential = true → s.hw.due Tm.coarse 0 = true → Leads .coarseValueRefresh s (fun h => h.odMs = s.hw.od ∧
      h.timer Tm.coarse 0 = (s.hw.now / 1000000 + 1) * 1000000)) ∧
    (s.hw.confidential = true → s.hw.due Tm.power 0 = true → Leads .powerTempCoarseRefresh s (fun h => h.odPower = s.hw.od ∧
      h.timer Tm.power 0 = s.hw.now + 100000000))

/-- PWROK rising makes the next start cold; its fall leaves the registers that follow OTP and cistern. HUB_RST_N with every SLICE_RST_N
low resets all; else slices enter self-refresh, keys stand in the resume record, mailboxes keep their words. A released hub samples the
port modes and sets the debug level. A slice reset turns its pseudo-channels OFF and loses its DRAM. A boot read's image passes, or slot
B is read, or the boot has failed. Modules that read their own numbers train; a valid descriptor is published. Stewards and ports are
released when every condition holds; a port reset stops a port and lets it up 1 µs later. -/
def Obligations.StartAndResets : Prop :=
  ∀ (who : Actor) (x : StackIx) (n : PortIx) (s : State), let b := s.hw.boot
    let n' := n.val
    let x' := x.val
    (b.pwrok = false → Completes .pwrokRise s { s.hw with boot := { b with pwrok := true, cold := true } }) ∧
    (b.pwrok = true → Leads .pwrokFall s (fun h => h.boot = { cold := true } ∧ h.mem = {} ∧ h.req.trackers = [] ∧ h.reg Od.dictState = 0 ∧
      (∀ p, p < 16 → h.reg Od.partState p = 0) ∧ h.sec.otp = s.hw.sec.otp ∧ h.sec.memKeys = [] ∧
      h.sec.fillSecret = (if s.hw.sec.vbak = true then s.hw.sec.fillSecret else 0))) ∧
    (s.hw.heedsResets = true → b.hubRstN = true →
      (b.sliceRstN = 0 → Leads .hubRstAssert s (fun h => h.boot.hubRstN = false ∧ h.boot.cold = true ∧ h.boot.shutLatch = b.shutLatch ∧
        h.mem = {} ∧ h.req.trackers = [] ∧ h.sec.fillSecret = s.hw.sec.fillSecret ∧ ∀ p, p < 16 → h.reg Od.partState p = 0)) ∧
      (b.sliceRstN ≠ 0 → Leads .hubRstAssert s (fun h => h.boot.hubRstN = false ∧ h.boot.sliceRstN = b.sliceRstN ∧ h.sec.memKeys = [] ∧
        h.sec.resume = s.hw.resumeRecord ∧ h.req.trackers = [] ∧ (∀ r, r < 4096 → h.reg Od.reqEpoch r = s.hw.reg Od.reqEpoch r) ∧
        (∀ ch d, (h.mbq ch d).words = (s.hw.mbq ch d).words) ∧
        ∀ g, g < 1024 → h.reg Od.pcState g = (if s.hw.reg Od.pcState g = 4 then 5 else s.hw.reg Od.pcState g)))) ∧
    (∀ straps : BitVec 32, s.hw.heedsResets = true → b.hubRstN = false → Leads (.hubRstRelease straps) s (fun h =>
      h.boot.hubRstN = true ∧ h.now = 0 ∧ (∀ k, k < 32 → h.reg Od.portMode k = if straps.getLsbD k then 1 else 0) ∧
      h.reg Od.dbgLevel = dbgAtBoot (h.reg Od.lcState) ∧ (b.cold = false → h.reg Od.resetCause = 1))) ∧
    (s.hw.heedsResets = true → b.sliceRstN.testBit x = true → b.hubRstN = true → Leads (.sliceRstAssert x) s (fun h =>
      h.boot.sliceRstN = b.sliceRstN - 2 ^ x' ∧ (∀ pc, pc < 64 → h.reg Od.pcState (gOf x pc) = 0) ∧
      (∀ k, k / 2 ^ 38 = x' → Table.look h.mem.dram k = none) ∧
      ((s.hw.partOf x).isSome = true → s.hw.reg Od.stackState x = 1 → h.reg Od.stackState x = 2) ∧
      (s.hw.partOf x = none → h.reg Od.stackState x = if s.hw.reg Od.stackState x = 2 then 2 else 0))) ∧
    (s.hw.heedsResets = true → b.sliceRstN.testBit x = false → Leads (.sliceRstRelease x) s (fun h => h = { s.hw with boot := h.boot } ∧
      h.boot.sliceRstN = b.sliceRstN + 2 ^ x' ∧ h.boot.absentLatch.testBit x = false)) ∧
    (∀ slice slotB image, s.hw.fetching slice slotB = true → let why := s.hw.imageFault slice image
      (Leads (.bootReadAnswer slice slotB image) s (fun h => if why = 0 then h.boot.has slice = true ∧
          (if slice = true then h.boot.measSlice else h.boot.measSteward) = BitVec.ofNat 384 (bytesNat (imageDigest image)) ∧
          h.reg Od.bootStage = (if b.has (!slice) = true then 1 else 0)
        else h.reg Od.bootError = why ∧ if slotB = true then h.reg Od.bootStage = 0xff else h.fetching slice true = true)) ∧
      (s.hw.timer Tm.bootRead (if slice = true then 1 else 0) + 10000000 ≤ s.hw.now → Leads (.fetchTimeout slice slotB) s (fun h =>
        h.reg Od.bootError = 3 ∧ if slotB = true then h.reg Od.bootStage = 0xff else h.fetching slice true = true))) ∧
    (∀ modules : List (Option (Fin 16 × Fin 8)), b.hubRstN = true → b.sliceRstN.testBit x = true → s.hw.qanatTrained x = false →
      let own (m : Nat) : Prop := ∃ k, modules.getD m none = some k ∧ k.1.val = x' ∧ k.2.val = m
      Leads (.qanatTrainingDone x modules) s (fun h => ∀ m e, m < 8 → (own m → h.link (linkKey x m e) = { st := .up, lastRx := s.hw.now }) ∧
        (¬ own m → h.link (linkKey x m e) = { st := .failed }) ∧ ((∀ k, k < 8 → ¬ own k) → h.boot.absentLatch.testBit x = true))) ∧
    (∀ d : StackDescriptor, b.hubRstN = true → s.hw.qanatTrained x = true → b.absentLatch.testBit x = false →
      Table.look s.hw.sl.descriptors x = none →
      ((d.crcOk = false ∨ bestRate d = none) → Leads (.stackDescriptorRead x d) s (fun h => h.boot.absentLatch.testBit x = true)) ∧
      (∀ rate, d.crcOk = true → bestRate d = some rate → b.shutLatch.testBit x = false → let t := s.hw.sreg Od.thermStackTemp x
        Leads (.stackDescriptorRead x d) s (fun h => h.reg Od.stackState x = (if b.failedLatch.testBit x = true then 2 else 1) ∧
          h.reg Od.stackHeight x = d.height % 2 ^ Od.stackHeight.width ∧ h.reg Od.stackPinRate x = rate.1 % 2 ^ Od.stackPinRate.width ∧
          ∀ pc, pc < 64 → h.reg Od.pcState (gOf x pc) = if t ≠ -128 ∧ t < s.hw.sreg Od.thermColdHold then 1 else 2))) ∧
    (s.hw.stewardsMayRun = true → Leads .stewardRelease s (fun h => h.boot.stewardsRun = true ∧ (b.cold = true → h.reg Od.bootStage = 3) ∧
      (b.cold = false → h.reg Od.bootStage = 2 ∧ h.reg Od.mbBindingLock = 1 ∧ h.sec.resume = []))) ∧
    (s.hw.portsMayOpen = true → Leads .portRelease s (fun h => h.boot.portsReleased = true ∧ h.reg Od.serviceMode = 1 ∧ h.reg Od.bootStage = 5 ∧
      (∀ k, k < 32 → k < 4 * s.hw.reg Od.hubVariant → s.hw.reg Od.portEnable k = 1 → h.reg Od.portState k = 1) ∧
      h.timer Tm.startup 0 = s.hw.now + s.hw.reg Od.svcStartupMs * 1000000)) ∧
    (s.hw.accepts who Od.portCommand n 1 → s.hw.reg Od.portState n ≠ 0 → Leads (.portReset who n) s (fun h => h.reg Od.portState n = 0 ∧
      h.port n = { generation := ((s.hw.port n).generation + 1) % 256, idleFrom := if s.hw.reg Od.portEnable n = 1 then some s.hw.now else none })) ∧
    (∀ t, (s.hw.port n).idleFrom = some t → t + 1000 ≤ s.hw.now → Leads (.portIdleUp n) s (fun h => h.reg Od.portState n = 1 ∧
      h.port n = { s.hw.port n with idleFrom := none } ∧ ∀ k, k ≠ n' → h.port k = s.hw.port k))

/-- A TAP instruction that is permitted is selected and runs; any other selects BYPASS. EXTEST fences the ports; IDCODE shifts the
identification out. DBG_UNLOCK draws a nonce, then opens the level OPERATOR or bars another nonce for 1 s. A peek shifts out status and
data. A wrapper is selected where it is open; a core halts where R389 lets it, and resumes. TAP_RESET selects IDCODE. A key handoff ends
with the node die's status, or REFUSED at 10 µs, and its session is told. -/
def Obligations.DebugPort : Prop :=
  ∀ (core : Fin 2) (x : StackIx) (s : State), s.hw.boot.pwrok = true → let reach := s.hw.reg Od.dbgLevel ≠ Dbg.locked
    (reach → Leads .extest s (fun h => h.tap.ir = 0 ∧ h.fenced = true) ∧ Leads .samplePreload s (fun h => h.tap.ir = 1) ∧
      Leads (.wirSelect x) s (fun h => h.tap.ir = 0x12 ∧ h.tap.wir = if s.hw.wrapperOpen x = true then some x.val else none) ∧
      Leads (.stewardResume core) s (fun h => h.bit Od.dbgHalted 0 core = false)) ∧
    (¬ reach → ∀ (c : Instr) (a : BitVec 64), c ∈ [.extest, .samplePreload, .dictPeek a, .wirSelect x, .stewardHalt core, .stewardResume core] →
      Completes c s { s.hw with tap := { s.hw.tap with ir := 0xff, out := [] } }) ∧
    (s.hw.mayHalt = true → Leads (.stewardHalt core) s (fun h => h.tap.ir = 0x13 ∧ h.bit Od.dbgHalted 0 core = true)) ∧
    (s.hw.mayHalt = false → Leads (.stewardHalt core) s (fun h => h.tap.ir = 0xff ∧ h.od = s.hw.od)) ∧
    Completes .idcode s { s.hw with tap := { s.hw.tap with ir := 2, out := bytesOf idcodeWord 4 } } ∧
    Completes .tapReset s { s.hw with tap := { s.hw.tap with ir := 2, nonce := none, wir := none, out := [] } } ∧
    (∀ code : BitVec 8, s.hw.tapKnown code.toNat = false → Completes (.bypass code) s { s.hw with tap := { s.hw.tap with ir := 0xff, out := [] } }) ∧
    (∀ px py r t, s.hw.reg Od.dbgLevel = Dbg.locked → s.hw.reg Od.lcState = 1 ∨ s.hw.reg Od.lcState = 2 → let tap := s.hw.tap
      (tap.nonce = none → tap.barredUntil ≤ s.hw.now → Leads (.dbgUnlock px py r t) s (fun h => h.od = s.hw.od ∧
        ∃ n, h.tap.nonce = some n ∧ h.tap.out = bytesOf n 48)) ∧
      (tap.nonce = none → s.hw.now < tap.barredUntil → Leads (.dbgUnlock px py r t) s (fun h => h.tap.nonce = none ∧ h.od = s.hw.od)) ∧
      (∀ n, tap.nonce = some n → Leads (.dbgUnlock px py r t) s (fun h => h.tap.nonce = none ∧
        if s.hw.unlocks n px py r t = true then h.reg Od.dbgLevel = Dbg.operator ∧ h.reg Od.dbgUnlocked = 1
        else h.tap.barredUntil = s.hw.now + 1000000000 ∧ h.od = s.hw.od))) ∧
    (∀ (index sub inst first words : Nat) (a : BitVec 64), reach → index < 65536 → sub < 256 → inst < 4096 → first < 4096 → words < 65536 →
      a = BitVec.ofNat 64 (index * 2 ^ 48 + inst * 2 ^ 36 + sub * 2 ^ 28 + first * 2 ^ 16 + words) → let w := s.hw.tapSelect 0x11 true
      ((w.shape ⟨index, sub⟩ inst = none ∨ words = 0 ∨ 512 < words) → Leads (.dictPeek a) s (fun h => h.tap.out = [BitVec.ofNat 8 St.malformed])) ∧
      (∀ size d k, w.shape ⟨index, sub⟩ inst = some (1, size) → first = 0 → 1 ≤ size → size ≤ 8 * words → words ≤ 512 →
        w.readObject .debug ⟨index, sub⟩ inst 0 1 = (some d, k) → Leads (.dictPeek a) s (fun h =>
          h.tap.out = BitVec.ofNat 8 St.ok :: (d ++ List.replicate (8 * words - d.length) 0)))) ∧
    (∀ k, s.hw.sec.handoff = some k → let told (status : Nat) (h : Hw) : Prop := h.sec.handoff = none ∧ ((s.hw.session k.session).isSome = true →
        h.msg.msTx = s.hw.msg.msTx ++ [{ session := some k.session, code := 0x57e, status := 0, body := [0x00, 0x03] ++ natBytes status 1 }])
      (∀ status : BitVec 2, Leads (.khAck status) s (told status.toNat)) ∧
      (k.since + 10000 ≤ s.hw.now → Leads .keyHandoffTimeout s (told 1)))

/-- Wherever they start, these rows of links and the ports answer a next state with the same queue,
in which only the groups of state and the registers named here may have changed: every other register, and all else, is as before. -/
def Obligations.LinkAndPortFrames : Prop :=
  (∀ (stack : StackIx) (module : Fin 8) (hubEnd : Bool) (header : BitVec 32) (payload : List Byte) (crc : BitVec 32),
    KeepsTo (.flitReceive stack module hubEnd header payload crc) [.timers, .links] [Od.qanatReplays, Od.selCount]) ∧
  (∀ (stack : StackIx) (module : Fin 8) (hubEnd : Bool), ∀ c ∈ ([.replayLimitRetrain stack module hubEnd,
    .flitIdleTimeout stack module hubEnd] : List Instr), KeepsTo c [.timers, .links] []) ∧
  (∀ (stack : StackIx) (module : Fin 8) (hubEnd : Bool) (failedLanes : Nat) (delivered : Bool),
    KeepsTo (.moduleRetrainDone stack module hubEnd failedLanes delivered) [.timers, .links, .requests, .messages] (eventRegs
    ++ [Od.qanatModulesActive, Od.qanatLanesRepaired])) ∧
  (∀ (stack : StackIx) (module : Fin 8) (hubEnd : Bool), KeepsTo (.flitDeliveryTimeout stack module hubEnd) [.timers, .links,
    .requests, .messages] (eventRegs ++ [Od.qanatModulesActive])) ∧
  (∀ (stack : StackIx), ∀ c ∈ ([.qanatRetryBudgetExpiry stack, .sliceSilenceTimeout stack] : List Instr),
    KeepsTo c failParts failRegs) ∧
  (∀ (die : Option StackIx) (tau : BitVec 16), KeepsTo (.sandglassWindow die tau) [.timers] [Od.hubPace, Od.hubPacePeak,
    Od.hubPaceWindows, Od.slicePace, Od.slicePacePeak]) ∧
  (KeepsTo .paceQuantizedRefresh [.pace, .timers] []) ∧
  (∀ (port : PortIx), KeepsTo (.deniedDue port) [.requests, .pair] [Od.portRefusalLine]) ∧
  (∀ (port : PortIx), KeepsTo (.egressPick port) [.requests] []) ∧
  (∀ (port : PortIx), KeepsTo (.responseLastBeat port) [.timers, .requests, .coherence, .messages] [Od.reqInflight,
    Od.regGatedNs, Od.smpHead, Od.smpOverflow]) ∧
  (∀ (who : Actor) (requester : BitVec 12), ∀ c ∈ ([.reqStateActive who requester, .reqStateReset who requester,
    .reqStateDead who requester, .reqStateAbsent who requester] : List Instr), KeepsTo c (columnParts
    ++ ([.buffers] : List Part)) (columnRegs ++ ignoreRegs ++ [Od.tdiLocked, Od.tdiRun, Od.tdiError, Od.cohLostLines, Od.lossHead,
    Od.lossOverflow, Od.reqPartitions, Od.reqWrite, Od.reqSecure, Od.reqState, Od.reqEpoch, Od.reqSeqNewest, Od.dirEntriesUsed,
    Od.dirCoarse, Od.dirEvictions, Od.dirSnoops, Od.mbFillAb, Od.mbFillBa, Od.mbFlags, Od.mbLockAb, Od.mbLockBa, Od.mbFlushed,
    Od.clampHead, Od.clampOverflow])) ∧
  (∀ (tracker : BitVec 16), KeepsTo (.cancel tracker) [.requests, .slices, .coherence, .engines, .reductions, .parity] []) ∧
  (∀ (stack : StackIx), KeepsTo (.sliceInput stack) (columnParts ++ ([.buffers] : List Part)) (columnRegs ++ [Od.cohLostLines, Od.lossHead,
    Od.lossOverflow, Od.dirEntriesUsed, Od.dirCoarse, Od.dirEvictions, Od.dirSnoops, Od.dirBirspStale]))

/-- Wherever they start, these rows of channels, the arbiters, the integrity of data and the directory answer a next state with the same queue,
in which only the groups of state and the registers named here may have changed: every other register, and all else, is as before. -/
def Obligations.ChannelFrames : Prop :=
  (∀ (g : PcIx) (flips : List (Fin 36 × Byte)) (stack : StackIx) (sector : BitVec 29), ∀ c ∈ ([.queueEntryAdmit g,
    .columnData g flips, .wcbEvict stack sector, .wcbHoldExpiry stack sector, .rmwMerge stack sector] : List Instr),
    KeepsTo c (columnParts ++ ([.buffers] : List Part)) columnRegs) ∧
  (∀ (g : PcIx), KeepsTo (.columnPick g) (columnParts ++ ([.buffers] : List Part)) (columnRegs ++ [Od.pcBusMode])) ∧
  (∀ (g : PcIx), KeepsTo (.activatePick g) [.requests, .slices, .messages] (eventRegs ++ [Od.pcThrottleActive, Od.fixCounts,
    Od.stackCounters])) ∧
  (∀ (g : PcIx), ∀ c ∈ ([.refreshDue g, .pauseIdleGap g, .pauseForced g] : List Instr), KeepsTo c [.slices] [Od.calState,
    Od.fixCounts, Od.stackCounters, Od.selCount]) ∧
  (∀ (g : PcIx), KeepsTo (.rfmIssue g) [.slices] [Od.fixCounts, Od.stackCounters, Od.selCount]) ∧
  (∀ (g : PcIx) (stack : StackIx), ∀ c ∈ ([.refreshSlotEnd g, .pauseEnd g, .rateSwitch stack,
    .ceHistoryExpiry g] : List Instr), KeepsTo c [.slices] []) ∧
  (∀ (stack : StackIx), KeepsTo (.refreshMultiplierChange stack) [.timers, .slices] [Od.refMultiplier,
    Od.refPendingMultiplier]) ∧
  (∀ (stack : StackIx), KeepsTo (.refreshWindowEnd stack) [.timers, .slices] [Od.refWindowNs]) ∧
  (∀ (g : PcIx), KeepsTo (.throttleExpiry g) [.slices] [Od.pcThrottleActive]) ∧
  (∀ (stack : StackIx), KeepsTo (.thermalLevelChange stack) [.requests, .messages] (eventRegs ++ [Od.thermLevel,
    Od.thermLevelChanges])) ∧
  (∀ (stack : StackIx), KeepsTo (.rateSwitchDone stack) [.timers, .requests, .slices, .messages] (eventRegs
    ++ [Od.stackRateDivisor, Od.thermLevel, Od.thermLevelChanges, Od.calState, Od.fixCounts, Od.stackCounters])) ∧
  (∀ (stack : StackIx), KeepsTo (.coldHoldExit stack) [] [Od.pcState, Od.thermCold]) ∧
  (∀ (g : PcIx) (failedLanes : List (Fin 38)) (taps : List (BitVec 6)) (cl : BitVec 32),
    KeepsTo (.trainingAttemptDone g failedLanes taps cl) failParts (failRegs ++ [Od.pcState, Od.tCl, Od.refWindowNs,
    Od.lanesFailed, Od.spareMap, Od.calLaneTaps])) ∧
  (∀ (g : PcIx), KeepsTo (.zeroFillDone g) [.dram] [Od.pcState]) ∧
  (∀ (stack : StackIx) (g : PcIx) (c0 : Bool), ∀ c ∈ ([.arbiterPick stack, .dispatchCreditReturn g c0,
    .quotaWindowEnd stack] : List Instr), KeepsTo c [.requests] []) ∧
  (∀ (stack : StackIx), KeepsTo (.grantStart stack) [.timers, .links, .requests, .slices, .engines, .reductions, .parity,
    .pair, .messages] (doneRegs ++ [Od.regCredit, Od.selCount])) ∧
  (∀ (stack : StackIx), KeepsTo (.burstCutoff stack) [.requests, .messages] (eventRegs ++ [Od.arbCutoffs])) ∧
  (∀ (stack : StackIx), KeepsTo (.frameSlotStart stack) [.timers, .requests, .messages] markRegs) ∧
  (∀ (stack : StackIx), KeepsTo (.missPeriodEnd stack) [.timers, .requests] [Od.wmLevel]) ∧
  (∀ (who : Actor), ∀ c ∈ ([.serviceModeWriteNormal who, .serviceModeWriteTest who] : List Instr), KeepsTo c [.timers, .links,
    .requests, .pair, .messages] (ignoreRegs ++ [Od.regGatedNs, Od.serviceMode, Od.mirrorBufferBytes, Od.clampHead,
    Od.clampOverflow])) ∧
  (∀ c ∈ ([.svcStartupExpiry, .recoveryDone] : List Instr), KeepsTo c [.timers, .requests] [Od.regGatedNs, Od.serviceMode]) ∧
  (∀ (requester : BitVec 12), KeepsTo (.regulatorWindow requester) [.timers, .requests] [Od.regCredit, Od.regGatedNs,
    Od.selCount]) ∧
  (∀ (who : Actor), ∀ c ∈ ([.writeSplit who, .readRaw who, .readDecoded who, .testEnd who] : List Instr),
    KeepsTo c (columnParts ++ ([.buffers] : List Part)) (columnRegs ++ ignoreRegs ++ [Od.testStack, Od.testData, Od.testCheck, Od.testResult,
    Od.testPositions])) ∧
  (∀ (stack : StackIx) (flips : List (Fin 36 × Byte)) (again : List (Fin 36 × Byte)),
    KeepsTo (.scrubRead stack flips again) columnParts (columnRegs ++ [Od.pprList, Od.scrubPosition, Od.scrubPasses])) ∧
  (∀ (g : PcIx), KeepsTo (.rebuildRow g) columnParts (columnRegs ++ [Od.rebuildPointer])) ∧
  (∀ (g : PcIx) (bank : Fin 64) (row : BitVec 15) (ok : Bool), KeepsTo (.sppr g bank row ok) [.requests, .slices, .messages,
    .dram] (logRegs ++ [Od.remapUsed, Od.remapTable, Od.spprCount, Od.pprList, Od.calState])) ∧
  (∀ (g : PcIx) (ok : Bool), KeepsTo (.hppr g ok) [.requests, .buffers, .messages, .dram] (logRegs ++ [Od.pprList])) ∧
  (∀ (who : Actor) (dpa : BitVec 64), KeepsTo (.retirePage who dpa) [.links, .requests, .buffers, .pair, .messages] (logRegs
    ++ ignoreRegs ++ [Od.retiredPages, Od.mirrorBufferBytes, Od.clampHead, Od.clampOverflow])) ∧
  (∀ (who : Actor) (stack : BitVec 8), KeepsTo (.retireClear who stack) [.links, .buffers, .pair, .messages] (ignoreRegs
    ++ [Od.retiredPages, Od.mirrorBufferBytes, Od.clampHead, Od.clampOverflow])) ∧
  (∀ (stack : StackIx), ∀ c ∈ ([.directoryLookup stack, .directorySweep stack] : List Instr), KeepsTo c (columnParts
    ++ ([.buffers] : List Part)) (columnRegs ++ [Od.cohLostLines, Od.lossHead, Od.lossOverflow, Od.dirEntriesUsed, Od.dirCoarse,
    Od.dirEvictions, Od.dirSnoops])) ∧
  (∀ (id : BitVec 16), KeepsTo (.snoopTimeout id) (columnParts ++ ([.buffers] : List Part)) (columnRegs ++ [Od.cohLostLines, Od.lossHead,
    Od.lossOverflow, Od.dirEntriesUsed, Od.dirCoarse, Od.dirEvictions, Od.dirSnoops, Od.dirSnoopTimeouts])) ∧
  (∀ (who : Actor) (part : PartIx), KeepsTo (.acceptAll who part) (columnParts ++ ([.buffers] : List Part)) (columnRegs ++ ignoreRegs
    ++ [Od.cohLostLines, Od.lossHead, Od.lossOverflow, Od.dirEntriesUsed, Od.dirCoarse, Od.dirEvictions, Od.dirSnoops]))

/-- Wherever they start, these rows of programs, caravan steps, reductions and parity answer a next state with the same queue,
in which only the groups of state and the registers named here may have changed: every other register, and all else, is as before. -/
def Obligations.CaravanFrames : Prop :=
  (∀ (who : Actor) (prog : Fin 128), KeepsTo (.progBegin who prog) [.links, .engines, .pair] (ignoreRegs ++ [Od.progState,
    Od.progIndex, Od.progOwner, Od.mirrorBufferBytes])) ∧
  (∀ (who : Actor) (prog : Fin 128), KeepsTo (.commit who prog) [.links, .engines, .pair] (ignoreRegs ++ [Od.progState,
    Od.progDigest, Od.progReject, Od.mirrorBufferBytes])) ∧
  (∀ (who : Actor) (prog : Fin 128), KeepsTo (.delete who prog) [.links, .engines, .pair] (ignoreRegs ++ [Od.progState,
    Od.progBind, Od.progSteps, Od.progIndex, Od.progDigest, Od.progReject, Od.progLaunches, Od.progOwner,
    Od.mirrorBufferBytes])) ∧
  (∀ (who : Actor) (prog : Fin 128) (word : BitVec 128), KeepsTo (.progStepWrite who prog word) [.links, .engines, .pair,
    .messages] (ignoreRegs ++ [Od.progIndex, Od.mirrorBufferBytes, Od.clampHead, Od.clampOverflow])) ∧
  (∀ (stack : StackIx) (prog : Fin 128), KeepsTo (.programCopyRepair stack prog) [.engines] []) ∧
  (∀ (stack : StackIx), KeepsTo (.launchQueue stack) [.timers, .links, .requests, .engines, .pair, .messages] (doneRegs
    ++ [Od.engQueue, Od.mirrorBufferBytes])) ∧
  (∀ (e : EngIx), KeepsTo (.launchStart e) [.timers, .links, .requests, .slices, .engines, .pair, .messages] (eventRegs
    ++ launchRegs ++ doneRegs ++ [Od.engQueue, Od.progLaunches, Od.mirrorBufferBytes])) ∧
  (∀ (e : EngIx), ∀ c ∈ ([.move e, .gather e, .scatter e, .fill e, .delta e, .packz e, .tile e] : List Instr),
    KeepsTo c (columnParts ++ ([.buffers, .staging] : List Part)) (columnRegs ++ [Od.cohLostLines, Od.lossHead, Od.lossOverflow,
    Od.dirEntriesUsed, Od.dirCoarse, Od.dirEvictions, Od.dirSnoops])) ∧
  (∀ (e : EngIx), ∀ c ∈ ([.convert e, .accum e, .axpby e, .moment e] : List Instr), KeepsTo c (columnParts ++ ([.buffers,
    .staging] : List Part)) (columnRegs ++ markRegs ++ [Od.cohLostLines, Od.lossHead, Od.lossOverflow, Od.dirEntriesUsed, Od.dirCoarse,
    Od.dirEvictions, Od.dirSnoops, Od.fmtEscapes, Od.fmtExhausted, Od.fmtPoisoned, Od.fmtSaturated, Od.fmtNonfinite])) ∧
  (∀ (e : EngIx), ∀ c ∈ ([.reduce e, .fence e] : List Instr), KeepsTo c (columnParts ++ ([.buffers] : List Part)) (columnRegs
    ++ [Od.cohLostLines, Od.lossHead, Od.lossOverflow, Od.dirEntriesUsed, Od.dirCoarse, Od.dirEvictions, Od.dirSnoops])) ∧
  (∀ (e : EngIx), KeepsTo (.digest e) (columnParts ++ ([.draws, .buffers, .staging] : List Part)) (columnRegs ++ [Od.cohLostLines,
    Od.lossHead, Od.lossOverflow, Od.dirEntriesUsed, Od.dirCoarse, Od.dirEvictions, Od.dirSnoops])) ∧
  (∀ (e : EngIx), KeepsTo (.ingest e) (columnParts ++ ([.draws, .buffers, .staging] : List Part)) (columnRegs ++ [Od.secWeightDigest,
    Od.secWeightCount, Od.cohLostLines, Od.lossHead, Od.lossOverflow, Od.dirEntriesUsed, Od.dirCoarse, Od.dirEvictions,
    Od.dirSnoops])) ∧
  (∀ (e : EngIx), ∀ c ∈ ([.seti e, .addi e, .loop e, .signalNotice e] : List Instr), KeepsTo c [.timers, .links, .requests,
    .slices, .coherence, .engines, .pair, .messages] (eventRegs ++ launchRegs ++ doneRegs ++ [Od.cohLostLines, Od.lossHead,
    Od.lossOverflow, Od.dirEntriesUsed, Od.dirCoarse, Od.dirEvictions, Od.dirSnoops, Od.mirrorBufferBytes])) ∧
  (∀ (e : EngIx), ∀ c ∈ ([.waitFlag e, .waitPush e, .waitChunk e, .waitEnd e, .waitTimeout e] : List Instr),
    KeepsTo c [.timers, .links, .requests, .slices, .coherence, .engines, .pair, .messages] (eventRegs ++ launchRegs
    ++ doneRegs ++ [Od.caravanFlags, Od.mirrorBufferBytes])) ∧
  (∀ (e : EngIx), KeepsTo (.signalFlag e) [.timers, .links, .requests, .slices, .coherence, .engines, .pair,
    .messages] (eventRegs ++ launchRegs ++ doneRegs ++ [Od.cohLostLines, Od.lossHead, Od.lossOverflow, Od.dirEntriesUsed,
    Od.dirCoarse, Od.dirEvictions, Od.dirSnoops, Od.caravanFlags, Od.mirrorBufferBytes])) ∧
  (∀ (e : EngIx), KeepsTo (.endStep e) [.timers, .links, .requests, .slices, .coherence, .engines, .pair, .messages] (eventRegs
    ++ doneRegs ++ [Od.engState, Od.engProgram, Od.engLauncher, Od.engStep, Od.mirrorBufferBytes])) ∧
  (∀ (e : EngIx), KeepsTo (.runtimeLimit e) [.timers, .links, .requests, .slices, .coherence, .engines, .pair,
    .messages] (eventRegs ++ launchRegs ++ doneRegs ++ [Od.mirrorBufferBytes])) ∧
  (∀ (who : Actor) (e : EngIx), KeepsTo (.abortRunning who e) [.timers, .links, .requests, .slices, .coherence, .engines,
    .pair, .messages] (eventRegs ++ launchRegs ++ doneRegs ++ ignoreRegs ++ [Od.mirrorBufferBytes])) ∧
  (∀ (who : Actor) (e : EngIx), KeepsTo (.abortAll who e) [.timers, .links, .requests, .slices, .coherence, .engines, .pair,
    .messages] (eventRegs ++ launchRegs ++ doneRegs ++ ignoreRegs ++ [Od.engQueue, Od.mirrorBufferBytes])) ∧
  (∀ (e : EngIx) (desc : Fin 4), KeepsTo (.descriptorDeadline e desc) [.timers, .requests, .slices, .engines, .pair,
    .messages] (eventRegs ++ doneRegs)) ∧
  (∀ (who : Actor) (session : Fin 256), KeepsTo (.openSession who session) [.boot, .links, .reductions, .pair] (ignoreRegs
    ++ [Od.redState, Od.redExcluded, Od.redMissing, Od.redChunksDone, Od.redChunksPartial, Od.redChunksLost, Od.redOpenNow,
    Od.redParked, Od.redDuplicates, Od.redWindowHigh, Od.redNonfinite, Od.redAbortReason, Od.redProxyStack,
    Od.mirrorBufferBytes])) ∧
  (∀ (who : Actor) (session : Fin 256), KeepsTo (.abort who session) [.timers, .boot, .links, .requests, .reductions, .pair,
    .messages] (eventRegs ++ doneRegs ++ ignoreRegs ++ [Od.redState, Od.redOpenNow, Od.redParked, Od.redAbortReason,
    Od.mirrorBufferBytes])) ∧
  (∀ (who : Actor) (session : Fin 256), KeepsTo (.close who session) [.boot, .links, .reductions, .pair] (ignoreRegs
    ++ [Od.redState, Od.mirrorBufferBytes])) ∧
  (∀ (who : Actor) (session : Fin 256), KeepsTo (.exclude who session) (columnParts ++ ([.buffers] : List Part)) (columnRegs ++ ignoreRegs
    ++ markRegs ++ [Od.cohLostLines, Od.lossHead, Od.lossOverflow, Od.dirEntriesUsed, Od.dirCoarse, Od.dirEvictions,
    Od.dirSnoops, Od.fmtEscapes, Od.fmtExhausted, Od.fmtPoisoned, Od.fmtSaturated, Od.fmtNonfinite, Od.redExcluded,
    Od.redMissing, Od.redChunksDone, Od.redChunksPartial])) ∧
  (∀ (who : Actor) (session : Fin 256), KeepsTo (.rearm who session) [.boot, .links, .requests, .engines, .pair,
    .messages] (markRegs ++ ignoreRegs ++ [Od.mirrorBufferBytes])) ∧
  (∀ (session : Fin 256), KeepsTo (.sessionPrepared session) (columnParts ++ ([.buffers] : List Part)) (columnRegs ++ markRegs
    ++ [Od.redChunksDone, Od.redChunksPartial, Od.redChunksLost])) ∧
  (∀ (stack : StackIx), KeepsTo (.contribution stack) (columnParts ++ ([.buffers] : List Part)) (columnRegs ++ markRegs ++ [Od.cohLostLines,
    Od.lossHead, Od.lossOverflow, Od.dirEntriesUsed, Od.dirCoarse, Od.dirEvictions, Od.dirSnoops, Od.fmtEscapes,
    Od.fmtExhausted, Od.fmtPoisoned, Od.fmtSaturated, Od.fmtNonfinite, Od.redMissing, Od.redChunksDone, Od.redChunksPartial,
    Od.redDuplicates, Od.redWindowHigh, Od.redNonfinite])) ∧
  (∀ (session : Fin 256) (chunk : BitVec 32), ∀ c ∈ ([.mapEntryWrite session chunk,
    .stragglerExpiry session chunk] : List Instr), KeepsTo c (columnParts ++ ([.buffers] : List Part)) (columnRegs ++ markRegs
    ++ [Od.cohLostLines, Od.lossHead, Od.lossOverflow, Od.dirEntriesUsed, Od.dirCoarse, Od.dirEvictions, Od.dirSnoops,
    Od.fmtEscapes, Od.fmtExhausted, Od.fmtPoisoned, Od.fmtSaturated, Od.fmtNonfinite, Od.redMissing, Od.redChunksDone,
    Od.redChunksPartial])) ∧
  (∀ (stack : StackIx), ∀ c ∈ ([.writeIntent stack, .settleNotice stack] : List Instr), KeepsTo c [.parity] []) ∧
  (∀ (stack : StackIx), KeepsTo (.parityDelta stack) columnParts columnRegs) ∧
  (∀ (stack : StackIx), ∀ c ∈ ([.degradeDrainEnd stack, .degradedRead stack] : List Instr), KeepsTo c (columnParts
    ++ ([.buffers] : List Part)) columnRegs) ∧
  (∀ (stack : StackIx), KeepsTo (.degradeComplete stack) (columnParts ++ ([.buffers] : List Part)) (columnRegs ++ [Od.partState,
    Od.cohLostLines, Od.dirEntriesUsed, Od.dirCoarse, Od.redChunksDone, Od.redChunksPartial, Od.redChunksLost,
    Od.redProxyStack, Od.wmLevel]))

/-- Wherever they start, these rows of spans, cascades, pairs, partitions, the life cycle and sessions answer a next state with the same queue,
in which only the groups of state and the registers named here may have changed: every other register, and all else, is as before. -/
def Obligations.PairAndSecurityFrames : Prop :=
  (∀ (port : Fin 2) (header : BitVec 32) (payload : List Byte) (crc : BitVec 32) (tagOk : Bool),
    ∀ c ∈ ([.spanFlitReceive port header payload crc tagOk, .spanDown port] : List Instr), KeepsTo c failParts (failRegs
    ++ [Od.cascadeState, Od.spanState])) ∧
  (∀ (port : Fin 2), KeepsTo (.spanIdleRetrain port) [.links] []) ∧
  (∀ (peerFw : BitVec 32) (peerDigest : BitVec 384) (peerTime : BitVec 64) (latencyNs : BitVec 32),
    KeepsTo (.sp0Trained peerFw peerDigest peerTime latencyNs) [.time, .timers, .boot, .links, .requests, .messages] (eventRegs
    ++ ignoreRegs ++ [Od.cascadeState, Od.pairState, Od.formationDigest, Od.peerFormationDigest, Od.peerFwVersion,
    Od.spanLatencyNs, Od.spanState])) ∧
  (KeepsTo .spanTrainTimeout failParts (failRegs ++ ignoreRegs ++ [Od.cascadeState])) ∧
  (KeepsTo .heartbeatSend [.timers, .links] []) ∧
  (∀ (port : Fin 2) (peerState : BitVec 8) (peerEpoch : BitVec 32) (offset : Int) (accepted : Nat),
    KeepsTo (.heartbeatReceive port peerState peerEpoch offset accepted) [.time, .timers, .boot, .links, .requests,
    .reductions, .pair, .messages] (markRegs ++ doneRegs ++ [Od.portDeferred, Od.serviceMode, Od.redState, Od.redMissing,
    Od.redChunksDone, Od.redChunksPartial, Od.redOpenNow, Od.redParked, Od.pairState, Od.pairEpoch, Od.leaseRemainingUs,
    Od.timebaseOffsetNs, Od.timeOffsetFlag, Od.mirrorBufferBytes, Od.syncState, Od.syncHwm, Od.syncStack])) ∧
  (∀ c ∈ ([.peerLost, .fenceFlit] : List Instr), KeepsTo c [.requests, .pair, .messages] (eventRegs ++ ignoreRegs
    ++ [Od.pairState])) ∧
  (∀ (who : Actor) (value : BitVec 128), KeepsTo (.leaseGrant who value) [.timers, .links, .requests, .reductions, .pair,
    .messages] (markRegs ++ doneRegs ++ ignoreRegs ++ [Od.portDeferred, Od.serviceMode, Od.redState, Od.redMissing,
    Od.redChunksDone, Od.redChunksPartial, Od.redOpenNow, Od.redParked, Od.pairState, Od.pairEpoch, Od.leaseRemainingUs,
    Od.leaseGrant, Od.mirrorBufferBytes, Od.syncState, Od.syncHwm, Od.syncStack, Od.clampHead, Od.clampOverflow])) ∧
  (KeepsTo .leaseRenew [.timers, .requests, .messages] eventRegs) ∧
  (KeepsTo .leaseExpiry [.timers, .links, .requests, .pair, .messages] (doneRegs ++ [Od.portDeferred, Od.pairState,
    Od.leaseRemainingUs, Od.mirrorBufferBytes])) ∧
  (∀ (who : Actor) (epoch : BitVec 32), KeepsTo (.pairEpochWrite who epoch) [.timers, .links, .requests, .pair,
    .messages] (doneRegs ++ ignoreRegs ++ [Od.portDeferred, Od.pairState, Od.pairEpoch, Od.leaseRemainingUs,
    Od.mirrorBufferBytes, Od.clampHead, Od.clampOverflow])) ∧
  (∀ (who : Actor), KeepsTo (.form who) [.timers, .links, .pair] (ignoreRegs ++ [Od.cascadeState, Od.pairState,
    Od.mirrorBufferBytes])) ∧
  (∀ (who : Actor), KeepsTo (.rejoin who) [.links, .pair] (ignoreRegs ++ [Od.pairState, Od.mirrorBufferBytes, Od.syncState,
    Od.syncHwm, Od.syncStack])) ∧
  (∀ (who : Actor), KeepsTo (.relinquish who) [.timers, .links, .requests, .pair, .messages] (doneRegs ++ ignoreRegs
    ++ [Od.portDeferred, Od.pairState, Od.leaseRemainingUs, Od.mirrorBufferBytes])) ∧
  (∀ (peerKeyDigest : BitVec 384) (peerFw : BitVec 32) (peerDigest : BitVec 384),
    KeepsTo (.pairSessionUp peerKeyDigest peerFw peerDigest) [.draws, .timers, .links, .requests, .pair, .messages] (eventRegs
    ++ ignoreRegs ++ [Od.pairState, Od.formationDigest, Od.peerFormationDigest, Od.peerFwVersion, Od.spanState])) ∧
  (KeepsTo .pairLinkTimeout [.requests, .messages] (eventRegs ++ ignoreRegs ++ [Od.pairState])) ∧
  (KeepsTo .takeover [.draws, .timers, .links, .requests, .slices, .coherence, .engines, .reductions, .parity, .pair,
    .security, .messages] (freeRegs ++ eventRegs ++ launchRegs ++ doneRegs ++ ignoreRegs ++ [Od.wkPartition, Od.tdiLocked,
    Od.tdiRun, Od.tdiError, Od.dirSuspectSets, Od.serviceMode, Od.engQueue, Od.progState, Od.progBind, Od.progSteps,
    Od.progIndex, Od.progDigest, Od.progReject, Od.progLaunches, Od.progOwner, Od.redState, Od.redCommand, Od.redPartition,
    Od.redOutBase, Od.redMapBase, Od.redElements, Od.redFmtIn, Od.redFmtOut, Od.redExp, Od.redOutExp, Od.redContributors,
    Od.redRound, Od.redSeed, Od.redPolicy, Od.redStragglerMs, Od.redOpenChunks, Od.redClass, Od.redResume, Od.redNotifyEvery,
    Od.redSubscribers, Od.redExcludeIndex, Od.redExcluded, Od.redMissing, Od.redChunksDone, Od.redChunksPartial,
    Od.redChunksLost, Od.redOpenNow, Od.redParked, Od.redDuplicates, Od.redWindowHigh, Od.redNonfinite, Od.redAbortReason,
    Od.redProxyStack, Od.pairState, Od.mirrorBufferBytes, Od.selSource])) ∧
  (∀ (seqNo : Nat), KeepsTo (.mirrorAccepted seqNo) [.timers, .links, .requests, .reductions, .pair, .messages] (markRegs
    ++ doneRegs ++ ignoreRegs ++ [Od.redState, Od.redMissing, Od.redChunksDone, Od.redChunksPartial, Od.redOpenNow,
    Od.redParked, Od.mirrorBufferBytes, Od.syncState, Od.syncStack])) ∧
  (∀ (peer : BitVec 384), KeepsTo (.mirrorDigestCompare peer) [.timers, .links, .requests, .pair, .messages] (eventRegs
    ++ [Od.serviceMode, Od.mirrorBufferBytes, Od.mirrorDivergences, Od.syncState, Od.syncHwm, Od.syncStack])) ∧
  (KeepsTo .resyncSector (columnParts ++ ([.buffers] : List Part)) columnRegs) ∧
  (∀ (who : Actor) (part : PartIx), KeepsTo (.create who part) [.coarse, .pace, .power, .timers, .boot, .links, .requests,
    .coherence, .engines, .pair, .security, .messages] (markRegs ++ ignoreRegs ++ [Od.secConfidential, Od.secConsentDebug,
    Od.secConsentProfile, Od.secKeyInstalled, Od.secWeightDigest, Od.secWeightCount, Od.secWlogIndex, Od.secWlogEntry,
    Od.keyInstall, Od.partAlloc, Od.partState, Od.partEpoch, Od.partVisible, Od.partFailedStacks, Od.cohOwnerLoss,
    Od.cohSnoopTimeoutUs, Od.cohLostAccept, Od.lossHead, Od.lossIndex, Od.lossRecord, Od.lossOverflow, Od.dirSuspectSets,
    Od.caravanFlags, Od.fmtEscapes, Od.fmtExhausted, Od.fmtPoisoned, Od.fmtSaturated, Od.fmtNonfinite, Od.fmtExhaustThreshold,
    Od.mirrorBufferBytes, Od.selSource])) ∧
  (∀ (who : Actor) (part : PartIx), KeepsTo (.grow who part) [.boot, .links, .pair, .security] (ignoreRegs
    ++ [Od.mirrorBufferBytes])) ∧
  (∀ (who : Actor) (part : PartIx), KeepsTo (.release who part) (failParts ++ ([.security] : List Part)) (freeRegs ++ eventRegs ++ launchRegs
    ++ doneRegs ++ ignoreRegs ++ [Od.wkPartition, Od.tdiLocked, Od.tdiRun, Od.tdiError, Od.engQueue, Od.progState, Od.progBind,
    Od.progSteps, Od.progIndex, Od.progDigest, Od.progReject, Od.progLaunches, Od.progOwner, Od.redState, Od.redCommand,
    Od.redPartition, Od.redOutBase, Od.redMapBase, Od.redElements, Od.redFmtIn, Od.redFmtOut, Od.redExp, Od.redOutExp,
    Od.redContributors, Od.redRound, Od.redSeed, Od.redPolicy, Od.redStragglerMs, Od.redOpenChunks, Od.redClass, Od.redResume,
    Od.redNotifyEvery, Od.redSubscribers, Od.redExcludeIndex, Od.redExcluded, Od.redMissing, Od.redChunksDone,
    Od.redChunksPartial, Od.redChunksLost, Od.redOpenNow, Od.redParked, Od.redDuplicates, Od.redWindowHigh, Od.redNonfinite,
    Od.redAbortReason, Od.redProxyStack, Od.mirrorBufferBytes, Od.selSource])) ∧
  (∀ (part : PartIx), KeepsTo (.partitionDrainDone part) [.requests, .coherence, .engines, .parity, .security,
    .messages] [Od.secKeyInstalled, Od.wkPartition, Od.partScrubHwm, Od.cohLostLines, Od.lossHead, Od.lossOverflow,
    Od.dirEntriesUsed, Od.dirCoarse, Od.dirSnoops, Od.dirSuspectSets, Od.selCount]) ∧
  (∀ (part : PartIx), KeepsTo (.partitionFillDone part) [.slices, .buffers, .dram] [Od.partState, Od.pcQueueEntries,
    Od.syncState]) ∧
  (∀ (part : PartIx), KeepsTo (.growFillDone part) [.slices, .buffers, .coherence, .security, .dram] [Od.partStacks,
    Od.partVisible, Od.partGrow, Od.pcQueueEntries, Od.dirSuspectSets]) ∧
  (∀ (who : Actor) (part : PartIx) (key : BitVec 512), KeepsTo (.keyInstall who part key) [.links, .pair, .security,
    .messages] (ignoreRegs ++ [Od.secKeyInstalled, Od.partState, Od.mirrorBufferBytes, Od.clampHead, Od.clampOverflow])) ∧
  (∀ (part : PartIx), KeepsTo (.scrubHwmStep part) [.slices, .buffers, .security, .dram] [Od.partScrubHwm, Od.pcQueueEntries]) ∧
  (∀ (part : PartIx) (failing : List StackIx), KeepsTo (.scrubVerify part failing) [.requests, .engines, .security, .messages,
    .staging] (freeRegs ++ eventRegs)) ∧
  (∀ (part : PartIx), KeepsTo (.scrubResume part) [.engines, .security] [Od.secKeyInstalled, Od.wkPartition, Od.partState,
    Od.partScrubHwm]) ∧
  (∀ (who : Actor), ∀ c ∈ ([.provision who, .deploy who, .returnLc who, .scrap who] : List Instr), KeepsTo c [.links, .engines,
    .pair, .security] (ignoreRegs ++ [Od.lcState, Od.journalCount, Od.idPublic, Od.opKeys, Od.opKeysUsed, Od.secKeyInstalled,
    Od.wkPartition, Od.mirrorBufferBytes, Od.dbgLevel])) ∧

    (∀ (s2 : Option SpdmIx) (baseAsym : BitVec 32) (baseHash : BitVec 32) (slot : BitVec 4) (offset : BitVec 16) (length : BitVec 16) (index : BitVec 8) (s3 : SpdmIx) (verified : Bool) (code : BitVec 8) (stream : BitVec 8) (keySet : BitVec 2) (dirSub : BitVec 2) (key : BitVec 256) (requester : BitVec 12) (part : PartIx),
    ∀ c ∈ ([.getVersion s2, .getCapabilities s2, .negotiateAlgorithms s2 baseAsym baseHash, .getDigests s2,
    .getCertificate s2 slot offset length, .getMeasurements s2 index, .finish s3 verified, .heartbeat s3, .keyUpdate s3,
    .endSession s3, .spdmUnsupportedRequest s2 code, .spdmSessionTimeout s3, .query s3, .keyProg s3 stream keySet dirSub key,
    .kSetGo s3 stream keySet, .kSetStop s3 stream keySet, .getTdispVersion s3, .getTdispCapabilities s3,
    .getDeviceInterfaceReport s3 requester part, .getDeviceInterfaceState s3 requester part] : List Instr),
    KeepsTo c [.security, .messages] []) ∧
  (∀ (s2 : Option SpdmIx) (slot : BitVec 4) (nonce : BitVec 256) (peerKey : List Byte) (heartbeatMs : BitVec 16),
    ∀ c ∈ ([.challenge s2 slot nonce, .keyExchange peerKey heartbeatMs] : List Instr), KeepsTo c [.draws, .security,
    .messages] []) ∧
  (∀ (s2 : SpdmIx) (requester : BitVec 12) (part : PartIx), KeepsTo (.lockInterfaceRequest s2 requester part) [.draws,
    .security, .messages] [Od.tdiLocked, Od.tdiRun, Od.tdiError]) ∧
  (∀ (s2 : SpdmIx) (requester : BitVec 12) (part : PartIx), ∀ c ∈ ([.startInterfaceRequest s2 requester part,
    .stopInterfaceRequest s2 requester part] : List Instr), KeepsTo c [.security, .messages] [Od.tdiLocked, Od.tdiRun,
    Od.tdiError]) ∧
  (∀ (who : Actor) (slot : Fin 256) (key : BitVec 256), KeepsTo (.wkKeyWrite who slot key) [.links, .engines, .pair,
    .messages] (ignoreRegs ++ [Od.mirrorBufferBytes, Od.clampHead, Od.clampOverflow])) ∧
  (∀ (who : Actor) (slot : Fin 256), KeepsTo (.destroy who slot) [.links, .engines, .pair] (ignoreRegs ++ [Od.wkPartition,
    Od.mirrorBufferBytes])) ∧
  (∀ (who : Actor) (part : PartIx), KeepsTo (.secConsentDebugWrite who part) (columnParts ++ ([.coarse, .pace, .power, .count,
    .buffers, .security] : List Part)) (columnRegs ++ freeRegs ++ markRegs ++ ignoreRegs ++ [Od.dictState, Od.bootStage, Od.lcState,
    Od.tamperSeen, Od.journalCount, Od.idPublic, Od.opKeys, Od.opKeysUsed, Od.wkPartition, Od.tdiLocked, Od.tdiRun,
    Od.tdiError, Od.partEpoch, Od.partVisible, Od.cohLostLines, Od.portState, Od.portRefusalLine, Od.dirEntriesUsed,
    Od.dirCoarse, Od.dirEvictions, Od.dirSnoops, Od.dirSuspectSets, Od.testStack, Od.testData, Od.testCheck, Od.testResult,
    Od.testPositions, Od.progState, Od.progBind, Od.progSteps, Od.progIndex, Od.progDigest, Od.progReject, Od.progLaunches,
    Od.progOwner, Od.redCommand, Od.redPartition, Od.redOutBase, Od.redMapBase, Od.redElements, Od.redFmtIn, Od.redFmtOut,
    Od.redExp, Od.redOutExp, Od.redContributors, Od.redRound, Od.redSeed, Od.redPolicy, Od.redStragglerMs, Od.redOpenChunks,
    Od.redClass, Od.redResume, Od.redNotifyEvery, Od.redSubscribers, Od.redExcludeIndex, Od.redExcluded, Od.redMissing,
    Od.redChunksDone, Od.redChunksPartial, Od.redChunksLost, Od.redDuplicates, Od.redWindowHigh, Od.redNonfinite,
    Od.redProxyStack, Od.cascadeState, Od.selSource, Od.clampHead, Od.clampOverflow, Od.dbgLevel, Od.dbgHalted])) ∧
  (∀ (cause : TamperCause), KeepsTo (.tamperAlarm cause) [.draws, .timers, .links, .requests, .slices, .coherence, .engines,
    .reductions, .parity, .pair, .security, .messages] (freeRegs ++ eventRegs ++ launchRegs ++ doneRegs ++ ignoreRegs
    ++ [Od.tamperSeen, Od.tamperCount, Od.journalCount, Od.wkPartition, Od.tdiLocked, Od.tdiRun, Od.tdiError, Od.engQueue,
    Od.progState, Od.progBind, Od.progSteps, Od.progIndex, Od.progDigest, Od.progReject, Od.progLaunches, Od.progOwner,
    Od.redState, Od.redCommand, Od.redPartition, Od.redOutBase, Od.redMapBase, Od.redElements, Od.redFmtIn, Od.redFmtOut,
    Od.redExp, Od.redOutExp, Od.redContributors, Od.redRound, Od.redSeed, Od.redPolicy, Od.redStragglerMs, Od.redOpenChunks,
    Od.redClass, Od.redResume, Od.redNotifyEvery, Od.redSubscribers, Od.redExcludeIndex, Od.redExcluded, Od.redMissing,
    Od.redChunksDone, Od.redChunksPartial, Od.redChunksLost, Od.redOpenNow, Od.redParked, Od.redDuplicates, Od.redWindowHigh,
    Od.redNonfinite, Od.redAbortReason, Od.redProxyStack, Od.mirrorBufferBytes, Od.selSource])) ∧
  (∀ (who : Actor), KeepsTo (.tamperAck who) [.links, .pair, .security] (ignoreRegs ++ [Od.tamperSeen, Od.journalCount,
    Od.mirrorBufferBytes]))

/-- Wherever they start, these rows of heat, the dictionary, mailboxes, events, counters, start-up and the debug port answer a next state with the same queue,
in which only the groups of state and the registers named here may have changed: every other register, and all else, is as before. -/
def Obligations.ManagementFrames : Prop :=
  (∀ (src : SensorSrc) (reading : Option Int), KeepsTo (.sensorReading src reading) failParts (failRegs ++ markRegs
    ++ [Od.hubPaceStretch, Od.slicePaceStretch, Od.pcState, Od.refPendingMultiplier, Od.thermStackTemp, Od.thermLevelThermal,
    Od.thermCold, Od.thermShutdown, Od.thermDieTemps, Od.thermSliceTemp, Od.thermSensorFaults, Od.hubTemp, Od.hubSensorFaults,
    Od.calState])) ∧
  (∀ (stack : StackIx), KeepsTo (.levelDwellExpiry stack) [.slices] []) ∧
  (∀ (value : Fin 4), KeepsTo (.throtReqChange value) [.timers, .boot, .slices] [Od.throtReq]) ∧
  (∀ (stack : StackIx), KeepsTo (.coldHoldWait stack) [.timers, .requests, .messages] eventRegs) ∧
  (∀ (hubMw : BitVec 32) (stackMw : List (BitVec 32)), KeepsTo (.powerEstimate hubMw stackMw) [.timers] [Od.pwrTotalMw,
    Od.pwrHubMw, Od.pwrStackMw]) ∧
  (∀ (g : PcIx) (lane : Fin 38) (dPlus : Nat) (dMinus : Nat),
    KeepsTo (.centeringWindow g lane dPlus dMinus) failParts (failRegs ++ [Od.pcState, Od.pcQueueEntries, Od.lanesFailed,
    Od.spareMap, Od.calLaneTaps, Od.calMarginMin])) ∧
  (∀ (g : PcIx), KeepsTo (.calIntervalExpiry g) [.slices] [Od.calState]) ∧
  (∀ (g : PcIx) (caPassed : Bool) (badWriteLanes : List (Fin 38)),
    KeepsTo (.calibrationRun g caPassed badWriteLanes) failParts (failRegs ++ [Od.pcState, Od.pcQueueEntries, Od.lanesFailed,
    Od.spareMap, Od.rebuildPointer, Od.calState, Od.calLastTemp, Od.calLastNs, Od.calRuns, Od.calCaFailStreak])) ∧
  (∀ (s2 : Option SpdmIx) (reqId : BitVec 16) (items : List Item), ∀ c ∈ ([.read s2 reqId items,
    .peek s2 reqId items] : List Instr), KeepsTo c [.draws, .links, .security, .messages] []) ∧
  (∀ (s2 : SpdmIx) (reqId : BitVec 16) (item : Item), ∀ c ∈ ([.subscribe s2 reqId item,
    .unsubscribe s2 reqId item] : List Instr), KeepsTo c [.links, .security, .messages] []) ∧
  (∀ (slot : Fin 256), ∀ c ∈ ([.notify slot, .refusalResponseDue] : List Instr), KeepsTo c [.messages] []) ∧
  (∀ (who : Actor), KeepsTo (.loadDone who) [.links, .buffers, .pair] (ignoreRegs ++ [Od.dictState, Od.bootStage,
    Od.mirrorBufferBytes])) ∧
  (∀ (channel : Fin 64) (fromB : Bool) (semaphore : Bool) (index : Fin 64), ∀ c ∈ ([.mailboxTimeout channel fromB,
    .lockStall semaphore index] : List Instr), KeepsTo c [.requests, .messages] (eventRegs ++ [Od.mbFillAb, Od.mbFillBa,
    Od.mbFlags, Od.mbLockAb, Od.mbLockBa])) ∧
  (KeepsTo .mbBindingLockWrite [] [Od.mbBindingLock]) ∧
  (∀ (route : Fin 32), KeepsTo (.routeBucketRefill route) [.timers, .messages] []) ∧
  (∀ (who : Actor) (route : Fin 32), KeepsTo (.routeAck who route) [.links, .pair] (ignoreRegs ++ [Od.mirrorBufferBytes,
    Od.routePending])) ∧
  (∀ (who : Actor) (w : Fin 1280), KeepsTo (.wmRearm who w) [.links, .requests, .engines, .pair, .messages] (markRegs
    ++ ignoreRegs ++ [Od.mirrorBufferBytes])) ∧
  (∀ (who : Actor) (w : Fin 1280), KeepsTo (.wmClear who w) [.links, .pair] (ignoreRegs ++ [Od.mirrorBufferBytes, Od.wmCrossed,
    Od.wmCount])) ∧
  (∀ (who : Actor) (g : PcIx), KeepsTo (.fixClear who g) [.links, .pair] (ignoreRegs ++ [Od.mirrorBufferBytes, Od.fixCounts])) ∧
  (∀ (who : Actor) (n : Fin 256) (source : BitVec 16) (inst : BitVec 16), KeepsTo (.selSourceWrite who n source inst) [.links,
    .pair, .messages] (ignoreRegs ++ [Od.mirrorBufferBytes, Od.selSource, Od.selInstance, Od.selCount, Od.clampHead,
    Od.clampOverflow])) ∧
  (∀ (who : Actor) (n : Fin 256), KeepsTo (.selClear who n) [.links, .pair] (ignoreRegs ++ [Od.mirrorBufferBytes,
    Od.selCount])) ∧
  (∀ (who : Actor), ∀ c ∈ ([.freeze who, .unfreeze who, .snapshot who] : List Instr), KeepsTo c [.count, .links,
    .pair] (ignoreRegs ++ [Od.mirrorBufferBytes])) ∧
  (KeepsTo .counterCommandInstant [.count] [Od.fixSnapshot, Od.selSnapshot, Od.cntFrozen, Od.cntSnapNs, Od.cntSnapSeq]) ∧
  (∀ (who : Actor) (seed : BitVec 32), KeepsTo (.smpSeedWrite who seed) [.lfsr, .links, .pair, .messages] (ignoreRegs
    ++ [Od.mirrorBufferBytes, Od.smpSeed, Od.clampHead, Od.clampOverflow])) ∧
  (KeepsTo .coarseValueRefresh [.coarse, .timers] []) ∧
  (∀ (stack : StackIx), ∀ c ∈ ([.pwrokRise, .sliceRstRelease stack] : List Instr), KeepsTo c [.boot] []) ∧
  (∀ (slice : Bool) (slotB : Bool) (image : Image), KeepsTo (.bootReadAnswer slice slotB image) [.timers, .boot,
    .security] [Od.bootStage, Od.bootSlot, Od.bootError, Od.svSteward, Od.svSlice, Od.fwVersion]) ∧
  (∀ (slice : Bool) (slotB : Bool), KeepsTo (.fetchTimeout slice slotB) [.timers, .boot] [Od.bootStage, Od.bootError]) ∧
  (KeepsTo .stewardRelease (failParts ++ ([.security] : List Part)) (failRegs ++ freeRegs ++ ignoreRegs ++ [Od.dictState, Od.dictStoreCheck,
    Od.bootStage, Od.journalCount, Od.wkPartition, Od.tdiLocked, Od.tdiRun, Od.tdiError, Od.progState, Od.progBind,
    Od.progSteps, Od.progIndex, Od.progDigest, Od.progReject, Od.progLaunches, Od.progOwner, Od.redCommand, Od.redPartition,
    Od.redOutBase, Od.redMapBase, Od.redElements, Od.redFmtIn, Od.redFmtOut, Od.redExp, Od.redOutExp, Od.redContributors,
    Od.redRound, Od.redSeed, Od.redPolicy, Od.redStragglerMs, Od.redOpenChunks, Od.redClass, Od.redResume, Od.redNotifyEvery,
    Od.redSubscribers, Od.redExcludeIndex, Od.redExcluded, Od.redMissing, Od.redChunksDone, Od.redChunksPartial,
    Od.redChunksLost, Od.redDuplicates, Od.redWindowHigh, Od.redNonfinite, Od.redProxyStack, Od.mbBindingLock, Od.selSource])) ∧
  (KeepsTo .portRelease [.timers, .boot, .requests] [Od.bootStage, Od.bootReleaseMs, Od.portState, Od.regGatedNs,
    Od.serviceMode]) ∧
  (∀ (who : Actor) (port : PortIx), KeepsTo (.portReset who port) [.timers, .links, .requests, .coherence, .pair,
    .messages] (ignoreRegs ++ [Od.reqInflight, Od.portState, Od.portDeferred, Od.portRefusalLine, Od.regGatedNs,
    Od.mirrorBufferBytes, Od.smpHead, Od.smpOverflow])) ∧
  (∀ (port : PortIx), KeepsTo (.portIdleUp port) [.requests] [Od.portState]) ∧
  (∀ (stack : StackIx) (code : BitVec 8), ∀ c ∈ ([.extest, .samplePreload, .idcode, .wirSelect stack, .bypass code,
    .tapReset] : List Instr), KeepsTo c [.tap] []) ∧
  (∀ (pubX : Nat) (pubY : Nat) (sigR : Nat) (sigS : Nat), KeepsTo (.dbgUnlock pubX pubY sigR sigS) [.draws, .tap,
    .security] [Od.journalCount, Od.dbgLevel, Od.dbgUnlocked]) ∧
  (∀ (address : BitVec 64), KeepsTo (.dictPeek address) [.draws, .tap] []) ∧
  (∀ (core : Fin 2), KeepsTo (.stewardHalt core) [.tap] [Od.dbgHalted]) ∧
  (∀ (core : Fin 2), KeepsTo (.stewardResume core) (columnParts ++ ([.coarse, .pace, .power, .count, .tap, .buffers,
    .security] : List Part)) (columnRegs ++ freeRegs ++ markRegs ++ ignoreRegs ++ [Od.dictState, Od.bootStage, Od.lcState, Od.tamperSeen,
    Od.journalCount, Od.idPublic, Od.opKeys, Od.opKeysUsed, Od.wkPartition, Od.tdiLocked, Od.tdiRun, Od.tdiError, Od.partEpoch,
    Od.partVisible, Od.cohLostLines, Od.portState, Od.portRefusalLine, Od.dirEntriesUsed, Od.dirCoarse, Od.dirEvictions,
    Od.dirSnoops, Od.dirSuspectSets, Od.testStack, Od.testData, Od.testCheck, Od.testResult, Od.testPositions, Od.progState,
    Od.progBind, Od.progSteps, Od.progIndex, Od.progDigest, Od.progReject, Od.progLaunches, Od.progOwner, Od.redCommand,
    Od.redPartition, Od.redOutBase, Od.redMapBase, Od.redElements, Od.redFmtIn, Od.redFmtOut, Od.redExp, Od.redOutExp,
    Od.redContributors, Od.redRound, Od.redSeed, Od.redPolicy, Od.redStragglerMs, Od.redOpenChunks, Od.redClass, Od.redResume,
    Od.redNotifyEvery, Od.redSubscribers, Od.redExcludeIndex, Od.redExcluded, Od.redMissing, Od.redChunksDone,
    Od.redChunksPartial, Od.redChunksLost, Od.redDuplicates, Od.redWindowHigh, Od.redNonfinite, Od.redProxyStack,
    Od.cascadeState, Od.selSource, Od.dbgLevel, Od.dbgHalted])) ∧
  (∀ (status : BitVec 2), ∀ c ∈ ([.khAck status, .keyHandoffTimeout] : List Instr), KeepsTo c [.security, .messages] []) ∧
  (∀ (stack : StackIx) (modules : List (Option (Fin 16 × Fin 8))), KeepsTo (.qanatTrainingDone stack modules) [.timers, .boot,
    .links, .requests, .messages] (eventRegs ++ [Od.qanatModulesActive])) ∧
  (∀ (stack : StackIx) (descriptor : StackDescriptor), KeepsTo (.stackDescriptorRead stack descriptor) [.timers, .boot,
    .requests, .slices, .coherence, .engines, .messages] (timingRegs ++ eventRegs ++ [Od.stackState, Od.pcState, Od.thermCold,
    Od.thermShutdown])) ∧
  (∀ (port : Fin 2) (delivered : Bool), KeepsTo (.spanRetrainDone port delivered) [.links] []) ∧
  (KeepsTo .powerTempCoarseRefresh [.power, .timers] [])
end

