-- ==== Sys2Proof/Laws/Table.lean ====
section
/-! SUPPORT. The laws of sparse tables: a read after a write, and that every operation keeps the canonical form. -/

namespace Sys2Proof.Machine

variable {α : Type}

theorem Table.look_put_same (t : Table α) (k : Nat) (v : α) : (t.put k v).look k = some v := by
  induction t with
  | nil => simp [Table.put, Table.look]
  | cons e t ih =>
    obtain ⟨j, w⟩ := e
    simp only [Table.put]
    split
    · simp [Table.look]
    · split
      · simp [Table.look]
      · rw [Table.look, if_neg (by omega)]; exact ih

theorem Table.look_put_ne (t : Table α) (k i : Nat) (v : α) (h : i ≠ k) : (t.put k v).look i = t.look i := by
  induction t with
  | nil => simp [Table.put, Table.look, Ne.symm h]
  | cons e t ih =>
    obtain ⟨j, w⟩ := e
    simp only [Table.put]
    split
    · simp [Table.look, Ne.symm h]
    · split
      · subst_vars; simp [Table.look, Ne.symm h]
      · simp only [Table.look]; split <;> [rfl; exact ih]

theorem Table.look_del_same (t : Table α) (k : Nat) : (t.del k).look k = none := by
  induction t with
  | nil => rfl
  | cons e t ih =>
    obtain ⟨j, w⟩ := e
    simp only [Table.del]
    split
    · exact ih
    · rename_i hj
      rw [Table.look, if_neg hj]; exact ih

theorem Table.look_del_ne (t : Table α) (k i : Nat) (h : i ≠ k) : (t.del k).look i = t.look i := by
  induction t with
  | nil => rfl
  | cons e t ih =>
    obtain ⟨j, w⟩ := e
    simp only [Table.del]
    split
    · subst_vars; rw [ih]; simp [Table.look, Ne.symm h]
    · simp only [Table.look]; split <;> [rfl; exact ih]

theorem Table.atD_setD_ne [DecidableEq α] (t : Table α) (d : Nat → α) (k i : Nat) (v : α) (h : i ≠ k) :
    (t.setD d k v).atD d i = t.atD d i := by
  unfold Table.setD Table.atD
  split
  · rw [Table.look_del_ne t k i h]
  · rw [Table.look_put_ne t k i v h]

theorem Table.atD_setD_same [DecidableEq α] (t : Table α) (d : Nat → α) (k : Nat) (v : α) : (t.setD d k v).atD d k = v := by
  unfold Table.setD Table.atD
  split
  · rename_i hv; rw [Table.look_del_same t k, hv]; rfl
  · rw [Table.look_put_same]; rfl

theorem Table.rising_put (t : Table α) (lo : Option Nat) (k : Nat) (v : α) (h : Table.rising lo t = true)
    (hk : ∀ b, lo = some b → b < k) : Table.rising lo (t.put k v) = true := by
  induction t generalizing lo with
  | nil => cases lo <;> simp_all [Table.put, Table.rising]
  | cons e t ih =>
    obtain ⟨j, w⟩ := e
    simp only [Table.rising, Bool.and_eq_true] at h
    simp only [Table.put]
    split
    · cases lo <;> simp_all [Table.rising]
    · split
      · cases lo <;> simp_all [Table.rising]
      · simp only [Table.rising, Bool.and_eq_true]
        exact ⟨h.1, ih (some j) h.2 (by intro b hb; cases hb; omega)⟩

theorem Table.rising_weaken (t : Table α) (a b : Nat) (h : Table.rising (some b) t = true) (hab : a ≤ b) :
    Table.rising (some a) t = true := by
  cases t with
  | nil => rfl
  | cons e t =>
    obtain ⟨j, w⟩ := e
    simp only [Table.rising, Bool.and_eq_true, decide_eq_true_eq] at h ⊢
    exact ⟨by omega, h.2⟩

theorem Table.rising_none_of_some (t : Table α) (b : Nat) (h : Table.rising (some b) t = true) :
    Table.rising none t = true := by
  cases t with
  | nil => rfl
  | cons e t => simp_all [Table.rising]

theorem Table.rising_del (t : Table α) (lo : Option Nat) (k : Nat) (h : Table.rising lo t = true) :
    Table.rising lo (t.del k) = true := by
  induction t generalizing lo with
  | nil => exact h
  | cons e t ih =>
    obtain ⟨j, w⟩ := e
    simp only [Table.rising, Bool.and_eq_true] at h
    simp only [Table.del]
    split
    · have hd := ih (some j) h.2
      cases lo with
      | none => exact Table.rising_none_of_some _ j hd
      | some b => exact Table.rising_weaken _ b j hd (by have := h.1; simp at this; omega)
    · simp only [Table.rising, Bool.and_eq_true]
      exact ⟨h.1, ih (some j) h.2⟩

theorem Table.mem_put (t : Table α) (k : Nat) (v : α) (e : Nat × α) (h : e ∈ t.put k v) : e = (k, v) ∨ e ∈ t := by
  induction t with
  | nil => simpa [Table.put] using h
  | cons a t ih =>
    obtain ⟨j, w⟩ := a
    simp only [Table.put] at h
    split at h
    · simpa using h
    · split at h
      · simp only [List.mem_cons] at h ⊢; tauto
      · simp only [List.mem_cons] at h ⊢
        rcases h with h | h
        · exact .inr (.inl h)
        · rcases ih h with h | h <;> simp [h]

theorem Table.mem_del (t : Table α) (k : Nat) (e : Nat × α) (h : e ∈ t.del k) : e ∈ t := by
  induction t with
  | nil => exact h
  | cons a t ih =>
    obtain ⟨j, w⟩ := a
    simp only [Table.del] at h
    split at h
    · exact List.mem_cons_of_mem _ (ih h)
    · simp only [List.mem_cons] at h ⊢
      rcases h with h | h
      · exact .inl h
      · exact .inr (ih h)

/-- A write keeps the canonical form. -/
theorem Table.wf_setD [DecidableEq α] (t : Table α) (d : Nat → α) (k : Nat) (v : α) (h : Table.wf d t = true) :
    Table.wf d (t.setD d k v) = true := by
  simp only [Table.wf, Bool.and_eq_true, Table.lean, List.all_eq_true, decide_eq_true_eq] at h ⊢
  unfold Table.setD
  split
  · exact ⟨Table.rising_del t none k h.1, fun e he => h.2 e (Table.mem_del t k e he)⟩
  · rename_i hv
    refine ⟨Table.rising_put t none k v h.1 (by simp), fun e he => ?_⟩
    rcases Table.mem_put t k v e he with rfl | he
    · exact hv
    · exact h.2 e he

theorem Table.rising_filter (t : Table α) (lo : Option Nat) (p : Nat × α → Bool) (h : Table.rising lo t = true) :
    Table.rising lo (t.filter p) = true := by
  induction t generalizing lo with
  | nil => exact h
  | cons e t ih =>
    obtain ⟨j, w⟩ := e
    simp only [Table.rising, Bool.and_eq_true] at h
    by_cases hp : p (j, w) = true
    · rw [List.filter_cons_of_pos hp]
      simp only [Table.rising, Bool.and_eq_true]
      exact ⟨h.1, ih (some j) h.2⟩
    · rw [List.filter_cons_of_neg hp]
      cases lo with
      | none => exact ih none (Table.rising_none_of_some t j h.2)
      | some b => exact ih (some b) (Table.rising_weaken t b j h.2 (by have := h.1; simp at this; omega))

/-- Dropping entries keeps the canonical form. -/
theorem Table.wf_filter [DecidableEq α] (t : Table α) (d : Nat → α) (p : Nat × α → Bool) (h : Table.wf d t = true) :
    Table.wf d (t.filter p) = true := by
  simp only [Table.wf, Bool.and_eq_true, Table.lean, List.all_eq_true, decide_eq_true_eq] at h ⊢
  exact ⟨Table.rising_filter t none p h.1, fun e he => h.2 e (List.mem_filter.1 he).1⟩

theorem Table.wf_drop [DecidableEq α] (t : Table α) (d : Nat → α) (p : Nat → Bool) (h : Table.wf d t = true) :
    Table.wf d (t.drop p) = true := Table.wf_filter t d _ h

theorem Table.wf_nil [DecidableEq α] (d : Nat → α) : Table.wf d ([] : Table α) = true := rfl

theorem Table.look_drop (t : Table α) (p : Nat → Bool) (k : Nat) :
    (t.drop p).look k = if p k then none else t.look k := by
  induction t with
  | nil => simp [Table.drop, Table.look]
  | cons e t ih =>
    obtain ⟨j, w⟩ := e
    unfold Table.drop at ih ⊢
    by_cases hp : p j = true
    · rw [List.filter_cons_of_neg (by simp [hp]), ih]
      by_cases hk : p k = true
      · simp [hk]
      · have hjk : j ≠ k := by rintro rfl; exact hk hp
        simp [Table.look, hjk]
    · rw [List.filter_cons_of_pos (by simp [hp])]
      simp only [Table.look]
      by_cases hjk : j = k
      · subst hjk; simp [hp]
      · simp only [hjk, if_false]; exact ih

/-- The canonical form with another default, where the default is the same at every key left. -/
theorem Table.wf_congr [DecidableEq α] (t : Table α) (d d' : Nat → α) (p : Nat → Bool)
    (h : Table.wf d t = true) (hd : ∀ k, p k = false → d' k = d k) : Table.wf d' (t.drop p) = true := by
  have h2 := Table.wf_drop t d p h
  simp only [Table.wf, Bool.and_eq_true, Table.lean, List.all_eq_true, decide_eq_true_eq] at h2 ⊢
  refine ⟨h2.1, fun e he => ?_⟩
  have := h2.2 e he
  unfold Table.drop at he
  rw [hd e.1 (by simpa using (List.mem_filter.1 he).2)]
  exact this

end Sys2Proof.Machine
end

