-- ==== Sys2Proof/Laws/Within.lean ====
section
/-! SUPPORT. The relation every operation of the block satisfies: what it leaves alone, and that canonical tables stay
canonical. -/

namespace Sys2Proof.Machine

/-! ### Numbers for the dictionary's registers, found by halving -/

inductive RegTree
  | leaf (code no : Nat)
  | node (pivot : Nat) (l r : RegTree)

def RegTree.find : RegTree → Nat → Nat
  | .leaf c n, k => bif Nat.beq k c then n else 381
  | .node p l r, k => bif Nat.blt k p then l.find k else r.find k

def RegTree.max : RegTree → Nat
  | .leaf _ n => n
  | .node _ l r => Nat.max l.max r.max

def regTree0 : RegTree :=
(.node 1048585 (.node 16386 (.node 12289 (.node 8194 (.node 8193 (.leaf 4097 0) (.leaf 8193 1)) (.node 8195 (.leaf 8194 2)
    (.node 8196 (.leaf 8195 3) (.leaf 8196 4)))) (.node 12292 (.node 12290 (.leaf 12289 5) (.node 12291 (.leaf 12290 6)
    (.leaf 12291 7))) (.node 12293 (.leaf 12292 8) (.node 16385 (.leaf 12293 9) (.leaf 16385 10))))) (.node 1048579 (.node
    16389 (.node 16387 (.leaf 16386 11) (.node 16388 (.leaf 16387 12) (.leaf 16388 13))) (.node 1048577 (.leaf 16389 14)
    (.node 1048578 (.leaf 1048577 15) (.leaf 1048578 16)))) (.node 1048582 (.node 1048580 (.leaf 1048579 17) (.node 1048581
    (.leaf 1048580 18) (.leaf 1048581 19))) (.node 1048583 (.leaf 1048582 20) (.node 1048584 (.leaf 1048583 21) (.leaf
    1048584 22)))))) (.node 1179655 (.node 1179649 (.node 1048588 (.node 1048586 (.leaf 1048585 23) (.node 1048587 (.leaf
    1048586 24) (.leaf 1048587 25))) (.node 1114113 (.leaf 1048588 26) (.node 1114114 (.leaf 1114113 27) (.leaf 1114114
    28)))) (.node 1179652 (.node 1179650 (.leaf 1179649 29) (.node 1179651 (.leaf 1179650 30) (.leaf 1179651 31))) (.node
    1179653 (.leaf 1179652 32) (.node 1179654 (.leaf 1179653 33) (.leaf 1179654 34))))) (.node 1310721 (.node 1249281 (.node
    1179656 (.leaf 1179655 35) (.node 1245185 (.leaf 1179656 36) (.leaf 1245185 37))) (.node 1249282 (.leaf 1249281 38)
    (.node 1249283 (.leaf 1249282 39) (.leaf 1249283 40)))) (.node 2097153 (.node 1310722 (.leaf 1310721 41) (.node 1310723
    (.leaf 1310722 42) (.leaf 1310723 43))) (.node 2097154 (.leaf 2097153 44) (.node 2097155 (.leaf 2097154 45) (.leaf
    2097155 46)))))))

def regTree1 : RegTree :=
(.node 2162695 (.node 2101251 (.node 2097162 (.node 2097159 (.node 2097157 (.leaf 2097156 47) (.node 2097158 (.leaf 2097157
    48) (.leaf 2097158 49))) (.node 2097160 (.leaf 2097159 50) (.node 2097161 (.leaf 2097160 51) (.leaf 2097161 52))))
    (.node 2097165 (.node 2097163 (.leaf 2097162 53) (.node 2097164 (.leaf 2097163 54) (.leaf 2097164 55))) (.node 2101249
    (.leaf 2097165 56) (.node 2101250 (.leaf 2101249 57) (.leaf 2101250 58))))) (.node 2162689 (.node 2105346 (.node 2101252
    (.leaf 2101251 59) (.node 2105345 (.leaf 2101252 60) (.leaf 2105345 61))) (.node 2105347 (.leaf 2105346 62) (.node
    2105348 (.leaf 2105347 63) (.leaf 2105348 64)))) (.node 2162692 (.node 2162690 (.leaf 2162689 65) (.node 2162691 (.leaf
    2162690 66) (.leaf 2162691 67))) (.node 2162693 (.leaf 2162692 68) (.node 2162694 (.leaf 2162693 69) (.leaf 2162694
    70)))))) (.node 2228229 (.node 2166785 (.node 2162698 (.node 2162696 (.leaf 2162695 71) (.node 2162697 (.leaf 2162696
    72) (.leaf 2162697 73))) (.node 2162699 (.leaf 2162698 74) (.node 2162700 (.leaf 2162699 75) (.leaf 2162700 76))))
    (.node 2228226 (.node 2170881 (.leaf 2166785 77) (.node 2228225 (.leaf 2170881 78) (.leaf 2228225 79))) (.node 2228227
    (.leaf 2228226 80) (.node 2228228 (.leaf 2228227 81) (.leaf 2228228 82))))) (.node 3145730 (.node 2232321 (.node 2228230
    (.leaf 2228229 83) (.node 2228231 (.leaf 2228230 84) (.leaf 2228231 85))) (.node 2232322 (.leaf 2232321 86) (.node
    3145729 (.leaf 2232322 87) (.leaf 3145729 88)))) (.node 3145733 (.node 3145731 (.leaf 3145730 89) (.node 3145732 (.leaf
    3145731 90) (.leaf 3145732 91))) (.node 3145734 (.leaf 3145733 92) (.node 3145735 (.leaf 3145734 93) (.leaf 3145735
    94)))))))

def regTree2 : RegTree :=
(.node 4194310 (.node 3276801 (.node 3145748 (.node 3145745 (.node 3145744 (.leaf 3145736 95) (.leaf 3145744 96)) (.node
    3145746 (.leaf 3145745 97) (.node 3145747 (.leaf 3145746 98) (.leaf 3145747 99)))) (.node 3211266 (.node 3145749 (.leaf
    3145748 100) (.node 3211265 (.leaf 3145749 101) (.leaf 3211265 102))) (.node 3211267 (.leaf 3211266 103) (.node 3211268
    (.leaf 3211267 104) (.leaf 3211268 105))))) (.node 3276807 (.node 3276804 (.node 3276802 (.leaf 3276801 106) (.node
    3276803 (.leaf 3276802 107) (.leaf 3276803 108))) (.node 3276805 (.leaf 3276804 109) (.node 3276806 (.leaf 3276805 110)
    (.leaf 3276806 111)))) (.node 4194307 (.node 4194305 (.leaf 3276807 112) (.node 4194306 (.leaf 4194305 113) (.leaf
    4194306 114))) (.node 4194308 (.leaf 4194307 115) (.node 4194309 (.leaf 4194308 116) (.leaf 4194309 117)))))) (.node
    4194322 (.node 4194316 (.node 4194313 (.node 4194311 (.leaf 4194310 118) (.node 4194312 (.leaf 4194311 119) (.leaf
    4194312 120))) (.node 4194314 (.leaf 4194313 121) (.node 4194315 (.leaf 4194314 122) (.leaf 4194315 123)))) (.node
    4194319 (.node 4194317 (.leaf 4194316 124) (.node 4194318 (.leaf 4194317 125) (.leaf 4194318 126))) (.node 4194320
    (.leaf 4194319 127) (.node 4194321 (.leaf 4194320 128) (.leaf 4194321 129))))) (.node 4198403 (.node 4194325 (.node
    4194323 (.leaf 4194322 130) (.node 4194324 (.leaf 4194323 131) (.leaf 4194324 132))) (.node 4198401 (.leaf 4194325 133)
    (.node 4198402 (.leaf 4198401 134) (.leaf 4198402 135)))) (.node 4259841 (.node 4198404 (.leaf 4198403 136) (.node
    4198405 (.leaf 4198404 137) (.leaf 4198405 138))) (.node 4259842 (.leaf 4259841 139) (.node 4259843 (.leaf 4259842 140)
    (.leaf 4259843 141)))))))

def regTree3 : RegTree :=
(.node 6295555 (.node 5373957 (.node 5308417 (.node 5242881 (.node 4325378 (.leaf 4325377 142) (.node 4325379 (.leaf 4325378
    143) (.leaf 4325379 144))) (.node 5242882 (.leaf 5242881 145) (.node 5242883 (.leaf 5242882 146) (.leaf 5242883 147))))
    (.node 5373954 (.node 5308418 (.leaf 5308417 148) (.node 5373953 (.leaf 5308418 149) (.leaf 5373953 150))) (.node
    5373955 (.leaf 5373954 151) (.node 5373956 (.leaf 5373955 152) (.leaf 5373956 153))))) (.node 6291458 (.node 5378051
    (.node 5378049 (.leaf 5373957 154) (.node 5378050 (.leaf 5378049 155) (.leaf 5378050 156))) (.node 5378052 (.leaf
    5378051 157) (.node 6291457 (.leaf 5378052 158) (.leaf 6291457 159)))) (.node 6291461 (.node 6291459 (.leaf 6291458 160)
    (.node 6291460 (.leaf 6291459 161) (.leaf 6291460 162))) (.node 6295553 (.leaf 6291461 163) (.node 6295554 (.leaf
    6295553 164) (.leaf 6295554 165)))))) (.node 6356997 (.node 6299654 (.node 6299651 (.node 6299649 (.leaf 6295555 166)
    (.node 6299650 (.leaf 6299649 167) (.leaf 6299650 168))) (.node 6299652 (.leaf 6299651 169) (.node 6299653 (.leaf
    6299652 170) (.leaf 6299653 171)))) (.node 6356994 (.node 6299655 (.leaf 6299654 172) (.node 6356993 (.leaf 6299655 173)
    (.leaf 6356993 174))) (.node 6356995 (.leaf 6356994 175) (.node 6356996 (.leaf 6356995 176) (.leaf 6356996 177)))))
    (.node 6488065 (.node 6422529 (.node 6356998 (.leaf 6356997 178) (.node 6361089 (.leaf 6356998 179) (.leaf 6361089
    180))) (.node 6426625 (.leaf 6422529 181) (.node 6426626 (.leaf 6426625 182) (.leaf 6426626 183)))) (.node 6488068
    (.node 6488066 (.leaf 6488065 184) (.node 6488067 (.leaf 6488066 185) (.leaf 6488067 186))) (.node 6488069 (.leaf
    6488068 187) (.node 6488070 (.leaf 6488069 188) (.leaf 6488070 189)))))))

def regTree4 : RegTree :=
(.node 7405575 (.node 7352321 (.node 7340037 (.node 7340034 (.node 7340033 (.leaf 6492161 190) (.leaf 7340033 191)) (.node
    7340035 (.leaf 7340034 192) (.node 7340036 (.leaf 7340035 193) (.leaf 7340036 194)))) (.node 7340040 (.node 7340038
    (.leaf 7340037 195) (.node 7340039 (.leaf 7340038 196) (.leaf 7340039 197))) (.node 7344129 (.leaf 7340040 198) (.node
    7348225 (.leaf 7344129 199) (.leaf 7348225 200))))) (.node 7405569 (.node 7352324 (.node 7352322 (.leaf 7352321 201)
    (.node 7352323 (.leaf 7352322 202) (.leaf 7352323 203))) (.node 7352325 (.leaf 7352324 204) (.node 7352326 (.leaf
    7352325 205) (.leaf 7352326 206)))) (.node 7405572 (.node 7405570 (.leaf 7405569 207) (.node 7405571 (.leaf 7405570 208)
    (.leaf 7405571 209))) (.node 7405573 (.leaf 7405572 210) (.node 7405574 (.leaf 7405573 211) (.leaf 7405574 212))))))
    (.node 8388617 (.node 8388611 (.node 7405578 (.node 7405576 (.leaf 7405575 213) (.node 7405577 (.leaf 7405576 214)
    (.leaf 7405577 215))) (.node 8388609 (.leaf 7405578 216) (.node 8388610 (.leaf 8388609 217) (.leaf 8388610 218))))
    (.node 8388614 (.node 8388612 (.leaf 8388611 219) (.node 8388613 (.leaf 8388612 220) (.leaf 8388613 221))) (.node
    8388615 (.leaf 8388614 222) (.node 8388616 (.leaf 8388615 223) (.leaf 8388616 224))))) (.node 8388623 (.node 8388620
    (.node 8388618 (.leaf 8388617 225) (.node 8388619 (.leaf 8388618 226) (.leaf 8388619 227))) (.node 8388621 (.leaf
    8388620 228) (.node 8388622 (.leaf 8388621 229) (.leaf 8388622 230)))) (.node 8388626 (.node 8388624 (.leaf 8388623 231)
    (.node 8388625 (.leaf 8388624 232) (.leaf 8388625 233))) (.node 8388627 (.leaf 8388626 234) (.node 8388628 (.leaf
    8388627 235) (.leaf 8388628 236)))))))

def regTree5 : RegTree :=
(.node 9437196 (.node 8388641 (.node 8388635 (.node 8388632 (.node 8388630 (.leaf 8388629 237) (.node 8388631 (.leaf 8388630
    238) (.leaf 8388631 239))) (.node 8388633 (.leaf 8388632 240) (.node 8388634 (.leaf 8388633 241) (.leaf 8388634 242))))
    (.node 8388638 (.node 8388636 (.leaf 8388635 243) (.node 8388637 (.leaf 8388636 244) (.leaf 8388637 245))) (.node
    8388639 (.leaf 8388638 246) (.node 8388640 (.leaf 8388639 247) (.leaf 8388640 248))))) (.node 9437190 (.node 9437187
    (.node 9437185 (.leaf 8388641 249) (.node 9437186 (.leaf 9437185 250) (.leaf 9437186 251))) (.node 9437188 (.leaf
    9437187 252) (.node 9437189 (.leaf 9437188 253) (.leaf 9437189 254)))) (.node 9437193 (.node 9437191 (.leaf 9437190 255)
    (.node 9437192 (.leaf 9437191 256) (.leaf 9437192 257))) (.node 9437194 (.leaf 9437193 258) (.node 9437195 (.leaf
    9437194 259) (.leaf 9437195 260)))))) (.node 9441283 (.node 9437202 (.node 9437199 (.node 9437197 (.leaf 9437196 261)
    (.node 9437198 (.leaf 9437197 262) (.leaf 9437198 263))) (.node 9437200 (.leaf 9437199 264) (.node 9437201 (.leaf
    9437200 265) (.leaf 9437201 266)))) (.node 9437205 (.node 9437203 (.leaf 9437202 267) (.node 9437204 (.leaf 9437203 268)
    (.leaf 9437204 269))) (.node 9441281 (.leaf 9437205 270) (.node 9441282 (.leaf 9441281 271) (.leaf 9441282 272)))))
    (.node 10485766 (.node 10485763 (.node 10485761 (.leaf 9441283 273) (.node 10485762 (.leaf 10485761 274) (.leaf 10485762
    275))) (.node 10485764 (.leaf 10485763 276) (.node 10485765 (.leaf 10485764 277) (.leaf 10485765 278)))) (.node 10485769
    (.node 10485767 (.leaf 10485766 279) (.node 10485768 (.leaf 10485767 280) (.leaf 10485768 281))) (.node 10485770 (.leaf
    10485769 282) (.node 10485771 (.leaf 10485770 283) (.leaf 10485771 284)))))))

def regTree6 : RegTree :=
(.node 10551300 (.node 10489863 (.node 10489857 (.node 10485775 (.node 10485773 (.leaf 10485772 285) (.node 10485774 (.leaf
    10485773 286) (.leaf 10485774 287))) (.node 10485776 (.leaf 10485775 288) (.node 10485777 (.leaf 10485776 289) (.leaf
    10485777 290)))) (.node 10489860 (.node 10489858 (.leaf 10489857 291) (.node 10489859 (.leaf 10489858 292) (.leaf
    10489859 293))) (.node 10489861 (.leaf 10489860 294) (.node 10489862 (.leaf 10489861 295) (.leaf 10489862 296)))))
    (.node 10498049 (.node 10493953 (.node 10489864 (.leaf 10489863 297) (.node 10489865 (.leaf 10489864 298) (.leaf
    10489865 299))) (.node 10493954 (.leaf 10493953 300) (.node 10493955 (.leaf 10493954 301) (.leaf 10493955 302)))) (.node
    10551297 (.node 10498050 (.leaf 10498049 303) (.node 10498051 (.leaf 10498050 304) (.leaf 10498051 305))) (.node
    10551298 (.leaf 10551297 306) (.node 10551299 (.leaf 10551298 307) (.leaf 10551299 308)))))) (.node 11534341 (.node
    10555395 (.node 10551303 (.node 10551301 (.leaf 10551300 309) (.node 10551302 (.leaf 10551301 310) (.leaf 10551302
    311))) (.node 10555393 (.leaf 10551303 312) (.node 10555394 (.leaf 10555393 313) (.leaf 10555394 314)))) (.node 11534338
    (.node 10555396 (.leaf 10555395 315) (.node 11534337 (.leaf 10555396 316) (.leaf 11534337 317))) (.node 11534339 (.leaf
    11534338 318) (.node 11534340 (.leaf 11534339 319) (.leaf 11534340 320))))) (.node 11542532 (.node 11542529 (.node
    11534342 (.leaf 11534341 321) (.node 11538433 (.leaf 11534342 322) (.leaf 11538433 323))) (.node 11542530 (.leaf
    11542529 324) (.node 11542531 (.leaf 11542530 325) (.leaf 11542531 326)))) (.node 11542535 (.node 11542533 (.leaf
    11542532 327) (.node 11542534 (.leaf 11542533 328) (.leaf 11542534 329))) (.node 11599873 (.leaf 11542535 330) (.node
    11599874 (.leaf 11599873 331) (.leaf 11599874 332)))))))

def regTree7 : RegTree :=
(.node 12648453 (.node 11612163 (.node 11603969 (.node 11599878 (.node 11599876 (.leaf 11599875 333) (.node 11599877 (.leaf
    11599876 334) (.leaf 11599877 335))) (.node 11599879 (.leaf 11599878 336) (.node 11599880 (.leaf 11599879 337) (.leaf
    11599880 338)))) (.node 11603972 (.node 11603970 (.leaf 11603969 339) (.node 11603971 (.leaf 11603970 340) (.leaf
    11603971 341))) (.node 11612161 (.leaf 11603972 342) (.node 11612162 (.leaf 11612161 343) (.leaf 11612162 344)))))
    (.node 12582915 (.node 11612166 (.node 11612164 (.leaf 11612163 345) (.node 11612165 (.leaf 11612164 346) (.leaf
    11612165 347))) (.node 12582913 (.leaf 11612166 348) (.node 12582914 (.leaf 12582913 349) (.leaf 12582914 350)))) (.node
    12648450 (.node 12587009 (.leaf 12582915 351) (.node 12648449 (.leaf 12587009 352) (.leaf 12648449 353))) (.node
    12648451 (.leaf 12648450 354) (.node 12648452 (.leaf 12648451 355) (.leaf 12648452 356)))))) (.node 13631489 (.node
    12779522 (.node 12713987 (.node 12713985 (.leaf 12648453 357) (.node 12713986 (.leaf 12713985 358) (.leaf 12713986
    359))) (.node 12713988 (.leaf 12713987 360) (.node 12779521 (.leaf 12713988 361) (.leaf 12779521 362)))) (.node 12783618
    (.node 12779523 (.leaf 12779522 363) (.node 12783617 (.leaf 12779523 364) (.leaf 12783617 365))) (.node 12783619 (.leaf
    12783618 366) (.node 12783620 (.leaf 12783619 367) (.leaf 12783620 368))))) (.node 13639683 (.node 13631492 (.node
    13631490 (.leaf 13631489 369) (.node 13631491 (.leaf 13631490 370) (.leaf 13631491 371))) (.node 13639681 (.leaf
    13631492 372) (.node 13639682 (.leaf 13639681 373) (.leaf 13639682 374)))) (.node 14680065 (.node 13639937 (.leaf
    13639683 375) (.node 13639938 (.leaf 13639937 376) (.leaf 13639938 377))) (.node 14680066 (.leaf 14680065 378) (.node
    14680067 (.leaf 14680066 379) (.leaf 14680067 380)))))))

def regTree : RegTree := (.node 6492161 (.node 3145736 (.node 2097156 regTree0 regTree1) (.node 4325377 regTree2 regTree3)) (.node 10485772 (.node 8388629 regTree4 regTree5) (.node 11599875 regTree6 regTree7)))

/-- A register's number; 381 where the dictionary has none. -/
def Reg.no (r : Reg) : Nat := regTree.find (r.index * 256 + r.sub % 256)

/-- The number of the register that a key names. -/
def keyNo (k : Nat) : Nat := (keyReg k).no

theorem keyNo_odKey (r : Reg) (i e : Nat) : keyNo (odKey r i e) = r.no :=
  congrArg regTree.find (by simp only [keyReg, odKey]; omega)

theorem keyReg_odKey (r : Reg) (i e : Nat) (h : r.sub < 256) : keyReg (odKey r i e) = r := by
  cases r
  simp only [keyReg, odKey, Reg.mk.injEq] at *
  omega

/-- `2 ^ n`, from powers small enough to be evaluated. -/
def twoPow (n : Nat) : Nat := 2 ^ (n / 2) * 2 ^ (n - n / 2)

theorem twoPow_eq (n : Nat) : twoPow n = 2 ^ n := by
  rw [twoPow, ← Nat.pow_add]; congr 1; omega

/-- The mask of one register's bit, with the bit of the register file as a whole. -/
def Reg.mask (r : Reg) : Nat := 4 ||| twoPow (24 + r.no)

/-- The mask of several. -/
def Reg.masks (rs : List Reg) : Nat := rs.foldr (fun r m => r.mask ||| m) 4

/-! ### The relation -/

/-- What the block holds, by number: 0 to 21 the fields of `Hw` in order (14 the buffers beside the DRAM, 16 the engines without
their staging), 22 the DRAM (its symbols, fills and spare slots), 23 the staging, 24 + n register n. -/
def Hw.samePart (a b : Hw) : Nat → Prop
  | 0 => b.now = a.now
  | 1 => b.drawn = a.drawn
  | 2 => b.od = a.od
  | 3 => b.odMs = a.odMs
  | 4 => b.odPace = a.odPace
  | 5 => b.odPower = a.odPower
  | 6 => b.timers = a.timers
  | 7 => b.cntPending = a.cntPending
  | 8 => b.lfsr = a.lfsr
  | 9 => b.tap = a.tap
  | 10 => b.boot = a.boot
  | 11 => b.lnk = a.lnk
  | 12 => b.req = a.req
  | 13 => b.sl = a.sl
  | 14 => b.mem = { a.mem with dram := b.mem.dram, fills := b.mem.fills, spare := b.mem.spare }
  | 15 => b.coh = a.coh
  | 16 => b.car = { a.car with staging := b.car.staging }
  | 17 => b.red = a.red
  | 18 => b.par = a.par
  | 19 => b.pair = a.pair
  | 20 => b.sec = a.sec
  | 21 => b.msg = a.msg
  | 22 => b.mem.dram = a.mem.dram ∧ b.mem.fills = a.mem.fills ∧ b.mem.spare = a.mem.spare
  | 23 => b.car.staging = a.car.staging
  | n + 24 => ∀ k, keyNo k = n → Table.atD b.od odDefault k = Table.atD a.od odDefault k

/-- From `a` to `b` only what has its bit in `m` has changed. -/
def Hw.Frame (m : Nat) (a b : Hw) : Prop := ∀ i, m.testBit i = false → a.samePart b i

/-- From `a` to `b`: only the parts of mask `m` change, and the canonical form is kept. -/
structure Hw.Within (m : Nat) (a b : Hw) : Prop where
  frame : Hw.Frame m a b
  tidy : a.tidy = true → b.tidy = true

variable {m n : Nat} {a b c : Hw}

theorem Hw.Frame.refl (m : Nat) (a : Hw) : Hw.Frame m a a := by
  intro i _
  match i with
  | 0 | 1 | 2 | 3 | 4 | 5 | 6 | 7 | 8 | 9 | 10 | 11 | 12 | 13 | 14 | 15 | 16 | 17 | 18 | 19 | 20 | 21 | 23 => rfl
  | 22 => exact ⟨rfl, rfl, rfl⟩
  | _ + 24 => exact fun _ _ => rfl

theorem Hw.Frame.trans (h1 : Hw.Frame m a b) (h2 : Hw.Frame m b c) : Hw.Frame m a c := by
  intro i hi
  have x := h1 i hi
  have y := h2 i hi
  match i with
  | 0 | 1 | 2 | 3 | 4 | 5 | 6 | 7 | 8 | 9 | 10 | 11 | 12 | 13 | 15 | 17 | 18 | 19 | 20 | 21 | 23 => exact Eq.trans y x
  | 14 => simp only [Hw.samePart] at *; rw [y, x]
  | 16 => simp only [Hw.samePart] at *; rw [y, x]
  | 22 => exact ⟨y.1.trans x.1, y.2.1.trans x.2.1, y.2.2.trans x.2.2⟩
  | _ + 24 => exact fun k hk => (y k hk).trans (x k hk)

theorem Hw.Frame.mono (h : Hw.Frame n a b) (hm : n &&& m = n) : Hw.Frame m a b := by
  intro i hi
  refine h i ?_
  rw [← hm, Nat.testBit_and, hi, Bool.and_false]

theorem Hw.Within.refl (m : Nat) (a : Hw) : Hw.Within m a a := ⟨Hw.Frame.refl m a, id⟩

theorem Hw.Within.trans (h1 : Hw.Within m a b) (h2 : Hw.Within m b c) : Hw.Within m a c :=
  ⟨h1.frame.trans h2.frame, fun h => h2.tidy (h1.tidy h)⟩

/-- One more operation, whose mask is part of the whole. -/
theorem Hw.Within.step (h2 : Hw.Within n b c) (hm : n &&& m = n) (h1 : Hw.Within m a b) : Hw.Within m a c :=
  h1.trans ⟨h2.frame.mono hm, h2.tidy⟩

theorem Hw.Within.fold {α : Type} {f : Hw → α → Hw} {l : List α} (hf : ∀ h x, Hw.Within m a h → Hw.Within m a (f h x))
    (h0 : Hw.Within m a b) : Hw.Within m a (l.foldl f b) := by
  induction l generalizing b with
  | nil => exact h0
  | cons x l ih => exact ih (hf b x h0)

/-- A fold that carries something beside. -/
theorem Hw.Within.fold2 {α β : Type} {f : β × Hw → α → β × Hw} {l : List α} {p : β × Hw}
    (hf : ∀ q x, Hw.Within m a q.2 → Hw.Within m a (f q x).2) (h0 : Hw.Within m a p.2) : Hw.Within m a (l.foldl f p).2 := by
  induction l generalizing p with
  | nil => exact h0
  | cons x l ih => exact ih (hf p x h0)

/-- A fold that carries something after. -/
theorem Hw.Within.fold1 {α β : Type} {f : Hw × β → α → Hw × β} {l : List α} {p : Hw × β}
    (hf : ∀ q x, Hw.Within m a q.1 → Hw.Within m a (f q x).1) (h0 : Hw.Within m a p.1) : Hw.Within m a (l.foldl f p).1 := by
  induction l generalizing p with
  | nil => exact h0
  | cons x l ih => exact ih (hf p x h0)

/-- A fold that carries two things beside. -/
theorem Hw.Within.fold3 {α β γ : Type} {f : β × γ × Hw → α → β × γ × Hw} {l : List α} {p : β × γ × Hw}
    (hf : ∀ q x, Hw.Within m a q.2.2 → Hw.Within m a (f q x).2.2) (h0 : Hw.Within m a p.2.2) :
    Hw.Within m a (l.foldl f p).2.2 := by
  induction l generalizing p with
  | nil => exact h0
  | cons x l ih => exact ih (hf p x h0)

/-! ### A value bound by `let`, a pair taken apart, a fold -/

theorem Hw.Within.ite {p : Prop} [Decidable p] {x y : Hw} (hx : Hw.Within m a x) (hy : Hw.Within m a y) :
    Hw.Within m a (if p then x else y) := by split <;> assumption

theorem Hw.Within.ite2 {β : Type} {p : Prop} [Decidable p] {x y : β × Hw} (hx : Hw.Within m a x.2) (hy : Hw.Within m a y.2) :
    Hw.Within m a (if p then x else y).2 := by split <;> assumption

theorem Hw.Within.let1 {c d x : Hw} (e : x = c) (h : Hw.Within m a c) (k : Hw.Within m a x → Hw.Within m a d) :
    Hw.Within m a d := k (e ▸ h)

theorem Hw.Within.let2 {β : Type} {d : Hw} {x c : β × Hw} (e : x = c) (h : Hw.Within m a c.2)
    (k : Hw.Within m a x.2 → Hw.Within m a d) : Hw.Within m a d := k (e ▸ h)

theorem Hw.Within.let3 {β γ : Type} {d : Hw} {x c : β × γ × Hw} (e : x = c) (h : Hw.Within m a c.2.2)
    (k : Hw.Within m a x.2.2 → Hw.Within m a d) : Hw.Within m a d := k (e ▸ h)

/-- A local function. -/
theorem Hw.Within.letFn {d : Hw} {x c : Hw → Hw} (e : x = c) (h : ∀ y, Hw.Within m a y → Hw.Within m a (c y))
    (k : (∀ y, Hw.Within m a y → Hw.Within m a (x y)) → Hw.Within m a d) : Hw.Within m a d := k (e ▸ h)

theorem Hw.Within.letFnL {α : Type} {d : Hw} {x c : Hw → α → Hw} (e : x = c) (h : ∀ y z, Hw.Within m a y → Hw.Within m a (c y z))
    (k : (∀ y z, Hw.Within m a y → Hw.Within m a (x y z)) → Hw.Within m a d) : Hw.Within m a d := k (e ▸ h)

theorem Hw.Within.letFnL2 {α β : Type} {d : Hw} {x c : Hw → α → β → Hw} (e : x = c)
    (h : ∀ y z w, Hw.Within m a y → Hw.Within m a (c y z w))
    (k : (∀ y z w, Hw.Within m a y → Hw.Within m a (x y z w)) → Hw.Within m a d) : Hw.Within m a d := k (e ▸ h)

theorem Hw.Within.letFnR {α : Type} {d : Hw} {x c : α → Hw → Hw} (e : x = c) (h : ∀ z y, Hw.Within m a y → Hw.Within m a (c z y))
    (k : (∀ z y, Hw.Within m a y → Hw.Within m a (x z y)) → Hw.Within m a d) : Hw.Within m a d := k (e ▸ h)

theorem Hw.Within.letFnV {α : Type} {d : Hw} {x c : α → Hw} (e : x = c) (h : ∀ z, Hw.Within m a (c z))
    (k : (∀ z, Hw.Within m a (x z)) → Hw.Within m a d) : Hw.Within m a d := k (e ▸ h)

theorem Hw.Within.letMem {d : Hw} {x c : MemSt} (_ : x = c) (k : Hw.Within m a d) : Hw.Within m a d := k

theorem Hw.Within.letCar {d : Hw} {x c : CarSt} (_ : x = c) (k : Hw.Within m a d) : Hw.Within m a d := k

theorem Hw.Within.snd {β : Type} {p : β × Hw} {x : β} {d : Hw} (e : p = (x, c)) (h : Hw.Within m a p.2)
    (k : Hw.Within m a c → Hw.Within m a d) : Hw.Within m a d := by
  rw [e] at h; exact k h

theorem Hw.Within.trd {β γ : Type} {p : β × γ × Hw} {x : β} {y : γ} {d : Hw} (e : p = (x, y, c)) (h : Hw.Within m a p.2.2)
    (k : Hw.Within m a c → Hw.Within m a d) : Hw.Within m a d := by
  rw [e] at h; exact k h

theorem Hw.tidy_iff (h : Hw) : h.tidy = true ↔ Table.wf odDefault h.od = true ∧ Table.wf (fun _ => 0) h.timers = true ∧
    Table.wf h.dramDefault h.mem.dram = true ∧ Table.wf (fun _ => 0) h.mem.spare = true ∧ Table.wf (fun _ => 0) h.car.staging = true := by
  simp only [Hw.tidy, Bool.and_eq_true, and_assoc]

/-! ### One field written: named, so that a law can be found by it -/

def Hw.putNow (e : Hw) (x : Nat) : Hw := { e with now := x }

theorem Hw.mk_now (e : Hw) (x : Nat) : { e with now := x } = e.putNow x := rfl

theorem Hw.putNow_within (e : Hw) (x : Nat) : Hw.Within 1 e (e.putNow x) := by
  refine ⟨fun i hi => ?_, id⟩
  match i with
  | 0 => exact absurd hi (by decide)
  | 1 | 2 | 3 | 4 | 5 | 6 | 7 | 8 | 9 | 10 | 11 | 12 | 13 | 14 | 15 | 16 | 17 | 18 | 19 | 20 | 21 | 23 => rfl
  | 22 => exact ⟨rfl, rfl, rfl⟩
  | _ + 24 => exact fun _ _ => rfl

def Hw.putDrawn (e : Hw) (x : Nat) : Hw := { e with drawn := x }

theorem Hw.mk_drawn (e : Hw) (x : Nat) : { e with drawn := x } = e.putDrawn x := rfl

theorem Hw.putDrawn_within (e : Hw) (x : Nat) : Hw.Within 2 e (e.putDrawn x) := by
  refine ⟨fun i hi => ?_, id⟩
  match i with
  | 1 => exact absurd hi (by decide)
  | 0 | 2 | 3 | 4 | 5 | 6 | 7 | 8 | 9 | 10 | 11 | 12 | 13 | 14 | 15 | 16 | 17 | 18 | 19 | 20 | 21 | 23 => rfl
  | 22 => exact ⟨rfl, rfl, rfl⟩
  | _ + 24 => exact fun _ _ => rfl

def Hw.putOd (e : Hw) (x : Table Nat) : Hw := { e with od := x }

theorem Hw.mk_od (e : Hw) (x : Table Nat) : { e with od := x } = e.putOd x := rfl

def Hw.putOdMs (e : Hw) (x : Table Nat) : Hw := { e with odMs := x }

theorem Hw.mk_odMs (e : Hw) (x : Table Nat) : { e with odMs := x } = e.putOdMs x := rfl

theorem Hw.putOdMs_within (e : Hw) (x : Table Nat) : Hw.Within 8 e (e.putOdMs x) := by
  refine ⟨fun i hi => ?_, id⟩
  match i with
  | 3 => exact absurd hi (by decide)
  | 0 | 1 | 2 | 4 | 5 | 6 | 7 | 8 | 9 | 10 | 11 | 12 | 13 | 14 | 15 | 16 | 17 | 18 | 19 | 20 | 21 | 23 => rfl
  | 22 => exact ⟨rfl, rfl, rfl⟩
  | _ + 24 => exact fun _ _ => rfl

def Hw.putOdPace (e : Hw) (x : Table Nat) : Hw := { e with odPace := x }

theorem Hw.mk_odPace (e : Hw) (x : Table Nat) : { e with odPace := x } = e.putOdPace x := rfl

theorem Hw.putOdPace_within (e : Hw) (x : Table Nat) : Hw.Within 16 e (e.putOdPace x) := by
  refine ⟨fun i hi => ?_, id⟩
  match i with
  | 4 => exact absurd hi (by decide)
  | 0 | 1 | 2 | 3 | 5 | 6 | 7 | 8 | 9 | 10 | 11 | 12 | 13 | 14 | 15 | 16 | 17 | 18 | 19 | 20 | 21 | 23 => rfl
  | 22 => exact ⟨rfl, rfl, rfl⟩
  | _ + 24 => exact fun _ _ => rfl

def Hw.putOdPower (e : Hw) (x : Table Nat) : Hw := { e with odPower := x }

theorem Hw.mk_odPower (e : Hw) (x : Table Nat) : { e with odPower := x } = e.putOdPower x := rfl

theorem Hw.putOdPower_within (e : Hw) (x : Table Nat) : Hw.Within 32 e (e.putOdPower x) := by
  refine ⟨fun i hi => ?_, id⟩
  match i with
  | 5 => exact absurd hi (by decide)
  | 0 | 1 | 2 | 3 | 4 | 6 | 7 | 8 | 9 | 10 | 11 | 12 | 13 | 14 | 15 | 16 | 17 | 18 | 19 | 20 | 21 | 23 => rfl
  | 22 => exact ⟨rfl, rfl, rfl⟩
  | _ + 24 => exact fun _ _ => rfl

def Hw.putTimers (e : Hw) (x : Table Nat) : Hw := { e with timers := x }

theorem Hw.mk_timers (e : Hw) (x : Table Nat) : { e with timers := x } = e.putTimers x := rfl

def Hw.putCntPending (e : Hw) (x : Option (Nat × Nat)) : Hw := { e with cntPending := x }

theorem Hw.mk_cntPending (e : Hw) (x : Option (Nat × Nat)) : { e with cntPending := x } = e.putCntPending x := rfl

theorem Hw.putCntPending_within (e : Hw) (x : Option (Nat × Nat)) : Hw.Within 128 e (e.putCntPending x) := by
  refine ⟨fun i hi => ?_, id⟩
  match i with
  | 7 => exact absurd hi (by decide)
  | 0 | 1 | 2 | 3 | 4 | 5 | 6 | 8 | 9 | 10 | 11 | 12 | 13 | 14 | 15 | 16 | 17 | 18 | 19 | 20 | 21 | 23 => rfl
  | 22 => exact ⟨rfl, rfl, rfl⟩
  | _ + 24 => exact fun _ _ => rfl

def Hw.putLfsr (e : Hw) (x : BitVec 32) : Hw := { e with lfsr := x }

theorem Hw.mk_lfsr (e : Hw) (x : BitVec 32) : { e with lfsr := x } = e.putLfsr x := rfl

theorem Hw.putLfsr_within (e : Hw) (x : BitVec 32) : Hw.Within 256 e (e.putLfsr x) := by
  refine ⟨fun i hi => ?_, id⟩
  match i with
  | 8 => exact absurd hi (by decide)
  | 0 | 1 | 2 | 3 | 4 | 5 | 6 | 7 | 9 | 10 | 11 | 12 | 13 | 14 | 15 | 16 | 17 | 18 | 19 | 20 | 21 | 23 => rfl
  | 22 => exact ⟨rfl, rfl, rfl⟩
  | _ + 24 => exact fun _ _ => rfl

def Hw.putTap (e : Hw) (x : Tap) : Hw := { e with tap := x }

theorem Hw.mk_tap (e : Hw) (x : Tap) : { e with tap := x } = e.putTap x := rfl

theorem Hw.putTap_within (e : Hw) (x : Tap) : Hw.Within 512 e (e.putTap x) := by
  refine ⟨fun i hi => ?_, id⟩
  match i with
  | 9 => exact absurd hi (by decide)
  | 0 | 1 | 2 | 3 | 4 | 5 | 6 | 7 | 8 | 10 | 11 | 12 | 13 | 14 | 15 | 16 | 17 | 18 | 19 | 20 | 21 | 23 => rfl
  | 22 => exact ⟨rfl, rfl, rfl⟩
  | _ + 24 => exact fun _ _ => rfl

def Hw.putBoot (e : Hw) (x : Boot) : Hw := { e with boot := x }

theorem Hw.mk_boot (e : Hw) (x : Boot) : { e with boot := x } = e.putBoot x := rfl

theorem Hw.putBoot_within (e : Hw) (x : Boot) : Hw.Within 1024 e (e.putBoot x) := by
  refine ⟨fun i hi => ?_, id⟩
  match i with
  | 10 => exact absurd hi (by decide)
  | 0 | 1 | 2 | 3 | 4 | 5 | 6 | 7 | 8 | 9 | 11 | 12 | 13 | 14 | 15 | 16 | 17 | 18 | 19 | 20 | 21 | 23 => rfl
  | 22 => exact ⟨rfl, rfl, rfl⟩
  | _ + 24 => exact fun _ _ => rfl

def Hw.putLnk (e : Hw) (x : LinkSt) : Hw := { e with lnk := x }

theorem Hw.mk_lnk (e : Hw) (x : LinkSt) : { e with lnk := x } = e.putLnk x := rfl

theorem Hw.putLnk_within (e : Hw) (x : LinkSt) : Hw.Within 2048 e (e.putLnk x) := by
  refine ⟨fun i hi => ?_, id⟩
  match i with
  | 11 => exact absurd hi (by decide)
  | 0 | 1 | 2 | 3 | 4 | 5 | 6 | 7 | 8 | 9 | 10 | 12 | 13 | 14 | 15 | 16 | 17 | 18 | 19 | 20 | 21 | 23 => rfl
  | 22 => exact ⟨rfl, rfl, rfl⟩
  | _ + 24 => exact fun _ _ => rfl

def Hw.putReq (e : Hw) (x : ReqSt) : Hw := { e with req := x }

theorem Hw.mk_req (e : Hw) (x : ReqSt) : { e with req := x } = e.putReq x := rfl

theorem Hw.putReq_within (e : Hw) (x : ReqSt) : Hw.Within 4096 e (e.putReq x) := by
  refine ⟨fun i hi => ?_, id⟩
  match i with
  | 12 => exact absurd hi (by decide)
  | 0 | 1 | 2 | 3 | 4 | 5 | 6 | 7 | 8 | 9 | 10 | 11 | 13 | 14 | 15 | 16 | 17 | 18 | 19 | 20 | 21 | 23 => rfl
  | 22 => exact ⟨rfl, rfl, rfl⟩
  | _ + 24 => exact fun _ _ => rfl

def Hw.putSl (e : Hw) (x : SliceSt) : Hw := { e with sl := x }

theorem Hw.mk_sl (e : Hw) (x : SliceSt) : { e with sl := x } = e.putSl x := rfl

theorem Hw.putSl_within (e : Hw) (x : SliceSt) : Hw.Within 8192 e (e.putSl x) := by
  refine ⟨fun i hi => ?_, id⟩
  match i with
  | 13 => exact absurd hi (by decide)
  | 0 | 1 | 2 | 3 | 4 | 5 | 6 | 7 | 8 | 9 | 10 | 11 | 12 | 14 | 15 | 16 | 17 | 18 | 19 | 20 | 21 | 23 => rfl
  | 22 => exact ⟨rfl, rfl, rfl⟩
  | _ + 24 => exact fun _ _ => rfl

def Hw.putMem (e : Hw) (x : MemSt) : Hw := { e with mem := x }

theorem Hw.mk_mem (e : Hw) (x : MemSt) : { e with mem := x } = e.putMem x := rfl

def Hw.putCoh (e : Hw) (x : CohSt) : Hw := { e with coh := x }

theorem Hw.mk_coh (e : Hw) (x : CohSt) : { e with coh := x } = e.putCoh x := rfl

theorem Hw.putCoh_within (e : Hw) (x : CohSt) : Hw.Within 32768 e (e.putCoh x) := by
  refine ⟨fun i hi => ?_, id⟩
  match i with
  | 15 => exact absurd hi (by decide)
  | 0 | 1 | 2 | 3 | 4 | 5 | 6 | 7 | 8 | 9 | 10 | 11 | 12 | 13 | 14 | 16 | 17 | 18 | 19 | 20 | 21 | 23 => rfl
  | 22 => exact ⟨rfl, rfl, rfl⟩
  | _ + 24 => exact fun _ _ => rfl

def Hw.putCar (e : Hw) (x : CarSt) : Hw := { e with car := x }

theorem Hw.mk_car (e : Hw) (x : CarSt) : { e with car := x } = e.putCar x := rfl

def Hw.putRed (e : Hw) (x : RedSt) : Hw := { e with red := x }

theorem Hw.mk_red (e : Hw) (x : RedSt) : { e with red := x } = e.putRed x := rfl

theorem Hw.putRed_within (e : Hw) (x : RedSt) : Hw.Within 131072 e (e.putRed x) := by
  refine ⟨fun i hi => ?_, id⟩
  match i with
  | 17 => exact absurd hi (by decide)
  | 0 | 1 | 2 | 3 | 4 | 5 | 6 | 7 | 8 | 9 | 10 | 11 | 12 | 13 | 14 | 15 | 16 | 18 | 19 | 20 | 21 | 23 => rfl
  | 22 => exact ⟨rfl, rfl, rfl⟩
  | _ + 24 => exact fun _ _ => rfl

def Hw.putPar (e : Hw) (x : ParSt) : Hw := { e with par := x }

theorem Hw.mk_par (e : Hw) (x : ParSt) : { e with par := x } = e.putPar x := rfl

theorem Hw.putPar_within (e : Hw) (x : ParSt) : Hw.Within 262144 e (e.putPar x) := by
  refine ⟨fun i hi => ?_, id⟩
  match i with
  | 18 => exact absurd hi (by decide)
  | 0 | 1 | 2 | 3 | 4 | 5 | 6 | 7 | 8 | 9 | 10 | 11 | 12 | 13 | 14 | 15 | 16 | 17 | 19 | 20 | 21 | 23 => rfl
  | 22 => exact ⟨rfl, rfl, rfl⟩
  | _ + 24 => exact fun _ _ => rfl

def Hw.putPair (e : Hw) (x : PairSt) : Hw := { e with pair := x }

theorem Hw.mk_pair (e : Hw) (x : PairSt) : { e with pair := x } = e.putPair x := rfl

theorem Hw.putPair_within (e : Hw) (x : PairSt) : Hw.Within 524288 e (e.putPair x) := by
  refine ⟨fun i hi => ?_, id⟩
  match i with
  | 19 => exact absurd hi (by decide)
  | 0 | 1 | 2 | 3 | 4 | 5 | 6 | 7 | 8 | 9 | 10 | 11 | 12 | 13 | 14 | 15 | 16 | 17 | 18 | 20 | 21 | 23 => rfl
  | 22 => exact ⟨rfl, rfl, rfl⟩
  | _ + 24 => exact fun _ _ => rfl

def Hw.putSec (e : Hw) (x : SecSt) : Hw := { e with sec := x }

theorem Hw.mk_sec (e : Hw) (x : SecSt) : { e with sec := x } = e.putSec x := rfl

theorem Hw.putSec_within (e : Hw) (x : SecSt) : Hw.Within 1048576 e (e.putSec x) := by
  refine ⟨fun i hi => ?_, id⟩
  match i with
  | 20 => exact absurd hi (by decide)
  | 0 | 1 | 2 | 3 | 4 | 5 | 6 | 7 | 8 | 9 | 10 | 11 | 12 | 13 | 14 | 15 | 16 | 17 | 18 | 19 | 21 | 23 => rfl
  | 22 => exact ⟨rfl, rfl, rfl⟩
  | _ + 24 => exact fun _ _ => rfl

def Hw.putMsg (e : Hw) (x : MsgSt) : Hw := { e with msg := x }

theorem Hw.mk_msg (e : Hw) (x : MsgSt) : { e with msg := x } = e.putMsg x := rfl

theorem Hw.putMsg_within (e : Hw) (x : MsgSt) : Hw.Within 2097152 e (e.putMsg x) := by
  refine ⟨fun i hi => ?_, id⟩
  match i with
  | 21 => exact absurd hi (by decide)
  | 0 | 1 | 2 | 3 | 4 | 5 | 6 | 7 | 8 | 9 | 10 | 11 | 12 | 13 | 14 | 15 | 16 | 17 | 18 | 19 | 20 | 23 => rfl
  | 22 => exact ⟨rfl, rfl, rfl⟩
  | _ + 24 => exact fun _ _ => rfl

theorem Hw.putOd_within (e : Hw) (x : Table Nat) (m : Nat) (hm : m.testBit 2 = true)
    (hk : ∀ k, m.testBit (24 + keyNo k) = false → Table.atD x odDefault k = Table.atD e.od odDefault k)
    (hx : Table.wf odDefault e.od = true → Table.wf odDefault x = true) : Hw.Within m e (e.putOd x) := by
  refine ⟨fun i hi => ?_, fun h => ?_⟩
  · match i with
    | 2 => rw [hm] at hi; exact absurd hi (by decide)
    | 0 | 1 | 3 | 4 | 5 | 6 | 7 | 8 | 9 | 10 | 11 | 12 | 13 | 14 | 15 | 16 | 17 | 18 | 19 | 20 | 21 | 23 => rfl
    | 22 => exact ⟨rfl, rfl, rfl⟩
    | n + 24 => exact fun k e => hk k (by rw [e, Nat.add_comm]; exact hi)
  · rw [Hw.tidy_iff] at h ⊢
    exact ⟨hx h.1, h.2⟩

/-- Registers dropped back to their reset values. -/
theorem Hw.resetRegs_only (h : Hw) (p : Nat → Bool) (m : Nat) (hm : m.testBit 2 = true)
    (hp : ∀ k, p k = true → m.testBit (24 + keyNo k) = true) : Hw.Within m h (h.resetRegs p) := by
  refine Hw.putOd_within _ _ _ hm (fun k hk => ?_) (fun h => Table.wf_drop _ _ _ h)
  unfold Table.atD
  rw [Table.look_drop, if_neg]
  intro c
  rw [hp k c] at hk
  exact absurd hk (by decide)

theorem Reg.mask_two (r : Reg) : r.mask.testBit 2 = true := by
  rw [Reg.mask, Nat.testBit_or]; rfl

theorem Reg.mask_self (r : Reg) : r.mask.testBit (24 + r.no) = true := by
  rw [Reg.mask, twoPow_eq, Nat.testBit_or, Nat.testBit_two_pow_self, Bool.or_true]

/-- Does `f` hold of every code and number. -/
def RegTree.all (f : Nat → Nat → Bool) : RegTree → Bool
  | .leaf c n => f c n
  | .node _ l r => l.all f && r.all f

theorem RegTree.find_all (t : RegTree) (f : Nat → Nat → Bool) (k : Nat) (h : t.all f = true) :
    t.find k = 381 ∨ f k (t.find k) = true := by
  induction t with
  | leaf c n =>
    unfold RegTree.find
    cases e : Nat.beq k c
    · exact .inl rfl
    · right
      rw [Nat.eq_of_beq_eq_true e]
      exact h
  | node p l r hl hr =>
    have h' : l.all f = true ∧ r.all f = true := by simpa [RegTree.all] using h
    unfold RegTree.find
    cases Nat.blt k p
    · exact hr h'.2
    · exact hl h'.1

/-- Registers of one kind have their bits in `m`, and so has every register the dictionary lacks. -/
theorem Reg.bits_of (m : Nat) (q : Reg → Bool) (hu : m.testBit (24 + 381) = true)
    (h : regTree.all (fun c n => !q ⟨c / 256, c % 256⟩ || m.testBit (24 + n)) = true) (k : Nat) (hk : q (keyReg k) = true) :
    m.testBit (24 + keyNo k) = true := by
  unfold keyNo Reg.no
  have hs : (keyReg k).sub < 256 := Nat.mod_lt _ (by decide)
  rcases RegTree.find_all _ _ ((keyReg k).index * 256 + (keyReg k).sub % 256) h with e | e
  · rw [e]; exact hu
  · have e2 : (⟨((keyReg k).index * 256 + (keyReg k).sub % 256) / 256, ((keyReg k).index * 256 + (keyReg k).sub % 256) % 256⟩ : Reg)
        = keyReg k := by
      cases hr : keyReg k with
      | mk x y =>
        rw [hr] at hs
        simp only [Reg.mk.injEq] at hs ⊢
        omega
    rw [e2, hk] at e
    simpa using e

theorem mask_of (x y : Nat) (h : ∀ i, x.testBit i = true → y.testBit i = true) : x &&& y = x := by
  apply Nat.eq_of_testBit_eq
  intro i
  rw [Nat.testBit_and]
  cases e : x.testBit i with
  | false => rfl
  | true => exact h i e

theorem mask_r (x y : Nat) : y &&& (x ||| y) = y := mask_of _ _ (fun i h => by simp [Nat.testBit_or, h])
theorem mask_l1 (x y : Nat) : x &&& (x ||| y) = x := mask_of _ _ (fun i h => by simp [Nat.testBit_or, h])
theorem mask_m (x y z : Nat) : y &&& (x ||| y ||| z) = y := mask_of _ _ (fun i h => by simp [Nat.testBit_or, h])
theorem mask_l (x y z : Nat) : x &&& (x ||| y ||| z) = x := mask_of _ _ (fun i h => by simp [Nat.testBit_or, h])

theorem Reg.mask_any (r : Reg) (m : Nat) (h : 165263992197562149737978827008192759957101170741070304821162198818601447809077836456297302609928821211897803006255822798852 &&& m = 165263992197562149737978827008192759957101170741070304821162198818601447809077836456297302609928821211897803006255822798852) : r.mask &&& m = r.mask := by
  refine mask_of _ _ (fun i hi => ?_)
  have key : ∀ j, (165263992197562149737978827008192759957101170741070304821162198818601447809077836456297302609928821211897803006255822798852 : Nat).testBit j = true → m.testBit j = true := by
    intro j hj
    rw [← h, Nat.testBit_and, Bool.and_eq_true] at hj
    exact hj.2
  rw [Reg.mask, twoPow_eq, Nat.testBit_or, Bool.or_eq_true] at hi
  rcases hi with hi | hi
  · have : i = 2 := by
      have h4 : (4 : Nat) = 2 ^ 2 := rfl
      rw [h4, Nat.testBit_two_pow] at hi
      exact (of_decide_eq_true hi).symm
    subst this
    exact key 2 (by decide)
  · rw [Nat.testBit_two_pow] at hi
    have e : 24 + r.no = i := of_decide_eq_true hi
    subst e
    have := (Reg.bits_of 165263992197562149737978827008192759957101170741070304821162198818601447809077836456297302609928821211897803006255822798852 (fun _ => true) (by decide) (by decide) (odKey r 0 0) rfl)
    rw [keyNo_odKey] at this
    exact key _ this

theorem Reg.mask_bit (r : Reg) (k : Nat) (h : r.mask.testBit (24 + keyNo k) = false) : keyNo k ≠ r.no := by
  intro e
  rw [Reg.mask, twoPow_eq, Nat.testBit_or, e, Nat.testBit_two_pow_self] at h
  simp at h

theorem Hw.putTimers_within (e : Hw) (x : Table Nat) (hx : Table.wf (fun _ => 0) e.timers = true → Table.wf (fun _ => 0) x = true) :
    Hw.Within 64 e (e.putTimers x) := by
  refine ⟨fun i hi => ?_, fun h => ?_⟩
  · match i with
    | 6 => exact absurd hi (by decide)
    | 0 | 1 | 2 | 3 | 4 | 5 | 7 | 8 | 9 | 10 | 11 | 12 | 13 | 14 | 15 | 16 | 17 | 18 | 19 | 20 | 21 | 23 => rfl
    | 22 => exact ⟨rfl, rfl, rfl⟩
    | _ + 24 => exact fun _ _ => rfl
  · rw [Hw.tidy_iff] at h ⊢
    exact ⟨h.1, hx h.2.1, h.2.2⟩

/-- A change of the buffers beside the DRAM. -/
theorem Hw.putMem_within (e : Hw) (x : MemSt) (hx : x.dram = e.mem.dram ∧ x.fills = e.mem.fills ∧ x.spare = e.mem.spare) :
    Hw.Within 16384 e (e.putMem x) := by
  refine ⟨fun i hi => ?_, fun h => ?_⟩
  · match i with
    | 14 => exact absurd hi (by decide)
    | 0 | 1 | 2 | 3 | 4 | 5 | 6 | 7 | 8 | 9 | 10 | 11 | 12 | 13 | 15 | 16 | 17 | 18 | 19 | 20 | 21 | 23 => rfl
    | 22 => exact hx
    | _ + 24 => exact fun _ _ => rfl
  · rw [Hw.tidy_iff] at h ⊢
    have hd : (e.putMem x).dramDefault = e.dramDefault := by
      funext k; simp only [Hw.putMem, Hw.dramDefault, Hw.filledWord, hx.2.1]
    refine ⟨h.1, h.2.1, ?_, ?_, h.2.2.2.2⟩
    · rw [hd]; simp only [Hw.putMem, hx.1]; exact h.2.2.1
    · simp only [Hw.putMem, hx.2.2]; exact h.2.2.2.1

/-- A change of the engines beside their staging. -/
theorem Hw.putCar_within (e : Hw) (x : CarSt) (hx : x.staging = e.car.staging) : Hw.Within 65536 e (e.putCar x) := by
  refine ⟨fun i hi => ?_, fun h => ?_⟩
  · match i with
    | 16 => exact absurd hi (by decide)
    | 0 | 1 | 2 | 3 | 4 | 5 | 6 | 7 | 8 | 9 | 10 | 11 | 12 | 13 | 14 | 15 | 17 | 18 | 19 | 20 | 21 => rfl
    | 22 => exact ⟨rfl, rfl, rfl⟩
    | 23 => exact hx
    | _ + 24 => exact fun _ _ => rfl
  · rw [Hw.tidy_iff] at h ⊢
    refine ⟨h.1, h.2.1, h.2.2.1, h.2.2.2.1, ?_⟩
    simp only [Hw.putCar, hx]; exact h.2.2.2.2

theorem Hw.Within.stepMem {x : MemSt} (hx : x.dram = b.mem.dram ∧ x.fills = b.mem.fills ∧ x.spare = b.mem.spare)
    (hm : 16384 &&& m = 16384) (h : Hw.Within m a b) : Hw.Within m a (b.putMem x) := (Hw.putMem_within b x hx).step hm h

theorem Hw.Within.stepCar {x : CarSt} (hx : x.staging = b.car.staging) (hm : 65536 &&& m = 65536) (h : Hw.Within m a b) :
    Hw.Within m a (b.putCar x) := (Hw.putCar_within b x hx).step hm h

/-- A change of the DRAM too, where its tables stay canonical. -/
theorem Hw.Within.stepDram {x : MemSt} (hd : Table.wf b.dramDefault b.mem.dram = true → Table.wf (b.putMem x).dramDefault x.dram = true)
    (hs : Table.wf (fun _ => 0) b.mem.spare = true → Table.wf (fun _ => 0) x.spare = true)
    (hm : 4210688 &&& m = 4210688) (h : Hw.Within m a b) : Hw.Within m a (b.putMem x) := by
  refine Hw.Within.step (n := 4210688) ⟨fun i hi => ?_, fun ht => ?_⟩ hm h
  · match i with
    | 14 => exact absurd hi (by decide)
    | 22 => exact absurd hi (by decide)
    | 0 | 1 | 2 | 3 | 4 | 5 | 6 | 7 | 8 | 9 | 10 | 11 | 12 | 13 | 15 | 16 | 17 | 18 | 19 | 20 | 21 | 23 => rfl
    | _ + 24 => exact fun _ _ => rfl
  · rw [Hw.tidy_iff] at ht ⊢
    exact ⟨ht.1, ht.2.1, hd ht.2.2.1, hs ht.2.2.2.1, ht.2.2.2.2⟩

/-- A change of the DRAM and nothing beside it. -/
theorem Hw.Within.onlyDram {x : MemSt} (hx : x = { b.mem with dram := x.dram, fills := x.fills, spare := x.spare })
    (hd : Table.wf b.dramDefault b.mem.dram = true → Table.wf (b.putMem x).dramDefault x.dram = true)
    (hs : Table.wf (fun _ => 0) b.mem.spare = true → Table.wf (fun _ => 0) x.spare = true) :
    Hw.Within 4194304 b (b.putMem x) := by
  refine ⟨fun i hi => ?_, fun ht => ?_⟩
  · match i with
    | 14 => exact hx
    | 22 => exact absurd hi (by decide)
    | 0 | 1 | 2 | 3 | 4 | 5 | 6 | 7 | 8 | 9 | 10 | 11 | 12 | 13 | 15 | 16 | 17 | 18 | 19 | 20 | 21 | 23 => rfl
    | _ + 24 => exact fun _ _ => rfl
  · rw [Hw.tidy_iff] at ht ⊢
    exact ⟨ht.1, ht.2.1, hd ht.2.2.1, hs ht.2.2.2.1, ht.2.2.2.2⟩

/-- A change of the staging and nothing beside it. -/
theorem Hw.Within.onlyStaging {x : CarSt} (hx : x = { b.car with staging := x.staging })
    (hs : Table.wf (fun _ => 0) b.car.staging = true → Table.wf (fun _ => 0) x.staging = true) :
    Hw.Within 8388608 b (b.putCar x) := by
  refine ⟨fun i hi => ?_, fun ht => ?_⟩
  · match i with
    | 16 => exact hx
    | 23 => exact absurd hi (by decide)
    | 0 | 1 | 2 | 3 | 4 | 5 | 6 | 7 | 8 | 9 | 10 | 11 | 12 | 13 | 14 | 15 | 17 | 18 | 19 | 20 | 21 => rfl
    | 22 => exact ⟨rfl, rfl, rfl⟩
    | _ + 24 => exact fun _ _ => rfl
  · rw [Hw.tidy_iff] at ht ⊢
    exact ⟨ht.1, ht.2.1, ht.2.2.1, ht.2.2.2.1, hs ht.2.2.2.2⟩

/-- A change of the engines and their staging. -/
theorem Hw.Within.stepStaging {x : CarSt} (hs : Table.wf (fun _ => 0) b.car.staging = true → Table.wf (fun _ => 0) x.staging = true)
    (hm : 8454144 &&& m = 8454144) (h : Hw.Within m a b) : Hw.Within m a (b.putCar x) := by
  refine Hw.Within.step (n := 8454144) ⟨fun i hi => ?_, fun ht => ?_⟩ hm h
  · match i with
    | 16 | 23 => exact absurd hi (by decide)
    | 0 | 1 | 2 | 3 | 4 | 5 | 6 | 7 | 8 | 9 | 10 | 11 | 12 | 13 | 14 | 15 | 17 | 18 | 19 | 20 | 21 => rfl
    | 22 => exact ⟨rfl, rfl, rfl⟩
    | _ + 24 => exact fun _ _ => rfl
  · rw [Hw.tidy_iff] at ht ⊢
    exact ⟨ht.1, ht.2.1, ht.2.2.1, ht.2.2.2.1, hs ht.2.2.2.2⟩

theorem RegTree.find_le (t : RegTree) (k m : Nat) (ht : t.max ≤ m) (hm : 381 ≤ m) : t.find k ≤ m := by
  induction t with
  | leaf c n =>
    unfold RegTree.find
    cases Nat.beq k c
    · exact hm
    · exact ht
  | node p l r hl hr =>
    have h1 : l.max ≤ m := le_trans (le_max_left _ _) ht
    have h2 : r.max ≤ m := le_trans (le_max_right _ _) ht
    unfold RegTree.find
    cases Nat.blt k p
    · exact hr h2
    · exact hl h1

theorem regTree_find_le (k : Nat) : regTree.find k ≤ 381 := RegTree.find_le _ _ _ (by decide) le_rfl

/-- Every part may change. -/
theorem Hw.Frame.all (a b : Hw) : Hw.Frame (twoPow 406 - 1) a b := by
  intro i hi
  match i with
  | 0 | 1 | 2 | 3 | 4 | 5 | 6 | 7 | 8 | 9 | 10 | 11 | 12 | 13 | 14 | 15 | 16 | 17 | 18 | 19 | 20 | 21 | 22 | 23 => exact absurd hi (by decide)
  | n + 24 =>
    intro k hk
    have hn : n ≤ 381 := by rw [← hk]; exact regTree_find_le _
    rw [twoPow_eq, Nat.testBit_two_pow_sub_one] at hi
    exact absurd (by omega : n + 24 < 406) (by simpa using hi)

/-! ### Several fields written at once -/

theorem Hw.mk_now_boot (e : Hw) (x0 : Nat) (x1 : Boot) :
    { e with now := x0, boot := x1 } = (e.putNow x0).putBoot x1 := rfl

theorem Hw.mk_sl_mem_coh (e : Hw) (x0 : SliceSt) (x1 : MemSt) (x2 : CohSt) :
    { e with sl := x0, mem := x1, coh := x2 } = ((e.putSl x0).putMem x1).putCoh x2 := rfl

theorem Hw.mk_car_msg (e : Hw) (x0 : CarSt) (x1 : MsgSt) :
    { e with car := x0, msg := x1 } = (e.putCar x0).putMsg x1 := rfl

theorem Hw.mk_car_par (e : Hw) (x0 : CarSt) (x1 : ParSt) :
    { e with car := x0, par := x1 } = (e.putCar x0).putPar x1 := rfl

theorem Hw.mk_sec_msg (e : Hw) (x0 : SecSt) (x1 : MsgSt) :
    { e with sec := x0, msg := x1 } = (e.putSec x0).putMsg x1 := rfl

theorem Hw.mk_pair_msg (e : Hw) (x0 : PairSt) (x1 : MsgSt) :
    { e with pair := x0, msg := x1 } = (e.putPair x0).putMsg x1 := rfl

theorem Hw.mk_drawn_pair (e : Hw) (x0 : Nat) (x1 : PairSt) :
    { e with drawn := x0, pair := x1 } = (e.putDrawn x0).putPair x1 := rfl

theorem Hw.mk_tap_boot (e : Hw) (x0 : Tap) (x1 : Boot) :
    { e with tap := x0, boot := x1 } = (e.putTap x0).putBoot x1 := rfl

theorem Hw.mk_req_sec (e : Hw) (x0 : ReqSt) (x1 : SecSt) :
    { e with req := x0, sec := x1 } = (e.putReq x0).putSec x1 := rfl

theorem Hw.mk_car_sec (e : Hw) (x0 : CarSt) (x1 : SecSt) :
    { e with car := x0, sec := x1 } = (e.putCar x0).putSec x1 := rfl

theorem Hw.mk_timers_lnk_req_red (e : Hw) (x0 : Table Nat) (x1 : LinkSt) (x2 : ReqSt) (x3 : RedSt) :
    { e with timers := x0, lnk := x1, req := x2, red := x3 } = (((e.putTimers x0).putLnk x1).putReq x2).putRed x3 := rfl

theorem Hw.mk_odMs_odPace_odPower (e : Hw) (x0 : Table Nat) (x1 : Table Nat) (x2 : Table Nat) :
    { e with odMs := x0, odPace := x1, odPower := x2 } = ((e.putOdMs x0).putOdPace x1).putOdPower x2 := rfl

theorem Hw.mk_sl_coh_red_par (e : Hw) (x0 : SliceSt) (x1 : CohSt) (x2 : RedSt) (x3 : ParSt) :
    { e with sl := x0, coh := x1, red := x2, par := x3 } = (((e.putSl x0).putCoh x1).putRed x2).putPar x3 := rfl

theorem Hw.mk_sl_car (e : Hw) (x0 : SliceSt) (x1 : CarSt) :
    { e with sl := x0, car := x1 } = (e.putSl x0).putCar x1 := rfl

end Sys2Proof.Machine
end

