-- ==== Sys2Proof/Laws/Changes.lean ====
section
/-! SUPPORT. The masks of Laws/Within.lean read as the groups and registers that the statements name. -/

namespace Sys2Proof.Machine

/-- A group's bit. -/
def Part.no : Part → Nat
  | .time => 0
  | .draws => 1
  | .coarse => 3
  | .pace => 4
  | .power => 5
  | .timers => 6
  | .count => 7
  | .lfsr => 8
  | .tap => 9
  | .boot => 10
  | .links => 11
  | .requests => 12
  | .slices => 13
  | .buffers => 14
  | .coherence => 15
  | .engines => 16
  | .reductions => 17
  | .parity => 18
  | .pair => 19
  | .security => 20
  | .messages => 21
  | .dram => 22
  | .staging => 23

theorem Part.same_iff (p : Part) (a b : Hw) : p.same a b ↔ a.samePart b p.no := by
  cases p <;> exact Iff.rfl

def Part.every : List Part :=
  [.time, .draws, .coarse, .pace, .power, .timers, .count, .lfsr, .tap, .boot, .links, .requests, .slices, .buffers, .coherence,
    .engines, .reductions, .parity, .pair, .security, .messages, .dram, .staging]

theorem Part.mem_every (p : Part) : p ∈ Part.every := by cases p <;> decide

/-- Every group whose bit is in the mask is listed. -/
def partsOk (m : Nat) (ps : List Part) : Bool := Part.every.all (fun p => ps.contains p || !m.testBit p.no)

/-- Every register whose bit is in the mask is listed. -/
def regsOk (m : Nat) (rs : List Reg) : Bool := regTree.all (fun c n => rs.contains ⟨c / 256, c % 256⟩ || !m.testBit (24 + n))

theorem dictRecords_known :
    dictRecords.all (fun d => d.fields.all (fun f => decide (f.sub < 256) && !Nat.beq (regTree.find (d.index * 256 + f.sub)) 381)) = true := by
  decide

/-- A register of the dictionary has a number of its own. -/
theorem Reg.known {r : Reg} (h : (fieldOf r).isSome = true) : r.sub < 256 ∧ r.no ≠ 381 := by
  obtain ⟨f, hf⟩ := Option.isSome_iff_exists.mp h
  unfold fieldOf at hf
  obtain ⟨d, hd, hf⟩ := Option.bind_eq_some_iff.mp hf
  have hi : d.index = r.index := by
    have := List.find?_some hd
    simpa using this
  have hs : f.sub = r.sub := by
    have := List.find?_some hf
    simpa using this
  have k := List.all_eq_true.mp (List.all_eq_true.mp dictRecords_known d (List.mem_of_find?_eq_some hd)) f (List.mem_of_find?_eq_some hf)
  rw [hi, hs, Bool.and_eq_true] at k
  have k1 : r.sub < 256 := of_decide_eq_true k.1
  refine ⟨k1, fun e => ?_⟩
  have : Nat.beq r.no 381 = true := by rw [e]; rfl
  unfold Reg.no at this
  rw [Nat.mod_eq_of_lt k1] at this
  rw [this] at k
  simp at k

/-- A group outside a mask is the same. -/
theorem Hw.Within.same {m : Nat} {a b : Hw} (w : Hw.Within m a b) (p : Part) (hm : m.testBit p.no = false) : p.same a b :=
  (Part.same_iff p a b).mpr (w.frame _ hm)

/-- What a mask leaves alone, as the statements say it. -/
theorem Hw.Within.changesOnly {m : Nat} {a b : Hw} (h : Hw.Within m a b) (ps : List Part) (rs : List Reg) (hp : partsOk m ps = true)
    (hr : regsOk m rs = true) : a.ChangesOnly ps rs b := by
  refine ⟨fun p hn => ?_, fun r i e hk hn => ?_⟩
  · rw [Part.same_iff]
    refine h.frame _ ?_
    have := List.all_eq_true.mp hp p p.mem_every
    simpa [hn] using this
  · obtain ⟨h1, h2⟩ := Reg.known hk
    have hb : m.testBit (24 + r.no) = false := by
      rcases RegTree.find_all _ _ (r.index * 256 + r.sub % 256) hr with x | x
      · exact absurd x h2
      · have e2 : (⟨(r.index * 256 + r.sub % 256) / 256, (r.index * 256 + r.sub % 256) % 256⟩ : Reg) = r := by
          cases r
          simp only [Reg.mk.injEq] at *
          omega
        rw [e2] at x
        unfold Reg.no
        simpa [hn] using x
    have hf := h.frame (r.no + 24) (by rw [Nat.add_comm]; exact hb)
    exact hf (odKey r i e) (keyNo_odKey r i e)

end Sys2Proof.Machine
end

