-- ==== Sys2Proof/Laws/FrameOps.lean ====
section
/-! SUPPORT. What each operation and command of Machine/Ops.lean changes, and that it keeps canonical tables. -/

namespace Sys2Proof.Machine

theorem Hw.setElem_within (h : Hw) (r : Reg) (i : Nat) (e : Nat) (v : Nat) :
    Hw.Within r.mask h (Hw.setElem h r i e v) := by
  exact Hw.putOd_within _ _ _ (Reg.mask_two r) (fun k hk => Table.atD_setD_ne _ _ _ _ _
    (fun e => Reg.mask_bit r k hk (by rw [e, keyNo_odKey]))) (fun h => Table.wf_setD _ _ _ _ h)

theorem Hw.setReg_within (h : Hw) (r : Reg) (i : Nat) (v : Nat) :
    Hw.Within r.mask h (Hw.setReg h r i v) := by
  unfold Hw.setReg
  repeat' first
    | with_reducible apply Hw.Within.refl
    | with_reducible apply Hw.Within.step (Hw.setElem_within ..); first | decide | exact Nat.and_self _ | exact mask_r _ _ | exact mask_l _ _ _ | exact mask_m _ _ _

theorem Hw.zeroRegs_within (h : Hw) (rs : List Reg) (i : Nat) :
    Hw.Within (Reg.masks rs) h (Hw.zeroRegs h rs i) := by
  induction rs generalizing h with
  | nil => exact Hw.Within.refl _ _
  | cons r rs ih =>
    refine Hw.Within.trans (b := h.setReg r i 0) ?_ ?_
    · exact Hw.Within.step (Hw.setReg_within ..) (mask_l1 _ _) (Hw.Within.refl _ _)
    · exact Hw.Within.step (ih _) (mask_r _ _) (Hw.Within.refl _ _)

theorem Hw.addReg_within (h : Hw) (r : Reg) (i : Nat) (n : Nat) :
    Hw.Within r.mask h (Hw.addReg h r i n) := by
  unfold Hw.addReg
  repeat' first
    | with_reducible apply Hw.Within.refl
    | with_reducible apply Hw.Within.step (Hw.setReg_within ..); first | decide | exact Nat.and_self _ | exact mask_r _ _ | exact mask_l _ _ _ | exact mask_m _ _ _

theorem Hw.subReg_within (h : Hw) (r : Reg) (i : Nat) (n : Nat) :
    Hw.Within r.mask h (Hw.subReg h r i n) := by
  unfold Hw.subReg
  repeat' first
    | with_reducible apply Hw.Within.refl
    | with_reducible apply Hw.Within.step (Hw.setReg_within ..); first | decide | exact Nat.and_self _ | exact mask_r _ _ | exact mask_l _ _ _ | exact mask_m _ _ _

theorem Hw.setTimer_within (h : Hw) (kind : Nat) (i : Nat) (t : Nat) :
    Hw.Within 64 h (Hw.setTimer h kind i t) := by
  exact Hw.putTimers_within _ _ (fun h => Table.wf_setD _ _ _ _ h)

theorem Hw.satReg_within (h : Hw) (r : Reg) (i : Nat) :
    Hw.Within r.mask h (Hw.satReg h r i) := by
  unfold Hw.satReg
  repeat' first
    | with_reducible apply Hw.Within.refl
    | with_reducible apply Hw.Within.step (Hw.addReg_within ..); first | decide | exact Nat.and_self _ | exact mask_r _ _ | exact mask_l _ _ _ | exact mask_m _ _ _
    | with_reducible apply Hw.Within.ite

theorem Hw.setBit_within (h : Hw) (r : Reg) (i : Nat) (b : Nat) (v : Bool) :
    Hw.Within r.mask h (Hw.setBit h r i b v) := by
  unfold Hw.setBit
  repeat' first
    | extract_lets +onlyGivenNames v0; clear_value (e0 : v0 = _); clear e0
    | with_reducible apply Hw.Within.refl
    | with_reducible apply Hw.Within.step (Hw.setReg_within ..); first | decide | exact Nat.and_self _ | exact mask_r _ _ | exact mask_l _ _ _ | exact mask_m _ _ _

theorem Hw.setSreg_within (h : Hw) (r : Reg) (i : Nat) (v : Int) :
    Hw.Within r.mask h (Hw.setSreg h r i v) := by
  unfold Hw.setSreg
  repeat' first
    | with_reducible apply Hw.Within.refl
    | with_reducible apply Hw.Within.step (Hw.setReg_within ..); first | decide | exact Nat.and_self _ | exact mask_r _ _ | exact mask_l _ _ _ | exact mask_m _ _ _

theorem Hw.draw_within (h : Hw) (w : Nat) :
    Hw.Within 2 h (Hw.draw h w).2 := by
  unfold Hw.draw
  repeat' first
    | rw [Hw.mk_drawn]
    | with_reducible apply Hw.Within.refl
    | with_reducible apply Hw.Within.step (Hw.putDrawn_within ..); decide

theorem Hw.random_within (h : Hw) (w : Nat) :
    Hw.Within 2 h (Hw.random h w).2 := by
  unfold Hw.random
  repeat' first
    | rw [Hw.mk_drawn]
    | with_reducible apply Hw.Within.refl
    | with_reducible apply Hw.Within.step (Hw.putDrawn_within ..); decide

theorem Hw.resetRegs_within (h : Hw) (p : Nat → Bool) :
    Hw.Within 165263992197562149737978827008192759957101170741070304821162198818601447809077836456297302609928821211897803006255822798852 h (Hw.resetRegs h p) := by
  exact Hw.resetRegs_only _ _ _ (by decide) (fun k _ => Reg.bits_of _ (fun _ => true) (by decide) (by decide) k rfl)

end Sys2Proof.Machine
end

