-- ==== Sys2Proof/Laws/FrameEvents.lean ====
section
/-! SUPPORT. What each operation and command of Machine/Events.lean changes, and that it keeps canonical tables. -/

namespace Sys2Proof.Machine

theorem Hw.setPort_within (h : Hw) (n : Nat) (p : Port) :
    Hw.Within 4096 h (Hw.setPort h n p) := by
  unfold Hw.setPort
  repeat' first
    | extract_lets +onlyGivenNames v0; clear_value (e0 : v0 = _); clear e0
    | rw [Hw.mk_req]
    | with_reducible apply Hw.Within.refl
    | with_reducible apply Hw.Within.step (Hw.putReq_within ..); decide

theorem Hw.countSel_within (h : Hw) (code : Nat) (inst : Nat) (n : Nat) :
    Hw.Within 1231312693637327475383720003129487931408741852202045208373384168882678805359287831606695820465153613775207124697092 h (Hw.countSel h code inst n) := by
  unfold Hw.countSel
  repeat' first
    | intro _
    | with_reducible apply Hw.Within.refl
    | with_reducible assumption
    | with_reducible apply Hw.Within.step (Hw.setReg_within ..); decide
    | with_reducible apply Hw.Within.ite
    | with_reducible apply Hw.Within.fold

theorem Hw.markRead_within (h : Hw) (ring : Nat) (inst : Nat) (slot : Nat) (v : Bool) :
    Hw.Within 2097152 h (Hw.markRead h ring inst slot v) := by
  unfold Hw.markRead
  repeat' first
    | extract_lets +onlyGivenNames v0; clear_value (e0 : v0 = _); clear e0
    | rw [Hw.mk_msg]
    | with_reducible apply Hw.Within.refl
    | with_reducible apply Hw.Within.step (Hw.putMsg_within ..); decide

theorem Hw.ringAdvance_within (h : Hw) (ring : Nat) (inst : Nat) (size : Nat) (head : Reg) (overflow : Reg) :
    Hw.Within (2097152 ||| head.mask ||| overflow.mask) h (Hw.ringAdvance h ring inst size head overflow).2 := by
  unfold Hw.ringAdvance
  repeat' first
    | intro _
    | extract_lets +onlyGivenNames v0; clear_value (e0 : v0 = _); (first | (with_reducible apply Hw.Within.let1 e0) | clear e0)
    | with_reducible apply Hw.Within.refl
    | with_reducible assumption
    | with_reducible apply Hw.Within.step (Hw.setReg_within ..); first | decide | exact Nat.and_self _ | exact mask_r _ _ | exact mask_l _ _ _ | exact mask_m _ _ _
    | with_reducible apply Hw.Within.step (Hw.markRead_within ..); first | decide | exact Nat.and_self _ | exact mask_r _ _ | exact mask_l _ _ _ | exact mask_m _ _ _
    | with_reducible apply Hw.Within.ite

theorem Hw.countFix_within (h : Hw) (g : Nat) (e : Nat) (n : Nat) :
    Hw.Within 1404466041180076651609555628569572171763096175167957815800891317631805512362937682926387420218065840712345626607620 h (Hw.countFix h g e n) := by
  unfold Hw.countFix
  repeat' first
    | intro _
    | extract_lets +onlyGivenNames v0; clear_value (e0 : v0 = _); with_reducible apply Hw.Within.let1 e0
    | with_reducible apply Hw.Within.refl
    | with_reducible assumption
    | with_reducible apply Hw.Within.step (Hw.setElem_within ..); decide
    | with_reducible apply Hw.Within.step (Hw.countSel_within ..); decide
    | with_reducible apply Hw.Within.ite

theorem Hw.sendMs_within (h : Hw) (m : MsMsg) :
    Hw.Within 2097152 h (Hw.sendMs h m) := by
  unfold Hw.sendMs
  repeat' first
    | extract_lets +onlyGivenNames v0; clear_value (e0 : v0 = _); clear e0
    | rw [Hw.mk_msg]
    | with_reducible apply Hw.Within.refl
    | with_reducible apply Hw.Within.step (Hw.putMsg_within ..); decide

theorem Hw.routeTake_within (h : Hw) (k : Nat) (e : Event) :
    Hw.Within 1231327959164115505299701284753367062099419794138613112452543766273993764717951076561578334508643114771776834375684 h (Hw.routeTake h k e) := by
  unfold Hw.routeTake
  repeat' first
    | intro _
    | extract_lets +onlyGivenNames v0; clear_value (e0 : v0 = _); (first | (with_reducible apply Hw.Within.let1 e0) | (with_reducible apply Hw.Within.letFn e0) | clear e0)
    | rw [Hw.mk_msg]
    | with_reducible apply Hw.Within.refl
    | with_reducible assumption
    | with_reducible apply Hw.Within.step (Hw.addReg_within ..); decide
    | with_reducible apply Hw.Within.step (Hw.countSel_within ..); decide
    | with_reducible apply Hw.Within.step (Hw.setPort_within ..); decide
    | with_reducible apply Hw.Within.step (Hw.sendMs_within ..); decide
    | with_reducible apply Hw.Within.step (Hw.satReg_within ..); decide
    | with_reducible apply Hw.Within.step (Hw.putMsg_within ..); decide
    | with_reducible apply Hw.Within.ite
    | with_reducible apply Hw.Within.ite2
    | split
    | with_reducible apply_assumption -exfalso -symm

theorem Hw.nextSeq_within (h : Hw) (dest : Nat) :
    Hw.Within 2097152 h (Hw.nextSeq h dest).2 := by
  unfold Hw.nextSeq
  repeat' first
    | extract_lets +onlyGivenNames v0; clear_value (e0 : v0 = _); clear e0
    | rw [Hw.mk_msg]
    | with_reducible apply Hw.Within.refl
    | with_reducible apply Hw.Within.step (Hw.putMsg_within ..); decide

theorem Hw.sendEvt_within (h : Hw) (r : Nat) (e : Event) :
    Hw.Within 2101248 h (Hw.sendEvt h r e).2 := by
  unfold Hw.sendEvt
  repeat' first
    | extract_lets +onlyGivenNames v0; clear_value (e0 : v0 = _); clear e0
    | with_reducible apply Hw.Within.refl
    | with_reducible apply Hw.Within.step (Hw.nextSeq_within ..); decide
    | with_reducible apply Hw.Within.step (Hw.setPort_within ..); decide
    | with_reducible apply Hw.Within.ite2

theorem Hw.raise_within (h : Hw) (e : Event) :
    Hw.Within 1231497054230075221292109327356335894365390843282134511483234691223944083767759328369507720836526818118395133693956 h (Hw.raise h e) := by
  unfold Hw.raise
  repeat' first
    | intro _
    | extract_lets +onlyGivenNames v0; clear_value (e0 : v0 = _); (first | (with_reducible apply Hw.Within.let1 e0) | clear e0)
    | rw [Hw.mk_msg]
    | with_reducible apply Hw.Within.refl
    | with_reducible assumption
    | with_reducible apply Hw.Within.step (Hw.routeTake_within ..); decide
    | with_reducible apply Hw.Within.step (Hw.sendEvt_within ..); decide
    | with_reducible apply Hw.Within.step (Hw.nextSeq_within ..); decide
    | with_reducible apply Hw.Within.step (Hw.ringAdvance_within ..); decide
    | with_reducible apply Hw.Within.step (Hw.putMsg_within ..); decide
    | with_reducible apply Hw.Within.ite
    | with_reducible apply Hw.Within.fold
    | (split <;> (rename_i e0; with_reducible apply Hw.Within.snd; case e => with_reducible apply e0))

theorem Hw.logErr_within (h : Hw) (r : ErrRec) :
    Hw.Within 1231497054230075221292109327356335894365390843282138213868488663937538932448420082408143931992224493673087668064260 h (Hw.logErr h r) := by
  unfold Hw.logErr
  repeat' first
    | extract_lets +onlyGivenNames v0; clear_value (e0 : v0 = _); clear e0
    | rw [Hw.mk_msg]
    | with_reducible apply Hw.Within.refl
    | with_reducible apply Hw.Within.step (Hw.ringAdvance_within ..); decide
    | with_reducible apply Hw.Within.step (Hw.raise_within ..); decide
    | with_reducible apply Hw.Within.step (Hw.putMsg_within ..); decide
    | with_reducible apply Hw.Within.ite

theorem Hw.uncross_within (h : Hw) (w : Nat) :
    Hw.Within 1202453802380202612679414065556140558016349465041059773802132977424491020858679523053413887173001575952350707716 h (Hw.uncross h w) := by
  unfold Hw.uncross
  repeat' first
    | with_reducible apply Hw.Within.refl
    | with_reducible apply Hw.Within.step (Hw.setReg_within ..); decide

theorem Hw.cross_within (h : Hw) (w : Nat) (e : Event) :
    Hw.Within 1240816071198521791540374786364395983690017551636202724730201221798983889179414094673171678462117580332025851678724 h (Hw.cross h w e) := by
  unfold Hw.cross
  repeat' first
    | intro _
    | extract_lets +onlyGivenNames v0; clear_value (e0 : v0 = _); with_reducible apply Hw.Within.let1 e0
    | with_reducible apply Hw.Within.refl
    | with_reducible assumption
    | with_reducible apply Hw.Within.step (Hw.setReg_within ..); decide
    | with_reducible apply Hw.Within.step (Hw.addReg_within ..); decide
    | with_reducible apply Hw.Within.step (Hw.raise_within ..); decide
    | with_reducible apply Hw.Within.ite

end Sys2Proof.Machine
end

