-- ==== Sys2Proof/Laws/FrameLinkOps.lean ====
section
/-! SUPPORT. What each operation and command of Machine/LinkOps.lean changes, and that it keeps canonical tables. -/

namespace Sys2Proof.Machine

theorem Hw.setSpan_within (h : Hw) (p : Nat) (l : Link) :
    Hw.Within 2048 h (Hw.setSpan h p l) := by
  unfold Hw.setSpan
  repeat' first
    | extract_lets +onlyGivenNames v0; clear_value (e0 : v0 = _); clear e0
    | rw [Hw.mk_lnk]
    | with_reducible apply Hw.Within.refl
    | with_reducible apply Hw.Within.step (Hw.putLnk_within ..); decide

theorem Hw.sendSpan_within (h : Hw) (p : Nat) (kind : Nat) (vc : Nat) (payload : List Byte) :
    Hw.Within 2048 h (Hw.sendSpan h p kind vc payload) := by
  unfold Hw.sendSpan
  repeat' first
    | extract_lets +onlyGivenNames v0; clear_value (e0 : v0 = _); clear e0
    | rw [Hw.mk_lnk]
    | with_reducible apply Hw.Within.refl
    | with_reducible apply Hw.Within.step (Hw.setSpan_within ..); decide
    | with_reducible apply Hw.Within.step (Hw.putLnk_within ..); decide
    | with_reducible apply Hw.Within.ite

theorem Hw.sendPeer_within (h : Hw) (kind : Nat) (vc : Nat) (payload : List Byte) :
    Hw.Within 2048 h (Hw.sendPeer h kind vc payload) := by
  unfold Hw.sendPeer
  repeat' first
    | with_reducible apply Hw.Within.refl
    | with_reducible apply Hw.Within.step (Hw.sendSpan_within ..); decide
    | split

theorem Hw.sendPairLinks_within (h : Hw) (kind : Nat) (vc : Nat) (payload : List Byte) :
    Hw.Within 2048 h (Hw.sendPairLinks h kind vc payload) := by
  unfold Hw.sendPairLinks
  repeat' first
    | intro _
    | with_reducible apply Hw.Within.refl
    | with_reducible assumption
    | with_reducible apply Hw.Within.step (Hw.sendSpan_within ..); decide
    | with_reducible apply Hw.Within.ite
    | with_reducible apply Hw.Within.fold

theorem Hw.setLink_within (h : Hw) (k : Nat) (l : Link) :
    Hw.Within 2048 h (Hw.setLink h k l) := by
  unfold Hw.setLink
  repeat' first
    | extract_lets +onlyGivenNames v0; clear_value (e0 : v0 = _); clear e0
    | rw [Hw.mk_lnk]
    | with_reducible apply Hw.Within.refl
    | with_reducible apply Hw.Within.step (Hw.putLnk_within ..); decide

theorem Hw.sendQanat_within (h : Hw) (stack : Nat) (hubEnd : Bool) (kind : Nat) (vc : Nat) (payload : List Byte) :
    Hw.Within 2048 h (Hw.sendQanat h stack hubEnd kind vc payload) := by
  unfold Hw.sendQanat
  repeat' first
    | extract_lets +onlyGivenNames v0; clear_value (e0 : v0 = _); clear e0
    | rw [Hw.mk_lnk]
    | with_reducible apply Hw.Within.refl
    | with_reducible apply Hw.Within.step (Hw.setLink_within ..); decide
    | with_reducible apply Hw.Within.step (Hw.putLnk_within ..); decide
    | split

theorem Hw.pumpQanat_within (h : Hw) (stack : Nat) (hubEnd : Bool) :
    Hw.Within 2048 h (Hw.pumpQanat h stack hubEnd) := by
  unfold Hw.pumpQanat
  repeat' first
    | intro _
    | extract_lets +onlyGivenNames v0; clear_value (e0 : v0 = _); (first | (with_reducible apply Hw.Within.let1 e0) | clear e0)
    | rw [Hw.mk_lnk]
    | with_reducible apply Hw.Within.refl
    | with_reducible assumption
    | with_reducible apply Hw.Within.step (Hw.sendQanat_within ..); decide
    | with_reducible apply Hw.Within.step (Hw.putLnk_within ..); decide
    | with_reducible apply Hw.Within.fold

theorem Hw.pumpSpan_within (h : Hw) (p : Nat) :
    Hw.Within 2048 h (Hw.pumpSpan h p) := by
  unfold Hw.pumpSpan
  repeat' first
    | intro _
    | extract_lets +onlyGivenNames v0; clear_value (e0 : v0 = _); (first | (with_reducible apply Hw.Within.let1 e0) | clear e0)
    | rw [Hw.mk_lnk]
    | with_reducible apply Hw.Within.refl
    | with_reducible assumption
    | with_reducible apply Hw.Within.step (Hw.sendSpan_within ..); decide
    | with_reducible apply Hw.Within.step (Hw.putLnk_within ..); decide
    | with_reducible apply Hw.Within.fold

end Sys2Proof.Machine
end

