-- ==== Sys2Proof/Laws/FrameResp.lean ====
section
/-! SUPPORT. What each operation and command of Machine/Resp.lean changes, and that it keeps canonical tables. -/

namespace Sys2Proof.Machine

theorem Hw.emit_within (h : Hw) (port : Nat) (u : OutUnit) :
    Hw.Within 528384 h (Hw.emit h port u) := by
  unfold Hw.emit
  repeat' first
    | extract_lets +onlyGivenNames v0; clear_value (e0 : v0 = _); clear e0
    | rw [Hw.mk_pair]
    | with_reducible apply Hw.Within.refl
    | with_reducible apply Hw.Within.step (Hw.setPort_within ..); decide
    | with_reducible apply Hw.Within.step (Hw.putPair_within ..); decide
    | with_reducible apply Hw.Within.ite

theorem Hw.reply_within (h : Hw) (r : Rq) (status : Nat) (rep : Bool) (cls : Nat) :
    Hw.Within 633825300114114700748352131076 h (Hw.reply h r status rep cls) := by
  unfold Hw.reply
  repeat' first
    | intro _
    | extract_lets +onlyGivenNames v0; clear_value (e0 : v0 = _); with_reducible apply Hw.Within.let1 e0
    | with_reducible apply Hw.Within.refl
    | with_reducible assumption
    | with_reducible apply Hw.Within.step (Hw.addReg_within ..); decide
    | with_reducible apply Hw.Within.step (Hw.emit_within ..); decide
    | with_reducible apply Hw.Within.ite

theorem Hw.enqueueArb_within (h : Hw) (uid : Nat) (stack : Nat) (source : Nat) (cls : Nat) :
    Hw.Within 4096 h (Hw.enqueueArb h uid stack source cls) := by
  unfold Hw.enqueueArb
  repeat' first
    | extract_lets +onlyGivenNames v0; clear_value (e0 : v0 = _); clear e0
    | rw [Hw.mk_req]
    | with_reducible apply Hw.Within.refl
    | with_reducible apply Hw.Within.step (Hw.putReq_within ..); decide

theorem Hw.setTrk_within (h : Hw) (uid : Nat) (t : Tracker) :
    Hw.Within 4096 h (Hw.setTrk h uid t) := by
  unfold Hw.setTrk
  repeat' first
    | extract_lets +onlyGivenNames v0; clear_value (e0 : v0 = _); clear e0
    | rw [Hw.mk_req]
    | with_reducible apply Hw.Within.refl
    | with_reducible apply Hw.Within.step (Hw.putReq_within ..); decide

theorem Hw.modTrk_within (h : Hw) (uid : Nat) (f : Tracker → Tracker) :
    Hw.Within 4096 h (Hw.modTrk h uid f) := by
  unfold Hw.modTrk
  repeat' first
    | with_reducible apply Hw.Within.refl
    | with_reducible apply Hw.Within.step (Hw.setTrk_within ..); decide
    | split

theorem Hw.writeSample_within (h : Hw) (t : Tracker) :
    Hw.Within 11347777784561610013136363548841360775862964909894048640369108500422767870191196656087308681406855704552308861210460164 h (Hw.writeSample h t) := by
  unfold Hw.writeSample
  repeat' first
    | intro _
    | extract_lets +onlyGivenNames v0; clear_value (e0 : v0 = _); clear e0
    | rw [Hw.mk_msg]
    | with_reducible apply Hw.Within.refl
    | with_reducible assumption
    | with_reducible apply Hw.Within.step (Hw.ringAdvance_within ..); decide
    | with_reducible apply Hw.Within.step (Hw.putMsg_within ..); decide
    | (split <;> (rename_i e0; with_reducible apply Hw.Within.snd; case e => with_reducible apply e0))
    | split

theorem Hw.noteGate_within (h : Hw) (r : Nat) :
    Hw.Within 383123885216472214589586756787577295904684780545900612 h (Hw.noteGate h r) := by
  unfold Hw.noteGate
  repeat' first
    | extract_lets +onlyGivenNames v0; clear_value (e0 : v0 = _); clear e0
    | with_reducible apply Hw.Within.refl
    | with_reducible apply Hw.Within.step (Hw.setTimer_within ..); decide
    | with_reducible apply Hw.Within.step (Hw.addReg_within ..); decide
    | with_reducible apply Hw.Within.ite

theorem Hw.releaseTrk_within (h : Hw) (uid : Nat) :
    Hw.Within 11347777784561610013136363548841360775862964909894048640369108500805891755407668870676895477808514257589162438528340036 h (Hw.releaseTrk h uid) := by
  unfold Hw.releaseTrk
  repeat' first
    | intro _
    | extract_lets +onlyGivenNames v0; clear_value (e0 : v0 = _); (first | (with_reducible apply Hw.Within.let1 e0) | clear e0)
    | rw [Hw.mk_req]
    | with_reducible apply Hw.Within.refl
    | with_reducible assumption
    | with_reducible apply Hw.Within.step (Hw.writeSample_within ..); decide
    | with_reducible apply Hw.Within.step (Hw.noteGate_within ..); decide
    | with_reducible apply Hw.Within.step (Hw.subReg_within ..); decide
    | with_reducible apply Hw.Within.step (Hw.putReq_within ..); decide
    | with_reducible apply Hw.Within.ite
    | split

theorem Hw.answer_within (h : Hw) (uid : Nat) (status : Nat) (data : List Byte) (psn : List Bool) :
    Hw.Within 11347777784561610013136363548841360775862964909894048640369108500805891755407668870676896111633814371703863186880467012 h (Hw.answer h uid status data psn) := by
  unfold Hw.answer
  repeat' first
    | intro _
    | extract_lets +onlyGivenNames v0; clear_value (e0 : v0 = _); (first | (with_reducible apply Hw.Within.let1 e0) | clear e0)
    | with_reducible apply Hw.Within.refl
    | with_reducible assumption
    | with_reducible apply Hw.Within.step (Hw.setTrk_within ..); decide
    | with_reducible apply Hw.Within.step (Hw.releaseTrk_within ..); decide
    | with_reducible apply Hw.Within.step (Hw.addReg_within ..); decide
    | with_reducible apply Hw.Within.step (Hw.emit_within ..); decide
    | with_reducible apply Hw.Within.ite
    | split

theorem Hw.setWin_within (h : Hw) (r : Nat) (s : Nat) (w : Nat) :
    Hw.Within 4096 h (Hw.setWin h r s w) := by
  unfold Hw.setWin
  repeat' first
    | extract_lets +onlyGivenNames v0; clear_value (e0 : v0 = _); clear e0
    | rw [Hw.mk_req]
    | with_reducible apply Hw.Within.refl
    | with_reducible apply Hw.Within.step (Hw.putReq_within ..); decide

theorem Hw.winDone_within (h : Hw) (r : Nat) (s : Nat) (status : Nat) :
    Hw.Within 4096 h (Hw.winDone h r s status) := by
  unfold Hw.winDone
  repeat' first
    | with_reducible apply Hw.Within.refl
    | with_reducible apply Hw.Within.step (Hw.setWin_within ..); decide
    | with_reducible apply Hw.Within.ite

theorem Hw.settleWin_within (h : Hw) (rq : Rq) (status : Nat) :
    Hw.Within 11347777784561610013136363548841360775862964909894048640369108500805891755407668870676896111633814371703863186880467012 h (Hw.settleWin h rq status) := by
  unfold Hw.settleWin
  repeat' first
    | intro _
    | extract_lets +onlyGivenNames v0; clear_value (e0 : v0 = _); with_reducible apply Hw.Within.let1 e0
    | with_reducible apply Hw.Within.refl
    | with_reducible assumption
    | with_reducible apply Hw.Within.step (Hw.winDone_within ..); decide
    | with_reducible apply Hw.Within.step (Hw.enqueueArb_within ..); decide
    | with_reducible apply Hw.Within.step (Hw.setTrk_within ..); decide
    | with_reducible apply Hw.Within.step (Hw.answer_within ..); decide
    | with_reducible apply Hw.Within.ite
    | with_reducible apply Hw.Within.fold
    | split

theorem Hw.complete_within (h : Hw) (uid : Nat) (status : Nat) (data : List Byte) (psn : List Bool) :
    Hw.Within 11347777784561610013136363548841360775862964909894048640369108500805891755407668870676896111633814371703863186880467012 h (Hw.complete h uid status data psn) := by
  unfold Hw.complete
  repeat' first
    | with_reducible apply Hw.Within.refl
    | with_reducible apply Hw.Within.step (Hw.answer_within ..); decide
    | with_reducible apply Hw.Within.step (Hw.settleWin_within ..); decide
    | with_reducible apply Hw.Within.ite
    | split

theorem Hw.point_within (h : Hw) (uid : Nat) (k : Nat) (f : Sample → Sample) :
    Hw.Within 4096 h (Hw.point h uid k f) := by
  unfold Hw.point
  repeat' first
    | with_reducible apply Hw.Within.refl
    | with_reducible apply Hw.Within.step (Hw.setTrk_within ..); decide
    | split

theorem Hw.charge_within (h : Hw) (r : Nat) (bytes : Nat) :
    Hw.Within 1231312693637327475383720003129487931408741852202045208373384743568506630067609715986831001831097470802377943547972 h (Hw.charge h r bytes) := by
  unfold Hw.charge
  repeat' first
    | intro _
    | extract_lets +onlyGivenNames v0; clear_value (e0 : v0 = _); with_reducible apply Hw.Within.let1 e0
    | with_reducible apply Hw.Within.refl
    | with_reducible assumption
    | with_reducible apply Hw.Within.step (Hw.countSel_within ..); decide
    | with_reducible apply Hw.Within.step (Hw.noteGate_within ..); decide
    | with_reducible apply Hw.Within.step (Hw.setSreg_within ..); decide
    | with_reducible apply Hw.Within.ite

theorem Hw.winForget_within (h : Hw) (r : Nat) (s : Nat) :
    Hw.Within 4096 h (Hw.winForget h r s) := by
  unfold Hw.winForget
  repeat' first
    | with_reducible apply Hw.Within.refl
    | with_reducible apply Hw.Within.step (Hw.setWin_within ..); decide
    | with_reducible apply Hw.Within.ite

theorem Hw.clearWin_within (h : Hw) (r : Nat) :
    Hw.Within 316912650057057350374175805444 h (Hw.clearWin h r) := by
  unfold Hw.clearWin
  repeat' first
    | intro _
    | extract_lets +onlyGivenNames v0; clear_value (e0 : v0 = _); (first | (with_reducible apply Hw.Within.let1 e0) | clear e0)
    | rw [Hw.mk_req]
    | with_reducible apply Hw.Within.refl
    | with_reducible assumption
    | with_reducible apply Hw.Within.step (Hw.setReg_within ..); decide
    | with_reducible apply Hw.Within.step (Hw.putReq_within ..); decide

theorem Hw.unqueueArb_within (h : Hw) (uid : Nat) :
    Hw.Within 4096 h (Hw.unqueueArb h uid) := by
  unfold Hw.unqueueArb
  repeat' first
    | extract_lets +onlyGivenNames v0; clear_value (e0 : v0 = _); clear e0
    | rw [Hw.mk_req]
    | with_reducible apply Hw.Within.refl
    | with_reducible apply Hw.Within.step (Hw.putReq_within ..); decide

end Sys2Proof.Machine
end

