-- ==== Sys2Proof/Laws/FrameFail.lean ====
section
/-! SUPPORT. What each operation and command of Machine/Fail.lean changes, and that it keeps canonical tables. -/

namespace Sys2Proof.Machine

theorem Hw.poisonQueues_within (h : Hw) (g : Nat) :
    Hw.Within 11347777784561610013136363548841360775862964909894048640369108500805891755407669040818079572103046103391166902764580932 h (Hw.poisonQueues h g) := by
  unfold Hw.poisonQueues
  repeat' first
    | intro _
    | extract_lets +onlyGivenNames v0; clear_value (e0 : v0 = _); (first | (with_reducible apply Hw.Within.let1 e0) | clear e0)
    | rw [Hw.mk_sl]
    | with_reducible apply Hw.Within.refl
    | with_reducible assumption
    | with_reducible apply Hw.Within.step (Hw.setReg_within ..); decide
    | with_reducible apply Hw.Within.step (Hw.complete_within ..); decide
    | with_reducible apply Hw.Within.step (Hw.putSl_within ..); decide
    | with_reducible apply Hw.Within.ite
    | with_reducible apply Hw.Within.fold
    | split

theorem Hw.dropEngWait_within (h : Hw) (e : Nat) :
    Hw.Within 32768 h (Hw.dropEngWait h e) := by
  unfold Hw.dropEngWait
  repeat' first
    | extract_lets +onlyGivenNames v0; clear_value (e0 : v0 = _); clear e0
    | rw [Hw.mk_coh]
    | with_reducible apply Hw.Within.refl
    | with_reducible apply Hw.Within.step (Hw.putCoh_within ..); decide

theorem Hw.setEng_within (h : Hw) (e : Nat) (x : Engine) :
    Hw.Within 65536 h (Hw.setEng h e x) := by
  unfold Hw.setEng
  repeat' first
    | extract_lets +onlyGivenNames v0; clear_value (e0 : v0 = _); with_reducible apply Hw.Within.letCar e0; subst e0
    | rw [Hw.mk_car]
    | with_reducible apply Hw.Within.refl
    | (with_reducible apply Hw.Within.stepCar); (· rfl); (· decide)

theorem Hw.idleEngine_within (h : Hw) (e : Nat) :
    Hw.Within 1527028229194079207119811401413221268623978883307962113187509272580 h (Hw.idleEngine h e) := by
  unfold Hw.idleEngine
  repeat' first
    | intro _
    | extract_lets +onlyGivenNames v0; clear_value (e0 : v0 = _); with_reducible apply Hw.Within.let1 e0
    | with_reducible apply Hw.Within.refl
    | with_reducible assumption
    | with_reducible apply Hw.Within.step (Hw.dropEngWait_within ..); decide
    | with_reducible apply Hw.Within.step (Hw.setEng_within ..); decide
    | with_reducible apply Hw.Within.step (Hw.setReg_within ..); decide

theorem Hw.abortHeld_within (h : Hw) (d : Desc) :
    Hw.Within 11347777784561610013136363548841360775862964909894048640369108500805891755407668870676896111633814371703863186880475204 h (Hw.abortHeld h d) := by
  unfold Hw.abortHeld
  repeat' first
    | intro _
    | extract_lets +onlyGivenNames v0; clear_value (e0 : v0 = _); (first | (with_reducible apply Hw.Within.let1 e0) | clear e0)
    | rw [Hw.mk_sl]
    | with_reducible apply Hw.Within.refl
    | with_reducible assumption
    | with_reducible apply Hw.Within.step (Hw.complete_within ..); decide
    | with_reducible apply Hw.Within.step (Hw.putSl_within ..); decide
    | with_reducible apply Hw.Within.fold

theorem Hw.sendMirror_within (h : Hw) (m : Mirror) :
    Hw.Within 3978585891278293137243057985174566720803649206378781739523711815145275976100267004790788 h (Hw.sendMirror h m) := by
  unfold Hw.sendMirror
  repeat' first
    | intro _
    | extract_lets +onlyGivenNames v0; clear_value (e0 : v0 = _); (first | (with_reducible apply Hw.Within.let1 e0) | clear e0)
    | rw [Hw.mk_pair]
    | with_reducible apply Hw.Within.refl
    | with_reducible assumption
    | with_reducible apply Hw.Within.step (Hw.sendPeer_within ..); decide
    | with_reducible apply Hw.Within.step (Hw.addReg_within ..); decide
    | with_reducible apply Hw.Within.step (Hw.putPair_within ..); decide

theorem Hw.mirrorLaunchEnd_within (h : Hw) (l : Launch) :
    Hw.Within 3978585891278293137243057985174566720803649206378781739523711815145275976100267004790788 h (Hw.mirrorLaunchEnd h l) := by
  unfold Hw.mirrorLaunchEnd
  repeat' first
    | with_reducible apply Hw.Within.refl
    | with_reducible apply Hw.Within.step (Hw.sendMirror_within ..); decide
    | with_reducible apply Hw.Within.ite

theorem Hw.launchNotice_within (h : Hw) (l : Launch) (kind : Nat) (status : Nat) (fault : Nat) (step : Nat) (code : Nat) (value : Nat) :
    Hw.Within 1231497054230075221292109327356335894365390843282134511483234691223944083767759328369507720836526818118395133693956 h (Hw.launchNotice h l kind status fault step code value) := by
  unfold Hw.launchNotice
  repeat' first
    | with_reducible apply Hw.Within.refl
    | with_reducible apply Hw.Within.step (Hw.raise_within ..); decide

theorem Hw.faultLaunch_within (h : Hw) (e : Nat) (l : Launch) (fault : Nat) (step : Nat) :
    Hw.Within 11349009281615840088357655658172695697648608593874578887855766392962880848763144227925540638134375400855422055943256132 h (Hw.faultLaunch h e l fault step) := by
  unfold Hw.faultLaunch
  repeat' first
    | intro _
    | extract_lets +onlyGivenNames v0; clear_value (e0 : v0 = _); with_reducible apply Hw.Within.let1 e0
    | with_reducible apply Hw.Within.refl
    | with_reducible assumption
    | with_reducible apply Hw.Within.step (Hw.setReg_within ..); decide
    | with_reducible apply Hw.Within.step (Hw.abortHeld_within ..); decide
    | with_reducible apply Hw.Within.step (Hw.mirrorLaunchEnd_within ..); decide
    | with_reducible apply Hw.Within.step (Hw.launchNotice_within ..); decide
    | with_reducible apply Hw.Within.fold

theorem Hw.faultRunning_within (h : Hw) (e : Nat) (fault : Nat) :
    Hw.Within 11349009281615840088357655658172695697648608593874580414883995587042087968574545641146809262113258708817535243452528708 h (Hw.faultRunning h e fault) := by
  unfold Hw.faultRunning
  repeat' first
    | extract_lets +onlyGivenNames v0; clear_value (e0 : v0 = _); clear e0
    | with_reducible apply Hw.Within.refl
    | with_reducible apply Hw.Within.step (Hw.idleEngine_within ..); decide
    | with_reducible apply Hw.Within.step (Hw.faultLaunch_within ..); decide
    | split

theorem Hw.faultQueued_within (h : Hw) (e : Nat) (fault : Nat) (p : Launch → Bool) :
    Hw.Within 11349009281615840088357655658172695697648608593874578993168058061520067546681171911595972957029470801404533310254299204 h (Hw.faultQueued h e fault p) := by
  unfold Hw.faultQueued
  repeat' first
    | intro _
    | extract_lets +onlyGivenNames v0; clear_value (e0 : v0 = _); (first | (with_reducible apply Hw.Within.let1 e0) | clear e0)
    | with_reducible apply Hw.Within.refl
    | with_reducible assumption
    | with_reducible apply Hw.Within.step (Hw.setEng_within ..); decide
    | with_reducible apply Hw.Within.step (Hw.setReg_within ..); decide
    | with_reducible apply Hw.Within.step (Hw.faultLaunch_within ..); decide
    | with_reducible apply Hw.Within.fold

theorem Hw.faultEngine_within (h : Hw) (e : Nat) (fault : Nat) (p : Launch → Bool) :
    Hw.Within 11349009281615840088357655658172695697648608593874580520196287255599274666492573324817241581008354109366646497763506244 h (Hw.faultEngine h e fault p) := by
  unfold Hw.faultEngine
  repeat' first
    | intro _
    | extract_lets +onlyGivenNames v0; clear_value (e0 : v0 = _); with_reducible apply Hw.Within.let1 e0
    | with_reducible apply Hw.Within.refl
    | with_reducible assumption
    | with_reducible apply Hw.Within.step (Hw.faultRunning_within ..); decide
    | with_reducible apply Hw.Within.step (Hw.faultQueued_within ..); decide
    | with_reducible apply Hw.Within.ite
    | split

theorem Hw.enterRecovery_within (h : Hw) :
    Hw.Within 766247770432944429179173513575154591809369561091801092 h (Hw.enterRecovery h) := by
  unfold Hw.enterRecovery
  repeat' first
    | with_reducible apply Hw.Within.refl
    | with_reducible apply Hw.Within.step (Hw.setReg_within ..); decide
    | with_reducible apply Hw.Within.ite

theorem Hw.poisonOutstanding_within (h : Hw) (s : Nat) (keep : Tracker → Bool) :
    Hw.Within 11347777784561610013136363548841360775862964909894048640369108500805891755407668870676896111633814371703863186880467012 h (Hw.poisonOutstanding h s keep) := by
  unfold Hw.poisonOutstanding
  repeat' first
    | intro _
    | extract_lets +onlyGivenNames v0; clear_value (e0 : v0 = _); clear e0
    | with_reducible apply Hw.Within.refl
    | with_reducible assumption
    | with_reducible apply Hw.Within.step (Hw.complete_within ..); decide
    | with_reducible apply Hw.Within.ite
    | with_reducible apply Hw.Within.fold
    | split

theorem Hw.setSes_within (h : Hw) (n : Nat) (x : Session) :
    Hw.Within 131072 h (Hw.setSes h n x) := by
  unfold Hw.setSes
  repeat' first
    | extract_lets +onlyGivenNames v0; clear_value (e0 : v0 = _); clear e0
    | rw [Hw.mk_red]
    | with_reducible apply Hw.Within.refl
    | with_reducible apply Hw.Within.step (Hw.putRed_within ..); decide

theorem Hw.dropAcws_within (h : Hw) (n : Nat) (status : Nat) :
    Hw.Within 11347777784561610013136363548841360776337249307410095776824055255401477425974662727867359861939432635800275365885775940 h (Hw.dropAcws h n status) := by
  unfold Hw.dropAcws
  repeat' first
    | intro _
    | extract_lets +onlyGivenNames v0; clear_value (e0 : v0 = _); (first | (with_reducible apply Hw.Within.let1 e0) | clear e0)
    | rw [Hw.mk_red]
    | with_reducible apply Hw.Within.refl
    | with_reducible assumption
    | with_reducible apply Hw.Within.step (Hw.complete_within ..); decide
    | with_reducible apply Hw.Within.step (Hw.setSes_within ..); decide
    | with_reducible apply Hw.Within.step (Hw.setReg_within ..); decide
    | with_reducible apply Hw.Within.step (Hw.putRed_within ..); decide
    | with_reducible apply Hw.Within.fold

theorem Hw.sessionNotice_within (h : Hw) (n : Nat) (kind : Nat) (fields : List (Nat × Nat)) :
    Hw.Within 1231497054230075221292109327356335894365390843282134511483234691223944083767759328369507720836526818118395133693956 h (Hw.sessionNotice h n kind fields) := by
  unfold Hw.sessionNotice
  repeat' first
    | with_reducible apply Hw.Within.refl
    | with_reducible apply Hw.Within.step (Hw.raise_within ..); decide

theorem Hw.setRedState_within (h : Hw) (n : Nat) (v : Nat) :
    Hw.Within 3978585891278296670937187541943225887398650692215813394491505566383192219312669590030340 h (Hw.setRedState h n v) := by
  unfold Hw.setRedState
  repeat' first
    | intro _
    | extract_lets +onlyGivenNames v0; clear_value (e0 : v0 = _); with_reducible apply Hw.Within.let1 e0
    | with_reducible apply Hw.Within.refl
    | with_reducible assumption
    | with_reducible apply Hw.Within.step (Hw.setReg_within ..); decide
    | with_reducible apply Hw.Within.step (Hw.sendMirror_within ..); decide
    | with_reducible apply Hw.Within.ite

theorem Hw.abortSession_within (h : Hw) (n : Nat) (reason : Nat) :
    Hw.Within 11349009281615840088357655658172695705948585553939092850384103166807263585106044944232872755269353712428507384192309316 h (Hw.abortSession h n reason) := by
  unfold Hw.abortSession
  repeat' first
    | intro _
    | extract_lets +onlyGivenNames v0; clear_value (e0 : v0 = _); (first | (with_reducible apply Hw.Within.let1 e0) | clear e0)
    | with_reducible apply Hw.Within.refl
    | with_reducible assumption
    | with_reducible apply Hw.Within.step (Hw.setSes_within ..); decide
    | with_reducible apply Hw.Within.step (Hw.setReg_within ..); decide
    | with_reducible apply Hw.Within.step (Hw.dropAcws_within ..); decide
    | with_reducible apply Hw.Within.step (Hw.sessionNotice_within ..); decide
    | with_reducible apply Hw.Within.step (Hw.setRedState_within ..); decide
    | with_reducible apply Hw.Within.ite

theorem Hw.fenceHeld_within (h : Hw) :
    Hw.Within 11347777784561610013136363548841360775862964909894048640369108500805891755407668870676977241272228978385558975885611076 h (Hw.fenceHeld h) := by
  unfold Hw.fenceHeld
  repeat' first
    | intro _
    | extract_lets +onlyGivenNames v0; clear_value (e0 : v0 = _); (first | (with_reducible apply Hw.Within.let1 e0) | clear e0)
    | rw [Hw.mk_pair]
    | with_reducible apply Hw.Within.refl
    | with_reducible assumption
    | with_reducible apply Hw.Within.step (Hw.setPort_within ..); decide
    | with_reducible apply Hw.Within.step (Hw.setReg_within ..); decide
    | with_reducible apply Hw.Within.step (Hw.reply_within ..); decide
    | with_reducible apply Hw.Within.step (Hw.settleWin_within ..); decide
    | with_reducible apply Hw.Within.step (Hw.complete_within ..); decide
    | with_reducible apply Hw.Within.step (Hw.putPair_within ..); decide
    | with_reducible apply Hw.Within.fold

theorem Hw.fenceUnit_within (h : Hw) :
    Hw.Within 11347777784561610013136363548845341547256746956976496482748928243985465377321741586073462361376335210628980098749438020 h (Hw.fenceUnit h) := by
  unfold Hw.fenceUnit
  repeat' first
    | intro _
    | extract_lets +onlyGivenNames v0; clear_value (e0 : v0 = _); (first | (with_reducible apply Hw.Within.let1 e0) | clear e0)
    | rw [Hw.mk_pair_msg]
    | with_reducible apply Hw.Within.refl
    | with_reducible assumption
    | with_reducible apply Hw.Within.step (Hw.sendPairLinks_within ..); decide
    | with_reducible apply Hw.Within.step (Hw.setReg_within ..); decide
    | with_reducible apply Hw.Within.step (Hw.fenceHeld_within ..); decide
    | with_reducible apply Hw.Within.step (Hw.putMsg_within ..); decide
    | with_reducible apply Hw.Within.step (Hw.putPair_within ..); decide

theorem Hw.partitionLosesStack_within (h : Hw) (s : Nat) :
    Hw.Within 11349009281615840088357655658618299511274258139255520129118299816762290039361106861895744530069665933784641781095077956 h (Hw.partitionLosesStack h s) := by
  unfold Hw.partitionLosesStack
  repeat' first
    | intro _
    | extract_lets +onlyGivenNames v0; clear_value (e0 : v0 = _); (first | (with_reducible apply Hw.Within.let1 e0) | clear e0)
    | rw [Hw.mk_par]
    | with_reducible apply Hw.Within.refl
    | with_reducible assumption
    | with_reducible apply Hw.Within.step (Hw.setBit_within ..); decide
    | with_reducible apply Hw.Within.step (Hw.enterRecovery_within ..); decide
    | with_reducible apply Hw.Within.step (Hw.poisonOutstanding_within ..); decide
    | with_reducible apply Hw.Within.step (Hw.abortSession_within ..); decide
    | with_reducible apply Hw.Within.step (Hw.setReg_within ..); decide
    | with_reducible apply Hw.Within.step (Hw.fenceUnit_within ..); decide
    | with_reducible apply Hw.Within.step (Hw.putPar_within ..); decide
    | with_reducible apply Hw.Within.ite
    | with_reducible apply Hw.Within.fold
    | split

theorem Hw.failStack_within (h : Hw) (s : Nat) :
    Hw.Within 11349009281615840088357655658618299511274258139255526820151206024116358952004545435727427712977914393957291618705849412 h (Hw.failStack h s) := by
  unfold Hw.failStack
  repeat' first
    | intro _
    | extract_lets +onlyGivenNames v0; clear_value (e0 : v0 = _); (first | (with_reducible apply Hw.Within.let1 e0) | (with_reducible apply Hw.Within.letCar e0; subst e0) | clear e0)
    | rw [Hw.mk_car]
    | rw [Hw.mk_boot]
    | with_reducible apply Hw.Within.refl
    | with_reducible assumption
    | with_reducible apply Hw.Within.step (Hw.setReg_within ..); decide
    | with_reducible apply Hw.Within.step (Hw.logErr_within ..); decide
    | with_reducible apply Hw.Within.step (Hw.faultEngine_within ..); decide
    | with_reducible apply Hw.Within.step (Hw.complete_within ..); decide
    | with_reducible apply Hw.Within.step (Hw.partitionLosesStack_within ..); decide
    | with_reducible apply Hw.Within.step (Hw.putBoot_within ..); decide
    | (with_reducible apply Hw.Within.stepCar); (· rfl); (· decide)
    | with_reducible apply Hw.Within.ite
    | with_reducible apply Hw.Within.fold
    | split

theorem Hw.failCount_within (h : Hw) (s : Nat) :
    Hw.Within 11349009281615840088357655658618299511274258139255526820151206024116358952004545435727427712977914393957291618705849412 h (Hw.failCount h s) := by
  unfold Hw.failCount
  repeat' first
    | extract_lets +onlyGivenNames v0; clear_value (e0 : v0 = _); clear e0
    | with_reducible apply Hw.Within.refl
    | with_reducible apply Hw.Within.step (Hw.failStack_within ..); decide
    | with_reducible apply Hw.Within.ite

theorem Hw.failPc_within (h : Hw) (g : Nat) :
    Hw.Within 11349009281615840088357655658618299511274258139255526820151206024116358952004545690939202903681761991488247192532008004 h (Hw.failPc h g) := by
  unfold Hw.failPc
  repeat' first
    | intro _
    | extract_lets +onlyGivenNames v0; clear_value (e0 : v0 = _); (first | (with_reducible apply Hw.Within.let1 e0) | clear e0)
    | rw [Hw.mk_req]
    | with_reducible apply Hw.Within.refl
    | with_reducible assumption
    | with_reducible apply Hw.Within.step (Hw.setReg_within ..); decide
    | with_reducible apply Hw.Within.step (Hw.logErr_within ..); decide
    | with_reducible apply Hw.Within.step (Hw.poisonQueues_within ..); decide
    | with_reducible apply Hw.Within.step (Hw.failCount_within ..); decide
    | with_reducible apply Hw.Within.step (Hw.putReq_within ..); decide
    | with_reducible apply Hw.Within.ite

end Sys2Proof.Machine
end

