-- ==== Sys2Proof/Laws/FrameMem.lean ====
section
/-! SUPPORT. What each operation and command of Machine/Mem.lean changes, and that it keeps canonical tables. -/

namespace Sys2Proof.Machine

theorem keyCoord_colKey (s : Nat) (c : Coord) (i : Nat) (hi : i < 64) :
    (colKey s c.norm * 64 + i) / 2 ^ 38 = s ∧ keyCoord ((colKey s c.norm * 64 + i) / 64) = c.norm ∧
      (colKey s c.norm * 64 + i) % 64 = i := by
  obtain ⟨p, b, r, q⟩ := c
  simp only [Coord.norm, colKey, keyCoord, Coord.mk.injEq]
  refine ⟨by omega, ⟨by omega, by omega, by omega, by omega⟩, by omega⟩

theorem Hw.putLanes_within (h : Hw) (s : Nat) (c : Coord) (word : List Byte) :
    Hw.Within 4194304 h (Hw.putLanes h s c word) := by
  refine Hw.Within.onlyDram rfl (fun ht => ?_) id
  have hd : (h.putMem { h.mem with dram := ((word.take 36).zipIdx.foldl (fun (d : Table Byte) (p : Byte × Nat) =>
    Table.setD d (fun _ => (h.filledWord s c.norm).getD p.2 0) (colKey s c.norm * 64 + p.2) p.1) h.mem.dram) }).dramDefault = h.dramDefault := by
    funext k; rfl
  show Table.wf (h.putMem _).dramDefault _ = true
  rw [show (h.putMem _).dramDefault = h.dramDefault from hd]
  have key : ∀ (l : List (Byte × Nat)) (d : Table Byte), (∀ x ∈ l, x.2 < 64) → Table.wf h.dramDefault d = true →
      Table.wf h.dramDefault (l.foldl (fun (d : Table Byte) (p : Byte × Nat) =>
        Table.setD d (fun _ => (h.filledWord s c.norm).getD p.2 0) (colKey s c.norm * 64 + p.2) p.1) d) = true := by
    intro l
    induction l with
    | nil => intro d _ hd; exact hd
    | cons x l ih =>
      intro d hl hd
      refine ih _ (fun y hy => hl y (List.mem_cons_of_mem _ hy)) ?_
      have hx := hl x List.mem_cons_self
      have e : h.dramDefault (colKey s c.norm * 64 + x.2) = (h.filledWord s c.norm).getD x.2 0 := by
        obtain ⟨e1, e2, e3⟩ := keyCoord_colKey s c x.2 hx
        unfold Hw.dramDefault; rw [e1, e2, e3]
      have w := Table.wf_setD d h.dramDefault (colKey s c.norm * 64 + x.2) x.1 hd
      unfold Table.setD at w ⊢
      rw [e] at w
      exact w
  refine key _ _ (fun x hx => ?_) ht
  have := List.mem_zipIdx hx
  have l36 : (word.take 36).length ≤ 36 := by simp
  omega


/-- Losing the DRAM of the pseudo-channels that pass `p`, whatever their fills become, leaves the others canonical. -/
theorem Hw.dram_drop_wf (h h' : Hw) (p : Nat → Bool) (hf : ∀ g, p g = false → Table.look h'.mem.fills g = Table.look h.mem.fills g)
    (ht : Table.wf h.dramDefault h.mem.dram = true) : Table.wf h'.dramDefault (Table.drop h.mem.dram (fun k => p (k / 2 ^ 32))) = true := by
  refine Table.wf_congr _ h.dramDefault h'.dramDefault _ ht (fun k hk => ?_)
  have hk' : p (k / 2 ^ 32) = false := hk
  have hg : gOf (k / 2 ^ 38) (keyCoord (k / 64)).pc = k / 2 ^ 32 := by
    simp only [gOf, keyCoord]; omega
  unfold Hw.dramDefault Hw.filledWord
  rw [hg, hf _ hk']

theorem Hw.putSpare_within (h : Hw) (g : Nat) (n : Nat) (word : List Byte) :
    Hw.Within 4194304 h (Hw.putSpare h g n word) := by
  refine Hw.Within.onlyDram rfl (fun ht => ht) (fun ht => ?_)
  show Table.wf (fun _ => 0) (word.zipIdx.foldl _ h.mem.spare) = true
  generalize word.zipIdx = l
  generalize h.mem.spare = t at ht ⊢
  induction l generalizing t with
  | nil => exact ht
  | cons x l ih => exact ih _ (Table.wf_setD _ _ _ _ ht)

theorem Hw.putRaw_within (h : Hw) (s : Nat) (c : Coord) (word : List Byte) :
    Hw.Within 4194304 h (Hw.putRaw h s c word) := by
  unfold Hw.putRaw
  repeat' first
    | intro _
    | extract_lets +onlyGivenNames v0; clear_value (e0 : v0 = _); with_reducible apply Hw.Within.let1 e0
    | with_reducible apply Hw.Within.refl
    | with_reducible assumption
    | with_reducible apply Hw.Within.step (Hw.putLanes_within ..); decide
    | with_reducible apply Hw.Within.step (Hw.putSpare_within ..); decide
    | split

theorem Hw.setPc_within (h : Hw) (g : Nat) (x : Pc) :
    Hw.Within 8192 h (Hw.setPc h g x) := by
  unfold Hw.setPc
  repeat' first
    | extract_lets +onlyGivenNames v0; clear_value (e0 : v0 = _); clear e0
    | rw [Hw.mk_sl]
    | with_reducible apply Hw.Within.refl
    | with_reducible apply Hw.Within.step (Hw.putSl_within ..); decide

theorem Hw.logCol_within (h : Hw) (kind : Nat) (s : Nat) (c : Coord) (req : Option Nat) (positions : Nat) (source : Nat) (count : Nat) :
    Hw.Within 1231497054230075221292109327356335894365390843282138213868488663937538932448420082408143931992224493673087668064260 h (Hw.logCol h kind s c req positions source count) := by
  unfold Hw.logCol
  repeat' first
    | with_reducible apply Hw.Within.refl
    | with_reducible apply Hw.Within.step (Hw.logErr_within ..); decide

theorem Hw.allocRemap_within (h : Hw) (s : Nat) (c : Coord) (cause : Nat) (word : List Byte) :
    Hw.Within 1231497054230075221292109327356335894365390843282138215073692197131781639104891651664015883883876739010182298734596 h (Hw.allocRemap h s c cause word) := by
  unfold Hw.allocRemap
  repeat' first
    | intro _
    | extract_lets +onlyGivenNames v0; clear_value (e0 : v0 = _); (first | (with_reducible apply Hw.Within.let1 e0) | clear e0)
    | with_reducible apply Hw.Within.refl
    | with_reducible assumption
    | with_reducible apply Hw.Within.step (Hw.putSpare_within ..); decide
    | with_reducible apply Hw.Within.step (Hw.setElem_within ..); decide
    | with_reducible apply Hw.Within.step (Hw.addReg_within ..); decide
    | with_reducible apply Hw.Within.step (Hw.logCol_within ..); decide
    | with_reducible apply Hw.Within.ite
    | split

theorem Hw.failLane_within (h : Hw) (g : Nat) (pos : Nat) :
    Hw.Within 11349009281615840088357655658618299511274258139255526820152812962160617942280087653031544066284284194482029985367309380 h (Hw.failLane h g pos) := by
  unfold Hw.failLane
  repeat' first
    | intro _
    | extract_lets +onlyGivenNames v0; clear_value (e0 : v0 = _); (first | (with_reducible apply Hw.Within.let1 e0) | clear e0)
    | with_reducible apply Hw.Within.refl
    | with_reducible assumption
    | with_reducible apply Hw.Within.step (Hw.setReg_within ..); decide
    | with_reducible apply Hw.Within.step (Hw.logErr_within ..); decide
    | with_reducible apply Hw.Within.step (Hw.failPc_within ..); decide
    | with_reducible apply Hw.Within.step (Hw.setPc_within ..); decide
    | with_reducible apply Hw.Within.ite

theorem Hw.noteCorrected_within (h : Hw) (s : Nat) (c : Coord) (fixed : List Byte) (positions : List Nat) :
    Hw.Within 11349009281615840088357655658618299511274258139255526820154018165693812184986744124600799938236175846727367079997979716 h (Hw.noteCorrected h s c fixed positions) := by
  unfold Hw.noteCorrected
  repeat' first
    | intro _
    | extract_lets +onlyGivenNames v0; clear_value (e0 : v0 = _); (first | (with_reducible apply Hw.Within.let1 e0) | clear e0)
    | with_reducible apply Hw.Within.refl
    | with_reducible assumption
    | with_reducible apply Hw.Within.step (Hw.setPc_within ..); decide
    | with_reducible apply Hw.Within.step (Hw.allocRemap_within ..); decide
    | with_reducible apply Hw.Within.step (Hw.failLane_within ..); decide
    | with_reducible apply Hw.Within.ite
    | with_reducible apply Hw.Within.fold

theorem Hw.noteUncorrectable_within (h : Hw) (kind : Nat) (s : Nat) (c : Coord) (req : Option Nat) (source : Nat) :
    Hw.Within 11349009281615840088357655658618299511274258139255526820151206024116358952004545690939202903681761991488247192532008004 h (Hw.noteUncorrectable h kind s c req source) := by
  unfold Hw.noteUncorrectable
  repeat' first
    | intro _
    | extract_lets +onlyGivenNames v0; clear_value (e0 : v0 = _); (first | (with_reducible apply Hw.Within.let1 e0) | clear e0)
    | with_reducible apply Hw.Within.refl
    | with_reducible assumption
    | with_reducible apply Hw.Within.step (Hw.setPc_within ..); decide
    | with_reducible apply Hw.Within.step (Hw.logCol_within ..); decide
    | with_reducible apply Hw.Within.step (Hw.failPc_within ..); decide
    | with_reducible apply Hw.Within.ite

theorem Hw.noteDecode_within (h : Hw) (kind : Nat) (s : Nat) (c : Coord) (d : Decoded) (data : List Byte) (positions : List Nat) (req : Option Nat) (source : Nat) :
    Hw.Within 11349182434963382837533881494243739595514612493578492732761445672842561311693747774452119629835928758954304218499890244 h (Hw.noteDecode h kind s c d data positions req source) := by
  unfold Hw.noteDecode
  repeat' first
    | intro _
    | extract_lets +onlyGivenNames v0; clear_value (e0 : v0 = _); (first | (with_reducible apply Hw.Within.let1 e0) | clear e0)
    | with_reducible apply Hw.Within.refl
    | with_reducible assumption
    | with_reducible apply Hw.Within.step (Hw.countFix_within ..); decide
    | with_reducible apply Hw.Within.step (Hw.noteCorrected_within ..); decide
    | with_reducible apply Hw.Within.step (Hw.noteUncorrectable_within ..); decide
    | with_reducible apply Hw.Within.ite
    | split

theorem Hw.readCol_within (h : Hw) (kind : Nat) (s : Nat) (c : Coord) (req : Option Nat) (source : Nat) (flips : List (Nat × Byte)) :
    Hw.Within 11349182434963382837533881494243739595514612493578492732761445672842561311693747774452119629835928758954304218499890244 h (Hw.readCol h kind s c req source flips).2.2 := by
  unfold Hw.readCol
  repeat' first
    | extract_lets +onlyGivenNames v0; clear_value (e0 : v0 = _); clear e0
    | with_reducible apply Hw.Within.refl
    | with_reducible apply Hw.Within.step (Hw.noteDecode_within ..); decide

theorem Hw.spareLanes_within (h : Hw) (g : Nat) :
    Hw.Within 1231497054230075221292109327356335894365390843282138223510116929491480585700192636455119547125442456369844679880708 h (Hw.spareLanes h g) := by
  unfold Hw.spareLanes
  repeat' first
    | intro _
    | extract_lets +onlyGivenNames v0; clear_value (e0 : v0 = _); (first | (with_reducible apply Hw.Within.let1 e0) | clear e0)
    | with_reducible apply Hw.Within.refl
    | with_reducible assumption
    | with_reducible apply Hw.Within.step (Hw.setReg_within ..); decide
    | with_reducible apply Hw.Within.step (Hw.logErr_within ..); decide
    | with_reducible apply Hw.Within.step (Hw.setPc_within ..); decide
    | with_reducible apply Hw.Within.fold
    | split

theorem Hw.putSector_within (h : Hw) (s : Nat) (off : Nat) (words : List (List Byte)) :
    Hw.Within 4194304 h (Hw.putSector h s off words) := by
  unfold Hw.putSector
  repeat' first
    | intro _
    | with_reducible apply Hw.Within.refl
    | with_reducible assumption
    | with_reducible apply Hw.Within.step (Hw.putRaw_within ..); decide
    | with_reducible apply Hw.Within.fold

end Sys2Proof.Machine
end

