-- ==== Sys2Proof/Laws/FrameAccess.lean ====
section
/-! SUPPORT. What each operation and command of Machine/Access.lean changes, and that it keeps canonical tables. -/

namespace Sys2Proof.Machine

theorem Hw.setWaiting_within (h : Hw) (k : Nat) (l : List Wcb) :
    Hw.Within 16384 h (Hw.setWaiting h k l) := by
  unfold Hw.setWaiting
  repeat' first
    | extract_lets +onlyGivenNames v0; clear_value (e0 : v0 = _); with_reducible apply Hw.Within.letMem e0; subst e0
    | rw [Hw.mk_mem]
    | with_reducible apply Hw.Within.refl
    | (with_reducible apply Hw.Within.stepMem); (· exact ⟨rfl, rfl, rfl⟩); (· decide)

theorem Hw.sendSettle_within (h : Hw) (d : Delta) :
    Hw.Within 262144 h (Hw.sendSettle h d) := by
  unfold Hw.sendSettle
  repeat' first
    | extract_lets +onlyGivenNames v0; clear_value (e0 : v0 = _); clear e0
    | rw [Hw.mk_par]
    | with_reducible apply Hw.Within.refl
    | with_reducible apply Hw.Within.step (Hw.putPar_within ..); decide

theorem Hw.applyDelta_within (h : Hw) (d : Delta) :
    Hw.Within 11349182434963382837533881494243739595514612493578492732761445672842561311693747774452119629835928758954304218499890244 h (Hw.applyDelta h d) := by
  unfold Hw.applyDelta
  repeat' first
    | intro _
    | extract_lets +onlyGivenNames v0; clear_value (e0 : v0 = _); clear e0
    | with_reducible apply Hw.Within.refl
    | with_reducible assumption
    | with_reducible apply Hw.Within.step (Hw.putRaw_within ..); decide
    | with_reducible apply Hw.Within.step (Hw.readCol_within ..); decide
    | with_reducible apply Hw.Within.ite
    | with_reducible apply Hw.Within.fold

theorem Hw.settleDeltas_within (h : Hw) (t : Nat) (off : Nat) :
    Hw.Within 11349182434963382837533881494243739595514612493578492732761445672842561311693747774452119629835928758954304218499890244 h (Hw.settleDeltas h t off) := by
  unfold Hw.settleDeltas
  repeat' first
    | intro _
    | extract_lets +onlyGivenNames v0; clear_value (e0 : v0 = _); (first | (with_reducible apply Hw.Within.let1 e0) | clear e0)
    | rw [Hw.mk_par]
    | with_reducible apply Hw.Within.refl
    | with_reducible assumption
    | with_reducible apply Hw.Within.step (Hw.sendSettle_within ..); decide
    | with_reducible apply Hw.Within.step (Hw.applyDelta_within ..); decide
    | with_reducible apply Hw.Within.step (Hw.putPar_within ..); decide
    | with_reducible apply Hw.Within.fold

theorem Hw.setQueue_within (h : Hw) (g : Nat) (q : List QEntry) :
    Hw.Within 170141183460469231731687303715884113924 h (Hw.setQueue h g q) := by
  unfold Hw.setQueue
  repeat' first
    | intro _
    | extract_lets +onlyGivenNames v0; clear_value (e0 : v0 = _); (first | (with_reducible apply Hw.Within.let1 e0) | clear e0)
    | rw [Hw.mk_sl]
    | with_reducible apply Hw.Within.refl
    | with_reducible assumption
    | with_reducible apply Hw.Within.step (Hw.setPc_within ..); decide
    | with_reducible apply Hw.Within.step (Hw.setReg_within ..); decide
    | with_reducible apply Hw.Within.step (Hw.putSl_within ..); decide
    | with_reducible apply Hw.Within.ite

theorem Hw.setStage_within (h : Hw) (s : Nat) (q : List QEntry) :
    Hw.Within 8192 h (Hw.setStage h s q) := by
  unfold Hw.setStage
  repeat' first
    | extract_lets +onlyGivenNames v0; clear_value (e0 : v0 = _); clear e0
    | rw [Hw.mk_sl]
    | with_reducible apply Hw.Within.refl
    | with_reducible apply Hw.Within.step (Hw.putSl_within ..); decide

theorem Hw.settleQueued_within (h : Hw) (k : Nat) :
    Hw.Within 170141183460469231731687303715888308228 h (Hw.settleQueued h k) := by
  unfold Hw.settleQueued
  repeat' first
    | intro _
    | extract_lets +onlyGivenNames v0; clear_value (e0 : v0 = _); (first | (with_reducible apply Hw.Within.let1 e0) | clear e0)
    | with_reducible apply Hw.Within.refl
    | with_reducible assumption
    | with_reducible apply Hw.Within.step (Hw.setQueue_within ..); decide
    | with_reducible apply Hw.Within.step (Hw.setStage_within ..); decide
    | with_reducible apply Hw.Within.step (Hw.putRaw_within ..); decide
    | with_reducible apply Hw.Within.ite
    | with_reducible apply Hw.Within.fold

theorem Hw.degradedCol_within (h : Hw) (s : Nat) (off : Nat) :
    Hw.Within 11349182434963382837533881494243739595514612493578492732761445672842561311693747774452119629835928758954304218499890244 h (Hw.degradedCol h s off).2 := by
  unfold Hw.degradedCol
  repeat' first
    | intro _
    | extract_lets +onlyGivenNames v0; clear_value (e0 : v0 = _); (first | (with_reducible apply Hw.Within.let1 e0) | clear e0)
    | with_reducible apply Hw.Within.refl
    | with_reducible assumption
    | with_reducible apply Hw.Within.step (Hw.settleDeltas_within ..); decide
    | with_reducible apply Hw.Within.step (Hw.settleQueued_within ..); decide
    | with_reducible apply Hw.Within.step (Hw.readCol_within ..); decide
    | with_reducible apply Hw.Within.ite2
    | with_reducible apply Hw.Within.fold
    | with_reducible apply Hw.Within.fold2
    | (split <;> (rename_i e0; with_reducible apply Hw.Within.trd; case e => with_reducible apply e0))
    | split

theorem Hw.cipherCol_within (h : Hw) (kind : Nat) (s : Nat) (off : Nat) (req : Option Nat) (source : Nat) :
    Hw.Within 11349182434963382837533881494243739595514612493578492732761445672842561311693747774452119629835928758954304218499890244 h (Hw.cipherCol h kind s off req source).2.2 := by
  unfold Hw.cipherCol
  repeat' first
    | intro _
    | extract_lets +onlyGivenNames v0; clear_value (e0 : v0 = _); clear e0
    | with_reducible apply Hw.Within.refl
    | with_reducible assumption
    | with_reducible apply Hw.Within.step (Hw.degradedCol_within ..); decide
    | with_reducible apply Hw.Within.step (Hw.readCol_within ..); decide
    | (split <;> (rename_i e0; with_reducible apply Hw.Within.snd; case e => with_reducible apply e0))
    | (split <;> (rename_i e0; with_reducible apply Hw.Within.trd; case e => with_reducible apply e0))
    | split

theorem Hw.storeLost_within (h : Hw) (s : Nat) (off : Nat) (w : Wcb) :
    Hw.Within 11349182434963382837533881494243739595514612493578492732761445672842561311693747774452119629835928758954304218499890244 h (Hw.storeLost h s off w) := by
  unfold Hw.storeLost
  repeat' first
    | intro _
    | extract_lets +onlyGivenNames v0; clear_value (e0 : v0 = _); (first | (with_reducible apply Hw.Within.let1 e0) | (with_reducible apply Hw.Within.let2 e0) | clear e0)
    | with_reducible apply Hw.Within.refl
    | with_reducible assumption
    | with_reducible apply Hw.Within.step (Hw.cipherCol_within ..); decide
    | with_reducible apply Hw.Within.step (Hw.settleDeltas_within ..); decide
    | with_reducible apply Hw.Within.step (Hw.settleQueued_within ..); decide
    | with_reducible apply Hw.Within.step (Hw.sendSettle_within ..); decide
    | with_reducible apply Hw.Within.step (Hw.putRaw_within ..); decide
    | with_reducible apply Hw.Within.ite
    | with_reducible apply Hw.Within.fold
    | with_reducible apply Hw.Within.fold2
    | split

theorem Hw.pushStage_within (h : Hw) (s : Nat) (x : QEntry) :
    Hw.Within 1404466041180076651609555628569572171763096175167957815800891317631805512362937682926387420218065840712345626615812 h (Hw.pushStage h s x) := by
  unfold Hw.pushStage
  repeat' first
    | intro _
    | extract_lets +onlyGivenNames v0; clear_value (e0 : v0 = _); (first | (with_reducible apply Hw.Within.let1 e0) | clear e0)
    | with_reducible apply Hw.Within.refl
    | with_reducible assumption
    | with_reducible apply Hw.Within.step (Hw.countFix_within ..); decide
    | with_reducible apply Hw.Within.step (Hw.setStage_within ..); decide
    | with_reducible apply Hw.Within.ite

theorem Hw.stageDelta_within (h : Hw) (d : Delta) :
    Hw.Within 264192 h (Hw.stageDelta h d) := by
  unfold Hw.stageDelta
  repeat' first
    | intro _
    | extract_lets +onlyGivenNames v0; clear_value (e0 : v0 = _); (first | (with_reducible apply Hw.Within.let1 e0) | clear e0)
    | rw [Hw.mk_par]
    | with_reducible apply Hw.Within.refl
    | with_reducible assumption
    | with_reducible apply Hw.Within.step (Hw.sendQanat_within ..); decide
    | with_reducible apply Hw.Within.step (Hw.putPar_within ..); decide

theorem Hw.mergeSector_within (h : Hw) (s : Nat) (off : Nat) (w : Wcb) :
    Hw.Within 11349182434963382837533881494243739595514612493578492732761445672842561311693747774452119629835928758954304218499890244 h (Hw.mergeSector h s off w).2 := by
  unfold Hw.mergeSector
  repeat' first
    | intro _
    | extract_lets +onlyGivenNames v0; clear_value (e0 : v0 = _); (first | (with_reducible apply Hw.Within.let1 e0) | (with_reducible apply Hw.Within.let2 e0) | clear e0)
    | with_reducible apply Hw.Within.refl
    | with_reducible assumption
    | with_reducible apply Hw.Within.step (Hw.cipherCol_within ..); decide
    | with_reducible apply Hw.Within.step (Hw.stageDelta_within ..); decide
    | with_reducible apply Hw.Within.fold2
    | split

theorem Hw.evictNow_within (h : Hw) (k : Nat) (w : Wcb) :
    Hw.Within 11349182434963382837533881494243739595514612493578492732761445672842561311693747774452119629835928758954304218499906628 h (Hw.evictNow h k w) := by
  unfold Hw.evictNow
  repeat' first
    | intro _
    | extract_lets +onlyGivenNames v0; clear_value (e0 : v0 = _); (first | (with_reducible apply Hw.Within.let1 e0) | (with_reducible apply Hw.Within.letMem e0; subst e0) | clear e0)
    | rw [Hw.mk_mem]
    | with_reducible apply Hw.Within.refl
    | with_reducible assumption
    | with_reducible apply Hw.Within.step (Hw.countSel_within ..); decide
    | with_reducible apply Hw.Within.step (Hw.storeLost_within ..); decide
    | with_reducible apply Hw.Within.step (Hw.pushStage_within ..); decide
    | with_reducible apply Hw.Within.step (Hw.mergeSector_within ..); decide
    | (with_reducible apply Hw.Within.stepMem); (· exact ⟨rfl, rfl, rfl⟩); (· decide)
    | with_reducible apply Hw.Within.ite

theorem Hw.evict_within (h : Hw) (k : Nat) (promoted : Option Nat) :
    Hw.Within 11349182434963382837533881494243739595514612493578492732761445672842561311693747774452119629835928758954304218499906628 h (Hw.evict h k promoted) := by
  unfold Hw.evict
  repeat' first
    | intro _
    | extract_lets +onlyGivenNames v0; clear_value (e0 : v0 = _); (first | (with_reducible apply Hw.Within.let1 e0) | (with_reducible apply Hw.Within.letMem e0; subst e0) | clear e0)
    | rw [Hw.mk_mem]
    | with_reducible apply Hw.Within.refl
    | with_reducible assumption
    | with_reducible apply Hw.Within.step (Hw.setWaiting_within ..); decide
    | with_reducible apply Hw.Within.step (Hw.evictNow_within ..); decide
    | (with_reducible apply Hw.Within.stepMem); (· exact ⟨rfl, rfl, rfl⟩); (· decide)
    | with_reducible apply Hw.Within.ite
    | split

theorem Hw.finishRmw_within (h : Hw) (k : Nat) :
    Hw.Within 11349182434963382837533881494243739595514612493578492732761445672842561311693747774452119629835928758954304218499906628 h (Hw.finishRmw h k) := by
  unfold Hw.finishRmw
  repeat' first
    | intro _
    | extract_lets +onlyGivenNames v0; clear_value (e0 : v0 = _); (first | (with_reducible apply Hw.Within.let1 e0) | (with_reducible apply Hw.Within.letMem e0; subst e0) | clear e0)
    | rw [Hw.mk_mem]
    | with_reducible apply Hw.Within.refl
    | with_reducible assumption
    | with_reducible apply Hw.Within.step (Hw.mergeSector_within ..); decide
    | with_reducible apply Hw.Within.step (Hw.pushStage_within ..); decide
    | (with_reducible apply Hw.Within.stepMem); (· exact ⟨rfl, rfl, rfl⟩); (· decide)
    | split

theorem Hw.drainRmw_within (h : Hw) (k : Nat) :
    Hw.Within 11349182434963382837533881494243739595514612493578492732761445672842561311693747774452119629835928758954304218499906628 h (Hw.drainRmw h k) := by
  unfold Hw.drainRmw
  repeat' first
    | intro _
    | extract_lets +onlyGivenNames v0; clear_value (e0 : v0 = _); (first | (with_reducible apply Hw.Within.let1 e0) | clear e0)
    | with_reducible apply Hw.Within.refl
    | with_reducible assumption
    | with_reducible apply Hw.Within.step (Hw.setQueue_within ..); decide
    | with_reducible apply Hw.Within.step (Hw.setStage_within ..); decide
    | with_reducible apply Hw.Within.step (Hw.finishRmw_within ..); decide
    | with_reducible apply Hw.Within.step (Hw.settleQueued_within ..); decide
    | split

theorem Hw.flushSector_within (h : Hw) (k : Nat) :
    Hw.Within 11349182434963382837533881494243739595514612493578492732761445672842561311693747774452119629835928758954304218499906628 h (Hw.flushSector h k) := by
  unfold Hw.flushSector
  repeat' first
    | intro _
    | extract_lets +onlyGivenNames v0; clear_value (e0 : v0 = _); (first | (with_reducible apply Hw.Within.let1 e0) | (with_reducible apply Hw.Within.letMem e0; subst e0) | clear e0)
    | rw [Hw.mk_mem]
    | with_reducible apply Hw.Within.refl
    | with_reducible assumption
    | with_reducible apply Hw.Within.step (Hw.drainRmw_within ..); decide
    | with_reducible apply Hw.Within.step (Hw.settleQueued_within ..); decide
    | with_reducible apply Hw.Within.step (Hw.setWaiting_within ..); decide
    | with_reducible apply Hw.Within.step (Hw.evictNow_within ..); decide
    | (with_reducible apply Hw.Within.stepMem); (· exact ⟨rfl, rfl, rfl⟩); (· decide)
    | with_reducible apply Hw.Within.fold
    | split

theorem Hw.plainCol_within (h : Hw) (kind : Nat) (s : Nat) (off : Nat) (req : Option Nat) (source : Nat) :
    Hw.Within 11349182434963382837533881494243739595514612493578492732761445672842561311693747774452119629835928758954304218499890244 h (Hw.plainCol h kind s off req source).2.2 := by
  unfold Hw.plainCol
  repeat' first
    | with_reducible apply Hw.Within.refl
    | with_reducible apply Hw.Within.step (Hw.cipherCol_within ..); decide

theorem Hw.readLines_within (h : Hw) (k : Nat) (lo : Nat) (hi : Nat) (req : Option Nat) (source : Nat) :
    Hw.Within 11349182434963382837533881494243739595514612493578492732761445672842561311693747774452119629835928758954304218499906628 h (Hw.readLines h k lo hi req source).2 := by
  unfold Hw.readLines
  repeat' first
    | intro _
    | extract_lets +onlyGivenNames v0; clear_value (e0 : v0 = _); (first | (with_reducible apply Hw.Within.let1 e0) | clear e0)
    | with_reducible apply Hw.Within.refl
    | with_reducible assumption
    | with_reducible apply Hw.Within.step (Hw.flushSector_within ..); decide
    | with_reducible apply Hw.Within.step (Hw.plainCol_within ..); decide
    | with_reducible apply Hw.Within.step (Hw.logCol_within ..); decide
    | with_reducible apply Hw.Within.ite
    | with_reducible apply Hw.Within.fold2

theorem Hw.readBytes_within (h : Hw) (s : Nat) (o : Nat) (len : Nat) (req : Option Nat) (source : Nat) :
    Hw.Within 11349182434963382837533881494243739595514612493578492732761445672842561311693747774452119629835928758954304218499906628 h (Hw.readBytes h s o len req source).2.2 := by
  unfold Hw.readBytes
  repeat' first
    | intro _
    | extract_lets +onlyGivenNames v0; clear_value (e0 : v0 = _); (first | (with_reducible apply Hw.Within.let2 e0) | clear e0)
    | with_reducible apply Hw.Within.refl
    | with_reducible assumption
    | with_reducible apply Hw.Within.step (Hw.readLines_within ..); decide
    | with_reducible apply Hw.Within.fold2

theorem Hw.wcbDrain_within (h : Hw) (s : Nat) :
    Hw.Within 11349182434963382837533881494243739595514612493578492732761445672842561311693747774452119629835928758954304218499906628 h (Hw.wcbDrain h s) := by
  unfold Hw.wcbDrain
  repeat' first
    | intro _
    | with_reducible apply Hw.Within.refl
    | with_reducible assumption
    | with_reducible apply Hw.Within.step (Hw.evict_within ..); decide
    | with_reducible apply Hw.Within.ite
    | with_reducible apply Hw.Within.fold

theorem Hw.wcbTriggers_within (h : Hw) (k : Nat) :
    Hw.Within 11349182434963382837533881494243739595514612493578492732761445672842561311693747774452119629835928758954304218499906628 h (Hw.wcbTriggers h k) := by
  unfold Hw.wcbTriggers
  repeat' first
    | intro _
    | extract_lets +onlyGivenNames v0; clear_value (e0 : v0 = _); with_reducible apply Hw.Within.let1 e0
    | with_reducible apply Hw.Within.refl
    | with_reducible assumption
    | with_reducible apply Hw.Within.step (Hw.evict_within ..); decide
    | with_reducible apply Hw.Within.step (Hw.wcbDrain_within ..); decide
    | with_reducible apply Hw.Within.ite
    | split

theorem Hw.mergeBytes_within (h : Hw) (k : Nat) (lo : Nat) (data : List Byte) (mask : List Bool) (psn : List Nat) (who : Writer) :
    Hw.Within 11349182434963382837533881494243739595514612493578492732761445672842561311693747774452119629835928758954304218499906628 h (Hw.mergeBytes h k lo data mask psn who) := by
  unfold Hw.mergeBytes
  repeat' first
    | intro _
    | extract_lets +onlyGivenNames v0; clear_value (e0 : v0 = _); (first | (with_reducible apply Hw.Within.let1 e0) | (with_reducible apply Hw.Within.letMem e0; subst e0) | clear e0)
    | rw [Hw.mk_mem]
    | with_reducible apply Hw.Within.refl
    | with_reducible assumption
    | with_reducible apply Hw.Within.step (Hw.wcbTriggers_within ..); decide
    | (with_reducible apply Hw.Within.stepMem); (· exact ⟨rfl, rfl, rfl⟩); (· decide)

theorem Hw.writeBytes_within (h : Hw) (s : Nat) (o : Nat) (data : List Byte) (mask : List Bool) (psn : List Bool) (who : Writer) (mirror : Bool) :
    Hw.Within 11349182434963382837533881494243739595514612493578492732761445672842561311693747774452119629835928758954304218499906628 h (Hw.writeBytes h s o data mask psn who mirror) := by
  unfold Hw.writeBytes
  repeat' first
    | intro _
    | extract_lets +onlyGivenNames v0; clear_value (e0 : v0 = _); (first | (with_reducible apply Hw.Within.let1 e0) | clear e0)
    | with_reducible apply Hw.Within.refl
    | with_reducible assumption
    | with_reducible apply Hw.Within.step (Hw.sendMirror_within ..); decide
    | with_reducible apply Hw.Within.step (Hw.mergeBytes_within ..); decide
    | with_reducible apply Hw.Within.ite
    | with_reducible apply Hw.Within.fold

theorem Hw.nextEvict_within (h : Hw) (k : Nat) :
    Hw.Within 11349182434963382837533881494243739595514612493578492732761445672842561311693747774452119629835928758954304218499906628 h (Hw.nextEvict h k) := by
  unfold Hw.nextEvict
  repeat' first
    | intro _
    | extract_lets +onlyGivenNames v0; clear_value (e0 : v0 = _); (first | (with_reducible apply Hw.Within.let1 e0) | clear e0)
    | with_reducible apply Hw.Within.refl
    | with_reducible assumption
    | with_reducible apply Hw.Within.step (Hw.setWaiting_within ..); decide
    | with_reducible apply Hw.Within.step (Hw.evictNow_within ..); decide
    | with_reducible apply Hw.Within.fold1
    | split

end Sys2Proof.Machine
end

