-- ==== Sys2Proof/Laws/FrameDir.lean ====
section
/-! SUPPORT. What each operation and command of Machine/Dir.lean changes, and that it keeps canonical tables. -/

namespace Sys2Proof.Machine

theorem Hw.queueSnoop_within (h : Hw) (tag : Nat) (x : Snoop) :
    Hw.Within 4096 h (Hw.queueSnoop h tag x) := by
  unfold Hw.queueSnoop
  repeat' first
    | extract_lets +onlyGivenNames v0; clear_value (e0 : v0 = _); clear e0
    | with_reducible apply Hw.Within.refl
    | with_reducible apply Hw.Within.step (Hw.setPort_within ..); decide
    | with_reducible apply Hw.Within.ite

theorem Hw.issueSnoop_within (h : Hw) (ds : Nat) (slot : Nat) (x : Snoop) :
    Hw.Within 1231312693637327475383720003129487931408741852202045208373384168882678805370176867348165851295981601213023707500548 h (Hw.issueSnoop h ds slot x) := by
  unfold Hw.issueSnoop
  repeat' first
    | intro _
    | extract_lets +onlyGivenNames v0; clear_value (e0 : v0 = _); (first | (with_reducible apply Hw.Within.let1 e0) | clear e0)
    | rw [Hw.mk_coh]
    | with_reducible apply Hw.Within.refl
    | with_reducible assumption
    | with_reducible apply Hw.Within.step (Hw.queueSnoop_within ..); decide
    | with_reducible apply Hw.Within.step (Hw.countSel_within ..); decide
    | with_reducible apply Hw.Within.step (Hw.addReg_within ..); decide
    | with_reducible apply Hw.Within.step (Hw.putCoh_within ..); decide

theorem Hw.dirCount_within (h : Hw) (ds : Nat) (e : DirEntry) (add : Bool) :
    Hw.Within 4083388403051271232967052206214616186884 h (Hw.dirCount h ds e add) := by
  unfold Hw.dirCount
  repeat' first
    | intro _
    | extract_lets +onlyGivenNames v0; clear_value (e0 : v0 = _); with_reducible apply Hw.Within.let1 e0
    | with_reducible apply Hw.Within.refl
    | with_reducible assumption
    | with_reducible apply Hw.Within.step (Hw.addReg_within ..); decide
    | with_reducible apply Hw.Within.step (Hw.subReg_within ..); decide
    | with_reducible apply Hw.Within.ite

theorem Hw.setWay_within (h : Hw) (key : Nat) (e : DirEntry) :
    Hw.Within 4083388403051271232967052206214616219652 h (Hw.setWay h key e) := by
  unfold Hw.setWay
  repeat' first
    | intro _
    | extract_lets +onlyGivenNames v0; clear_value (e0 : v0 = _); (first | (with_reducible apply Hw.Within.let1 e0) | clear e0)
    | rw [Hw.mk_coh]
    | with_reducible apply Hw.Within.refl
    | with_reducible assumption
    | with_reducible apply Hw.Within.step (Hw.dirCount_within ..); decide
    | with_reducible apply Hw.Within.step (Hw.putCoh_within ..); decide

theorem Hw.freeWay_within (h : Hw) (key : Nat) :
    Hw.Within 4083388403051271232967052206214616219652 h (Hw.freeWay h key) := by
  unfold Hw.freeWay
  repeat' first
    | with_reducible apply Hw.Within.refl
    | with_reducible apply Hw.Within.step (Hw.setWay_within ..); decide

theorem Hw.logLoss_within (h : Hw) (p : Nat) (kind : Nat) (requester : Nat) (dpa : Nat) (stale : Bool) :
    Hw.Within 348170636049013202317475844 h (Hw.logLoss h p kind requester dpa stale) := by
  unfold Hw.logLoss
  repeat' first
    | intro _
    | extract_lets +onlyGivenNames v0; clear_value (e0 : v0 = _); clear e0
    | rw [Hw.mk_msg]
    | with_reducible apply Hw.Within.refl
    | with_reducible assumption
    | with_reducible apply Hw.Within.step (Hw.ringAdvance_within ..); decide
    | with_reducible apply Hw.Within.step (Hw.putMsg_within ..); decide
    | (split <;> (rename_i e0; with_reducible apply Hw.Within.snd; case e => with_reducible apply e0))

theorem Hw.ownerLoss_within (h : Hw) (key : Nat) (byTimeout : Bool) :
    Hw.Within 4083388403051619403603101219416933695492 h (Hw.ownerLoss h key byTimeout) := by
  unfold Hw.ownerLoss
  repeat' first
    | extract_lets +onlyGivenNames v0; clear_value (e0 : v0 = _); clear e0
    | with_reducible apply Hw.Within.refl
    | with_reducible apply Hw.Within.step (Hw.freeWay_within ..); decide
    | with_reducible apply Hw.Within.step (Hw.setWay_within ..); decide
    | with_reducible apply Hw.Within.step (Hw.logLoss_within ..); decide
    | with_reducible apply Hw.Within.ite

theorem Hw.sendSnoop_within (h : Hw) (ds : Nat) (x : Snoop) :
    Hw.Within 1231312693637327475383720003129487931408741852202045208373384168882678805370176867348165851295981601213023707500548 h (Hw.sendSnoop h ds x) := by
  unfold Hw.sendSnoop
  repeat' first
    | extract_lets +onlyGivenNames v0; clear_value (e0 : v0 = _); clear e0
    | rw [Hw.mk_coh]
    | with_reducible apply Hw.Within.refl
    | with_reducible apply Hw.Within.step (Hw.issueSnoop_within ..); decide
    | with_reducible apply Hw.Within.step (Hw.putCoh_within ..); decide
    | split

theorem Hw.unbusy_within (h : Hw) (key : Nat) :
    Hw.Within 4083388403051271232967052206214616219652 h (Hw.unbusy h key) := by
  unfold Hw.unbusy
  repeat' first
    | intro _
    | extract_lets +onlyGivenNames v0; clear_value (e0 : v0 = _); (first | (with_reducible apply Hw.Within.let1 e0) | clear e0)
    | rw [Hw.mk_coh]
    | with_reducible apply Hw.Within.refl
    | with_reducible assumption
    | with_reducible apply Hw.Within.step (Hw.setWay_within ..); decide
    | with_reducible apply Hw.Within.step (Hw.freeWay_within ..); decide
    | with_reducible apply Hw.Within.step (Hw.putCoh_within ..); decide
    | with_reducible apply Hw.Within.ite

theorem Hw.oneLess_within (h : Hw) (key : Nat) :
    Hw.Within 4083388403051271232967052206214616219652 h (Hw.oneLess h key) := by
  unfold Hw.oneLess
  repeat' first
    | extract_lets +onlyGivenNames v0; clear_value (e0 : v0 = _); clear e0
    | rw [Hw.mk_coh]
    | with_reducible apply Hw.Within.refl
    | with_reducible apply Hw.Within.step (Hw.unbusy_within ..); decide
    | with_reducible apply Hw.Within.step (Hw.putCoh_within ..); decide
    | with_reducible apply Hw.Within.ite
    | split

theorem Hw.answered_within (h : Hw) (key : Nat) (r : Nat) (keptShared : Bool) (wasOwner : Bool) (lost : Bool) (byTimeout : Bool) :
    Hw.Within 4083388403051619403603101219416933695492 h (Hw.answered h key r keptShared wasOwner lost byTimeout) := by
  unfold Hw.answered
  repeat' first
    | intro _
    | extract_lets +onlyGivenNames v0; clear_value (e0 : v0 = _); (first | (with_reducible apply Hw.Within.let1 e0) | clear e0)
    | with_reducible apply Hw.Within.refl
    | with_reducible assumption
    | with_reducible apply Hw.Within.step (Hw.ownerLoss_within ..); decide
    | with_reducible apply Hw.Within.step (Hw.setWay_within ..); decide
    | with_reducible apply Hw.Within.step (Hw.oneLess_within ..); decide
    | with_reducible apply Hw.Within.ite

theorem Hw.snoopHolders_within (h : Hw) (s : Nat) (key : Nat) (line : Nat) (r : Nat) (data : Bool) (gather : Bool) :
    Hw.Within 1231312693637327475383720003129487931408741852202045208373384168882678805374260255751217470699584702432440641163268 h (Hw.snoopHolders h s key line r data gather) := by
  unfold Hw.snoopHolders
  repeat' first
    | intro _
    | extract_lets +onlyGivenNames v0; clear_value (e0 : v0 = _); (first | (with_reducible apply Hw.Within.let1 e0) | clear e0)
    | rw [Hw.mk_coh]
    | with_reducible apply Hw.Within.refl
    | with_reducible assumption
    | with_reducible apply Hw.Within.step (Hw.setWay_within ..); decide
    | with_reducible apply Hw.Within.step (Hw.sendSnoop_within ..); decide
    | with_reducible apply Hw.Within.step (Hw.answered_within ..); decide
    | with_reducible apply Hw.Within.step (Hw.oneLess_within ..); decide
    | with_reducible apply Hw.Within.step (Hw.putCoh_within ..); decide
    | with_reducible apply Hw.Within.ite
    | with_reducible apply Hw.Within.fold

theorem Hw.lookEntry_within (h : Hw) (s : Nat) (line : Nat) (key : Nat) (ask : Ask) :
    Hw.Within 1231312693637327475383720003129487931408741852202045208373384168882678805374260255751217470699584702432440641163268 h (Hw.lookEntry h s line key ask).2 := by
  unfold Hw.lookEntry
  extract_lets ent others snoop free
  have hs : ∀ r d, Hw.Within 1231312693637327475383720003129487931408741852202045208373384168882678805374260255751217470699584702432440641163268 h (snoop r d).2 := fun r d =>
    (Hw.snoopHolders_within ..).step (m := 1231312693637327475383720003129487931408741852202045208373384168882678805374260255751217470699584702432440641163268) (by decide) (Hw.Within.refl _ _)
  have hf : Hw.Within 1231312693637327475383720003129487931408741852202045208373384168882678805374260255751217470699584702432440641163268 h free.2 := (Hw.freeWay_within ..).step (m := 1231312693637327475383720003129487931408741852202045208373384168882678805374260255751217470699584702432440641163268) (by decide) (Hw.Within.refl _ _)
  clear_value snoop free others ent
  split <;> (try split) <;> first
    | exact hs _ _
    | exact hf
    | exact Hw.Within.refl _ _
    | (with_reducible apply Hw.Within.step (Hw.setWay_within ..); (· decide); (· exact Hw.Within.refl _ _))

theorem Hw.allocate_within (h : Hw) (s : Nat) (line : Nat) (e : DirEntry) :
    Hw.Within 1231312693637327475383720003129487931408741852202045208373384168882678805379704773621952486114998696151348932546564 h (Hw.allocate h s line e).2 := by
  unfold Hw.allocate
  repeat' first
    | intro _
    | extract_lets +onlyGivenNames v0; clear_value (e0 : v0 = _); (first | (with_reducible apply Hw.Within.let1 e0) | clear e0)
    | rw [Hw.mk_coh]
    | with_reducible apply Hw.Within.refl
    | with_reducible assumption
    | with_reducible apply Hw.Within.step (Hw.setWay_within ..); decide
    | with_reducible apply Hw.Within.step (Hw.addReg_within ..); decide
    | with_reducible apply Hw.Within.step (Hw.snoopHolders_within ..); decide
    | with_reducible apply Hw.Within.step (Hw.putCoh_within ..); decide
    | split

theorem Hw.lookInvalid_within (h : Hw) (s : Nat) (line : Nat) (ask : Ask) :
    Hw.Within 1231312693637327475383720003129487931408741852202045208373384168882678805379704773621952486114998696151348932546564 h (Hw.lookInvalid h s line ask).2 := by
  unfold Hw.lookInvalid
  repeat' first
    | with_reducible apply Hw.Within.refl
    | with_reducible apply Hw.Within.step (Hw.allocate_within ..); decide
    | split

theorem Hw.gatherLine_within (h : Hw) (s : Nat) (line : Nat) :
    Hw.Within 1231312693637327475383720003129487931408741852202045208373384168882678805379704773621952486114998696151348932546564 h (Hw.gatherLine h s line) := by
  unfold Hw.gatherLine
  repeat' first
    | extract_lets +onlyGivenNames v0; clear_value (e0 : v0 = _); clear e0
    | with_reducible apply Hw.Within.refl
    | with_reducible apply Hw.Within.step (Hw.snoopHolders_within ..); decide
    | with_reducible apply Hw.Within.step (Hw.setWay_within ..); decide
    | with_reducible apply Hw.Within.step (Hw.allocate_within ..); decide
    | split

theorem Hw.lookLine_within (h : Hw) (s : Nat) (line : Nat) (ask : Ask) (gathered : Bool) :
    Hw.Within 1231312693637327475383720003129487931408741852202045208373384168882678805379704773621952486114998696151348932546564 h (Hw.lookLine h s line ask gathered).2 := by
  unfold Hw.lookLine
  repeat' first
    | intro _
    | extract_lets +onlyGivenNames v0; clear_value (e0 : v0 = _); (first | (with_reducible apply Hw.Within.let1 e0) | clear e0)
    | with_reducible apply Hw.Within.refl
    | with_reducible assumption
    | with_reducible apply Hw.Within.step (Hw.ownerLoss_within ..); decide
    | with_reducible apply Hw.Within.step (Hw.lookEntry_within ..); decide
    | with_reducible apply Hw.Within.step (Hw.lookInvalid_within ..); decide
    | with_reducible apply Hw.Within.step (Hw.gatherLine_within ..); decide
    | with_reducible apply Hw.Within.ite
    | with_reducible apply Hw.Within.ite2
    | split

theorem Hw.lookLines_within (h : Hw) (s : Nat) (lo : Nat) (hi : Nat) (ask : Nat → Ask) (gathered : List Nat) :
    Hw.Within 1231312693637327475383720003129487931408741852202045208373384168882678805379704773621952486114998696151348932546564 h (Hw.lookLines h s lo hi ask gathered).2.2 := by
  unfold Hw.lookLines
  repeat' first
    | intro _
    | extract_lets +onlyGivenNames v0; clear_value (e0 : v0 = _); clear e0
    | with_reducible apply Hw.Within.refl
    | with_reducible assumption
    | with_reducible apply Hw.Within.step (Hw.lookLine_within ..); decide
    | with_reducible apply Hw.Within.fold3
    | split

theorem Hw.suspectSlice_within (h : Hw) (s : Nat) (v : Bool) :
    Hw.Within 87112285931760246646623899502532662165508 h (Hw.suspectSlice h s v) := by
  unfold Hw.suspectSlice
  repeat' first
    | intro _
    | extract_lets +onlyGivenNames v0; clear_value (e0 : v0 = _); (first | (with_reducible apply Hw.Within.let1 e0) | clear e0)
    | rw [Hw.mk_coh]
    | with_reducible apply Hw.Within.refl
    | with_reducible assumption
    | with_reducible apply Hw.Within.step (Hw.setReg_within ..); decide
    | with_reducible apply Hw.Within.step (Hw.putCoh_within ..); decide

end Sys2Proof.Machine
end

