-- ==== Sys2Proof/Laws/FrameSlice.lean ====
section
/-! SUPPORT. What each operation and command of Machine/Slice.lean changes, and that it keeps canonical tables. -/

namespace Sys2Proof.Machine

theorem Hw.freeSnoop_within (h : Hw) (ds : Nat) (slot : Nat) :
    Hw.Within 1231312693637327475383720003129487931408741852202045208373384168882678805370176867348165851295981601213023707500548 h (Hw.freeSnoop h ds slot) := by
  unfold Hw.freeSnoop
  repeat' first
    | intro _
    | extract_lets +onlyGivenNames v0; clear_value (e0 : v0 = _); (first | (with_reducible apply Hw.Within.let1 e0) | clear e0)
    | rw [Hw.mk_coh]
    | with_reducible apply Hw.Within.refl
    | with_reducible assumption
    | with_reducible apply Hw.Within.step (Hw.issueSnoop_within ..); decide
    | with_reducible apply Hw.Within.step (Hw.putCoh_within ..); decide
    | split

theorem Hw.markCoherent_within (h : Hw) (uid : Nat) (snooped : Bool) :
    Hw.Within 4096 h (Hw.markCoherent h uid snooped) := by
  unfold Hw.markCoherent
  repeat' first
    | with_reducible apply Hw.Within.refl
    | with_reducible apply Hw.Within.step (Hw.modTrk_within ..); decide

theorem Hw.creditDue_within (h : Hw) (g : Nat) (cls : Nat) :
    Hw.Within 4096 h (Hw.creditDue h g cls) := by
  unfold Hw.creditDue
  repeat' first
    | extract_lets +onlyGivenNames v0; clear_value (e0 : v0 = _); clear e0
    | rw [Hw.mk_req]
    | with_reducible apply Hw.Within.refl
    | with_reducible apply Hw.Within.step (Hw.putReq_within ..); decide

theorem Hw.creditsBack_within (h : Hw) (p : Piece) :
    Hw.Within 4096 h (Hw.creditsBack h p) := by
  unfold Hw.creditsBack
  repeat' first
    | intro _
    | with_reducible apply Hw.Within.refl
    | with_reducible assumption
    | with_reducible apply Hw.Within.step (Hw.creditDue_within ..); decide
    | with_reducible apply Hw.Within.fold

theorem Hw.finishRead_within (h : Hw) (uid : Nat) :
    Hw.Within 11347777784561610013136363548841360775862964909894048640369108500805891755407668870676896111633814371703863186880467012 h (Hw.finishRead h uid) := by
  unfold Hw.finishRead
  repeat' first
    | intro _
    | extract_lets +onlyGivenNames v0; clear_value (e0 : v0 = _); with_reducible apply Hw.Within.let1 e0
    | with_reducible apply Hw.Within.refl
    | with_reducible assumption
    | with_reducible apply Hw.Within.step (Hw.point_within ..); decide
    | with_reducible apply Hw.Within.step (Hw.complete_within ..); decide
    | split

theorem Hw.deliver_within (h : Hw) (uid : Nat) (at_ : Nat) (data : List Byte) (bad : Bool) (n : Nat) :
    Hw.Within 11347777784561610013136363548841360775862964909894048640369108500805891755407668870676896111633814371703863186880467012 h (Hw.deliver h uid at_ data bad n) := by
  unfold Hw.deliver
  repeat' first
    | intro _
    | extract_lets +onlyGivenNames v0; clear_value (e0 : v0 = _); (first | (with_reducible apply Hw.Within.let1 e0) | clear e0)
    | with_reducible apply Hw.Within.refl
    | with_reducible assumption
    | with_reducible apply Hw.Within.step (Hw.setTrk_within ..); decide
    | with_reducible apply Hw.Within.step (Hw.finishRead_within ..); decide
    | with_reducible apply Hw.Within.ite
    | split

theorem Hw.forceOut_within (h : Hw) (ks : List Nat) (cls : Nat) :
    Hw.Within 11349182434963382837533881494243739595514612493578492732761445672842561311693747774452119629835928758954304218499906628 h (Hw.forceOut h ks cls) := by
  unfold Hw.forceOut
  repeat' first
    | intro _
    | with_reducible apply Hw.Within.refl
    | with_reducible assumption
    | with_reducible apply Hw.Within.step (Hw.evict_within ..); decide
    | with_reducible apply Hw.Within.step (Hw.countFix_within ..); decide
    | with_reducible apply Hw.Within.ite
    | with_reducible apply Hw.Within.fold

theorem Hw.placeRow_within (h : Hw) (p : Piece) (phys : Nat) (lo : Nat) (len : Nat) :
    Hw.Within 11349182434963382837533881494243739595514612493578492732761445672842561311693747774452119629835928758954304218499906628 h (Hw.placeRow h p phys lo len) := by
  unfold Hw.placeRow
  repeat' first
    | intro _
    | extract_lets +onlyGivenNames v0; clear_value (e0 : v0 = _); (first | (with_reducible apply Hw.Within.let1 e0) | clear e0)
    | rw [Hw.mk_par]
    | with_reducible apply Hw.Within.refl
    | with_reducible assumption
    | with_reducible apply Hw.Within.step (Hw.forceOut_within ..); decide
    | with_reducible apply Hw.Within.step (Hw.pushStage_within ..); decide
    | with_reducible apply Hw.Within.step (Hw.putPar_within ..); decide
    | with_reducible apply Hw.Within.ite

theorem Hw.placeRead_within (h : Hw) (p : Piece) :
    Hw.Within 11349182434963382837533881494243739595514612493578492732761445672842561311693747774452119629835928758954304218499906628 h (Hw.placeRead h p) := by
  unfold Hw.placeRead
  repeat' first
    | intro _
    | extract_lets +onlyGivenNames v0; clear_value (e0 : v0 = _); (first | (with_reducible apply Hw.Within.let1 e0) | clear e0)
    | with_reducible apply Hw.Within.refl
    | with_reducible assumption
    | with_reducible apply Hw.Within.step (Hw.creditsBack_within ..); decide
    | with_reducible apply Hw.Within.step (Hw.setTrk_within ..); decide
    | with_reducible apply Hw.Within.step (Hw.deliver_within ..); decide
    | with_reducible apply Hw.Within.step (Hw.placeRow_within ..); decide
    | with_reducible apply Hw.Within.ite
    | with_reducible apply Hw.Within.fold
    | split

theorem Hw.placeOrHold_within (h : Hw) (p : Piece) :
    Hw.Within 11349182434963382837533881494243739595514612493578492732761445672842561311693747774452119629835928758954304218499906628 h (Hw.placeOrHold h p) := by
  unfold Hw.placeOrHold
  repeat' first
    | extract_lets +onlyGivenNames v0; clear_value (e0 : v0 = _); clear e0
    | rw [Hw.mk_sl]
    | with_reducible apply Hw.Within.refl
    | with_reducible apply Hw.Within.step (Hw.countSel_within ..); decide
    | with_reducible apply Hw.Within.step (Hw.complete_within ..); decide
    | with_reducible apply Hw.Within.step (Hw.creditsBack_within ..); decide
    | with_reducible apply Hw.Within.step (Hw.placeRead_within ..); decide
    | with_reducible apply Hw.Within.step (Hw.putSl_within ..); decide
    | with_reducible apply Hw.Within.ite

theorem Hw.acceptWrite_within (h : Hw) (uid : Nat) (status : Nat) (data : List Byte) (psn : List Bool) (m : Option Mirror) :
    Hw.Within 11347777784561610013136363548845339361754243203031291698354283067526695404614047652416419823448959647679963453884733508 h (Hw.acceptWrite h uid status data psn m) := by
  unfold Hw.acceptWrite
  repeat' first
    | intro _
    | extract_lets +onlyGivenNames v0; clear_value (e0 : v0 = _); with_reducible apply Hw.Within.let1 e0
    | with_reducible apply Hw.Within.refl
    | with_reducible assumption
    | with_reducible apply Hw.Within.step (Hw.point_within ..); decide
    | with_reducible apply Hw.Within.step (Hw.setTrk_within ..); decide
    | with_reducible apply Hw.Within.step (Hw.sendMirror_within ..); decide
    | with_reducible apply Hw.Within.step (Hw.complete_within ..); decide
    | split

theorem Hw.placeAtm_within (h : Hw) (p : Piece) :
    Hw.Within 11349182434963382837533881494243739595514612493578492732761445672842561311693747774452119629835928758954304218499906628 h (Hw.placeAtm h p) := by
  unfold Hw.placeAtm
  repeat' first
    | intro _
    | extract_lets +onlyGivenNames v0; clear_value (e0 : v0 = _); (first | (with_reducible apply Hw.Within.let1 e0) | clear e0)
    | with_reducible apply Hw.Within.refl
    | with_reducible assumption
    | with_reducible apply Hw.Within.step (Hw.creditsBack_within ..); decide
    | with_reducible apply Hw.Within.step (Hw.readBytes_within ..); decide
    | with_reducible apply Hw.Within.step (Hw.complete_within ..); decide
    | with_reducible apply Hw.Within.step (Hw.point_within ..); decide
    | with_reducible apply Hw.Within.step (Hw.writeBytes_within ..); decide
    | with_reducible apply Hw.Within.step (Hw.acceptWrite_within ..); decide
    | with_reducible apply Hw.Within.ite
    | split

theorem Hw.mapDescs_within (h : Hw) (f : Nat → Launch → Desc → Desc) :
    Hw.Within 65536 h (Hw.mapDescs h f) := by
  unfold Hw.mapDescs
  repeat' first
    | extract_lets +onlyGivenNames v0; clear_value (e0 : v0 = _); (first | (with_reducible apply Hw.Within.letCar e0; subst e0) | clear e0)
    | rw [Hw.mk_car]
    | with_reducible apply Hw.Within.refl
    | (with_reducible apply Hw.Within.stepCar); (· rfl); (· decide)

theorem Hw.pushWrite_within (h : Hw) (dpa : Nat) (len : Nat) (mask : List Bool) :
    Hw.Within 65536 h (Hw.pushWrite h dpa len mask) := by
  unfold Hw.pushWrite
  repeat' first
    | with_reducible apply Hw.Within.refl
    | with_reducible apply Hw.Within.step (Hw.mapDescs_within ..); decide

theorem Hw.placeWrite_within (h : Hw) (p : Piece) :
    Hw.Within 11349182434963382837533881494243739595514612493578492732761445672842561311693747774452119629835928758954304218499906628 h (Hw.placeWrite h p) := by
  unfold Hw.placeWrite
  repeat' first
    | intro _
    | extract_lets +onlyGivenNames v0; clear_value (e0 : v0 = _); (first | (with_reducible apply Hw.Within.let1 e0) | clear e0)
    | with_reducible apply Hw.Within.refl
    | with_reducible assumption
    | with_reducible apply Hw.Within.step (Hw.creditsBack_within ..); decide
    | with_reducible apply Hw.Within.step (Hw.acceptWrite_within ..); decide
    | with_reducible apply Hw.Within.step (Hw.writeBytes_within ..); decide
    | with_reducible apply Hw.Within.step (Hw.pushWrite_within ..); decide
    | with_reducible apply Hw.Within.step (Hw.complete_within ..); decide
    | with_reducible apply Hw.Within.ite
    | split

theorem Hw.place_within (h : Hw) (p : Piece) :
    Hw.Within 11349182434963382837533881494243739595514612493578492732761445672842561311693747774452119629835928758954304218499906628 h (Hw.place h p) := by
  unfold Hw.place
  repeat' first
    | with_reducible apply Hw.Within.refl
    | with_reducible apply Hw.Within.step (Hw.placeOrHold_within ..); decide
    | with_reducible apply Hw.Within.step (Hw.placeAtm_within ..); decide
    | with_reducible apply Hw.Within.step (Hw.placeWrite_within ..); decide
    | split

theorem Hw.consult_within (h : Hw) (p : Piece) :
    Hw.Within 11349182434963382837533881494243739595514612493578492732761445672842561311693768191394134886501578604036680360305622084 h (Hw.consult h p).2 := by
  unfold Hw.consult
  repeat' first
    | extract_lets +onlyGivenNames v0; clear_value (e0 : v0 = _); clear e0
    | with_reducible apply Hw.Within.refl
    | with_reducible apply Hw.Within.step (Hw.lookLines_within ..); decide
    | with_reducible apply Hw.Within.step (Hw.markCoherent_within ..); decide
    | with_reducible apply Hw.Within.step (Hw.place_within ..); decide
    | with_reducible apply Hw.Within.ite2

theorem Hw.setDirWaiting_within (h : Hw) (s : Nat) (q : List Piece) :
    Hw.Within 32768 h (Hw.setDirWaiting h s q) := by
  unfold Hw.setDirWaiting
  repeat' first
    | extract_lets +onlyGivenNames v0; clear_value (e0 : v0 = _); clear e0
    | rw [Hw.mk_coh]
    | with_reducible apply Hw.Within.refl
    | with_reducible apply Hw.Within.step (Hw.putCoh_within ..); decide

theorem Hw.retryWaiting_within (h : Hw) (ds : Nat) :
    Hw.Within 11349182434963382837533881494243739595514612493578492732761445672842561311693768191394134886501578604036680360305622084 h (Hw.retryWaiting h ds) := by
  unfold Hw.retryWaiting
  repeat' first
    | intro _
    | extract_lets +onlyGivenNames v0; clear_value (e0 : v0 = _); clear e0
    | with_reducible apply Hw.Within.refl
    | with_reducible assumption
    | with_reducible apply Hw.Within.step (Hw.consult_within ..); decide
    | with_reducible apply Hw.Within.step (Hw.setDirWaiting_within ..); decide
    | with_reducible apply Hw.Within.ite
    | with_reducible apply Hw.Within.fold
    | split

theorem Hw.resolveBirsp_within (h : Hw) (id : Nat) (requester : Nat) (dpa : Nat) (kind : Nat) :
    Hw.Within 11349182434963382837533881494243739595514612493578492732761445672842561311693811747537100766624901915986431626636688452 h (Hw.resolveBirsp h id requester dpa kind) := by
  unfold Hw.resolveBirsp
  repeat' first
    | intro _
    | extract_lets +onlyGivenNames v0; clear_value (e0 : v0 = _); (first | (with_reducible apply Hw.Within.let1 e0) | clear e0)
    | with_reducible apply Hw.Within.refl
    | with_reducible assumption
    | with_reducible apply Hw.Within.step (Hw.addReg_within ..); decide
    | with_reducible apply Hw.Within.step (Hw.freeSnoop_within ..); decide
    | with_reducible apply Hw.Within.step (Hw.retryWaiting_within ..); decide
    | with_reducible apply Hw.Within.step (Hw.answered_within ..); decide
    | with_reducible apply Hw.Within.ite
    | split

theorem Hw.acceptAll_within (h : Hw) (p : Nat) :
    Hw.Within 11349182434963382837533881494243739595514612493578492732761445672842561311693768191394134886501578604036680360305622084 h (Hw.acceptAll h p) := by
  unfold Hw.acceptAll
  repeat' first
    | intro _
    | extract_lets +onlyGivenNames v0; clear_value (e0 : v0 = _); (first | (with_reducible apply Hw.Within.let1 e0) | clear e0)
    | with_reducible apply Hw.Within.refl
    | with_reducible assumption
    | with_reducible apply Hw.Within.step (Hw.freeWay_within ..); decide
    | with_reducible apply Hw.Within.step (Hw.logLoss_within ..); decide
    | with_reducible apply Hw.Within.step (Hw.retryWaiting_within ..); decide
    | with_reducible apply Hw.Within.fold

theorem Hw.sweepSlice_within (h : Hw) (st : Nat) (r : Nat) :
    Hw.Within 11349182434963382837533881494243739595514612493578492732761445672842561311693768191394134886501578604036680360305622084 h (Hw.sweepSlice h st r) := by
  unfold Hw.sweepSlice
  repeat' first
    | intro _
    | extract_lets +onlyGivenNames v0; clear_value (e0 : v0 = _); (first | (with_reducible apply Hw.Within.let1 e0) | clear e0)
    | rw [Hw.mk_coh]
    | with_reducible apply Hw.Within.refl
    | with_reducible assumption
    | with_reducible apply Hw.Within.step (Hw.ownerLoss_within ..); decide
    | with_reducible apply Hw.Within.step (Hw.freeWay_within ..); decide
    | with_reducible apply Hw.Within.step (Hw.setWay_within ..); decide
    | with_reducible apply Hw.Within.step (Hw.retryWaiting_within ..); decide
    | with_reducible apply Hw.Within.step (Hw.putCoh_within ..); decide
    | with_reducible apply Hw.Within.ite
    | with_reducible apply Hw.Within.fold

theorem Hw.finishSweeps_within (h : Hw) (r : Nat) :
    Hw.Within 11349182434963382837533881494243739595514612493578492732761445672842561311693768191394134886501578604036680360305622084 h (Hw.finishSweeps h r) := by
  unfold Hw.finishSweeps
  repeat' first
    | intro _
    | with_reducible apply Hw.Within.refl
    | with_reducible assumption
    | with_reducible apply Hw.Within.step (Hw.sweepSlice_within ..); decide
    | with_reducible apply Hw.Within.fold

theorem Hw.setInbox_within (h : Hw) (s : Nat) (q : List Piece) :
    Hw.Within 8192 h (Hw.setInbox h s q) := by
  unfold Hw.setInbox
  repeat' first
    | extract_lets +onlyGivenNames v0; clear_value (e0 : v0 = _); clear e0
    | rw [Hw.mk_sl]
    | with_reducible apply Hw.Within.refl
    | with_reducible apply Hw.Within.step (Hw.putSl_within ..); decide

theorem Hw.setDirIn_within (h : Hw) (s : Nat) (q : List Piece) :
    Hw.Within 32768 h (Hw.setDirIn h s q) := by
  unfold Hw.setDirIn
  repeat' first
    | extract_lets +onlyGivenNames v0; clear_value (e0 : v0 = _); clear e0
    | rw [Hw.mk_coh]
    | with_reducible apply Hw.Within.refl
    | with_reducible apply Hw.Within.step (Hw.putCoh_within ..); decide

theorem Hw.sliceInput_within (h : Hw) (stack : Nat) :
    Hw.Within 11349182434963382837533881494243739595514612493578492732761445672842561311693811747537100766624901915986431626636688452 h (Hw.sliceInput h stack) := by
  unfold Hw.sliceInput
  repeat' first
    | intro _
    | extract_lets +onlyGivenNames v0; clear_value (e0 : v0 = _); (first | (with_reducible apply Hw.Within.let1 e0) | clear e0)
    | with_reducible apply Hw.Within.refl
    | with_reducible assumption
    | with_reducible apply Hw.Within.step (Hw.setInbox_within ..); decide
    | with_reducible apply Hw.Within.step (Hw.resolveBirsp_within ..); decide
    | with_reducible apply Hw.Within.step (Hw.point_within ..); decide
    | with_reducible apply Hw.Within.step (Hw.setDirIn_within ..); decide
    | with_reducible apply Hw.Within.step (Hw.place_within ..); decide
    | with_reducible apply Hw.Within.ite
    | split

theorem Hw.directoryLookup_within (h : Hw) (stack : Nat) :
    Hw.Within 11349182434963382837533881494243739595514612493578492732761445672842561311693768191394134886501578604036680360305622084 h (Hw.directoryLookup h stack) := by
  unfold Hw.directoryLookup
  repeat' first
    | intro _
    | extract_lets +onlyGivenNames v0; clear_value (e0 : v0 = _); (first | (with_reducible apply Hw.Within.let1 e0) | clear e0)
    | rw [Hw.mk_coh]
    | with_reducible apply Hw.Within.refl
    | with_reducible assumption
    | with_reducible apply Hw.Within.step (Hw.setDirIn_within ..); decide
    | with_reducible apply Hw.Within.step (Hw.consult_within ..); decide
    | with_reducible apply Hw.Within.step (Hw.setDirWaiting_within ..); decide
    | with_reducible apply Hw.Within.step (Hw.putCoh_within ..); decide
    | with_reducible apply Hw.Within.ite
    | with_reducible apply Hw.Within.fold
    | split

theorem execSliceInput_within (stack : StackIx) (s : State) :
    ∃ k, execSliceInput stack s = .next { s with hw := k } ∧ s.hw.Within 11349182434963382837533881494243739595514612493578492732761445672842561311693811747537100766624901915986431626636688452 k := by
  refine ⟨_, rfl, ?_⟩
  generalize s.hw = h
  beta_reduce
  repeat' first
    | with_reducible apply Hw.Within.refl
    | with_reducible apply Hw.Within.step (Hw.sliceInput_within ..); decide

theorem execDirectorySweep_within (stack : StackIx) (s : State) :
    ∃ k, execDirectorySweep stack s = .next { s with hw := k } ∧ s.hw.Within 11349182434963382837533881494243739595514612493578492732761445672842561311693768191394134886501578604036680360305622084 k := by
  refine ⟨_, rfl, ?_⟩
  generalize s.hw = h
  beta_reduce
  repeat' first
    | with_reducible apply Hw.Within.refl
    | with_reducible apply Hw.Within.step (Hw.sweepSlice_within ..); decide
    | split

theorem execDirectoryLookup_within (stack : StackIx) (s : State) :
    ∃ k, execDirectoryLookup stack s = .next { s with hw := k } ∧ s.hw.Within 11349182434963382837533881494243739595514612493578492732761445672842561311693768191394134886501578604036680360305622084 k := by
  refine ⟨_, rfl, ?_⟩
  generalize s.hw = h
  beta_reduce
  repeat' first
    | with_reducible apply Hw.Within.refl
    | with_reducible apply Hw.Within.step (Hw.directoryLookup_within ..); decide

theorem execSnoopTimeout_within (id : BitVec 16) (s : State) :
    ∃ k, execSnoopTimeout id s = .next { s with hw := k } ∧ s.hw.Within 11349182434963382837533881494243739595514612493578492732761445672842561311693789969465617826563240260011555993471155268 k := by
  refine ⟨_, rfl, ?_⟩
  generalize s.hw = h
  beta_reduce
  repeat' first
    | intro _
    | extract_lets +onlyGivenNames v0; clear_value (e0 : v0 = _); (first | (with_reducible apply Hw.Within.let1 e0) | clear e0)
    | with_reducible apply Hw.Within.refl
    | with_reducible assumption
    | with_reducible apply Hw.Within.step (Hw.freeSnoop_within ..); decide
    | with_reducible apply Hw.Within.step (Hw.addReg_within ..); decide
    | with_reducible apply Hw.Within.step (Hw.raise_within ..); decide
    | with_reducible apply Hw.Within.step (Hw.retryWaiting_within ..); decide
    | with_reducible apply Hw.Within.step (Hw.answered_within ..); decide
    | with_reducible apply Hw.Within.ite
    | split

theorem execCancel_within (tracker : BitVec 16) (s : State) :
    ∃ k, execCancel tracker s = .next { s with hw := k } ∧ s.hw.Within 503808 k := by
  refine ⟨_, rfl, ?_⟩
  generalize s.hw = h
  beta_reduce
  repeat' first
    | intro _
    | extract_lets +onlyGivenNames v0; clear_value (e0 : v0 = _); (first | (with_reducible apply Hw.Within.let1 e0) | (with_reducible apply Hw.Within.letCar e0; subst e0) | clear e0)
    | rw [Hw.mk_sl]
    | rw [Hw.mk_sl_car]
    | rw [Hw.mk_sl_coh_red_par]
    | with_reducible apply Hw.Within.refl
    | with_reducible assumption
    | with_reducible apply Hw.Within.step (Hw.creditsBack_within ..); decide
    | (with_reducible apply Hw.Within.stepCar); (· rfl); (· decide)
    | with_reducible apply Hw.Within.step (Hw.putCoh_within ..); decide
    | with_reducible apply Hw.Within.step (Hw.putPar_within ..); decide
    | with_reducible apply Hw.Within.step (Hw.putRed_within ..); decide
    | with_reducible apply Hw.Within.step (Hw.putSl_within ..); decide
    | with_reducible apply Hw.Within.fold
    | split

end Sys2Proof.Machine
end

