-- ==== Sys2Proof/Laws/FrameArb.lean ====
section
/-! SUPPORT. What each operation and command of Machine/Arb.lean changes, and that it keeps canonical tables. -/

namespace Sys2Proof.Machine

theorem Hw.setMode_within (h : Hw) (m : Nat) :
    Hw.Within 1149371655649416643768760270362731887714054341637705796 h (Hw.setMode h m) := by
  unfold Hw.setMode
  repeat' first
    | intro _
    | extract_lets +onlyGivenNames v0; clear_value (e0 : v0 = _); (first | (with_reducible apply Hw.Within.let1 e0) | clear e0)
    | rw [Hw.mk_req]
    | with_reducible apply Hw.Within.refl
    | with_reducible assumption
    | with_reducible apply Hw.Within.step (Hw.setReg_within ..); decide
    | with_reducible apply Hw.Within.step (Hw.noteGate_within ..); decide
    | with_reducible apply Hw.Within.step (Hw.putReq_within ..); decide
    | with_reducible apply Hw.Within.ite
    | with_reducible apply Hw.Within.fold

theorem Hw.setArb_within (h : Hw) (s : Nat) (a : Arb) :
    Hw.Within 4096 h (Hw.setArb h s a) := by
  unfold Hw.setArb
  repeat' first
    | extract_lets +onlyGivenNames v0; clear_value (e0 : v0 = _); clear e0
    | rw [Hw.mk_req]
    | with_reducible apply Hw.Within.refl
    | with_reducible apply Hw.Within.step (Hw.putReq_within ..); decide

theorem Hw.takeCredit_within (h : Hw) (g : Nat) (cls : Nat) :
    Hw.Within 4096 h (Hw.takeCredit h g cls) := by
  unfold Hw.takeCredit
  repeat' first
    | extract_lets +onlyGivenNames v0; clear_value (e0 : v0 = _); clear e0
    | rw [Hw.mk_req]
    | with_reducible apply Hw.Within.refl
    | with_reducible apply Hw.Within.step (Hw.putReq_within ..); decide

theorem Hw.answerLost_within (h : Hw) (uid : Nat) (r : Rq) :
    Hw.Within 11347777784561610013136363548841360775862964909894048640369108500805891755407668870676896111633814371703863186880467012 h (Hw.answerLost h uid r) := by
  unfold Hw.answerLost
  repeat' first
    | with_reducible apply Hw.Within.refl
    | with_reducible apply Hw.Within.step (Hw.complete_within ..); decide
    | split

theorem Hw.sendIntents_within (h : Hw) (r : Rq) :
    Hw.Within 264192 h (Hw.sendIntents h r) := by
  unfold Hw.sendIntents
  repeat' first
    | intro _
    | extract_lets +onlyGivenNames v0; clear_value (e0 : v0 = _); (first | (with_reducible apply Hw.Within.let1 e0) | clear e0)
    | rw [Hw.mk_par]
    | with_reducible apply Hw.Within.refl
    | with_reducible assumption
    | with_reducible apply Hw.Within.step (Hw.sendQanat_within ..); decide
    | with_reducible apply Hw.Within.step (Hw.putPar_within ..); decide
    | with_reducible apply Hw.Within.ite
    | with_reducible apply Hw.Within.fold
    | split

theorem Hw.forward_within (h : Hw) (uid : Nat) :
    Hw.Within 11347777784561610013136363548841360775862964909894048640369108500805891755407668870676896111633814371703863186880936004 h (Hw.forward h uid) := by
  unfold Hw.forward
  repeat' first
    | intro _
    | extract_lets +onlyGivenNames v0; clear_value (e0 : v0 = _); (first | (with_reducible apply Hw.Within.let1 e0) | (with_reducible apply Hw.Within.letCar e0; subst e0) | clear e0)
    | rw [Hw.mk_req]
    | rw [Hw.mk_car]
    | rw [Hw.mk_red]
    | with_reducible apply Hw.Within.refl
    | with_reducible assumption
    | with_reducible apply Hw.Within.step (Hw.setInbox_within ..); decide
    | with_reducible apply Hw.Within.step (Hw.sendQanat_within ..); decide
    | with_reducible apply Hw.Within.step (Hw.setTrk_within ..); decide
    | with_reducible apply Hw.Within.step (Hw.complete_within ..); decide
    | with_reducible apply Hw.Within.step (Hw.answerLost_within ..); decide
    | with_reducible apply Hw.Within.step (Hw.sendIntents_within ..); decide
    | (with_reducible apply Hw.Within.stepCar); (· rfl); (· decide)
    | with_reducible apply Hw.Within.step (Hw.putRed_within ..); decide
    | with_reducible apply Hw.Within.step (Hw.putReq_within ..); decide
    | with_reducible apply Hw.Within.ite
    | split

theorem Hw.passHeader_within (h : Hw) (s : Nat) (source : Nat) (cls : Nat) (uid : Nat) :
    Hw.Within 11349009097255247340611747268844490263794373651746250685577481885166336376821264265803296185848068173269980784278583364 h (Hw.passHeader h s source cls uid) := by
  unfold Hw.passHeader
  repeat' first
    | intro _
    | extract_lets +onlyGivenNames v0; clear_value (e0 : v0 = _); (first | (with_reducible apply Hw.Within.let1 e0) | clear e0)
    | with_reducible apply Hw.Within.refl
    | with_reducible assumption
    | with_reducible apply Hw.Within.step (Hw.setArb_within ..); decide
    | with_reducible apply Hw.Within.step (Hw.takeCredit_within ..); decide
    | with_reducible apply Hw.Within.step (Hw.countSel_within ..); decide
    | with_reducible apply Hw.Within.step (Hw.point_within ..); decide
    | with_reducible apply Hw.Within.step (Hw.charge_within ..); decide
    | with_reducible apply Hw.Within.step (Hw.noteGate_within ..); decide
    | with_reducible apply Hw.Within.step (Hw.forward_within ..); decide
    | with_reducible apply Hw.Within.ite
    | with_reducible apply Hw.Within.fold
    | split

theorem Hw.passHeaders_within (s : Nat) (source : Nat) (cls : Nat) (x4 : Nat) (x5 : Hw) :
    Hw.Within 11349009097255247340611747268844490263794373651746250685577481885166336376821264265803296185848068173269980784278583364 x5 (Hw.passHeaders s source cls x4 x5).2 := by
  induction x4 generalizing x5 with
  | zero => exact Hw.Within.refl _ _
  | succ n ih =>
    unfold Hw.passHeaders
    split
    · exact ((Hw.passHeader_within ..).step (m := 11349009097255247340611747268844490263794373651746250685577481885166336376821264265803296185848068173269980784278583364) (by decide) (Hw.Within.refl _ _)).trans (ih _)
    · exact Hw.Within.refl _ _

theorem Hw.grantStart_within (h : Hw) (stack : Nat) :
    Hw.Within 11349009097255247340611747268844490263794373651746250685577481885166336376821264265803296185848068173269980784278583364 h (Hw.grantStart h stack) := by
  unfold Hw.grantStart
  repeat' first
    | intro _
    | extract_lets +onlyGivenNames v0; clear_value (e0 : v0 = _); (first | (with_reducible apply Hw.Within.let1 e0) | clear e0)
    | with_reducible apply Hw.Within.refl
    | with_reducible assumption
    | with_reducible apply Hw.Within.step (Hw.setArb_within ..); decide
    | with_reducible apply Hw.Within.step (Hw.passHeaders_within ..); decide
    | with_reducible apply Hw.Within.ite
    | split

theorem Hw.arbiterPick_within (h : Hw) (stack : Nat) :
    Hw.Within 4096 h (Hw.arbiterPick h stack) := by
  unfold Hw.arbiterPick
  repeat' first
    | extract_lets +onlyGivenNames v0; clear_value (e0 : v0 = _); clear e0
    | with_reducible apply Hw.Within.refl
    | with_reducible apply Hw.Within.step (Hw.setArb_within ..); decide
    | with_reducible apply Hw.Within.ite
    | split

theorem execRecoveryDone_within (s : State) :
    ∃ k, execRecoveryDone s = .next { s with hw := k } ∧ s.hw.Within 1149371655649416643768760270362731887714054341637705796 k := by
  refine ⟨_, rfl, ?_⟩
  generalize s.hw = h
  beta_reduce
  repeat' first
    | with_reducible apply Hw.Within.refl
    | with_reducible apply Hw.Within.step (Hw.setMode_within ..); decide
    | with_reducible apply Hw.Within.ite

theorem execMissPeriodEnd_within (stack : StackIx) (s : State) :
    ∃ k, execMissPeriodEnd stack s = .next { s with hw := k } ∧ s.hw.Within 1202453802380202612679414065556140558016349465041059773802132977424491020858679523053413887173001575952350711876 k := by
  refine ⟨_, rfl, ?_⟩
  generalize s.hw = h
  beta_reduce
  repeat' first
    | intro _
    | extract_lets +onlyGivenNames v0; clear_value (e0 : v0 = _); (first | (with_reducible apply Hw.Within.let1 e0) | clear e0)
    | with_reducible apply Hw.Within.refl
    | with_reducible assumption
    | with_reducible apply Hw.Within.step (Hw.setArb_within ..); decide
    | with_reducible apply Hw.Within.step (Hw.uncross_within ..); decide
    | with_reducible apply Hw.Within.step (Hw.setTimer_within ..); decide
    | with_reducible apply Hw.Within.ite
    | with_reducible apply Hw.Within.fold

theorem execArbiterPick_within (stack : StackIx) (s : State) :
    ∃ k, execArbiterPick stack s = .next { s with hw := k } ∧ s.hw.Within 4096 k := by
  refine ⟨_, rfl, ?_⟩
  generalize s.hw = h
  beta_reduce
  repeat' first
    | with_reducible apply Hw.Within.refl
    | with_reducible apply Hw.Within.step (Hw.arbiterPick_within ..); decide

theorem Hw.miss_within (h : Hw) (s : Nat) (c : Nat) :
    Hw.Within 1240816071198521791540374786364395983690017551636202724730201221798983889179414094673171678462117580332025851678724 h (Hw.miss h s c) := by
  unfold Hw.miss
  repeat' first
    | intro _
    | extract_lets +onlyGivenNames v0; clear_value (e0 : v0 = _); (first | (with_reducible apply Hw.Within.let1 e0) | clear e0)
    | with_reducible apply Hw.Within.refl
    | with_reducible assumption
    | with_reducible apply Hw.Within.step (Hw.countSel_within ..); decide
    | with_reducible apply Hw.Within.step (Hw.setArb_within ..); decide
    | with_reducible apply Hw.Within.step (Hw.cross_within ..); decide
    | with_reducible apply Hw.Within.ite

theorem Hw.endSlot_within (h : Hw) (s : Nat) :
    Hw.Within 1240816071198521791540374786364395983690017551636202724730201221798983889179414094673171678462117580332025851678724 h (Hw.endSlot h s) := by
  unfold Hw.endSlot
  repeat' first
    | extract_lets +onlyGivenNames v0; clear_value (e0 : v0 = _); clear e0
    | with_reducible apply Hw.Within.refl
    | with_reducible apply Hw.Within.step (Hw.miss_within ..); decide
    | with_reducible apply Hw.Within.ite
    | split

theorem execBurstCutoff_within (stack : StackIx) (s : State) :
    ∃ k, execBurstCutoff stack s = .next { s with hw := k } ∧ s.hw.Within 1231497054230075221292109327356335894365390843282134511483240821206107547323192761757616322073261293074883868102660 k := by
  refine ⟨_, rfl, ?_⟩
  generalize s.hw = h
  beta_reduce
  repeat' first
    | intro _
    | extract_lets +onlyGivenNames v0; clear_value (e0 : v0 = _); (first | (with_reducible apply Hw.Within.let1 e0) | clear e0)
    | with_reducible apply Hw.Within.refl
    | with_reducible assumption
    | with_reducible apply Hw.Within.step (Hw.addReg_within ..); decide
    | with_reducible apply Hw.Within.step (Hw.setArb_within ..); decide
    | with_reducible apply Hw.Within.step (Hw.raise_within ..); decide
    | with_reducible apply Hw.Within.ite
    | split

theorem Hw.refillCredit_within (h : Hw) (r : Nat) (bytes : Nat) :
    Hw.Within 191561942608236107294793378393788647952342390272954372 h (Hw.refillCredit h r bytes) := by
  unfold Hw.refillCredit
  repeat' first
    | intro _
    | extract_lets +onlyGivenNames v0; clear_value (e0 : v0 = _); (first | (with_reducible apply Hw.Within.let1 e0) | clear e0)
    | rw [Hw.mk_req]
    | with_reducible apply Hw.Within.refl
    | with_reducible assumption
    | with_reducible apply Hw.Within.step (Hw.setSreg_within ..); decide
    | with_reducible apply Hw.Within.step (Hw.putReq_within ..); decide
    | with_reducible apply Hw.Within.ite

theorem Hw.windowBoundary_within (h : Hw) (r : Nat) :
    Hw.Within 1231312693637327475383720003129487931408741852202045208373384743568506630067609715986831001831097470802377943552068 h (Hw.windowBoundary h r) := by
  unfold Hw.windowBoundary
  repeat' first
    | intro _
    | extract_lets +onlyGivenNames v0; clear_value (e0 : v0 = _); (first | (with_reducible apply Hw.Within.let1 e0) | clear e0)
    | rw [Hw.mk_req]
    | with_reducible apply Hw.Within.refl
    | with_reducible assumption
    | with_reducible apply Hw.Within.step (Hw.countSel_within ..); decide
    | with_reducible apply Hw.Within.step (Hw.refillCredit_within ..); decide
    | with_reducible apply Hw.Within.step (Hw.noteGate_within ..); decide
    | with_reducible apply Hw.Within.step (Hw.setTimer_within ..); decide
    | with_reducible apply Hw.Within.step (Hw.putReq_within ..); decide
    | with_reducible apply Hw.Within.ite

theorem execFrameSlotStart_within (stack : StackIx) (s : State) :
    ∃ k, execFrameSlotStart stack s = .next { s with hw := k } ∧ s.hw.Within 1240816071198521791540374786364395983690017551636202724730201221798983889179414094673171678462117580332025851678788 k := by
  refine ⟨_, rfl, ?_⟩
  generalize s.hw = h
  beta_reduce
  repeat' first
    | intro _
    | extract_lets +onlyGivenNames v0; clear_value (e0 : v0 = _); (first | (with_reducible apply Hw.Within.let1 e0) | clear e0)
    | with_reducible apply Hw.Within.refl
    | with_reducible assumption
    | with_reducible apply Hw.Within.step (Hw.setTimer_within ..); decide
    | with_reducible apply Hw.Within.step (Hw.endSlot_within ..); decide
    | with_reducible apply Hw.Within.step (Hw.setArb_within ..); decide
    | with_reducible apply Hw.Within.ite

theorem execDispatchCreditReturn_within (g : PcIx) (c0 : Bool) (s : State) :
    ∃ k, execDispatchCreditReturn g c0 s = .next { s with hw := k } ∧ s.hw.Within 4096 k := by
  refine ⟨_, rfl, ?_⟩
  generalize s.hw = h
  beta_reduce
  repeat' first
    | extract_lets +onlyGivenNames v0; clear_value (e0 : v0 = _); clear e0
    | rw [Hw.mk_req]
    | with_reducible apply Hw.Within.refl
    | with_reducible apply Hw.Within.step (Hw.putReq_within ..); decide
    | with_reducible apply Hw.Within.ite

theorem execGrantStart_within (stack : StackIx) (s : State) :
    ∃ k, execGrantStart stack s = .next { s with hw := k } ∧ s.hw.Within 11349009097255247340611747268844490263794373651746250685577481885166336376821264265803296185848068173269980784278583364 k := by
  refine ⟨_, rfl, ?_⟩
  generalize s.hw = h
  beta_reduce
  repeat' first
    | with_reducible apply Hw.Within.refl
    | with_reducible apply Hw.Within.step (Hw.grantStart_within ..); decide

theorem execQuotaWindowEnd_within (stack : StackIx) (s : State) :
    ∃ k, execQuotaWindowEnd stack s = .next { s with hw := k } ∧ s.hw.Within 4096 k := by
  refine ⟨_, rfl, ?_⟩
  generalize s.hw = h
  beta_reduce
  repeat' first
    | extract_lets +onlyGivenNames v0; clear_value (e0 : v0 = _); clear e0
    | with_reducible apply Hw.Within.refl
    | with_reducible apply Hw.Within.step (Hw.setArb_within ..); decide
    | with_reducible apply Hw.Within.ite

theorem execRegulatorWindow_within (requester : BitVec 12) (s : State) :
    ∃ k, execRegulatorWindow requester s = .next { s with hw := k } ∧ s.hw.Within 1231312693637327475383720003129487931408741852202045208373384743568506630067609715986831001831097470802377943552068 k := by
  refine ⟨_, rfl, ?_⟩
  generalize s.hw = h
  beta_reduce
  repeat' first
    | with_reducible apply Hw.Within.refl
    | with_reducible apply Hw.Within.step (Hw.windowBoundary_within ..); decide
    | with_reducible apply Hw.Within.ite

theorem execSvcStartupExpiry_within (s : State) :
    ∃ k, execSvcStartupExpiry s = .next { s with hw := k } ∧ s.hw.Within 1149371655649416643768760270362731887714054341637705796 k := by
  refine ⟨_, rfl, ?_⟩
  generalize s.hw = h
  beta_reduce
  repeat' first
    | with_reducible apply Hw.Within.refl
    | with_reducible apply Hw.Within.step (Hw.setMode_within ..); decide
    | with_reducible apply Hw.Within.ite

end Sys2Proof.Machine
end

