-- ==== Sys2Proof/Laws/WithinRun.lean ====
section
/-! SUPPORT. The relation of Laws/Within.lean carried through a program step's working record. -/

namespace Sys2Proof.Machine

variable {m : Nat} {a d : Hw}

theorem Run.ite {p : Prop} [Decidable p] {x y : Run} (hx : Hw.Within m a x.h) (hy : Hw.Within m a y.h) :
    Hw.Within m a (if p then x else y).h := by split <;> assumption

theorem Run.let1 {x c : Run} (e : x = c) (h : Hw.Within m a c.h) (k : Hw.Within m a x.h → Hw.Within m a d) :
    Hw.Within m a d := k (e ▸ h)

theorem Run.let2 {β : Type} {x c : β × Run} (e : x = c) (h : Hw.Within m a c.2.h) (k : Hw.Within m a x.2.h → Hw.Within m a d) :
    Hw.Within m a d := k (e ▸ h)

theorem Run.let3 {β γ : Type} {x c : β × γ × Run} (e : x = c) (h : Hw.Within m a c.2.2.h)
    (k : Hw.Within m a x.2.2.h → Hw.Within m a d) : Hw.Within m a d := k (e ▸ h)

theorem Run.snd {β : Type} {p : β × Run} {x : β} {c : Run} (e : p = (x, c)) (h : Hw.Within m a p.2.h)
    (k : Hw.Within m a c.h → Hw.Within m a d) : Hw.Within m a d := by
  rw [e] at h; exact k h

theorem Run.trd {β γ : Type} {p : β × γ × Run} {x : β} {y : γ} {c : Run} (e : p = (x, y, c)) (h : Hw.Within m a p.2.2.h)
    (k : Hw.Within m a c.h → Hw.Within m a d) : Hw.Within m a d := by
  rw [e] at h; exact k h

theorem Run.fold {α : Type} {f : Run → α → Run} {l : List α} {b : Run} (hf : ∀ r x, Hw.Within m a r.h → Hw.Within m a (f r x).h)
    (h0 : Hw.Within m a b.h) : Hw.Within m a (l.foldl f b).h := by
  induction l generalizing b with
  | nil => exact h0
  | cons x l ih => exact ih (hf b x h0)

/-- A fold over runs that carries something beside. -/
theorem Run.fold2 {α β : Type} {f : β × Run → α → β × Run} {l : List α} {p : β × Run}
    (hf : ∀ q x, Hw.Within m a q.2.h → Hw.Within m a (f q x).2.h) (h0 : Hw.Within m a p.2.h) :
    Hw.Within m a (l.foldl f p).2.h := by
  induction l generalizing p with
  | nil => exact h0
  | cons x l ih => exact ih (hf p x h0)

theorem Run.fold3 {α β γ : Type} {f : β × γ × Run → α → β × γ × Run} {l : List α} {p : β × γ × Run}
    (hf : ∀ q x, Hw.Within m a q.2.2.h → Hw.Within m a (f q x).2.2.h) (h0 : Hw.Within m a p.2.2.h) :
    Hw.Within m a (l.foldl f p).2.2.h := by
  induction l generalizing p with
  | nil => exact h0
  | cons x l ih => exact ih (hf p x h0)

end Sys2Proof.Machine
end

