-- ==== Sys2Proof/Laws/FrameCaravan.lean ====
section
/-! SUPPORT. What each operation and command of Machine/Caravan.lean changes, and that it keeps canonical tables. -/

namespace Sys2Proof.Machine

theorem Hw.abortRunning_within (h : Hw) (e : Nat) :
    Hw.Within 11349009281615840088357655658172695697648608593874580414883995587042087968574545641146809262113258708817535243452528708 h (Hw.abortRunning h e) := by
  unfold Hw.abortRunning
  repeat' first
    | with_reducible apply Hw.Within.refl
    | with_reducible apply Hw.Within.step (Hw.faultRunning_within ..); decide

theorem Hw.abortAll_within (h : Hw) (e : Nat) :
    Hw.Within 11349009281615840088357655658172695697648608593874580520196287255599274666492573324817241581008354109366646497763506244 h (Hw.abortAll h e) := by
  unfold Hw.abortAll
  repeat' first
    | with_reducible apply Hw.Within.refl
    | with_reducible apply Hw.Within.step (Hw.faultEngine_within ..); decide

theorem Hw.setFlag_within (h : Hw) (s : Nat) (k : Nat) (v : Nat) :
    Hw.Within 26959946667150639794667015087019630673637144422540572481103610249220 h (Hw.setFlag h s k v) := by
  unfold Hw.setFlag
  repeat' first
    | with_reducible apply Hw.Within.refl
    | with_reducible apply Hw.Within.step (Hw.setElem_within ..); decide
    | split

theorem Hw.waitEnds_within (h : Hw) (e : Nat) (w : WaitOn) (out : Nat) :
    Hw.Within 1231312693637327475383720003129487931408741852229900309519717544764278123681618660955043573198598853701972378320900 h (Hw.waitEnds h e w out) := by
  unfold Hw.waitEnds
  repeat' first
    | intro _
    | extract_lets +onlyGivenNames v0; clear_value (e0 : v0 = _); (first | (with_reducible apply Hw.Within.let1 e0) | clear e0)
    | with_reducible apply Hw.Within.refl
    | with_reducible assumption
    | with_reducible apply Hw.Within.step (Hw.setEng_within ..); decide
    | with_reducible apply Hw.Within.step (Hw.setFlag_within ..); decide
    | with_reducible apply Hw.Within.step (Hw.setReg_within ..); decide
    | with_reducible apply Hw.Within.step (Hw.countSel_within ..); decide
    | with_reducible apply Hw.Within.ite

theorem Hw.startWait_within (h : Hw) (e : Nat) (kind : Nat) (arg : BitVec 128 → Nat) :
    Hw.Within 11349009281615840088357655658172695697648608593874607374830662737681882635589632660777482899257681249390016347062777924 h (Hw.startWait h e kind arg) := by
  unfold Hw.startWait
  repeat' first
    | extract_lets +onlyGivenNames v0; clear_value (e0 : v0 = _); clear e0
    | with_reducible apply Hw.Within.refl
    | with_reducible apply Hw.Within.step (Hw.faultRunning_within ..); decide
    | with_reducible apply Hw.Within.step (Hw.waitEnds_within ..); decide
    | with_reducible apply Hw.Within.step (Hw.setReg_within ..); decide
    | with_reducible apply Hw.Within.step (Hw.setEng_within ..); decide
    | with_reducible apply Hw.Within.ite
    | split

theorem Hw.stallStep_within (h : Hw) (e : Nat) (s : Nat) (line : Nat) (wr : Bool) :
    Hw.Within 1231312693637327475383720003129487931408741852202045208373384168882678805379704773621952486114998696151348932546564 h (Hw.stallStep h e s line wr) := by
  unfold Hw.stallStep
  repeat' first
    | extract_lets +onlyGivenNames v0; clear_value (e0 : v0 = _); clear e0
    | with_reducible apply Hw.Within.refl
    | with_reducible apply Hw.Within.step (Hw.lookLine_within ..); decide
    | with_reducible apply Hw.Within.step (Hw.dropEngWait_within ..); decide
    | with_reducible apply Hw.Within.step (Hw.setDirWaiting_within ..); decide

theorem Hw.endStep_within {m : Nat} {a h : Hw} {r : Run} (hm : 11349009281615840088357655658172695697648608593874580414883995587042087968574566058088824518778908553899911385258244164 &&& m = 11349009281615840088357655658172695697648608593874580414883995587042087968574566058088824518778908553899911385258244164) (h1 : Hw.Within m a h) (h2 : Hw.Within m a r.h) :
    Hw.Within m a (Hw.endStep h r) := by
  have sub : ∀ n, n &&& 11349009281615840088357655658172695697648608593874580414883995587042087968574566058088824518778908553899911385258244164 = n → n &&& m = n := by
    intro n hn
    rw [← hn, Nat.and_assoc, hm]
  unfold Hw.endStep
  split
  · exact Hw.Within.step (Hw.stallStep_within ..) (sub _ (by decide)) h1
  · split
    · exact Hw.Within.step (Hw.faultRunning_within ..) (sub _ (by decide)) h2
    · refine Hw.Within.step (Hw.countSel_within ..) (sub _ (by decide)) ?_
      refine Hw.Within.step (Hw.setReg_within ..) (sub _ (by decide)) ?_
      refine Hw.Within.step (Hw.setEng_within ..) (sub _ (by decide)) ?_
      exact Hw.Within.step (Hw.dropEngWait_within ..) (sub _ (by decide)) h2

/-- A step changes no more than what its function changes and what ends a step. -/
theorem Hw.runStep_within {m : Nat} {a h : Hw} {e op : Nat} {p : BitVec 128 → Bool} {f : BitVec 128 → Run → Run}
    (hm : 11349009281615840088357655658172695697648608593874580414883995587042087968574566058088824518778908553899911385258244164 &&& m = 11349009281615840088357655658172695697648608593874580414883995587042087968574566058088824518778908553899911385258244164) (hf : ∀ w r, Hw.Within m a r.h → Hw.Within m a (f w r).h) (h1 : Hw.Within m a h) :
    Hw.Within m a (Hw.runStep h e op p f) := by
  unfold Hw.runStep
  split
  · split
    · exact Hw.endStep_within hm h1 (hf _ _ h1)
    · exact h1
  · exact h1

theorem Run.stop_within (r : Run) (f : Nat) :
    Hw.Within 0 r.h (Run.stop r f).h := by
  unfold Run.stop
  repeat' first
    | with_reducible apply Hw.Within.refl
    | with_reducible apply Run.ite

theorem Run.aligned_within (r : Run) (a : Nat) (n : Nat) :
    Hw.Within 0 r.h (Run.aligned r a n).h := by
  unfold Run.aligned
  repeat' first
    | with_reducible apply Hw.Within.refl
    | with_reducible apply Hw.Within.step (Run.stop_within ..); decide
    | with_reducible apply Run.ite

theorem Run.valid_within (r : Run) (a : Nat) (len : Nat) :
    Hw.Within 0 r.h (Run.valid r a len).h := by
  unfold Run.valid
  repeat' first
    | with_reducible apply Hw.Within.refl
    | with_reducible apply Hw.Within.step (Run.stop_within ..); decide
    | split

theorem Run.coherent_within (r : Run) (s : Nat) (lo : Nat) (hi : Nat) (ask : Nat → Ask) (wr : Bool) :
    Hw.Within 1231312693637327475383720003129487931408741852202045208373384168882678805379704773621952486114998696151348932546564 r.h (Run.coherent r s lo hi ask wr).2.h := by
  unfold Run.coherent
  repeat' first
    | intro _
    | extract_lets +onlyGivenNames v0; clear_value (e0 : v0 = _); (first | (with_reducible apply Run.let1 e0) | clear e0)
    | with_reducible apply Hw.Within.refl
    | with_reducible assumption
    | with_reducible apply Hw.Within.step (Hw.lookLine_within ..); decide
    | with_reducible apply Run.fold2
    | (split <;> (rename_i e0; with_reducible apply Hw.Within.snd; case e => with_reducible apply e0))
    | split

theorem Run.read_within (r : Run) (a : Nat) (len : Nat) :
    Hw.Within 11349182434963382837533881494243739595514612493578492732761445672842561311693768191394134886501578604036680360305622084 r.h (Run.read r a len).2.2.h := by
  unfold Run.read
  repeat' first
    | intro _
    | extract_lets +onlyGivenNames v0; clear_value (e0 : v0 = _); (first | (with_reducible apply Run.let1 e0) | clear e0)
    | with_reducible apply Hw.Within.refl
    | with_reducible assumption
    | with_reducible apply Hw.Within.step (Run.valid_within ..); decide
    | with_reducible apply Hw.Within.step (Run.coherent_within ..); decide
    | with_reducible apply Hw.Within.step (Hw.readBytes_within ..); decide
    | (split <;> (rename_i e0; with_reducible apply Run.snd; case e => with_reducible apply e0))
    | split

theorem Run.readClean_within (r : Run) (a : Nat) (len : Nat) :
    Hw.Within 11349182434963382837533881494243739595514612493578492732761445672842561311693768191394134886501578604036680360305622084 r.h (Run.readClean r a len).2.h := by
  unfold Run.readClean
  repeat' first
    | intro _
    | with_reducible apply Hw.Within.refl
    | with_reducible assumption
    | with_reducible apply Hw.Within.step (Run.read_within ..); decide
    | with_reducible apply Hw.Within.step (Run.stop_within ..); decide
    | (split <;> (rename_i e0; with_reducible apply Run.trd; case e => with_reducible apply e0))
    | split

/-- Writes of staging bytes keep its canonical form. -/
theorem staging_wf (base : Nat) (data : List Byte) (t : Table Byte) (h : Table.wf (fun _ => 0) t = true) :
    Table.wf (fun _ => 0) (data.zipIdx.foldl (fun (t : Table Byte) (p : Byte × Nat) => Table.setD t (fun _ => 0) (base + p.2) p.1) t) = true := by
  generalize data.zipIdx = l
  induction l generalizing t with
  | nil => exact h
  | cons x l ih => exact ih _ (Table.wf_setD _ _ _ _ h)


theorem Hw.putStaging_within (h : Hw) (base : Nat) (data : List Byte) : Hw.Within 8388608 h (h.putStaging base data) :=
  Hw.Within.onlyStaging rfl (staging_wf base data _)

theorem Hw.releaseHolds_within (h : Hw) :
    Hw.Within 11349182434963382837533881494243739595514612493578492732761445672842561311693747774452119629835928758954304218499906628 h (Hw.releaseHolds h) := by
  unfold Hw.releaseHolds
  repeat' first
    | intro _
    | extract_lets +onlyGivenNames v0; clear_value (e0 : v0 = _); (first | (with_reducible apply Hw.Within.let1 e0) | clear e0)
    | rw [Hw.mk_sl]
    | with_reducible apply Hw.Within.refl
    | with_reducible assumption
    | with_reducible apply Hw.Within.step (Hw.placeRead_within ..); decide
    | with_reducible apply Hw.Within.step (Hw.putSl_within ..); decide
    | with_reducible apply Hw.Within.fold

theorem Hw.pullWrite_within (h : Hw) (e : Nat) (dpa : Nat) (len : Nat) :
    Hw.Within 11349182434963382837533881494243739595514612493578492732761445672842561311693747774452119629835928758954304218499906628 h (Hw.pullWrite h e dpa len) := by
  unfold Hw.pullWrite
  repeat' first
    | extract_lets +onlyGivenNames v0; clear_value (e0 : v0 = _); clear e0
    | with_reducible apply Hw.Within.refl
    | with_reducible apply Hw.Within.step (Hw.releaseHolds_within ..); decide
    | with_reducible apply Hw.Within.step (Hw.setEng_within ..); decide

theorem Run.modEng_within (r : Run) (f : Engine → Engine) :
    Hw.Within 65536 r.h (Run.modEng r f).h := by
  unfold Run.modEng
  repeat' first
    | with_reducible apply Hw.Within.refl
    | with_reducible apply Hw.Within.step (Hw.setEng_within ..); decide

theorem Run.write_within (r : Run) (a : Nat) (data : List Byte) (psn : List Bool) :
    Hw.Within 11349182434963382837533881494243739595514612493578492732761445672842561311693768191394134886501578604036680360314010692 r.h (Run.write r a data psn).h := by
  unfold Run.write
  repeat' first
    | intro _
    | extract_lets +onlyGivenNames v0; clear_value (e0 : v0 = _); (first | (with_reducible apply Hw.Within.let1 e0) | (with_reducible apply Run.let1 e0) | clear e0)
    | with_reducible apply Hw.Within.refl
    | with_reducible assumption
    | with_reducible apply Hw.Within.step (Run.valid_within ..); decide
    | with_reducible apply Hw.Within.step (Hw.putStaging_within ..); decide
    | with_reducible apply Hw.Within.step (Run.coherent_within ..); decide
    | with_reducible apply Hw.Within.step (Hw.writeBytes_within ..); decide
    | with_reducible apply Hw.Within.step (Hw.pullWrite_within ..); decide
    | with_reducible apply Hw.Within.step (Run.modEng_within ..); decide
    | with_reducible apply Run.ite

theorem Run.setG_within (r : Run) (i : Nat) (v : Nat) :
    Hw.Within 0 r.h (Run.setG r i v).h := by
  unfold Run.setG
  repeat' first
    | with_reducible apply Hw.Within.refl

theorem Run.advance_within (r : Run) (flag : Bool) (i : Nat) (n : Nat) :
    Hw.Within 0 r.h (Run.advance r flag i n).h := by
  unfold Run.advance
  repeat' first
    | extract_lets +onlyGivenNames v0; clear_value (e0 : v0 = _); clear e0
    | with_reducible apply Hw.Within.refl
    | with_reducible apply Hw.Within.step (Run.stop_within ..); decide
    | with_reducible apply Hw.Within.step (Run.setG_within ..); decide
    | with_reducible apply Run.ite

theorem execWaitChunk_within (e : EngIx) (s : State) :
    ∃ k, execWaitChunk e s = .next { s with hw := k } ∧ s.hw.Within 11349009281615840088357655658172695697648608593874607374830662737681882635589632660777482899257681249390016347062777924 k := by
  refine ⟨_, rfl, ?_⟩
  generalize s.hw = h
  beta_reduce
  repeat' first
    | with_reducible apply Hw.Within.refl
    | with_reducible apply Hw.Within.step (Hw.startWait_within ..); decide

theorem execFence_within (e : EngIx) (s : State) :
    ∃ k, execFence e s = .next { s with hw := k } ∧ s.hw.Within 11349182434963382837533881494243739595514612493578492732761445672842561311693768191394134886501578604036680360305622084 k := by
  refine ⟨_, rfl, ?_⟩
  generalize s.hw = h
  beta_reduce
  repeat' first
    | intro _
    | extract_lets +onlyGivenNames v0; clear_value (e0 : v0 = _); (first | (with_reducible apply Hw.Within.let1 e0) | clear e0)
    | with_reducible apply Hw.Within.refl
    | with_reducible assumption
    | with_reducible apply Hw.Within.step (Hw.forceOut_within ..); decide
    | (with_reducible apply Hw.runStep_within); (· decide)
    | with_reducible apply Hw.Within.step (Run.modEng_within ..); decide
    | with_reducible apply Hw.Within.ite
    | split

theorem execWaitFlag_within (e : EngIx) (s : State) :
    ∃ k, execWaitFlag e s = .next { s with hw := k } ∧ s.hw.Within 11349009281615840088357655658172695697648608593874607374830662737681882635589632660777482899257681249390016347062777924 k := by
  refine ⟨_, rfl, ?_⟩
  generalize s.hw = h
  beta_reduce
  repeat' first
    | with_reducible apply Hw.Within.refl
    | with_reducible apply Hw.Within.step (Hw.startWait_within ..); decide

theorem execSignalNotice_within (e : EngIx) (s : State) :
    ∃ k, execSignalNotice e s = .next { s with hw := k } ∧ s.hw.Within 11349009281615840088357655658172695697648608593874580414883995587042087968574566058088824518778908553899911385258244164 k := by
  refine ⟨_, rfl, ?_⟩
  generalize s.hw = h
  beta_reduce
  repeat' first
    | intro _
    | with_reducible apply Hw.Within.refl
    | with_reducible assumption
    | (with_reducible apply Hw.runStep_within); (· decide)
    | with_reducible apply Hw.Within.step (Hw.launchNotice_within ..); decide

theorem execSeti_within (e : EngIx) (s : State) :
    ∃ k, execSeti e s = .next { s with hw := k } ∧ s.hw.Within 11349009281615840088357655658172695697648608593874580414883995587042087968574566058088824518778908553899911385258244164 k := by
  refine ⟨_, rfl, ?_⟩
  generalize s.hw = h
  beta_reduce
  repeat' first
    | intro _
    | with_reducible apply Hw.Within.refl
    | with_reducible assumption
    | (with_reducible apply Hw.runStep_within); (· decide)
    | with_reducible apply Hw.Within.step (Run.setG_within ..); decide

theorem execWaitTimeout_within (e : EngIx) (s : State) :
    ∃ k, execWaitTimeout e s = .next { s with hw := k } ∧ s.hw.Within 11349009281615840088357655658172695697648608593874607374830662737681882635589632660777482899257681249390016347062777924 k := by
  refine ⟨_, rfl, ?_⟩
  generalize s.hw = h
  beta_reduce
  repeat' first
    | extract_lets +onlyGivenNames v0; clear_value (e0 : v0 = _); clear e0
    | with_reducible apply Hw.Within.refl
    | with_reducible apply Hw.Within.step (Hw.waitEnds_within ..); decide
    | with_reducible apply Hw.Within.step (Hw.faultRunning_within ..); decide
    | with_reducible apply Hw.Within.ite
    | split

theorem execLaunchQueue_within (stack : StackIx) (s : State) :
    ∃ k, execLaunchQueue stack s = .next { s with hw := k } ∧ s.hw.Within 11347777784561610013136363548845339361754243203031291803666574736083882102532075336086852142344055048229074708195776580 k := by
  refine ⟨_, rfl, ?_⟩
  generalize s.hw = h
  beta_reduce
  repeat' first
    | intro _
    | extract_lets +onlyGivenNames v0; clear_value (e0 : v0 = _); (first | (with_reducible apply Hw.Within.let1 e0) | (with_reducible apply Hw.Within.letCar e0; subst e0) | clear e0)
    | rw [Hw.mk_car]
    | with_reducible apply Hw.Within.refl
    | with_reducible assumption
    | with_reducible apply Hw.Within.step (Hw.complete_within ..); decide
    | with_reducible apply Hw.Within.step (Hw.setEng_within ..); decide
    | with_reducible apply Hw.Within.step (Hw.setReg_within ..); decide
    | with_reducible apply Hw.Within.step (Hw.acceptWrite_within ..); decide
    | with_reducible apply Hw.Within.step (Hw.point_within ..); decide
    | (with_reducible apply Hw.Within.stepCar); (· rfl); (· decide)
    | with_reducible apply Hw.Within.ite
    | split

theorem execWaitEnd_within (e : EngIx) (s : State) :
    ∃ k, execWaitEnd e s = .next { s with hw := k } ∧ s.hw.Within 11349009281615840088357655658172695697648608593874607374830662737681882635589632660777482899257681249390016347062777924 k := by
  refine ⟨_, rfl, ?_⟩
  generalize s.hw = h
  beta_reduce
  repeat' first
    | with_reducible apply Hw.Within.refl
    | with_reducible apply Hw.Within.step (Hw.faultRunning_within ..); decide
    | with_reducible apply Hw.Within.step (Hw.waitEnds_within ..); decide
    | with_reducible apply Hw.Within.ite
    | split

theorem execSignalFlag_within (e : EngIx) (s : State) :
    ∃ k, execSignalFlag e s = .next { s with hw := k } ∧ s.hw.Within 11349009281615840088357655658172695697648608593874607374830662737681882635589653077719498155923331094472392488868493380 k := by
  refine ⟨_, rfl, ?_⟩
  generalize s.hw = h
  beta_reduce
  repeat' first
    | intro _
    | extract_lets +onlyGivenNames v0; clear_value (e0 : v0 = _); clear e0
    | with_reducible apply Hw.Within.refl
    | with_reducible assumption
    | (with_reducible apply Hw.runStep_within); (· decide)
    | with_reducible apply Hw.Within.step (Hw.setFlag_within ..); decide

theorem execLoop_within (e : EngIx) (s : State) :
    ∃ k, execLoop e s = .next { s with hw := k } ∧ s.hw.Within 11349009281615840088357655658172695697648608593874580414883995587042087968574566058088824518778908553899911385258244164 k := by
  refine ⟨_, rfl, ?_⟩
  generalize s.hw = h
  beta_reduce
  repeat' first
    | intro _
    | extract_lets +onlyGivenNames v0; clear_value (e0 : v0 = _); clear e0
    | with_reducible apply Hw.Within.refl
    | with_reducible assumption
    | (with_reducible apply Hw.runStep_within); (· decide)
    | with_reducible apply Hw.Within.step (Run.modEng_within ..); decide
    | with_reducible apply Run.ite

theorem execLaunchStart_within (e : EngIx) (s : State) :
    ∃ k, execLaunchStart e s = .next { s with hw := k } ∧ s.hw.Within 11349009281615840088357655658172695697648608594758004052585479420390923416864032582730983529446163588427449598409783364 k := by
  refine ⟨_, rfl, ?_⟩
  generalize s.hw = h
  beta_reduce
  repeat' first
    | intro _
    | extract_lets +onlyGivenNames v0; clear_value (e0 : v0 = _); (first | (with_reducible apply Hw.Within.let1 e0) | clear e0)
    | with_reducible apply Hw.Within.refl
    | with_reducible assumption
    | with_reducible apply Hw.Within.step (Hw.setEng_within ..); decide
    | with_reducible apply Hw.Within.step (Hw.setReg_within ..); decide
    | with_reducible apply Hw.Within.step (Hw.faultLaunch_within ..); decide
    | with_reducible apply Hw.Within.step (Hw.addReg_within ..); decide
    | with_reducible apply Hw.Within.ite
    | split

theorem execAddi_within (e : EngIx) (s : State) :
    ∃ k, execAddi e s = .next { s with hw := k } ∧ s.hw.Within 11349009281615840088357655658172695697648608593874580414883995587042087968574566058088824518778908553899911385258244164 k := by
  refine ⟨_, rfl, ?_⟩
  generalize s.hw = h
  beta_reduce
  repeat' first
    | intro _
    | with_reducible apply Hw.Within.refl
    | with_reducible assumption
    | (with_reducible apply Hw.runStep_within); (· decide)
    | with_reducible apply Hw.Within.step (Run.setG_within ..); decide

theorem execRuntimeLimit_within (e : EngIx) (s : State) :
    ∃ k, execRuntimeLimit e s = .next { s with hw := k } ∧ s.hw.Within 11349009281615840088357655658172695697648608593874580414883995587042087968574545641146809262113258708817535243452528708 k := by
  refine ⟨_, rfl, ?_⟩
  generalize s.hw = h
  beta_reduce
  repeat' first
    | extract_lets +onlyGivenNames v0; clear_value (e0 : v0 = _); clear e0
    | with_reducible apply Hw.Within.refl
    | with_reducible apply Hw.Within.step (Hw.faultRunning_within ..); decide
    | with_reducible apply Hw.Within.ite

theorem execWaitPush_within (e : EngIx) (s : State) :
    ∃ k, execWaitPush e s = .next { s with hw := k } ∧ s.hw.Within 11349009281615840088357655658172695697648608593874607374830662737681882635589632660777482899257681249390016347062777924 k := by
  refine ⟨_, rfl, ?_⟩
  generalize s.hw = h
  beta_reduce
  repeat' first
    | with_reducible apply Hw.Within.refl
    | with_reducible apply Hw.Within.step (Hw.startWait_within ..); decide

theorem execEndStep_within (e : EngIx) (s : State) :
    ∃ k, execEndStep e s = .next { s with hw := k } ∧ s.hw.Within 11349009281615840088357655658172695697648608593874575359893995496297126468509216824966057955148679482460195036525606980 k := by
  refine ⟨_, rfl, ?_⟩
  generalize s.hw = h
  beta_reduce
  repeat' first
    | intro _
    | extract_lets +onlyGivenNames v0; clear_value (e0 : v0 = _); (first | (with_reducible apply Hw.Within.let1 e0) | clear e0)
    | with_reducible apply Hw.Within.refl
    | with_reducible assumption
    | with_reducible apply Hw.Within.step (Hw.countSel_within ..); decide
    | with_reducible apply Hw.Within.step (Hw.abortHeld_within ..); decide
    | with_reducible apply Hw.Within.step (Hw.idleEngine_within ..); decide
    | with_reducible apply Hw.Within.step (Hw.mirrorLaunchEnd_within ..); decide
    | with_reducible apply Hw.Within.step (Hw.launchNotice_within ..); decide
    | with_reducible apply Hw.Within.ite
    | with_reducible apply Hw.Within.fold
    | split

theorem execDescriptorDeadline_within (e : EngIx) (desc : Fin 4) (s : State) :
    ∃ k, execDescriptorDeadline e desc s = .next { s with hw := k } ∧ s.hw.Within 11349009281615840088357655658168717111757330300737330774880591735497115699491436630005265619354650898521981582012133444 k := by
  refine ⟨_, rfl, ?_⟩
  generalize s.hw = h
  beta_reduce
  repeat' first
    | intro _
    | extract_lets +onlyGivenNames v0; clear_value (e0 : v0 = _); (first | (with_reducible apply Hw.Within.let1 e0) | clear e0)
    | with_reducible apply Hw.Within.refl
    | with_reducible assumption
    | with_reducible apply Hw.Within.step (Hw.abortHeld_within ..); decide
    | with_reducible apply Hw.Within.step (Hw.setEng_within ..); decide
    | with_reducible apply Hw.Within.step (Hw.launchNotice_within ..); decide
    | with_reducible apply Hw.Within.fold
    | split

end Sys2Proof.Machine
end

