-- ==== Sys2Proof/Laws/FrameDictLog.lean ====
section
/-! SUPPORT. What each operation and command of Machine/DictLog.lean changes, and that it keeps canonical tables. -/

namespace Sys2Proof.Machine

theorem Hw.ignore_within (h : Hw) (a : Actor) (r : Reg) (i : Nat) (why : Nat) :
    Hw.Within 10006218277586770784916686791511671013027609947213241112218805006595009535315259629189875743960534096814124791394396536836 h (Hw.ignore h a r i why) := by
  unfold Hw.ignore
  repeat' first
    | intro _
    | extract_lets +onlyGivenNames v0; clear_value (e0 : v0 = _); (first | (with_reducible apply Hw.Within.let1 e0) | clear e0)
    | with_reducible apply Hw.Within.refl
    | with_reducible assumption
    | with_reducible apply Hw.Within.step (Hw.addReg_within ..); decide
    | with_reducible apply Hw.Within.step (Hw.setElem_within ..); decide
    | with_reducible apply Hw.Within.step (Hw.setReg_within ..); decide
    | with_reducible apply Hw.Within.fold
    | split

theorem Hw.logClamp_within (h : Hw) (a : Actor) (r : Reg) (i : Nat) (e : Nat) (written : Nat) (stored : Nat) :
    Hw.Within 181564444552985760210181816781461772413807438558304778245905736006764285923059146497396938902509691272836941779335905284 h (Hw.logClamp h a r i e written stored) := by
  unfold Hw.logClamp
  repeat' first
    | intro _
    | extract_lets +onlyGivenNames v0; clear_value (e0 : v0 = _); clear e0
    | rw [Hw.mk_msg]
    | with_reducible apply Hw.Within.refl
    | with_reducible assumption
    | with_reducible apply Hw.Within.step (Hw.ringAdvance_within ..); decide
    | with_reducible apply Hw.Within.step (Hw.putMsg_within ..); decide
    | (split <;> (rename_i e0; with_reducible apply Hw.Within.snd; case e => with_reducible apply e0))

theorem Hw.ignoreEvent_within (h : Hw) (r : Reg) (i : Nat) :
    Hw.Within 10006218277586770784916686791511671013027609947213241112218805006595009535315259629189875743960534096814124791394396536836 h (Hw.ignoreEvent h r i) := by
  unfold Hw.ignoreEvent
  repeat' first
    | with_reducible apply Hw.Within.refl
    | with_reducible apply Hw.Within.step (Hw.ignore_within ..); decide

end Sys2Proof.Machine
end

