-- ==== Sys2Proof/Laws/FrameCounters.lean ====
section
/-! SUPPORT. What each operation and command of Machine/Counters.lean changes, and that it keeps canonical tables. -/

namespace Sys2Proof.Machine

theorem Hw.fixClear_within (h : Hw) (g : Nat) :
    Hw.Within 19239260838083241802870625048898248928261591440656956380834127638791856333738872368854622194768025215237611323396 h (Hw.fixClear h g) := by
  unfold Hw.fixClear
  repeat' first
    | intro _
    | with_reducible apply Hw.Within.refl
    | with_reducible assumption
    | with_reducible apply Hw.Within.step (Hw.setElem_within ..); decide
    | with_reducible apply Hw.Within.fold

theorem Hw.selClear_within (h : Hw) (n : Nat) :
    Hw.Within 1231312693637327475383720003129487931408741852202045208373384168882678805359287831606695820465153613775207124697092 h (Hw.selClear h n) := by
  unfold Hw.selClear
  repeat' first
    | with_reducible apply Hw.Within.refl
    | with_reducible apply Hw.Within.step (Hw.setReg_within ..); decide

theorem Hw.countCommand_within (h : Hw) (a : Actor) (v : Nat) :
    Hw.Within 10006218277586770784916686791511671013027609947213241112218805006595009535315259629189875743960534096814124791394396536964 h (Hw.countCommand h a v) := by
  unfold Hw.countCommand
  repeat' first
    | extract_lets +onlyGivenNames v0; clear_value (e0 : v0 = _); clear e0
    | rw [Hw.mk_cntPending]
    | with_reducible apply Hw.Within.refl
    | with_reducible apply Hw.Within.step (Hw.ignore_within ..); decide
    | with_reducible apply Hw.Within.step (Hw.putCntPending_within ..); decide
    | with_reducible apply Hw.Within.ite

theorem Hw.loadSeed_within (h : Hw) (v : Nat) :
    Hw.Within 630432099142311667396464641602297820881275828327447146687172694467931548343955369782628260078158650252906047844909316 h (Hw.loadSeed h v) := by
  unfold Hw.loadSeed
  repeat' first
    | intro _
    | extract_lets +onlyGivenNames v0; clear_value (e0 : v0 = _); with_reducible apply Hw.Within.let1 e0
    | rw [Hw.mk_lfsr]
    | with_reducible apply Hw.Within.refl
    | with_reducible assumption
    | with_reducible apply Hw.Within.step (Hw.setReg_within ..); decide
    | with_reducible apply Hw.Within.step (Hw.putLfsr_within ..); decide

theorem Hw.copyReg_within (h : Hw) (src : Reg) (dst : Reg) :
    Hw.Within dst.mask h (Hw.copyReg h src dst) := by
  unfold Hw.copyReg
  refine Hw.Within.fold (fun y x hy => Hw.Within.step (Hw.setElem_within ..) (Nat.and_self _) hy) ?_
  refine Hw.resetRegs_only _ _ _ (Reg.mask_two dst) (fun k hk => ?_)
  have e : keyReg k = dst := by simpa using hk
  rw [keyNo, e]; exact Reg.mask_self dst

theorem Hw.countApply_within (h : Hw) (v : Nat) (t : Nat) :
    Hw.Within 140408125596331498677349821606859420678453094333914467667327463507902967523626290547901032777417048020804087438114820 h (Hw.countApply h v t) := by
  unfold Hw.countApply
  repeat' first
    | intro _
    | extract_lets +onlyGivenNames v0; clear_value (e0 : v0 = _); with_reducible apply Hw.Within.let1 e0
    | with_reducible apply Hw.Within.refl
    | with_reducible assumption
    | with_reducible apply Hw.Within.step (Hw.setReg_within ..); decide
    | with_reducible apply Hw.Within.step (Hw.copyReg_within ..); decide
    | with_reducible apply Hw.Within.step (Hw.addReg_within ..); decide
    | split

theorem execCounterCommandInstant_within (s : State) :
    ∃ k, execCounterCommandInstant s = .next { s with hw := k } ∧ s.hw.Within 140408125596331498677349821606859420678453094333914467667327463507902967523626290547901032777417048020804087438114948 k := by
  refine ⟨_, rfl, ?_⟩
  generalize s.hw = h
  beta_reduce
  repeat' first
    | rw [Hw.mk_cntPending]
    | with_reducible apply Hw.Within.refl
    | with_reducible apply Hw.Within.step (Hw.countApply_within ..); decide
    | with_reducible apply Hw.Within.step (Hw.putCntPending_within ..); decide
    | with_reducible apply Hw.Within.ite
    | split

theorem execCoarseValueRefresh_within (s : State) :
    ∃ k, execCoarseValueRefresh s = .next { s with hw := k } ∧ s.hw.Within 72 k := by
  refine ⟨_, rfl, ?_⟩
  generalize s.hw = h
  beta_reduce
  repeat' first
    | intro _
    | extract_lets +onlyGivenNames v0; clear_value (e0 : v0 = _); with_reducible apply Hw.Within.let1 e0
    | rw [Hw.mk_odMs]
    | with_reducible apply Hw.Within.refl
    | with_reducible assumption
    | with_reducible apply Hw.Within.step (Hw.setTimer_within ..); decide
    | with_reducible apply Hw.Within.step (Hw.putOdMs_within ..); decide
    | with_reducible apply Hw.Within.ite

end Sys2Proof.Machine
end

