-- ==== Sys2Proof/Laws/FrameHeatOps.lean ====
section
/-! SUPPORT. What each operation and command of Machine/HeatOps.lean changes, and that it keeps canonical tables. -/

namespace Sys2Proof.Machine

theorem Hw.noteWant_within (h : Hw) (s : Nat) :
    Hw.Within 8256 h (Hw.noteWant h s) := by
  unfold Hw.noteWant
  repeat' first
    | extract_lets +onlyGivenNames v0; clear_value (e0 : v0 = _); clear e0
    | rw [Hw.mk_sl]
    | with_reducible apply Hw.Within.refl
    | with_reducible apply Hw.Within.step (Hw.setTimer_within ..); decide
    | with_reducible apply Hw.Within.step (Hw.putSl_within ..); decide
    | with_reducible apply Hw.Within.ite

theorem Hw.noteWants_within (h : Hw) :
    Hw.Within 8256 h (Hw.noteWants h) := by
  unfold Hw.noteWants
  repeat' first
    | intro _
    | with_reducible apply Hw.Within.refl
    | with_reducible assumption
    | with_reducible apply Hw.Within.step (Hw.noteWant_within ..); decide
    | with_reducible apply Hw.Within.ite
    | with_reducible apply Hw.Within.fold

theorem Hw.joinEpoch_within (h : Hw) (g : Nat) :
    Hw.Within 8192 h (Hw.joinEpoch h g) := by
  unfold Hw.joinEpoch
  repeat' first
    | extract_lets +onlyGivenNames v0; clear_value (e0 : v0 = _); clear e0
    | with_reducible apply Hw.Within.refl
    | with_reducible apply Hw.Within.step (Hw.setPc_within ..); decide
    | split

theorem Hw.startEpoch_within (h : Hw) (s : Nat) (t0 : Nat) :
    Hw.Within 8256 h (Hw.startEpoch h s t0) := by
  unfold Hw.startEpoch
  repeat' first
    | intro _
    | extract_lets +onlyGivenNames v0; clear_value (e0 : v0 = _); with_reducible apply Hw.Within.let1 e0
    | with_reducible apply Hw.Within.refl
    | with_reducible assumption
    | with_reducible apply Hw.Within.step (Hw.setTimer_within ..); decide
    | with_reducible apply Hw.Within.step (Hw.joinEpoch_within ..); decide
    | with_reducible apply Hw.Within.ite
    | with_reducible apply Hw.Within.fold

theorem Hw.sirocco_within (h : Hw) (s : Nat) :
    Hw.Within 1231497054230075221292109327356335894365390843282134511483234691223944083767759328369507720836526818118395133693956 h (Hw.sirocco h s) := by
  unfold Hw.sirocco
  repeat' first
    | intro _
    | extract_lets +onlyGivenNames v0; clear_value (e0 : v0 = _); clear e0
    | with_reducible apply Hw.Within.refl
    | with_reducible assumption
    | with_reducible apply Hw.Within.step (Hw.sessionNotice_within ..); decide
    | with_reducible apply Hw.Within.ite
    | with_reducible apply Hw.Within.fold

theorem Hw.setLevel_within (h : Hw) (s : Nat) (level : Nat) :
    Hw.Within 1231497054230075238513504804468673433675253349274148435467539902724457041465782291436154259942941252678526959620100 h (Hw.setLevel h s level) := by
  unfold Hw.setLevel
  repeat' first
    | with_reducible apply Hw.Within.refl
    | with_reducible apply Hw.Within.step (Hw.sirocco_within ..); decide
    | with_reducible apply Hw.Within.step (Hw.addReg_within ..); decide
    | with_reducible apply Hw.Within.step (Hw.setReg_within ..); decide
    | with_reducible apply Hw.Within.ite

theorem Hw.askCal_within (h : Hw) (g : Nat) :
    Hw.Within 2187250724783011924372502227117621365353169430893212436425770606409952999199375923223513177023062020 h (Hw.askCal h g) := by
  unfold Hw.askCal
  repeat' first
    | intro _
    | extract_lets +onlyGivenNames v0; clear_value (e0 : v0 = _); (first | (with_reducible apply Hw.Within.let1 e0) | clear e0)
    | with_reducible apply Hw.Within.refl
    | with_reducible assumption
    | with_reducible apply Hw.Within.step (Hw.setPc_within ..); decide
    | with_reducible apply Hw.Within.step (Hw.setReg_within ..); decide
    | with_reducible apply Hw.Within.ite

theorem Hw.dropCal_within (h : Hw) (g : Nat) :
    Hw.Within 2187250724783011924372502227117621365353169430893212436425770606409952999199375923223513177023062020 h (Hw.dropCal h g) := by
  unfold Hw.dropCal
  repeat' first
    | intro _
    | extract_lets +onlyGivenNames v0; clear_value (e0 : v0 = _); (first | (with_reducible apply Hw.Within.let1 e0) | clear e0)
    | with_reducible apply Hw.Within.refl
    | with_reducible assumption
    | with_reducible apply Hw.Within.step (Hw.setReg_within ..); decide
    | with_reducible apply Hw.Within.step (Hw.setPc_within ..); decide

theorem Hw.closeBanks_within (h : Hw) (g : Nat) :
    Hw.Within 8192 h (Hw.closeBanks h g) := by
  unfold Hw.closeBanks
  repeat' first
    | intro _
    | extract_lets +onlyGivenNames v0; clear_value (e0 : v0 = _); clear e0
    | rw [Hw.mk_sl]
    | with_reducible apply Hw.Within.refl
    | with_reducible assumption
    | with_reducible apply Hw.Within.step (Hw.putSl_within ..); decide
    | with_reducible apply Hw.Within.fold
    | split

theorem Hw.startRateSwitch_within (h : Hw) (s : Nat) (level : Nat) :
    Hw.Within 8192 h (Hw.startRateSwitch h s level) := by
  unfold Hw.startRateSwitch
  repeat' first
    | intro _
    | extract_lets +onlyGivenNames v0; clear_value (e0 : v0 = _); (first | (with_reducible apply Hw.Within.let1 e0) | clear e0)
    | rw [Hw.mk_sl]
    | with_reducible apply Hw.Within.refl
    | with_reducible assumption
    | with_reducible apply Hw.Within.step (Hw.setPc_within ..); decide
    | with_reducible apply Hw.Within.step (Hw.closeBanks_within ..); decide
    | with_reducible apply Hw.Within.step (Hw.putSl_within ..); decide
    | with_reducible apply Hw.Within.fold

theorem Hw.askMultiplier_within (h : Hw) (s : Nat) (m : Nat) :
    Hw.Within 23384026197294446691258957323460528314494920687684 h (Hw.askMultiplier h s m) := by
  unfold Hw.askMultiplier
  repeat' first
    | intro _
    | extract_lets +onlyGivenNames v0; clear_value (e0 : v0 = _); with_reducible apply Hw.Within.let1 e0
    | with_reducible apply Hw.Within.refl
    | with_reducible assumption
    | with_reducible apply Hw.Within.step (Hw.setReg_within ..); decide
    | with_reducible apply Hw.Within.step (Hw.setTimer_within ..); decide
    | with_reducible apply Hw.Within.ite
    | split

end Sys2Proof.Machine
end

