-- ==== Sys2Proof/Laws/FrameEcc.lean ====
section
/-! SUPPORT. What each operation and command of Machine/Ecc.lean changes, and that it keeps canonical tables. -/

namespace Sys2Proof.Machine

theorem Hw.endTest_within (h : Hw) :
    Hw.Within 3138550867693340381917894711603833208051177722232021467140 h (Hw.endTest h) := by
  unfold Hw.endTest
  repeat' first
    | intro _
    | extract_lets +onlyGivenNames v0; clear_value (e0 : v0 = _); (first | (with_reducible apply Hw.Within.let1 e0) | (with_reducible apply Hw.Within.letFnL e0) | (with_reducible apply Hw.Within.letMem e0; subst e0))
    | rw [Hw.mk_mem]
    | with_reducible apply Hw.Within.refl
    | with_reducible assumption
    | with_reducible apply Hw.Within.step (Hw.putLanes_within ..); decide
    | with_reducible apply Hw.Within.step (Hw.setReg_within ..); decide
    | (with_reducible apply Hw.Within.stepMem); (· exact ⟨rfl, rfl, rfl⟩); (· decide)
    | with_reducible apply Hw.Within.fold
    | with_reducible apply_assumption -exfalso -symm

theorem Hw.testCommand_within (h : Hw) (a : Actor) (v : Nat) :
    Hw.Within 10017567460021734167754220673005914752623124559706819604951566794369896675201055006014851428408189703151450818902777396292 h (Hw.testCommand h a v) := by
  unfold Hw.testCommand
  repeat' first
    | intro _
    | extract_lets +onlyGivenNames v0; clear_value (e0 : v0 = _); (first | (with_reducible apply Hw.Within.let1 e0) | (with_reducible apply Hw.Within.letMem e0; subst e0) | clear e0)
    | rw [Hw.mk_mem]
    | with_reducible apply Hw.Within.refl
    | with_reducible assumption
    | with_reducible apply Hw.Within.step (Hw.endTest_within ..); decide
    | with_reducible apply Hw.Within.step (Hw.ignore_within ..); decide
    | with_reducible apply Hw.Within.step (Hw.putRaw_within ..); decide
    | with_reducible apply Hw.Within.step (Hw.setReg_within ..); decide
    | with_reducible apply Hw.Within.step (Hw.noteDecode_within ..); decide
    | (with_reducible apply Hw.Within.stepMem); (· exact ⟨rfl, rfl, rfl⟩); (· decide)
    | with_reducible apply Hw.Within.ite
    | split

theorem Hw.retire_within (h : Hw) (a : Actor) (dpa : Nat) :
    Hw.Within 10006219509083825014991908083620998369363504312604084394383346948000812769528671584530875760184189862888755742295642361860 h (Hw.retire h a dpa) := by
  unfold Hw.retire
  repeat' first
    | intro _
    | extract_lets +onlyGivenNames v0; clear_value (e0 : v0 = _); (first | (with_reducible apply Hw.Within.let1 e0) | (with_reducible apply Hw.Within.letMem e0; subst e0) | clear e0)
    | rw [Hw.mk_mem]
    | with_reducible apply Hw.Within.refl
    | with_reducible assumption
    | with_reducible apply Hw.Within.step (Hw.setElem_within ..); decide
    | with_reducible apply Hw.Within.step (Hw.logErr_within ..); decide
    | with_reducible apply Hw.Within.step (Hw.ignore_within ..); decide
    | (with_reducible apply Hw.Within.stepMem); (· exact ⟨rfl, rfl, rfl⟩); (· decide)
    | with_reducible apply Hw.Within.ite

theorem Hw.clearRetired_within (h : Hw) (a : Actor) (s : Nat) :
    Hw.Within 10006218277586770784916686791511671013027609947213241112245133079512148831989739136110793352040257870664262069207974297604 h (Hw.clearRetired h a s) := by
  unfold Hw.clearRetired
  repeat' first
    | intro _
    | extract_lets +onlyGivenNames v0; clear_value (e0 : v0 = _); (first | (with_reducible apply Hw.Within.let1 e0) | (with_reducible apply Hw.Within.letMem e0; subst e0))
    | rw [Hw.mk_mem]
    | with_reducible apply Hw.Within.refl
    | with_reducible assumption
    | with_reducible apply Hw.Within.step (Hw.ignore_within ..); decide
    | with_reducible apply Hw.Within.step (Hw.setElem_within ..); decide
    | (with_reducible apply Hw.Within.stepMem); (· exact ⟨rfl, rfl, rfl⟩); (· decide)
    | with_reducible apply Hw.Within.ite
    | with_reducible apply Hw.Within.fold

theorem Hw.rewrite_within (h : Hw) (s : Nat) (off : Nat) (word : List Byte) :
    Hw.Within 4194304 h (Hw.rewrite h s off word).2 := by
  unfold Hw.rewrite
  repeat' first
    | with_reducible apply Hw.Within.refl
    | with_reducible apply Hw.Within.step (Hw.putRaw_within ..); decide
    | with_reducible apply Hw.Within.ite2

theorem Hw.rebuildCol_within (h : Hw) (s : Nat) (off : Nat) :
    Hw.Within 11349182434963382837533881494243739595514612493578492732761445672842561311693747774452119629835928758954304218499890244 h (Hw.rebuildCol h s off) := by
  unfold Hw.rebuildCol
  repeat' first
    | intro _
    | extract_lets +onlyGivenNames v0; clear_value (e0 : v0 = _); (first | (with_reducible apply Hw.Within.let1 e0) | clear e0)
    | with_reducible apply Hw.Within.refl
    | with_reducible assumption
    | with_reducible apply Hw.Within.step (Hw.noteDecode_within ..); decide
    | with_reducible apply Hw.Within.step (Hw.rewrite_within ..); decide
    | split

theorem Hw.appendPpr_within (h : Hw) (g : Nat) (bank : Nat) (row : Nat) :
    Hw.Within 25711008708143844408671393477458601640355247900524685364822020 h (Hw.appendPpr h g bank row) := by
  unfold Hw.appendPpr
  repeat' first
    | extract_lets +onlyGivenNames v0; clear_value (e0 : v0 = _); clear e0
    | with_reducible apply Hw.Within.refl
    | with_reducible apply Hw.Within.step (Hw.setElem_within ..); decide
    | with_reducible apply Hw.Within.ite
    | split

theorem Hw.hardUe_within (h : Hw) (s : Nat) (c : Coord) (word : List Byte) :
    Hw.Within 1231497054230075221292109327356335894365390843282138240784700905275626047776285129122617524239124639534867663556612 h (Hw.hardUe h s c word) := by
  unfold Hw.hardUe
  repeat' first
    | intro _
    | extract_lets +onlyGivenNames v0; clear_value (e0 : v0 = _); with_reducible apply Hw.Within.let1 e0
    | with_reducible apply Hw.Within.refl
    | with_reducible assumption
    | with_reducible apply Hw.Within.step (Hw.allocRemap_within ..); decide
    | with_reducible apply Hw.Within.step (Hw.appendPpr_within ..); decide
    | with_reducible apply Hw.Within.ite

theorem Hw.scrubCol_within (h : Hw) (s : Nat) (off : Nat) (flips : List (Fin 36 × Byte)) (again : List (Fin 36 × Byte)) :
    Hw.Within 11349182434963382837533881494243739595514612493578492732787156681550705156102419167929578231476284006854828903864712260 h (Hw.scrubCol h s off flips again) := by
  unfold Hw.scrubCol
  repeat' first
    | intro _
    | extract_lets +onlyGivenNames v0; clear_value (e0 : v0 = _); (first | (with_reducible apply Hw.Within.let1 e0) | (with_reducible apply Hw.Within.letFnL e0) | clear e0)
    | with_reducible apply Hw.Within.refl
    | with_reducible assumption
    | with_reducible apply Hw.Within.step (Hw.noteDecode_within ..); decide
    | with_reducible apply Hw.Within.step (Hw.rewrite_within ..); decide
    | with_reducible apply Hw.Within.step (Hw.allocRemap_within ..); decide
    | with_reducible apply Hw.Within.step (Hw.degradedCol_within ..); decide
    | with_reducible apply Hw.Within.step (Hw.hardUe_within ..); decide
    | with_reducible apply Hw.Within.ite
    | with_reducible apply Hw.Within.ite2
    | with_reducible apply Hw.Within.fold
    | (split <;> (rename_i e0; with_reducible apply Hw.Within.snd; case e => with_reducible apply e0))
    | split
    | with_reducible apply_assumption -exfalso -symm

theorem execWcbHoldExpiry_within (stack : StackIx) (sector : BitVec 29) (s : State) :
    ∃ k, execWcbHoldExpiry stack sector s = .next { s with hw := k } ∧ s.hw.Within 11349182434963382837533881494243739595514612493578492732761445672842561311693747774452119629835928758954304218499906628 k := by
  refine ⟨_, rfl, ?_⟩
  generalize s.hw = h
  beta_reduce
  repeat' first
    | extract_lets +onlyGivenNames v0; clear_value (e0 : v0 = _); clear e0
    | with_reducible apply Hw.Within.refl
    | with_reducible apply Hw.Within.step (Hw.evict_within ..); decide
    | with_reducible apply Hw.Within.ite
    | split

theorem execHppr_within (g : PcIx) (ok : Bool) (s : State) :
    ∃ k, execHppr g ok s = .next { s with hw := k } ∧ s.hw.Within 1231497054230075221292109327356335894365390843282138239579497372081383341119813559866745572347472394197773037096964 k := by
  refine ⟨_, rfl, ?_⟩
  generalize s.hw = h
  beta_reduce
  repeat' first
    | intro _
    | extract_lets +onlyGivenNames v0; clear_value (e0 : v0 = _); (first | (with_reducible apply Hw.Within.let1 e0) | (with_reducible apply Hw.Within.letFnL e0) | (with_reducible apply Hw.Within.letMem e0; subst e0) | clear e0)
    | rw [Hw.mk_mem]
    | with_reducible apply Hw.Within.refl
    | with_reducible assumption
    | with_reducible apply Hw.Within.step (Hw.putLanes_within ..); decide
    | with_reducible apply Hw.Within.step (Hw.setElem_within ..); decide
    | with_reducible apply Hw.Within.step (Hw.logErr_within ..); decide
    | (with_reducible apply Hw.Within.stepMem); (· exact ⟨rfl, rfl, rfl⟩); (· decide)
    | with_reducible apply Hw.Within.ite
    | with_reducible apply Hw.Within.fold
    | split
    | with_reducible apply_assumption -exfalso -symm

theorem execScrubRead_within (stack : StackIx) (flips : List (Fin 36 × Byte)) (again : List (Fin 36 × Byte)) (s : State) :
    ∃ k, execScrubRead stack flips again s = .next { s with hw := k } ∧ s.hw.Within 11349182434963382837533881494243739595514612493578492733095688786048431289006475889659081451160546981661125128242576452 k := by
  refine ⟨_, rfl, ?_⟩
  generalize s.hw = h
  beta_reduce
  repeat' first
    | intro _
    | extract_lets +onlyGivenNames v0; clear_value (e0 : v0 = _); (first | (with_reducible apply Hw.Within.let1 e0) | clear e0)
    | with_reducible apply Hw.Within.refl
    | with_reducible assumption
    | with_reducible apply Hw.Within.step (Hw.setTimer_within ..); decide
    | with_reducible apply Hw.Within.step (Hw.scrubCol_within ..); decide
    | with_reducible apply Hw.Within.step (Hw.addReg_within ..); decide
    | with_reducible apply Hw.Within.step (Hw.setReg_within ..); decide
    | with_reducible apply Hw.Within.ite

theorem execCeHistoryExpiry_within (g : PcIx) (s : State) :
    ∃ k, execCeHistoryExpiry g s = .next { s with hw := k } ∧ s.hw.Within 8192 k := by
  refine ⟨_, rfl, ?_⟩
  generalize s.hw = h
  beta_reduce
  repeat' first
    | extract_lets +onlyGivenNames v0; clear_value (e0 : v0 = _); clear e0
    | with_reducible apply Hw.Within.refl
    | with_reducible apply Hw.Within.step (Hw.setPc_within ..); decide
    | with_reducible apply Hw.Within.ite

theorem Hw.setPprState_within (h : Hw) (g : Nat) (es : List Nat) (v : Nat) :
    Hw.Within 803469022129495137770981046170581301261101496891396417650692 h (Hw.setPprState h g es v) := by
  unfold Hw.setPprState
  repeat' first
    | intro _
    | extract_lets +onlyGivenNames v0; clear_value (e0 : v0 = _); clear e0
    | with_reducible apply Hw.Within.refl
    | with_reducible assumption
    | with_reducible apply Hw.Within.step (Hw.setElem_within ..); decide
    | with_reducible apply Hw.Within.fold

theorem execRebuildRow_within (g : PcIx) (s : State) :
    ∃ k, execRebuildRow g s = .next { s with hw := k } ∧ s.hw.Within 11349182434963382837533881494243739595514612493578492732767873425019597272795915622821484280246017570929435389841095748 k := by
  refine ⟨_, rfl, ?_⟩
  generalize s.hw = h
  beta_reduce
  repeat' first
    | intro _
    | extract_lets +onlyGivenNames v0; clear_value (e0 : v0 = _); (first | (with_reducible apply Hw.Within.let1 e0) | clear e0)
    | with_reducible apply Hw.Within.refl
    | with_reducible assumption
    | with_reducible apply Hw.Within.step (Hw.setPc_within ..); decide
    | with_reducible apply Hw.Within.step (Hw.setReg_within ..); decide
    | with_reducible apply Hw.Within.step (Hw.logErr_within ..); decide
    | with_reducible apply Hw.Within.step (Hw.rebuildCol_within ..); decide
    | with_reducible apply Hw.Within.ite
    | with_reducible apply Hw.Within.fold
    | split

theorem execSppr_within (g : PcIx) (bank : Fin 64) (row : BitVec 15) (ok : Bool) (s : State) :
    ∃ k, execSppr g bank row ok s = .next { s with hw := k } ∧ s.hw.Within 1231497054230077408542834110368260266867617960903503606809636152559984677882588277804917543792671813310387369029636 k := by
  refine ⟨_, rfl, ?_⟩
  generalize s.hw = h
  beta_reduce
  repeat' first
    | intro _
    | extract_lets +onlyGivenNames v0; clear_value (e0 : v0 = _); (first | (with_reducible apply Hw.Within.let1 e0) | clear e0)
    | with_reducible apply Hw.Within.refl
    | with_reducible assumption
    | with_reducible apply Hw.Within.step (Hw.askCal_within ..); decide
    | with_reducible apply Hw.Within.step (Hw.setPprState_within ..); decide
    | with_reducible apply Hw.Within.step (Hw.setElem_within ..); decide
    | with_reducible apply Hw.Within.step (Hw.subReg_within ..); decide
    | with_reducible apply Hw.Within.step (Hw.putLanes_within ..); decide
    | with_reducible apply Hw.Within.step (Hw.appendPpr_within ..); decide
    | with_reducible apply Hw.Within.step (Hw.addReg_within ..); decide
    | with_reducible apply Hw.Within.step (Hw.logErr_within ..); decide
    | with_reducible apply Hw.Within.ite
    | with_reducible apply Hw.Within.fold

theorem execRmwMerge_within (stack : StackIx) (sector : BitVec 29) (s : State) :
    ∃ k, execRmwMerge stack sector s = .next { s with hw := k } ∧ s.hw.Within 11349182434963382837533881494243739595514612493578492732761445672842561311693747774452119629835928758954304218499906628 k := by
  refine ⟨_, rfl, ?_⟩
  generalize s.hw = h
  beta_reduce
  repeat' first
    | extract_lets +onlyGivenNames v0; clear_value (e0 : v0 = _); clear e0
    | with_reducible apply Hw.Within.refl
    | with_reducible apply Hw.Within.step (Hw.finishRmw_within ..); decide
    | with_reducible apply Hw.Within.ite

theorem execWcbEvict_within (stack : StackIx) (sector : BitVec 29) (s : State) :
    ∃ k, execWcbEvict stack sector s = .next { s with hw := k } ∧ s.hw.Within 11349182434963382837533881494243739595514612493578492732761445672842561311693747774452119629835928758954304218499906628 k := by
  refine ⟨_, rfl, ?_⟩
  generalize s.hw = h
  beta_reduce
  repeat' first
    | extract_lets +onlyGivenNames v0; clear_value (e0 : v0 = _); clear e0
    | with_reducible apply Hw.Within.refl
    | with_reducible apply Hw.Within.step (Hw.nextEvict_within ..); decide
    | with_reducible apply Hw.Within.step (Hw.evict_within ..); decide
    | with_reducible apply Hw.Within.ite
    | split

end Sys2Proof.Machine
end

