-- ==== Sys2Proof/Laws/FrameCaravanSteps.lean ====
section
/-! SUPPORT. What each operation and command of Machine/CaravanSteps.lean changes, and that it keeps canonical tables. -/

namespace Sys2Proof.Machine

theorem Run.stream_within (r : Run) (a : Nat) (len : Nat) :
    Hw.Within 11349182434963382837533881494243739595514612493578492732761445672842561311693768191394134886501578604036680360305622084 r.h (Run.stream r a len).2.h := by
  unfold Run.stream
  repeat' first
    | intro _
    | with_reducible apply Hw.Within.refl
    | with_reducible assumption
    | with_reducible apply Hw.Within.step (Run.readClean_within ..); decide
    | with_reducible apply Run.fold2
    | split

theorem Hw.gcmOf_within (h : Hw) (key : List Byte) (g : Option Gcm) (n : Nat) :
    Hw.Within 2 h (Hw.gcmOf h key g n).2.2 := by
  unfold Hw.gcmOf
  repeat' first
    | with_reducible apply Hw.Within.refl
    | with_reducible apply Hw.Within.step (Hw.draw_within ..); decide
    | split

theorem Run.copy_within (r : Run) (src : Nat) (dst : Nat) (len : Nat) (pass : Bool) :
    Hw.Within 11349182434963382837533881494243739595514612493578492732761445672842561311693768191394134886501578604036680360314010692 r.h (Run.copy r src dst len pass).h := by
  unfold Run.copy
  repeat' first
    | intro _
    | with_reducible apply Hw.Within.refl
    | with_reducible assumption
    | with_reducible apply Hw.Within.step (Run.read_within ..); decide
    | with_reducible apply Hw.Within.step (Run.stop_within ..); decide
    | with_reducible apply Hw.Within.step (Run.write_within ..); decide
    | with_reducible apply Run.ite
    | with_reducible apply Run.fold

theorem execMove_within (e : EngIx) (s : State) :
    ∃ k, execMove e s = .next { s with hw := k } ∧ s.hw.Within 11349182434963382837533881494243739595514612493578492732761445672842561311693768191394134886501578604036680360314010692 k := by
  refine ⟨_, rfl, ?_⟩
  generalize s.hw = h
  beta_reduce
  repeat' first
    | intro _
    | extract_lets +onlyGivenNames v0; clear_value (e0 : v0 = _); (first | (with_reducible apply Run.let1 e0) | clear e0)
    | with_reducible apply Hw.Within.refl
    | with_reducible assumption
    | (with_reducible apply Hw.runStep_within); (· decide)
    | with_reducible apply Hw.Within.step (Run.copy_within ..); decide
    | with_reducible apply Hw.Within.step (Run.aligned_within ..); decide
    | with_reducible apply Hw.Within.step (Run.advance_within ..); decide

theorem Run.setCtx_within (r : Run) (i : Nat) (d : List Byte) :
    Hw.Within 65536 r.h (Run.setCtx r i d).h := by
  unfold Run.setCtx
  repeat' first
    | with_reducible apply Hw.Within.refl
    | with_reducible apply Hw.Within.step (Run.modEng_within ..); decide

theorem Run.closeCtx_within (r : Run) (i : Nat) :
    Hw.Within 65538 r.h (Run.closeCtx r i).h := by
  unfold Run.closeCtx
  repeat' first
    | with_reducible apply Hw.Within.refl
    | with_reducible apply Hw.Within.step (Hw.draw_within ..); decide
    | with_reducible apply Hw.Within.step (Run.setCtx_within ..); decide

theorem Run.indices_within (r : Run) (a : Nat) (n : Nat) :
    Hw.Within 11349182434963382837533881494243739595514612493578492732761445672842561311693768191394134886501578604036680360305622084 r.h (Run.indices r a n).2.h := by
  unfold Run.indices
  repeat' first
    | intro _
    | extract_lets +onlyGivenNames v0; clear_value (e0 : v0 = _); with_reducible apply Run.let1 e0
    | with_reducible apply Hw.Within.refl
    | with_reducible assumption
    | with_reducible apply Hw.Within.step (Run.aligned_within ..); decide
    | with_reducible apply Hw.Within.step (Run.stop_within ..); decide
    | with_reducible apply Hw.Within.step (Run.readClean_within ..); decide
    | with_reducible apply Run.ite

theorem execScatter_within (e : EngIx) (s : State) :
    ∃ k, execScatter e s = .next { s with hw := k } ∧ s.hw.Within 11349182434963382837533881494243739595514612493578492732761445672842561311693768191394134886501578604036680360314010692 k := by
  refine ⟨_, rfl, ?_⟩
  generalize s.hw = h
  beta_reduce
  repeat' first
    | intro _
    | extract_lets +onlyGivenNames v0; clear_value (e0 : v0 = _); clear e0
    | with_reducible apply Hw.Within.refl
    | with_reducible assumption
    | (with_reducible apply Hw.runStep_within); (· decide)
    | with_reducible apply Hw.Within.step (Run.indices_within ..); decide
    | with_reducible apply Hw.Within.step (Run.aligned_within ..); decide
    | with_reducible apply Hw.Within.step (Run.copy_within ..); decide
    | with_reducible apply Hw.Within.step (Run.advance_within ..); decide
    | with_reducible apply Run.fold

theorem execFill_within (e : EngIx) (s : State) :
    ∃ k, execFill e s = .next { s with hw := k } ∧ s.hw.Within 11349182434963382837533881494243739595514612493578492732761445672842561311693768191394134886501578604036680360314010692 k := by
  refine ⟨_, rfl, ?_⟩
  generalize s.hw = h
  beta_reduce
  repeat' first
    | intro _
    | extract_lets +onlyGivenNames v0; clear_value (e0 : v0 = _); (first | (with_reducible apply Run.let1 e0) | clear e0)
    | with_reducible apply Hw.Within.refl
    | with_reducible assumption
    | (with_reducible apply Hw.runStep_within); (· decide)
    | with_reducible apply Hw.Within.step (Run.write_within ..); decide
    | with_reducible apply Hw.Within.step (Run.aligned_within ..); decide
    | with_reducible apply Hw.Within.step (Run.advance_within ..); decide
    | with_reducible apply Run.fold

theorem Hw.foldWeight_within (h : Hw) (p : Nat) (tensor : Nat) (stream : List Byte) :
    Hw.Within 432345564227633156 h (Hw.foldWeight h p tensor stream) := by
  unfold Hw.foldWeight
  repeat' first
    | intro _
    | extract_lets +onlyGivenNames v0; clear_value (e0 : v0 = _); (first | (with_reducible apply Hw.Within.let1 e0) | (with_reducible apply Hw.Within.letCar e0; subst e0) | clear e0)
    | rw [Hw.mk_car]
    | with_reducible apply Hw.Within.refl
    | with_reducible assumption
    | with_reducible apply Hw.Within.step (Hw.setReg_within ..); decide
    | with_reducible apply Hw.Within.step (Hw.addReg_within ..); decide
    | (with_reducible apply Hw.Within.stepCar); (· rfl); (· decide)

theorem execIngest_within (e : EngIx) (s : State) :
    ∃ k, execIngest e s = .next { s with hw := k } ∧ s.hw.Within 11349182434963382837533881494243739595514612493578492732761445672842561311693768191394134886501578604469025924541578310 k := by
  refine ⟨_, rfl, ?_⟩
  generalize s.hw = h
  beta_reduce
  repeat' first
    | intro _
    | extract_lets +onlyGivenNames v0; clear_value (e0 : v0 = _); (first | (with_reducible apply Run.let1 e0) | clear e0)
    | with_reducible apply Hw.Within.refl
    | with_reducible assumption
    | (with_reducible apply Hw.runStep_within); (· decide)
    | with_reducible apply Hw.Within.step (Run.aligned_within ..); decide
    | with_reducible apply Hw.Within.step (Run.stop_within ..); decide
    | with_reducible apply Hw.Within.step (Run.readClean_within ..); decide
    | with_reducible apply Hw.Within.step (Run.modEng_within ..); decide
    | with_reducible apply Hw.Within.step (Run.setCtx_within ..); decide
    | with_reducible apply Hw.Within.step (Run.stream_within ..); decide
    | with_reducible apply Hw.Within.step (Hw.gcmOf_within ..); decide
    | with_reducible apply Hw.Within.step (Run.write_within ..); decide
    | with_reducible apply Hw.Within.step (Run.closeCtx_within ..); decide
    | with_reducible apply Hw.Within.step (Hw.foldWeight_within ..); decide
    | with_reducible apply Hw.Within.step (Run.advance_within ..); decide
    | with_reducible apply Run.ite
    | with_reducible apply Run.fold
    | split

theorem execTile_within (e : EngIx) (s : State) :
    ∃ k, execTile e s = .next { s with hw := k } ∧ s.hw.Within 11349182434963382837533881494243739595514612493578492732761445672842561311693768191394134886501578604036680360314010692 k := by
  refine ⟨_, rfl, ?_⟩
  generalize s.hw = h
  beta_reduce
  repeat' first
    | intro _
    | extract_lets +onlyGivenNames v0; clear_value (e0 : v0 = _); clear e0
    | with_reducible apply Hw.Within.refl
    | with_reducible assumption
    | (with_reducible apply Hw.runStep_within); (· decide)
    | with_reducible apply Hw.Within.step (Run.copy_within ..); decide
    | with_reducible apply Hw.Within.step (Run.aligned_within ..); decide
    | with_reducible apply Run.fold

theorem execDelta_within (e : EngIx) (s : State) :
    ∃ k, execDelta e s = .next { s with hw := k } ∧ s.hw.Within 11349182434963382837533881494243739595514612493578492732761445672842561311693768191394134886501578604036680360314010692 k := by
  refine ⟨_, rfl, ?_⟩
  generalize s.hw = h
  beta_reduce
  repeat' first
    | intro _
    | extract_lets +onlyGivenNames v0; clear_value (e0 : v0 = _); (first | (with_reducible apply Run.let1 e0) | clear e0)
    | with_reducible apply Hw.Within.refl
    | with_reducible assumption
    | (with_reducible apply Hw.runStep_within); (· decide)
    | with_reducible apply Hw.Within.step (Run.readClean_within ..); decide
    | with_reducible apply Hw.Within.step (Run.write_within ..); decide
    | with_reducible apply Hw.Within.step (Run.aligned_within ..); decide
    | with_reducible apply Hw.Within.step (Run.advance_within ..); decide
    | with_reducible apply Run.fold

theorem execPackz_within (e : EngIx) (s : State) :
    ∃ k, execPackz e s = .next { s with hw := k } ∧ s.hw.Within 11349182434963382837533881494243739595514612493578492732761445672842561311693768191394134886501578604036680360314010692 k := by
  refine ⟨_, rfl, ?_⟩
  generalize s.hw = h
  beta_reduce
  repeat' first
    | intro _
    | extract_lets +onlyGivenNames v0; clear_value (e0 : v0 = _); clear e0
    | with_reducible apply Hw.Within.refl
    | with_reducible assumption
    | (with_reducible apply Hw.runStep_within); (· decide)
    | with_reducible apply Hw.Within.step (Run.readClean_within ..); decide
    | with_reducible apply Hw.Within.step (Run.write_within ..); decide
    | with_reducible apply Hw.Within.step (Run.aligned_within ..); decide
    | with_reducible apply Hw.Within.step (Run.advance_within ..); decide
    | with_reducible apply Hw.Within.step (Run.setG_within ..); decide
    | with_reducible apply Run.ite
    | with_reducible apply Run.fold3
    | split

theorem execGather_within (e : EngIx) (s : State) :
    ∃ k, execGather e s = .next { s with hw := k } ∧ s.hw.Within 11349182434963382837533881494243739595514612493578492732761445672842561311693768191394134886501578604036680360314010692 k := by
  refine ⟨_, rfl, ?_⟩
  generalize s.hw = h
  beta_reduce
  repeat' first
    | intro _
    | extract_lets +onlyGivenNames v0; clear_value (e0 : v0 = _); clear e0
    | with_reducible apply Hw.Within.refl
    | with_reducible assumption
    | (with_reducible apply Hw.runStep_within); (· decide)
    | with_reducible apply Hw.Within.step (Run.indices_within ..); decide
    | with_reducible apply Hw.Within.step (Run.aligned_within ..); decide
    | with_reducible apply Hw.Within.step (Run.copy_within ..); decide
    | with_reducible apply Hw.Within.step (Run.advance_within ..); decide
    | with_reducible apply Run.fold

theorem execDigest_within (e : EngIx) (s : State) :
    ∃ k, execDigest e s = .next { s with hw := k } ∧ s.hw.Within 11349182434963382837533881494243739595514612493578492732761445672842561311693768191394134886501578604036680360314010694 k := by
  refine ⟨_, rfl, ?_⟩
  generalize s.hw = h
  beta_reduce
  repeat' first
    | intro _
    | extract_lets +onlyGivenNames v0; clear_value (e0 : v0 = _); (first | (with_reducible apply Run.let1 e0) | clear e0)
    | with_reducible apply Hw.Within.refl
    | with_reducible assumption
    | (with_reducible apply Hw.runStep_within); (· decide)
    | with_reducible apply Hw.Within.step (Run.aligned_within ..); decide
    | with_reducible apply Hw.Within.step (Run.setCtx_within ..); decide
    | with_reducible apply Hw.Within.step (Run.stream_within ..); decide
    | with_reducible apply Hw.Within.step (Run.write_within ..); decide
    | with_reducible apply Hw.Within.step (Run.closeCtx_within ..); decide
    | with_reducible apply Hw.Within.step (Run.advance_within ..); decide
    | with_reducible apply Run.ite

end Sys2Proof.Machine
end

