-- ==== Sys2Proof/Laws/FrameCaravanArith.lean ====
section
/-! SUPPORT. What each operation and command of Machine/CaravanArith.lean changes, and that it keeps canonical tables. -/

namespace Sys2Proof.Machine

theorem Hw.countFmt_within (h : Hw) (p : Option Nat) (c : FmtCount) :
    Hw.Within 1240816071198521791540374786364395983690017553307719418093540889068338824574631196438674632659633074160449687130116 h (Hw.countFmt h p c) := by
  unfold Hw.countFmt
  repeat' first
    | intro _
    | extract_lets +onlyGivenNames v0; clear_value (e0 : v0 = _); (first | (with_reducible apply Hw.Within.let1 e0) | clear e0)
    | with_reducible apply Hw.Within.refl
    | with_reducible assumption
    | with_reducible apply Hw.Within.step (Hw.addReg_within ..); decide
    | with_reducible apply Hw.Within.step (Hw.cross_within ..); decide
    | with_reducible apply Hw.Within.ite
    | split

theorem Run.readGroup_within (r : Run) (fmt : Nat) (g : Option GuardAt) (at_ : Nat) (q : Nat) (j : Nat) :
    Hw.Within 11349182434963382837533881494243739595514612493578492732761445672842561311693768191394134886501578604036680360305622084 r.h (Run.readGroup r fmt g at_ q j).2.2.h := by
  unfold Run.readGroup
  repeat' first
    | intro _
    | extract_lets +onlyGivenNames v0; clear_value (e0 : v0 = _); clear e0
    | with_reducible apply Hw.Within.refl
    | with_reducible assumption
    | with_reducible apply Hw.Within.step (Run.stream_within ..); decide
    | with_reducible apply Hw.Within.step (Run.readClean_within ..); decide
    | with_reducible apply Run.fold2
    | (split <;> (rename_i e0; with_reducible apply Run.snd; case e => with_reducible apply e0))
    | split

theorem Run.readPiece_within (r : Run) (fmt : Nat) (g : Option GuardAt) (at_ : Nat) (first : Nat) (n : Nat) :
    Hw.Within 11349182434963382837533881494243739595514612493578492732761445672842561311693768191394134886501578604036680360305622084 r.h (Run.readPiece r fmt g at_ first n).2.2.h := by
  unfold Run.readPiece
  repeat' first
    | intro _
    | extract_lets +onlyGivenNames v0; clear_value (e0 : v0 = _); clear e0
    | with_reducible apply Hw.Within.refl
    | with_reducible assumption
    | with_reducible apply Hw.Within.step (Run.readGroup_within ..); decide
    | with_reducible apply Run.fold3
    | split

theorem Run.count_within (r : Run) (a : Nat) (c : FmtCount) :
    Hw.Within 1240816071198521791540374786364395983690017553307719418093540889068338824574631196438674632659633074160449687130116 r.h (Run.count r a c).h := by
  unfold Run.count
  repeat' first
    | with_reducible apply Hw.Within.refl
    | with_reducible apply Hw.Within.step (Hw.countFmt_within ..); decide

theorem Run.elementwise_within (r : Run) (fi : Nat) (a : Nat) (b : Nat) (n : Nat) (f : Nat → Nat → Nat) :
    Hw.Within 11349191753980351284104129759702747655603937120288518317668055979040405706434575063262204053413401710292722414867446852 r.h (Run.elementwise r fi a b n f).h := by
  unfold Run.elementwise
  repeat' first
    | intro _
    | with_reducible apply Hw.Within.refl
    | with_reducible assumption
    | with_reducible apply Hw.Within.step (Run.readPiece_within ..); decide
    | with_reducible apply Hw.Within.step (Run.stream_within ..); decide
    | with_reducible apply Hw.Within.step (Run.write_within ..); decide
    | with_reducible apply Hw.Within.step (Run.count_within ..); decide
    | with_reducible apply Run.fold
    | with_reducible apply Run.fold2
    | split

theorem execAxpby_within (e : EngIx) (s : State) :
    ∃ k, execAxpby e s = .next { s with hw := k } ∧ s.hw.Within 11349191753980351284104129759702747655603937120288518317668055979040405706434575063262204053413401710292722414867446852 k := by
  refine ⟨_, rfl, ?_⟩
  generalize s.hw = h
  beta_reduce
  repeat' first
    | intro _
    | extract_lets +onlyGivenNames v0; clear_value (e0 : v0 = _); (first | (with_reducible apply Run.let1 e0) | clear e0)
    | with_reducible apply Hw.Within.refl
    | with_reducible assumption
    | (with_reducible apply Hw.runStep_within); (· decide)
    | with_reducible apply Hw.Within.step (Run.stop_within ..); decide
    | with_reducible apply Hw.Within.step (Run.aligned_within ..); decide
    | with_reducible apply Hw.Within.step (Run.elementwise_within ..); decide
    | with_reducible apply Hw.Within.step (Run.advance_within ..); decide
    | with_reducible apply Run.ite

theorem Run.guardAt_within (r : Run) (a : Nat) (fmt : Nat) (v : Nat) :
    Hw.Within 11349182434963382837533881494243739595514612493578492732761445672842561311693768191394134886501578604036680360305622084 r.h (Run.guardAt r a fmt v).2.h := by
  unfold Run.guardAt
  repeat' first
    | intro _
    | extract_lets +onlyGivenNames v0; clear_value (e0 : v0 = _); (first | (with_reducible apply Run.let1 e0) | clear e0)
    | with_reducible apply Hw.Within.refl
    | with_reducible assumption
    | with_reducible apply Hw.Within.step (Run.aligned_within ..); decide
    | with_reducible apply Hw.Within.step (Run.stop_within ..); decide
    | with_reducible apply Hw.Within.step (Run.readClean_within ..); decide
    | with_reducible apply Run.ite
    | (split <;> (rename_i e0; with_reducible apply Run.snd; case e => with_reducible apply e0))
    | split

theorem Run.momentStart_within (r : Run) (w : BitVec 128) :
    Hw.Within 11349182434963382837533881494243739595514612493578492732761445672842561311693768191394134886501578604036680360305622084 r.h (Run.momentStart r w).2.2.h := by
  unfold Run.momentStart
  repeat' first
    | extract_lets +onlyGivenNames v0; clear_value (e0 : v0 = _); clear e0
    | with_reducible apply Hw.Within.refl
    | with_reducible apply Hw.Within.step (Run.readClean_within ..); decide
    | with_reducible apply Hw.Within.step (Run.aligned_within ..); decide
    | with_reducible apply Hw.Within.step (Run.stop_within ..); decide
    | with_reducible apply Hw.Within.step (Run.guardAt_within ..); decide
    | with_reducible apply Run.ite
    | split

theorem Run.writeGroup_within (r : Run) (fmt : Nat) (g : Option GuardAt) (at_ : Nat) (q : Nat) (vs : List Val) (seed : Option (BitVec 64)) (base : Nat) :
    Hw.Within 11349182434963382837533881494243739595514612493578492732761445672842561311693768191394134886501578604036680360314010692 r.h (Run.writeGroup r fmt g at_ q vs seed base).2.h := by
  unfold Run.writeGroup
  repeat' first
    | intro _
    | extract_lets +onlyGivenNames v0; clear_value (e0 : v0 = _); (first | (with_reducible apply Run.let1 e0) | clear e0)
    | with_reducible apply Hw.Within.refl
    | with_reducible assumption
    | with_reducible apply Hw.Within.step (Run.write_within ..); decide
    | with_reducible apply Run.fold
    | split

theorem Run.writePiece_within (r : Run) (fmt : Nat) (g : Option GuardAt) (at_ : Nat) (first : Nat) (vs : List Val) (seed : Option (BitVec 64)) (base : Nat) :
    Hw.Within 11349182434963382837533881494243739595514612493578492732761445672842561311693768191394134886501578604036680360314010692 r.h (Run.writePiece r fmt g at_ first vs seed base).2.h := by
  unfold Run.writePiece
  repeat' first
    | intro _
    | extract_lets +onlyGivenNames v0; clear_value (e0 : v0 = _); clear e0
    | with_reducible apply Hw.Within.refl
    | with_reducible assumption
    | with_reducible apply Hw.Within.step (Run.writeGroup_within ..); decide
    | with_reducible apply Run.fold2
    | split

theorem Run.convertPieces_within (r : Run) (fi : Nat) (fo : Nat) (n : Nat) (a : Nat) (b : Nat) (d : Nat) (gi : Option GuardAt) (go : Option GuardAt) (seed : Option (BitVec 64)) :
    Hw.Within 11349182434963382837533881494243739595514612493578492732761445672842561311693768191394134886501578604036680360314010692 r.h (Run.convertPieces r fi fo n a b d gi go seed).2.2.h := by
  unfold Run.convertPieces
  repeat' first
    | intro _
    | with_reducible apply Hw.Within.refl
    | with_reducible assumption
    | with_reducible apply Hw.Within.step (Run.readPiece_within ..); decide
    | with_reducible apply Hw.Within.step (Run.writePiece_within ..); decide
    | with_reducible apply Run.fold3
    | (split <;> (rename_i e0; with_reducible apply Run.trd; case e => with_reducible apply e0))
    | split

theorem Run.guardOf_within (r : Run) (w : BitVec 128) (fi : Nat) (fo : Nat) (a : Nat) (b : Nat) :
    Hw.Within 11349182434963382837533881494243739595514612493578492732761445672842561311693768191394134886501578604036680360305622084 r.h (Run.guardOf r w fi fo a b).2.h := by
  unfold Run.guardOf
  repeat' first
    | with_reducible apply Hw.Within.refl
    | with_reducible apply Hw.Within.step (Run.guardAt_within ..); decide
    | split

theorem Run.writeUnits_within (r : Run) (at_ : Nat) (l : List Byte) :
    Hw.Within 11349182434963382837533881494243739595514612493578492732761445672842561311693768191394134886501578604036680360314010692 r.h (Run.writeUnits r at_ l).h := by
  unfold Run.writeUnits
  repeat' first
    | intro _
    | with_reducible apply Hw.Within.refl
    | with_reducible assumption
    | with_reducible apply Hw.Within.step (Run.write_within ..); decide
    | with_reducible apply Run.fold

theorem Run.momentPiece_within (r : Run) (y : MomentJob) (x : Nat) (cnt : Nat) :
    Hw.Within 11349182434963382837533881494243739595514612493578492732761445672842561311693768191394134886501578604036680360314010692 r.h (Run.momentPiece r y x cnt).2.2.h := by
  unfold Run.momentPiece
  repeat' first
    | intro _
    | extract_lets +onlyGivenNames v0; clear_value (e0 : v0 = _); (first | (with_reducible apply Run.let1 e0) | clear e0)
    | with_reducible apply Hw.Within.refl
    | with_reducible assumption
    | with_reducible apply Hw.Within.step (Run.stream_within ..); decide
    | with_reducible apply Hw.Within.step (Run.writeUnits_within ..); decide
    | with_reducible apply Hw.Within.step (Run.writePiece_within ..); decide
    | (split <;> (rename_i e0; with_reducible apply Run.snd; case e => with_reducible apply e0))
    | split

theorem Run.momentPieces_within (r : Run) (y : MomentJob) :
    Hw.Within 11349182434963382837533881494243739595514612493578492732761445672842561311693768191394134886501578604036680360314010692 r.h (Run.momentPieces r y).2.2.h := by
  unfold Run.momentPieces
  repeat' first
    | intro _
    | with_reducible apply Hw.Within.refl
    | with_reducible assumption
    | with_reducible apply Hw.Within.step (Run.momentPiece_within ..); decide
    | with_reducible apply Run.fold3
    | split

theorem Hw.addStaged_within (h : Hw) (base : Nat) (n : Nat) :
    Hw.Within 8388608 h (Hw.addStaged h base n) := by
  unfold Hw.addStaged
  repeat' first
    | extract_lets +onlyGivenNames v0; clear_value (e0 : v0 = _); clear e0
    | with_reducible apply Hw.Within.refl
    | with_reducible apply Hw.Within.step (Hw.putStaging_within ..); decide

theorem Run.guardCounts_within (r : Run) (g : GuardAt) (c : FmtCount) :
    Hw.Within 8388608 r.h (Run.guardCounts r g c).h := by
  unfold Run.guardCounts
  repeat' first
    | intro _
    | extract_lets +onlyGivenNames v0; clear_value (e0 : v0 = _); (first | (with_reducible apply Hw.Within.let1 e0) | clear e0)
    | with_reducible apply Hw.Within.refl
    | with_reducible assumption
    | with_reducible apply Hw.Within.step (Hw.addStaged_within ..); decide

theorem execMoment_within (e : EngIx) (s : State) :
    ∃ k, execMoment e s = .next { s with hw := k } ∧ s.hw.Within 11349191753980351284104129759702747655603937120288518317668055979040405706434575063262204053413401710292722414867446852 k := by
  refine ⟨_, rfl, ?_⟩
  generalize s.hw = h
  beta_reduce
  repeat' first
    | intro _
    | with_reducible apply Hw.Within.refl
    | with_reducible assumption
    | (with_reducible apply Hw.runStep_within); (· decide)
    | with_reducible apply Hw.Within.step (Run.momentStart_within ..); decide
    | with_reducible apply Hw.Within.step (Run.momentPieces_within ..); decide
    | with_reducible apply Hw.Within.step (Run.count_within ..); decide
    | with_reducible apply Hw.Within.step (Run.guardCounts_within ..); decide
    | with_reducible apply Hw.Within.step (Run.advance_within ..); decide
    | with_reducible apply Hw.Within.step (Run.write_within ..); decide
    | with_reducible apply Run.ite
    | split

theorem Run.convert_within (r : Run) (w : BitVec 128) (fi : Nat) (fo : Nat) (a : Nat) (b : Nat) (d : Nat) :
    Hw.Within 11349191753980351284104129759702747655603937120288518317668055979040405706434575063262204053413401710292722414867446852 r.h (Run.convert r w fi fo a b d).h := by
  unfold Run.convert
  repeat' first
    | extract_lets +onlyGivenNames v0; clear_value (e0 : v0 = _); clear e0
    | with_reducible apply Hw.Within.refl
    | with_reducible apply Hw.Within.step (Run.guardOf_within ..); decide
    | with_reducible apply Hw.Within.step (Run.aligned_within ..); decide
    | with_reducible apply Hw.Within.step (Run.convertPieces_within ..); decide
    | with_reducible apply Hw.Within.step (Run.count_within ..); decide
    | with_reducible apply Hw.Within.step (Run.guardCounts_within ..); decide
    | with_reducible apply Hw.Within.step (Run.advance_within ..); decide
    | with_reducible apply Hw.Within.step (Run.setG_within ..); decide
    | with_reducible apply Run.ite
    | split

theorem execConvert_within (e : EngIx) (s : State) :
    ∃ k, execConvert e s = .next { s with hw := k } ∧ s.hw.Within 11349191753980351284104129759702747655603937120288518317668055979040405706434575063262204053413401710292722414867446852 k := by
  refine ⟨_, rfl, ?_⟩
  generalize s.hw = h
  beta_reduce
  repeat' first
    | intro _
    | with_reducible apply Hw.Within.refl
    | with_reducible assumption
    | (with_reducible apply Hw.runStep_within); (· decide)
    | with_reducible apply Hw.Within.step (Run.convert_within ..); decide

theorem execAccum_within (e : EngIx) (s : State) :
    ∃ k, execAccum e s = .next { s with hw := k } ∧ s.hw.Within 11349191753980351284104129759702747655603937120288518317668055979040405706434575063262204053413401710292722414867446852 k := by
  refine ⟨_, rfl, ?_⟩
  generalize s.hw = h
  beta_reduce
  repeat' first
    | intro _
    | extract_lets +onlyGivenNames v0; clear_value (e0 : v0 = _); (first | (with_reducible apply Run.let1 e0) | clear e0)
    | with_reducible apply Hw.Within.refl
    | with_reducible assumption
    | (with_reducible apply Hw.runStep_within); (· decide)
    | with_reducible apply Hw.Within.step (Run.elementwise_within ..); decide
    | with_reducible apply Hw.Within.step (Run.aligned_within ..); decide
    | with_reducible apply Hw.Within.step (Run.advance_within ..); decide

end Sys2Proof.Machine
end

