-- ==== Sys2Proof/Laws/FrameReduce.lean ====
section
/-! SUPPORT. What each operation and command of Machine/Reduce.lean changes, and that it keeps canonical tables. -/

namespace Sys2Proof.Machine

theorem Hw.parkAcw_within (h : Hw) (p : Piece) (s : Nat) :
    Hw.Within 474284397516047136454946754595585670566993857190463750305618264096412179005313028 h (Hw.parkAcw h p s) := by
  unfold Hw.parkAcw
  repeat' first
    | intro _
    | extract_lets +onlyGivenNames v0; clear_value (e0 : v0 = _); (first | (with_reducible apply Hw.Within.let1 e0) | clear e0)
    | rw [Hw.mk_red]
    | with_reducible apply Hw.Within.refl
    | with_reducible assumption
    | with_reducible apply Hw.Within.step (Hw.setTrk_within ..); decide
    | with_reducible apply Hw.Within.step (Hw.setSes_within ..); decide
    | with_reducible apply Hw.Within.step (Hw.setReg_within ..); decide
    | with_reducible apply Hw.Within.step (Hw.putRed_within ..); decide
    | with_reducible apply Hw.Within.ite
    | split

theorem Hw.armWm_within (h : Hw) (w : Nat) :
    Hw.Within 1240816071198521791540374786364395983690017551636202724730201221798983889179414094673171678462117580332025851744260 h (Hw.armWm h w) := by
  unfold Hw.armWm
  repeat' first
    | intro _
    | extract_lets +onlyGivenNames v0; clear_value (e0 : v0 = _); (first | (with_reducible apply Hw.Within.let1 e0) | (with_reducible apply Hw.Within.letCar e0; subst e0))
    | rw [Hw.mk_car]
    | with_reducible apply Hw.Within.refl
    | with_reducible assumption
    | with_reducible apply Hw.Within.step (Hw.uncross_within ..); decide
    | with_reducible apply Hw.Within.step (Hw.setReg_within ..); decide
    | with_reducible apply Hw.Within.step (Hw.cross_within ..); decide
    | (with_reducible apply Hw.Within.stepCar); (· rfl); (· decide)
    | with_reducible apply Hw.Within.ite

theorem Hw.clearSession_within (h : Hw) (n : Nat) :
    Hw.Within 82631996098781074868989413504096379978580939571972645733184659232935674792453719997977186017190218936934828670181666062340 h (Hw.clearSession h n) := by
  unfold Hw.clearSession
  have e1 : Hw.Within 82631996098781074868989413504096379978580939571972645733184659232935674792453719997977186017190218936934828670181666062340 h (h.putRed { h.red with sessions := Table.del h.red.sessions n }) :=
    Hw.Within.step (Hw.putRed_within ..) (by decide) (Hw.Within.refl _ _)
  refine Hw.Within.trans e1 (Hw.resetRegs_only _ _ _ (by decide) (fun k hk =>
    Reg.bits_of _ (fun r => decide (r.index = 0x8000)) (by decide) (by decide) k ?_))
  exact decide_eq_true (of_decide_eq_true hk).1

theorem Hw.releaseSessions_within (h : Hw) (p : Nat) :
    Hw.Within 82643345108062690709077771159754552674278588180566520307017524999237892711802417813388930806521388733109326752030682388548 h (Hw.releaseSessions h p) := by
  unfold Hw.releaseSessions
  repeat' first
    | intro _
    | with_reducible apply Hw.Within.refl
    | with_reducible assumption
    | with_reducible apply Hw.Within.step (Hw.clearSession_within ..); decide
    | with_reducible apply Hw.Within.step (Hw.abortSession_within ..); decide
    | with_reducible apply Hw.Within.ite
    | with_reducible apply Hw.Within.fold

theorem Hw.openSession_within (h : Hw) (a : Actor) (n : Nat) :
    Hw.Within 10006218277586770784916686791511674991643848016257227877902956433571973860856136842584441314489561523623137977080021125124 h (Hw.openSession h a n) := by
  unfold Hw.openSession
  repeat' first
    | intro _
    | extract_lets +onlyGivenNames v0; clear_value (e0 : v0 = _); (first | (with_reducible apply Hw.Within.let1 e0) | clear e0)
    | with_reducible apply Hw.Within.refl
    | with_reducible assumption
    | with_reducible apply Hw.Within.step (Hw.ignore_within ..); decide
    | with_reducible apply Hw.Within.step (Hw.zeroRegs_within ..); decide
    | with_reducible apply Hw.Within.step (Hw.setReg_within ..); decide
    | with_reducible apply Hw.Within.step (Hw.setSes_within ..); decide
    | with_reducible apply Hw.Within.step (Hw.setRedState_within ..); decide
    | with_reducible apply Hw.Within.ite

theorem Hw.abortCommand_within (h : Hw) (a : Actor) (n : Nat) :
    Hw.Within 10017567286868386625005044447169843708733558532767180205069189109761816798900365674134108616715803450526553298778588846148 h (Hw.abortCommand h a n) := by
  unfold Hw.abortCommand
  repeat' first
    | with_reducible apply Hw.Within.refl
    | with_reducible apply Hw.Within.step (Hw.abortSession_within ..); decide
    | with_reducible apply Hw.Within.step (Hw.ignore_within ..); decide
    | with_reducible apply Hw.Within.ite

theorem Hw.closeSession_within (h : Hw) (a : Actor) (n : Nat) :
    Hw.Within 10006218277586770784916686791511674991613501225509912049406346949820896933965951845003270235466100480006344104063986698244 h (Hw.closeSession h a n) := by
  unfold Hw.closeSession
  repeat' first
    | extract_lets +onlyGivenNames v0; clear_value (e0 : v0 = _); clear e0
    | rw [Hw.mk_red]
    | with_reducible apply Hw.Within.refl
    | with_reducible apply Hw.Within.step (Hw.setRedState_within ..); decide
    | with_reducible apply Hw.Within.step (Hw.ignore_within ..); decide
    | with_reducible apply Hw.Within.step (Hw.putRed_within ..); decide
    | with_reducible apply Hw.Within.ite

theorem Hw.outputPasses_within (h : Hw) (n : Nat) (s : Nat) (o : Nat) (len : Nat) :
    Hw.Within 1231312693637327475383720003129487931408741852202045208373384168882678805379704773621952486114998696151348932546564 h (Hw.outputPasses h n s o len).2 := by
  unfold Hw.outputPasses
  repeat' first
    | extract_lets +onlyGivenNames v0; clear_value (e0 : v0 = _); clear e0
    | with_reducible apply Hw.Within.refl
    | with_reducible apply Hw.Within.step (Hw.lookLines_within ..); decide
    | with_reducible apply Hw.Within.step (Hw.dropEngWait_within ..); decide
    | with_reducible apply Hw.Within.step (Hw.setDirWaiting_within ..); decide
    | with_reducible apply Hw.Within.ite2

theorem Hw.setChunk_within (h : Hw) (n : Nat) (c : Nat) (k : Chunk) :
    Hw.Within 131072 h (Hw.setChunk h n c k) := by
  unfold Hw.setChunk
  repeat' first
    | extract_lets +onlyGivenNames v0; clear_value (e0 : v0 = _); clear e0
    | with_reducible apply Hw.Within.refl
    | with_reducible apply Hw.Within.step (Hw.setSes_within ..); decide

theorem Hw.checkComplete_within (h : Hw) (n : Nat) :
    Hw.Within 1231497054230075221292109331334921785643687514219322053426460578622594775983572722861013287219719037431064723724292 h (Hw.checkComplete h n) := by
  unfold Hw.checkComplete
  repeat' first
    | with_reducible apply Hw.Within.refl
    | with_reducible apply Hw.Within.step (Hw.sessionNotice_within ..); decide
    | with_reducible apply Hw.Within.step (Hw.setRedState_within ..); decide
    | with_reducible apply Hw.Within.ite

theorem Hw.resendParked_within (h : Hw) (n : Nat) :
    Hw.Within 474284397516047136454946754595585670566993857190463750305618264096412179005313028 h (Hw.resendParked h n) := by
  unfold Hw.resendParked
  repeat' first
    | intro _
    | extract_lets +onlyGivenNames v0; clear_value (e0 : v0 = _); (first | (with_reducible apply Hw.Within.let1 e0) | clear e0)
    | rw [Hw.mk_red]
    | with_reducible apply Hw.Within.refl
    | with_reducible assumption
    | with_reducible apply Hw.Within.step (Hw.setSes_within ..); decide
    | with_reducible apply Hw.Within.step (Hw.setReg_within ..); decide
    | with_reducible apply Hw.Within.step (Hw.setTrk_within ..); decide
    | with_reducible apply Hw.Within.step (Hw.putRed_within ..); decide
    | split

theorem Hw.finishChunk_within (h : Hw) (n : Nat) (c : Nat) (sl : Slot) (partialSum : Bool) :
    Hw.Within 1240816071198521791540374790342982690144622453279406048613161570360505868415919535274248082626701215353128106989572 h (Hw.finishChunk h n c sl partialSum) := by
  unfold Hw.finishChunk
  repeat' first
    | intro _
    | extract_lets +onlyGivenNames v0; clear_value (e0 : v0 = _); (first | (with_reducible apply Hw.Within.let1 e0) | clear e0)
    | with_reducible apply Hw.Within.refl
    | with_reducible assumption
    | with_reducible apply Hw.Within.step (Hw.setChunk_within ..); decide
    | with_reducible apply Hw.Within.step (Hw.subReg_within ..); decide
    | with_reducible apply Hw.Within.step (Hw.addReg_within ..); decide
    | with_reducible apply Hw.Within.step (Hw.setSes_within ..); decide
    | with_reducible apply Hw.Within.step (Hw.setReg_within ..); decide
    | with_reducible apply Hw.Within.step (Hw.cross_within ..); decide
    | with_reducible apply Hw.Within.step (Hw.uncross_within ..); decide
    | with_reducible apply Hw.Within.step (Hw.sessionNotice_within ..); decide
    | with_reducible apply Hw.Within.step (Hw.checkComplete_within ..); decide
    | with_reducible apply Hw.Within.step (Hw.resendParked_within ..); decide
    | with_reducible apply Hw.Within.ite

theorem Hw.finalizeChunk_within (h : Hw) (n : Nat) (c : Nat) (partialSum : Bool) :
    Hw.Within 11349191753980351284104129759702747655707686832245153628767575581608190071871104969522617998792755705563812579016440900 h (Hw.finalizeChunk h n c partialSum) := by
  unfold Hw.finalizeChunk
  repeat' first
    | extract_lets +onlyGivenNames v0; clear_value (e0 : v0 = _); clear e0
    | with_reducible apply Hw.Within.refl
    | with_reducible apply Hw.Within.step (Hw.outputPasses_within ..); decide
    | with_reducible apply Hw.Within.step (Hw.setChunk_within ..); decide
    | with_reducible apply Hw.Within.step (Hw.writeBytes_within ..); decide
    | with_reducible apply Hw.Within.step (Hw.countFmt_within ..); decide
    | with_reducible apply Hw.Within.step (Hw.finishChunk_within ..); decide
    | with_reducible apply Hw.Within.ite
    | split

theorem Hw.tryFinalize_within (h : Hw) (n : Nat) (c : Nat) :
    Hw.Within 11349191753980351284104129759702747655707686832245153628767575581608190071871104969522617998792755705563812579016440900 h (Hw.tryFinalize h n c) := by
  unfold Hw.tryFinalize
  repeat' first
    | with_reducible apply Hw.Within.refl
    | with_reducible apply Hw.Within.step (Hw.finalizeChunk_within ..); decide
    | with_reducible apply Hw.Within.ite
    | split

theorem Hw.excludeCommand_within (h : Hw) (a : Actor) (n : Nat) :
    Hw.Within 10017567469340751136200790921271373760683325044739197454084079690719658281413233343438416962955425377805065110413709933636 h (Hw.excludeCommand h a n) := by
  unfold Hw.excludeCommand
  repeat' first
    | intro _
    | extract_lets +onlyGivenNames v0; clear_value (e0 : v0 = _); with_reducible apply Hw.Within.let1 e0
    | with_reducible apply Hw.Within.refl
    | with_reducible assumption
    | with_reducible apply Hw.Within.step (Hw.setReg_within ..); decide
    | with_reducible apply Hw.Within.step (Hw.tryFinalize_within ..); decide
    | with_reducible apply Hw.Within.step (Hw.ignore_within ..); decide
    | with_reducible apply Hw.Within.ite
    | with_reducible apply Hw.Within.fold

theorem Hw.armSession_within (h : Hw) (n : Nat) :
    Hw.Within 1240816071198521791540374786364395983690017551636202724730201221798983889179414094673171678462117580332025851744260 h (Hw.armSession h n) := by
  unfold Hw.armSession
  repeat' first
    | intro _
    | with_reducible apply Hw.Within.refl
    | with_reducible assumption
    | with_reducible apply Hw.Within.step (Hw.armWm_within ..); decide
    | with_reducible apply Hw.Within.fold

theorem Hw.rearmCommand_within (h : Hw) (a : Actor) (n : Nat) :
    Hw.Within 10006219518402841983438478331886457377423593637230792748421529736796231334299148808603970417132212558931705123420248281092 h (Hw.rearmCommand h a n) := by
  unfold Hw.rearmCommand
  repeat' first
    | with_reducible apply Hw.Within.refl
    | with_reducible apply Hw.Within.step (Hw.armSession_within ..); decide
    | with_reducible apply Hw.Within.step (Hw.ignore_within ..); decide
    | with_reducible apply Hw.Within.ite

theorem Hw.settleChunks_within (h : Hw) :
    Hw.Within 1240816071198521791540374790342982690144622453279406048613161570360505868415919535274248082626701215353128106989572 h (Hw.settleChunks h) := by
  unfold Hw.settleChunks
  repeat' first
    | intro _
    | with_reducible apply Hw.Within.refl
    | with_reducible assumption
    | with_reducible apply Hw.Within.step (Hw.finishChunk_within ..); decide
    | with_reducible apply Hw.Within.ite
    | with_reducible apply Hw.Within.fold
    | split

theorem Hw.writeMap_within (h : Hw) (n : Nat) (at_ : Nat) (b : List Byte) :
    Hw.Within 11349182434963382837533881494243739595514612493578492732761445672842561311693747774452119629835928758954304218499906628 h (Hw.writeMap h n at_ b) := by
  unfold Hw.writeMap
  repeat' first
    | extract_lets +onlyGivenNames v0; clear_value (e0 : v0 = _); clear e0
    | with_reducible apply Hw.Within.refl
    | with_reducible apply Hw.Within.step (Hw.writeBytes_within ..); decide

theorem Hw.readMap_within (h : Hw) (n : Nat) (repair : Bool) :
    Hw.Within 11349182434963382837533881494243739595722111917491763354960484877978130042566807586972947520594636749496484546814671940 h (Hw.readMap h n repair) := by
  unfold Hw.readMap
  repeat' first
    | intro _
    | extract_lets +onlyGivenNames v0; clear_value (e0 : v0 = _); (first | (with_reducible apply Hw.Within.let1 e0) | clear e0)
    | with_reducible apply Hw.Within.refl
    | with_reducible assumption
    | with_reducible apply Hw.Within.step (Hw.readBytes_within ..); decide
    | with_reducible apply Hw.Within.step (Hw.writeMap_within ..); decide
    | with_reducible apply Hw.Within.step (Hw.addReg_within ..); decide
    | with_reducible apply Hw.Within.step (Hw.sessionNotice_within ..); decide
    | with_reducible apply Hw.Within.step (Hw.setChunk_within ..); decide
    | with_reducible apply Hw.Within.ite
    | with_reducible apply Hw.Within.fold
    | split

theorem execStragglerExpiry_within (session : Fin 256) (chunk : BitVec 32) (s : State) :
    ∃ k, execStragglerExpiry session chunk s = .next { s with hw := k } ∧ s.hw.Within 11349191753980351284104129759702747655707686832245153628767575581608190071871104969522617998792755705563812579016440900 k := by
  refine ⟨_, rfl, ?_⟩
  generalize s.hw = h
  beta_reduce
  repeat' first
    | intro _
    | extract_lets +onlyGivenNames v0; clear_value (e0 : v0 = _); (first | (with_reducible apply Hw.Within.let1 e0) | clear e0)
    | with_reducible apply Hw.Within.refl
    | with_reducible assumption
    | with_reducible apply Hw.Within.step (Hw.finalizeChunk_within ..); decide
    | with_reducible apply Hw.Within.step (Hw.abortSession_within ..); decide
    | with_reducible apply Hw.Within.step (Hw.setChunk_within ..); decide
    | with_reducible apply Hw.Within.step (Hw.cross_within ..); decide
    | with_reducible apply Hw.Within.ite
    | split

theorem Hw.answerAcw_within (h : Hw) (p : Piece) (status : Nat) :
    Hw.Within 11347777784561610013136363548841360775862964909894048640369108500805891755407668870676896111633814371703863186880467012 h (Hw.answerAcw h p status) := by
  unfold Hw.answerAcw
  repeat' first
    | intro _
    | extract_lets +onlyGivenNames v0; clear_value (e0 : v0 = _); with_reducible apply Hw.Within.let1 e0
    | with_reducible apply Hw.Within.refl
    | with_reducible assumption
    | with_reducible apply Hw.Within.step (Hw.point_within ..); decide
    | with_reducible apply Hw.Within.step (Hw.complete_within ..); decide
    | with_reducible apply Hw.Within.ite

theorem Hw.addContribution_within (h : Hw) (p : Piece) (sl : Slot) :
    Hw.Within 11349191753980351284104129759702747661399099602437719266226936636755218118675031255808183002460174874720758727078575172 h (Hw.addContribution h p sl) := by
  unfold Hw.addContribution
  repeat' first
    | extract_lets +onlyGivenNames v0; clear_value (e0 : v0 = _); clear e0
    | with_reducible apply Hw.Within.refl
    | with_reducible apply Hw.Within.step (Hw.setChunk_within ..); decide
    | with_reducible apply Hw.Within.step (Hw.addReg_within ..); decide
    | with_reducible apply Hw.Within.step (Hw.cross_within ..); decide
    | with_reducible apply Hw.Within.step (Hw.countSel_within ..); decide
    | with_reducible apply Hw.Within.step (Hw.tryFinalize_within ..); decide
    | with_reducible apply Hw.Within.step (Hw.answerAcw_within ..); decide
    | split

theorem Hw.contribute_within (h : Hw) (p : Piece) (s : Nat) :
    Hw.Within 11349191753980351284104129759702747662347668397469813539136830145946389459809018970189110503071411402913583085088930884 h (Hw.contribute h p s) := by
  unfold Hw.contribute
  repeat' first
    | intro _
    | extract_lets +onlyGivenNames v0; clear_value (e0 : v0 = _); (first | (with_reducible apply Hw.Within.letFn e0) | clear e0)
    | with_reducible apply Hw.Within.refl
    | with_reducible assumption
    | with_reducible apply Hw.Within.step (Hw.answerAcw_within ..); decide
    | with_reducible apply Hw.Within.step (Hw.addReg_within ..); decide
    | with_reducible apply Hw.Within.step (Hw.parkAcw_within ..); decide
    | with_reducible apply Hw.Within.step (Hw.addContribution_within ..); decide
    | with_reducible apply Hw.Within.ite
    | split
    | with_reducible apply_assumption -exfalso -symm

theorem Hw.takeContribution_within (h : Hw) (stack : Nat) :
    Hw.Within 11349191753980351284104129759702747662347668397469813539136830145946389459809018970189110503071411402913583085088930884 h (Hw.takeContribution h stack) := by
  unfold Hw.takeContribution
  repeat' first
    | intro _
    | extract_lets +onlyGivenNames v0; clear_value (e0 : v0 = _); (first | (with_reducible apply Hw.Within.let1 e0) | clear e0)
    | rw [Hw.mk_red]
    | with_reducible apply Hw.Within.refl
    | with_reducible assumption
    | with_reducible apply Hw.Within.step (Hw.contribute_within ..); decide
    | with_reducible apply Hw.Within.step (Hw.point_within ..); decide
    | with_reducible apply Hw.Within.step (Hw.putRed_within ..); decide
    | with_reducible apply Hw.Within.ite
    | split

theorem execReduce_within (e : EngIx) (s : State) :
    ∃ k, execReduce e s = .next { s with hw := k } ∧ s.hw.Within 11349182434963382837533881494243739595514612493578492732761445672842561311693768191394134886501578604036680360305622084 k := by
  refine ⟨_, rfl, ?_⟩
  generalize s.hw = h
  beta_reduce
  repeat' first
    | intro _
    | extract_lets +onlyGivenNames v0; clear_value (e0 : v0 = _); (first | (with_reducible apply Hw.Within.let1 e0) | (with_reducible apply Run.let1 e0) | clear e0)
    | rw [Hw.mk_red]
    | with_reducible apply Hw.Within.refl
    | with_reducible assumption
    | (with_reducible apply Hw.runStep_within); (· decide)
    | with_reducible apply Hw.Within.step (Run.aligned_within ..); decide
    | with_reducible apply Hw.Within.step (Run.stop_within ..); decide
    | with_reducible apply Hw.Within.step (Run.stream_within ..); decide
    | with_reducible apply Hw.Within.step (Run.advance_within ..); decide
    | with_reducible apply Hw.Within.step (Run.setG_within ..); decide
    | with_reducible apply Hw.Within.step (Hw.putRed_within ..); decide
    | with_reducible apply Run.ite

theorem Hw.resendAll_within (h : Hw) (n : Nat) :
    Hw.Within 474284397516047136454946754595585670566993857190463750305618264096412179005313028 h (Hw.resendAll h n) := by
  unfold Hw.resendAll
  repeat' first
    | intro _
    | with_reducible apply Hw.Within.refl
    | with_reducible assumption
    | with_reducible apply Hw.Within.step (Hw.resendParked_within ..); decide
    | with_reducible apply Hw.Within.fold

theorem Hw.sessionsToProxy_within (h : Hw) (s : Nat) :
    Hw.Within 11349183637417185217736494173657805167039770654354736762578554827169848925201631875747310583788308373583250227331071044 h (Hw.sessionsToProxy h s) := by
  unfold Hw.sessionsToProxy
  repeat' first
    | intro _
    | extract_lets +onlyGivenNames v0; clear_value (e0 : v0 = _); (first | (with_reducible apply Hw.Within.let1 e0) | clear e0)
    | rw [Hw.mk_red]
    | with_reducible apply Hw.Within.refl
    | with_reducible assumption
    | with_reducible apply Hw.Within.step (Hw.abortSession_within ..); decide
    | with_reducible apply Hw.Within.step (Hw.answerAcw_within ..); decide
    | with_reducible apply Hw.Within.step (Hw.setSes_within ..); decide
    | with_reducible apply Hw.Within.step (Hw.setReg_within ..); decide
    | with_reducible apply Hw.Within.step (Hw.zeroRegs_within ..); decide
    | with_reducible apply Hw.Within.step (Hw.uncross_within ..); decide
    | with_reducible apply Hw.Within.step (Hw.readMap_within ..); decide
    | with_reducible apply Hw.Within.step (Hw.addReg_within ..); decide
    | with_reducible apply Hw.Within.step (Hw.sessionNotice_within ..); decide
    | with_reducible apply Hw.Within.step (Hw.checkComplete_within ..); decide
    | with_reducible apply Hw.Within.step (Hw.resendAll_within ..); decide
    | with_reducible apply Hw.Within.step (Hw.putRed_within ..); decide
    | with_reducible apply Hw.Within.ite
    | with_reducible apply Hw.Within.fold
    | split

theorem execMapEntryWrite_within (session : Fin 256) (chunk : BitVec 32) (s : State) :
    ∃ k, execMapEntryWrite session chunk s = .next { s with hw := k } ∧ s.hw.Within 11349191753980351284104129759702747655707686832245153628767575581608190071871104969522617998792755705563812579016440900 k := by
  refine ⟨_, rfl, ?_⟩
  generalize s.hw = h
  beta_reduce
  repeat' first
    | intro _
    | extract_lets +onlyGivenNames v0; clear_value (e0 : v0 = _); (first | (with_reducible apply Hw.Within.let1 e0) | clear e0)
    | with_reducible apply Hw.Within.refl
    | with_reducible assumption
    | with_reducible apply Hw.Within.step (Hw.finalizeChunk_within ..); decide
    | with_reducible apply Hw.Within.step (Hw.setChunk_within ..); decide
    | with_reducible apply Hw.Within.step (Hw.writeMap_within ..); decide
    | with_reducible apply Hw.Within.ite
    | split

theorem Hw.sliceResetSessions_within (h : Hw) (s : Nat) :
    Hw.Within 11349009281615840088357655658172695705948585553939092850384103166807263585106044944232872755269353712428507384192309316 h (Hw.sliceResetSessions h s) := by
  unfold Hw.sliceResetSessions
  repeat' first
    | intro _
    | with_reducible apply Hw.Within.refl
    | with_reducible assumption
    | with_reducible apply Hw.Within.step (Hw.abortSession_within ..); decide
    | with_reducible apply Hw.Within.ite
    | with_reducible apply Hw.Within.fold

theorem Hw.sessionsTakeover_within (h : Hw) :
    Hw.Within 1231497054230075221292109331334922704569707701560648934885797607569831499534171029384529504355105724229661546387460 h (Hw.sessionsTakeover h) := by
  unfold Hw.sessionsTakeover
  repeat' first
    | intro _
    | extract_lets +onlyGivenNames v0; clear_value (e0 : v0 = _); (first | (with_reducible apply Hw.Within.let1 e0) | clear e0)
    | with_reducible apply Hw.Within.refl
    | with_reducible assumption
    | with_reducible apply Hw.Within.step (Hw.setSes_within ..); decide
    | with_reducible apply Hw.Within.step (Hw.zeroRegs_within ..); decide
    | with_reducible apply Hw.Within.step (Hw.addReg_within ..); decide
    | with_reducible apply Hw.Within.step (Hw.setRedState_within ..); decide
    | with_reducible apply Hw.Within.step (Hw.sessionNotice_within ..); decide
    | with_reducible apply Hw.Within.ite
    | with_reducible apply Hw.Within.fold

theorem execContribution_within (stack : StackIx) (s : State) :
    ∃ k, execContribution stack s = .next { s with hw := k } ∧ s.hw.Within 11349191753980351284104129759702747662347668397469813539136830145946389459809018970189110503071411402913583085088930884 k := by
  refine ⟨_, rfl, ?_⟩
  generalize s.hw = h
  beta_reduce
  repeat' first
    | with_reducible apply Hw.Within.refl
    | with_reducible apply Hw.Within.step (Hw.takeContribution_within ..); decide

theorem execSessionPrepared_within (session : Fin 256) (s : State) :
    ∃ k, execSessionPrepared session s = .next { s with hw := k } ∧ s.hw.Within 11349191753980351284104129759702747655811436544200117423173731844508705082372219241739251184552262340258698177532656708 k := by
  refine ⟨_, rfl, ?_⟩
  generalize s.hw = h
  beta_reduce
  repeat' first
    | intro _
    | extract_lets +onlyGivenNames v0; clear_value (e0 : v0 = _); (first | (with_reducible apply Hw.Within.let1 e0) | clear e0)
    | with_reducible apply Hw.Within.refl
    | with_reducible assumption
    | with_reducible apply Hw.Within.step (Hw.readMap_within ..); decide
    | with_reducible apply Hw.Within.step (Hw.writeMap_within ..); decide
    | with_reducible apply Hw.Within.step (Hw.setSes_within ..); decide
    | with_reducible apply Hw.Within.step (Hw.checkComplete_within ..); decide
    | with_reducible apply Hw.Within.step (Hw.resendAll_within ..); decide
    | with_reducible apply Hw.Within.step (Hw.armSession_within ..); decide
    | with_reducible apply Hw.Within.step (Hw.setRedState_within ..); decide
    | with_reducible apply Hw.Within.ite

end Sys2Proof.Machine
end

