-- ==== Sys2Proof/Laws/FrameSched.lean ====
section
/-! SUPPORT. What each operation and command of Machine/Sched.lean changes, and that it keeps canonical tables. -/

namespace Sys2Proof.Machine

theorem execTrainingAttemptDone_within (g : PcIx) (failedLanes : List (Fin 38)) (taps : List (BitVec 6)) (cl : BitVec 32) (s : State) :
    ∃ k, execTrainingAttemptDone g failedLanes taps cl s = .next { s with hw := k } ∧ s.hw.Within 11349009281615840158349678851674681091194329407019410511457448626831980656511012994236737751207465297775423554921151556 k := by
  refine ⟨_, rfl, ?_⟩
  generalize s.hw = h
  beta_reduce
  repeat' first
    | intro _
    | extract_lets +onlyGivenNames v0; clear_value (e0 : v0 = _); (first | (with_reducible apply Hw.Within.let1 e0) | clear e0)
    | with_reducible apply Hw.Within.refl
    | with_reducible assumption
    | with_reducible apply Hw.Within.step (Hw.setReg_within ..); decide
    | with_reducible apply Hw.Within.step (Hw.setElem_within ..); decide
    | with_reducible apply Hw.Within.step (Hw.setPc_within ..); decide
    | with_reducible apply Hw.Within.step (Hw.setTimer_within ..); decide
    | with_reducible apply Hw.Within.step (Hw.startEpoch_within ..); decide
    | with_reducible apply Hw.Within.step (Hw.joinEpoch_within ..); decide
    | with_reducible apply Hw.Within.step (Hw.raise_within ..); decide
    | with_reducible apply Hw.Within.step (Hw.failCount_within ..); decide
    | with_reducible apply Hw.Within.ite
    | with_reducible apply Hw.Within.fold

theorem Hw.setRa_within (h : Hw) (g : Nat) (b : Nat) (i : Nat) (e : RaEntry) :
    Hw.Within 8192 h (Hw.setRa h g b i e) := by
  unfold Hw.setRa
  repeat' first
    | extract_lets +onlyGivenNames v0; clear_value (e0 : v0 = _); clear e0
    | rw [Hw.mk_sl]
    | with_reducible apply Hw.Within.refl
    | with_reducible apply Hw.Within.step (Hw.putSl_within ..); decide

theorem Hw.startPause_within (h : Hw) (g : Nat) (till : Nat) (forced : Bool) :
    Hw.Within 1404466041180078838860280411581496544265323292789323168970322210844241938133544092879386619593989064225522649669636 h (Hw.startPause h g till forced) := by
  unfold Hw.startPause
  repeat' first
    | intro _
    | extract_lets +onlyGivenNames v0; clear_value (e0 : v0 = _); (first | (with_reducible apply Hw.Within.let1 e0) | clear e0)
    | with_reducible apply Hw.Within.refl
    | with_reducible assumption
    | with_reducible apply Hw.Within.step (Hw.setPc_within ..); decide
    | with_reducible apply Hw.Within.step (Hw.setReg_within ..); decide
    | with_reducible apply Hw.Within.step (Hw.countFix_within ..); decide

theorem execPauseIdleGap_within (g : PcIx) (s : State) :
    ∃ k, execPauseIdleGap g s = .next { s with hw := k } ∧ s.hw.Within 1404466041180078838860280411581496544265323292789323168970322210844241938133544092879386619593989064225522649669636 k := by
  refine ⟨_, rfl, ?_⟩
  generalize s.hw = h
  beta_reduce
  repeat' first
    | extract_lets +onlyGivenNames v0; clear_value (e0 : v0 = _); clear e0
    | with_reducible apply Hw.Within.refl
    | with_reducible apply Hw.Within.step (Hw.startPause_within ..); decide
    | with_reducible apply Hw.Within.ite

theorem Hw.setBank_within (h : Hw) (g : Nat) (b : Nat) (x : Bank) :
    Hw.Within 8192 h (Hw.setBank h g b x) := by
  unfold Hw.setBank
  repeat' first
    | extract_lets +onlyGivenNames v0; clear_value (e0 : v0 = _); clear e0
    | rw [Hw.mk_sl]
    | with_reducible apply Hw.Within.refl
    | with_reducible apply Hw.Within.step (Hw.putSl_within ..); decide

theorem Hw.closeRow_within (h : Hw) (g : Nat) (b : Nat) :
    Hw.Within 8192 h (Hw.closeRow h g b) := by
  unfold Hw.closeRow
  repeat' first
    | extract_lets +onlyGivenNames v0; clear_value (e0 : v0 = _); clear e0
    | with_reducible apply Hw.Within.refl
    | with_reducible apply Hw.Within.step (Hw.setBank_within ..); decide
    | split

theorem Hw.retireEntry_within (h : Hw) (g : Nat) (x : QEntry) :
    Hw.Within 11349182434963382837533881494243739595514612493578492732761445672842561311693747774452119629835928758954304218499906628 h (Hw.retireEntry h g x) := by
  unfold Hw.retireEntry
  repeat' first
    | intro _
    | extract_lets +onlyGivenNames v0; clear_value (e0 : v0 = _); (first | (with_reducible apply Hw.Within.let1 e0) | clear e0)
    | with_reducible apply Hw.Within.refl
    | with_reducible assumption
    | with_reducible apply Hw.Within.step (Hw.setQueue_within ..); decide
    | with_reducible apply Hw.Within.step (Hw.nextEvict_within ..); decide
    | with_reducible apply Hw.Within.step (Hw.setStage_within ..); decide
    | with_reducible apply Hw.Within.step (Hw.setBank_within ..); decide
    | with_reducible apply Hw.Within.step (Hw.closeRow_within ..); decide
    | with_reducible apply Hw.Within.step (Hw.setPc_within ..); decide
    | with_reducible apply Hw.Within.step (Hw.creditDue_within ..); decide
    | with_reducible apply Hw.Within.ite

theorem execThermalLevelChange_within (stack : StackIx) (s : State) :
    ∃ k, execThermalLevelChange stack s = .next { s with hw := k } ∧ s.hw.Within 1231497054230075238513504804468673433675253349274148435467539902724457041465782291436154259942941252678526959620100 k := by
  refine ⟨_, rfl, ?_⟩
  generalize s.hw = h
  beta_reduce
  repeat' first
    | extract_lets +onlyGivenNames v0; clear_value (e0 : v0 = _); clear e0
    | with_reducible apply Hw.Within.refl
    | with_reducible apply Hw.Within.step (Hw.setLevel_within ..); decide
    | with_reducible apply Hw.Within.ite

theorem execRateSwitchDone_within (stack : StackIx) (s : State) :
    ∃ k, execRateSwitchDone stack s = .next { s with hw := k } ∧ s.hw.Within 1404650401772826601990065212920682046531834789861426396064477944686020174240039217322842951529713155032372624764996 k := by
  refine ⟨_, rfl, ?_⟩
  generalize s.hw = h
  beta_reduce
  repeat' first
    | intro _
    | extract_lets +onlyGivenNames v0; clear_value (e0 : v0 = _); (first | (with_reducible apply Hw.Within.let1 e0) | clear e0)
    | rw [Hw.mk_sl]
    | with_reducible apply Hw.Within.refl
    | with_reducible assumption
    | with_reducible apply Hw.Within.step (Hw.setReg_within ..); decide
    | with_reducible apply Hw.Within.step (Hw.setLevel_within ..); decide
    | with_reducible apply Hw.Within.step (Hw.startEpoch_within ..); decide
    | with_reducible apply Hw.Within.step (Hw.askCal_within ..); decide
    | with_reducible apply Hw.Within.step (Hw.countFix_within ..); decide
    | with_reducible apply Hw.Within.step (Hw.noteWant_within ..); decide
    | with_reducible apply Hw.Within.step (Hw.putSl_within ..); decide
    | with_reducible apply Hw.Within.fold
    | split

theorem Hw.coldExit_within (h : Hw) (st : Nat) :
    Hw.Within 533996758980227520598755426542388028650676130589163192486845472547285166061025981157598463787012 h (Hw.coldExit h st) := by
  unfold Hw.coldExit
  repeat' first
    | intro _
    | extract_lets +onlyGivenNames v0; clear_value (e0 : v0 = _); (first | (with_reducible apply Hw.Within.let1 e0) | clear e0)
    | with_reducible apply Hw.Within.refl
    | with_reducible assumption
    | with_reducible apply Hw.Within.step (Hw.setReg_within ..); decide
    | with_reducible apply Hw.Within.ite
    | with_reducible apply Hw.Within.fold

theorem execColdHoldExit_within (stack : StackIx) (s : State) :
    ∃ k, execColdHoldExit stack s = .next { s with hw := k } ∧ s.hw.Within 533996758980227520598755426542388028650676130589163192486845472547285166061025981157598463787012 k := by
  refine ⟨_, rfl, ?_⟩
  generalize s.hw = h
  beta_reduce
  repeat' first
    | with_reducible apply Hw.Within.refl
    | with_reducible apply Hw.Within.step (Hw.coldExit_within ..); decide

theorem execRefreshDue_within (g : PcIx) (s : State) :
    ∃ k, execRefreshDue g s = .next { s with hw := k } ∧ s.hw.Within 1404466041180078838860280411581496544265323292789323168970322210844241938133544092879386619593989064225522649669636 k := by
  refine ⟨_, rfl, ?_⟩
  generalize s.hw = h
  beta_reduce
  repeat' first
    | intro _
    | extract_lets +onlyGivenNames v0; clear_value (e0 : v0 = _); (first | (with_reducible apply Hw.Within.let1 e0) | clear e0)
    | with_reducible apply Hw.Within.refl
    | with_reducible assumption
    | with_reducible apply Hw.Within.step (Hw.closeRow_within ..); decide
    | with_reducible apply Hw.Within.step (Hw.setPc_within ..); decide
    | with_reducible apply Hw.Within.step (Hw.countFix_within ..); decide
    | with_reducible apply Hw.Within.step (Hw.startPause_within ..); decide
    | with_reducible apply Hw.Within.ite
    | with_reducible apply Hw.Within.fold
    | split

theorem Hw.divert_within (h : Hw) (x : QEntry) :
    Hw.Within 11349182434963382837533881494243739595514612493578492732761445672842561311693747774452119629835928758954304218499906628 h (Hw.divert h x) := by
  unfold Hw.divert
  repeat' first
    | extract_lets +onlyGivenNames v0; clear_value (e0 : v0 = _); clear e0
    | rw [Hw.mk_par]
    | with_reducible apply Hw.Within.refl
    | with_reducible apply Hw.Within.step (Hw.deliver_within ..); decide
    | with_reducible apply Hw.Within.step (Hw.finishRmw_within ..); decide
    | with_reducible apply Hw.Within.step (Hw.nextEvict_within ..); decide
    | with_reducible apply Hw.Within.step (Hw.putPar_within ..); decide
    | with_reducible apply Hw.Within.ite
    | split

theorem Hw.noteAct_within (h : Hw) (g : Nat) (b : Nat) (t : Nat) :
    Hw.Within 8192 h (Hw.noteAct h g b t) := by
  unfold Hw.noteAct
  repeat' first
    | extract_lets +onlyGivenNames v0; clear_value (e0 : v0 = _); clear e0
    | with_reducible apply Hw.Within.refl
    | with_reducible apply Hw.Within.step (Hw.setPc_within ..); decide

theorem Hw.releaseColumn_within (h : Hw) (g : Nat) (x : QEntry) :
    Hw.Within 11349182434963382837533881494243739595514612493578492732761445672842561311693747774452119629835928758954304218499906628 h (Hw.releaseColumn h g x) := by
  unfold Hw.releaseColumn
  repeat' first
    | intro _
    | extract_lets +onlyGivenNames v0; clear_value (e0 : v0 = _); (first | (with_reducible apply Hw.Within.let1 e0) | clear e0)
    | with_reducible apply Hw.Within.refl
    | with_reducible assumption
    | with_reducible apply Hw.Within.step (Hw.countFix_within ..); decide
    | with_reducible apply Hw.Within.step (Hw.setBank_within ..); decide
    | with_reducible apply Hw.Within.step (Hw.setPc_within ..); decide
    | with_reducible apply Hw.Within.step (Hw.putRaw_within ..); decide
    | with_reducible apply Hw.Within.step (Hw.setQueue_within ..); decide
    | with_reducible apply Hw.Within.step (Hw.retireEntry_within ..); decide
    | with_reducible apply Hw.Within.ite

theorem execColumnPick_within (g : PcIx) (s : State) :
    ∃ k, execColumnPick g s = .next { s with hw := k } ∧ s.hw.Within 11349182434963382837533881494243739595514612493578492732761445672842561311693748114734486550774392222328911650268118084 k := by
  refine ⟨_, rfl, ?_⟩
  generalize s.hw = h
  beta_reduce
  repeat' first
    | intro _
    | extract_lets +onlyGivenNames v0; clear_value (e0 : v0 = _); (first | (with_reducible apply Hw.Within.let1 e0) | clear e0)
    | with_reducible apply Hw.Within.refl
    | with_reducible assumption
    | with_reducible apply Hw.Within.step (Hw.countFix_within ..); decide
    | with_reducible apply Hw.Within.step (Hw.setReg_within ..); decide
    | with_reducible apply Hw.Within.step (Hw.setPc_within ..); decide
    | with_reducible apply Hw.Within.step (Hw.point_within ..); decide
    | with_reducible apply Hw.Within.step (Hw.releaseColumn_within ..); decide
    | with_reducible apply Hw.Within.ite
    | split

theorem execRefreshSlotEnd_within (g : PcIx) (s : State) :
    ∃ k, execRefreshSlotEnd g s = .next { s with hw := k } ∧ s.hw.Within 8192 k := by
  refine ⟨_, rfl, ?_⟩
  generalize s.hw = h
  beta_reduce
  repeat' first
    | extract_lets +onlyGivenNames v0; clear_value (e0 : v0 = _); clear e0
    | with_reducible apply Hw.Within.refl
    | with_reducible apply Hw.Within.step (Hw.setPc_within ..); decide
    | with_reducible apply Hw.Within.ite
    | split

theorem Hw.landCol_within (h : Hw) (kind : Nat) (s : Nat) (c : Coord) (raw : List Byte) (req : Option Nat) (source : Nat) :
    Hw.Within 11349182434963382837533881494243739595514612493578492732761445672842561311693747774452119629835928758954304218499890244 h (Hw.landCol h kind s c raw req source).2.2 := by
  unfold Hw.landCol
  repeat' first
    | intro _
    | extract_lets +onlyGivenNames v0; clear_value (e0 : v0 = _); with_reducible apply Hw.Within.let1 e0
    | with_reducible apply Hw.Within.refl
    | with_reducible assumption
    | with_reducible apply Hw.Within.step (Hw.noteDecode_within ..); decide
    | with_reducible apply Hw.Within.step (Hw.degradedCol_within ..); decide
    | (split <;> (rename_i e0; with_reducible apply Hw.Within.snd; case e => with_reducible apply e0))
    | split

theorem execColumnData_within (g : PcIx) (flips : List (Fin 36 × Byte)) (s : State) :
    ∃ k, execColumnData g flips s = .next { s with hw := k } ∧ s.hw.Within 11349182434963382837533881494243739595514612493578492732761445672842561311693747774452119629835928758954304218499906628 k := by
  refine ⟨_, rfl, ?_⟩
  generalize s.hw = h
  beta_reduce
  repeat' first
    | intro _
    | extract_lets +onlyGivenNames v0; clear_value (e0 : v0 = _); (first | (with_reducible apply Hw.Within.let1 e0) | (with_reducible apply Hw.Within.letMem e0; subst e0) | clear e0)
    | rw [Hw.mk_mem]
    | with_reducible apply Hw.Within.refl
    | with_reducible assumption
    | with_reducible apply Hw.Within.step (Hw.setPc_within ..); decide
    | with_reducible apply Hw.Within.step (Hw.landCol_within ..); decide
    | with_reducible apply Hw.Within.step (Hw.logCol_within ..); decide
    | with_reducible apply Hw.Within.step (Hw.deliver_within ..); decide
    | (with_reducible apply Hw.Within.stepMem); (· exact ⟨rfl, rfl, rfl⟩); (· decide)
    | with_reducible apply Hw.Within.ite
    | split

theorem Hw.zeroPc_within (h : Hw) (g : Nat) :
    Hw.Within 4194304 h (Hw.zeroPc h g) := by
  refine Hw.Within.onlyDram rfl (fun ht => ?_) (Table.wf_drop h.mem.spare _ (fun k => decide (k / 1024 = g)))
  refine Hw.dram_drop_wf h (h.zeroPc g) (fun x => decide (x = g)) (fun x hx => ?_) ht
  have e : (h.zeroPc g).mem.fills = h.mem.fills.drop (fun k => decide (k = g)) := rfl
  rw [e, Table.look_drop, if_neg (by simpa using hx)]

theorem execZeroFillDone_within (g : PcIx) (s : State) :
    ∃ k, execZeroFillDone g s = .next { s with hw := k } ∧ s.hw.Within 85070591730234615865843651857946247172 k := by
  refine ⟨_, rfl, ?_⟩
  generalize s.hw = h
  beta_reduce
  repeat' first
    | extract_lets +onlyGivenNames v0; clear_value (e0 : v0 = _); clear e0
    | with_reducible apply Hw.Within.refl
    | with_reducible apply Hw.Within.step (Hw.setReg_within ..); decide
    | with_reducible apply Hw.Within.step (Hw.zeroPc_within ..); decide
    | with_reducible apply Hw.Within.ite

theorem Hw.issueRfm_within (h : Hw) (g : Nat) (b : Nat) (t : Nat) :
    Hw.Within 1404466041180076651609555628569572171763096175167957815800891317631805512362937682926387420218065840712345626615812 h (Hw.issueRfm h g b t) := by
  unfold Hw.issueRfm
  repeat' first
    | intro _
    | extract_lets +onlyGivenNames v0; clear_value (e0 : v0 = _); (first | (with_reducible apply Hw.Within.let1 e0) | clear e0)
    | with_reducible apply Hw.Within.refl
    | with_reducible assumption
    | with_reducible apply Hw.Within.step (Hw.countFix_within ..); decide
    | with_reducible apply Hw.Within.step (Hw.noteAct_within ..); decide
    | with_reducible apply Hw.Within.step (Hw.setBank_within ..); decide
    | with_reducible apply Hw.Within.step (Hw.setRa_within ..); decide
    | with_reducible apply Hw.Within.ite
    | with_reducible apply Hw.Within.fold

theorem execRfmIssue_within (g : PcIx) (s : State) :
    ∃ k, execRfmIssue g s = .next { s with hw := k } ∧ s.hw.Within 1404466041180076651609555628569572171763096175167957815800891317631805512362937682926387420218065840712345626615812 k := by
  refine ⟨_, rfl, ?_⟩
  generalize s.hw = h
  beta_reduce
  repeat' first
    | intro _
    | extract_lets +onlyGivenNames v0; clear_value (e0 : v0 = _); (first | (with_reducible apply Hw.Within.let1 e0) | clear e0)
    | with_reducible apply Hw.Within.refl
    | with_reducible assumption
    | with_reducible apply Hw.Within.step (Hw.setPc_within ..); decide
    | with_reducible apply Hw.Within.step (Hw.issueRfm_within ..); decide
    | with_reducible apply Hw.Within.fold
    | split

theorem execRefreshWindowEnd_within (stack : StackIx) (s : State) :
    ∃ k, execRefreshWindowEnd stack s = .next { s with hw := k } ∧ s.hw.Within 46768052394588893382517914646921056628989841383492 k := by
  refine ⟨_, rfl, ?_⟩
  generalize s.hw = h
  beta_reduce
  repeat' first
    | intro _
    | extract_lets +onlyGivenNames v0; clear_value (e0 : v0 = _); (first | (with_reducible apply Hw.Within.let1 e0) | clear e0)
    | rw [Hw.mk_sl]
    | with_reducible apply Hw.Within.refl
    | with_reducible assumption
    | with_reducible apply Hw.Within.step (Hw.setReg_within ..); decide
    | with_reducible apply Hw.Within.step (Hw.setTimer_within ..); decide
    | with_reducible apply Hw.Within.step (Hw.putSl_within ..); decide
    | with_reducible apply Hw.Within.ite

theorem Hw.setThrottles_within (h : Hw) (g : Nat) (l : List Throttle) :
    Hw.Within 680564733841876926926749214863536431108 h (Hw.setThrottles h g l) := by
  unfold Hw.setThrottles
  repeat' first
    | extract_lets +onlyGivenNames v0; clear_value (e0 : v0 = _); clear e0
    | with_reducible apply Hw.Within.refl
    | with_reducible apply Hw.Within.step (Hw.setReg_within ..); decide
    | with_reducible apply Hw.Within.step (Hw.setPc_within ..); decide

theorem Hw.throttle_within (h : Hw) (g : Nat) (r : Nat) (b : Nat) :
    Hw.Within 1404650401772824397517944952796420134719745166248047118910741839973070790772089744423041197516365794270397172035588 h (Hw.throttle h g r b) := by
  unfold Hw.throttle
  repeat' first
    | intro _
    | extract_lets +onlyGivenNames v0; clear_value (e0 : v0 = _); (first | (with_reducible apply Hw.Within.let1 e0) | clear e0)
    | with_reducible apply Hw.Within.refl
    | with_reducible assumption
    | with_reducible apply Hw.Within.step (Hw.countFix_within ..); decide
    | with_reducible apply Hw.Within.step (Hw.setThrottles_within ..); decide
    | with_reducible apply Hw.Within.step (Hw.raise_within ..); decide
    | with_reducible apply Hw.Within.ite

theorem Hw.queueRfm_within (h : Hw) (g : Nat) (b : Nat) :
    Hw.Within 8192 h (Hw.queueRfm h g b) := by
  unfold Hw.queueRfm
  repeat' first
    | extract_lets +onlyGivenNames v0; clear_value (e0 : v0 = _); clear e0
    | with_reducible apply Hw.Within.refl
    | with_reducible apply Hw.Within.step (Hw.setPc_within ..); decide
    | with_reducible apply Hw.Within.ite

theorem Hw.track_within (h : Hw) (g : Nat) (b : Nat) (r : Nat) (attr : Option Nat) :
    Hw.Within 1404650401772824397517944952796420134719745166248047118910741839973070790772089744423041197516365794270397172035588 h (Hw.track h g b r attr) := by
  unfold Hw.track
  repeat' first
    | intro _
    | extract_lets +onlyGivenNames v0; clear_value (e0 : v0 = _); (first | (with_reducible apply Hw.Within.let1 e0) | clear e0)
    | with_reducible apply Hw.Within.refl
    | with_reducible assumption
    | with_reducible apply Hw.Within.step (Hw.countFix_within ..); decide
    | with_reducible apply Hw.Within.step (Hw.setRa_within ..); decide
    | with_reducible apply Hw.Within.step (Hw.queueRfm_within ..); decide
    | with_reducible apply Hw.Within.step (Hw.throttle_within ..); decide
    | with_reducible apply Hw.Within.ite
    | split

theorem execRateSwitch_within (stack : StackIx) (s : State) :
    ∃ k, execRateSwitch stack s = .next { s with hw := k } ∧ s.hw.Within 8192 k := by
  refine ⟨_, rfl, ?_⟩
  generalize s.hw = h
  beta_reduce
  repeat' first
    | extract_lets +onlyGivenNames v0; clear_value (e0 : v0 = _); clear e0
    | with_reducible apply Hw.Within.refl
    | with_reducible apply Hw.Within.step (Hw.startRateSwitch_within ..); decide
    | with_reducible apply Hw.Within.ite

theorem Hw.closeConflicts_within (h : Hw) (g : Nat) :
    Hw.Within 1404466041180076651609555628569572171763096175167957815800891317631805512362937682926387420218065840712345626615812 h (Hw.closeConflicts h g) := by
  unfold Hw.closeConflicts
  repeat' first
    | intro _
    | extract_lets +onlyGivenNames v0; clear_value (e0 : v0 = _); clear e0
    | with_reducible apply Hw.Within.refl
    | with_reducible assumption
    | with_reducible apply Hw.Within.step (Hw.closeRow_within ..); decide
    | with_reducible apply Hw.Within.step (Hw.countFix_within ..); decide
    | with_reducible apply Hw.Within.ite
    | with_reducible apply Hw.Within.fold
    | split

theorem Hw.enqueue_within (h : Hw) (g : Nat) (x : QEntry) :
    Hw.Within 1404466041180076651609555628569572171763096175167957815800891317631805512363107824109847889449797528016061510721540 h (Hw.enqueue h g x) := by
  unfold Hw.enqueue
  repeat' first
    | intro _
    | extract_lets +onlyGivenNames v0; clear_value (e0 : v0 = _); (first | (with_reducible apply Hw.Within.let1 e0) | clear e0)
    | with_reducible apply Hw.Within.refl
    | with_reducible assumption
    | with_reducible apply Hw.Within.step (Hw.countFix_within ..); decide
    | with_reducible apply Hw.Within.step (Hw.setQueue_within ..); decide
    | with_reducible apply Hw.Within.ite

theorem execQueueEntryAdmit_within (g : PcIx) (s : State) :
    ∃ k, execQueueEntryAdmit g s = .next { s with hw := k } ∧ s.hw.Within 11349182434963382837533881494243739595514612493578492732761445672842561311693747774452119629835928758954304218499906628 k := by
  refine ⟨_, rfl, ?_⟩
  generalize s.hw = h
  beta_reduce
  repeat' first
    | intro _
    | extract_lets +onlyGivenNames v0; clear_value (e0 : v0 = _); (first | (with_reducible apply Hw.Within.let1 e0) | clear e0)
    | with_reducible apply Hw.Within.refl
    | with_reducible assumption
    | with_reducible apply Hw.Within.step (Hw.divert_within ..); decide
    | with_reducible apply Hw.Within.step (Hw.setStage_within ..); decide
    | with_reducible apply Hw.Within.step (Hw.setQueue_within ..); decide
    | with_reducible apply Hw.Within.step (Hw.enqueue_within ..); decide
    | with_reducible apply Hw.Within.step (Hw.point_within ..); decide
    | with_reducible apply Hw.Within.ite
    | with_reducible apply Hw.Within.fold
    | split

theorem execRefreshMultiplierChange_within (stack : StackIx) (s : State) :
    ∃ k, execRefreshMultiplierChange stack s = .next { s with hw := k } ∧ s.hw.Within 35076039295941670036888435985190792471742381039684 k := by
  refine ⟨_, rfl, ?_⟩
  generalize s.hw = h
  beta_reduce
  repeat' first
    | intro _
    | extract_lets +onlyGivenNames v0; clear_value (e0 : v0 = _); (first | (with_reducible apply Hw.Within.let1 e0) | clear e0)
    | with_reducible apply Hw.Within.refl
    | with_reducible assumption
    | with_reducible apply Hw.Within.step (Hw.setReg_within ..); decide
    | with_reducible apply Hw.Within.step (Hw.setTimer_within ..); decide
    | with_reducible apply Hw.Within.step (Hw.setPc_within ..); decide
    | with_reducible apply Hw.Within.ite
    | with_reducible apply Hw.Within.fold
    | split

theorem execActivatePick_within (g : PcIx) (s : State) :
    ∃ k, execActivatePick g s = .next { s with hw := k } ∧ s.hw.Within 1404650401772824397517944952796420134719745166248047118910741839973070790772089744423041197516365794270397172035588 k := by
  refine ⟨_, rfl, ?_⟩
  generalize s.hw = h
  beta_reduce
  repeat' first
    | intro _
    | extract_lets +onlyGivenNames v0; clear_value (e0 : v0 = _); (first | (with_reducible apply Hw.Within.let1 e0) | clear e0)
    | with_reducible apply Hw.Within.refl
    | with_reducible assumption
    | with_reducible apply Hw.Within.step (Hw.countFix_within ..); decide
    | with_reducible apply Hw.Within.step (Hw.closeConflicts_within ..); decide
    | with_reducible apply Hw.Within.step (Hw.setBank_within ..); decide
    | with_reducible apply Hw.Within.step (Hw.setPc_within ..); decide
    | with_reducible apply Hw.Within.step (Hw.noteAct_within ..); decide
    | with_reducible apply Hw.Within.step (Hw.point_within ..); decide
    | with_reducible apply Hw.Within.step (Hw.track_within ..); decide
    | with_reducible apply Hw.Within.ite
    | split

theorem execThrottleExpiry_within (g : PcIx) (s : State) :
    ∃ k, execThrottleExpiry g s = .next { s with hw := k } ∧ s.hw.Within 680564733841876926926749214863536431108 k := by
  refine ⟨_, rfl, ?_⟩
  generalize s.hw = h
  beta_reduce
  repeat' first
    | extract_lets +onlyGivenNames v0; clear_value (e0 : v0 = _); clear e0
    | with_reducible apply Hw.Within.refl
    | with_reducible apply Hw.Within.step (Hw.setThrottles_within ..); decide
    | with_reducible apply Hw.Within.ite

theorem execPauseEnd_within (g : PcIx) (s : State) :
    ∃ k, execPauseEnd g s = .next { s with hw := k } ∧ s.hw.Within 8192 k := by
  refine ⟨_, rfl, ?_⟩
  generalize s.hw = h
  beta_reduce
  repeat' first
    | extract_lets +onlyGivenNames v0; clear_value (e0 : v0 = _); clear e0
    | with_reducible apply Hw.Within.refl
    | with_reducible apply Hw.Within.step (Hw.setPc_within ..); decide
    | with_reducible apply Hw.Within.ite
    | split

theorem execPauseForced_within (g : PcIx) (s : State) :
    ∃ k, execPauseForced g s = .next { s with hw := k } ∧ s.hw.Within 1404466041180078838860280411581496544265323292789323168970322210844241938133544092879386619593989064225522649669636 k := by
  refine ⟨_, rfl, ?_⟩
  generalize s.hw = h
  beta_reduce
  repeat' first
    | extract_lets +onlyGivenNames v0; clear_value (e0 : v0 = _); clear e0
    | with_reducible apply Hw.Within.refl
    | with_reducible apply Hw.Within.step (Hw.startPause_within ..); decide
    | with_reducible apply Hw.Within.ite
    | split

end Sys2Proof.Machine
end

