-- ==== Sys2Proof/Laws/FrameParity.lean ====
section
/-! SUPPORT. What each operation and command of Machine/Parity.lean changes, and that it keeps canonical tables. -/

namespace Sys2Proof.Machine

theorem Hw.emptyBuffer_within (h : Hw) (s : Nat) :
    Hw.Within 16384 h (Hw.emptyBuffer h s) := by
  unfold Hw.emptyBuffer
  repeat' first
    | extract_lets +onlyGivenNames v0; clear_value (e0 : v0 = _); (first | (with_reducible apply Hw.Within.letMem e0; subst e0) | clear e0)
    | rw [Hw.mk_mem]
    | with_reducible apply Hw.Within.refl
    | (with_reducible apply Hw.Within.stepMem); (· exact ⟨rfl, rfl, rfl⟩); (· decide)

theorem Hw.addIntent_within (h : Hw) (k : Nat) (n : Int) :
    Hw.Within 262144 h (Hw.addIntent h k n) := by
  unfold Hw.addIntent
  repeat' first
    | extract_lets +onlyGivenNames v0; clear_value (e0 : v0 = _); clear e0
    | rw [Hw.mk_par]
    | with_reducible apply Hw.Within.refl
    | with_reducible apply Hw.Within.step (Hw.putPar_within ..); decide

theorem execWriteIntent_within (stack : StackIx) (s : State) :
    ∃ k, execWriteIntent stack s = .next { s with hw := k } ∧ s.hw.Within 262144 k := by
  refine ⟨_, rfl, ?_⟩
  generalize s.hw = h
  beta_reduce
  repeat' first
    | extract_lets +onlyGivenNames v0; clear_value (e0 : v0 = _); clear e0
    | rw [Hw.mk_par]
    | with_reducible apply Hw.Within.refl
    | with_reducible apply Hw.Within.step (Hw.addIntent_within ..); decide
    | with_reducible apply Hw.Within.step (Hw.putPar_within ..); decide
    | split

theorem Hw.dropRmwReads_within (h : Hw) (s : Nat) :
    Hw.Within 170141183460469231731687303715884113924 h (Hw.dropRmwReads h s) := by
  unfold Hw.dropRmwReads
  repeat' first
    | intro _
    | extract_lets +onlyGivenNames v0; clear_value (e0 : v0 = _); (first | (with_reducible apply Hw.Within.let1 e0) | clear e0)
    | with_reducible apply Hw.Within.refl
    | with_reducible assumption
    | with_reducible apply Hw.Within.step (Hw.setStage_within ..); decide
    | with_reducible apply Hw.Within.step (Hw.setQueue_within ..); decide
    | with_reducible apply Hw.Within.fold

theorem Hw.drainFailed_within (h : Hw) (s : Nat) :
    Hw.Within 11349182434963382837533881494243739595514612493578492732761445672842561311693747774452119629835928758954304218499906628 h (Hw.drainFailed h s) := by
  unfold Hw.drainFailed
  repeat' first
    | intro _
    | extract_lets +onlyGivenNames v0; clear_value (e0 : v0 = _); clear e0
    | with_reducible apply Hw.Within.refl
    | with_reducible assumption
    | with_reducible apply Hw.Within.step (Hw.storeLost_within ..); decide
    | with_reducible apply Hw.Within.step (Hw.dropRmwReads_within ..); decide
    | with_reducible apply Hw.Within.step (Hw.emptyBuffer_within ..); decide
    | with_reducible apply Hw.Within.fold

theorem Hw.dropDirectory_within (h : Hw) (s : Nat) :
    Hw.Within 4083388403051271232967052206214616219652 h (Hw.dropDirectory h s) := by
  unfold Hw.dropDirectory
  repeat' first
    | intro _
    | extract_lets +onlyGivenNames v0; clear_value (e0 : v0 = _); (first | (with_reducible apply Hw.Within.let1 e0) | clear e0)
    | rw [Hw.mk_coh]
    | with_reducible apply Hw.Within.refl
    | with_reducible assumption
    | with_reducible apply Hw.Within.step (Hw.freeWay_within ..); decide
    | with_reducible apply Hw.Within.step (Hw.putCoh_within ..); decide
    | with_reducible apply Hw.Within.fold

theorem Hw.reissue_within (h : Hw) (s : Nat) (t : Nat) :
    Hw.Within 11349182434963382837533881494243739595514612493578492732761445672842561311693747774452119629835928758954304218499906628 h (Hw.reissue h s t) := by
  unfold Hw.reissue
  repeat' first
    | intro _
    | extract_lets +onlyGivenNames v0; clear_value (e0 : v0 = _); (first | (with_reducible apply Hw.Within.let1 e0) | clear e0)
    | with_reducible apply Hw.Within.refl
    | with_reducible assumption
    | with_reducible apply Hw.Within.step (Hw.setInbox_within ..); decide
    | with_reducible apply Hw.Within.step (Hw.setDirWaiting_within ..); decide
    | with_reducible apply Hw.Within.step (Hw.setDirIn_within ..); decide
    | with_reducible apply Hw.Within.step (Hw.complete_within ..); decide
    | with_reducible apply Hw.Within.step (Hw.setQueue_within ..); decide
    | with_reducible apply Hw.Within.step (Hw.setStage_within ..); decide
    | with_reducible apply Hw.Within.step (Hw.divert_within ..); decide
    | with_reducible apply Hw.Within.fold

theorem execDegradeComplete_within (stack : StackIx) (s : State) :
    ∃ k, execDegradeComplete stack s = .next { s with hw := k } ∧ s.hw.Within 11349183637417185217736494173657805167039770654354736762578554827169848925201635959135713635059541930931266800652909636 k := by
  refine ⟨_, rfl, ?_⟩
  generalize s.hw = h
  beta_reduce
  repeat' first
    | intro _
    | extract_lets +onlyGivenNames v0; clear_value (e0 : v0 = _); (first | (with_reducible apply Hw.Within.let1 e0) | clear e0)
    | rw [Hw.mk_par]
    | with_reducible apply Hw.Within.refl
    | with_reducible assumption
    | with_reducible apply Hw.Within.step (Hw.dropDirectory_within ..); decide
    | with_reducible apply Hw.Within.step (Hw.sessionsToProxy_within ..); decide
    | with_reducible apply Hw.Within.step (Hw.reissue_within ..); decide
    | with_reducible apply Hw.Within.step (Hw.setReg_within ..); decide
    | with_reducible apply Hw.Within.step (Hw.raise_within ..); decide
    | with_reducible apply Hw.Within.step (Hw.putPar_within ..); decide
    | with_reducible apply Hw.Within.ite
    | split

theorem Hw.settleOne_within (h : Hw) (n : Settle) :
    Hw.Within 262144 h (Hw.settleOne h n) := by
  unfold Hw.settleOne
  repeat' first
    | with_reducible apply Hw.Within.refl
    | with_reducible apply Hw.Within.step (Hw.addIntent_within ..); decide

theorem Hw.landParity_within (h : Hw) (p : Nat) (s : Nat) :
    Hw.Within 11349182434963382837533881494243739595514612493578492732761445672842561311693747774452119629835928758954304218499890244 h (Hw.landParity h p s) := by
  unfold Hw.landParity
  repeat' first
    | intro _
    | extract_lets +onlyGivenNames v0; clear_value (e0 : v0 = _); (first | (with_reducible apply Hw.Within.let1 e0) | clear e0)
    | rw [Hw.mk_par]
    | with_reducible apply Hw.Within.refl
    | with_reducible assumption
    | with_reducible apply Hw.Within.step (Hw.addIntent_within ..); decide
    | with_reducible apply Hw.Within.step (Hw.settleDeltas_within ..); decide
    | with_reducible apply Hw.Within.step (Hw.putPar_within ..); decide
    | with_reducible apply Hw.Within.fold

theorem Hw.collectIntents_within (h : Hw) (s : Nat) :
    Hw.Within 278528 h (Hw.collectIntents h s) := by
  unfold Hw.collectIntents
  repeat' first
    | intro _
    | extract_lets +onlyGivenNames v0; clear_value (e0 : v0 = _); (first | (with_reducible apply Hw.Within.let1 e0) | (with_reducible apply Hw.Within.letMem e0; subst e0) | clear e0)
    | rw [Hw.mk_par]
    | rw [Hw.mk_mem]
    | with_reducible apply Hw.Within.refl
    | with_reducible assumption
    | with_reducible apply Hw.Within.step (Hw.settleOne_within ..); decide
    | (with_reducible apply Hw.Within.stepMem); (· exact ⟨rfl, rfl, rfl⟩); (· decide)
    | with_reducible apply Hw.Within.step (Hw.putPar_within ..); decide
    | with_reducible apply Hw.Within.fold

theorem execDegradeDrainEnd_within (stack : StackIx) (s : State) :
    ∃ k, execDegradeDrainEnd stack s = .next { s with hw := k } ∧ s.hw.Within 11349182434963382837533881494243739595514612493578492732761445672842561311693747774452119629835928758954304218499906628 k := by
  refine ⟨_, rfl, ?_⟩
  generalize s.hw = h
  beta_reduce
  repeat' first
    | intro _
    | extract_lets +onlyGivenNames v0; clear_value (e0 : v0 = _); (first | (with_reducible apply Hw.Within.let1 e0) | clear e0)
    | rw [Hw.mk_par]
    | with_reducible apply Hw.Within.refl
    | with_reducible assumption
    | with_reducible apply Hw.Within.step (Hw.landParity_within ..); decide
    | with_reducible apply Hw.Within.step (Hw.drainFailed_within ..); decide
    | with_reducible apply Hw.Within.step (Hw.dropRmwReads_within ..); decide
    | with_reducible apply Hw.Within.step (Hw.emptyBuffer_within ..); decide
    | with_reducible apply Hw.Within.step (Hw.collectIntents_within ..); decide
    | with_reducible apply Hw.Within.step (Hw.putPar_within ..); decide
    | with_reducible apply Hw.Within.ite
    | split

theorem execDegradedRead_within (stack : StackIx) (s : State) :
    ∃ k, execDegradedRead stack s = .next { s with hw := k } ∧ s.hw.Within 11349182434963382837533881494243739595514612493578492732761445672842561311693747774452119629835928758954304218499906628 k := by
  refine ⟨_, rfl, ?_⟩
  generalize s.hw = h
  beta_reduce
  repeat' first
    | intro _
    | extract_lets +onlyGivenNames v0; clear_value (e0 : v0 = _); (first | (with_reducible apply Hw.Within.let1 e0) | clear e0)
    | rw [Hw.mk_par]
    | with_reducible apply Hw.Within.refl
    | with_reducible assumption
    | with_reducible apply Hw.Within.step (Hw.readBytes_within ..); decide
    | with_reducible apply Hw.Within.step (Hw.deliver_within ..); decide
    | with_reducible apply Hw.Within.step (Hw.putPar_within ..); decide
    | with_reducible apply Hw.Within.fold
    | split

theorem execSettleNotice_within (stack : StackIx) (s : State) :
    ∃ k, execSettleNotice stack s = .next { s with hw := k } ∧ s.hw.Within 262144 k := by
  refine ⟨_, rfl, ?_⟩
  generalize s.hw = h
  beta_reduce
  repeat' first
    | extract_lets +onlyGivenNames v0; clear_value (e0 : v0 = _); clear e0
    | rw [Hw.mk_par]
    | with_reducible apply Hw.Within.refl
    | with_reducible apply Hw.Within.step (Hw.settleOne_within ..); decide
    | with_reducible apply Hw.Within.step (Hw.putPar_within ..); decide
    | split

theorem execParityDelta_within (stack : StackIx) (s : State) :
    ∃ k, execParityDelta stack s = .next { s with hw := k } ∧ s.hw.Within 11349182434963382837533881494243739595514612493578492732761445672842561311693747774452119629835928758954304218499890244 k := by
  refine ⟨_, rfl, ?_⟩
  generalize s.hw = h
  beta_reduce
  repeat' first
    | with_reducible apply Hw.Within.refl
    | with_reducible apply Hw.Within.step (Hw.settleDeltas_within ..); decide
    | split

end Sys2Proof.Machine
end

