-- ==== Sys2Proof/Laws/FrameProg.lean ====
section
/-! SUPPORT. What each operation and command of Machine/Prog.lean changes, and that it keeps canonical tables. -/

namespace Sys2Proof.Machine

theorem Hw.dropSteps_within (h : Hw) (n : Nat) :
    Hw.Within 65536 h (Hw.dropSteps h n) := by
  unfold Hw.dropSteps
  repeat' first
    | extract_lets +onlyGivenNames v0; clear_value (e0 : v0 = _); with_reducible apply Hw.Within.letCar e0; subst e0
    | rw [Hw.mk_car]
    | with_reducible apply Hw.Within.refl
    | (with_reducible apply Hw.Within.stepCar); (· rfl); (· decide)

theorem Hw.progEmpty_within (h : Hw) (n : Nat) :
    Hw.Within 3412913568487933792886486773895989086237073386738256151527868228668817412 h (Hw.progEmpty h n) := by
  unfold Hw.progEmpty
  repeat' first
    | intro _
    | extract_lets +onlyGivenNames v0; clear_value (e0 : v0 = _); (first | (with_reducible apply Hw.Within.let1 e0) | (with_reducible apply Hw.Within.letCar e0; subst e0))
    | rw [Hw.mk_car]
    | with_reducible apply Hw.Within.refl
    | with_reducible assumption
    | with_reducible apply Hw.Within.step (Hw.dropSteps_within ..); decide
    | with_reducible apply Hw.Within.step (Hw.zeroRegs_within ..); decide
    | with_reducible apply Hw.Within.step (Hw.setReg_within ..); decide
    | (with_reducible apply Hw.Within.stepCar); (· rfl); (· decide)

theorem Hw.progBegin_within (h : Hw) (a : Actor) (n : Nat) :
    Hw.Within 10006218277586770784916686791511671013027609947215066624127531110716786028240831902422049062283673164057965279051591516164 h (Hw.progBegin h a n) := by
  unfold Hw.progBegin
  repeat' first
    | extract_lets +onlyGivenNames v0; clear_value (e0 : v0 = _); clear e0
    | with_reducible apply Hw.Within.refl
    | with_reducible apply Hw.Within.step (Hw.ignore_within ..); decide
    | with_reducible apply Hw.Within.step (Hw.setReg_within ..); decide
    | with_reducible apply Hw.Within.step (Hw.dropSteps_within ..); decide
    | with_reducible apply Hw.Within.ite

theorem Hw.putCopy_within (h : Hw) (s : Nat) (n : Nat) (c : ProgCopy) :
    Hw.Within 65536 h (Hw.putCopy h s n c) := by
  unfold Hw.putCopy
  repeat' first
    | extract_lets +onlyGivenNames v0; clear_value (e0 : v0 = _); with_reducible apply Hw.Within.letCar e0; subst e0
    | rw [Hw.mk_car]
    | with_reducible apply Hw.Within.refl
    | (with_reducible apply Hw.Within.stepCar); (· rfl); (· decide)

theorem Hw.progCommit_within (h : Hw) (a : Actor) (n : Nat) :
    Hw.Within 10006218277586770784916686791511671013027609947213907130741270296000496989255969362146037275976348539116697974981993234436 h (Hw.progCommit h a n) := by
  unfold Hw.progCommit
  repeat' first
    | intro _
    | extract_lets +onlyGivenNames v0; clear_value (e0 : v0 = _); (first | (with_reducible apply Hw.Within.let1 e0) | clear e0)
    | with_reducible apply Hw.Within.refl
    | with_reducible assumption
    | with_reducible apply Hw.Within.step (Hw.ignore_within ..); decide
    | with_reducible apply Hw.Within.step (Hw.setReg_within ..); decide
    | with_reducible apply Hw.Within.step (Hw.putCopy_within ..); decide
    | with_reducible apply Hw.Within.ite
    | with_reducible apply Hw.Within.fold

theorem Hw.progDelete_within (h : Hw) (a : Actor) (n : Nat) :
    Hw.Within 10006218277586770784916686791511671013027609947216654025787292940387896022089155618276112817347272352965652659623065354244 h (Hw.progDelete h a n) := by
  unfold Hw.progDelete
  repeat' first
    | with_reducible apply Hw.Within.refl
    | with_reducible apply Hw.Within.step (Hw.ignore_within ..); decide
    | with_reducible apply Hw.Within.step (Hw.progEmpty_within ..); decide
    | with_reducible apply Hw.Within.ite

theorem Hw.progStepWrite_within (h : Hw) (a : Actor) (n : Nat) (w : BitVec 128) :
    Hw.Within 10006218277586770784916686791511671013027609947213296326189579331105309013362157845393495352832311459906566091588186996740 h (Hw.progStepWrite h a n w) := by
  unfold Hw.progStepWrite
  repeat' first
    | intro _
    | extract_lets +onlyGivenNames v0; clear_value (e0 : v0 = _); (first | (with_reducible apply Hw.Within.let1 e0) | (with_reducible apply Hw.Within.letCar e0; subst e0) | clear e0)
    | rw [Hw.mk_car]
    | with_reducible apply Hw.Within.refl
    | with_reducible assumption
    | with_reducible apply Hw.Within.step (Hw.ignore_within ..); decide
    | with_reducible apply Hw.Within.step (Hw.setReg_within ..); decide
    | (with_reducible apply Hw.Within.stepCar); (· rfl); (· decide)
    | with_reducible apply Hw.Within.ite

theorem execProgramCopyRepair_within (stack : StackIx) (prog : Fin 128) (s : State) :
    ∃ k, execProgramCopyRepair stack prog s = .next { s with hw := k } ∧ s.hw.Within 65536 k := by
  refine ⟨_, rfl, ?_⟩
  generalize s.hw = h
  beta_reduce
  repeat' first
    | extract_lets +onlyGivenNames v0; clear_value (e0 : v0 = _); clear e0
    | with_reducible apply Hw.Within.refl
    | with_reducible apply Hw.Within.step (Hw.putCopy_within ..); decide
    | with_reducible apply Hw.Within.ite
    | split

end Sys2Proof.Machine
end

