-- ==== Sys2Proof/Laws/FramePart.lean ====
section
/-! SUPPORT. What each operation and command of Machine/Part.lean changes, and that it keeps canonical tables. -/

namespace Sys2Proof.Machine

theorem Hw.resetPartClass_within (h : Hw) (p : Nat) :
    Hw.Within 90378745733041800637957171020105415601539702749022826372986304207053920693300357863530682916722772643675365341869541228548 h (Hw.resetPartClass h p) := by
  unfold Hw.resetPartClass
  extract_lets h1
  have e1 : Hw.Within 90378745733041800637957171020105415601539702749022826372986304207053920693300357863530682916722772643675365341869541228548 h h1 := by
    refine Hw.resetRegs_only _ _ _ (by decide) (fun k hk => Reg.bits_of _ (fun r => decide (r.cls = .part) &&
      match recOf r.index with
      | some d => decide (d.tie = .part)
      | none => false) (by decide) (by decide) k ?_)
    rw [Bool.and_eq_true] at hk ⊢
    exact ⟨decide_eq_true (of_decide_eq_true hk.1).2, hk.2⟩
  clear_value h1
  rw [Hw.mk_car_msg]
  refine Hw.Within.step (Hw.putMsg_within ..) (by decide) ?_
  exact Hw.Within.stepCar rfl (by decide) e1

theorem Hw.freePart_within (h : Hw) (p : Nat) :
    Hw.Within 90378745733041800637957171020105861203159525917854197595480643758526650702011472287085509572446071033451499854347956715524 h (Hw.freePart h p) := by
  unfold Hw.freePart
  repeat' first
    | intro _
    | extract_lets +onlyGivenNames v0; clear_value (e0 : v0 = _); (first | (with_reducible apply Hw.Within.let1 e0) | clear e0)
    | rw [Hw.mk_sec]
    | with_reducible apply Hw.Within.refl
    | with_reducible assumption
    | with_reducible apply Hw.Within.step (Hw.zeroRegs_within ..); decide
    | with_reducible apply Hw.Within.step (Hw.resetPartClass_within ..); decide
    | with_reducible apply Hw.Within.step (Hw.setReg_within ..); decide
    | with_reducible apply Hw.Within.step (Hw.putSec_within ..); decide

theorem Hw.destroyWeight_within (h : Hw) (n : Nat) :
    Hw.Within 4611686018427453444 h (Hw.destroyWeight h n) := by
  unfold Hw.destroyWeight
  repeat' first
    | extract_lets +onlyGivenNames v0; clear_value (e0 : v0 = _); with_reducible apply Hw.Within.letCar e0; subst e0
    | rw [Hw.mk_car]
    | with_reducible apply Hw.Within.refl
    | with_reducible apply Hw.Within.step (Hw.setReg_within ..); decide
    | (with_reducible apply Hw.Within.stepCar); (· rfl); (· decide)

theorem Hw.idleCounters_within (h : Hw) (p : Nat) :
    Hw.Within 1539140867046659344229650003911859914260927315252556510466730211103348506699109789508369775581442017219008905871364 h (Hw.idleCounters h p) := by
  unfold Hw.idleCounters
  repeat' first
    | intro _
    | with_reducible apply Hw.Within.refl
    | with_reducible assumption
    | with_reducible apply Hw.Within.step (Hw.setReg_within ..); decide
    | with_reducible apply Hw.Within.fold

theorem Hw.beginCoarse_within (h : Hw) :
    Hw.Within 120 h (Hw.beginCoarse h) := by
  unfold Hw.beginCoarse
  repeat' first
    | intro _
    | extract_lets +onlyGivenNames v0; clear_value (e0 : v0 = _); with_reducible apply Hw.Within.let1 e0
    | rw [Hw.mk_odMs_odPace_odPower]
    | with_reducible apply Hw.Within.refl
    | with_reducible assumption
    | with_reducible apply Hw.Within.step (Hw.setTimer_within ..); decide
    | with_reducible apply Hw.Within.step (Hw.putOdMs_within ..); decide
    | with_reducible apply Hw.Within.step (Hw.putOdPace_within ..); decide
    | with_reducible apply Hw.Within.step (Hw.putOdPower_within ..); decide

theorem Hw.createPart_within (h : Hw) (a : Actor) (p : Nat) :
    Hw.Within 92638215925012090261759760681912838138346161859951411633427157967574251382218684515179961107448774907696518403616192696444 h (Hw.createPart h a p) := by
  unfold Hw.createPart
  repeat' first
    | intro _
    | extract_lets +onlyGivenNames v0; clear_value (e0 : v0 = _); (first | (with_reducible apply Hw.Within.let1 e0) | clear e0)
    | rw [Hw.mk_sec]
    | with_reducible apply Hw.Within.refl
    | with_reducible assumption
    | with_reducible apply Hw.Within.step (Hw.ignore_within ..); decide
    | with_reducible apply Hw.Within.step (Hw.idleCounters_within ..); decide
    | with_reducible apply Hw.Within.step (Hw.resetPartClass_within ..); decide
    | with_reducible apply Hw.Within.step (Hw.addReg_within ..); decide
    | with_reducible apply Hw.Within.step (Hw.setReg_within ..); decide
    | with_reducible apply Hw.Within.step (Hw.suspectSlice_within ..); decide
    | with_reducible apply Hw.Within.step (Hw.armWm_within ..); decide
    | with_reducible apply Hw.Within.step (Hw.beginCoarse_within ..); decide
    | with_reducible apply Hw.Within.step (Hw.putSec_within ..); decide
    | with_reducible apply Hw.Within.ite
    | with_reducible apply Hw.Within.fold

theorem Hw.growPart_within (h : Hw) (a : Actor) (p : Nat) :
    Hw.Within 10006218277586770784916686791511671013027609947213241112218805006595009535315259629189875743960534096814124791394397585412 h (Hw.growPart h a p) := by
  unfold Hw.growPart
  repeat' first
    | extract_lets +onlyGivenNames v0; clear_value (e0 : v0 = _); clear e0
    | rw [Hw.mk_sec]
    | with_reducible apply Hw.Within.refl
    | with_reducible apply Hw.Within.step (Hw.ignore_within ..); decide
    | with_reducible apply Hw.Within.step (Hw.putSec_within ..); decide
    | with_reducible apply Hw.Within.ite

theorem Hw.destroyKeys_within (h : Hw) (p : Nat) :
    Hw.Within 4683743612466429956 h (Hw.destroyKeys h p) := by
  unfold Hw.destroyKeys
  repeat' first
    | intro _
    | extract_lets +onlyGivenNames v0; clear_value (e0 : v0 = _); (first | (with_reducible apply Hw.Within.let1 e0) | clear e0)
    | rw [Hw.mk_sec]
    | with_reducible apply Hw.Within.refl
    | with_reducible assumption
    | with_reducible apply Hw.Within.step (Hw.setReg_within ..); decide
    | with_reducible apply Hw.Within.step (Hw.destroyWeight_within ..); decide
    | with_reducible apply Hw.Within.step (Hw.putSec_within ..); decide
    | with_reducible apply Hw.Within.ite
    | with_reducible apply Hw.Within.fold

theorem Hw.putMarker_within (h : Hw) (p : Nat) (destroyed : Bool) (hwm : Nat) :
    Hw.Within 604462909807314588401668 h (Hw.putMarker h p destroyed hwm) := by
  unfold Hw.putMarker
  repeat' first
    | extract_lets +onlyGivenNames v0; clear_value (e0 : v0 = _); clear e0
    | rw [Hw.mk_sec]
    | with_reducible apply Hw.Within.refl
    | with_reducible apply Hw.Within.step (Hw.setReg_within ..); decide
    | with_reducible apply Hw.Within.step (Hw.putSec_within ..); decide

theorem Hw.modPart_within (h : Hw) (p : Nat) (f : PartX → PartX) :
    Hw.Within 1048576 h (Hw.modPart h p f) := by
  unfold Hw.modPart
  repeat' first
    | extract_lets +onlyGivenNames v0; clear_value (e0 : v0 = _); clear e0
    | rw [Hw.mk_sec]
    | with_reducible apply Hw.Within.refl
    | with_reducible apply Hw.Within.step (Hw.putSec_within ..); decide

theorem Hw.beginScrub_within (h : Hw) (p : Nat) :
    Hw.Within 604467593550927053783044 h (Hw.beginScrub h p) := by
  unfold Hw.beginScrub
  repeat' first
    | intro _
    | extract_lets +onlyGivenNames v0; clear_value (e0 : v0 = _); with_reducible apply Hw.Within.let1 e0
    | with_reducible apply Hw.Within.refl
    | with_reducible assumption
    | with_reducible apply Hw.Within.step (Hw.destroyKeys_within ..); decide
    | with_reducible apply Hw.Within.step (Hw.putMarker_within ..); decide
    | with_reducible apply Hw.Within.step (Hw.modPart_within ..); decide

theorem Hw.dropParity_within (h : Hw) (p : Nat) :
    Hw.Within 262144 h (Hw.dropParity h p) := by
  unfold Hw.dropParity
  repeat' first
    | extract_lets +onlyGivenNames v0; clear_value (e0 : v0 = _); clear e0
    | rw [Hw.mk_par]
    | with_reducible apply Hw.Within.refl
    | with_reducible apply Hw.Within.step (Hw.putPar_within ..); decide

theorem Hw.releasePrograms_within (h : Hw) (p : Nat) :
    Hw.Within 11349009281615840088357655658172695697648608597287494088684221048485761440388562411054314967746610260894514726432258116 h (Hw.releasePrograms h p) := by
  unfold Hw.releasePrograms
  repeat' first
    | intro _
    | extract_lets +onlyGivenNames v0; clear_value (e0 : v0 = _); (first | (with_reducible apply Hw.Within.let1 e0) | (with_reducible apply Hw.Within.letCar e0; subst e0) | clear e0)
    | rw [Hw.mk_car]
    | with_reducible apply Hw.Within.refl
    | with_reducible assumption
    | with_reducible apply Hw.Within.step (Hw.faultEngine_within ..); decide
    | with_reducible apply Hw.Within.step (Hw.complete_within ..); decide
    | with_reducible apply Hw.Within.step (Hw.progEmpty_within ..); decide
    | (with_reducible apply Hw.Within.stepCar); (· rfl); (· decide)
    | with_reducible apply Hw.Within.ite
    | with_reducible apply Hw.Within.fold
    | split

theorem Hw.tdiError_within (h : Hw) (p : Nat) :
    Hw.Within 258254417031933722628 h (Hw.tdiError h p) := by
  unfold Hw.tdiError
  repeat' first
    | intro _
    | extract_lets +onlyGivenNames v0; clear_value (e0 : v0 = _); clear e0
    | with_reducible apply Hw.Within.refl
    | with_reducible assumption
    | with_reducible apply Hw.Within.step (Hw.setBit_within ..); decide
    | with_reducible apply Hw.Within.ite
    | with_reducible apply Hw.Within.fold

theorem Hw.releasePart_within (h : Hw) (a : Actor) (p : Nat) :
    Hw.Within 92649563693477634903326326797196670071298004148800012036411016833529196241301100004447996185433701693756006358456429688900 h (Hw.releasePart h a p) := by
  unfold Hw.releasePart
  repeat' first
    | intro _
    | extract_lets +onlyGivenNames v0; clear_value (e0 : v0 = _); (first | (with_reducible apply Hw.Within.let1 e0) | clear e0)
    | with_reducible apply Hw.Within.refl
    | with_reducible assumption
    | with_reducible apply Hw.Within.step (Hw.freePart_within ..); decide
    | with_reducible apply Hw.Within.step (Hw.idleCounters_within ..); decide
    | with_reducible apply Hw.Within.step (Hw.beginScrub_within ..); decide
    | with_reducible apply Hw.Within.step (Hw.dropParity_within ..); decide
    | with_reducible apply Hw.Within.step (Hw.setReg_within ..); decide
    | with_reducible apply Hw.Within.step (Hw.modPart_within ..); decide
    | with_reducible apply Hw.Within.step (Hw.releaseSessions_within ..); decide
    | with_reducible apply Hw.Within.step (Hw.releasePrograms_within ..); decide
    | with_reducible apply Hw.Within.step (Hw.tdiError_within ..); decide
    | with_reducible apply Hw.Within.step (Hw.putMarker_within ..); decide
    | with_reducible apply Hw.Within.step (Hw.ignore_within ..); decide
    | with_reducible apply Hw.Within.ite
    | split

theorem Hw.installKey_within (h : Hw) (a : Actor) (p : Nat) (key : BitVec 512) :
    Hw.Within 10006218277586770784916686791511674991613501225506378355276790181161730338964466007971615267672349242680468759614145955844 h (Hw.installKey h a p key) := by
  unfold Hw.installKey
  repeat' first
    | intro _
    | extract_lets +onlyGivenNames v0; clear_value (e0 : v0 = _); (first | (with_reducible apply Hw.Within.let1 e0) | clear e0)
    | rw [Hw.mk_sec]
    | with_reducible apply Hw.Within.refl
    | with_reducible assumption
    | with_reducible apply Hw.Within.step (Hw.ignore_within ..); decide
    | with_reducible apply Hw.Within.step (Hw.setReg_within ..); decide
    | with_reducible apply Hw.Within.step (Hw.sendMirror_within ..); decide
    | with_reducible apply Hw.Within.step (Hw.putSec_within ..); decide
    | with_reducible apply Hw.Within.ite

theorem Hw.putFill_within (h : Hw) (g : Nat) (f : Fill) :
    Hw.Within 4194304 h (Hw.putFill h g f) := by
  refine Hw.Within.onlyDram rfl (fun ht => ?_) id
  refine Hw.dram_drop_wf h (h.putFill g f) (fun x => decide (x = g)) (fun x hx => ?_) ht
  exact Table.look_put_ne _ _ _ _ (by simpa using hx)

theorem Hw.fillStack_within (h : Hw) (s : Nat) (f : Fill) :
    Hw.Within 170141183460469231731687303715888324612 h (Hw.fillStack h s f) := by
  unfold Hw.fillStack
  repeat' first
    | intro _
    | extract_lets +onlyGivenNames v0; clear_value (e0 : v0 = _); (first | (with_reducible apply Hw.Within.let1 e0) | (with_reducible apply Hw.Within.letMem e0; subst e0) | clear e0)
    | rw [Hw.mk_mem]
    | with_reducible apply Hw.Within.refl
    | with_reducible assumption
    | with_reducible apply Hw.Within.step (Hw.setStage_within ..); decide
    | with_reducible apply Hw.Within.step (Hw.emptyBuffer_within ..); decide
    | with_reducible apply Hw.Within.step (Hw.setQueue_within ..); decide
    | with_reducible apply Hw.Within.step (Hw.putFill_within ..); decide
    | with_reducible apply Hw.Within.step (Hw.putSpare_within ..); decide
    | (with_reducible apply Hw.Within.stepMem); (· exact ⟨rfl, rfl, rfl⟩); (· decide)
    | with_reducible apply Hw.Within.ite
    | with_reducible apply Hw.Within.fold

theorem Hw.resolveDirectory_within (h : Hw) (p : Nat) :
    Hw.Within 1231312693637327475383720003129487931408741852202045208373384168882678805374260255751217470699584702432440641163268 h (Hw.resolveDirectory h p) := by
  unfold Hw.resolveDirectory
  repeat' first
    | intro _
    | extract_lets +onlyGivenNames v0; clear_value (e0 : v0 = _); clear e0
    | with_reducible apply Hw.Within.refl
    | with_reducible assumption
    | with_reducible apply Hw.Within.step (Hw.freeWay_within ..); decide
    | with_reducible apply Hw.Within.step (Hw.snoopHolders_within ..); decide
    | with_reducible apply Hw.Within.ite
    | with_reducible apply Hw.Within.fold

theorem execPartitionDrainDone_within (part : PartIx) (s : State) :
    ∃ k, execPartitionDrainDone part s = .next { s with hw := k } ∧ s.hw.Within 1231312693637327475383720003129487931408741852202045208373384168882678805461372541682977717950676195485900357341188 k := by
  refine ⟨_, rfl, ?_⟩
  generalize s.hw = h
  beta_reduce
  repeat' first
    | intro _
    | extract_lets +onlyGivenNames v0; clear_value (e0 : v0 = _); (first | (with_reducible apply Hw.Within.let1 e0) | clear e0)
    | with_reducible apply Hw.Within.refl
    | with_reducible assumption
    | with_reducible apply Hw.Within.step (Hw.modPart_within ..); decide
    | with_reducible apply Hw.Within.step (Hw.resolveDirectory_within ..); decide
    | with_reducible apply Hw.Within.step (Hw.suspectSlice_within ..); decide
    | with_reducible apply Hw.Within.step (Hw.beginScrub_within ..); decide
    | with_reducible apply Hw.Within.step (Hw.dropParity_within ..); decide
    | with_reducible apply Hw.Within.ite
    | with_reducible apply Hw.Within.fold

theorem Hw.zeroStaging_within (h : Hw) (s : Nat) :
    Hw.Within 8388608 h (Hw.zeroStaging h s) := by
  exact Hw.Within.onlyStaging rfl (Table.wf_drop h.car.staging _ (fun k => decide (k / 2 ^ 23 / 4 = s)))

theorem execScrubVerify_within (part : PartIx) (failing : List StackIx) (s : State) :
    ∃ k, execScrubVerify part failing s = .next { s with hw := k } ∧ s.hw.Within 90378746964538854868032392312215188559495420283245040877615155241761341925955556054844837941953791869978317972743096700932 k := by
  refine ⟨_, rfl, ?_⟩
  generalize s.hw = h
  beta_reduce
  repeat' first
    | intro _
    | extract_lets +onlyGivenNames v0; clear_value (e0 : v0 = _); clear e0
    | with_reducible apply Hw.Within.refl
    | with_reducible assumption
    | with_reducible apply Hw.Within.step (Hw.freePart_within ..); decide
    | with_reducible apply Hw.Within.step (Hw.zeroStaging_within ..); decide
    | with_reducible apply Hw.Within.step (Hw.modPart_within ..); decide
    | with_reducible apply Hw.Within.step (Hw.raise_within ..); decide
    | with_reducible apply Hw.Within.ite
    | with_reducible apply Hw.Within.fold

theorem execGrowFillDone_within (part : PartIx) (s : State) :
    ∃ k, execGrowFillDone part s = .next { s with hw := k } ∧ s.hw.Within 87282427115220716334063952403169314660356 k := by
  refine ⟨_, rfl, ?_⟩
  generalize s.hw = h
  beta_reduce
  repeat' first
    | intro _
    | extract_lets +onlyGivenNames v0; clear_value (e0 : v0 = _); (first | (with_reducible apply Hw.Within.let1 e0) | clear e0)
    | rw [Hw.mk_sec]
    | with_reducible apply Hw.Within.refl
    | with_reducible assumption
    | with_reducible apply Hw.Within.step (Hw.suspectSlice_within ..); decide
    | with_reducible apply Hw.Within.step (Hw.setBit_within ..); decide
    | with_reducible apply Hw.Within.step (Hw.fillStack_within ..); decide
    | with_reducible apply Hw.Within.step (Hw.setReg_within ..); decide
    | with_reducible apply Hw.Within.step (Hw.putSec_within ..); decide
    | with_reducible apply Hw.Within.ite
    | with_reducible apply Hw.Within.fold
    | split

theorem execScrubResume_within (part : PartIx) (s : State) :
    ∃ k, execScrubResume part s = .next { s with hw := k } ∧ s.hw.Within 605057889361285759434756 k := by
  refine ⟨_, rfl, ?_⟩
  generalize s.hw = h
  beta_reduce
  repeat' first
    | intro _
    | extract_lets +onlyGivenNames v0; clear_value (e0 : v0 = _); (first | (with_reducible apply Hw.Within.let1 e0) | clear e0)
    | with_reducible apply Hw.Within.refl
    | with_reducible assumption
    | with_reducible apply Hw.Within.step (Hw.setReg_within ..); decide
    | with_reducible apply Hw.Within.step (Hw.modPart_within ..); decide
    | with_reducible apply Hw.Within.step (Hw.beginScrub_within ..); decide
    | with_reducible apply Hw.Within.ite

theorem execPartitionFillDone_within (part : PartIx) (s : State) :
    ∃ k, execPartitionFillDone part s = .next { s with hw := k } ∧ s.hw.Within 63657374260452690195888927762793067532858387302060677973562849511556737600718346662207492 k := by
  refine ⟨_, rfl, ?_⟩
  generalize s.hw = h
  beta_reduce
  repeat' first
    | intro _
    | extract_lets +onlyGivenNames v0; clear_value (e0 : v0 = _); (first | (with_reducible apply Hw.Within.let1 e0) | clear e0)
    | with_reducible apply Hw.Within.refl
    | with_reducible assumption
    | with_reducible apply Hw.Within.step (Hw.fillStack_within ..); decide
    | with_reducible apply Hw.Within.step (Hw.setReg_within ..); decide
    | with_reducible apply Hw.Within.ite
    | with_reducible apply Hw.Within.fold
    | split

theorem execScrubHwmStep_within (part : PartIx) (s : State) :
    ∃ k, execScrubHwmStep part s = .next { s with hw := k } ∧ s.hw.Within 170141183460469836194597111030476726276 k := by
  refine ⟨_, rfl, ?_⟩
  generalize s.hw = h
  beta_reduce
  repeat' first
    | intro _
    | extract_lets +onlyGivenNames v0; clear_value (e0 : v0 = _); (first | (with_reducible apply Hw.Within.let1 e0) | clear e0)
    | with_reducible apply Hw.Within.refl
    | with_reducible assumption
    | with_reducible apply Hw.Within.step (Hw.putMarker_within ..); decide
    | with_reducible apply Hw.Within.step (Hw.fillStack_within ..); decide
    | with_reducible apply Hw.Within.step (Hw.modPart_within ..); decide
    | with_reducible apply Hw.Within.ite
    | with_reducible apply Hw.Within.fold

end Sys2Proof.Machine
end

