-- ==== Sys2Proof/Laws/FrameLife.lean ====
section
/-! SUPPORT. What each operation and command of Machine/Life.lean changes, and that it keeps canonical tables. -/

namespace Sys2Proof.Machine

theorem Hw.journalWrite_within (h : Hw) (kind : Nat) (to_ : Nat) :
    Hw.Within 17592187092996 h (Hw.journalWrite h kind to_) := by
  unfold Hw.journalWrite
  repeat' first
    | extract_lets +onlyGivenNames v0; clear_value (e0 : v0 = _); clear e0
    | rw [Hw.mk_sec]
    | with_reducible apply Hw.Within.refl
    | with_reducible apply Hw.Within.step (Hw.satReg_within ..); decide
    | with_reducible apply Hw.Within.step (Hw.putSec_within ..); decide

theorem Hw.zeroizeKeys_within (h : Hw) :
    Hw.Within 4683743612466429956 h (Hw.zeroizeKeys h) := by
  unfold Hw.zeroizeKeys
  repeat' first
    | intro _
    | extract_lets +onlyGivenNames v0; clear_value (e0 : v0 = _); (first | (with_reducible apply Hw.Within.let1 e0) | (with_reducible apply Hw.Within.letCar e0; subst e0) | clear e0)
    | rw [Hw.mk_car_sec]
    | with_reducible apply Hw.Within.refl
    | with_reducible assumption
    | with_reducible apply Hw.Within.step (Hw.setReg_within ..); decide
    | (with_reducible apply Hw.Within.stepCar); (· rfl); (· decide)
    | with_reducible apply Hw.Within.step (Hw.putSec_within ..); decide
    | with_reducible apply Hw.Within.fold

theorem Hw.sideActions_within (h : Hw) (to_ : Nat) :
    Hw.Within 10328999512347634358623676688012047497318823171316894051322637426162590488067364778518581413120551325748303749852850880516 h (Hw.sideActions h to_) := by
  unfold Hw.sideActions
  repeat' first
    | intro _
    | extract_lets +onlyGivenNames v0; clear_value (e0 : v0 = _); (first | (with_reducible apply Hw.Within.let1 e0) | (with_reducible apply Hw.Within.letFn e0) | clear e0)
    | rw [Hw.mk_sec]
    | with_reducible apply Hw.Within.refl
    | with_reducible assumption
    | with_reducible apply Hw.Within.step (Hw.zeroizeKeys_within ..); decide
    | with_reducible apply Hw.Within.step (Hw.setReg_within ..); decide
    | with_reducible apply Hw.Within.step (Hw.setElem_within ..); decide
    | with_reducible apply Hw.Within.step (Hw.putSec_within ..); decide
    | with_reducible apply Hw.Within.fold
    | split
    | with_reducible apply_assumption -exfalso -symm

theorem Hw.transition_within (h : Hw) (to_ : Nat) :
    Hw.Within 10328999512347634358623676688012047497318823171316894051322637426162590488067364778518581413120551325748303767994792738820 h (Hw.transition h to_) := by
  unfold Hw.transition
  repeat' first
    | intro _
    | extract_lets +onlyGivenNames v0; clear_value (e0 : v0 = _); (first | (with_reducible apply Hw.Within.let1 e0) | clear e0)
    | rw [Hw.mk_sec]
    | with_reducible apply Hw.Within.refl
    | with_reducible assumption
    | with_reducible apply Hw.Within.step (Hw.journalWrite_within ..); decide
    | with_reducible apply Hw.Within.step (Hw.sideActions_within ..); decide
    | with_reducible apply Hw.Within.step (Hw.setReg_within ..); decide
    | with_reducible apply Hw.Within.step (Hw.putSec_within ..); decide

theorem Hw.lcTransition_within (h : Hw) (a : Actor) (to_ : Nat) :
    Hw.Within 20335217789934405143540363479523718510346433118530135163541442432757600023382624407708457157081085422562428559389189275652 h (Hw.lcTransition h a to_) := by
  unfold Hw.lcTransition
  repeat' first
    | extract_lets +onlyGivenNames v0; clear_value (e0 : v0 = _); clear e0
    | with_reducible apply Hw.Within.refl
    | with_reducible apply Hw.Within.step (Hw.ignore_within ..); decide
    | with_reducible apply Hw.Within.step (Hw.transition_within ..); decide
    | with_reducible apply Hw.Within.ite

theorem Hw.journalNote_within (h : Hw) (kind : Nat) :
    Hw.Within 17592187092996 h (Hw.journalNote h kind) := by
  unfold Hw.journalNote
  repeat' first
    | with_reducible apply Hw.Within.refl
    | with_reducible apply Hw.Within.step (Hw.journalWrite_within ..); decide

theorem Hw.tamperAck_within (h : Hw) :
    Hw.Within 19791210348548 h (Hw.tamperAck h) := by
  unfold Hw.tamperAck
  repeat' first
    | with_reducible apply Hw.Within.refl
    | with_reducible apply Hw.Within.step (Hw.journalNote_within ..); decide
    | with_reducible apply Hw.Within.step (Hw.setReg_within ..); decide

theorem Hw.writeWeightKey_within (h : Hw) (a : Actor) (n : Nat) (key : BitVec 256) :
    Hw.Within 10006218277586770784916686791511674991613501225506378355276790181161730338964466007971615267672349242090100891661401393156 h (Hw.writeWeightKey h a n key) := by
  unfold Hw.writeWeightKey
  repeat' first
    | intro _
    | extract_lets +onlyGivenNames v0; clear_value (e0 : v0 = _); (first | (with_reducible apply Hw.Within.let1 e0) | (with_reducible apply Hw.Within.letCar e0; subst e0) | clear e0)
    | rw [Hw.mk_car]
    | with_reducible apply Hw.Within.refl
    | with_reducible assumption
    | with_reducible apply Hw.Within.step (Hw.sendMirror_within ..); decide
    | with_reducible apply Hw.Within.step (Hw.ignore_within ..); decide
    | (with_reducible apply Hw.Within.stepCar); (· rfl); (· decide)
    | with_reducible apply Hw.Within.ite

theorem Hw.writeConsent_within (h : Hw) (p : Nat) (v : Nat) :
    Hw.Within 41315998049390537434494706752048189989275292685267576205290549704650361952269459114074325652482205302974468765962469376004 h (Hw.writeConsent h p v) := by
  unfold Hw.writeConsent
  repeat' first
    | intro _
    | extract_lets +onlyGivenNames v0; clear_value (e0 : v0 = _); with_reducible apply Hw.Within.let1 e0
    | with_reducible apply Hw.Within.refl
    | with_reducible assumption
    | with_reducible apply Hw.Within.step (Hw.setReg_within ..); decide
    | with_reducible apply Hw.Within.ite

theorem Hw.setTdi_within (h : Hw) (r : Nat) (p : Nat) (v : Nat) :
    Hw.Within 258254417031933722628 h (Hw.setTdi h r p v) := by
  unfold Hw.setTdi
  repeat' first
    | with_reducible apply Hw.Within.refl
    | with_reducible apply Hw.Within.step (Hw.setBit_within ..); decide

theorem Hw.tdiEpoch_within (h : Hw) (r : Nat) :
    Hw.Within 258254417031933722628 h (Hw.tdiEpoch h r) := by
  unfold Hw.tdiEpoch
  repeat' first
    | intro _
    | with_reducible apply Hw.Within.refl
    | with_reducible assumption
    | with_reducible apply Hw.Within.step (Hw.setTdi_within ..); decide
    | with_reducible apply Hw.Within.ite
    | with_reducible apply Hw.Within.fold

theorem Hw.touch_within (h : Hw) (s : Option Nat) :
    Hw.Within 1048576 h (Hw.touch h s) := by
  unfold Hw.touch
  repeat' first
    | extract_lets +onlyGivenNames v0; clear_value (e0 : v0 = _); clear e0
    | rw [Hw.mk_sec]
    | with_reducible apply Hw.Within.refl
    | with_reducible apply Hw.Within.step (Hw.putSec_within ..); decide
    | split

theorem Hw.spdm_within (h : Hw) (s : Option Nat) (code : Nat) (body : List Byte) (status : Nat) :
    Hw.Within 3145728 h (Hw.spdm h s code body status) := by
  unfold Hw.spdm
  repeat' first
    | with_reducible apply Hw.Within.refl
    | with_reducible apply Hw.Within.step (Hw.sendMs_within ..); decide
    | with_reducible apply Hw.Within.step (Hw.touch_within ..); decide

theorem Hw.vendor_within (h : Hw) (s : Nat) (proto : Nat) (code : Nat) (body : List Byte) :
    Hw.Within 3145728 h (Hw.vendor h s proto code body) := by
  unfold Hw.vendor
  repeat' first
    | with_reducible apply Hw.Within.refl
    | with_reducible apply Hw.Within.step (Hw.spdm_within ..); decide

theorem execKSetGo_within (s : SpdmIx) (stream : BitVec 8) (keySet : BitVec 2) (st : State) :
    ∃ k, execKSetGo s stream keySet st = .next { st with hw := k } ∧ st.hw.Within 3145728 k := by
  refine ⟨_, rfl, ?_⟩
  generalize st.hw = h
  beta_reduce
  repeat' first
    | extract_lets +onlyGivenNames v0; clear_value (e0 : v0 = _); clear e0
    | rw [Hw.mk_sec]
    | with_reducible apply Hw.Within.refl
    | with_reducible apply Hw.Within.step (Hw.vendor_within ..); decide
    | with_reducible apply Hw.Within.step (Hw.putSec_within ..); decide
    | with_reducible apply Hw.Within.ite

theorem execStopInterfaceRequest_within (s : SpdmIx) (requester : BitVec 12) (part : PartIx) (st : State) :
    ∃ k, execStopInterfaceRequest s requester part st = .next { st with hw := k } ∧ st.hw.Within 258254417031936868356 k := by
  refine ⟨_, rfl, ?_⟩
  generalize st.hw = h
  beta_reduce
  repeat' first
    | with_reducible apply Hw.Within.refl
    | with_reducible apply Hw.Within.step (Hw.vendor_within ..); decide
    | with_reducible apply Hw.Within.step (Hw.setTdi_within ..); decide
    | with_reducible apply Hw.Within.ite

theorem execQuery_within (s : SpdmIx) (st : State) :
    ∃ k, execQuery s st = .next { st with hw := k } ∧ st.hw.Within 3145728 k := by
  refine ⟨_, rfl, ?_⟩
  generalize st.hw = h
  beta_reduce
  repeat' first
    | with_reducible apply Hw.Within.refl
    | with_reducible apply Hw.Within.step (Hw.vendor_within ..); decide
    | with_reducible apply Hw.Within.ite

theorem Hw.spdmError_within (h : Hw) (s : Option Nat) (e : Nat) :
    Hw.Within 3145728 h (Hw.spdmError h s e) := by
  unfold Hw.spdmError
  repeat' first
    | with_reducible apply Hw.Within.refl
    | with_reducible apply Hw.Within.step (Hw.spdm_within ..); decide

theorem execKeyExchange_within (peerKey : List Byte) (heartbeatMs : BitVec 16) (st : State) :
    ∃ k, execKeyExchange peerKey heartbeatMs st = .next { st with hw := k } ∧ st.hw.Within 3145730 k := by
  refine ⟨_, rfl, ?_⟩
  generalize st.hw = h
  beta_reduce
  repeat' first
    | intro _
    | extract_lets +onlyGivenNames v0; clear_value (e0 : v0 = _); (first | (with_reducible apply Hw.Within.let1 e0) | clear e0)
    | rw [Hw.mk_sec]
    | with_reducible apply Hw.Within.refl
    | with_reducible assumption
    | with_reducible apply Hw.Within.step (Hw.spdmError_within ..); decide
    | with_reducible apply Hw.Within.step (Hw.random_within ..); decide
    | with_reducible apply Hw.Within.step (Hw.spdm_within ..); decide
    | with_reducible apply Hw.Within.step (Hw.putSec_within ..); decide
    | with_reducible apply Hw.Within.ite
    | split

theorem execGetDeviceInterfaceState_within (s : SpdmIx) (requester : BitVec 12) (part : PartIx) (st : State) :
    ∃ k, execGetDeviceInterfaceState s requester part st = .next { st with hw := k } ∧ st.hw.Within 3145728 k := by
  refine ⟨_, rfl, ?_⟩
  generalize st.hw = h
  beta_reduce
  repeat' first
    | with_reducible apply Hw.Within.refl
    | with_reducible apply Hw.Within.step (Hw.vendor_within ..); decide
    | with_reducible apply Hw.Within.ite

theorem Hw.zeroizeCistern_within (h : Hw) :
    Hw.Within 604462909807314588401670 h (Hw.zeroizeCistern h) := by
  unfold Hw.zeroizeCistern
  repeat' first
    | intro _
    | extract_lets +onlyGivenNames v0; clear_value (e0 : v0 = _); (first | (with_reducible apply Hw.Within.let1 e0) | clear e0)
    | rw [Hw.mk_sec]
    | with_reducible apply Hw.Within.refl
    | with_reducible assumption
    | with_reducible apply Hw.Within.step (Hw.setReg_within ..); decide
    | with_reducible apply Hw.Within.step (Hw.modPart_within ..); decide
    | with_reducible apply Hw.Within.step (Hw.random_within ..); decide
    | with_reducible apply Hw.Within.step (Hw.putSec_within ..); decide
    | with_reducible apply Hw.Within.ite
    | with_reducible apply Hw.Within.fold
    | (split <;> (rename_i e0; with_reducible apply Hw.Within.snd; case e => with_reducible apply e0))
    | split

theorem Hw.alarm_within (h : Hw) (kind : Nat) :
    Hw.Within 92649563693477634903326326797196670071298004148800012036411016833529196241301100004447996185433701693756006387043732011078 h (Hw.alarm h kind) := by
  unfold Hw.alarm
  repeat' first
    | intro _
    | extract_lets +onlyGivenNames v0; clear_value (e0 : v0 = _); with_reducible apply Hw.Within.let1 e0
    | with_reducible apply Hw.Within.refl
    | with_reducible assumption
    | with_reducible apply Hw.Within.step (Hw.zeroizeCistern_within ..); decide
    | with_reducible apply Hw.Within.step (Hw.journalNote_within ..); decide
    | with_reducible apply Hw.Within.step (Hw.satReg_within ..); decide
    | with_reducible apply Hw.Within.step (Hw.setReg_within ..); decide
    | with_reducible apply Hw.Within.step (Hw.raise_within ..); decide
    | with_reducible apply Hw.Within.step (Hw.zeroizeKeys_within ..); decide
    | with_reducible apply Hw.Within.step (Hw.releasePart_within ..); decide
    | with_reducible apply Hw.Within.ite
    | with_reducible apply Hw.Within.fold

theorem execTamperAlarm_within (cause : TamperCause) (s : State) :
    ∃ k, execTamperAlarm cause s = .next { s with hw := k } ∧ s.hw.Within 92649563693477634903326326797196670071298004148800012036411016833529196241301100004447996185433701693756006387043732011078 k := by
  refine ⟨_, rfl, ?_⟩
  generalize s.hw = h
  beta_reduce
  repeat' first
    | with_reducible apply Hw.Within.refl
    | with_reducible apply Hw.Within.step (Hw.alarm_within ..); decide

theorem execChallenge_within (s : Option SpdmIx) (slot : BitVec 4) (nonce : BitVec 256) (st : State) :
    ∃ k, execChallenge s slot nonce st = .next { st with hw := k } ∧ st.hw.Within 3145730 k := by
  refine ⟨_, rfl, ?_⟩
  generalize st.hw = h
  beta_reduce
  repeat' first
    | with_reducible apply Hw.Within.refl
    | with_reducible apply Hw.Within.step (Hw.spdmError_within ..); decide
    | with_reducible apply Hw.Within.step (Hw.random_within ..); decide
    | with_reducible apply Hw.Within.step (Hw.spdm_within ..); decide
    | with_reducible apply Hw.Within.ite

theorem Hw.tdispError_within (h : Hw) (s : Nat) :
    Hw.Within 3145728 h (Hw.tdispError h s) := by
  unfold Hw.tdispError
  repeat' first
    | with_reducible apply Hw.Within.refl
    | with_reducible apply Hw.Within.step (Hw.vendor_within ..); decide

theorem Hw.endSession_within (h : Hw) (n : Nat) :
    Hw.Within 3145728 h (Hw.endSession h n) := by
  unfold Hw.endSession
  repeat' first
    | extract_lets +onlyGivenNames v0; clear_value (e0 : v0 = _); clear e0
    | rw [Hw.mk_sec_msg]
    | with_reducible apply Hw.Within.refl
    | with_reducible apply Hw.Within.step (Hw.putMsg_within ..); decide
    | with_reducible apply Hw.Within.step (Hw.putSec_within ..); decide

theorem execSpdmSessionTimeout_within (s : SpdmIx) (st : State) :
    ∃ k, execSpdmSessionTimeout s st = .next { st with hw := k } ∧ st.hw.Within 3145728 k := by
  refine ⟨_, rfl, ?_⟩
  generalize st.hw = h
  beta_reduce
  repeat' first
    | with_reducible apply Hw.Within.refl
    | with_reducible apply Hw.Within.step (Hw.endSession_within ..); decide
    | with_reducible apply Hw.Within.ite
    | split

theorem Hw.endHandoff_within (h : Hw) (x : KeyHandoff) (status : Nat) :
    Hw.Within 3145728 h (Hw.endHandoff h x status) := by
  unfold Hw.endHandoff
  repeat' first
    | intro _
    | extract_lets +onlyGivenNames v0; clear_value (e0 : v0 = _); (first | (with_reducible apply Hw.Within.let1 e0) | clear e0)
    | rw [Hw.mk_sec]
    | with_reducible apply Hw.Within.refl
    | with_reducible assumption
    | with_reducible apply Hw.Within.step (Hw.vendor_within ..); decide
    | with_reducible apply Hw.Within.step (Hw.putSec_within ..); decide
    | with_reducible apply Hw.Within.ite

theorem execKhAck_within (status : BitVec 2) (st : State) :
    ∃ k, execKhAck status st = .next { st with hw := k } ∧ st.hw.Within 3145728 k := by
  refine ⟨_, rfl, ?_⟩
  generalize st.hw = h
  beta_reduce
  repeat' first
    | with_reducible apply Hw.Within.refl
    | with_reducible apply Hw.Within.step (Hw.endHandoff_within ..); decide
    | split

theorem execGetTdispCapabilities_within (s : SpdmIx) (st : State) :
    ∃ k, execGetTdispCapabilities s st = .next { st with hw := k } ∧ st.hw.Within 3145728 k := by
  refine ⟨_, rfl, ?_⟩
  generalize st.hw = h
  beta_reduce
  repeat' first
    | with_reducible apply Hw.Within.refl
    | with_reducible apply Hw.Within.step (Hw.vendor_within ..); decide
    | with_reducible apply Hw.Within.ite

theorem execGetDigests_within (s : Option SpdmIx) (st : State) :
    ∃ k, execGetDigests s st = .next { st with hw := k } ∧ st.hw.Within 3145728 k := by
  refine ⟨_, rfl, ?_⟩
  generalize st.hw = h
  beta_reduce
  repeat' first
    | with_reducible apply Hw.Within.refl
    | with_reducible apply Hw.Within.step (Hw.spdm_within ..); decide
    | with_reducible apply Hw.Within.step (Hw.spdmError_within ..); decide
    | with_reducible apply Hw.Within.ite

theorem execGetCapabilities_within (s : Option SpdmIx) (st : State) :
    ∃ k, execGetCapabilities s st = .next { st with hw := k } ∧ st.hw.Within 3145728 k := by
  refine ⟨_, rfl, ?_⟩
  generalize st.hw = h
  beta_reduce
  repeat' first
    | with_reducible apply Hw.Within.refl
    | with_reducible apply Hw.Within.step (Hw.spdm_within ..); decide
    | with_reducible apply Hw.Within.ite

theorem execGetMeasurements_within (s : Option SpdmIx) (index : BitVec 8) (st : State) :
    ∃ k, execGetMeasurements s index st = .next { st with hw := k } ∧ st.hw.Within 3145728 k := by
  refine ⟨_, rfl, ?_⟩
  generalize st.hw = h
  beta_reduce
  repeat' first
    | with_reducible apply Hw.Within.refl
    | with_reducible apply Hw.Within.step (Hw.spdm_within ..); decide
    | with_reducible apply Hw.Within.step (Hw.spdmError_within ..); decide
    | with_reducible apply Hw.Within.ite
    | split

theorem execStartInterfaceRequest_within (s : SpdmIx) (requester : BitVec 12) (part : PartIx) (st : State) :
    ∃ k, execStartInterfaceRequest s requester part st = .next { st with hw := k } ∧ st.hw.Within 258254417031936868356 k := by
  refine ⟨_, rfl, ?_⟩
  generalize st.hw = h
  beta_reduce
  repeat' first
    | with_reducible apply Hw.Within.refl
    | with_reducible apply Hw.Within.step (Hw.vendor_within ..); decide
    | with_reducible apply Hw.Within.step (Hw.setTdi_within ..); decide
    | with_reducible apply Hw.Within.step (Hw.tdispError_within ..); decide
    | with_reducible apply Hw.Within.ite

theorem execNegotiateAlgorithms_within (s : Option SpdmIx) (baseAsym : BitVec 32) (baseHash : BitVec 32) (st : State) :
    ∃ k, execNegotiateAlgorithms s baseAsym baseHash st = .next { st with hw := k } ∧ st.hw.Within 3145728 k := by
  refine ⟨_, rfl, ?_⟩
  generalize st.hw = h
  beta_reduce
  repeat' first
    | with_reducible apply Hw.Within.refl
    | with_reducible apply Hw.Within.step (Hw.spdm_within ..); decide
    | with_reducible apply Hw.Within.step (Hw.spdmError_within ..); decide
    | with_reducible apply Hw.Within.ite

theorem execSpdmUnsupportedRequest_within (s : Option SpdmIx) (code : BitVec 8) (st : State) :
    ∃ k, execSpdmUnsupportedRequest s code st = .next { st with hw := k } ∧ st.hw.Within 3145728 k := by
  refine ⟨_, rfl, ?_⟩
  generalize st.hw = h
  beta_reduce
  repeat' first
    | with_reducible apply Hw.Within.refl
    | with_reducible apply Hw.Within.step (Hw.spdm_within ..); decide
    | with_reducible apply Hw.Within.ite

theorem execKSetStop_within (s : SpdmIx) (stream : BitVec 8) (keySet : BitVec 2) (st : State) :
    ∃ k, execKSetStop s stream keySet st = .next { st with hw := k } ∧ st.hw.Within 3145728 k := by
  refine ⟨_, rfl, ?_⟩
  generalize st.hw = h
  beta_reduce
  repeat' first
    | extract_lets +onlyGivenNames v0; clear_value (e0 : v0 = _); clear e0
    | rw [Hw.mk_sec]
    | with_reducible apply Hw.Within.refl
    | with_reducible apply Hw.Within.step (Hw.vendor_within ..); decide
    | with_reducible apply Hw.Within.step (Hw.putSec_within ..); decide
    | with_reducible apply Hw.Within.ite

theorem execGetDeviceInterfaceReport_within (s : SpdmIx) (requester : BitVec 12) (part : PartIx) (st : State) :
    ∃ k, execGetDeviceInterfaceReport s requester part st = .next { st with hw := k } ∧ st.hw.Within 3145728 k := by
  refine ⟨_, rfl, ?_⟩
  generalize st.hw = h
  beta_reduce
  repeat' first
    | extract_lets +onlyGivenNames v0; clear_value (e0 : v0 = _); clear e0
    | with_reducible apply Hw.Within.refl
    | with_reducible apply Hw.Within.step (Hw.vendor_within ..); decide
    | with_reducible apply Hw.Within.step (Hw.tdispError_within ..); decide
    | with_reducible apply Hw.Within.ite

theorem execKeyProg_within (s : SpdmIx) (stream : BitVec 8) (keySet : BitVec 2) (dirSub : BitVec 2) (key : BitVec 256) (st : State) :
    ∃ k, execKeyProg s stream keySet dirSub key st = .next { st with hw := k } ∧ st.hw.Within 3145728 k := by
  refine ⟨_, rfl, ?_⟩
  generalize st.hw = h
  beta_reduce
  repeat' first
    | intro _
    | extract_lets +onlyGivenNames v0; clear_value (e0 : v0 = _); (first | (with_reducible apply Hw.Within.let1 e0) | clear e0)
    | rw [Hw.mk_sec]
    | with_reducible apply Hw.Within.refl
    | with_reducible assumption
    | with_reducible apply Hw.Within.step (Hw.spdmError_within ..); decide
    | with_reducible apply Hw.Within.step (Hw.touch_within ..); decide
    | with_reducible apply Hw.Within.step (Hw.putSec_within ..); decide
    | with_reducible apply Hw.Within.ite

theorem execFinish_within (s : SpdmIx) (verified : Bool) (st : State) :
    ∃ k, execFinish s verified st = .next { st with hw := k } ∧ st.hw.Within 3145728 k := by
  refine ⟨_, rfl, ?_⟩
  generalize st.hw = h
  beta_reduce
  repeat' first
    | extract_lets +onlyGivenNames v0; clear_value (e0 : v0 = _); clear e0
    | rw [Hw.mk_sec]
    | with_reducible apply Hw.Within.refl
    | with_reducible apply Hw.Within.step (Hw.spdm_within ..); decide
    | with_reducible apply Hw.Within.step (Hw.spdmError_within ..); decide
    | with_reducible apply Hw.Within.step (Hw.endSession_within ..); decide
    | with_reducible apply Hw.Within.step (Hw.putSec_within ..); decide
    | with_reducible apply Hw.Within.ite
    | split

theorem execEndSession_within (s : SpdmIx) (st : State) :
    ∃ k, execEndSession s st = .next { st with hw := k } ∧ st.hw.Within 3145728 k := by
  refine ⟨_, rfl, ?_⟩
  generalize st.hw = h
  beta_reduce
  repeat' first
    | with_reducible apply Hw.Within.refl
    | with_reducible apply Hw.Within.step (Hw.endSession_within ..); decide
    | with_reducible apply Hw.Within.step (Hw.spdm_within ..); decide
    | with_reducible apply Hw.Within.ite

theorem execKeyHandoffTimeout_within (st : State) :
    ∃ k, execKeyHandoffTimeout st = .next { st with hw := k } ∧ st.hw.Within 3145728 k := by
  refine ⟨_, rfl, ?_⟩
  generalize st.hw = h
  beta_reduce
  repeat' first
    | with_reducible apply Hw.Within.refl
    | with_reducible apply Hw.Within.step (Hw.endHandoff_within ..); decide
    | with_reducible apply Hw.Within.ite
    | split

theorem execGetCertificate_within (s : Option SpdmIx) (slot : BitVec 4) (offset : BitVec 16) (length : BitVec 16) (st : State) :
    ∃ k, execGetCertificate s slot offset length st = .next { st with hw := k } ∧ st.hw.Within 3145728 k := by
  refine ⟨_, rfl, ?_⟩
  generalize st.hw = h
  beta_reduce
  repeat' first
    | extract_lets +onlyGivenNames v0; clear_value (e0 : v0 = _); clear e0
    | with_reducible apply Hw.Within.refl
    | with_reducible apply Hw.Within.step (Hw.spdmError_within ..); decide
    | with_reducible apply Hw.Within.step (Hw.spdm_within ..); decide
    | with_reducible apply Hw.Within.ite

theorem execKeyUpdate_within (s : SpdmIx) (st : State) :
    ∃ k, execKeyUpdate s st = .next { st with hw := k } ∧ st.hw.Within 3145728 k := by
  refine ⟨_, rfl, ?_⟩
  generalize st.hw = h
  beta_reduce
  repeat' first
    | extract_lets +onlyGivenNames v0; clear_value (e0 : v0 = _); clear e0
    | rw [Hw.mk_sec]
    | with_reducible apply Hw.Within.refl
    | with_reducible apply Hw.Within.step (Hw.spdm_within ..); decide
    | with_reducible apply Hw.Within.step (Hw.putSec_within ..); decide
    | with_reducible apply Hw.Within.ite
    | split

theorem execLockInterfaceRequest_within (s : SpdmIx) (requester : BitVec 12) (part : PartIx) (st : State) :
    ∃ k, execLockInterfaceRequest s requester part st = .next { st with hw := k } ∧ st.hw.Within 258254417031936868358 k := by
  refine ⟨_, rfl, ?_⟩
  generalize st.hw = h
  beta_reduce
  repeat' first
    | extract_lets +onlyGivenNames v0; clear_value (e0 : v0 = _); clear e0
    | with_reducible apply Hw.Within.refl
    | with_reducible apply Hw.Within.step (Hw.random_within ..); decide
    | with_reducible apply Hw.Within.step (Hw.vendor_within ..); decide
    | with_reducible apply Hw.Within.step (Hw.setTdi_within ..); decide
    | with_reducible apply Hw.Within.step (Hw.tdispError_within ..); decide
    | with_reducible apply Hw.Within.ite

theorem execHeartbeat_within (s : SpdmIx) (st : State) :
    ∃ k, execHeartbeat s st = .next { st with hw := k } ∧ st.hw.Within 3145728 k := by
  refine ⟨_, rfl, ?_⟩
  generalize st.hw = h
  beta_reduce
  repeat' first
    | with_reducible apply Hw.Within.refl
    | with_reducible apply Hw.Within.step (Hw.spdm_within ..); decide
    | with_reducible apply Hw.Within.ite

theorem execGetVersion_within (s : Option SpdmIx) (st : State) :
    ∃ k, execGetVersion s st = .next { st with hw := k } ∧ st.hw.Within 3145728 k := by
  refine ⟨_, rfl, ?_⟩
  generalize st.hw = h
  beta_reduce
  repeat' first
    | with_reducible apply Hw.Within.refl
    | with_reducible apply Hw.Within.step (Hw.spdm_within ..); decide
    | with_reducible apply Hw.Within.ite

theorem execGetTdispVersion_within (s : SpdmIx) (st : State) :
    ∃ k, execGetTdispVersion s st = .next { st with hw := k } ∧ st.hw.Within 3145728 k := by
  refine ⟨_, rfl, ?_⟩
  generalize st.hw = h
  beta_reduce
  repeat' first
    | with_reducible apply Hw.Within.refl
    | with_reducible apply Hw.Within.step (Hw.vendor_within ..); decide
    | with_reducible apply Hw.Within.ite

end Sys2Proof.Machine
end

