-- ==== Sys2Proof/Laws/FramePair.lean ====
section
/-! SUPPORT. What each operation and command of Machine/Pair.lean changes, and that it keeps canonical tables. -/

namespace Sys2Proof.Machine

theorem Hw.startCascade_within (h : Hw) :
    Hw.Within 121416805764108066932466369176469931665150427440758720078238275608681517825325531204 h (Hw.startCascade h) := by
  unfold Hw.startCascade
  repeat' first
    | with_reducible apply Hw.Within.refl
    | with_reducible apply Hw.Within.step (Hw.setTimer_within ..); decide
    | with_reducible apply Hw.Within.step (Hw.setReg_within ..); decide

theorem Hw.startPair_within (h : Hw) :
    Hw.Within 242833611528216133864932738352939863330300854881517440156476551217363035650651062340 h (Hw.startPair h) := by
  unfold Hw.startPair
  repeat' first
    | with_reducible apply Hw.Within.refl
    | with_reducible apply Hw.Within.step (Hw.setTimer_within ..); decide
    | with_reducible apply Hw.Within.step (Hw.setReg_within ..); decide

theorem Hw.form_within (h : Hw) (a : Actor) :
    Hw.Within 10006218277586770784916686791511671013391860364505565313016204114124419330310710911512151904195248923640169344870373130308 h (Hw.form h a) := by
  unfold Hw.form
  repeat' first
    | with_reducible apply Hw.Within.refl
    | with_reducible apply Hw.Within.step (Hw.startCascade_within ..); decide
    | with_reducible apply Hw.Within.step (Hw.startPair_within ..); decide
    | with_reducible apply Hw.Within.step (Hw.ignore_within ..); decide
    | with_reducible apply Hw.Within.ite

theorem Hw.unsync_within (h : Hw) (p : Nat) :
    Hw.Within 445601619823168831371222494339551472730008711114423554826655723296270909323229904477618180 h (Hw.unsync h p) := by
  unfold Hw.unsync
  repeat' first
    | with_reducible apply Hw.Within.refl
    | with_reducible apply Hw.Within.step (Hw.setReg_within ..); decide

theorem Hw.unsyncAll_within (h : Hw) :
    Hw.Within 445601619823168831371222494339551472730008711114423554826655723296270909323229904478142468 h (Hw.unsyncAll h) := by
  unfold Hw.unsyncAll
  repeat' first
    | intro _
    | extract_lets +onlyGivenNames v0; clear_value (e0 : v0 = _); (first | (with_reducible apply Hw.Within.let1 e0) | clear e0)
    | rw [Hw.mk_pair]
    | with_reducible apply Hw.Within.refl
    | with_reducible assumption
    | with_reducible apply Hw.Within.step (Hw.unsync_within ..); decide
    | with_reducible apply Hw.Within.step (Hw.putPair_within ..); decide
    | with_reducible apply Hw.Within.fold

theorem Hw.rejoin_within (h : Hw) (a : Actor) :
    Hw.Within 10006218277586770784916686791512116614890266727572828468578077296420679407356674907626219839840306918940811056949525741572 h (Hw.rejoin h a) := by
  unfold Hw.rejoin
  repeat' first
    | with_reducible apply Hw.Within.refl
    | with_reducible apply Hw.Within.step (Hw.setReg_within ..); decide
    | with_reducible apply Hw.Within.step (Hw.unsyncAll_within ..); decide
    | with_reducible apply Hw.Within.step (Hw.ignore_within ..); decide
    | with_reducible apply Hw.Within.ite

theorem Hw.relinquish_within (h : Hw) (a : Actor) :
    Hw.Within 10017566055371332394929823155060516354574866694170217608701553934838995000692581370775949206321910432024753771493145974852 h (Hw.relinquish h a) := by
  unfold Hw.relinquish
  repeat' first
    | with_reducible apply Hw.Within.refl
    | with_reducible apply Hw.Within.step (Hw.fenceUnit_within ..); decide
    | with_reducible apply Hw.Within.step (Hw.ignore_within ..); decide
    | with_reducible apply Hw.Within.ite

theorem Hw.takeLease_within (h : Hw) (epoch : Nat) (role : Nat) :
    Hw.Within 485667223056432267729865476705879726660601709763034880312953102434726071301302648900 h (Hw.takeLease h epoch role) := by
  unfold Hw.takeLease
  repeat' first
    | intro _
    | extract_lets +onlyGivenNames v0; clear_value (e0 : v0 = _); (first | (with_reducible apply Hw.Within.let1 e0) | clear e0)
    | rw [Hw.mk_pair]
    | with_reducible apply Hw.Within.refl
    | with_reducible assumption
    | with_reducible apply Hw.Within.step (Hw.setReg_within ..); decide
    | with_reducible apply Hw.Within.step (Hw.setTimer_within ..); decide
    | with_reducible apply Hw.Within.step (Hw.putPair_within ..); decide

theorem Hw.mirrorDict_within (h : Hw) (key : Nat) (value : Nat) :
    Hw.Within 3978585891278293137243057985174566720803649206378781739523711815145275976100267004790788 h (Hw.mirrorDict h key value) := by
  unfold Hw.mirrorDict
  repeat' first
    | with_reducible apply Hw.Within.refl
    | with_reducible apply Hw.Within.step (Hw.sendMirror_within ..); decide
    | with_reducible apply Hw.Within.ite

theorem Hw.nextSync_within (h : Hw) :
    Hw.Within 524288 h (Hw.nextSync h) := by
  unfold Hw.nextSync
  repeat' first
    | extract_lets +onlyGivenNames v0; clear_value (e0 : v0 = _); clear e0
    | rw [Hw.mk_pair]
    | with_reducible apply Hw.Within.refl
    | with_reducible apply Hw.Within.step (Hw.putPair_within ..); decide

theorem Hw.startResync_within (h : Hw) :
    Hw.Within 449580205714447124508465552324726040217060130753746765745352948686570777108699732574210052 h (Hw.startResync h) := by
  unfold Hw.startResync
  repeat' first
    | intro _
    | extract_lets +onlyGivenNames v0; clear_value (e0 : v0 = _); with_reducible apply Hw.Within.let1 e0
    | with_reducible apply Hw.Within.refl
    | with_reducible assumption
    | with_reducible apply Hw.Within.step (Hw.unsyncAll_within ..); decide
    | with_reducible apply Hw.Within.step (Hw.enterRecovery_within ..); decide
    | with_reducible apply Hw.Within.step (Hw.mirrorDict_within ..); decide
    | with_reducible apply Hw.Within.step (Hw.nextSync_within ..); decide
    | with_reducible apply Hw.Within.fold

theorem Hw.synced_within (h : Hw) (p : Nat) :
    Hw.Within 318286871302263450979444638813965337664291936510302539161896945211622078088021360341680132 h (Hw.synced h p) := by
  unfold Hw.synced
  repeat' first
    | with_reducible apply Hw.Within.refl
    | with_reducible apply Hw.Within.step (Hw.nextSync_within ..); decide
    | with_reducible apply Hw.Within.step (Hw.setReg_within ..); decide

theorem Hw.acceptMirrors_within (h : Hw) (n : Nat) :
    Hw.Within 11349018600632808534927903923949990629855372983326772685231687000040544197786387329374067304928063151007237675325986884 h (Hw.acceptMirrors h n) := by
  unfold Hw.acceptMirrors
  repeat' first
    | intro _
    | extract_lets +onlyGivenNames v0; clear_value (e0 : v0 = _); (first | (with_reducible apply Hw.Within.let1 e0) | clear e0)
    | rw [Hw.mk_pair]
    | with_reducible apply Hw.Within.refl
    | with_reducible assumption
    | with_reducible apply Hw.Within.step (Hw.subReg_within ..); decide
    | with_reducible apply Hw.Within.step (Hw.synced_within ..); decide
    | with_reducible apply Hw.Within.step (Hw.complete_within ..); decide
    | with_reducible apply Hw.Within.step (Hw.settleChunks_within ..); decide
    | with_reducible apply Hw.Within.step (Hw.putPair_within ..); decide
    | with_reducible apply Hw.Within.ite
    | with_reducible apply Hw.Within.fold
    | split

theorem Hw.releaseHeld_within (h : Hw) :
    Hw.Within 11349018600632808534927903924077305621209889891934684405690011488046124302691363226556266239489263199605481870113511492 h (Hw.releaseHeld h) := by
  unfold Hw.releaseHeld
  repeat' first
    | intro _
    | extract_lets +onlyGivenNames v0; clear_value (e0 : v0 = _); (first | (with_reducible apply Hw.Within.let1 e0) | clear e0)
    | rw [Hw.mk_pair]
    | with_reducible apply Hw.Within.refl
    | with_reducible assumption
    | with_reducible apply Hw.Within.step (Hw.setReg_within ..); decide
    | with_reducible apply Hw.Within.step (Hw.emit_within ..); decide
    | with_reducible apply Hw.Within.step (Hw.unsyncAll_within ..); decide
    | with_reducible apply Hw.Within.step (Hw.acceptMirrors_within ..); decide
    | with_reducible apply Hw.Within.step (Hw.putPair_within ..); decide
    | with_reducible apply Hw.Within.fold

theorem Hw.leaseGrant_within (h : Hw) (a : Actor) (v : Nat) :
    Hw.Within 10017567296187403593451614695435748324962493736838795277112746215260258353976206163765064708911627260863660265531534612548 h (Hw.leaseGrant h a v) := by
  unfold Hw.leaseGrant
  repeat' first
    | intro _
    | extract_lets +onlyGivenNames v0; clear_value (e0 : v0 = _); (first | (with_reducible apply Hw.Within.let1 e0) | (with_reducible apply Hw.Within.letFnV e0) | clear e0)
    | with_reducible apply Hw.Within.refl
    | with_reducible assumption
    | with_reducible apply Hw.Within.step (Hw.setReg_within ..); decide
    | with_reducible apply Hw.Within.step (Hw.ignore_within ..); decide
    | with_reducible apply Hw.Within.step (Hw.fenceUnit_within ..); decide
    | with_reducible apply Hw.Within.step (Hw.takeLease_within ..); decide
    | with_reducible apply Hw.Within.step (Hw.startResync_within ..); decide
    | with_reducible apply Hw.Within.step (Hw.releaseHeld_within ..); decide
    | with_reducible apply Hw.Within.ite
    | with_reducible apply_assumption -exfalso -symm

theorem Hw.writePairEpoch_within (h : Hw) (epoch : Nat) :
    Hw.Within 11347777784561610013136363548845342032923970013408764212614404949865192037923451349108342674329437645355051400051562564 h (Hw.writePairEpoch h epoch) := by
  unfold Hw.writePairEpoch
  repeat' first
    | intro _
    | extract_lets +onlyGivenNames v0; clear_value (e0 : v0 = _); (first | (with_reducible apply Hw.Within.let1 e0) | clear e0)
    | with_reducible apply Hw.Within.refl
    | with_reducible assumption
    | with_reducible apply Hw.Within.step (Hw.setReg_within ..); decide
    | with_reducible apply Hw.Within.step (Hw.fenceUnit_within ..); decide
    | with_reducible apply Hw.Within.ite

theorem Hw.passOn_within (h : Hw) (key : Nat) (v : Nat) :
    Hw.Within 2048 h (Hw.passOn h key v) := by
  unfold Hw.passOn
  repeat' first
    | with_reducible apply Hw.Within.refl
    | with_reducible apply Hw.Within.step (Hw.sendSpan_within ..); decide
    | with_reducible apply Hw.Within.ite

theorem Hw.stepTime_within (h : Hw) (d : Int) :
    Hw.Within 1025 h (Hw.stepTime h d) := by
  unfold Hw.stepTime
  repeat' first
    | extract_lets +onlyGivenNames v0; clear_value (e0 : v0 = _); clear e0
    | rw [Hw.mk_now_boot]
    | with_reducible apply Hw.Within.refl
    | with_reducible apply Hw.Within.step (Hw.putBoot_within ..); decide
    | with_reducible apply Hw.Within.step (Hw.putNow_within ..); decide

theorem Hw.slew_within (h : Hw) (d : Int) :
    Hw.Within 1231497054230075221292109328102320748980070806515207883703465951374628309963780904530203686176266063637195197518853 h (Hw.slew h d) := by
  unfold Hw.slew
  repeat' first
    | intro _
    | extract_lets +onlyGivenNames v0; clear_value (e0 : v0 = _); (first | (with_reducible apply Hw.Within.let1 e0) | clear e0)
    | rw [Hw.mk_pair]
    | with_reducible apply Hw.Within.refl
    | with_reducible assumption
    | with_reducible apply Hw.Within.step (Hw.setSreg_within ..); decide
    | with_reducible apply Hw.Within.step (Hw.stepTime_within ..); decide
    | with_reducible apply Hw.Within.step (Hw.raise_within ..); decide
    | with_reducible apply Hw.Within.step (Hw.setReg_within ..); decide
    | with_reducible apply Hw.Within.step (Hw.putPair_within ..); decide
    | with_reducible apply Hw.Within.ite

theorem execHeartbeatReceive_within (port : Fin 2) (peerState : BitVec 8) (peerEpoch : BitVec 32) (offset : Int) (accepted : Nat) (s : State) :
    ∃ k, execHeartbeatReceive port peerState peerEpoch offset accepted s = .next { s with hw := k } ∧ s.hw.Within 11349018600632808534927903924078054034400619854059256128389615249471156060359052492486083143433684310972422526784379973 k := by
  refine ⟨_, rfl, ?_⟩
  generalize s.hw = h
  beta_reduce
  repeat' first
    | intro _
    | extract_lets +onlyGivenNames v0; clear_value (e0 : v0 = _); (first | (with_reducible apply Hw.Within.let1 e0) | clear e0)
    | rw [Hw.mk_pair]
    | with_reducible apply Hw.Within.refl
    | with_reducible assumption
    | with_reducible apply Hw.Within.step (Hw.setSpan_within ..); decide
    | with_reducible apply Hw.Within.step (Hw.setTimer_within ..); decide
    | with_reducible apply Hw.Within.step (Hw.fenceUnit_within ..); decide
    | with_reducible apply Hw.Within.step (Hw.setReg_within ..); decide
    | with_reducible apply Hw.Within.step (Hw.unsyncAll_within ..); decide
    | with_reducible apply Hw.Within.step (Hw.stepTime_within ..); decide
    | with_reducible apply Hw.Within.step (Hw.acceptMirrors_within ..); decide
    | with_reducible apply Hw.Within.step (Hw.startResync_within ..); decide
    | with_reducible apply Hw.Within.step (Hw.slew_within ..); decide
    | with_reducible apply Hw.Within.step (Hw.putPair_within ..); decide
    | with_reducible apply Hw.Within.ite
    | split

theorem Hw.lostLaunch_within (h : Hw) (x : Nat × Nat) :
    Hw.Within 1231497054230075221292109327356335894365390843282134511483234691223944083767759328369507720836526818118395133693958 h (Hw.lostLaunch h x) := by
  unfold Hw.lostLaunch
  repeat' first
    | with_reducible apply Hw.Within.refl
    | with_reducible apply Hw.Within.step (Hw.draw_within ..); decide
    | with_reducible apply Hw.Within.step (Hw.raise_within ..); decide

theorem execMirrorDigestCompare_within (peer : BitVec 384) (s : State) :
    ∃ k, execMirrorDigestCompare peer s = .next { s with hw := k } ∧ s.hw.Within 1231497054230075221292109808765228739038860449692150717605808674713268488544778989912150928569511735620263742019652 k := by
  refine ⟨_, rfl, ?_⟩
  generalize s.hw = h
  beta_reduce
  repeat' first
    | intro _
    | extract_lets +onlyGivenNames v0; clear_value (e0 : v0 = _); (first | (with_reducible apply Hw.Within.let1 e0) | clear e0)
    | with_reducible apply Hw.Within.refl
    | with_reducible assumption
    | with_reducible apply Hw.Within.step (Hw.setTimer_within ..); decide
    | with_reducible apply Hw.Within.step (Hw.raise_within ..); decide
    | with_reducible apply Hw.Within.step (Hw.addReg_within ..); decide
    | with_reducible apply Hw.Within.step (Hw.startResync_within ..); decide
    | with_reducible apply Hw.Within.step (Hw.unsyncAll_within ..); decide
    | with_reducible apply Hw.Within.ite

theorem execSpanRetrainDone_within (port : Fin 2) (delivered : Bool) (s : State) :
    ∃ k, execSpanRetrainDone port delivered s = .next { s with hw := k } ∧ s.hw.Within 2048 k := by
  refine ⟨_, rfl, ?_⟩
  generalize s.hw = h
  beta_reduce
  repeat' first
    | extract_lets +onlyGivenNames v0; clear_value (e0 : v0 = _); clear e0
    | with_reducible apply Hw.Within.refl
    | with_reducible apply Hw.Within.step (Hw.pumpSpan_within ..); decide
    | with_reducible apply Hw.Within.step (Hw.setSpan_within ..); decide
    | with_reducible apply Hw.Within.ite

theorem execMirrorAccepted_within (seqNo : Nat) (s : State) :
    ∃ k, execMirrorAccepted seqNo s = .next { s with hw := k } ∧ s.hw.Within 10017567296187403593451614695435621003657465320196567884904036693595050079513046016519249811265462159965132029069722523716 k := by
  refine ⟨_, rfl, ?_⟩
  generalize s.hw = h
  beta_reduce
  repeat' first
    | with_reducible apply Hw.Within.refl
    | with_reducible apply Hw.Within.step (Hw.acceptMirrors_within ..); decide
    | with_reducible apply Hw.Within.step (Hw.ignoreEvent_within ..); decide
    | with_reducible apply Hw.Within.ite

theorem Hw.askLease_within (h : Hw) :
    Hw.Within 1231497054230075221292109327356335894365390843282134511483234691223944083767759328369507720836526818118395133693956 h (Hw.askLease h) := by
  unfold Hw.askLease
  repeat' first
    | with_reducible apply Hw.Within.refl
    | with_reducible apply Hw.Within.step (Hw.raise_within ..); decide

theorem Hw.losePeer_within (h : Hw) :
    Hw.Within 10006219509083825014991908083620998369606337924132300528218249228182640622589644251830721553624731484558305945440181817348 h (Hw.losePeer h) := by
  unfold Hw.losePeer
  repeat' first
    | intro _
    | extract_lets +onlyGivenNames v0; clear_value (e0 : v0 = _); (first | (with_reducible apply Hw.Within.let1 e0) | clear e0)
    | rw [Hw.mk_pair]
    | with_reducible apply Hw.Within.refl
    | with_reducible assumption
    | with_reducible apply Hw.Within.step (Hw.askLease_within ..); decide
    | with_reducible apply Hw.Within.step (Hw.setReg_within ..); decide
    | with_reducible apply Hw.Within.step (Hw.ignoreEvent_within ..); decide
    | with_reducible apply Hw.Within.step (Hw.putPair_within ..); decide
    | split

theorem Hw.takeFormation_within (h : Hw) :
    Hw.Within 15541351137805832567355695254588151253139254712417116170014499277911234281641667985412 h (Hw.takeFormation h) := by
  unfold Hw.takeFormation
  repeat' first
    | with_reducible apply Hw.Within.refl
    | with_reducible apply Hw.Within.step (Hw.setReg_within ..); decide

theorem Hw.notePeer_within (h : Hw) (fw : Nat) (digest : Nat) :
    Hw.Within 155413511378058325673556952545881512531392547124171161700144992779112342816416679854084 h (Hw.notePeer h fw digest) := by
  unfold Hw.notePeer
  repeat' first
    | with_reducible apply Hw.Within.refl
    | with_reducible apply Hw.Within.step (Hw.setReg_within ..); decide

theorem Hw.raiseSpan_within (h : Hw) (p : Nat) :
    Hw.Within 1989292945639146568621528992587283360401824603189390869761855907572637988050133502134276 h (Hw.raiseSpan h p) := by
  unfold Hw.raiseSpan
  repeat' first
    | extract_lets +onlyGivenNames v0; clear_value (e0 : v0 = _); clear e0
    | with_reducible apply Hw.Within.refl
    | with_reducible apply Hw.Within.step (Hw.setBit_within ..); decide
    | with_reducible apply Hw.Within.step (Hw.setSpan_within ..); decide

theorem Hw.pushDictionary_within (h : Hw) :
    Hw.Within 2048 h (Hw.pushDictionary h) := by
  unfold Hw.pushDictionary
  repeat' first
    | intro _
    | with_reducible apply Hw.Within.refl
    | with_reducible assumption
    | with_reducible apply Hw.Within.step (Hw.passOn_within ..); decide
    | with_reducible apply Hw.Within.fold

theorem execSp0Trained_within (peerFw : BitVec 32) (peerDigest : BitVec 384) (peerTime : BitVec 64) (latencyNs : BitVec 32) (s : State) :
    ∃ k, execSp0Trained peerFw peerDigest peerTime latencyNs s = .next { s with hw := k } ∧ s.hw.Within 10006219509083825014991908083621001524622035704480419768356852278753814941523501299946062786646323176147546636524107865157 k := by
  refine ⟨_, rfl, ?_⟩
  generalize s.hw = h
  beta_reduce
  repeat' first
    | intro _
    | extract_lets +onlyGivenNames v0; clear_value (e0 : v0 = _); (first | (with_reducible apply Hw.Within.let1 e0) | clear e0)
    | rw [Hw.mk_msg]
    | with_reducible apply Hw.Within.refl
    | with_reducible assumption
    | with_reducible apply Hw.Within.step (Hw.ignoreEvent_within ..); decide
    | with_reducible apply Hw.Within.step (Hw.takeFormation_within ..); decide
    | with_reducible apply Hw.Within.step (Hw.setElem_within ..); decide
    | with_reducible apply Hw.Within.step (Hw.notePeer_within ..); decide
    | with_reducible apply Hw.Within.step (Hw.raiseSpan_within ..); decide
    | with_reducible apply Hw.Within.step (Hw.setReg_within ..); decide
    | with_reducible apply Hw.Within.step (Hw.stepTime_within ..); decide
    | with_reducible apply Hw.Within.step (Hw.pushDictionary_within ..); decide
    | with_reducible apply Hw.Within.step (Hw.startPair_within ..); decide
    | with_reducible apply Hw.Within.step (Hw.raise_within ..); decide
    | with_reducible apply Hw.Within.step (Hw.putMsg_within ..); decide
    | with_reducible apply Hw.Within.ite

theorem execLeaseExpiry_within (s : State) :
    ∃ k, execLeaseExpiry s = .next { s with hw := k } ∧ s.hw.Within 11347777784561610013136363548845341547256746956976496482748928243985465377321741586073462361376335210628980098749438020 k := by
  refine ⟨_, rfl, ?_⟩
  generalize s.hw = h
  beta_reduce
  repeat' first
    | with_reducible apply Hw.Within.refl
    | with_reducible apply Hw.Within.step (Hw.fenceUnit_within ..); decide
    | with_reducible apply Hw.Within.ite
    | split

theorem Hw.cascadeLost_within (h : Hw) :
    Hw.Within 11349009281615840088357655658618299632691063903363593752617575200586290617154972876486147791216190002638809444031380548 h (Hw.cascadeLost h) := by
  unfold Hw.cascadeLost
  repeat' first
    | intro _
    | extract_lets +onlyGivenNames v0; clear_value (e0 : v0 = _); with_reducible apply Hw.Within.let1 e0
    | with_reducible apply Hw.Within.refl
    | with_reducible assumption
    | with_reducible apply Hw.Within.step (Hw.setReg_within ..); decide
    | with_reducible apply Hw.Within.step (Hw.failStack_within ..); decide
    | with_reducible apply Hw.Within.step (Hw.complete_within ..); decide
    | with_reducible apply Hw.Within.step (Hw.fenceUnit_within ..); decide
    | with_reducible apply Hw.Within.ite
    | with_reducible apply Hw.Within.fold

theorem Hw.downSpan_within (h : Hw) (p : Nat) (kind : Nat) :
    Hw.Within 11349009281615840088357655658620288925636703049932215281610162483946692441758162267355909647123762640626859577533512772 h (Hw.downSpan h p kind) := by
  unfold Hw.downSpan
  repeat' first
    | intro _
    | extract_lets +onlyGivenNames v0; clear_value (e0 : v0 = _); (first | (with_reducible apply Hw.Within.let1 e0) | clear e0)
    | with_reducible apply Hw.Within.refl
    | with_reducible assumption
    | with_reducible apply Hw.Within.step (Hw.setBit_within ..); decide
    | with_reducible apply Hw.Within.step (Hw.setSpan_within ..); decide
    | with_reducible apply Hw.Within.step (Hw.raise_within ..); decide
    | with_reducible apply Hw.Within.step (Hw.sendPeer_within ..); decide
    | with_reducible apply Hw.Within.step (Hw.cascadeLost_within ..); decide
    | with_reducible apply Hw.Within.ite
    | with_reducible apply Hw.Within.fold

theorem execSpanDown_within (port : Fin 2) (s : State) :
    ∃ k, execSpanDown port s = .next { s with hw := k } ∧ s.hw.Within 11349009281615840088357655658620288925636703049932215281610162483946692441758162267355909647123762640626859577533512772 k := by
  refine ⟨_, rfl, ?_⟩
  generalize s.hw = h
  beta_reduce
  repeat' first
    | with_reducible apply Hw.Within.refl
    | with_reducible apply Hw.Within.step (Hw.downSpan_within ..); decide
    | with_reducible apply Hw.Within.ite

theorem Hw.retrainSpan_within (h : Hw) (p : Nat) :
    Hw.Within 2048 h (Hw.retrainSpan h p) := by
  unfold Hw.retrainSpan
  repeat' first
    | extract_lets +onlyGivenNames v0; clear_value (e0 : v0 = _); clear e0
    | with_reducible apply Hw.Within.refl
    | with_reducible apply Hw.Within.step (Hw.setSpan_within ..); decide

theorem execTakeover_within (s : State) :
    ∃ k, execTakeover s = .next { s with hw := k } ∧ s.hw.Within 92649563693477634903326326797196670071540837760328228170275949571882902352401833890870978730864000046189078266200834684998 k := by
  refine ⟨_, rfl, ?_⟩
  generalize s.hw = h
  beta_reduce
  repeat' first
    | intro _
    | extract_lets +onlyGivenNames v0; clear_value (e0 : v0 = _); (first | (with_reducible apply Hw.Within.let1 e0) | clear e0)
    | rw [Hw.mk_pair]
    | with_reducible apply Hw.Within.refl
    | with_reducible assumption
    | with_reducible apply Hw.Within.step (Hw.ignoreEvent_within ..); decide
    | with_reducible apply Hw.Within.step (Hw.releasePart_within ..); decide
    | with_reducible apply Hw.Within.step (Hw.raise_within ..); decide
    | with_reducible apply Hw.Within.step (Hw.suspectSlice_within ..); decide
    | with_reducible apply Hw.Within.step (Hw.sessionsTakeover_within ..); decide
    | with_reducible apply Hw.Within.step (Hw.lostLaunch_within ..); decide
    | with_reducible apply Hw.Within.step (Hw.setReg_within ..); decide
    | with_reducible apply Hw.Within.step (Hw.unsyncAll_within ..); decide
    | with_reducible apply Hw.Within.step (Hw.putPair_within ..); decide
    | with_reducible apply Hw.Within.ite
    | with_reducible apply Hw.Within.fold

theorem execHeartbeatSend_within (s : State) :
    ∃ k, execHeartbeatSend s = .next { s with hw := k } ∧ s.hw.Within 2112 k := by
  refine ⟨_, rfl, ?_⟩
  generalize s.hw = h
  beta_reduce
  repeat' first
    | extract_lets +onlyGivenNames v0; clear_value (e0 : v0 = _); clear e0
    | with_reducible apply Hw.Within.refl
    | with_reducible apply Hw.Within.step (Hw.setTimer_within ..); decide
    | with_reducible apply Hw.Within.step (Hw.sendPairLinks_within ..); decide
    | with_reducible apply Hw.Within.ite

theorem execPairLinkTimeout_within (s : State) :
    ∃ k, execPairLinkTimeout s = .next { s with hw := k } ∧ s.hw.Within 10006219509083825014991908083620998369606337924132300528218249228182640622589644251830721553624731484558305945440181293060 k := by
  refine ⟨_, rfl, ?_⟩
  generalize s.hw = h
  beta_reduce
  repeat' first
    | with_reducible apply Hw.Within.refl
    | with_reducible apply Hw.Within.step (Hw.ignoreEvent_within ..); decide
    | with_reducible apply Hw.Within.step (Hw.askLease_within ..); decide
    | with_reducible apply Hw.Within.step (Hw.setReg_within ..); decide
    | with_reducible apply Hw.Within.ite

theorem execFenceFlit_within (s : State) :
    ∃ k, execFenceFlit s = .next { s with hw := k } ∧ s.hw.Within 10006219509083825014991908083620998369606337924132300528218249228182640622589644251830721553624731484558305945440181817348 k := by
  refine ⟨_, rfl, ?_⟩
  generalize s.hw = h
  beta_reduce
  repeat' first
    | with_reducible apply Hw.Within.refl
    | with_reducible apply Hw.Within.step (Hw.losePeer_within ..); decide

theorem execSpanTrainTimeout_within (s : State) :
    ∃ k, execSpanTrainTimeout s = .next { s with hw := k } ∧ s.hw.Within 10017567286868386625005044447170289312660301011116604705971422581795595825932414602066361891751750286816763600838427917380 k := by
  refine ⟨_, rfl, ?_⟩
  generalize s.hw = h
  beta_reduce
  repeat' first
    | with_reducible apply Hw.Within.refl
    | with_reducible apply Hw.Within.step (Hw.ignoreEvent_within ..); decide
    | with_reducible apply Hw.Within.step (Hw.cascadeLost_within ..); decide
    | with_reducible apply Hw.Within.ite

theorem execPeerLost_within (s : State) :
    ∃ k, execPeerLost s = .next { s with hw := k } ∧ s.hw.Within 10006219509083825014991908083620998369606337924132300528218249228182640622589644251830721553624731484558305945440181817348 k := by
  refine ⟨_, rfl, ?_⟩
  generalize s.hw = h
  beta_reduce
  repeat' first
    | with_reducible apply Hw.Within.refl
    | with_reducible apply Hw.Within.step (Hw.losePeer_within ..); decide
    | with_reducible apply Hw.Within.ite

theorem execPairSessionUp_within (peerKeyDigest : BitVec 384) (peerFw : BitVec 32) (peerDigest : BitVec 384) (s : State) :
    ∃ k, execPairSessionUp peerKeyDigest peerFw peerDigest s = .next { s with hw := k } ∧ s.hw.Within 10006219509083825014991908083621000529854146079143027390659889615935664808946049277809869185640131114219871093632031791174 k := by
  refine ⟨_, rfl, ?_⟩
  generalize s.hw = h
  beta_reduce
  repeat' first
    | intro _
    | extract_lets +onlyGivenNames v0; clear_value (e0 : v0 = _); (first | (with_reducible apply Hw.Within.let1 e0) | clear e0)
    | rw [Hw.mk_msg]
    | rw [Hw.mk_drawn_pair]
    | with_reducible apply Hw.Within.refl
    | with_reducible assumption
    | with_reducible apply Hw.Within.step (Hw.ignoreEvent_within ..); decide
    | with_reducible apply Hw.Within.step (Hw.takeFormation_within ..); decide
    | with_reducible apply Hw.Within.step (Hw.notePeer_within ..); decide
    | with_reducible apply Hw.Within.step (Hw.raiseSpan_within ..); decide
    | with_reducible apply Hw.Within.step (Hw.setTimer_within ..); decide
    | with_reducible apply Hw.Within.step (Hw.askLease_within ..); decide
    | with_reducible apply Hw.Within.step (Hw.setReg_within ..); decide
    | with_reducible apply Hw.Within.step (Hw.raise_within ..); decide
    | with_reducible apply Hw.Within.step (Hw.putDrawn_within ..); decide
    | with_reducible apply Hw.Within.step (Hw.putMsg_within ..); decide
    | with_reducible apply Hw.Within.step (Hw.putPair_within ..); decide
    | with_reducible apply Hw.Within.ite
    | with_reducible apply Hw.Within.fold

theorem execSpanFlitReceive_within (port : Fin 2) (header : BitVec 32) (payload : List Byte) (crc : BitVec 32) (tagOk : Bool) (s : State) :
    ∃ k, execSpanFlitReceive port header payload crc tagOk s = .next { s with hw := k } ∧ s.hw.Within 11349009281615840088357655658620288925636703049932215281610162483946692441758162267355909647123762640626859577533512772 k := by
  refine ⟨_, rfl, ?_⟩
  generalize s.hw = h
  beta_reduce
  repeat' first
    | extract_lets +onlyGivenNames v0; clear_value (e0 : v0 = _); clear e0
    | with_reducible apply Hw.Within.refl
    | with_reducible apply Hw.Within.step (Hw.setSpan_within ..); decide
    | with_reducible apply Hw.Within.step (Hw.setTimer_within ..); decide
    | with_reducible apply Hw.Within.step (Hw.downSpan_within ..); decide
    | with_reducible apply Hw.Within.step (Hw.retrainSpan_within ..); decide
    | with_reducible apply Hw.Within.step (Hw.pumpSpan_within ..); decide
    | with_reducible apply Hw.Within.ite

theorem execSpanIdleRetrain_within (port : Fin 2) (s : State) :
    ∃ k, execSpanIdleRetrain port s = .next { s with hw := k } ∧ s.hw.Within 2048 k := by
  refine ⟨_, rfl, ?_⟩
  generalize s.hw = h
  beta_reduce
  repeat' first
    | extract_lets +onlyGivenNames v0; clear_value (e0 : v0 = _); clear e0
    | with_reducible apply Hw.Within.refl
    | with_reducible apply Hw.Within.step (Hw.retrainSpan_within ..); decide
    | with_reducible apply Hw.Within.ite

theorem execResyncSector_within (s : State) :
    ∃ k, execResyncSector s = .next { s with hw := k } ∧ s.hw.Within 11349182434963382837533881494243739595514612493578492732761445672842561311693747774452119629835928758954304218499906628 k := by
  refine ⟨_, rfl, ?_⟩
  generalize s.hw = h
  beta_reduce
  repeat' first
    | intro _
    | extract_lets +onlyGivenNames v0; clear_value (e0 : v0 = _); (first | (with_reducible apply Hw.Within.let1 e0) | (with_reducible apply Hw.Within.let2 e0) | clear e0)
    | with_reducible apply Hw.Within.refl
    | with_reducible assumption
    | with_reducible apply Hw.Within.step (Hw.setReg_within ..); decide
    | with_reducible apply Hw.Within.step (Hw.flushSector_within ..); decide
    | with_reducible apply Hw.Within.step (Hw.cipherCol_within ..); decide
    | with_reducible apply Hw.Within.step (Hw.sendMirror_within ..); decide
    | with_reducible apply Hw.Within.ite
    | with_reducible apply Hw.Within.fold2
    | split

theorem execLeaseRenew_within (s : State) :
    ∃ k, execLeaseRenew s = .next { s with hw := k } ∧ s.hw.Within 1231497054230075221292109327356335894365390843282134511483234691223944083767759328369507720836526818118395133694020 k := by
  refine ⟨_, rfl, ?_⟩
  generalize s.hw = h
  beta_reduce
  repeat' first
    | with_reducible apply Hw.Within.refl
    | with_reducible apply Hw.Within.step (Hw.setTimer_within ..); decide
    | with_reducible apply Hw.Within.step (Hw.askLease_within ..); decide
    | with_reducible apply Hw.Within.ite
    | split

end Sys2Proof.Machine
end

