-- ==== Sys2Proof/Laws/FrameMail.lean ====
section
/-! SUPPORT. What each operation and command of Machine/Mail.lean changes, and that it keeps canonical tables. -/

namespace Sys2Proof.Machine

theorem Hw.setMbq_within (h : Hw) (ch : Nat) (b : Bool) (q : MbQueue) :
    Hw.Within 17774614273923054214983861938591173791173378666054178708966313505248652289685757262542643786603474072895492 h (Hw.setMbq h ch b q) := by
  unfold Hw.setMbq
  repeat' first
    | intro _
    | extract_lets +onlyGivenNames v0; clear_value (e0 : v0 = _); (first | (with_reducible apply Hw.Within.let1 e0) | clear e0)
    | rw [Hw.mk_msg]
    | with_reducible apply Hw.Within.refl
    | with_reducible assumption
    | with_reducible apply Hw.Within.step (Hw.setReg_within ..); decide
    | with_reducible apply Hw.Within.step (Hw.setBit_within ..); decide
    | with_reducible apply Hw.Within.step (Hw.putMsg_within ..); decide
    | with_reducible apply Hw.Within.ite

theorem Hw.doorbell_within (h : Hw) (ch : Nat) (b : Bool) :
    Hw.Within 1231497054230075221292109327356335894365390843282134511483234691223944083767759328369507720836526818118395133693956 h (Hw.doorbell h ch b) := by
  unfold Hw.doorbell
  repeat' first
    | with_reducible apply Hw.Within.refl
    | with_reducible apply Hw.Within.step (Hw.raise_within ..); decide
    | with_reducible apply Hw.Within.ite

theorem Hw.mbWrite_within (h : Hw) (ch : Nat) (b : Bool) (writer : Nat) (epoch : Nat) (words : List (BitVec 64)) :
    Hw.Within 1231497072004689495215163542340197832956564634455513177537413400190257589016411618055264983379170604721869204492292 h (Hw.mbWrite h ch b writer epoch words).2 := by
  unfold Hw.mbWrite
  repeat' first
    | intro _
    | extract_lets +onlyGivenNames v0; clear_value (e0 : v0 = _); (first | (with_reducible apply Hw.Within.let1 e0) | clear e0)
    | with_reducible apply Hw.Within.refl
    | with_reducible assumption
    | with_reducible apply Hw.Within.step (Hw.setMbq_within ..); decide
    | with_reducible apply Hw.Within.step (Hw.doorbell_within ..); decide
    | with_reducible apply Hw.Within.ite
    | split

theorem Hw.mbRead_within (h : Hw) (ch : Nat) (b : Bool) (n : Nat) :
    Hw.Within 17774614273923054214983861938591173791173378666054178708966313505248652289685757262542643786603474072895492 h (Hw.mbRead h ch b n).2.2 := by
  unfold Hw.mbRead
  repeat' first
    | extract_lets +onlyGivenNames v0; clear_value (e0 : v0 = _); clear e0
    | with_reducible apply Hw.Within.refl
    | with_reducible apply Hw.Within.step (Hw.setMbq_within ..); decide

theorem Hw.mbAnswer_within (h : Hw) (uid : Nat) (b : List Byte) :
    Hw.Within 11347777784561610013136363548841360775862964909894048640369108500805891755407668870676896111633814371703863186880467012 h (Hw.mbAnswer h uid b) := by
  unfold Hw.mbAnswer
  repeat' first
    | extract_lets +onlyGivenNames v0; clear_value (e0 : v0 = _); clear e0
    | with_reducible apply Hw.Within.refl
    | with_reducible apply Hw.Within.step (Hw.complete_within ..); decide

theorem Hw.lockRelease_within (h : Hw) (ch : Nat) (b : Bool) :
    Hw.Within 17774614273923054214983861938591173791173378666054178708966313505248652289685757262542643786603474072895492 h (Hw.lockRelease h ch b) := by
  unfold Hw.lockRelease
  repeat' first
    | extract_lets +onlyGivenNames v0; clear_value (e0 : v0 = _); clear e0
    | with_reducible apply Hw.Within.refl
    | with_reducible apply Hw.Within.step (Hw.setMbq_within ..); decide

theorem Hw.lockWrite_within (h : Hw) (ch : Nat) (b : Bool) (who : Nat) (v : Nat) :
    Hw.Within 54470592129764198400756996263424564843918418492746676688767734935439418307101514191662940636365485057769476 h (Hw.lockWrite h ch b who v) := by
  unfold Hw.lockWrite
  repeat' first
    | with_reducible apply Hw.Within.refl
    | with_reducible apply Hw.Within.step (Hw.lockRelease_within ..); decide
    | with_reducible apply Hw.Within.step (Hw.addReg_within ..); decide
    | with_reducible apply Hw.Within.ite

theorem Hw.lockRead_within (h : Hw) (ch : Nat) (b : Bool) (who : Nat) :
    Hw.Within 17774614273923054214983861938591173791173378666054178708966313505248652289685757262542643786603474072895492 h (Hw.lockRead h ch b who).2 := by
  unfold Hw.lockRead
  repeat' first
    | extract_lets +onlyGivenNames v0; clear_value (e0 : v0 = _); clear e0
    | with_reducible apply Hw.Within.refl
    | with_reducible apply Hw.Within.step (Hw.setMbq_within ..); decide

theorem Hw.mbServe_within (h : Hw) (uid : Nat) :
    Hw.Within 11349009281670310680487419856569474108020754865581249193373338412185883434426876048312367133546313839158347067067732036 h (Hw.mbServe h uid) := by
  unfold Hw.mbServe
  repeat' first
    | extract_lets +onlyGivenNames v0; clear_value (e0 : v0 = _); clear e0
    | with_reducible apply Hw.Within.refl
    | with_reducible apply Hw.Within.step (Hw.complete_within ..); decide
    | with_reducible apply Hw.Within.step (Hw.mbWrite_within ..); decide
    | with_reducible apply Hw.Within.step (Hw.mbRead_within ..); decide
    | with_reducible apply Hw.Within.step (Hw.mbAnswer_within ..); decide
    | with_reducible apply Hw.Within.step (Hw.lockWrite_within ..); decide
    | with_reducible apply Hw.Within.step (Hw.lockRead_within ..); decide
    | with_reducible apply Hw.Within.ite
    | split

theorem Hw.mbWriterReset_within (h : Hw) (ch : Nat) (b : Bool) (r : Nat) :
    Hw.Within 1231497072004689495215163542340197832956564634455513177537413400190257589016411618055264983379170604721869204492292 h (Hw.mbWriterReset h ch b r) := by
  unfold Hw.mbWriterReset
  repeat' first
    | intro _
    | extract_lets +onlyGivenNames v0; clear_value (e0 : v0 = _); (first | (with_reducible apply Hw.Within.let1 e0) | clear e0)
    | with_reducible apply Hw.Within.refl
    | with_reducible assumption
    | with_reducible apply Hw.Within.step (Hw.setMbq_within ..); decide
    | with_reducible apply Hw.Within.step (Hw.raise_within ..); decide
    | with_reducible apply Hw.Within.ite
    | split

theorem Hw.mbReceiverReset_within (h : Hw) (ch : Nat) (b : Bool) :
    Hw.Within 36122603201843626307870429101007869317545898579400427698867024220344035298393635727102792211484479565332484 h (Hw.mbReceiverReset h ch b) := by
  unfold Hw.mbReceiverReset
  repeat' first
    | extract_lets +onlyGivenNames v0; clear_value (e0 : v0 = _); clear e0
    | with_reducible apply Hw.Within.refl
    | with_reducible apply Hw.Within.step (Hw.setMbq_within ..); decide
    | with_reducible apply Hw.Within.step (Hw.addReg_within ..); decide
    | with_reducible apply Hw.Within.ite

theorem Hw.mbEpoch_within (h : Hw) (r : Nat) :
    Hw.Within 1231497090352678423135735635226764995373260160828033090883662390090968304111794626763143447939319029602874696929284 h (Hw.mbEpoch h r) := by
  unfold Hw.mbEpoch
  repeat' first
    | intro _
    | extract_lets +onlyGivenNames v0; clear_value (e0 : v0 = _); with_reducible apply Hw.Within.let1 e0
    | with_reducible apply Hw.Within.refl
    | with_reducible assumption
    | with_reducible apply Hw.Within.step (Hw.mbWriterReset_within ..); decide
    | with_reducible apply Hw.Within.step (Hw.mbReceiverReset_within ..); decide
    | with_reducible apply Hw.Within.step (Hw.lockRelease_within ..); decide
    | with_reducible apply Hw.Within.ite
    | with_reducible apply Hw.Within.fold

theorem Hw.mbHubReset_within (h : Hw) :
    Hw.Within 36122603201843626307870429101007869317545898579400427698867024220344035298393635727102792211484479565332484 h (Hw.mbHubReset h) := by
  unfold Hw.mbHubReset
  repeat' first
    | intro _
    | extract_lets +onlyGivenNames v0; clear_value (e0 : v0 = _); (first | (with_reducible apply Hw.Within.let1 e0) | clear e0)
    | rw [Hw.mk_msg]
    | with_reducible apply Hw.Within.refl
    | with_reducible assumption
    | with_reducible apply Hw.Within.step (Hw.mbReceiverReset_within ..); decide
    | with_reducible apply Hw.Within.step (Hw.setMbq_within ..); decide
    | with_reducible apply Hw.Within.step (Hw.putMsg_within ..); decide
    | with_reducible apply Hw.Within.fold

theorem execMbBindingLockWrite_within (s : State) :
    ∃ k, execMbBindingLockWrite s = .next { s with hw := k } ∧ s.hw.Within 286687326998758938951352611912760867599570623646035140467198604923365359511060601008752319138765710819332 k := by
  refine ⟨_, rfl, ?_⟩
  generalize s.hw = h
  beta_reduce
  repeat' first
    | with_reducible apply Hw.Within.refl
    | with_reducible apply Hw.Within.step (Hw.setReg_within ..); decide

theorem Hw.setSem_within (h : Hw) (i : Nat) (v : Nat) :
    Hw.Within 2097152 h (Hw.setSem h i v) := by
  unfold Hw.setSem
  repeat' first
    | extract_lets +onlyGivenNames v0; clear_value (e0 : v0 = _); clear e0
    | rw [Hw.mk_msg]
    | with_reducible apply Hw.Within.refl
    | with_reducible apply Hw.Within.step (Hw.putMsg_within ..); decide

theorem Hw.coreRead_within (h : Hw) (ch : Nat) (n : Nat) :
    Hw.Within 17774614273923054214983861938591173791173378666054178708966313505248652289685757262542643786603474072895492 h (Hw.coreRead h ch n) := by
  unfold Hw.coreRead
  repeat' first
    | with_reducible apply Hw.Within.refl
    | with_reducible apply Hw.Within.step (Hw.mbRead_within ..); decide
    | with_reducible apply Hw.Within.ite
    | split

theorem Hw.mbTimeout_within (h : Hw) (ch : Nat) (b : Bool) :
    Hw.Within 1231497072004689495215163542340197832956564634455513177537413400190257589016411618055264983379170604721869204492292 h (Hw.mbTimeout h ch b) := by
  unfold Hw.mbTimeout
  repeat' first
    | intro _
    | extract_lets +onlyGivenNames v0; clear_value (e0 : v0 = _); (first | (with_reducible apply Hw.Within.let1 e0) | clear e0)
    | with_reducible apply Hw.Within.refl
    | with_reducible assumption
    | with_reducible apply Hw.Within.step (Hw.setMbq_within ..); decide
    | with_reducible apply Hw.Within.step (Hw.raise_within ..); decide
    | with_reducible apply Hw.Within.ite
    | split

theorem execMailboxTimeout_within (channel : Fin 64) (fromB : Bool) (s : State) :
    ∃ k, execMailboxTimeout channel fromB s = .next { s with hw := k } ∧ s.hw.Within 1231497072004689495215163542340197832956564634455513177537413400190257589016411618055264983379170604721869204492292 k := by
  refine ⟨_, rfl, ?_⟩
  generalize s.hw = h
  beta_reduce
  repeat' first
    | with_reducible apply Hw.Within.refl
    | with_reducible apply Hw.Within.step (Hw.mbTimeout_within ..); decide

theorem Hw.lockStalled_within (h : Hw) (i : Nat) (semaphore : Bool) (owner : Nat) :
    Hw.Within 1231497054230075221292109327356335894365390843282134511483234691223944083767759328369507720836526818118395133693956 h (Hw.lockStalled h i semaphore owner) := by
  unfold Hw.lockStalled
  repeat' first
    | with_reducible apply Hw.Within.refl
    | with_reducible apply Hw.Within.step (Hw.raise_within ..); decide

theorem Hw.coreAcquire_within (h : Hw) (ch : Nat) (core : Nat) (b : Bool) :
    Hw.Within 17774614273923054214983861938591173791173378666054178708966313505248652289685757262542643786603474072895492 h (Hw.coreAcquire h ch core b) := by
  unfold Hw.coreAcquire
  repeat' first
    | with_reducible apply Hw.Within.refl
    | with_reducible apply Hw.Within.step (Hw.lockRead_within ..); decide
    | with_reducible apply Hw.Within.step (Hw.setMbq_within ..); decide
    | with_reducible apply Hw.Within.ite

theorem Hw.setSemWaiting_within (h : Hw) (i : Nat) (l : List (Nat × Nat)) :
    Hw.Within 2097152 h (Hw.setSemWaiting h i l) := by
  unfold Hw.setSemWaiting
  repeat' first
    | extract_lets +onlyGivenNames v0; clear_value (e0 : v0 = _); clear e0
    | rw [Hw.mk_msg]
    | with_reducible apply Hw.Within.refl
    | with_reducible apply Hw.Within.step (Hw.putMsg_within ..); decide

theorem Hw.semAcquire_within (h : Hw) (i : Nat) (core : Nat) :
    Hw.Within 2097152 h (Hw.semAcquire h i core) := by
  unfold Hw.semAcquire
  repeat' first
    | with_reducible apply Hw.Within.refl
    | with_reducible apply Hw.Within.step (Hw.setSem_within ..); decide
    | with_reducible apply Hw.Within.step (Hw.setSemWaiting_within ..); decide
    | with_reducible apply Hw.Within.ite

theorem Hw.coreLockRead_within (h : Hw) (i : Nat) (core : Nat) (semaphore : Bool) :
    Hw.Within 17774614273923054214983861938591173791173378666054178708966313505248652289685757262542643786603474072895492 h (Hw.coreLockRead h i core semaphore) := by
  unfold Hw.coreLockRead
  repeat' first
    | with_reducible apply Hw.Within.refl
    | with_reducible apply Hw.Within.step (Hw.semAcquire_within ..); decide
    | with_reducible apply Hw.Within.step (Hw.coreAcquire_within ..); decide
    | with_reducible apply Hw.Within.ite
    | split

theorem Hw.semRelease_within (h : Hw) (i : Nat) (core : Nat) :
    Hw.Within 2097152 h (Hw.semRelease h i core) := by
  unfold Hw.semRelease
  repeat' first
    | with_reducible apply Hw.Within.refl
    | with_reducible apply Hw.Within.step (Hw.setSemWaiting_within ..); decide
    | with_reducible apply Hw.Within.step (Hw.setSem_within ..); decide
    | with_reducible apply Hw.Within.ite

theorem Hw.coreLockWrite_within (h : Hw) (i : Nat) (core : Nat) (semaphore : Bool) (v : Nat) :
    Hw.Within 54470592129764198400756996263424564843918418492746676688767734935439418307101514191662940636365485057769476 h (Hw.coreLockWrite h i core semaphore v) := by
  unfold Hw.coreLockWrite
  repeat' first
    | with_reducible apply Hw.Within.refl
    | with_reducible apply Hw.Within.step (Hw.semRelease_within ..); decide
    | with_reducible apply Hw.Within.step (Hw.lockWrite_within ..); decide
    | with_reducible apply Hw.Within.ite
    | split

theorem Hw.coreWrite_within (h : Hw) (ch : Nat) (words : List (BitVec 64)) :
    Hw.Within 1231497072004689495215163542340197832956564634455513177537413400190257589016411618055264983379170604721869204492292 h (Hw.coreWrite h ch words) := by
  unfold Hw.coreWrite
  repeat' first
    | with_reducible apply Hw.Within.refl
    | with_reducible apply Hw.Within.step (Hw.mbWrite_within ..); decide
    | split

theorem execRouteBucketRefill_within (route : Fin 32) (s : State) :
    ∃ k, execRouteBucketRefill route s = .next { s with hw := k } ∧ s.hw.Within 2097216 k := by
  refine ⟨_, rfl, ?_⟩
  generalize s.hw = h
  beta_reduce
  repeat' first
    | intro _
    | extract_lets +onlyGivenNames v0; clear_value (e0 : v0 = _); (first | (with_reducible apply Hw.Within.let1 e0) | clear e0)
    | rw [Hw.mk_msg]
    | with_reducible apply Hw.Within.refl
    | with_reducible assumption
    | with_reducible apply Hw.Within.step (Hw.setTimer_within ..); decide
    | with_reducible apply Hw.Within.step (Hw.putMsg_within ..); decide
    | with_reducible apply Hw.Within.ite

theorem execLockStall_within (semaphore : Bool) (index : Fin 64) (s : State) :
    ∃ k, execLockStall semaphore index s = .next { s with hw := k } ∧ s.hw.Within 1231497072004689495215163542340197832956564634455513177537413400190257589016411618055264983379170604721869204492292 k := by
  refine ⟨_, rfl, ?_⟩
  generalize s.hw = h
  beta_reduce
  repeat' first
    | intro _
    | extract_lets +onlyGivenNames v0; clear_value (e0 : v0 = _); clear e0
    | with_reducible apply Hw.Within.refl
    | with_reducible assumption
    | with_reducible apply Hw.Within.step (Hw.lockStalled_within ..); decide
    | with_reducible apply Hw.Within.step (Hw.setSemWaiting_within ..); decide
    | with_reducible apply Hw.Within.step (Hw.setMbq_within ..); decide
    | with_reducible apply Hw.Within.ite
    | with_reducible apply Hw.Within.fold
    | split

end Sys2Proof.Machine
end

