-- ==== Sys2Proof/Laws/FramePortOps.lean ====
section
/-! SUPPORT. What each operation and command of Machine/PortOps.lean changes, and that it keeps canonical tables. -/

namespace Sys2Proof.Machine

theorem Hw.dropUnfed_within (h : Hw) (n : Nat) :
    Hw.Within 11347777784561610013136363548841360775862964909894048640369108500805891755407668870676895477808514257589162438528340036 h (Hw.dropUnfed h n) := by
  unfold Hw.dropUnfed
  repeat' first
    | intro _
    | extract_lets +onlyGivenNames v0; clear_value (e0 : v0 = _); with_reducible apply Hw.Within.let1 e0
    | with_reducible apply Hw.Within.refl
    | with_reducible assumption
    | with_reducible apply Hw.Within.step (Hw.winForget_within ..); decide
    | with_reducible apply Hw.Within.step (Hw.releaseTrk_within ..); decide
    | with_reducible apply Hw.Within.ite
    | with_reducible apply Hw.Within.fold
    | split

theorem Hw.dropHeld_within (h : Hw) (n : Nat) (p : Rq → Bool) (forget : Bool) :
    Hw.Within 81129638414606681695789005148164 h (Hw.dropHeld h n p forget) := by
  unfold Hw.dropHeld
  repeat' first
    | intro _
    | extract_lets +onlyGivenNames v0; clear_value (e0 : v0 = _); (first | (with_reducible apply Hw.Within.let1 e0) | clear e0)
    | with_reducible apply Hw.Within.refl
    | with_reducible assumption
    | with_reducible apply Hw.Within.step (Hw.setPort_within ..); decide
    | with_reducible apply Hw.Within.step (Hw.setReg_within ..); decide
    | with_reducible apply Hw.Within.step (Hw.winForget_within ..); decide
    | with_reducible apply Hw.Within.ite
    | with_reducible apply Hw.Within.fold
    | split

theorem Hw.dropUnits_within (h : Hw) (n : Nat) (p : OutUnit → Bool) :
    Hw.Within 11347777784561610013136363548841360775862964909894048640369108500805891755407668870676895477808514257589162438528340036 h (Hw.dropUnits h n p) := by
  unfold Hw.dropUnits
  repeat' first
    | intro _
    | extract_lets +onlyGivenNames v0; clear_value (e0 : v0 = _); (first | (with_reducible apply Hw.Within.let1 e0) | clear e0)
    | with_reducible apply Hw.Within.refl
    | with_reducible assumption
    | with_reducible apply Hw.Within.step (Hw.setPort_within ..); decide
    | with_reducible apply Hw.Within.step (Hw.releaseTrk_within ..); decide
    | with_reducible apply Hw.Within.fold
    | split

theorem Hw.lostBisnps_within (h : Hw) (us : List OutUnit) :
    Hw.Within 32768 h (Hw.lostBisnps h us) := by
  unfold Hw.lostBisnps
  repeat' first
    | intro _
    | extract_lets +onlyGivenNames v0; clear_value (e0 : v0 = _); clear e0
    | rw [Hw.mk_coh]
    | with_reducible apply Hw.Within.refl
    | with_reducible assumption
    | with_reducible apply Hw.Within.step (Hw.putCoh_within ..); decide
    | with_reducible apply Hw.Within.ite
    | with_reducible apply Hw.Within.fold
    | split

theorem Hw.closePort_within (h : Hw) (n : Nat) :
    Hw.Within 11347777784561610013136363548841360775862964909894048640369108500805891755407668870677645926963849369394848486825955396 h (Hw.closePort h n) := by
  unfold Hw.closePort
  repeat' first
    | intro _
    | extract_lets +onlyGivenNames v0; clear_value (e0 : v0 = _); (first | (with_reducible apply Hw.Within.let1 e0) | clear e0)
    | rw [Hw.mk_req]
    | with_reducible apply Hw.Within.refl
    | with_reducible assumption
    | with_reducible apply Hw.Within.step (Hw.dropUnfed_within ..); decide
    | with_reducible apply Hw.Within.step (Hw.dropHeld_within ..); decide
    | with_reducible apply Hw.Within.step (Hw.dropUnits_within ..); decide
    | with_reducible apply Hw.Within.step (Hw.lostBisnps_within ..); decide
    | with_reducible apply Hw.Within.step (Hw.releaseTrk_within ..); decide
    | with_reducible apply Hw.Within.step (Hw.setPort_within ..); decide
    | with_reducible apply Hw.Within.step (Hw.setReg_within ..); decide
    | with_reducible apply Hw.Within.step (Hw.putReq_within ..); decide
    | split

theorem Hw.resetPort_within (h : Hw) (a : Actor) (n : Nat) :
    Hw.Within 10017566055371332394929823155060512373803472912123135160859174115095815427070667298060553389887497946183519639881222492228 h (Hw.resetPort h a n) := by
  unfold Hw.resetPort
  repeat' first
    | intro _
    | extract_lets +onlyGivenNames v0; clear_value (e0 : v0 = _); (first | (with_reducible apply Hw.Within.let1 e0) | clear e0)
    | with_reducible apply Hw.Within.refl
    | with_reducible assumption
    | with_reducible apply Hw.Within.step (Hw.ignore_within ..); decide
    | with_reducible apply Hw.Within.step (Hw.closePort_within ..); decide
    | with_reducible apply Hw.Within.step (Hw.setPort_within ..); decide
    | with_reducible apply Hw.Within.ite

theorem Hw.dropHome_within (h : Hw) (r : Nat) :
    Hw.Within 4096 h (Hw.dropHome h r) := by
  unfold Hw.dropHome
  repeat' first
    | extract_lets +onlyGivenNames v0; clear_value (e0 : v0 = _); clear e0
    | rw [Hw.mk_req]
    | with_reducible apply Hw.Within.refl
    | with_reducible apply Hw.Within.step (Hw.putReq_within ..); decide

theorem Hw.advanceEpoch_within (h : Hw) (r : Nat) :
    Hw.Within 11349182434999505440735725120551610024615620362896038631340846100541428335914112226692528532132201968785624070995573828 h (Hw.advanceEpoch h r) := by
  unfold Hw.advanceEpoch
  repeat' first
    | intro _
    | extract_lets +onlyGivenNames v0; clear_value (e0 : v0 = _); (first | (with_reducible apply Hw.Within.let1 e0) | clear e0)
    | rw [Hw.mk_coh]
    | with_reducible apply Hw.Within.refl
    | with_reducible assumption
    | with_reducible apply Hw.Within.step (Hw.addReg_within ..); decide
    | with_reducible apply Hw.Within.step (Hw.finishSweeps_within ..); decide
    | with_reducible apply Hw.Within.step (Hw.tdiEpoch_within ..); decide
    | with_reducible apply Hw.Within.step (Hw.mbEpoch_within ..); decide
    | with_reducible apply Hw.Within.step (Hw.putCoh_within ..); decide
    | with_reducible apply Hw.Within.fold

theorem Hw.resetActions_within (h : Hw) (r : Nat) :
    Hw.Within 11347777784561610013136363548841360775862964909894048640369108500805891755407668870676976924359578921328208601709809732 h (Hw.resetActions h r) := by
  unfold Hw.resetActions
  repeat' first
    | intro _
    | extract_lets +onlyGivenNames v0; clear_value (e0 : v0 = _); (first | (with_reducible apply Hw.Within.let1 e0) | clear e0)
    | rw [Hw.mk_pair]
    | with_reducible apply Hw.Within.refl
    | with_reducible assumption
    | with_reducible apply Hw.Within.step (Hw.releaseTrk_within ..); decide
    | with_reducible apply Hw.Within.step (Hw.dropUnits_within ..); decide
    | with_reducible apply Hw.Within.step (Hw.dropHeld_within ..); decide
    | with_reducible apply Hw.Within.step (Hw.clearWin_within ..); decide
    | with_reducible apply Hw.Within.step (Hw.putPair_within ..); decide
    | with_reducible apply Hw.Within.fold
    | split

theorem Hw.writeReqState_within (h : Hw) (a : Actor) (r : Nat) (v : Nat) :
    Hw.Within 10017567460021770290357422516632222623052225567576137150850145852695550963651173741416568272818863499134608117901311343684 h (Hw.writeReqState h a r v) := by
  unfold Hw.writeReqState
  repeat' first
    | with_reducible apply Hw.Within.refl
    | with_reducible apply Hw.Within.step (Hw.setReg_within ..); decide
    | with_reducible apply Hw.Within.step (Hw.dropHome_within ..); decide
    | with_reducible apply Hw.Within.step (Hw.clearWin_within ..); decide
    | with_reducible apply Hw.Within.step (Hw.advanceEpoch_within ..); decide
    | with_reducible apply Hw.Within.step (Hw.resetActions_within ..); decide
    | with_reducible apply Hw.Within.step (Hw.ignore_within ..); decide
    | split

theorem Hw.portError_within (h : Hw) (n : Nat) :
    Hw.Within 11349009281615840088357655658168717111757330300737330774880591735497115699491436630005690916131027469486183725936939076 h (Hw.portError h n) := by
  unfold Hw.portError
  repeat' first
    | intro _
    | extract_lets +onlyGivenNames v0; clear_value (e0 : v0 = _); (first | (with_reducible apply Hw.Within.let1 e0) | clear e0)
    | with_reducible apply Hw.Within.refl
    | with_reducible assumption
    | with_reducible apply Hw.Within.step (Hw.addReg_within ..); decide
    | with_reducible apply Hw.Within.step (Hw.setReg_within ..); decide
    | with_reducible apply Hw.Within.step (Hw.dropUnfed_within ..); decide
    | with_reducible apply Hw.Within.step (Hw.dropHeld_within ..); decide
    | with_reducible apply Hw.Within.step (Hw.setPort_within ..); decide
    | with_reducible apply Hw.Within.step (Hw.dropUnits_within ..); decide
    | with_reducible apply Hw.Within.step (Hw.raise_within ..); decide
    | with_reducible apply Hw.Within.ite

theorem Hw.openPort_within (h : Hw) (n : Nat) :
    Hw.Within 20282409603651670423947251290116 h (Hw.openPort h n) := by
  unfold Hw.openPort
  repeat' first
    | extract_lets +onlyGivenNames v0; clear_value (e0 : v0 = _); clear e0
    | with_reducible apply Hw.Within.refl
    | with_reducible apply Hw.Within.step (Hw.setPort_within ..); decide
    | with_reducible apply Hw.Within.step (Hw.setReg_within ..); decide

theorem execPortIdleUp_within (port : PortIx) (s : State) :
    ∃ k, execPortIdleUp port s = .next { s with hw := k } ∧ s.hw.Within 20282409603651670423947251290116 k := by
  refine ⟨_, rfl, ?_⟩
  generalize s.hw = h
  beta_reduce
  repeat' first
    | extract_lets +onlyGivenNames v0; clear_value (e0 : v0 = _); clear e0
    | with_reducible apply Hw.Within.refl
    | with_reducible apply Hw.Within.step (Hw.openPort_within ..); decide
    | with_reducible apply Hw.Within.ite
    | split

end Sys2Proof.Machine
end

