-- ==== Sys2Proof/Laws/FrameDictWrite.lean ====
section
/-! SUPPORT. What each operation and command of Machine/DictWrite.lean changes, and that it keeps canonical tables. -/

namespace Sys2Proof.Machine

theorem Hw.loadDone_within (h : Hw) :
    Hw.Within 18253627396 h (Hw.loadDone h) := by
  unfold Hw.loadDone
  repeat' first
    | intro _
    | extract_lets +onlyGivenNames v0; clear_value (e0 : v0 = _); (first | (with_reducible apply Hw.Within.let1 e0) | (with_reducible apply Hw.Within.letMem e0; subst e0))
    | rw [Hw.mk_mem]
    | with_reducible apply Hw.Within.refl
    | with_reducible assumption
    | with_reducible apply Hw.Within.step (Hw.setReg_within ..); decide
    | (with_reducible apply Hw.Within.stepMem); (· exact ⟨rfl, rfl, rfl⟩); (· decide)
    | with_reducible apply Hw.Within.ite

theorem Hw.command_within (h : Hw) (a : Actor) (r : Reg) (i : Nat) (v : Nat) :
    Hw.Within 102978563388297633773145749959309802019068076308615990679435041488016755748345200880004174942351780106334149357270986652924 h (Hw.command h a r i v) := by
  unfold Hw.command
  repeat' first
    | with_reducible apply Hw.Within.refl
    | with_reducible apply Hw.Within.step (Hw.loadDone_within ..); decide
    | with_reducible apply Hw.Within.step (Hw.ignore_within ..); decide
    | with_reducible apply Hw.Within.step (Hw.lcTransition_within ..); decide
    | with_reducible apply Hw.Within.step (Hw.tamperAck_within ..); decide
    | with_reducible apply Hw.Within.step (Hw.destroyWeight_within ..); decide
    | with_reducible apply Hw.Within.step (Hw.createPart_within ..); decide
    | with_reducible apply Hw.Within.step (Hw.growPart_within ..); decide
    | with_reducible apply Hw.Within.step (Hw.releasePart_within ..); decide
    | with_reducible apply Hw.Within.step (Hw.acceptAll_within ..); decide
    | with_reducible apply Hw.Within.step (Hw.resetPort_within ..); decide
    | with_reducible apply Hw.Within.step (Hw.testCommand_within ..); decide
    | with_reducible apply Hw.Within.step (Hw.abortRunning_within ..); decide
    | with_reducible apply Hw.Within.step (Hw.abortAll_within ..); decide
    | with_reducible apply Hw.Within.step (Hw.progBegin_within ..); decide
    | with_reducible apply Hw.Within.step (Hw.progCommit_within ..); decide
    | with_reducible apply Hw.Within.step (Hw.progDelete_within ..); decide
    | with_reducible apply Hw.Within.step (Hw.openSession_within ..); decide
    | with_reducible apply Hw.Within.step (Hw.abortCommand_within ..); decide
    | with_reducible apply Hw.Within.step (Hw.closeSession_within ..); decide
    | with_reducible apply Hw.Within.step (Hw.excludeCommand_within ..); decide
    | with_reducible apply Hw.Within.step (Hw.rearmCommand_within ..); decide
    | with_reducible apply Hw.Within.step (Hw.form_within ..); decide
    | with_reducible apply Hw.Within.step (Hw.rejoin_within ..); decide
    | with_reducible apply Hw.Within.step (Hw.relinquish_within ..); decide
    | with_reducible apply Hw.Within.step (Hw.setReg_within ..); decide
    | with_reducible apply Hw.Within.step (Hw.armWm_within ..); decide
    | with_reducible apply Hw.Within.step (Hw.fixClear_within ..); decide
    | with_reducible apply Hw.Within.step (Hw.selClear_within ..); decide
    | with_reducible apply Hw.Within.step (Hw.countCommand_within ..); decide
    | with_reducible apply Hw.Within.ite
    | split

theorem Hw.runCommand_within (h : Hw) (a : Actor) (r : Reg) (i : Nat) (v : Nat) :
    Hw.Within 102978563388297633773145749959309802019068076308615990679435041488016755748345200880004174942351780106334149357270986652924 h (Hw.runCommand h a r i v) := by
  unfold Hw.runCommand
  repeat' first
    | extract_lets +onlyGivenNames v0; clear_value (e0 : v0 = _); clear e0
    | rw [Hw.mk_boot]
    | with_reducible apply Hw.Within.refl
    | with_reducible apply Hw.Within.step (Hw.command_within ..); decide
    | with_reducible apply Hw.Within.step (Hw.putBoot_within ..); decide
    | with_reducible apply Hw.Within.ite

theorem Hw.runStalled_within (h : Hw) :
    Hw.Within 102978563388297633773145749959309802019068076308615990679435041488016755748345200880004174942351780106334149357270986652924 h (Hw.runStalled h) := by
  unfold Hw.runStalled
  repeat' first
    | intro _
    | extract_lets +onlyGivenNames v0; clear_value (e0 : v0 = _); clear e0
    | rw [Hw.mk_boot]
    | with_reducible apply Hw.Within.refl
    | with_reducible assumption
    | with_reducible apply Hw.Within.step (Hw.command_within ..); decide
    | with_reducible apply Hw.Within.step (Hw.putBoot_within ..); decide
    | with_reducible apply Hw.Within.ite
    | with_reducible apply Hw.Within.fold

theorem Hw.writeServiceMode_within (h : Hw) (a : Actor) (v : Nat) :
    Hw.Within 10006218277586770784916686791511671013027609947213241112218805006596158906970909045833644504230896828701838845736034242628 h (Hw.writeServiceMode h a v) := by
  unfold Hw.writeServiceMode
  repeat' first
    | with_reducible apply Hw.Within.refl
    | with_reducible apply Hw.Within.step (Hw.setMode_within ..); decide
    | with_reducible apply Hw.Within.step (Hw.ignore_within ..); decide
    | split

theorem Hw.store_within (h : Hw) (a : Actor) (r : Reg) (i : Nat) (e : Nat) (v : Nat) :
    Hw.Within 165263992197562149737978827008192759957101170741070304821162198818601447809077836456297302609928821211897803006255831186940 h (Hw.store h a r i e v) := by
  unfold Hw.store
  repeat' first
    | intro _
    | extract_lets +onlyGivenNames v0; clear_value (e0 : v0 = _); (first | (with_reducible apply Hw.Within.let1 e0) | clear e0)
    | rw [Hw.mk_msg]
    | with_reducible apply Hw.Within.refl
    | with_reducible assumption
    | with_reducible apply Hw.Within.step (Hw.leaseGrant_within ..); first | decide | exact Reg.mask_any _ _ (by decide)
    | with_reducible apply Hw.Within.step (Hw.writePairEpoch_within ..); first | decide | exact Reg.mask_any _ _ (by decide)
    | with_reducible apply Hw.Within.step (Hw.writeWeightKey_within ..); first | decide | exact Reg.mask_any _ _ (by decide)
    | with_reducible apply Hw.Within.step (Hw.installKey_within ..); first | decide | exact Reg.mask_any _ _ (by decide)
    | with_reducible apply Hw.Within.step (Hw.runStalled_within ..); first | decide | exact Reg.mask_any _ _ (by decide)
    | with_reducible apply Hw.Within.step (Hw.writeConsent_within ..); first | decide | exact Reg.mask_any _ _ (by decide)
    | with_reducible apply Hw.Within.step (Hw.writeReqState_within ..); first | decide | exact Reg.mask_any _ _ (by decide)
    | with_reducible apply Hw.Within.step (Hw.writeServiceMode_within ..); first | decide | exact Reg.mask_any _ _ (by decide)
    | with_reducible apply Hw.Within.step (Hw.retire_within ..); first | decide | exact Reg.mask_any _ _ (by decide)
    | with_reducible apply Hw.Within.step (Hw.clearRetired_within ..); first | decide | exact Reg.mask_any _ _ (by decide)
    | with_reducible apply Hw.Within.step (Hw.progStepWrite_within ..); first | decide | exact Reg.mask_any _ _ (by decide)
    | with_reducible apply Hw.Within.step (Hw.loadSeed_within ..); first | decide | exact Reg.mask_any _ _ (by decide)
    | with_reducible apply Hw.Within.step (Hw.setReg_within ..); first | decide | exact Reg.mask_any _ _ (by decide)
    | with_reducible apply Hw.Within.step (Hw.endTest_within ..); first | decide | exact Reg.mask_any _ _ (by decide)
    | with_reducible apply Hw.Within.step (Hw.noteWants_within ..); first | decide | exact Reg.mask_any _ _ (by decide)
    | with_reducible apply Hw.Within.step (Hw.beginCoarse_within ..); first | decide | exact Reg.mask_any _ _ (by decide)
    | with_reducible apply Hw.Within.step (Hw.setElem_within ..); first | decide | exact Reg.mask_any _ _ (by decide)
    | with_reducible apply Hw.Within.step (Hw.putMsg_within ..); decide
    | with_reducible apply Hw.Within.ite
    | split

theorem Hw.reclamp_within (h : Hw) (a : Actor) (d : Reg) (i : Nat) :
    Hw.Within 165263992197562149737978827008192759957101170741070304821162198818601447809077836456297302609928821211897803006255824896004 h (Hw.reclamp h a d i).2 := by
  unfold Hw.reclamp
  repeat' first
    | with_reducible apply Hw.Within.refl
    | with_reducible apply Hw.Within.step (Hw.logClamp_within ..); first | decide | exact Reg.mask_any _ _ (by decide)
    | with_reducible apply Hw.Within.step (Hw.setReg_within ..); first | decide | exact Reg.mask_any _ _ (by decide)
    | split

theorem Hw.writeOne_within (h : Hw) (a : Actor) (r : Reg) (i : Nat) (e : Nat) (v : Nat) (beside : Option Nat) :
    Hw.Within 165263992197562149737978827008192759957101170741070304821162198818601447809077836456297302609928821211897803006255831186940 h (Hw.writeOne h a r i e v beside).2 := by
  unfold Hw.writeOne
  repeat' first
    | intro _
    | extract_lets +onlyGivenNames v0; clear_value (e0 : v0 = _); (first | (with_reducible apply Hw.Within.let1 e0) | clear e0)
    | with_reducible apply Hw.Within.refl
    | with_reducible assumption
    | with_reducible apply Hw.Within.step (Hw.ignore_within ..); decide
    | with_reducible apply Hw.Within.step (Hw.runCommand_within ..); decide
    | with_reducible apply Hw.Within.step (Hw.store_within ..); decide
    | with_reducible apply Hw.Within.step (Hw.logClamp_within ..); decide
    | with_reducible apply Hw.Within.step (Hw.reclamp_within ..); decide
    | with_reducible apply Hw.Within.step (Hw.passOn_within ..); decide
    | with_reducible apply Hw.Within.step (Hw.mirrorDict_within ..); decide
    | with_reducible apply Hw.Within.ite
    | with_reducible apply Hw.Within.ite2
    | with_reducible apply Hw.Within.fold2
    | split

theorem Hw.writeItem_within (h : Hw) (a : Actor) (r : Reg) (i : Nat) (first : Nat) (vs : List Nat) (beside : Option Nat) :
    Hw.Within 165263992197562149737978827008192759957101170741070304821162198818601447809077836456297302609928821211897803006255831186940 h (Hw.writeItem h a r i first vs beside).2 := by
  unfold Hw.writeItem
  repeat' first
    | intro _
    | extract_lets +onlyGivenNames v0; clear_value (e0 : v0 = _); (first | (with_reducible apply Hw.Within.let2 e0) | clear e0)
    | with_reducible apply Hw.Within.refl
    | with_reducible assumption
    | with_reducible apply Hw.Within.step (Hw.ignore_within ..); decide
    | with_reducible apply Hw.Within.step (Hw.writeOne_within ..); decide
    | with_reducible apply Hw.Within.step (Hw.setReg_within ..); decide
    | with_reducible apply Hw.Within.ite2
    | with_reducible apply Hw.Within.fold2

theorem Hw.dictWrite_within (h : Hw) (a : Actor) (r : Reg) (i : Nat) (v : Nat) (e : Nat) :
    Hw.Within 165263992197562149737978827008192759957101170741070304821162198818601447809077836456297302609928821211897803006255831186940 h (Hw.dictWrite h a r i v e) := by
  unfold Hw.dictWrite
  repeat' first
    | with_reducible apply Hw.Within.refl
    | with_reducible apply Hw.Within.step (Hw.writeItem_within ..); decide
    | with_reducible apply Hw.Within.ite

end Sys2Proof.Machine
end

