-- ==== Sys2Proof/Laws/DictRow.lean ====
section
/-! SUPPORT. A write of one known object: what it changes, which operation it calls, and when it runs. -/

namespace Sys2Proof.Machine

/-! ### What a write of one object changes -/

/-- The field an access names is the register's. -/
theorem Hw.fieldAt_of {h : Hw} {r : Reg} {i : Nat} {f : FieldDesc} (e : h.fieldAt r i = some f) : fieldOf r = some f := by
  unfold Hw.fieldAt at e
  unfold fieldOf
  split at e
  · rename_i d hd
    rw [hd]
    dsimp only at e ⊢
    dsimp only [Option.bind_some]
    generalize (if h.remoteCopy r.index i then i - 2048 else i) = j at e
    by_cases hj : j < h.instCount d
    · rw [if_pos hj] at e; exact e
    · rw [if_neg hj] at e; cases e
  · cases e

theorem Hw.reclamp_of {m : Nat} {g h : Hw} {a : Actor} {d : Reg} {i : Nat} (hd : d.mask &&& m = d.mask)
    (hc : 181564444552985760210181816781461772413807438558304778245905736006764285923059146497396938902509691272836941779335905284 &&& m = 181564444552985760210181816781461772413807438558304778245905736006764285923059146497396938902509691272836941779335905284) (h0 : Hw.Within m g h) : Hw.Within m g (h.reclamp a d i).2 := by
  unfold Hw.reclamp
  split
  · split
    · refine Hw.Within.step (Hw.logClamp_within ..) hc ?_
      exact Hw.Within.step (Hw.setReg_within ..) hd h0
    · exact h0
  · exact h0

theorem Hw.writeOne_of {m : Nat} {g h : Hw} {a : Actor} {r : Reg} {i v e : Nat} {b : Option Nat} {f : FieldDesc} (hf : fieldOf r = some f)
    (hb : 10006218277586770784916686791511674991613501225506378355276790181161730338964466007971615267672349242090100891661401327620 &&& m = 10006218277586770784916686791511674991613501225506378355276790181161730338964466007971615267672349242090100891661401327620) (hl : f.cmd = true ∨ 181564444552985760210181816781461772413807438558304778245905736006764285923059146497396938902509691272836941779335905284 &&& m = 181564444552985760210181816781461772413807438558304778245905736006764285923059146497396938902509691272836941779335905284)
    (hd : ∀ d ∈ dependents r, d.mask &&& m = d.mask)
    (hc : f.cmd = true → Hw.Within m g (h.runCommand a r i (v % 2 ^ f.ty.width)))
    (hs : f.cmd = false → ∀ x, Hw.Within m g (h.store a r i e x)) (h0 : Hw.Within m g h) :
    Hw.Within m g (h.writeOne a r i e v b).2 := by
  have sub : ∀ n, n &&& 10006218277586770784916686791511674991613501225506378355276790181161730338964466007971615267672349242090100891661401327620 = n → n &&& m = n := by
    intro n hn
    rw [← hn, Nat.and_assoc, hb]
  unfold Hw.writeOne
  split
  · exact h0
  · rename_i f' hf'
    have ef : f' = f := by
      have := Hw.fieldAt_of hf'
      rw [hf] at this
      exact (Option.some.inj this).symm
    subst ef
    split
    · exact h0
    · extract_lets total v'
      split
      rename_i k0 k1 e0
      refine Hw.Within.snd e0 ?_ (fun hk => ?_)
      · clear e0
        split
        · exact Hw.Within.step (Hw.ignore_within ..) (sub _ (by decide)) h0
        · split
          · exact Hw.Within.step (Hw.ignore_within ..) (sub _ (by decide)) h0
          · rename_i x c _
            cases hcmd : f'.cmd with
            | true =>
              simp only [if_true]
              exact hc hcmd
            | false =>
              simp only [Bool.false_eq_true, if_false]
              have hl' : 181564444552985760210181816781461772413807438558304778245905736006764285923059146497396938902509691272836941779335905284 &&& m = 181564444552985760210181816781461772413807438558304778245905736006764285923059146497396938902509691272836941779335905284 := by
                rcases hl with hl | hl
                · rw [hcmd] at hl; cases hl
                · exact hl
              have key : ∀ (l : List Reg) (y : Bool × Hw), (∀ d ∈ l, d.mask &&& m = d.mask) → Hw.Within m g y.2 →
                  Hw.Within m g (l.foldl (fun (b : Bool × Hw) d => let (c, h) := b.2.reclamp a d i; (b.1 || c, h)) y).2 := by
                intro l
                induction l with
                | nil => intro y _ hy; exact hy
                | cons d l ih =>
                  intro y hl hy
                  exact ih _ (fun x hx => hl x (List.mem_cons_of_mem _ hx)) (Hw.reclamp_of (hl d List.mem_cons_self) hl' hy)
              refine key _ _ hd ?_
              refine Hw.Within.ite ?_ (hs hcmd _)
              exact Hw.Within.step (Hw.logClamp_within ..) hl' (hs hcmd _)
      · split
        · refine Hw.Within.step (Hw.passOn_within ..) (sub _ (by decide)) ?_
          exact Hw.Within.step (Hw.mirrorDict_within ..) (sub _ (by decide)) hk
        · exact hk

theorem Hw.writeItem_of {m : Nat} {g h : Hw} {a : Actor} {r : Reg} {i v e : Nat} {b : Option Nat} {f : FieldDesc} (hf : fieldOf r = some f)
    (hr : r ≠ Od.opKeys) (hb : 10006218277586770784916686791511674991613501225506378355276790181161730338964466007971615267672349242090100891661401327620 &&& m = 10006218277586770784916686791511674991613501225506378355276790181161730338964466007971615267672349242090100891661401327620) (hl : f.cmd = true ∨ 181564444552985760210181816781461772413807438558304778245905736006764285923059146497396938902509691272836941779335905284 &&& m = 181564444552985760210181816781461772413807438558304778245905736006764285923059146497396938902509691272836941779335905284)
    (hd : ∀ d ∈ dependents r, d.mask &&& m = d.mask)
    (hc : f.cmd = true → Hw.Within m g (h.runCommand a r i (v % 2 ^ f.ty.width)))
    (hs : f.cmd = false → ∀ (e x : Nat), Hw.Within m g (h.store a r i e x)) (h0 : Hw.Within m g h) :
    Hw.Within m g (h.writeItem a r i e [v] b).2 := by
  unfold Hw.writeItem
  rw [if_neg hr]
  exact Hw.writeOne_of hf hb hl hd hc (fun c => hs c _) h0

/-- A write of one object changes what its own operation changes, and what ignored, mirrored and passed-on writes change. -/
theorem Hw.dictWrite_of {m : Nat} {h : Hw} {a : Actor} {r : Reg} {i v e : Nat} (f : FieldDesc) (hf : fieldOf r = some f)
    (hr : r ≠ Od.opKeys) (hb : 10006218277586770784916686791511674991613501225506378355276790181161730338964466007971615267672349242090100891661401327620 &&& m = 10006218277586770784916686791511674991613501225506378355276790181161730338964466007971615267672349242090100891661401327620) (hl : f.cmd = true ∨ 181564444552985760210181816781461772413807438558304778245905736006764285923059146497396938902509691272836941779335905284 &&& m = 181564444552985760210181816781461772413807438558304778245905736006764285923059146497396938902509691272836941779335905284)
    (hd : ∀ d ∈ dependents r, d.mask &&& m = d.mask)
    (hc : f.cmd = true → Hw.Within m h (h.runCommand a r i (v % 2 ^ f.ty.width)))
    (hs : f.cmd = false → ∀ (e x : Nat), Hw.Within m h (h.store a r i e x)) : Hw.Within m h (h.dictWrite a r i v e) := by
  unfold Hw.dictWrite
  split
  · exact Hw.writeItem_of hf hr hb hl hd hc hs (Hw.Within.refl _ _)
  · exact Hw.Within.refl _ _

/-! ### Which operation a command calls -/

theorem Hw.runCommand_eq (h : Hw) (a : Actor) (r : Reg) (i v : Nat) (hr : firmwareCommand r = false) :
    h.runCommand a r i v = h.command a r i v := by
  unfold Hw.runCommand
  rw [if_neg (by simp [hr])]

/-- While a steward core runs, a firmware command is carried out. -/
theorem Hw.runCommand_runs (h : Hw) (a : Actor) (r : Reg) (i v : Nat) (hh : h.reg Od.dbgHalted % 4 ≠ 3) :
    h.runCommand a r i v = h.command a r i v := by
  unfold Hw.runCommand
  rw [if_neg (by simp [hh])]

theorem Hw.command_dictCommand_1 (h : Hw) (a : Actor) (i : Nat) :
    h.command a Od.dictCommand i 1 = (if h.reg Od.dictState = 0 then h.loadDone else h.ignore a Od.dictCommand i Why.wrongState) := by
  unfold Hw.command
  rw [if_pos rfl]

theorem Hw.command_lcCommand (h : Hw) (a : Actor) (i : Nat) (v : Nat) :
    h.command a Od.lcCommand i v = (h.lcTransition a v) := by
  unfold Hw.command
  rw [if_neg (show ¬ Od.lcCommand = Od.dictCommand by decide), if_pos rfl]

theorem Hw.command_tamperAck_1 (h : Hw) (a : Actor) (i : Nat) :
    h.command a Od.tamperAck i 1 = (h.tamperAck) := by
  unfold Hw.command
  rw [if_neg (show ¬ Od.tamperAck = Od.dictCommand by decide), if_neg (show ¬ Od.tamperAck = Od.lcCommand by decide),
    if_pos rfl]

theorem Hw.command_wkCommand_1 (h : Hw) (a : Actor) (i : Nat) :
    h.command a Od.wkCommand i 1 = (h.destroyWeight i) := by
  unfold Hw.command
  rw [if_neg (show ¬ Od.wkCommand = Od.dictCommand by decide), if_neg (show ¬ Od.wkCommand = Od.lcCommand by decide),
    if_neg (show ¬ Od.wkCommand = Od.tamperAck by decide), if_pos rfl]

theorem Hw.command_partCommand_1 (h : Hw) (a : Actor) (i : Nat) :
    h.command a Od.partCommand i 1 = (h.createPart a i) := by
  unfold Hw.command
  rw [if_neg (show ¬ Od.partCommand = Od.dictCommand by decide), if_neg (show ¬ Od.partCommand = Od.lcCommand by decide),
    if_neg (show ¬ Od.partCommand = Od.tamperAck by decide), if_neg (show ¬ Od.partCommand = Od.wkCommand by decide),
    if_pos rfl]
  rfl

theorem Hw.command_partCommand_2 (h : Hw) (a : Actor) (i : Nat) :
    h.command a Od.partCommand i 2 = (h.growPart a i) := by
  unfold Hw.command
  rw [if_neg (show ¬ Od.partCommand = Od.dictCommand by decide), if_neg (show ¬ Od.partCommand = Od.lcCommand by decide),
    if_neg (show ¬ Od.partCommand = Od.tamperAck by decide), if_neg (show ¬ Od.partCommand = Od.wkCommand by decide),
    if_pos rfl]
  rfl

theorem Hw.command_partCommand_3 (h : Hw) (a : Actor) (i : Nat) :
    h.command a Od.partCommand i 3 = (h.releasePart a i) := by
  unfold Hw.command
  rw [if_neg (show ¬ Od.partCommand = Od.dictCommand by decide), if_neg (show ¬ Od.partCommand = Od.lcCommand by decide),
    if_neg (show ¬ Od.partCommand = Od.tamperAck by decide), if_neg (show ¬ Od.partCommand = Od.wkCommand by decide),
    if_pos rfl]
  rfl

theorem Hw.command_cohLostAccept_1 (h : Hw) (a : Actor) (i : Nat) :
    h.command a Od.cohLostAccept i 1 = (h.acceptAll i) := by
  unfold Hw.command
  rw [if_neg (show ¬ Od.cohLostAccept = Od.dictCommand by decide), if_neg (show ¬ Od.cohLostAccept = Od.lcCommand by decide),
    if_neg (show ¬ Od.cohLostAccept = Od.tamperAck by decide), if_neg (show ¬ Od.cohLostAccept = Od.wkCommand by decide),
    if_neg (show ¬ Od.cohLostAccept = Od.partCommand by decide), if_pos rfl]

theorem Hw.command_portCommand_1 (h : Hw) (a : Actor) (i : Nat) :
    h.command a Od.portCommand i 1 = (h.resetPort a i) := by
  unfold Hw.command
  rw [if_neg (show ¬ Od.portCommand = Od.dictCommand by decide), if_neg (show ¬ Od.portCommand = Od.lcCommand by decide),
    if_neg (show ¬ Od.portCommand = Od.tamperAck by decide), if_neg (show ¬ Od.portCommand = Od.wkCommand by decide),
    if_neg (show ¬ Od.portCommand = Od.partCommand by decide), if_neg (show ¬ Od.portCommand = Od.cohLostAccept by decide),
    if_pos rfl]

theorem Hw.command_testCommand (h : Hw) (a : Actor) (i : Nat) (v : Nat) :
    h.command a Od.testCommand i v = (h.testCommand a v) := by
  unfold Hw.command
  rw [if_neg (show ¬ Od.testCommand = Od.dictCommand by decide), if_neg (show ¬ Od.testCommand = Od.lcCommand by decide),
    if_neg (show ¬ Od.testCommand = Od.tamperAck by decide), if_neg (show ¬ Od.testCommand = Od.wkCommand by decide),
    if_neg (show ¬ Od.testCommand = Od.partCommand by decide), if_neg (show ¬ Od.testCommand = Od.cohLostAccept by decide),
    if_neg (show ¬ Od.testCommand = Od.portCommand by decide), if_pos rfl]

theorem Hw.command_engCommand_1 (h : Hw) (a : Actor) (i : Nat) :
    h.command a Od.engCommand i 1 = (h.abortRunning i) := by
  unfold Hw.command
  rw [if_neg (show ¬ Od.engCommand = Od.dictCommand by decide), if_neg (show ¬ Od.engCommand = Od.lcCommand by decide),
    if_neg (show ¬ Od.engCommand = Od.tamperAck by decide), if_neg (show ¬ Od.engCommand = Od.wkCommand by decide),
    if_neg (show ¬ Od.engCommand = Od.partCommand by decide), if_neg (show ¬ Od.engCommand = Od.cohLostAccept by decide),
    if_neg (show ¬ Od.engCommand = Od.portCommand by decide), if_neg (show ¬ Od.engCommand = Od.testCommand by decide),
    if_pos rfl]
  rw [if_pos rfl]

theorem Hw.command_engCommand_2 (h : Hw) (a : Actor) (i : Nat) :
    h.command a Od.engCommand i 2 = (h.abortAll i) := by
  unfold Hw.command
  rw [if_neg (show ¬ Od.engCommand = Od.dictCommand by decide), if_neg (show ¬ Od.engCommand = Od.lcCommand by decide),
    if_neg (show ¬ Od.engCommand = Od.tamperAck by decide), if_neg (show ¬ Od.engCommand = Od.wkCommand by decide),
    if_neg (show ¬ Od.engCommand = Od.partCommand by decide), if_neg (show ¬ Od.engCommand = Od.cohLostAccept by decide),
    if_neg (show ¬ Od.engCommand = Od.portCommand by decide), if_neg (show ¬ Od.engCommand = Od.testCommand by decide),
    if_pos rfl]
  rw [if_neg (by decide)]

theorem Hw.command_progCommand_1 (h : Hw) (a : Actor) (i : Nat) :
    h.command a Od.progCommand i 1 = (h.progBegin a i) := by
  unfold Hw.command
  rw [if_neg (show ¬ Od.progCommand = Od.dictCommand by decide), if_neg (show ¬ Od.progCommand = Od.lcCommand by decide),
    if_neg (show ¬ Od.progCommand = Od.tamperAck by decide), if_neg (show ¬ Od.progCommand = Od.wkCommand by decide),
    if_neg (show ¬ Od.progCommand = Od.partCommand by decide), if_neg (show ¬ Od.progCommand = Od.cohLostAccept by decide),
    if_neg (show ¬ Od.progCommand = Od.portCommand by decide), if_neg (show ¬ Od.progCommand = Od.testCommand by decide),
    if_neg (show ¬ Od.progCommand = Od.engCommand by decide), if_pos rfl]
  rfl

theorem Hw.command_progCommand_2 (h : Hw) (a : Actor) (i : Nat) :
    h.command a Od.progCommand i 2 = (h.progCommit a i) := by
  unfold Hw.command
  rw [if_neg (show ¬ Od.progCommand = Od.dictCommand by decide), if_neg (show ¬ Od.progCommand = Od.lcCommand by decide),
    if_neg (show ¬ Od.progCommand = Od.tamperAck by decide), if_neg (show ¬ Od.progCommand = Od.wkCommand by decide),
    if_neg (show ¬ Od.progCommand = Od.partCommand by decide), if_neg (show ¬ Od.progCommand = Od.cohLostAccept by decide),
    if_neg (show ¬ Od.progCommand = Od.portCommand by decide), if_neg (show ¬ Od.progCommand = Od.testCommand by decide),
    if_neg (show ¬ Od.progCommand = Od.engCommand by decide), if_pos rfl]
  rfl

theorem Hw.command_progCommand_3 (h : Hw) (a : Actor) (i : Nat) :
    h.command a Od.progCommand i 3 = (h.progDelete a i) := by
  unfold Hw.command
  rw [if_neg (show ¬ Od.progCommand = Od.dictCommand by decide), if_neg (show ¬ Od.progCommand = Od.lcCommand by decide),
    if_neg (show ¬ Od.progCommand = Od.tamperAck by decide), if_neg (show ¬ Od.progCommand = Od.wkCommand by decide),
    if_neg (show ¬ Od.progCommand = Od.partCommand by decide), if_neg (show ¬ Od.progCommand = Od.cohLostAccept by decide),
    if_neg (show ¬ Od.progCommand = Od.portCommand by decide), if_neg (show ¬ Od.progCommand = Od.testCommand by decide),
    if_neg (show ¬ Od.progCommand = Od.engCommand by decide), if_pos rfl]
  rfl

theorem Hw.command_redCommand_1 (h : Hw) (a : Actor) (i : Nat) :
    h.command a Od.redCommand i 1 = (h.openSession a i) := by
  unfold Hw.command
  rw [if_neg (show ¬ Od.redCommand = Od.dictCommand by decide), if_neg (show ¬ Od.redCommand = Od.lcCommand by decide),
    if_neg (show ¬ Od.redCommand = Od.tamperAck by decide), if_neg (show ¬ Od.redCommand = Od.wkCommand by decide),
    if_neg (show ¬ Od.redCommand = Od.partCommand by decide), if_neg (show ¬ Od.redCommand = Od.cohLostAccept by decide),
    if_neg (show ¬ Od.redCommand = Od.portCommand by decide), if_neg (show ¬ Od.redCommand = Od.testCommand by decide),
    if_neg (show ¬ Od.redCommand = Od.engCommand by decide), if_neg (show ¬ Od.redCommand = Od.progCommand by decide),
    if_pos rfl]
  rfl

theorem Hw.command_redCommand_2 (h : Hw) (a : Actor) (i : Nat) :
    h.command a Od.redCommand i 2 = (h.abortCommand a i) := by
  unfold Hw.command
  rw [if_neg (show ¬ Od.redCommand = Od.dictCommand by decide), if_neg (show ¬ Od.redCommand = Od.lcCommand by decide),
    if_neg (show ¬ Od.redCommand = Od.tamperAck by decide), if_neg (show ¬ Od.redCommand = Od.wkCommand by decide),
    if_neg (show ¬ Od.redCommand = Od.partCommand by decide), if_neg (show ¬ Od.redCommand = Od.cohLostAccept by decide),
    if_neg (show ¬ Od.redCommand = Od.portCommand by decide), if_neg (show ¬ Od.redCommand = Od.testCommand by decide),
    if_neg (show ¬ Od.redCommand = Od.engCommand by decide), if_neg (show ¬ Od.redCommand = Od.progCommand by decide),
    if_pos rfl]
  rfl

theorem Hw.command_redCommand_3 (h : Hw) (a : Actor) (i : Nat) :
    h.command a Od.redCommand i 3 = (h.closeSession a i) := by
  unfold Hw.command
  rw [if_neg (show ¬ Od.redCommand = Od.dictCommand by decide), if_neg (show ¬ Od.redCommand = Od.lcCommand by decide),
    if_neg (show ¬ Od.redCommand = Od.tamperAck by decide), if_neg (show ¬ Od.redCommand = Od.wkCommand by decide),
    if_neg (show ¬ Od.redCommand = Od.partCommand by decide), if_neg (show ¬ Od.redCommand = Od.cohLostAccept by decide),
    if_neg (show ¬ Od.redCommand = Od.portCommand by decide), if_neg (show ¬ Od.redCommand = Od.testCommand by decide),
    if_neg (show ¬ Od.redCommand = Od.engCommand by decide), if_neg (show ¬ Od.redCommand = Od.progCommand by decide),
    if_pos rfl]
  rfl

theorem Hw.command_redCommand_4 (h : Hw) (a : Actor) (i : Nat) :
    h.command a Od.redCommand i 4 = (h.excludeCommand a i) := by
  unfold Hw.command
  rw [if_neg (show ¬ Od.redCommand = Od.dictCommand by decide), if_neg (show ¬ Od.redCommand = Od.lcCommand by decide),
    if_neg (show ¬ Od.redCommand = Od.tamperAck by decide), if_neg (show ¬ Od.redCommand = Od.wkCommand by decide),
    if_neg (show ¬ Od.redCommand = Od.partCommand by decide), if_neg (show ¬ Od.redCommand = Od.cohLostAccept by decide),
    if_neg (show ¬ Od.redCommand = Od.portCommand by decide), if_neg (show ¬ Od.redCommand = Od.testCommand by decide),
    if_neg (show ¬ Od.redCommand = Od.engCommand by decide), if_neg (show ¬ Od.redCommand = Od.progCommand by decide),
    if_pos rfl]
  rfl

theorem Hw.command_redCommand_5 (h : Hw) (a : Actor) (i : Nat) :
    h.command a Od.redCommand i 5 = (h.rearmCommand a i) := by
  unfold Hw.command
  rw [if_neg (show ¬ Od.redCommand = Od.dictCommand by decide), if_neg (show ¬ Od.redCommand = Od.lcCommand by decide),
    if_neg (show ¬ Od.redCommand = Od.tamperAck by decide), if_neg (show ¬ Od.redCommand = Od.wkCommand by decide),
    if_neg (show ¬ Od.redCommand = Od.partCommand by decide), if_neg (show ¬ Od.redCommand = Od.cohLostAccept by decide),
    if_neg (show ¬ Od.redCommand = Od.portCommand by decide), if_neg (show ¬ Od.redCommand = Od.testCommand by decide),
    if_neg (show ¬ Od.redCommand = Od.engCommand by decide), if_neg (show ¬ Od.redCommand = Od.progCommand by decide),
    if_pos rfl]
  rfl

theorem Hw.command_pairCommand_1 (h : Hw) (a : Actor) (i : Nat) :
    h.command a Od.pairCommand i 1 = (h.form a) := by
  unfold Hw.command
  rw [if_neg (show ¬ Od.pairCommand = Od.dictCommand by decide), if_neg (show ¬ Od.pairCommand = Od.lcCommand by decide),
    if_neg (show ¬ Od.pairCommand = Od.tamperAck by decide), if_neg (show ¬ Od.pairCommand = Od.wkCommand by decide),
    if_neg (show ¬ Od.pairCommand = Od.partCommand by decide), if_neg (show ¬ Od.pairCommand = Od.cohLostAccept by decide),
    if_neg (show ¬ Od.pairCommand = Od.portCommand by decide), if_neg (show ¬ Od.pairCommand = Od.testCommand by decide),
    if_neg (show ¬ Od.pairCommand = Od.engCommand by decide), if_neg (show ¬ Od.pairCommand = Od.progCommand by decide),
    if_neg (show ¬ Od.pairCommand = Od.redCommand by decide), if_pos rfl]
  rfl

theorem Hw.command_pairCommand_2 (h : Hw) (a : Actor) (i : Nat) :
    h.command a Od.pairCommand i 2 = (h.rejoin a) := by
  unfold Hw.command
  rw [if_neg (show ¬ Od.pairCommand = Od.dictCommand by decide), if_neg (show ¬ Od.pairCommand = Od.lcCommand by decide),
    if_neg (show ¬ Od.pairCommand = Od.tamperAck by decide), if_neg (show ¬ Od.pairCommand = Od.wkCommand by decide),
    if_neg (show ¬ Od.pairCommand = Od.partCommand by decide), if_neg (show ¬ Od.pairCommand = Od.cohLostAccept by decide),
    if_neg (show ¬ Od.pairCommand = Od.portCommand by decide), if_neg (show ¬ Od.pairCommand = Od.testCommand by decide),
    if_neg (show ¬ Od.pairCommand = Od.engCommand by decide), if_neg (show ¬ Od.pairCommand = Od.progCommand by decide),
    if_neg (show ¬ Od.pairCommand = Od.redCommand by decide), if_pos rfl]
  rfl

theorem Hw.command_pairCommand_3 (h : Hw) (a : Actor) (i : Nat) :
    h.command a Od.pairCommand i 3 = (h.relinquish a) := by
  unfold Hw.command
  rw [if_neg (show ¬ Od.pairCommand = Od.dictCommand by decide), if_neg (show ¬ Od.pairCommand = Od.lcCommand by decide),
    if_neg (show ¬ Od.pairCommand = Od.tamperAck by decide), if_neg (show ¬ Od.pairCommand = Od.wkCommand by decide),
    if_neg (show ¬ Od.pairCommand = Od.partCommand by decide), if_neg (show ¬ Od.pairCommand = Od.cohLostAccept by decide),
    if_neg (show ¬ Od.pairCommand = Od.portCommand by decide), if_neg (show ¬ Od.pairCommand = Od.testCommand by decide),
    if_neg (show ¬ Od.pairCommand = Od.engCommand by decide), if_neg (show ¬ Od.pairCommand = Od.progCommand by decide),
    if_neg (show ¬ Od.pairCommand = Od.redCommand by decide), if_pos rfl]
  rfl

theorem Hw.command_routeAck_1 (h : Hw) (a : Actor) (i : Nat) :
    h.command a Od.routeAck i 1 = (h.setReg Od.routePending i 0) := by
  unfold Hw.command
  rw [if_neg (show ¬ Od.routeAck = Od.dictCommand by decide), if_neg (show ¬ Od.routeAck = Od.lcCommand by decide),
    if_neg (show ¬ Od.routeAck = Od.tamperAck by decide), if_neg (show ¬ Od.routeAck = Od.wkCommand by decide),
    if_neg (show ¬ Od.routeAck = Od.partCommand by decide), if_neg (show ¬ Od.routeAck = Od.cohLostAccept by decide),
    if_neg (show ¬ Od.routeAck = Od.portCommand by decide), if_neg (show ¬ Od.routeAck = Od.testCommand by decide),
    if_neg (show ¬ Od.routeAck = Od.engCommand by decide), if_neg (show ¬ Od.routeAck = Od.progCommand by decide),
    if_neg (show ¬ Od.routeAck = Od.redCommand by decide), if_neg (show ¬ Od.routeAck = Od.pairCommand by decide), if_pos rfl]

theorem Hw.command_wmCommand_1 (h : Hw) (a : Actor) (i : Nat) :
    h.command a Od.wmCommand i 1 = (h.armWm i) := by
  unfold Hw.command
  rw [if_neg (show ¬ Od.wmCommand = Od.dictCommand by decide), if_neg (show ¬ Od.wmCommand = Od.lcCommand by decide),
    if_neg (show ¬ Od.wmCommand = Od.tamperAck by decide), if_neg (show ¬ Od.wmCommand = Od.wkCommand by decide),
    if_neg (show ¬ Od.wmCommand = Od.partCommand by decide), if_neg (show ¬ Od.wmCommand = Od.cohLostAccept by decide),
    if_neg (show ¬ Od.wmCommand = Od.portCommand by decide), if_neg (show ¬ Od.wmCommand = Od.testCommand by decide),
    if_neg (show ¬ Od.wmCommand = Od.engCommand by decide), if_neg (show ¬ Od.wmCommand = Od.progCommand by decide),
    if_neg (show ¬ Od.wmCommand = Od.redCommand by decide), if_neg (show ¬ Od.wmCommand = Od.pairCommand by decide),
    if_neg (show ¬ Od.wmCommand = Od.routeAck by decide), if_pos rfl]
  rw [if_pos rfl]

theorem Hw.command_wmCommand_2 (h : Hw) (a : Actor) (i : Nat) :
    h.command a Od.wmCommand i 2 = ((h.setReg Od.wmCount i 0).setReg Od.wmCrossed i 0) := by
  unfold Hw.command
  rw [if_neg (show ¬ Od.wmCommand = Od.dictCommand by decide), if_neg (show ¬ Od.wmCommand = Od.lcCommand by decide),
    if_neg (show ¬ Od.wmCommand = Od.tamperAck by decide), if_neg (show ¬ Od.wmCommand = Od.wkCommand by decide),
    if_neg (show ¬ Od.wmCommand = Od.partCommand by decide), if_neg (show ¬ Od.wmCommand = Od.cohLostAccept by decide),
    if_neg (show ¬ Od.wmCommand = Od.portCommand by decide), if_neg (show ¬ Od.wmCommand = Od.testCommand by decide),
    if_neg (show ¬ Od.wmCommand = Od.engCommand by decide), if_neg (show ¬ Od.wmCommand = Od.progCommand by decide),
    if_neg (show ¬ Od.wmCommand = Od.redCommand by decide), if_neg (show ¬ Od.wmCommand = Od.pairCommand by decide),
    if_neg (show ¬ Od.wmCommand = Od.routeAck by decide), if_pos rfl]
  rw [if_neg (by decide)]

theorem Hw.command_fixCommand_1 (h : Hw) (a : Actor) (i : Nat) :
    h.command a Od.fixCommand i 1 = (if h.roleOf a = .o ∧ (h.partOf (i / 64)).isSome = true then h.ignore a Od.fixCommand i Why.target else h.fixClear i) := by
  unfold Hw.command
  rw [if_neg (show ¬ Od.fixCommand = Od.dictCommand by decide), if_neg (show ¬ Od.fixCommand = Od.lcCommand by decide),
    if_neg (show ¬ Od.fixCommand = Od.tamperAck by decide), if_neg (show ¬ Od.fixCommand = Od.wkCommand by decide),
    if_neg (show ¬ Od.fixCommand = Od.partCommand by decide), if_neg (show ¬ Od.fixCommand = Od.cohLostAccept by decide),
    if_neg (show ¬ Od.fixCommand = Od.portCommand by decide), if_neg (show ¬ Od.fixCommand = Od.testCommand by decide),
    if_neg (show ¬ Od.fixCommand = Od.engCommand by decide), if_neg (show ¬ Od.fixCommand = Od.progCommand by decide),
    if_neg (show ¬ Od.fixCommand = Od.redCommand by decide), if_neg (show ¬ Od.fixCommand = Od.pairCommand by decide),
    if_neg (show ¬ Od.fixCommand = Od.routeAck by decide), if_neg (show ¬ Od.fixCommand = Od.wmCommand by decide), if_pos rfl]

theorem Hw.command_selCommand_1 (h : Hw) (a : Actor) (i : Nat) :
    h.command a Od.selCommand i 1 = (h.selClear i) := by
  unfold Hw.command
  rw [if_neg (show ¬ Od.selCommand = Od.dictCommand by decide), if_neg (show ¬ Od.selCommand = Od.lcCommand by decide),
    if_neg (show ¬ Od.selCommand = Od.tamperAck by decide), if_neg (show ¬ Od.selCommand = Od.wkCommand by decide),
    if_neg (show ¬ Od.selCommand = Od.partCommand by decide), if_neg (show ¬ Od.selCommand = Od.cohLostAccept by decide),
    if_neg (show ¬ Od.selCommand = Od.portCommand by decide), if_neg (show ¬ Od.selCommand = Od.testCommand by decide),
    if_neg (show ¬ Od.selCommand = Od.engCommand by decide), if_neg (show ¬ Od.selCommand = Od.progCommand by decide),
    if_neg (show ¬ Od.selCommand = Od.redCommand by decide), if_neg (show ¬ Od.selCommand = Od.pairCommand by decide),
    if_neg (show ¬ Od.selCommand = Od.routeAck by decide), if_neg (show ¬ Od.selCommand = Od.wmCommand by decide),
    if_neg (show ¬ Od.selCommand = Od.fixCommand by decide), if_pos rfl]

theorem Hw.command_cntCommand (h : Hw) (a : Actor) (i : Nat) (v : Nat) :
    h.command a Od.cntCommand i v = (h.countCommand a v) := by
  unfold Hw.command
  rw [if_neg (show ¬ Od.cntCommand = Od.dictCommand by decide), if_neg (show ¬ Od.cntCommand = Od.lcCommand by decide),
    if_neg (show ¬ Od.cntCommand = Od.tamperAck by decide), if_neg (show ¬ Od.cntCommand = Od.wkCommand by decide),
    if_neg (show ¬ Od.cntCommand = Od.partCommand by decide), if_neg (show ¬ Od.cntCommand = Od.cohLostAccept by decide),
    if_neg (show ¬ Od.cntCommand = Od.portCommand by decide), if_neg (show ¬ Od.cntCommand = Od.testCommand by decide),
    if_neg (show ¬ Od.cntCommand = Od.engCommand by decide), if_neg (show ¬ Od.cntCommand = Od.progCommand by decide),
    if_neg (show ¬ Od.cntCommand = Od.redCommand by decide), if_neg (show ¬ Od.cntCommand = Od.pairCommand by decide),
    if_neg (show ¬ Od.cntCommand = Od.routeAck by decide), if_neg (show ¬ Od.cntCommand = Od.wmCommand by decide),
    if_neg (show ¬ Od.cntCommand = Od.fixCommand by decide), if_neg (show ¬ Od.cntCommand = Od.selCommand by decide),
    if_pos rfl]

theorem Hw.store_leaseGrant (h : Hw) (a : Actor) (i e v : Nat) :
    h.store a Od.leaseGrant i e v = h.leaseGrant a v := by
  unfold Hw.store
  rw [show selectRing Od.leaseGrant = none from rfl]
  dsimp only
  rw [if_pos rfl]

theorem Hw.store_pairEpoch (h : Hw) (a : Actor) (i e v : Nat) :
    h.store a Od.pairEpoch i e v = h.writePairEpoch v := by
  unfold Hw.store
  rw [show selectRing Od.pairEpoch = none from rfl]
  dsimp only
  rw [if_neg (show ¬ Od.pairEpoch = Od.leaseGrant by decide), if_pos rfl]

theorem Hw.store_wkKey (h : Hw) (a : Actor) (i e v : Nat) :
    h.store a Od.wkKey i e v = h.writeWeightKey a i (BitVec.ofNat 256 v) := by
  unfold Hw.store
  rw [show selectRing Od.wkKey = none from rfl]
  dsimp only
  rw [if_neg (show ¬ Od.wkKey = Od.leaseGrant by decide), if_neg (show ¬ Od.wkKey = Od.pairEpoch by decide), if_pos rfl]

theorem Hw.store_keyInstall (h : Hw) (a : Actor) (i e v : Nat) :
    h.store a Od.keyInstall i e v = h.installKey a i (BitVec.ofNat 512 v) := by
  unfold Hw.store
  rw [show selectRing Od.keyInstall = none from rfl]
  dsimp only
  rw [if_neg (show ¬ Od.keyInstall = Od.leaseGrant by decide), if_neg (show ¬ Od.keyInstall = Od.pairEpoch by decide),
    if_neg (show ¬ Od.keyInstall = Od.wkKey by decide), if_pos rfl]

theorem Hw.store_secConsentDebug (h : Hw) (a : Actor) (i e v : Nat) :
    h.store a Od.secConsentDebug i e v = (h.writeConsent i v).runStalled := by
  unfold Hw.store
  rw [show selectRing Od.secConsentDebug = none from rfl]
  dsimp only
  rw [if_neg (show ¬ Od.secConsentDebug = Od.leaseGrant by decide),
    if_neg (show ¬ Od.secConsentDebug = Od.pairEpoch by decide), if_neg (show ¬ Od.secConsentDebug = Od.wkKey by decide),
    if_neg (show ¬ Od.secConsentDebug = Od.keyInstall by decide), if_pos rfl]

theorem Hw.store_reqState (h : Hw) (a : Actor) (i e v : Nat) :
    h.store a Od.reqState i e v = h.writeReqState a i v := by
  unfold Hw.store
  rw [show selectRing Od.reqState = none from rfl]
  dsimp only
  rw [if_neg (show ¬ Od.reqState = Od.leaseGrant by decide), if_neg (show ¬ Od.reqState = Od.pairEpoch by decide),
    if_neg (show ¬ Od.reqState = Od.wkKey by decide), if_neg (show ¬ Od.reqState = Od.keyInstall by decide),
    if_neg (show ¬ Od.reqState = Od.secConsentDebug by decide), if_pos rfl]

theorem Hw.store_serviceMode (h : Hw) (a : Actor) (i e v : Nat) :
    h.store a Od.serviceMode i e v = h.writeServiceMode a v := by
  unfold Hw.store
  rw [show selectRing Od.serviceMode = none from rfl]
  dsimp only
  rw [if_neg (show ¬ Od.serviceMode = Od.leaseGrant by decide), if_neg (show ¬ Od.serviceMode = Od.pairEpoch by decide),
    if_neg (show ¬ Od.serviceMode = Od.wkKey by decide), if_neg (show ¬ Od.serviceMode = Od.keyInstall by decide),
    if_neg (show ¬ Od.serviceMode = Od.secConsentDebug by decide), if_neg (show ¬ Od.serviceMode = Od.reqState by decide),
    if_pos rfl]

theorem Hw.store_retirePage (h : Hw) (a : Actor) (i e v : Nat) :
    h.store a Od.retirePage i e v = h.retire a v := by
  unfold Hw.store
  rw [show selectRing Od.retirePage = none from rfl]
  dsimp only
  rw [if_neg (show ¬ Od.retirePage = Od.leaseGrant by decide), if_neg (show ¬ Od.retirePage = Od.pairEpoch by decide),
    if_neg (show ¬ Od.retirePage = Od.wkKey by decide), if_neg (show ¬ Od.retirePage = Od.keyInstall by decide),
    if_neg (show ¬ Od.retirePage = Od.secConsentDebug by decide), if_neg (show ¬ Od.retirePage = Od.reqState by decide),
    if_neg (show ¬ Od.retirePage = Od.serviceMode by decide), if_pos rfl]

theorem Hw.store_retireClear (h : Hw) (a : Actor) (i e v : Nat) :
    h.store a Od.retireClear i e v = h.clearRetired a v := by
  unfold Hw.store
  rw [show selectRing Od.retireClear = none from rfl]
  dsimp only
  rw [if_neg (show ¬ Od.retireClear = Od.leaseGrant by decide), if_neg (show ¬ Od.retireClear = Od.pairEpoch by decide),
    if_neg (show ¬ Od.retireClear = Od.wkKey by decide), if_neg (show ¬ Od.retireClear = Od.keyInstall by decide),
    if_neg (show ¬ Od.retireClear = Od.secConsentDebug by decide), if_neg (show ¬ Od.retireClear = Od.reqState by decide),
    if_neg (show ¬ Od.retireClear = Od.serviceMode by decide), if_neg (show ¬ Od.retireClear = Od.retirePage by decide),
    if_pos rfl]

theorem Hw.store_progStep (h : Hw) (a : Actor) (i e v : Nat) :
    h.store a Od.progStep i e v = h.progStepWrite a i (BitVec.ofNat 128 v) := by
  unfold Hw.store
  rw [show selectRing Od.progStep = none from rfl]
  dsimp only
  rw [if_neg (show ¬ Od.progStep = Od.leaseGrant by decide), if_neg (show ¬ Od.progStep = Od.pairEpoch by decide),
    if_neg (show ¬ Od.progStep = Od.wkKey by decide), if_neg (show ¬ Od.progStep = Od.keyInstall by decide),
    if_neg (show ¬ Od.progStep = Od.secConsentDebug by decide), if_neg (show ¬ Od.progStep = Od.reqState by decide),
    if_neg (show ¬ Od.progStep = Od.serviceMode by decide), if_neg (show ¬ Od.progStep = Od.retirePage by decide),
    if_neg (show ¬ Od.progStep = Od.retireClear by decide), if_pos rfl]

theorem Hw.store_smpSeed (h : Hw) (a : Actor) (i e v : Nat) :
    h.store a Od.smpSeed i e v = h.loadSeed v := by
  unfold Hw.store
  rw [show selectRing Od.smpSeed = none from rfl]
  dsimp only
  rw [if_neg (show ¬ Od.smpSeed = Od.leaseGrant by decide), if_neg (show ¬ Od.smpSeed = Od.pairEpoch by decide),
    if_neg (show ¬ Od.smpSeed = Od.wkKey by decide), if_neg (show ¬ Od.smpSeed = Od.keyInstall by decide),
    if_neg (show ¬ Od.smpSeed = Od.secConsentDebug by decide), if_neg (show ¬ Od.smpSeed = Od.reqState by decide),
    if_neg (show ¬ Od.smpSeed = Od.serviceMode by decide), if_neg (show ¬ Od.smpSeed = Od.retirePage by decide),
    if_neg (show ¬ Od.smpSeed = Od.retireClear by decide), if_neg (show ¬ Od.smpSeed = Od.progStep by decide), if_pos rfl]

theorem Hw.store_selSource (h : Hw) (a : Actor) (i e v : Nat) :
    h.store a Od.selSource i e v = (h.setReg Od.selSource i v).setReg Od.selCount i 0 := by
  unfold Hw.store
  rfl

theorem Hw.store_selInstance (h : Hw) (a : Actor) (i e v : Nat) :
    h.store a Od.selInstance i e v = (h.setReg Od.selInstance i v).setReg Od.selCount i 0 := by
  unfold Hw.store
  rfl

end Sys2Proof.Machine
end

