-- ==== Sys2Proof/Laws/FrameAdp.lean ====
section
/-! SUPPORT. What each operation and command of Machine/Adp.lean changes, and that it keeps canonical tables. -/

namespace Sys2Proof.Machine

theorem Hw.readObject_within (h : Hw) (a : Actor) (r : Reg) (i : Nat) (first : Nat) (n : Nat) :
    Hw.Within 2 h (Hw.readObject h a r i first n).2 := by
  unfold Hw.readObject
  repeat' first
    | extract_lets +onlyGivenNames v0; clear_value (e0 : v0 = _); clear e0
    | with_reducible apply Hw.Within.refl
    | with_reducible apply Hw.Within.step (Hw.draw_within ..); decide
    | with_reducible apply Hw.Within.ite2
    | split

theorem Hw.odwServe_within (h : Hw) (uid : Nat) :
    Hw.Within 165263992197562149737978827008192759957101170741070304821162198818601447809077836456297302609928821211897803006255831186942 h (Hw.odwServe h uid) := by
  unfold Hw.odwServe
  repeat' first
    | intro _
    | extract_lets +onlyGivenNames v0; clear_value (e0 : v0 = _); clear e0
    | with_reducible apply Hw.Within.refl
    | with_reducible assumption
    | with_reducible apply Hw.Within.step (Hw.complete_within ..); decide
    | with_reducible apply Hw.Within.step (Hw.sendSpan_within ..); decide
    | with_reducible apply Hw.Within.step (Hw.setTrk_within ..); decide
    | with_reducible apply Hw.Within.step (Hw.readObject_within ..); decide
    | with_reducible apply Hw.Within.step (Hw.writeItem_within ..); decide
    | with_reducible apply Hw.Within.ite
    | (split <;> (rename_i e0; with_reducible apply Hw.Within.snd; case e => with_reducible apply e0))
    | split

theorem execRefusalResponseDue_within (st : State) :
    ∃ k, execRefusalResponseDue st = .next { st with hw := k } ∧ st.hw.Within 2097152 k := by
  refine ⟨_, rfl, ?_⟩
  generalize st.hw = h
  beta_reduce
  repeat' first
    | extract_lets +onlyGivenNames v0; clear_value (e0 : v0 = _); clear e0
    | rw [Hw.mk_msg]
    | with_reducible apply Hw.Within.refl
    | with_reducible apply Hw.Within.step (Hw.sendMs_within ..); decide
    | with_reducible apply Hw.Within.step (Hw.putMsg_within ..); decide
    | with_reducible apply Hw.Within.ite
    | split

theorem execNotify_within (slot : Fin 256) (st : State) :
    ∃ k, execNotify slot st = .next { st with hw := k } ∧ st.hw.Within 2097152 k := by
  refine ⟨_, rfl, ?_⟩
  generalize st.hw = h
  beta_reduce
  repeat' first
    | intro _
    | extract_lets +onlyGivenNames v0; clear_value (e0 : v0 = _); (first | (with_reducible apply Hw.Within.let1 e0) | (with_reducible apply Hw.Within.letFnL2 e0) | clear e0)
    | rw [Hw.mk_msg]
    | with_reducible apply Hw.Within.refl
    | with_reducible assumption
    | with_reducible apply Hw.Within.step (Hw.sendMs_within ..); decide
    | with_reducible apply Hw.Within.step (Hw.putMsg_within ..); decide
    | with_reducible apply Hw.Within.ite
    | split
    | with_reducible apply_assumption -exfalso -symm

theorem Hw.adpPass_within (h : Hw) (op : Nat) (reqId : Nat) (items : List Item) :
    Hw.Within 2048 h (Hw.adpPass h op reqId items) := by
  unfold Hw.adpPass
  repeat' first
    | with_reducible apply Hw.Within.refl
    | with_reducible apply Hw.Within.step (Hw.sendSpan_within ..); decide

theorem Hw.adpReply_within (h : Hw) (s : Option Nat) (op : Nat) (status : Nat) (reqId : Nat) (items : List (Nat × Nat × List Byte)) :
    Hw.Within 2097152 h (Hw.adpReply h s op status reqId items) := by
  unfold Hw.adpReply
  repeat' first
    | extract_lets +onlyGivenNames v0; clear_value (e0 : v0 = _); clear e0
    | rw [Hw.mk_msg]
    | with_reducible apply Hw.Within.refl
    | with_reducible apply Hw.Within.step (Hw.sendMs_within ..); decide
    | with_reducible apply Hw.Within.step (Hw.putMsg_within ..); decide
    | with_reducible apply Hw.Within.ite

theorem Hw.adpMalformed_within (h : Hw) (s : Option Nat) (op : Nat) (reqId : Nat) (items : List Item) (ok : Item → Bool) :
    Hw.Within 2097152 h (Hw.adpMalformed h s op reqId items ok) := by
  unfold Hw.adpMalformed
  repeat' first
    | with_reducible apply Hw.Within.refl
    | with_reducible apply Hw.Within.step (Hw.adpReply_within ..); decide

theorem Hw.adpRead_within (h : Hw) (s : Option Nat) (op : Nat) (reqId : Nat) (items : List Item) :
    Hw.Within 3147778 h (Hw.adpRead h s op reqId items) := by
  unfold Hw.adpRead
  repeat' first
    | intro _
    | extract_lets +onlyGivenNames v0; clear_value (e0 : v0 = _); (first | (with_reducible apply Hw.Within.let1 e0) | (with_reducible apply Hw.Within.let2 e0) | clear e0)
    | with_reducible apply Hw.Within.refl
    | with_reducible assumption
    | with_reducible apply Hw.Within.step (Hw.touch_within ..); decide
    | with_reducible apply Hw.Within.step (Hw.adpPass_within ..); decide
    | with_reducible apply Hw.Within.step (Hw.adpReply_within ..); decide
    | with_reducible apply Hw.Within.step (Hw.adpMalformed_within ..); decide
    | with_reducible apply Hw.Within.step (Hw.readObject_within ..); decide
    | with_reducible apply Hw.Within.ite
    | with_reducible apply Hw.Within.fold2
    | (split <;> (rename_i e0; with_reducible apply Hw.Within.snd; case e => with_reducible apply e0))
    | split

theorem execPeek_within (s : Option SpdmIx) (reqId : BitVec 16) (items : List Item) (st : State) :
    ∃ k, execPeek s reqId items st = .next { st with hw := k } ∧ st.hw.Within 3147778 k := by
  refine ⟨_, rfl, ?_⟩
  generalize st.hw = h
  beta_reduce
  repeat' first
    | with_reducible apply Hw.Within.refl
    | with_reducible apply Hw.Within.step (Hw.adpRead_within ..); decide

theorem Hw.applyItem_within (h : Hw) (a : Actor) (items : List Item) (it : Item) :
    Hw.Within 165263992197562149737978827008192759957101170741070304821162198818601447809077836456297302609928821211897803006255831186940 h (Hw.applyItem h a items it).2 := by
  unfold Hw.applyItem
  repeat' first
    | extract_lets +onlyGivenNames v0; clear_value (e0 : v0 = _); clear e0
    | with_reducible apply Hw.Within.refl
    | with_reducible apply Hw.Within.step (Hw.passOn_within ..); decide
    | with_reducible apply Hw.Within.step (Hw.writeItem_within ..); decide
    | with_reducible apply Hw.Within.ite2
    | split

/-- Items applied in order change what one item changes. -/
theorem Hw.applyItems_within (h : Hw) (a : Actor) (items : List Item) (x : List (Nat × Nat) × Hw)
    (hx : Hw.applyItems h a items = some x) : Hw.Within 165263992197562149737978827008192759957101170741070304821162198818601447809077836456297302609928821211897803006255831186940 h x.2 := by
  unfold Hw.applyItems at hx
  have key : ∀ (l : List (Item × Nat)) (b : Option (List (Nat × Nat) × Hw)) (y : List (Nat × Nat) × Hw),
      (∀ z, b = some z → Hw.Within 165263992197562149737978827008192759957101170741070304821162198818601447809077836456297302609928821211897803006255831186940 h z.2) →
      l.foldl (fun (b : Option (List (Nat × Nat) × Hw)) x =>
        b.bind (fun b =>
          let r := itemReg x.1
          let i := itemInst x.1
          if b.2.mayWriteAll a r i (b.2.elemsIn r i x.1.value) then
            let (st, h) := b.2.applyItem a items x.1
            some (b.1 ++ [(x.2, st)], h)
          else none)) b = some y → Hw.Within 165263992197562149737978827008192759957101170741070304821162198818601447809077836456297302609928821211897803006255831186940 h y.2 := by
    intro l
    induction l with
    | nil => intro b y hb hy; exact hb y hy
    | cons x l ih =>
      intro b y hb hy
      refine ih _ y (fun z hz => ?_) hy
      cases b with
      | none => cases hz
      | some b =>
        simp only [Option.bind_some] at hz
        split at hz
        · cases hz
          exact Hw.Within.step (Hw.applyItem_within ..) (by decide) (hb b rfl)
        · cases hz
  exact key _ _ x (fun z hz => by cases hz; exact Hw.Within.refl _ _) hx

theorem Hw.adpWrite_within (h : Hw) (s : Option Nat) (op : Nat) (reqId : Nat) (items : List Item) :
    Hw.Within 165263992197562149737978827008192759957101170741070304821162198818601447809077836456297302609928821211897803006255831186940 h (Hw.adpWrite h s op reqId items) := by
  unfold Hw.adpWrite
  repeat' first
    | intro _
    | extract_lets +onlyGivenNames v0; clear_value (e0 : v0 = _); (first | (with_reducible apply Hw.Within.let1 e0) | clear e0)
    | with_reducible apply Hw.Within.refl
    | with_reducible assumption
    | with_reducible apply Hw.Within.step (Hw.touch_within ..); decide
    | with_reducible apply Hw.Within.step (Hw.adpPass_within ..); decide
    | with_reducible apply Hw.Within.step (Hw.adpReply_within ..); decide
    | with_reducible apply Hw.Within.step (Hw.adpMalformed_within ..); decide
    | with_reducible apply Hw.Within.ite
    | split
  rename_i w hw _ _ _ _ e _
  exact Hw.Within.step (Hw.applyItems_within _ _ _ _ e) (by decide) hw

theorem execMultiWrite_within (s : Option SpdmIx) (reqId : BitVec 16) (items : List Item) (st : State) :
    ∃ k, execMultiWrite s reqId items st = .next { st with hw := k } ∧ st.hw.Within 165263992197562149737978827008192759957101170741070304821162198818601447809077836456297302609928821211897803006255831186940 k := by
  refine ⟨_, rfl, ?_⟩
  generalize st.hw = h
  beta_reduce
  repeat' first
    | with_reducible apply Hw.Within.refl
    | with_reducible apply Hw.Within.step (Hw.adpWrite_within ..); decide

theorem execSubscribe_within (s : SpdmIx) (reqId : BitVec 16) (item : Item) (st : State) :
    ∃ k, execSubscribe s reqId item st = .next { st with hw := k } ∧ st.hw.Within 3147776 k := by
  refine ⟨_, rfl, ?_⟩
  generalize st.hw = h
  beta_reduce
  repeat' first
    | intro _
    | extract_lets +onlyGivenNames v0; clear_value (e0 : v0 = _); (first | (with_reducible apply Hw.Within.let1 e0) | (with_reducible apply Hw.Within.letFnL e0) | clear e0)
    | rw [Hw.mk_msg]
    | with_reducible apply Hw.Within.refl
    | with_reducible assumption
    | with_reducible apply Hw.Within.step (Hw.touch_within ..); decide
    | with_reducible apply Hw.Within.step (Hw.adpReply_within ..); decide
    | with_reducible apply Hw.Within.step (Hw.adpPass_within ..); decide
    | with_reducible apply Hw.Within.step (Hw.adpMalformed_within ..); decide
    | with_reducible apply Hw.Within.step (Hw.putMsg_within ..); decide
    | with_reducible apply Hw.Within.ite
    | split
    | with_reducible apply_assumption -exfalso -symm

theorem execWrite_within (s : Option SpdmIx) (reqId : BitVec 16) (item : Item) (st : State) :
    ∃ k, execWrite s reqId item st = .next { st with hw := k } ∧ st.hw.Within 165263992197562149737978827008192759957101170741070304821162198818601447809077836456297302609928821211897803006255831186940 k := by
  refine ⟨_, rfl, ?_⟩
  generalize st.hw = h
  beta_reduce
  repeat' first
    | with_reducible apply Hw.Within.refl
    | with_reducible apply Hw.Within.step (Hw.adpWrite_within ..); decide

theorem execUnsubscribe_within (s : SpdmIx) (reqId : BitVec 16) (item : Item) (st : State) :
    ∃ k, execUnsubscribe s reqId item st = .next { st with hw := k } ∧ st.hw.Within 3147776 k := by
  refine ⟨_, rfl, ?_⟩
  generalize st.hw = h
  beta_reduce
  repeat' first
    | intro _
    | extract_lets +onlyGivenNames v0; clear_value (e0 : v0 = _); (first | (with_reducible apply Hw.Within.let1 e0) | clear e0)
    | rw [Hw.mk_msg]
    | with_reducible apply Hw.Within.refl
    | with_reducible assumption
    | with_reducible apply Hw.Within.step (Hw.touch_within ..); decide
    | with_reducible apply Hw.Within.step (Hw.adpPass_within ..); decide
    | with_reducible apply Hw.Within.step (Hw.adpMalformed_within ..); decide
    | with_reducible apply Hw.Within.step (Hw.adpReply_within ..); decide
    | with_reducible apply Hw.Within.step (Hw.putMsg_within ..); decide
    | with_reducible apply Hw.Within.ite

theorem execRegisterWrite_within (who : Actor) (index : BitVec 16) (inst : BitVec 12) (sub : BitVec 8) (elem : BitVec 12) (value : Nat) (s : State) :
    ∃ k, execRegisterWrite who index inst sub elem value s = .next { s with hw := k } ∧ s.hw.Within 165263992197562149737978827008192759957101170741070304821162198818601447809077836456297302609928821211897803006255831186940 k := by
  refine ⟨_, rfl, ?_⟩
  generalize s.hw = h
  beta_reduce
  repeat' first
    | extract_lets +onlyGivenNames v0; clear_value (e0 : v0 = _); clear e0
    | with_reducible apply Hw.Within.refl
    | with_reducible apply Hw.Within.step (Hw.dictWrite_within ..); decide
    | with_reducible apply Hw.Within.ite
    | split

theorem execLoadDone_within (who : Actor) (s : State) :
    ∃ k, execLoadDone who s = .next { s with hw := k } ∧ s.hw.Within 10006218277586770784916686791511674991613501225506378355276790181161730338964466007971615267672349242090100891679654955012 k := by
  refine ⟨_, rfl, ?_⟩
  generalize s.hw = h
  refine Hw.dictWrite_of _ rfl (by decide) (by decide) (.inl rfl)
    (fun _ hd => absurd (show _ ∈ ([] : List Reg) from hd) List.not_mem_nil) (fun _ => ?_) (fun c => absurd c (by decide))
  show Hw.Within _ _ (Hw.runCommand h who Od.dictCommand _ 1)
  rw [Hw.runCommand_eq _ _ _ _ _ rfl, Hw.command_dictCommand_1]
  repeat' first
    | with_reducible apply Hw.Within.refl
    | with_reducible apply Hw.Within.step (Hw.loadDone_within ..); decide
    | with_reducible apply Hw.Within.step (Hw.ignore_within ..); decide
    | with_reducible apply Hw.Within.ite

theorem execRead_within (s : Option SpdmIx) (reqId : BitVec 16) (items : List Item) (st : State) :
    ∃ k, execRead s reqId items st = .next { st with hw := k } ∧ st.hw.Within 3147778 k := by
  refine ⟨_, rfl, ?_⟩
  generalize st.hw = h
  beta_reduce
  repeat' first
    | with_reducible apply Hw.Within.refl
    | with_reducible apply Hw.Within.step (Hw.adpRead_within ..); decide

end Sys2Proof.Machine
end

