-- ==== Sys2Proof/Laws/FrameReset.lean ====
section
/-! SUPPORT. What each operation and command of Machine/Reset.lean changes, and that it keeps canonical tables. -/

namespace Sys2Proof.Machine

theorem Hw.wipe_within (h : Hw) :
    Hw.Within 165263992197562149737978827008192759957101170741070304821162198818601447809077836456297302609928821211897803006255839576063 h (Hw.wipe h) := by
  refine ⟨(Hw.Frame.all _ _).mono (by decide), fun ht => ?_⟩
  rw [Hw.tidy_iff] at ht ⊢
  exact ⟨Table.wf_filter _ _ _ ht.1, rfl, rfl, rfl, rfl⟩

theorem Hw.finishSwitch_within (h : Hw) (s : Nat) :
    Hw.Within 133499189745056880149688856635597007162669032647290798121690765102886625319226486279965270614020 h (Hw.finishSwitch h s) := by
  unfold Hw.finishSwitch
  repeat' first
    | extract_lets +onlyGivenNames v0; clear_value (e0 : v0 = _); clear e0
    | rw [Hw.mk_sl]
    | with_reducible apply Hw.Within.refl
    | with_reducible apply Hw.Within.step (Hw.setReg_within ..); decide
    | with_reducible apply Hw.Within.step (Hw.putSl_within ..); decide
    | split

theorem Hw.selfRefresh_within (h : Hw) (g : Nat) :
    Hw.Within 2187250724783011924372502227117621365353169430893212436425770691480544729433991789067165034965114884 h (Hw.selfRefresh h g) := by
  unfold Hw.selfRefresh
  repeat' first
    | intro _
    | extract_lets +onlyGivenNames v0; clear_value (e0 : v0 = _); (first | (with_reducible apply Hw.Within.let1 e0) | clear e0)
    | with_reducible apply Hw.Within.refl
    | with_reducible assumption
    | with_reducible apply Hw.Within.step (Hw.setReg_within ..); decide
    | with_reducible apply Hw.Within.step (Hw.dropCal_within ..); decide
    | with_reducible apply Hw.Within.step (Hw.setPc_within ..); decide
    | with_reducible apply Hw.Within.ite

theorem Hw.hubCoreReset_within (h : Hw) :
    Hw.Within 165263992197562149737978827008192759957101170741070304821162198818601447809077836456297302609928821211897803006255839576063 h (Hw.hubCoreReset h) := by
  refine ⟨(Hw.Frame.all _ _).mono (by decide), fun ht => ?_⟩
  rw [Hw.tidy_iff] at ht ⊢
  exact ⟨Table.wf_filter _ _ _ ht.1, rfl, ht.2.2.1, ht.2.2.2.1, ht.2.2.2.2⟩

theorem Hw.hubResetEntry_within (h : Hw) :
    Hw.Within 165263992197562149737978827008192759957101170741070304821162198818601447809077836456297302609928821211897803006255839576063 h (Hw.hubResetEntry h) := by
  unfold Hw.hubResetEntry
  repeat' first
    | intro _
    | extract_lets +onlyGivenNames v0; clear_value (e0 : v0 = _); (first | (with_reducible apply Hw.Within.let1 e0) | clear e0)
    | rw [Hw.mk_sec]
    | with_reducible apply Hw.Within.refl
    | with_reducible assumption
    | with_reducible apply Hw.Within.step (Hw.endTest_within ..); decide
    | with_reducible apply Hw.Within.step (Hw.finishSwitch_within ..); decide
    | with_reducible apply Hw.Within.step (Hw.selfRefresh_within ..); decide
    | with_reducible apply Hw.Within.step (Hw.hubCoreReset_within ..); decide
    | with_reducible apply Hw.Within.step (Hw.putSec_within ..); decide
    | with_reducible apply Hw.Within.fold

theorem Hw.dropSliceWork_within (h : Hw) (s : Nat) :
    Hw.Within 8716288 h (Hw.dropSliceWork h s) := by
  unfold Hw.dropSliceWork
  rw [Hw.mk_car_par]
  refine Hw.Within.step (Hw.putPar_within ..) (by decide) ?_
  exact Hw.Within.stepStaging (Table.wf_drop h.car.staging _ (fun k => decide (k / 2 ^ 23 / 4 = s))) (by decide) (Hw.Within.refl _ _)

theorem Hw.dropSliceLinks_within (h : Hw) (s : Nat) :
    Hw.Within 137280 h (Hw.dropSliceLinks h s) := by
  unfold Hw.dropSliceLinks
  rw [Hw.mk_timers_lnk_req_red]
  refine Hw.Within.step (Hw.putRed_within ..) (by decide) ?_
  refine Hw.Within.step (Hw.putReq_within ..) (by decide) ?_
  refine Hw.Within.step (Hw.putLnk_within ..) (by decide) ?_
  exact Hw.Within.step (Hw.putTimers_within _ _ (Table.wf_drop _ _ _)) (by decide) (Hw.Within.refl _ _)

theorem Hw.resetSliceRegs_within (h : Hw) (s : Nat) :
    Hw.Within 82631996387369987440515855498246178088452505322805832328870961542852612736080967135554443612944397622457698784711253426180 h (Hw.resetSliceRegs h s) := by
  unfold Hw.resetSliceRegs
  extract_lets state h1
  have e1 : Hw.Within 82631996387369987440515855498246178088452505322805832328870961542852612736080967135554443612944397622457698784711253426180 h h1 := by
    refine Hw.resetRegs_only _ _ _ (by decide) (fun k hk => Reg.bits_of _ (fun r => ([0x3200, 0x4000, 0x6210, 0xC010, 0x3000, 0x4100,
      0xA010, 0x6100, 0xA100, 0xC000, 0x3100] : List Nat).contains r.index) (by decide) (by decide) k ?_)
    simp only [sliceReg, Bool.or_eq_true, Bool.and_eq_true, List.contains_eq_mem, List.mem_cons, decide_eq_true_eq] at hk ⊢
    tauto
  clear_value h1 state
  refine Hw.Within.step (Hw.setReg_within ..) (by decide) ?_
  exact Hw.Within.step (Hw.setReg_within ..) (by decide) e1

theorem Hw.stopEngines_within (h : Hw) (s : Nat) :
    Hw.Within 11347777784561610013136363548841360775862964909894050272709629363442285573137097967568597054507793080215087628700725316 h (Hw.stopEngines h s) := by
  unfold Hw.stopEngines
  repeat' first
    | intro _
    | extract_lets +onlyGivenNames v0; clear_value (e0 : v0 = _); (first | (with_reducible apply Hw.Within.let1 e0) | (with_reducible apply Hw.Within.letCar e0; subst e0) | clear e0)
    | rw [Hw.mk_car]
    | with_reducible apply Hw.Within.refl
    | with_reducible assumption
    | with_reducible apply Hw.Within.step (Hw.abortHeld_within ..); decide
    | with_reducible apply Hw.Within.step (Hw.setReg_within ..); decide
    | with_reducible apply Hw.Within.step (Hw.idleEngine_within ..); decide
    | with_reducible apply Hw.Within.step (Hw.setEng_within ..); decide
    | (with_reducible apply Hw.Within.stepCar); (· rfl); (· decide)
    | with_reducible apply Hw.Within.fold

theorem Hw.wipeSlice_within (h : Hw) (s : Nat) :
    Hw.Within 82643344165154549050528991861795019449228368287715726379143671172216055021654104233522012209998905415537913872339967146052 h (Hw.wipeSlice h s) := by
  unfold Hw.wipeSlice
  extract_lets h1
  have hh : Hw.Within 82643344165154549050528991861795019449228368287715726379143671172216055021654104233522012209998905415537913872339967146052 h h1 := by
    refine Hw.Within.step (Hw.dropSliceWork_within ..) (by decide) ?_
    refine Hw.Within.step (Hw.dropSliceLinks_within ..) (by decide) ?_
    refine Hw.Within.step (Hw.resetSliceRegs_within ..) (by decide) ?_
    exact Hw.Within.step (Hw.stopEngines_within ..) (by decide) (Hw.Within.refl _ _)
  clear_value h1
  refine Hw.Within.step (Hw.suspectSlice_within ..) (by decide) ?_
  rw [Hw.mk_sl_mem_coh]
  refine Hw.Within.step (Hw.putCoh_within ..) (by decide) ?_
  refine Hw.Within.stepDram (fun ht => ?_) (Table.wf_drop h1.mem.spare _ (fun k => decide (k / 1024 / 64 = s))) (by decide) (Hw.Within.step (Hw.putSl_within ..) (by decide) hh)
  refine Hw.dram_drop_wf h1 _ (fun g => decide (g / 64 = s)) (fun x hx => ?_) ht
  show Table.look (Table.drop h1.mem.fills (fun g => decide (g / 64 = s))) x = Table.look h1.mem.fills x
  rw [Table.look_drop, if_neg (by simpa using hx)]

theorem Hw.sliceLow_within (h : Hw) (s : Nat) :
    Hw.Within 1024 h (Hw.sliceLow h s) := by
  unfold Hw.sliceLow
  repeat' first
    | extract_lets +onlyGivenNames v0; clear_value (e0 : v0 = _); clear e0
    | rw [Hw.mk_boot]
    | with_reducible apply Hw.Within.refl
    | with_reducible apply Hw.Within.step (Hw.putBoot_within ..); decide

theorem Hw.releaseSlice_within (h : Hw) (s : Nat) :
    Hw.Within 1024 h (Hw.releaseSlice h s) := by
  unfold Hw.releaseSlice
  repeat' first
    | extract_lets +onlyGivenNames v0; clear_value (e0 : v0 = _); clear e0
    | rw [Hw.mk_boot]
    | with_reducible apply Hw.Within.refl
    | with_reducible apply Hw.Within.step (Hw.putBoot_within ..); decide

theorem Hw.fullReset_within (h : Hw) :
    Hw.Within 165263992197562149737978827008192759957101170741070304821162198818601447809077836456297302609928821211897803006255839576063 h (Hw.fullReset h) := by
  unfold Hw.fullReset
  repeat' first
    | intro _
    | extract_lets +onlyGivenNames v0; clear_value (e0 : v0 = _); (first | (with_reducible apply Hw.Within.let1 e0) | clear e0)
    | rw [Hw.mk_boot]
    | with_reducible apply Hw.Within.refl
    | with_reducible assumption
    | with_reducible apply Hw.Within.step (Hw.wipe_within ..); decide
    | with_reducible apply Hw.Within.step (Hw.putBoot_within ..); decide

theorem execHubRstAssert_within (s : State) :
    ∃ k, execHubRstAssert s = .next { s with hw := k } ∧ s.hw.Within 165263992197562149737978827008192759957101170741070304821162198818601447809077836456297302609928821211897803006255839576063 k := by
  refine ⟨_, rfl, ?_⟩
  generalize s.hw = h
  beta_reduce
  repeat' first
    | with_reducible apply Hw.Within.refl
    | with_reducible apply Hw.Within.step (Hw.fullReset_within ..); decide
    | with_reducible apply Hw.Within.step (Hw.hubResetEntry_within ..); decide
    | with_reducible apply Hw.Within.ite

theorem Hw.clearCistern_within (h : Hw) :
    Hw.Within 28587303370756 h (Hw.clearCistern h) := by
  unfold Hw.clearCistern
  repeat' first
    | intro _
    | extract_lets +onlyGivenNames v0; clear_value (e0 : v0 = _); (first | (with_reducible apply Hw.Within.let1 e0) | clear e0)
    | rw [Hw.mk_sec]
    | with_reducible apply Hw.Within.refl
    | with_reducible assumption
    | with_reducible apply Hw.Within.step (Hw.zeroRegs_within ..); decide
    | with_reducible apply Hw.Within.step (Hw.putSec_within ..); decide

theorem Hw.powerLost_within (h : Hw) :
    Hw.Within 165263992197562149737978827008192759957101170741070304821162198818601447809077836456297302609928821211897803006255839576063 h (Hw.powerLost h) := by
  unfold Hw.powerLost
  repeat' first
    | intro _
    | extract_lets +onlyGivenNames v0; clear_value (e0 : v0 = _); with_reducible apply Hw.Within.let1 e0
    | rw [Hw.mk_tap_boot]
    | with_reducible apply Hw.Within.refl
    | with_reducible assumption
    | with_reducible apply Hw.Within.step (Hw.wipe_within ..); decide
    | with_reducible apply Hw.Within.step (Hw.clearCistern_within ..); decide
    | with_reducible apply Hw.Within.step (Hw.putBoot_within ..); decide
    | with_reducible apply Hw.Within.step (Hw.putTap_within ..); decide
    | with_reducible apply Hw.Within.ite

theorem execPwrokFall_within (s : State) :
    ∃ k, execPwrokFall s = .next { s with hw := k } ∧ s.hw.Within 165263992197562149737978827008192759957101170741070304821162198818601447809077836456297302609928821211897803006255839576063 k := by
  refine ⟨_, rfl, ?_⟩
  generalize s.hw = h
  beta_reduce
  repeat' first
    | with_reducible apply Hw.Within.refl
    | with_reducible apply Hw.Within.step (Hw.powerLost_within ..); decide
    | with_reducible apply Hw.Within.ite

theorem Hw.leaveSlice_within (h : Hw) (s : Nat) :
    Hw.Within 11349009281615840088357655658618299511274258139255526820151206024116358952004545435727427712977914393957291618705849412 h (Hw.leaveSlice h s) := by
  unfold Hw.leaveSlice
  repeat' first
    | with_reducible apply Hw.Within.refl
    | with_reducible apply Hw.Within.step (Hw.failStack_within ..); decide
    | with_reducible apply Hw.Within.step (Hw.sliceResetSessions_within ..); decide
    | with_reducible apply Hw.Within.step (Hw.poisonOutstanding_within ..); decide
    | with_reducible apply Hw.Within.ite

theorem Hw.assertSlice_within (h : Hw) (s : Nat) :
    Hw.Within 165263992197562149737978827008192759957101170741070304821162198818601447809077836456297302609928821211897803006255839576063 h (Hw.assertSlice h s) := by
  unfold Hw.assertSlice
  repeat' first
    | intro _
    | extract_lets +onlyGivenNames v0; clear_value (e0 : v0 = _); with_reducible apply Hw.Within.let1 e0
    | with_reducible apply Hw.Within.refl
    | with_reducible assumption
    | with_reducible apply Hw.Within.step (Hw.leaveSlice_within ..); decide
    | with_reducible apply Hw.Within.step (Hw.sliceLow_within ..); decide
    | with_reducible apply Hw.Within.step (Hw.wipeSlice_within ..); decide
    | with_reducible apply Hw.Within.step (Hw.fullReset_within ..); decide
    | with_reducible apply Hw.Within.ite

theorem execSliceRstRelease_within (stack : StackIx) (st : State) :
    ∃ k, execSliceRstRelease stack st = .next { st with hw := k } ∧ st.hw.Within 1024 k := by
  refine ⟨_, rfl, ?_⟩
  generalize st.hw = h
  beta_reduce
  repeat' first
    | with_reducible apply Hw.Within.refl
    | with_reducible apply Hw.Within.step (Hw.releaseSlice_within ..); decide
    | with_reducible apply Hw.Within.ite

theorem execSliceRstAssert_within (stack : StackIx) (st : State) :
    ∃ k, execSliceRstAssert stack st = .next { st with hw := k } ∧ st.hw.Within 165263992197562149737978827008192759957101170741070304821162198818601447809077836456297302609928821211897803006255839576063 k := by
  refine ⟨_, rfl, ?_⟩
  generalize st.hw = h
  beta_reduce
  repeat' first
    | with_reducible apply Hw.Within.refl
    | with_reducible apply Hw.Within.step (Hw.assertSlice_within ..); decide
    | with_reducible apply Hw.Within.ite

theorem execPwrokRise_within (s : State) :
    ∃ k, execPwrokRise s = .next { s with hw := k } ∧ s.hw.Within 1024 k := by
  refine ⟨_, rfl, ?_⟩
  generalize s.hw = h
  beta_reduce
  repeat' first
    | extract_lets +onlyGivenNames v0; clear_value (e0 : v0 = _); clear e0
    | rw [Hw.mk_boot]
    | with_reducible apply Hw.Within.refl
    | with_reducible apply Hw.Within.step (Hw.putBoot_within ..); decide
    | with_reducible apply Hw.Within.ite

end Sys2Proof.Machine
end

