-- ==== Sys2Proof/Laws/FrameBoot.lean ====
section
/-! SUPPORT. What each operation and command of Machine/Boot.lean changes, and that it keeps canonical tables. -/

namespace Sys2Proof.Machine

theorem Hw.coldState0_within (h : Hw) :
    Hw.Within 165263992197562149737978827008192759957101170741070304821162198818601447809077836456297302609928821211897803006255839576063 h (Hw.coldState0 h) := by
  unfold Hw.coldState0
  repeat' first
    | intro _
    | extract_lets +onlyGivenNames v0; clear_value (e0 : v0 = _); (first | (with_reducible apply Hw.Within.let1 e0) | clear e0)
    | rw [Hw.mk_boot]
    | with_reducible apply Hw.Within.refl
    | with_reducible assumption
    | with_reducible apply Hw.Within.step (Hw.wipe_within ..); decide
    | with_reducible apply Hw.Within.step (Hw.putBoot_within ..); decide

theorem Hw.armAtReset_within (h : Hw) :
    Hw.Within 300613450595050653169853516389035139504087366260264943450533244356122755214669880763353471793250393988087676932 h (Hw.armAtReset h) := by
  unfold Hw.armAtReset
  repeat' first
    | intro _
    | with_reducible apply Hw.Within.refl
    | with_reducible assumption
    | with_reducible apply Hw.Within.step (Hw.setReg_within ..); decide
    | with_reducible apply Hw.Within.fold

theorem Hw.sampleModes_within (h : Hw) (straps : BitVec 32) :
    Hw.Within 10141204801825835211973625643012 h (Hw.sampleModes h straps) := by
  unfold Hw.sampleModes
  repeat' first
    | intro _
    | with_reducible apply Hw.Within.refl
    | with_reducible assumption
    | with_reducible apply Hw.Within.step (Hw.setReg_within ..); decide
    | with_reducible apply Hw.Within.fold

theorem Hw.showSv_within (h : Hw) :
    Hw.Within 422212465065988 h (Hw.showSv h) := by
  unfold Hw.showSv
  repeat' first
    | with_reducible apply Hw.Within.refl
    | with_reducible apply Hw.Within.step (Hw.setReg_within ..); decide

theorem Hw.programUds_within (h : Hw) :
    Hw.Within 1048578 h (Hw.programUds h) := by
  unfold Hw.programUds
  repeat' first
    | intro _
    | extract_lets +onlyGivenNames v0; clear_value (e0 : v0 = _); clear e0
    | rw [Hw.mk_sec]
    | with_reducible apply Hw.Within.refl
    | with_reducible assumption
    | with_reducible apply Hw.Within.step (Hw.random_within ..); decide
    | with_reducible apply Hw.Within.step (Hw.putSec_within ..); decide
    | with_reducible apply Hw.Within.ite
    | (split <;> (rename_i e0; with_reducible apply Hw.Within.snd; case e => with_reducible apply e0))

theorem Hw.takeIdentity_within (h : Hw) :
    Hw.Within 562949954470918 h (Hw.takeIdentity h) := by
  unfold Hw.takeIdentity
  repeat' first
    | intro _
    | extract_lets +onlyGivenNames v0; clear_value (e0 : v0 = _); (first | (with_reducible apply Hw.Within.let1 e0) | clear e0)
    | rw [Hw.mk_boot]
    | with_reducible apply Hw.Within.refl
    | with_reducible assumption
    | with_reducible apply Hw.Within.step (Hw.programUds_within ..); decide
    | with_reducible apply Hw.Within.step (Hw.setReg_within ..); decide
    | with_reducible apply Hw.Within.step (Hw.putBoot_within ..); decide

theorem Hw.checkCistern_within (h : Hw) :
    Hw.Within 28587303370758 h (Hw.checkCistern h) := by
  unfold Hw.checkCistern
  repeat' first
    | intro _
    | extract_lets +onlyGivenNames v0; clear_value (e0 : v0 = _); (first | (with_reducible apply Hw.Within.let1 e0) | clear e0)
    | rw [Hw.mk_sec]
    | with_reducible apply Hw.Within.refl
    | with_reducible assumption
    | with_reducible apply Hw.Within.step (Hw.journalNote_within ..); decide
    | with_reducible apply Hw.Within.step (Hw.satReg_within ..); decide
    | with_reducible apply Hw.Within.step (Hw.setReg_within ..); decide
    | with_reducible apply Hw.Within.step (Hw.random_within ..); decide
    | with_reducible apply Hw.Within.step (Hw.putSec_within ..); decide
    | with_reducible apply Hw.Within.ite
    | (split <;> (rename_i e0; with_reducible apply Hw.Within.snd; case e => with_reducible apply e0))

theorem Hw.rollForward_within (h : Hw) :
    Hw.Within 10328999512347634358623676688012047497318823171316894051322637426162590488067364778518581413120551325748303767994792738820 h (Hw.rollForward h) := by
  unfold Hw.rollForward
  repeat' first
    | intro _
    | extract_lets +onlyGivenNames v0; clear_value (e0 : v0 = _); (first | (with_reducible apply Hw.Within.let1 e0) | clear e0)
    | rw [Hw.mk_sec]
    | with_reducible apply Hw.Within.refl
    | with_reducible assumption
    | with_reducible apply Hw.Within.step (Hw.setReg_within ..); decide
    | with_reducible apply Hw.Within.step (Hw.sideActions_within ..); decide
    | with_reducible apply Hw.Within.step (Hw.journalWrite_within ..); decide
    | with_reducible apply Hw.Within.step (Hw.putSec_within ..); decide
    | with_reducible apply Hw.Within.ite
    | with_reducible apply Hw.Within.fold

theorem Hw.romStart_within (h : Hw) :
    Hw.Within 10328999512347634358623676688012047497318823171316894051322637426162590488067364778518581413120551325748304201202374083654 h (Hw.romStart h) := by
  unfold Hw.romStart
  repeat' first
    | intro _
    | extract_lets +onlyGivenNames v0; clear_value (e0 : v0 = _); with_reducible apply Hw.Within.let1 e0
    | with_reducible apply Hw.Within.refl
    | with_reducible assumption
    | with_reducible apply Hw.Within.step (Hw.showSv_within ..); decide
    | with_reducible apply Hw.Within.step (Hw.takeIdentity_within ..); decide
    | with_reducible apply Hw.Within.step (Hw.checkCistern_within ..); decide
    | with_reducible apply Hw.Within.step (Hw.rollForward_within ..); decide
    | with_reducible apply Hw.Within.step (Hw.setReg_within ..); decide
    | with_reducible apply Hw.Within.step (Hw.setTimer_within ..); decide

theorem Hw.lostInReset_within (h : Hw) (s : Nat) :
    Hw.Within 11349009281615840088357655658618299511274258139255526820151206024116358952004545435727427712977914393957291618705849412 h (Hw.lostInReset h s) := by
  unfold Hw.lostInReset
  repeat' first
    | with_reducible apply Hw.Within.refl
    | with_reducible apply Hw.Within.step (Hw.failStack_within ..); decide
    | with_reducible apply Hw.Within.step (Hw.setReg_within ..); decide
    | with_reducible apply Hw.Within.ite

theorem Hw.leaveSelfRefresh_within (h : Hw) (s : Nat) :
    Hw.Within 2187250724783011924372502227117621365353169430893259204478165280373927247348638710123794024806490180 h (Hw.leaveSelfRefresh h s) := by
  unfold Hw.leaveSelfRefresh
  repeat' first
    | intro _
    | extract_lets +onlyGivenNames v0; clear_value (e0 : v0 = _); (first | (with_reducible apply Hw.Within.let1 e0) | clear e0)
    | with_reducible apply Hw.Within.refl
    | with_reducible assumption
    | with_reducible apply Hw.Within.step (Hw.setReg_within ..); decide
    | with_reducible apply Hw.Within.step (Hw.setTimer_within ..); decide
    | with_reducible apply Hw.Within.step (Hw.startEpoch_within ..); decide
    | with_reducible apply Hw.Within.step (Hw.askCal_within ..); decide
    | with_reducible apply Hw.Within.ite
    | with_reducible apply Hw.Within.fold

theorem Hw.formAgain_within (h : Hw) :
    Hw.Within 364250417292324200797399107529409794995451282322276160234714826826044553475976594500 h (Hw.formAgain h) := by
  unfold Hw.formAgain
  repeat' first
    | intro _
    | extract_lets +onlyGivenNames v0; clear_value (e0 : v0 = _); (first | (with_reducible apply Hw.Within.let1 e0) | clear e0)
    | rw [Hw.mk_boot]
    | with_reducible apply Hw.Within.refl
    | with_reducible assumption
    | with_reducible apply Hw.Within.step (Hw.startCascade_within ..); decide
    | with_reducible apply Hw.Within.step (Hw.startPair_within ..); decide
    | with_reducible apply Hw.Within.step (Hw.putBoot_within ..); decide
    | with_reducible apply Hw.Within.ite

theorem Hw.releaseHub_within (h : Hw) (straps : BitVec 32) :
    Hw.Within 165263992197562149737978827008192759957101170741070304821162198818601447809077836456297302609928821211897803006255839576063 h (Hw.releaseHub h straps) := by
  unfold Hw.releaseHub
  repeat' first
    | intro _
    | extract_lets +onlyGivenNames v0; clear_value (e0 : v0 = _); (first | (with_reducible apply Hw.Within.let1 e0) | clear e0)
    | rw [Hw.mk_now_boot]
    | with_reducible apply Hw.Within.refl
    | with_reducible assumption
    | with_reducible apply Hw.Within.step (Hw.coldState0_within ..); decide
    | with_reducible apply Hw.Within.step (Hw.armAtReset_within ..); decide
    | with_reducible apply Hw.Within.step (Hw.sampleModes_within ..); decide
    | with_reducible apply Hw.Within.step (Hw.mbHubReset_within ..); decide
    | with_reducible apply Hw.Within.step (Hw.setReg_within ..); decide
    | with_reducible apply Hw.Within.step (Hw.romStart_within ..); decide
    | with_reducible apply Hw.Within.step (Hw.lostInReset_within ..); decide
    | with_reducible apply Hw.Within.step (Hw.leaveSelfRefresh_within ..); decide
    | with_reducible apply Hw.Within.step (Hw.beginCoarse_within ..); decide
    | with_reducible apply Hw.Within.step (Hw.formAgain_within ..); decide
    | with_reducible apply Hw.Within.step (Hw.putBoot_within ..); decide
    | with_reducible apply Hw.Within.step (Hw.putNow_within ..); decide
    | with_reducible apply Hw.Within.ite
    | with_reducible apply Hw.Within.fold

theorem execHubRstRelease_within (modeStraps : BitVec 32) (s : State) :
    ∃ k, execHubRstRelease modeStraps s = .next { s with hw := k } ∧ s.hw.Within 165263992197562149737978827008192759957101170741070304821162198818601447809077836456297302609928821211897803006255839576063 k := by
  refine ⟨_, rfl, ?_⟩
  generalize s.hw = h
  beta_reduce
  repeat' first
    | with_reducible apply Hw.Within.refl
    | with_reducible apply Hw.Within.step (Hw.releaseHub_within ..); decide
    | with_reducible apply Hw.Within.ite

theorem Hw.raiseSv_within (h : Hw) (slice : Bool) (v : Nat) :
    Hw.Within 422212466114564 h (Hw.raiseSv h slice v) := by
  unfold Hw.raiseSv
  repeat' first
    | intro _
    | extract_lets +onlyGivenNames v0; clear_value (e0 : v0 = _); (first | (with_reducible apply Hw.Within.let1 e0) | clear e0)
    | rw [Hw.mk_sec]
    | with_reducible apply Hw.Within.refl
    | with_reducible assumption
    | with_reducible apply Hw.Within.step (Hw.showSv_within ..); decide
    | with_reducible apply Hw.Within.step (Hw.putSec_within ..); decide
    | with_reducible apply Hw.Within.ite

theorem Hw.raiseVersion_within (h : Hw) (slice : Bool) (version : Nat) :
    Hw.Within 422212466114564 h (Hw.raiseVersion h slice version) := by
  unfold Hw.raiseVersion
  repeat' first
    | extract_lets +onlyGivenNames v0; clear_value (e0 : v0 = _); clear e0
    | with_reducible apply Hw.Within.refl
    | with_reducible apply Hw.Within.step (Hw.raiseSv_within ..); decide
    | with_reducible apply Hw.Within.ite

theorem Hw.findAbsent_within (h : Hw) (s : Nat) :
    Hw.Within 1024 h (Hw.findAbsent h s) := by
  unfold Hw.findAbsent
  repeat' first
    | extract_lets +onlyGivenNames v0; clear_value (e0 : v0 = _); clear e0
    | rw [Hw.mk_boot]
    | with_reducible apply Hw.Within.refl
    | with_reducible apply Hw.Within.step (Hw.putBoot_within ..); decide

theorem Hw.setTiming_within (h : Hw) (s : Nat) (sub : Nat) (v : Nat) :
    Hw.Within 82631996098781074868989413504096379978550585370535152410581099409300723904904293463256805170994838520880173252976578658308 h (Hw.setTiming h s sub v) := by
  refine Hw.putOd_within _ _ _ (by decide) (fun k hk => Table.atD_setD_ne _ _ _ _ _ (fun e => ?_)) (fun h => Table.wf_setD _ _ _ _ h)
  rw [e, Reg.bits_of _ (fun r => decide (r.index = 0x4000)) (by decide) (by decide)] at hk
  · exact absurd hk (by decide)
  · have e2 : (odKey ⟨0x4000, sub⟩ s 0) / 4294967296 = 0x4000 := by unfold odKey; dsimp only; omega
    exact decide_eq_true e2

theorem Hw.publish_within (h : Hw) (s : Nat) (d : StackDescriptor) (rate : Nat × List Nat) :
    Hw.Within 82631996098781074868989413504096379978550585370535152410581099409300723904904293463257459400399013909161368095514060398596 h (Hw.publish h s d rate) := by
  unfold Hw.publish
  repeat' first
    | intro _
    | extract_lets +onlyGivenNames v0; clear_value (e0 : v0 = _); (first | (with_reducible apply Hw.Within.let1 e0) | clear e0)
    | rw [Hw.mk_sl]
    | with_reducible apply Hw.Within.refl
    | with_reducible assumption
    | with_reducible apply Hw.Within.step (Hw.setReg_within ..); decide
    | with_reducible apply Hw.Within.step (Hw.setTiming_within ..); decide
    | with_reducible apply Hw.Within.step (Hw.putSl_within ..); decide
    | with_reducible apply Hw.Within.fold

theorem Hw.refillSlice_within (h : Hw) (s : Nat) :
    Hw.Within 98304 h (Hw.refillSlice h s) := by
  unfold Hw.refillSlice
  repeat' first
    | intro _
    | extract_lets +onlyGivenNames v0; clear_value (e0 : v0 = _); (first | (with_reducible apply Hw.Within.let1 e0) | clear e0)
    | rw [Hw.mk_coh]
    | with_reducible apply Hw.Within.refl
    | with_reducible assumption
    | with_reducible apply Hw.Within.step (Hw.putCopy_within ..); decide
    | with_reducible apply Hw.Within.step (Hw.putCoh_within ..); decide
    | with_reducible apply Hw.Within.ite
    | with_reducible apply Hw.Within.fold
    | split

theorem execStackDescriptorRead_within (stack : StackIx) (descriptor : StackDescriptor) (st : State) :
    ∃ k, execStackDescriptorRead stack descriptor st = .next { st with hw := k } ∧ st.hw.Within 82631997330278129099064636398195984275569041532192275319879696844563806896337954691383069420598622231862070913485030667332 k := by
  refine ⟨_, rfl, ?_⟩
  generalize st.hw = h
  beta_reduce
  repeat' first
    | intro _
    | extract_lets +onlyGivenNames v0; clear_value (e0 : v0 = _); (first | (with_reducible apply Hw.Within.let1 e0) | clear e0)
    | with_reducible apply Hw.Within.refl
    | with_reducible assumption
    | with_reducible apply Hw.Within.step (Hw.raise_within ..); decide
    | with_reducible apply Hw.Within.step (Hw.findAbsent_within ..); decide
    | with_reducible apply Hw.Within.step (Hw.publish_within ..); decide
    | with_reducible apply Hw.Within.step (Hw.setReg_within ..); decide
    | with_reducible apply Hw.Within.step (Hw.setTimer_within ..); decide
    | with_reducible apply Hw.Within.step (Hw.refillSlice_within ..); decide
    | with_reducible apply Hw.Within.ite
    | with_reducible apply Hw.Within.fold
    | split

theorem Hw.measure_within (h : Hw) (slice : Bool) (slotB : Bool) (x : Image) :
    Hw.Within 62165404551223330269422781018352605012557018849668464680057997111644937126601031681028 h (Hw.measure h slice slotB x) := by
  unfold Hw.measure
  repeat' first
    | intro _
    | extract_lets +onlyGivenNames v0; clear_value (e0 : v0 = _); (first | (with_reducible apply Hw.Within.let1 e0) | clear e0)
    | rw [Hw.mk_boot]
    | with_reducible apply Hw.Within.refl
    | with_reducible assumption
    | with_reducible apply Hw.Within.step (Hw.setReg_within ..); decide
    | with_reducible apply Hw.Within.step (Hw.setBit_within ..); decide
    | with_reducible apply Hw.Within.step (Hw.putBoot_within ..); decide
    | with_reducible apply Hw.Within.ite

theorem Hw.imagePasses_within (h : Hw) (slice : Bool) (slotB : Bool) (x : Image) :
    Hw.Within 62165404551223330269422781018352605012557018849668464680057997111644937548830677664772 h (Hw.imagePasses h slice slotB x) := by
  unfold Hw.imagePasses
  repeat' first
    | intro _
    | extract_lets +onlyGivenNames v0; clear_value (e0 : v0 = _); with_reducible apply Hw.Within.let1 e0
    | with_reducible apply Hw.Within.refl
    | with_reducible assumption
    | with_reducible apply Hw.Within.step (Hw.raiseVersion_within ..); decide
    | with_reducible apply Hw.Within.step (Hw.measure_within ..); decide
    | with_reducible apply Hw.Within.step (Hw.setReg_within ..); decide
    | with_reducible apply Hw.Within.ite

theorem Hw.imageFails_within (h : Hw) (slice : Bool) (slotB : Bool) (why : Nat) :
    Hw.Within 85899347012 h (Hw.imageFails h slice slotB why) := by
  unfold Hw.imageFails
  repeat' first
    | intro _
    | extract_lets +onlyGivenNames v0; clear_value (e0 : v0 = _); (first | (with_reducible apply Hw.Within.let1 e0) | clear e0)
    | rw [Hw.mk_boot]
    | with_reducible apply Hw.Within.refl
    | with_reducible assumption
    | with_reducible apply Hw.Within.step (Hw.setReg_within ..); decide
    | with_reducible apply Hw.Within.step (Hw.setTimer_within ..); decide
    | with_reducible apply Hw.Within.step (Hw.putBoot_within ..); decide
    | with_reducible apply Hw.Within.ite

theorem execBootReadAnswer_within (slice : Bool) (slotB : Bool) (image : Image) (s : State) :
    ∃ k, execBootReadAnswer slice slotB image s = .next { s with hw := k } ∧ s.hw.Within 62165404551223330269422781018352605012557018849668464680057997111644937548899397141572 k := by
  refine ⟨_, rfl, ?_⟩
  generalize s.hw = h
  beta_reduce
  repeat' first
    | extract_lets +onlyGivenNames v0; clear_value (e0 : v0 = _); clear e0
    | with_reducible apply Hw.Within.refl
    | with_reducible apply Hw.Within.step (Hw.imagePasses_within ..); decide
    | with_reducible apply Hw.Within.step (Hw.imageFails_within ..); decide
    | with_reducible apply Hw.Within.ite

theorem Hw.clearMarkers_within (h : Hw) :
    Hw.Within 17592187092996 h (Hw.clearMarkers h) := by
  unfold Hw.clearMarkers
  repeat' first
    | intro _
    | extract_lets +onlyGivenNames v0; clear_value (e0 : v0 = _); clear e0
    | rw [Hw.mk_sec]
    | with_reducible apply Hw.Within.refl
    | with_reducible assumption
    | with_reducible apply Hw.Within.step (Hw.journalNote_within ..); decide
    | with_reducible apply Hw.Within.step (Hw.putSec_within ..); decide
    | with_reducible apply Hw.Within.fold

theorem Hw.firmwareCold_within (h : Hw) :
    Hw.Within 11349009281615840088357655658618299511274258139255526820151206024116358952004545435727427712977914393957309228072811588 h (Hw.firmwareCold h) := by
  unfold Hw.firmwareCold
  repeat' first
    | intro _
    | extract_lets +onlyGivenNames v0; clear_value (e0 : v0 = _); with_reducible apply Hw.Within.let1 e0
    | with_reducible apply Hw.Within.refl
    | with_reducible assumption
    | with_reducible apply Hw.Within.step (Hw.clearMarkers_within ..); decide
    | with_reducible apply Hw.Within.step (Hw.failCount_within ..); decide
    | with_reducible apply Hw.Within.step (Hw.setReg_within ..); decide
    | with_reducible apply Hw.Within.ite
    | with_reducible apply Hw.Within.fold

theorem execPortRelease_within (s : State) :
    ∃ k, execPortRelease s = .next { s with hw := k } ∧ s.hw.Within 1149371655649416643768780552772335539384478580946768964 k := by
  refine ⟨_, rfl, ?_⟩
  generalize s.hw = h
  beta_reduce
  repeat' first
    | intro _
    | extract_lets +onlyGivenNames v0; clear_value (e0 : v0 = _); (first | (with_reducible apply Hw.Within.let1 e0) | clear e0)
    | rw [Hw.mk_boot]
    | with_reducible apply Hw.Within.refl
    | with_reducible assumption
    | with_reducible apply Hw.Within.step (Hw.openPort_within ..); decide
    | with_reducible apply Hw.Within.step (Hw.setTimer_within ..); decide
    | with_reducible apply Hw.Within.step (Hw.setMode_within ..); decide
    | with_reducible apply Hw.Within.step (Hw.setReg_within ..); decide
    | with_reducible apply Hw.Within.step (Hw.putBoot_within ..); decide
    | with_reducible apply Hw.Within.ite
    | with_reducible apply Hw.Within.fold

theorem Hw.rebuildPrograms_within (h : Hw) :
    Hw.Within 265717234351436705816238100697665479919367695428559882373757182616272900 h (Hw.rebuildPrograms h) := by
  unfold Hw.rebuildPrograms
  repeat' first
    | intro _
    | extract_lets +onlyGivenNames v0; clear_value (e0 : v0 = _); with_reducible apply Hw.Within.let1 e0
    | with_reducible apply Hw.Within.refl
    | with_reducible assumption
    | with_reducible apply Hw.Within.step (Hw.setReg_within ..); decide
    | with_reducible apply Hw.Within.fold
    | split

theorem Hw.resumePart_within (h : Hw) (p : Nat) :
    Hw.Within 92649563693477634903326326797196670071298004148800012036411016833529196241301100004447996185433701693756006358456429688900 h (Hw.resumePart h p) := by
  unfold Hw.resumePart
  repeat' first
    | extract_lets +onlyGivenNames v0; clear_value (e0 : v0 = _); clear e0
    | rw [Hw.mk_sec]
    | with_reducible apply Hw.Within.refl
    | with_reducible apply Hw.Within.step (Hw.setReg_within ..); decide
    | with_reducible apply Hw.Within.step (Hw.releasePart_within ..); decide
    | with_reducible apply Hw.Within.step (Hw.putSec_within ..); decide
    | with_reducible apply Hw.Within.ite
    | split

theorem Hw.firmwareResume_within (h : Hw) :
    Hw.Within 92649563693477635190013653795955609022650616061560879635981640479564336708499704927813355696494302702508325497248984053828 h (Hw.firmwareResume h) := by
  unfold Hw.firmwareResume
  repeat' first
    | intro _
    | extract_lets +onlyGivenNames v0; clear_value (e0 : v0 = _); (first | (with_reducible apply Hw.Within.let1 e0) | clear e0)
    | rw [Hw.mk_req_sec]
    | with_reducible apply Hw.Within.refl
    | with_reducible assumption
    | with_reducible apply Hw.Within.step (Hw.rebuildPrograms_within ..); decide
    | with_reducible apply Hw.Within.step (Hw.setReg_within ..); decide
    | with_reducible apply Hw.Within.step (Hw.resumePart_within ..); decide
    | with_reducible apply Hw.Within.step (Hw.putReq_within ..); decide
    | with_reducible apply Hw.Within.step (Hw.putSec_within ..); decide
    | with_reducible apply Hw.Within.fold

theorem execStewardRelease_within (s : State) :
    ∃ k, execStewardRelease s = .next { s with hw := k } ∧ s.hw.Within 92649563693477635190013653795955609024836118565314824840769737509995534439837694246836951143478874923188387986235990195268 k := by
  refine ⟨_, rfl, ?_⟩
  generalize s.hw = h
  beta_reduce
  repeat' first
    | intro _
    | extract_lets +onlyGivenNames v0; clear_value (e0 : v0 = _); (first | (with_reducible apply Hw.Within.let1 e0) | clear e0)
    | rw [Hw.mk_boot]
    | with_reducible apply Hw.Within.refl
    | with_reducible assumption
    | with_reducible apply Hw.Within.step (Hw.firmwareCold_within ..); decide
    | with_reducible apply Hw.Within.step (Hw.firmwareResume_within ..); decide
    | with_reducible apply Hw.Within.step (Hw.putBoot_within ..); decide
    | with_reducible apply Hw.Within.ite

theorem execQanatTrainingDone_within (stack : StackIx) (modules : List (Option (Fin 16 × Fin 8))) (st : State) :
    ∃ k, execQanatTrainingDone stack modules st = .next { st with hw := k } ∧ st.hw.Within 1231497054230075221292109327356335894365390843282134511483234691223944083767764645281490860500018433346636255075396 k := by
  refine ⟨_, rfl, ?_⟩
  generalize st.hw = h
  beta_reduce
  repeat' first
    | intro _
    | extract_lets +onlyGivenNames v0; clear_value (e0 : v0 = _); (first | (with_reducible apply Hw.Within.let1 e0) | clear e0)
    | with_reducible apply Hw.Within.refl
    | with_reducible assumption
    | with_reducible apply Hw.Within.step (Hw.setLink_within ..); decide
    | with_reducible apply Hw.Within.step (Hw.setTimer_within ..); decide
    | with_reducible apply Hw.Within.step (Hw.setReg_within ..); decide
    | with_reducible apply Hw.Within.step (Hw.raise_within ..); decide
    | with_reducible apply Hw.Within.step (Hw.findAbsent_within ..); decide
    | with_reducible apply Hw.Within.ite
    | with_reducible apply Hw.Within.fold

theorem execFetchTimeout_within (slice : Bool) (slotB : Bool) (s : State) :
    ∃ k, execFetchTimeout slice slotB s = .next { s with hw := k } ∧ s.hw.Within 85899347012 k := by
  refine ⟨_, rfl, ?_⟩
  generalize s.hw = h
  beta_reduce
  repeat' first
    | with_reducible apply Hw.Within.refl
    | with_reducible apply Hw.Within.step (Hw.imageFails_within ..); decide
    | with_reducible apply Hw.Within.ite

end Sys2Proof.Machine
end

