-- ==== Sys2Proof/Laws/FrameCommands.lean ====
section
/-! SUPPORT. What each operation and command of Machine/Commands.lean changes, and that it keeps canonical tables. -/

namespace Sys2Proof.Machine

theorem execReqStateActive_within (who : Actor) (requester : BitVec 12) (s : State) :
    ∃ k, execReqStateActive who requester s = .next { s with hw := k } ∧ s.hw.Within 10199131904574756050567604333413684395466033006134441929096051588702315249574232887913965211721373190407445059680645151812 k := by
  refine ⟨_, rfl, ?_⟩
  generalize s.hw = h
  refine Hw.dictWrite_of _ rfl (by decide) (by decide) (.inr (by decide))
    (fun _ hd => absurd (show _ ∈ ([] : List Reg) from hd) List.not_mem_nil) (fun c => absurd c (by decide)) (fun _ e x => ?_)
  rw [Hw.store_reqState]
  repeat' first
    | with_reducible apply Hw.Within.refl
    | with_reducible apply Hw.Within.step (Hw.writeReqState_within ..); decide

theorem execTestEnd_within (who : Actor) (s : State) :
    ∃ k, execTestEnd who s = .next { s with hw := k } ∧ s.hw.Within 10017567460021734167754220673005914752623124559706819604951566794369896675201055006014851428408189703151450818902777396292 k := by
  refine ⟨_, rfl, ?_⟩
  generalize s.hw = h
  refine Hw.dictWrite_of _ rfl (by decide) (by decide) (.inl rfl)
    (fun _ hd => absurd (show _ ∈ ([] : List Reg) from hd) List.not_mem_nil) (fun _ => ?_) (fun c => absurd c (by decide))
  show Hw.Within _ _ (Hw.runCommand h who Od.testCommand _ 4)
  rw [Hw.runCommand_eq _ _ _ _ _ rfl, Hw.command_testCommand]
  repeat' first
    | with_reducible apply Hw.Within.refl
    | with_reducible apply Hw.Within.step (Hw.testCommand_within ..); decide

theorem execWmClear_within (who : Actor) (w : Fin 1280) (s : State) :
    ∃ k, execWmClear who w s = .next { s with hw := k } ∧ s.hw.Within 10006218280592905290867193323210210155503852620547252017879439615667062782525693560118314075305883960022604831542278096900 k := by
  refine ⟨_, rfl, ?_⟩
  generalize s.hw = h
  refine Hw.dictWrite_of _ rfl (by decide) (by decide) (.inl rfl)
    (fun _ hd => absurd (show _ ∈ ([] : List Reg) from hd) List.not_mem_nil) (fun _ => ?_) (fun c => absurd c (by decide))
  show Hw.Within _ _ (Hw.runCommand h who Od.wmCommand _ 2)
  rw [Hw.runCommand_eq _ _ _ _ _ rfl, Hw.command_wmCommand_2]
  repeat' first
    | with_reducible apply Hw.Within.refl
    | with_reducible apply Hw.Within.step (Hw.setReg_within ..); decide

theorem execScrap_within (who : Actor) (s : State) :
    ∃ k, execScrap who s = .next { s with hw := k } ∧ s.hw.Within 20335217789934405143540363479523722488932324396823272406599427607324320827031830786490196680792900567838404659656194066436 k := by
  refine ⟨_, rfl, ?_⟩
  generalize s.hw = h
  refine Hw.dictWrite_of _ rfl (by decide) (by decide) (.inl rfl)
    (fun _ hd => absurd (show _ ∈ ([] : List Reg) from hd) List.not_mem_nil) (fun _ => ?_) (fun c => absurd c (by decide))
  show Hw.Within _ _ (Hw.runCommand h who Od.lcCommand _ 4)
  rw [Hw.runCommand_eq _ _ _ _ _ rfl, Hw.command_lcCommand]
  repeat' first
    | with_reducible apply Hw.Within.refl
    | with_reducible apply Hw.Within.step (Hw.lcTransition_within ..); decide

theorem execSmpSeedWrite_within (who : Actor) (seed : BitVec 32) (s : State) :
    ∃ k, execSmpSeedWrite who seed s = .next { s with hw := k } ∧ s.hw.Within 10188413154238898856794265072934739061848189939893010580669383089862962556435869109838794834834937092013190739488582142212 k := by
  refine ⟨_, rfl, ?_⟩
  generalize s.hw = h
  refine Hw.dictWrite_of _ rfl (by decide) (by decide) (.inr (by decide))
    (fun _ hd => absurd (show _ ∈ ([] : List Reg) from hd) List.not_mem_nil) (fun c => absurd c (by decide)) (fun _ e x => ?_)
  rw [Hw.store_smpSeed]
  repeat' first
    | with_reducible apply Hw.Within.refl
    | with_reducible apply Hw.Within.step (Hw.loadSeed_within ..); decide

theorem execCreate_within (who : Actor) (part : PartIx) (s : State) :
    ∃ k, execCreate who part s = .next { s with hw := k } ∧ s.hw.Within 92638215925012090261759760681912842116932053138244548876485143142140972185867890893961700631160590052972494503883197488252 k := by
  refine ⟨_, rfl, ?_⟩
  generalize s.hw = h
  refine Hw.dictWrite_of _ rfl (by decide) (by decide) (.inl rfl)
    (fun _ hd => absurd (show _ ∈ ([] : List Reg) from hd) List.not_mem_nil) (fun _ => ?_) (fun c => absurd c (by decide))
  show Hw.Within _ _ (Hw.runCommand h who Od.partCommand _ 1)
  unfold Hw.runCommand
  split
  · rw [Hw.mk_boot]
    exact Hw.Within.step (Hw.putBoot_within ..) (by decide) (Hw.Within.refl _ _)
  rw [Hw.command_partCommand_1]
  repeat' first
    | with_reducible apply Hw.Within.refl
    | with_reducible apply Hw.Within.step (Hw.createPart_within ..); decide

theorem execReadRaw_within (who : Actor) (s : State) :
    ∃ k, execReadRaw who s = .next { s with hw := k } ∧ s.hw.Within 10017567460021734167754220673005914752623124559706819604951566794369896675201055006014851428408189703151450818902777396292 k := by
  refine ⟨_, rfl, ?_⟩
  generalize s.hw = h
  refine Hw.dictWrite_of _ rfl (by decide) (by decide) (.inl rfl)
    (fun _ hd => absurd (show _ ∈ ([] : List Reg) from hd) List.not_mem_nil) (fun _ => ?_) (fun c => absurd c (by decide))
  show Hw.Within _ _ (Hw.runCommand h who Od.testCommand _ 2)
  rw [Hw.runCommand_eq _ _ _ _ _ rfl, Hw.command_testCommand]
  repeat' first
    | with_reducible apply Hw.Within.refl
    | with_reducible apply Hw.Within.step (Hw.testCommand_within ..); decide

theorem execPairEpochWrite_within (who : Actor) (epoch : BitVec 32) (s : State) :
    ∃ k, execPairEpochWrite who epoch s = .next { s with hw := k } ∧ s.hw.Within 10199130499924318155140004971841978127474341355784954654677325147551639013276242227036381025537373225732316784573781907524 k := by
  refine ⟨_, rfl, ?_⟩
  generalize s.hw = h
  refine Hw.dictWrite_of _ rfl (by decide) (by decide) (.inr (by decide))
    (fun _ hd => absurd (show _ ∈ ([] : List Reg) from hd) List.not_mem_nil) (fun c => absurd c (by decide)) (fun _ e x => ?_)
  rw [Hw.store_pairEpoch]
  repeat' first
    | with_reducible apply Hw.Within.refl
    | with_reducible apply Hw.Within.step (Hw.writePairEpoch_within ..); decide

theorem execReqStateAbsent_within (who : Actor) (requester : BitVec 12) (s : State) :
    ∃ k, execReqStateAbsent who requester s = .next { s with hw := k } ∧ s.hw.Within 10199131904574756050567604333413684395466033006134441929096051588702315249574232887913965211721373190407445059680645151812 k := by
  refine ⟨_, rfl, ?_⟩
  generalize s.hw = h
  refine Hw.dictWrite_of _ rfl (by decide) (by decide) (.inr (by decide))
    (fun _ hd => absurd (show _ ∈ ([] : List Reg) from hd) List.not_mem_nil) (fun c => absurd c (by decide)) (fun _ e x => ?_)
  rw [Hw.store_reqState]
  repeat' first
    | with_reducible apply Hw.Within.refl
    | with_reducible apply Hw.Within.step (Hw.writeReqState_within ..); decide

theorem execReqStateDead_within (who : Actor) (requester : BitVec 12) (s : State) :
    ∃ k, execReqStateDead who requester s = .next { s with hw := k } ∧ s.hw.Within 10199131904574756050567604333413684395466033006134441929096051588702315249574232887913965211721373190407445059680645151812 k := by
  refine ⟨_, rfl, ?_⟩
  generalize s.hw = h
  refine Hw.dictWrite_of _ rfl (by decide) (by decide) (.inr (by decide))
    (fun _ hd => absurd (show _ ∈ ([] : List Reg) from hd) List.not_mem_nil) (fun c => absurd c (by decide)) (fun _ e x => ?_)
  rw [Hw.store_reqState]
  repeat' first
    | with_reducible apply Hw.Within.refl
    | with_reducible apply Hw.Within.step (Hw.writeReqState_within ..); decide

theorem execWriteSplit_within (who : Actor) (s : State) :
    ∃ k, execWriteSplit who s = .next { s with hw := k } ∧ s.hw.Within 10017567460021734167754220673005914752623124559706819604951566794369896675201055006014851428408189703151450818902777396292 k := by
  refine ⟨_, rfl, ?_⟩
  generalize s.hw = h
  refine Hw.dictWrite_of _ rfl (by decide) (by decide) (.inl rfl)
    (fun _ hd => absurd (show _ ∈ ([] : List Reg) from hd) List.not_mem_nil) (fun _ => ?_) (fun c => absurd c (by decide))
  show Hw.Within _ _ (Hw.runCommand h who Od.testCommand _ 1)
  rw [Hw.runCommand_eq _ _ _ _ _ rfl, Hw.command_testCommand]
  repeat' first
    | with_reducible apply Hw.Within.refl
    | with_reducible apply Hw.Within.step (Hw.testCommand_within ..); decide

theorem execAcceptAll_within (who : Actor) (part : PartIx) (s : State) :
    ∃ k, execAcceptAll who part s = .next { s with hw := k } ∧ s.hw.Within 10017567460021734167754220673005914752623124559706819604951566452267852096626953397381269878847035675418161471754702158916 k := by
  refine ⟨_, rfl, ?_⟩
  generalize s.hw = h
  refine Hw.dictWrite_of _ rfl (by decide) (by decide) (.inl rfl)
    (fun _ hd => absurd (show _ ∈ ([] : List Reg) from hd) List.not_mem_nil) (fun _ => ?_) (fun c => absurd c (by decide))
  show Hw.Within _ _ (Hw.runCommand h who Od.cohLostAccept _ 1)
  rw [Hw.runCommand_eq _ _ _ _ _ rfl, Hw.command_cohLostAccept_1]
  repeat' first
    | with_reducible apply Hw.Within.refl
    | with_reducible apply Hw.Within.step (Hw.acceptAll_within ..); decide

theorem execForm_within (who : Actor) (s : State) :
    ∃ k, execForm who s = .next { s with hw := k } ∧ s.hw.Within 10006218277586770784916686791511674991977751642798702556074189288691140133959917290293891427907064068916145445137377921092 k := by
  refine ⟨_, rfl, ?_⟩
  generalize s.hw = h
  refine Hw.dictWrite_of _ rfl (by decide) (by decide) (.inl rfl)
    (fun _ hd => absurd (show _ ∈ ([] : List Reg) from hd) List.not_mem_nil) (fun _ => ?_) (fun c => absurd c (by decide))
  show Hw.Within _ _ (Hw.runCommand h who Od.pairCommand _ 1)
  rw [Hw.runCommand_eq _ _ _ _ _ rfl, Hw.command_pairCommand_1]
  repeat' first
    | with_reducible apply Hw.Within.refl
    | with_reducible apply Hw.Within.step (Hw.form_within ..); decide

theorem execRelease_within (who : Actor) (part : PartIx) (s : State) :
    ∃ k, execRelease who part s = .next { s with hw := k } ∧ s.hw.Within 92649563693477634903326326797196670071298004148800012036411016833529196241301100004447996185433701693756006358456429689924 k := by
  refine ⟨_, rfl, ?_⟩
  generalize s.hw = h
  refine Hw.dictWrite_of _ rfl (by decide) (by decide) (.inl rfl)
    (fun _ hd => absurd (show _ ∈ ([] : List Reg) from hd) List.not_mem_nil) (fun _ => ?_) (fun c => absurd c (by decide))
  show Hw.Within _ _ (Hw.runCommand h who Od.partCommand _ 3)
  unfold Hw.runCommand
  split
  · rw [Hw.mk_boot]
    exact Hw.Within.step (Hw.putBoot_within ..) (by decide) (Hw.Within.refl _ _)
  rw [Hw.command_partCommand_3]
  repeat' first
    | with_reducible apply Hw.Within.refl
    | with_reducible apply Hw.Within.step (Hw.releasePart_within ..); decide

theorem execExclude_within (who : Actor) (session : Fin 256) (s : State) :
    ∃ k, execExclude who session s = .next { s with hw := k } ∧ s.hw.Within 10017567469340751136200790921271373760683325044739197454084079690719658281413233343438416962955425377805065110413709933636 k := by
  refine ⟨_, rfl, ?_⟩
  generalize s.hw = h
  refine Hw.dictWrite_of _ rfl (by decide) (by decide) (.inl rfl)
    (fun _ hd => absurd (show _ ∈ ([] : List Reg) from hd) List.not_mem_nil) (fun _ => ?_) (fun c => absurd c (by decide))
  show Hw.Within _ _ (Hw.runCommand h who Od.redCommand _ 4)
  unfold Hw.runCommand
  split
  · rw [Hw.mk_boot]
    exact Hw.Within.step (Hw.putBoot_within ..) (by decide) (Hw.Within.refl _ _)
  rw [Hw.command_redCommand_4]
  repeat' first
    | with_reducible apply Hw.Within.refl
    | with_reducible apply Hw.Within.step (Hw.excludeCommand_within ..); decide

theorem execRejoin_within (who : Actor) (s : State) :
    ∃ k, execRejoin who s = .next { s with hw := k } ∧ s.hw.Within 10006218277586770784916686791512120593476158005865965711636062470987400211005881286407959363552122064216787157216530008068 k := by
  refine ⟨_, rfl, ?_⟩
  generalize s.hw = h
  refine Hw.dictWrite_of _ rfl (by decide) (by decide) (.inl rfl)
    (fun _ hd => absurd (show _ ∈ ([] : List Reg) from hd) List.not_mem_nil) (fun _ => ?_) (fun c => absurd c (by decide))
  show Hw.Within _ _ (Hw.runCommand h who Od.pairCommand _ 2)
  rw [Hw.runCommand_eq _ _ _ _ _ rfl, Hw.command_pairCommand_2]
  repeat' first
    | with_reducible apply Hw.Within.refl
    | with_reducible apply Hw.Within.step (Hw.rejoin_within ..); decide

theorem execRetireClear_within (who : Actor) (stack : BitVec 8) (s : State) :
    ∃ k, execRetireClear who stack s = .next { s with hw := k } ∧ s.hw.Within 10187782722139756545126868608293136764027308664064683133549023990085633921562004661389929814654582707213075111254314993668 k := by
  refine ⟨_, rfl, ?_⟩
  generalize s.hw = h
  refine Hw.dictWrite_of _ rfl (by decide) (by decide) (.inr (by decide))
    (fun _ hd => absurd (show _ ∈ ([] : List Reg) from hd) List.not_mem_nil) (fun c => absurd c (by decide)) (fun _ e x => ?_)
  rw [Hw.store_retireClear]
  repeat' first
    | with_reducible apply Hw.Within.refl
    | with_reducible apply Hw.Within.step (Hw.clearRetired_within ..); decide

theorem execDeploy_within (who : Actor) (s : State) :
    ∃ k, execDeploy who s = .next { s with hw := k } ∧ s.hw.Within 20335217789934405143540363479523722488932324396823272406599427607324320827031830786490196680792900567838404659656194066436 k := by
  refine ⟨_, rfl, ?_⟩
  generalize s.hw = h
  refine Hw.dictWrite_of _ rfl (by decide) (by decide) (.inl rfl)
    (fun _ hd => absurd (show _ ∈ ([] : List Reg) from hd) List.not_mem_nil) (fun _ => ?_) (fun c => absurd c (by decide))
  show Hw.Within _ _ (Hw.runCommand h who Od.lcCommand _ 2)
  rw [Hw.runCommand_eq _ _ _ _ _ rfl, Hw.command_lcCommand]
  repeat' first
    | with_reducible apply Hw.Within.refl
    | with_reducible apply Hw.Within.step (Hw.lcTransition_within ..); decide

theorem execFreeze_within (who : Actor) (s : State) :
    ∃ k, execFreeze who s = .next { s with hw := k } ∧ s.hw.Within 10006218277586770784916686791511674991613501225506378355276790181161730338964466007971615267672349242090100891661401327748 k := by
  refine ⟨_, rfl, ?_⟩
  generalize s.hw = h
  refine Hw.dictWrite_of _ rfl (by decide) (by decide) (.inl rfl)
    (fun _ hd => absurd (show _ ∈ ([] : List Reg) from hd) List.not_mem_nil) (fun _ => ?_) (fun c => absurd c (by decide))
  show Hw.Within _ _ (Hw.runCommand h who Od.cntCommand _ 1)
  rw [Hw.runCommand_eq _ _ _ _ _ rfl, Hw.command_cntCommand]
  repeat' first
    | with_reducible apply Hw.Within.refl
    | with_reducible apply Hw.Within.step (Hw.countCommand_within ..); decide

theorem execServiceModeWriteNormal_within (who : Actor) (s : State) :
    ∃ k, execServiceModeWriteNormal who s = .next { s with hw := k } ∧ s.hw.Within 10187782722139756545126868608293136764027308664064683133522695917169643996543174571112780966845221665250651887782374938692 k := by
  refine ⟨_, rfl, ?_⟩
  generalize s.hw = h
  refine Hw.dictWrite_of _ rfl (by decide) (by decide) (.inr (by decide))
    (fun _ hd => absurd (show _ ∈ ([] : List Reg) from hd) List.not_mem_nil) (fun c => absurd c (by decide)) (fun _ e x => ?_)
  rw [Hw.store_serviceMode]
  repeat' first
    | with_reducible apply Hw.Within.refl
    | with_reducible apply Hw.Within.step (Hw.writeServiceMode_within ..); decide

theorem execGrow_within (who : Actor) (part : PartIx) (s : State) :
    ∃ k, execGrow who part s = .next { s with hw := k } ∧ s.hw.Within 10006218277586770784916686791511674991613501225506378355276790181161730338964466007971615267672349242090100891661402377220 k := by
  refine ⟨_, rfl, ?_⟩
  generalize s.hw = h
  refine Hw.dictWrite_of _ rfl (by decide) (by decide) (.inl rfl)
    (fun _ hd => absurd (show _ ∈ ([] : List Reg) from hd) List.not_mem_nil) (fun _ => ?_) (fun c => absurd c (by decide))
  show Hw.Within _ _ (Hw.runCommand h who Od.partCommand _ 2)
  unfold Hw.runCommand
  split
  · rw [Hw.mk_boot]
    exact Hw.Within.step (Hw.putBoot_within ..) (by decide) (Hw.Within.refl _ _)
  rw [Hw.command_partCommand_2]
  repeat' first
    | with_reducible apply Hw.Within.refl
    | with_reducible apply Hw.Within.step (Hw.growPart_within ..); decide

theorem Hw.retarget_within (h : Hw) (who : Actor) (n : Nat) (source : Nat) (inst : Nat) :
    Hw.Within 165263992197562149737978827008192759957101170741070304821162198818601447809077836456297302609928821211897803006255831186940 h (Hw.retarget h who n source inst) := by
  unfold Hw.retarget
  repeat' first
    | intro _
    | extract_lets +onlyGivenNames v0; clear_value (e0 : v0 = _); with_reducible apply Hw.Within.let1 e0
    | with_reducible apply Hw.Within.refl
    | with_reducible assumption
    | with_reducible apply Hw.Within.step (Hw.writeItem_within ..); decide
    | with_reducible apply Hw.Within.ite

theorem execSelSourceWrite_within (who : Actor) (n : Fin 256) (source : BitVec 16) (inst : BitVec 16) (s : State) :
    ∃ k, execSelSourceWrite who n source inst s = .next { s with hw := k } ∧ s.hw.Within 10187784876936970410449950529803142240631188629362924487101810570590790169575434533222717518292544747381761940053205452804 k := by
  refine ⟨_, rfl, ?_⟩
  generalize s.hw = h
  beta_reduce
  unfold Hw.retarget
  split
  · have e1 : Hw.Within 10187784876936970410449950529803142240631188629362924487101810570590790169575434533222717518292544747381761940053205452804 h (h.writeItem who Od.selSource n.val 0 [source.toNat] (some inst.toNat)).2 := by
      refine Hw.writeItem_of rfl (by decide) (by decide) (.inr (by decide)) ?_ (fun c => absurd c (by decide)) (fun _ e x => ?_)
        (Hw.Within.refl _ _)
      · intro d hd
        rw [List.mem_singleton.mp (show d ∈ [Od.selInstance] from hd)]
        decide
      · rw [Hw.store_selSource]
        refine Hw.Within.step (Hw.setReg_within ..) (by decide) ?_
        exact Hw.Within.step (Hw.setReg_within ..) (by decide) (Hw.Within.refl _ _)
    refine Hw.writeItem_of rfl (by decide) (by decide) (.inr (by decide))
      (fun _ hd => absurd (show _ ∈ ([] : List Reg) from hd) List.not_mem_nil) (fun c => absurd c (by decide)) (fun _ e x => ?_) e1
    rw [Hw.store_selInstance]
    refine Hw.Within.step (Hw.setReg_within ..) (by decide) ?_
    exact Hw.Within.step (Hw.setReg_within ..) (by decide) e1
  · exact Hw.Within.refl _ _

theorem execRouteAck_within (who : Actor) (route : Fin 32) (s : State) :
    ∃ k, execRouteAck who route s = .next { s with hw := k } ∧ s.hw.Within 10006218277587945056208073708125619731911895894020066196551244341097083984450232112484172571894081091589293276012917295108 k := by
  refine ⟨_, rfl, ?_⟩
  generalize s.hw = h
  refine Hw.dictWrite_of _ rfl (by decide) (by decide) (.inl rfl)
    (fun _ hd => absurd (show _ ∈ ([] : List Reg) from hd) List.not_mem_nil) (fun _ => ?_) (fun c => absurd c (by decide))
  show Hw.Within _ _ (Hw.runCommand h who Od.routeAck _ 1)
  rw [Hw.runCommand_eq _ _ _ _ _ rfl, Hw.command_routeAck_1]
  repeat' first
    | with_reducible apply Hw.Within.refl
    | with_reducible apply Hw.Within.step (Hw.setReg_within ..); decide

theorem execReturnLc_within (who : Actor) (s : State) :
    ∃ k, execReturnLc who s = .next { s with hw := k } ∧ s.hw.Within 20335217789934405143540363479523722488932324396823272406599427607324320827031830786490196680792900567838404659656194066436 k := by
  refine ⟨_, rfl, ?_⟩
  generalize s.hw = h
  refine Hw.dictWrite_of _ rfl (by decide) (by decide) (.inl rfl)
    (fun _ hd => absurd (show _ ∈ ([] : List Reg) from hd) List.not_mem_nil) (fun _ => ?_) (fun c => absurd c (by decide))
  show Hw.Within _ _ (Hw.runCommand h who Od.lcCommand _ 3)
  rw [Hw.runCommand_eq _ _ _ _ _ rfl, Hw.command_lcCommand]
  repeat' first
    | with_reducible apply Hw.Within.refl
    | with_reducible apply Hw.Within.step (Hw.lcTransition_within ..); decide

theorem execProgBegin_within (who : Actor) (prog : Fin 128) (s : State) :
    ∃ k, execProgBegin who prog s = .next { s with hw := k } ∧ s.hw.Within 10006218277586770784916686791511674991613501225508203867185516285283506831890038281203788585995488309333941379318596306948 k := by
  refine ⟨_, rfl, ?_⟩
  generalize s.hw = h
  refine Hw.dictWrite_of _ rfl (by decide) (by decide) (.inl rfl)
    (fun _ hd => absurd (show _ ∈ ([] : List Reg) from hd) List.not_mem_nil) (fun _ => ?_) (fun c => absurd c (by decide))
  show Hw.Within _ _ (Hw.runCommand h who Od.progCommand _ 1)
  rw [Hw.runCommand_eq _ _ _ _ _ rfl, Hw.command_progCommand_1]
  repeat' first
    | with_reducible apply Hw.Within.refl
    | with_reducible apply Hw.Within.step (Hw.progBegin_within ..); decide

theorem execAbort_within (who : Actor) (session : Fin 256) (s : State) :
    ∃ k, execAbort who session s = .next { s with hw := k } ∧ s.hw.Within 10017567286868386625005044447169843708733558532767180205069189109761816798900365674134108616715803450526553298778588847172 k := by
  refine ⟨_, rfl, ?_⟩
  generalize s.hw = h
  refine Hw.dictWrite_of _ rfl (by decide) (by decide) (.inl rfl)
    (fun _ hd => absurd (show _ ∈ ([] : List Reg) from hd) List.not_mem_nil) (fun _ => ?_) (fun c => absurd c (by decide))
  show Hw.Within _ _ (Hw.runCommand h who Od.redCommand _ 2)
  unfold Hw.runCommand
  split
  · rw [Hw.mk_boot]
    exact Hw.Within.step (Hw.putBoot_within ..) (by decide) (Hw.Within.refl _ _)
  rw [Hw.command_redCommand_2]
  repeat' first
    | with_reducible apply Hw.Within.refl
    | with_reducible apply Hw.Within.step (Hw.abortCommand_within ..); decide

theorem execAbortAll_within (who : Actor) (e : EngIx) (s : State) :
    ∃ k, execAbortAll who e s = .next { s with hw := k } ∧ s.hw.Within 10017567286868386625005044447169843708725258555807115692739001293850608809981752202514692985541542450923491437892160043076 k := by
  refine ⟨_, rfl, ?_⟩
  generalize s.hw = h
  refine Hw.dictWrite_of _ rfl (by decide) (by decide) (.inl rfl)
    (fun _ hd => absurd (show _ ∈ ([] : List Reg) from hd) List.not_mem_nil) (fun _ => ?_) (fun c => absurd c (by decide))
  show Hw.Within _ _ (Hw.runCommand h who Od.engCommand _ 2)
  rw [Hw.runCommand_eq _ _ _ _ _ rfl, Hw.command_engCommand_2]
  repeat' first
    | with_reducible apply Hw.Within.refl
    | with_reducible apply Hw.Within.step (Hw.abortAll_within ..); decide

theorem execWkKeyWrite_within (who : Actor) (slot : Fin 256) (key : BitVec 256) (s : State) :
    ∃ k, execWkKeyWrite who slot key s = .next { s with hw := k } ∧ s.hw.Within 10187782722139756545126868608293136764027308664064683133522695917168494624887525154469012206574858933362937833440737298436 k := by
  refine ⟨_, rfl, ?_⟩
  generalize s.hw = h
  refine Hw.dictWrite_of _ rfl (by decide) (by decide) (.inr (by decide))
    (fun _ hd => absurd (show _ ∈ ([] : List Reg) from hd) List.not_mem_nil) (fun c => absurd c (by decide)) (fun _ e x => ?_)
  rw [Hw.store_wkKey]
  repeat' first
    | with_reducible apply Hw.Within.refl
    | with_reducible apply Hw.Within.step (Hw.writeWeightKey_within ..); decide

theorem execOpenSession_within (who : Actor) (session : Fin 256) (s : State) :
    ∃ k, execOpenSession who session s = .next { s with hw := k } ∧ s.hw.Within 10006218277586770784916686791511674991643848016257227877902956433571973860856136842584441314489561523623137977080021126148 k := by
  refine ⟨_, rfl, ?_⟩
  generalize s.hw = h
  refine Hw.dictWrite_of _ rfl (by decide) (by decide) (.inl rfl)
    (fun _ hd => absurd (show _ ∈ ([] : List Reg) from hd) List.not_mem_nil) (fun _ => ?_) (fun c => absurd c (by decide))
  show Hw.Within _ _ (Hw.runCommand h who Od.redCommand _ 1)
  unfold Hw.runCommand
  split
  · rw [Hw.mk_boot]
    exact Hw.Within.step (Hw.putBoot_within ..) (by decide) (Hw.Within.refl _ _)
  rw [Hw.command_redCommand_1]
  repeat' first
    | with_reducible apply Hw.Within.refl
    | with_reducible apply Hw.Within.step (Hw.openSession_within ..); decide

theorem execReadDecoded_within (who : Actor) (s : State) :
    ∃ k, execReadDecoded who s = .next { s with hw := k } ∧ s.hw.Within 10017567460021734167754220673005914752623124559706819604951566794369896675201055006014851428408189703151450818902777396292 k := by
  refine ⟨_, rfl, ?_⟩
  generalize s.hw = h
  refine Hw.dictWrite_of _ rfl (by decide) (by decide) (.inl rfl)
    (fun _ hd => absurd (show _ ∈ ([] : List Reg) from hd) List.not_mem_nil) (fun _ => ?_) (fun c => absurd c (by decide))
  show Hw.Within _ _ (Hw.runCommand h who Od.testCommand _ 3)
  rw [Hw.runCommand_eq _ _ _ _ _ rfl, Hw.command_testCommand]
  repeat' first
    | with_reducible apply Hw.Within.refl
    | with_reducible apply Hw.Within.step (Hw.testCommand_within ..); decide

theorem execTamperAck_within (who : Actor) (s : State) :
    ∃ k, execTamperAck who s = .next { s with hw := k } ∧ s.hw.Within 10006218277586770784916686791511674991613501225506378355276790181161730338964466007971615267672349242090100911452611676164 k := by
  refine ⟨_, rfl, ?_⟩
  generalize s.hw = h
  refine Hw.dictWrite_of _ rfl (by decide) (by decide) (.inl rfl)
    (fun _ hd => absurd (show _ ∈ ([] : List Reg) from hd) List.not_mem_nil) (fun _ => ?_) (fun c => absurd c (by decide))
  show Hw.Within _ _ (Hw.runCommand h who Od.tamperAck _ 1)
  rw [Hw.runCommand_eq _ _ _ _ _ rfl, Hw.command_tamperAck_1]
  repeat' first
    | with_reducible apply Hw.Within.refl
    | with_reducible apply Hw.Within.step (Hw.tamperAck_within ..); decide

theorem execProgStepWrite_within (who : Actor) (prog : Fin 128) (word : BitVec 128) (s : State) :
    ∃ k, execProgStepWrite who prog word s = .next { s with hw := k } ∧ s.hw.Within 10187782722139756545126868608293136764027308664064738347493470241678794102934423370672631815446636296455379133634527692804 k := by
  refine ⟨_, rfl, ?_⟩
  generalize s.hw = h
  refine Hw.dictWrite_of _ rfl (by decide) (by decide) (.inr (by decide))
    (fun _ hd => absurd (show _ ∈ ([] : List Reg) from hd) List.not_mem_nil) (fun c => absurd c (by decide)) (fun _ e x => ?_)
  rw [Hw.store_progStep]
  repeat' first
    | with_reducible apply Hw.Within.refl
    | with_reducible apply Hw.Within.step (Hw.progStepWrite_within ..); decide

theorem execKeyInstall_within (who : Actor) (part : PartIx) (key : BitVec 512) (s : State) :
    ∃ k, execKeyInstall who part key s = .next { s with hw := k } ∧ s.hw.Within 10187782722139756545126868608293136764027308664064683133522695917168494624887525154469012206574858933953305701393481861124 k := by
  refine ⟨_, rfl, ?_⟩
  generalize s.hw = h
  refine Hw.dictWrite_of _ rfl (by decide) (by decide) (.inr (by decide))
    (fun _ hd => absurd (show _ ∈ ([] : List Reg) from hd) List.not_mem_nil) (fun c => absurd c (by decide)) (fun _ e x => ?_)
  rw [Hw.store_keyInstall]
  repeat' first
    | with_reducible apply Hw.Within.refl
    | with_reducible apply Hw.Within.step (Hw.installKey_within ..); decide

theorem execAbortRunning_within (who : Actor) (e : EngIx) (s : State) :
    ∃ k, execAbortRunning who e s = .next { s with hw := k } ∧ s.hw.Within 10017567286868386625005044447169843708725258555807115692633689002182051623283834174831022553222647355522942326637849065540 k := by
  refine ⟨_, rfl, ?_⟩
  generalize s.hw = h
  refine Hw.dictWrite_of _ rfl (by decide) (by decide) (.inl rfl)
    (fun _ hd => absurd (show _ ∈ ([] : List Reg) from hd) List.not_mem_nil) (fun _ => ?_) (fun c => absurd c (by decide))
  show Hw.Within _ _ (Hw.runCommand h who Od.engCommand _ 1)
  rw [Hw.runCommand_eq _ _ _ _ _ rfl, Hw.command_engCommand_1]
  repeat' first
    | with_reducible apply Hw.Within.refl
    | with_reducible apply Hw.Within.step (Hw.abortRunning_within ..); decide

theorem execRearm_within (who : Actor) (session : Fin 256) (s : State) :
    ∃ k, execRearm who session s = .next { s with hw := k } ∧ s.hw.Within 10006219518402841983438478331886461356009484915523929991479514911362952137948355187385709940844027704207681223687253072900 k := by
  refine ⟨_, rfl, ?_⟩
  generalize s.hw = h
  refine Hw.dictWrite_of _ rfl (by decide) (by decide) (.inl rfl)
    (fun _ hd => absurd (show _ ∈ ([] : List Reg) from hd) List.not_mem_nil) (fun _ => ?_) (fun c => absurd c (by decide))
  show Hw.Within _ _ (Hw.runCommand h who Od.redCommand _ 5)
  unfold Hw.runCommand
  split
  · rw [Hw.mk_boot]
    exact Hw.Within.step (Hw.putBoot_within ..) (by decide) (Hw.Within.refl _ _)
  rw [Hw.command_redCommand_5]
  repeat' first
    | with_reducible apply Hw.Within.refl
    | with_reducible apply Hw.Within.step (Hw.rearmCommand_within ..); decide

theorem execProvision_within (who : Actor) (s : State) :
    ∃ k, execProvision who s = .next { s with hw := k } ∧ s.hw.Within 20335217789934405143540363479523722488932324396823272406599427607324320827031830786490196680792900567838404659656194066436 k := by
  refine ⟨_, rfl, ?_⟩
  generalize s.hw = h
  refine Hw.dictWrite_of _ rfl (by decide) (by decide) (.inl rfl)
    (fun _ hd => absurd (show _ ∈ ([] : List Reg) from hd) List.not_mem_nil) (fun _ => ?_) (fun c => absurd c (by decide))
  show Hw.Within _ _ (Hw.runCommand h who Od.lcCommand _ 1)
  rw [Hw.runCommand_eq _ _ _ _ _ rfl, Hw.command_lcCommand]
  repeat' first
    | with_reducible apply Hw.Within.refl
    | with_reducible apply Hw.Within.step (Hw.lcTransition_within ..); decide

theorem execPortReset_within (who : Actor) (port : PortIx) (s : State) :
    ∃ k, execPortReset who port s = .next { s with hw := k } ∧ s.hw.Within 10017566055371332394929823155060516352389364190416272403917159289662536230719873676842292913599313091459495740148227283012 k := by
  refine ⟨_, rfl, ?_⟩
  generalize s.hw = h
  refine Hw.dictWrite_of _ rfl (by decide) (by decide) (.inl rfl)
    (fun _ hd => absurd (show _ ∈ ([] : List Reg) from hd) List.not_mem_nil) (fun _ => ?_) (fun c => absurd c (by decide))
  show Hw.Within _ _ (Hw.runCommand h who Od.portCommand _ 1)
  rw [Hw.runCommand_eq _ _ _ _ _ rfl, Hw.command_portCommand_1]
  repeat' first
    | with_reducible apply Hw.Within.refl
    | with_reducible apply Hw.Within.step (Hw.resetPort_within ..); decide

theorem execRelinquish_within (who : Actor) (s : State) :
    ∃ k, execRelinquish who s = .next { s with hw := k } ∧ s.hw.Within 10017566055371332394929823155060516354574866694170217608701553934838995000692581370775949206321910432024753771493145974852 k := by
  refine ⟨_, rfl, ?_⟩
  generalize s.hw = h
  refine Hw.dictWrite_of _ rfl (by decide) (by decide) (.inl rfl)
    (fun _ hd => absurd (show _ ∈ ([] : List Reg) from hd) List.not_mem_nil) (fun _ => ?_) (fun c => absurd c (by decide))
  show Hw.Within _ _ (Hw.runCommand h who Od.pairCommand _ 3)
  rw [Hw.runCommand_eq _ _ _ _ _ rfl, Hw.command_pairCommand_3]
  repeat' first
    | with_reducible apply Hw.Within.refl
    | with_reducible apply Hw.Within.step (Hw.relinquish_within ..); decide

theorem execLeaseGrant_within (who : Actor) (value : BitVec 128) (s : State) :
    ∃ k, execLeaseGrant who value s = .next { s with hw := k } ∧ s.hw.Within 10199131740740389353661796512217210097376301175397100055358651951267022639899265310262461647814136952136497207310868420676 k := by
  refine ⟨_, rfl, ?_⟩
  generalize s.hw = h
  refine Hw.dictWrite_of _ rfl (by decide) (by decide) (.inr (by decide))
    (fun _ hd => absurd (show _ ∈ ([] : List Reg) from hd) List.not_mem_nil) (fun c => absurd c (by decide)) (fun _ e x => ?_)
  rw [Hw.store_leaseGrant]
  repeat' first
    | with_reducible apply Hw.Within.refl
    | with_reducible apply Hw.Within.step (Hw.leaseGrant_within ..); decide

theorem execWmRearm_within (who : Actor) (w : Fin 1280) (s : State) :
    ∃ k, execWmRearm who w s = .next { s with hw := k } ∧ s.hw.Within 10006219518402841983438478331886461356009484915523929991479514911362952137948355187385709940844027704207681223687253071876 k := by
  refine ⟨_, rfl, ?_⟩
  generalize s.hw = h
  refine Hw.dictWrite_of _ rfl (by decide) (by decide) (.inl rfl)
    (fun _ hd => absurd (show _ ∈ ([] : List Reg) from hd) List.not_mem_nil) (fun _ => ?_) (fun c => absurd c (by decide))
  show Hw.Within _ _ (Hw.runCommand h who Od.wmCommand _ 1)
  rw [Hw.runCommand_eq _ _ _ _ _ rfl, Hw.command_wmCommand_1]
  repeat' first
    | with_reducible apply Hw.Within.refl
    | with_reducible apply Hw.Within.step (Hw.armWm_within ..); decide

theorem execRetirePage_within (who : Actor) (dpa : BitVec 64) (s : State) :
    ∃ k, execRetirePage who dpa s = .next { s with hw := k } ∧ s.hw.Within 10187783953636810775202089900402464120363203029455526415687237858574297859100937109810012222798514699437568784341980960772 k := by
  refine ⟨_, rfl, ?_⟩
  generalize s.hw = h
  refine Hw.dictWrite_of _ rfl (by decide) (by decide) (.inr (by decide))
    (fun _ hd => absurd (show _ ∈ ([] : List Reg) from hd) List.not_mem_nil) (fun c => absurd c (by decide)) (fun _ e x => ?_)
  rw [Hw.store_retirePage]
  repeat' first
    | with_reducible apply Hw.Within.refl
    | with_reducible apply Hw.Within.step (Hw.retire_within ..); decide

theorem execUnfreeze_within (who : Actor) (s : State) :
    ∃ k, execUnfreeze who s = .next { s with hw := k } ∧ s.hw.Within 10006218277586770784916686791511674991613501225506378355276790181161730338964466007971615267672349242090100891661401327748 k := by
  refine ⟨_, rfl, ?_⟩
  generalize s.hw = h
  refine Hw.dictWrite_of _ rfl (by decide) (by decide) (.inl rfl)
    (fun _ hd => absurd (show _ ∈ ([] : List Reg) from hd) List.not_mem_nil) (fun _ => ?_) (fun c => absurd c (by decide))
  show Hw.Within _ _ (Hw.runCommand h who Od.cntCommand _ 2)
  rw [Hw.runCommand_eq _ _ _ _ _ rfl, Hw.command_cntCommand]
  repeat' first
    | with_reducible apply Hw.Within.refl
    | with_reducible apply Hw.Within.step (Hw.countCommand_within ..); decide

theorem execServiceModeWriteTest_within (who : Actor) (s : State) :
    ∃ k, execServiceModeWriteTest who s = .next { s with hw := k } ∧ s.hw.Within 10187782722139756545126868608293136764027308664064683133522695917169643996543174571112780966845221665250651887782374938692 k := by
  refine ⟨_, rfl, ?_⟩
  generalize s.hw = h
  refine Hw.dictWrite_of _ rfl (by decide) (by decide) (.inr (by decide))
    (fun _ hd => absurd (show _ ∈ ([] : List Reg) from hd) List.not_mem_nil) (fun c => absurd c (by decide)) (fun _ e x => ?_)
  rw [Hw.store_serviceMode]
  repeat' first
    | with_reducible apply Hw.Within.refl
    | with_reducible apply Hw.Within.step (Hw.writeServiceMode_within ..); decide

theorem execCommit_within (who : Actor) (prog : Fin 128) (s : State) :
    ∃ k, execCommit who prog s = .next { s with hw := k } ∧ s.hw.Within 10006218277586770784916686791511674991613501225507044373799255470567217792905175740927776799688163684392674075248998025220 k := by
  refine ⟨_, rfl, ?_⟩
  generalize s.hw = h
  refine Hw.dictWrite_of _ rfl (by decide) (by decide) (.inl rfl)
    (fun _ hd => absurd (show _ ∈ ([] : List Reg) from hd) List.not_mem_nil) (fun _ => ?_) (fun c => absurd c (by decide))
  show Hw.Within _ _ (Hw.runCommand h who Od.progCommand _ 2)
  rw [Hw.runCommand_eq _ _ _ _ _ rfl, Hw.command_progCommand_2]
  repeat' first
    | with_reducible apply Hw.Within.refl
    | with_reducible apply Hw.Within.step (Hw.progCommit_within ..); decide

theorem execSnapshot_within (who : Actor) (s : State) :
    ∃ k, execSnapshot who s = .next { s with hw := k } ∧ s.hw.Within 10006218277586770784916686791511674991613501225506378355276790181161730338964466007971615267672349242090100891661401327748 k := by
  refine ⟨_, rfl, ?_⟩
  generalize s.hw = h
  refine Hw.dictWrite_of _ rfl (by decide) (by decide) (.inl rfl)
    (fun _ hd => absurd (show _ ∈ ([] : List Reg) from hd) List.not_mem_nil) (fun _ => ?_) (fun c => absurd c (by decide))
  show Hw.Within _ _ (Hw.runCommand h who Od.cntCommand _ 3)
  rw [Hw.runCommand_eq _ _ _ _ _ rfl, Hw.command_cntCommand]
  repeat' first
    | with_reducible apply Hw.Within.refl
    | with_reducible apply Hw.Within.step (Hw.countCommand_within ..); decide

theorem execSecConsentDebugWrite_within (who : Actor) (part : PartIx) (s : State) :
    ∃ k, execSecConsentDebugWrite who part s = .next { s with hw := k } ∧ s.hw.Within 144476125882241156967850638528139453780757176432441871662971496928673881986537719140575897533736495100581437050614280355068 k := by
  refine ⟨_, rfl, ?_⟩
  generalize s.hw = h
  refine Hw.dictWrite_of _ rfl (by decide) (by decide) (.inr (by decide))
    (fun _ hd => absurd (show _ ∈ ([] : List Reg) from hd) List.not_mem_nil) (fun c => absurd c (by decide)) (fun _ e x => ?_)
  rw [Hw.store_secConsentDebug]
  repeat' first
    | with_reducible apply Hw.Within.refl
    | with_reducible apply Hw.Within.step (Hw.writeConsent_within ..); decide
    | with_reducible apply Hw.Within.step (Hw.runStalled_within ..); decide

theorem execSelClear_within (who : Actor) (n : Fin 256) (s : State) :
    ∃ k, execSelClear who n s = .next { s with hw := k } ∧ s.hw.Within 10006219508899464422244162175231678121101432634248230557321998554545899221643271367259446874368169707243714666868526024708 k := by
  refine ⟨_, rfl, ?_⟩
  generalize s.hw = h
  refine Hw.dictWrite_of _ rfl (by decide) (by decide) (.inl rfl)
    (fun _ hd => absurd (show _ ∈ ([] : List Reg) from hd) List.not_mem_nil) (fun _ => ?_) (fun c => absurd c (by decide))
  show Hw.Within _ _ (Hw.runCommand h who Od.selCommand _ 1)
  rw [Hw.runCommand_eq _ _ _ _ _ rfl, Hw.command_selCommand_1]
  repeat' first
    | with_reducible apply Hw.Within.refl
    | with_reducible apply Hw.Within.step (Hw.selClear_within ..); decide

theorem execFixClear_within (who : Actor) (g : PcIx) (s : State) :
    ∃ k, execFixClear who g s = .next { s with hw := k } ∧ s.hw.Within 10006218296826031622999928594382300040511750153767969795933746561995857977756322341710487636526971436858126106899012651012 k := by
  refine ⟨_, rfl, ?_⟩
  generalize s.hw = h
  refine Hw.dictWrite_of _ rfl (by decide) (by decide) (.inl rfl)
    (fun _ hd => absurd (show _ ∈ ([] : List Reg) from hd) List.not_mem_nil) (fun _ => ?_) (fun c => absurd c (by decide))
  show Hw.Within _ _ (Hw.runCommand h who Od.fixCommand _ 1)
  rw [Hw.runCommand_eq _ _ _ _ _ rfl, Hw.command_fixCommand_1]
  repeat' first
    | with_reducible apply Hw.Within.refl
    | with_reducible apply Hw.Within.step (Hw.ignore_within ..); decide
    | with_reducible apply Hw.Within.step (Hw.fixClear_within ..); decide
    | with_reducible apply Hw.Within.ite

theorem execDelete_within (who : Actor) (prog : Fin 128) (s : State) :
    ∃ k, execDelete who prog s = .next { s with hw := k } ∧ s.hw.Within 10006218277586770784916686791511674991613501225509791268845278114954616825738361997057852341059087498241628759890070145028 k := by
  refine ⟨_, rfl, ?_⟩
  generalize s.hw = h
  refine Hw.dictWrite_of _ rfl (by decide) (by decide) (.inl rfl)
    (fun _ hd => absurd (show _ ∈ ([] : List Reg) from hd) List.not_mem_nil) (fun _ => ?_) (fun c => absurd c (by decide))
  show Hw.Within _ _ (Hw.runCommand h who Od.progCommand _ 3)
  rw [Hw.runCommand_eq _ _ _ _ _ rfl, Hw.command_progCommand_3]
  repeat' first
    | with_reducible apply Hw.Within.refl
    | with_reducible apply Hw.Within.step (Hw.progDelete_within ..); decide

theorem execReqStateReset_within (who : Actor) (requester : BitVec 12) (s : State) :
    ∃ k, execReqStateReset who requester s = .next { s with hw := k } ∧ s.hw.Within 10199131904574756050567604333413684395466033006134441929096051588702315249574232887913965211721373190407445059680645151812 k := by
  refine ⟨_, rfl, ?_⟩
  generalize s.hw = h
  refine Hw.dictWrite_of _ rfl (by decide) (by decide) (.inr (by decide))
    (fun _ hd => absurd (show _ ∈ ([] : List Reg) from hd) List.not_mem_nil) (fun c => absurd c (by decide)) (fun _ e x => ?_)
  rw [Hw.store_reqState]
  repeat' first
    | with_reducible apply Hw.Within.refl
    | with_reducible apply Hw.Within.step (Hw.writeReqState_within ..); decide

theorem execClose_within (who : Actor) (session : Fin 256) (s : State) :
    ∃ k, execClose who session s = .next { s with hw := k } ∧ s.hw.Within 10006218277586770784916686791511674991613501225509912049406346949820896933965951845003270235466100480006344104063986699268 k := by
  refine ⟨_, rfl, ?_⟩
  generalize s.hw = h
  refine Hw.dictWrite_of _ rfl (by decide) (by decide) (.inl rfl)
    (fun _ hd => absurd (show _ ∈ ([] : List Reg) from hd) List.not_mem_nil) (fun _ => ?_) (fun c => absurd c (by decide))
  show Hw.Within _ _ (Hw.runCommand h who Od.redCommand _ 3)
  unfold Hw.runCommand
  split
  · rw [Hw.mk_boot]
    exact Hw.Within.step (Hw.putBoot_within ..) (by decide) (Hw.Within.refl _ _)
  rw [Hw.command_redCommand_3]
  repeat' first
    | with_reducible apply Hw.Within.refl
    | with_reducible apply Hw.Within.step (Hw.closeSession_within ..); decide

theorem execDestroy_within (who : Actor) (slot : Fin 256) (s : State) :
    ∃ k, execDestroy who slot s = .next { s with hw := k } ∧ s.hw.Within 10006218277586770784916686791511674991613501225506378355276790181161730338964466007971615267672349242094712577679828781060 k := by
  refine ⟨_, rfl, ?_⟩
  generalize s.hw = h
  refine Hw.dictWrite_of _ rfl (by decide) (by decide) (.inl rfl)
    (fun _ hd => absurd (show _ ∈ ([] : List Reg) from hd) List.not_mem_nil) (fun _ => ?_) (fun c => absurd c (by decide))
  show Hw.Within _ _ (Hw.runCommand h who Od.wkCommand _ 1)
  rw [Hw.runCommand_eq _ _ _ _ _ rfl, Hw.command_wkCommand_1]
  repeat' first
    | with_reducible apply Hw.Within.refl
    | with_reducible apply Hw.Within.step (Hw.destroyWeight_within ..); decide

end Sys2Proof.Machine
end

