-- ==== Sys2Proof/Laws/FrameDebug.lean ====
section
/-! SUPPORT. What each operation and command of Machine/Debug.lean changes, and that it keeps canonical tables. -/

namespace Sys2Proof.Machine

theorem Hw.setTap_within (h : Hw) (f : Tap → Tap) :
    Hw.Within 512 h (Hw.setTap h f) := by
  unfold Hw.setTap
  repeat' first
    | rw [Hw.mk_tap]
    | with_reducible apply Hw.Within.refl
    | with_reducible apply Hw.Within.step (Hw.putTap_within ..); decide

theorem Hw.tapSelect_within (h : Hw) (code : Nat) (ok : Bool) :
    Hw.Within 512 h (Hw.tapSelect h code ok) := by
  unfold Hw.tapSelect
  repeat' first
    | with_reducible apply Hw.Within.refl
    | with_reducible apply Hw.Within.step (Hw.setTap_within ..); decide

/-- An instruction of the debug port changes the port's state and what its own function changes. -/
theorem Hw.tapRun_within {m : Nat} {a h : Hw} {code : Nat} {ok : Bool} {f : Hw → Hw} (hm : 512 &&& m = 512)
    (hf : ∀ y, Hw.Within m a y → Hw.Within m a (f y)) (h1 : Hw.Within m a h) : Hw.Within m a (Hw.tapRun h code ok f) := by
  unfold Hw.tapRun
  split
  · split
    · exact hf _ (Hw.Within.step (Hw.tapSelect_within ..) hm h1)
    · exact Hw.Within.step (Hw.tapSelect_within ..) hm h1
  · exact h1

theorem execExtest_within (s : State) :
    ∃ k, execExtest s = .next { s with hw := k } ∧ s.hw.Within 512 k := by
  refine ⟨_, rfl, ?_⟩
  generalize s.hw = h
  beta_reduce
  repeat' first
    | intro _
    | with_reducible apply Hw.Within.refl
    | with_reducible assumption
    | (with_reducible apply Hw.tapRun_within); (· decide)

theorem execIdcode_within (s : State) :
    ∃ k, execIdcode s = .next { s with hw := k } ∧ s.hw.Within 512 k := by
  refine ⟨_, rfl, ?_⟩
  generalize s.hw = h
  beta_reduce
  repeat' first
    | intro _
    | with_reducible apply Hw.Within.refl
    | with_reducible assumption
    | (with_reducible apply Hw.tapRun_within); (· decide)
    | with_reducible apply Hw.Within.step (Hw.setTap_within ..); decide

theorem execStewardHalt_within (core : Fin 2) (s : State) :
    ∃ k, execStewardHalt core s = .next { s with hw := k } ∧ s.hw.Within 41315998049390537434494706752048189989275292685267576205290549704650361952269459114074325652482205302974450751563959894532 k := by
  refine ⟨_, rfl, ?_⟩
  generalize s.hw = h
  beta_reduce
  repeat' first
    | intro _
    | with_reducible apply Hw.Within.refl
    | with_reducible assumption
    | (with_reducible apply Hw.tapRun_within); (· decide)
    | with_reducible apply Hw.Within.step (Hw.setBit_within ..); decide

theorem Hw.peekBytes_within (h : Hw) (r : Reg) (i : Nat) (first : Nat) (words : Nat) :
    Hw.Within 2 h (Hw.peekBytes h r i first words).2.2 := by
  unfold Hw.peekBytes
  repeat' first
    | intro _
    | extract_lets +onlyGivenNames v0; clear_value (e0 : v0 = _); clear e0
    | with_reducible apply Hw.Within.refl
    | with_reducible assumption
    | with_reducible apply Hw.Within.step (Hw.readObject_within ..); decide
    | (split <;> (rename_i e0; with_reducible apply Hw.Within.snd; case e => with_reducible apply e0))
    | split

theorem execDictPeek_within (address : BitVec 64) (s : State) :
    ∃ k, execDictPeek address s = .next { s with hw := k } ∧ s.hw.Within 514 k := by
  refine ⟨_, rfl, ?_⟩
  generalize s.hw = h
  beta_reduce
  repeat' first
    | intro _
    | extract_lets +onlyGivenNames v0; clear_value (e0 : v0 = _); clear e0
    | with_reducible apply Hw.Within.refl
    | with_reducible assumption
    | (with_reducible apply Hw.tapRun_within); (· decide)
    | with_reducible apply Hw.Within.step (Hw.peekBytes_within ..); decide
    | with_reducible apply Hw.Within.step (Hw.setTap_within ..); decide

theorem Hw.unlock_within (h : Hw) (x : Nat) (y : Nat) (r : Nat) (s : Nat) :
    Hw.Within 30986998537042903075871030064036142491956469513950682153967912278487771464202094335555744239361653977230838081265157014022 h (Hw.unlock h x y r s) := by
  unfold Hw.unlock
  repeat' first
    | with_reducible apply Hw.Within.refl
    | with_reducible apply Hw.Within.step (Hw.random_within ..); decide
    | with_reducible apply Hw.Within.step (Hw.setTap_within ..); decide
    | with_reducible apply Hw.Within.step (Hw.journalNote_within ..); decide
    | with_reducible apply Hw.Within.step (Hw.setReg_within ..); decide
    | with_reducible apply Hw.Within.ite
    | split

theorem execTapReset_within (s : State) :
    ∃ k, execTapReset s = .next { s with hw := k } ∧ s.hw.Within 512 k := by
  refine ⟨_, rfl, ?_⟩
  generalize s.hw = h
  beta_reduce
  repeat' first
    | with_reducible apply Hw.Within.refl
    | with_reducible apply Hw.Within.step (Hw.setTap_within ..); decide

theorem execStewardResume_within (core : Fin 2) (s : State) :
    ∃ k, execStewardResume core s = .next { s with hw := k } ∧ s.hw.Within 144294561437688171207640456711357992008343368993883566884725591192667117700614659994078500594833985409308600108834946547452 k := by
  refine ⟨_, rfl, ?_⟩
  generalize s.hw = h
  beta_reduce
  repeat' first
    | intro _
    | with_reducible apply Hw.Within.refl
    | with_reducible assumption
    | (with_reducible apply Hw.tapRun_within); (· decide)
    | with_reducible apply Hw.Within.step (Hw.runStalled_within ..); decide
    | with_reducible apply Hw.Within.step (Hw.setBit_within ..); decide

theorem execSamplePreload_within (s : State) :
    ∃ k, execSamplePreload s = .next { s with hw := k } ∧ s.hw.Within 512 k := by
  refine ⟨_, rfl, ?_⟩
  generalize s.hw = h
  beta_reduce
  repeat' first
    | intro _
    | with_reducible apply Hw.Within.refl
    | with_reducible assumption
    | (with_reducible apply Hw.tapRun_within); (· decide)

theorem execBypass_within (code : BitVec 8) (s : State) :
    ∃ k, execBypass code s = .next { s with hw := k } ∧ s.hw.Within 512 k := by
  refine ⟨_, rfl, ?_⟩
  generalize s.hw = h
  beta_reduce
  repeat' first
    | intro _
    | with_reducible apply Hw.Within.refl
    | with_reducible assumption
    | (with_reducible apply Hw.tapRun_within); (· decide)
    | with_reducible apply Hw.Within.ite

theorem execWirSelect_within (stack : StackIx) (st : State) :
    ∃ k, execWirSelect stack st = .next { st with hw := k } ∧ st.hw.Within 512 k := by
  refine ⟨_, rfl, ?_⟩
  generalize st.hw = h
  beta_reduce
  repeat' first
    | intro _
    | with_reducible apply Hw.Within.refl
    | with_reducible assumption
    | (with_reducible apply Hw.tapRun_within); (· decide)
    | with_reducible apply Hw.Within.step (Hw.setTap_within ..); decide

theorem execDbgUnlock_within (pubX : Nat) (pubY : Nat) (sigR : Nat) (sigS : Nat) (s : State) :
    ∃ k, execDbgUnlock pubX pubY sigR sigS s = .next { s with hw := k } ∧ s.hw.Within 30986998537042903075871030064036142491956469513950682153967912278487771464202094335555744239361653977230838081265157014022 k := by
  refine ⟨_, rfl, ?_⟩
  generalize s.hw = h
  beta_reduce
  repeat' first
    | intro _
    | with_reducible apply Hw.Within.refl
    | with_reducible assumption
    | (with_reducible apply Hw.tapRun_within); (· decide)
    | with_reducible apply Hw.Within.step (Hw.unlock_within ..); decide

end Sys2Proof.Machine
end

