-- ==== Sys2Proof/Laws/FrameHeat.lean ====
section
/-! SUPPORT. What each operation and command of Machine/Heat.lean changes, and that it keeps canonical tables. -/

namespace Sys2Proof.Machine

theorem execThrotReqChange_within (value : Fin 4) (s : State) :
    ∃ k, execThrotReqChange value s = .next { s with hw := k } ∧ s.hw.Within 68351585149469122636640694597425667667286544715412888638305331450311031224980497600734786781979716 k := by
  refine ⟨_, rfl, ?_⟩
  generalize s.hw = h
  beta_reduce
  repeat' first
    | extract_lets +onlyGivenNames v0; clear_value (e0 : v0 = _); clear e0
    | rw [Hw.mk_boot]
    | with_reducible apply Hw.Within.refl
    | with_reducible apply Hw.Within.step (Hw.noteWants_within ..); decide
    | with_reducible apply Hw.Within.step (Hw.setReg_within ..); decide
    | with_reducible apply Hw.Within.step (Hw.putBoot_within ..); decide
    | with_reducible apply Hw.Within.ite
    | split

theorem Hw.driftCal_within (h : Hw) (s : Nat) :
    Hw.Within 2187250724783011924372502227117621365353169430893212436425770606409952999199375923223513177023062020 h (Hw.driftCal h s) := by
  unfold Hw.driftCal
  repeat' first
    | intro _
    | extract_lets +onlyGivenNames v0; clear_value (e0 : v0 = _); clear e0
    | with_reducible apply Hw.Within.refl
    | with_reducible assumption
    | with_reducible apply Hw.Within.step (Hw.askCal_within ..); decide
    | with_reducible apply Hw.Within.ite
    | with_reducible apply Hw.Within.fold

theorem Hw.shutStack_within (h : Hw) (s : Nat) :
    Hw.Within 11349009281615840088358723652136259966315455650108611596208507376377537278389518956531338822840804714232303099749317700 h (Hw.shutStack h s) := by
  unfold Hw.shutStack
  repeat' first
    | intro _
    | extract_lets +onlyGivenNames v0; clear_value (e0 : v0 = _); (first | (with_reducible apply Hw.Within.let1 e0) | clear e0)
    | rw [Hw.mk_boot]
    | with_reducible apply Hw.Within.refl
    | with_reducible assumption
    | with_reducible apply Hw.Within.step (Hw.setReg_within ..); decide
    | with_reducible apply Hw.Within.step (Hw.setPc_within ..); decide
    | with_reducible apply Hw.Within.step (Hw.raise_within ..); decide
    | with_reducible apply Hw.Within.step (Hw.failStack_within ..); decide
    | with_reducible apply Hw.Within.step (Hw.putBoot_within ..); decide
    | with_reducible apply Hw.Within.ite
    | with_reducible apply Hw.Within.fold

theorem Hw.coldRun_within (h : Hw) (s : Nat) (was : Int) (t : Int) :
    Hw.Within 1231497054230075221292109327356335894365390843282134511483234691223944083767759328369507720836526818118395133693956 h (Hw.coldRun h s was t) := by
  unfold Hw.coldRun
  repeat' first
    | extract_lets +onlyGivenNames v0; clear_value (e0 : v0 = _); clear e0
    | with_reducible apply Hw.Within.refl
    | with_reducible apply Hw.Within.step (Hw.raise_within ..); decide
    | with_reducible apply Hw.Within.ite

theorem execLevelDwellExpiry_within (stack : StackIx) (s : State) :
    ∃ k, execLevelDwellExpiry stack s = .next { s with hw := k } ∧ s.hw.Within 8192 k := by
  refine ⟨_, rfl, ?_⟩
  generalize s.hw = h
  beta_reduce
  repeat' first
    | extract_lets +onlyGivenNames v0; clear_value (e0 : v0 = _); clear e0
    | with_reducible apply Hw.Within.refl
    | with_reducible apply Hw.Within.step (Hw.startRateSwitch_within ..); decide
    | with_reducible apply Hw.Within.ite
    | split

theorem Hw.laneUnusable_within (h : Hw) (g : Nat) (lane : Nat) :
    Hw.Within 11349009281615840088357655658618299511274258139255526820156026838249135922831171577216226391489328600469595571037912132 h (Hw.laneUnusable h g lane) := by
  unfold Hw.laneUnusable
  repeat' first
    | intro _
    | extract_lets +onlyGivenNames v0; clear_value (e0 : v0 = _); (first | (with_reducible apply Hw.Within.let1 e0) | clear e0)
    | with_reducible apply Hw.Within.refl
    | with_reducible assumption
    | with_reducible apply Hw.Within.step (Hw.failLane_within ..); decide
    | with_reducible apply Hw.Within.step (Hw.setBit_within ..); decide
    | with_reducible apply Hw.Within.step (Hw.setPc_within ..); decide
    | with_reducible apply Hw.Within.step (Hw.setReg_within ..); decide
    | with_reducible apply Hw.Within.ite

theorem Hw.noteMargin_within (h : Hw) (g : Nat) :
    Hw.Within 139984046386112763159840142535527767382602843577165595931249318810236991948760059086304843329475444740 h (Hw.noteMargin h g) := by
  unfold Hw.noteMargin
  repeat' first
    | extract_lets +onlyGivenNames v0; clear_value (e0 : v0 = _); clear e0
    | with_reducible apply Hw.Within.refl
    | with_reducible apply Hw.Within.step (Hw.setReg_within ..); decide

theorem execCenteringWindow_within (g : PcIx) (lane : Fin 38) (dPlus : Nat) (dMinus : Nat) (s : State) :
    ∃ k, execCenteringWindow g lane dPlus dMinus s = .next { s with hw := k } ∧ s.hw.Within 11349009281615840298333725237787444251034471942547177894060292203997529819705149792571714314629417229926860565251079236 k := by
  refine ⟨_, rfl, ?_⟩
  generalize s.hw = h
  beta_reduce
  repeat' first
    | extract_lets +onlyGivenNames v0; clear_value (e0 : v0 = _); clear e0
    | with_reducible apply Hw.Within.refl
    | with_reducible apply Hw.Within.step (Hw.laneUnusable_within ..); decide
    | with_reducible apply Hw.Within.step (Hw.noteMargin_within ..); decide
    | with_reducible apply Hw.Within.step (Hw.setElem_within ..); decide
    | with_reducible apply Hw.Within.ite

theorem Hw.shutDevice_within (h : Hw) :
    Hw.Within 1231497054230075221292109327356335894365390843282134511483234691223944083767844398961237955452392661770253075747844 h (Hw.shutDevice h) := by
  unfold Hw.shutDevice
  repeat' first
    | intro _
    | extract_lets +onlyGivenNames v0; clear_value (e0 : v0 = _); (first | (with_reducible apply Hw.Within.let1 e0) | clear e0)
    | rw [Hw.mk_boot]
    | with_reducible apply Hw.Within.refl
    | with_reducible assumption
    | with_reducible apply Hw.Within.step (Hw.raise_within ..); decide
    | with_reducible apply Hw.Within.step (Hw.setReg_within ..); decide
    | with_reducible apply Hw.Within.step (Hw.putBoot_within ..); decide
    | with_reducible apply Hw.Within.ite
    | with_reducible apply Hw.Within.fold

theorem Hw.evalStack_within (h : Hw) (s : Nat) (t : Int) :
    Hw.Within 1240816071198521792341369924834737264588150691449784767706215417706112704106849144297763032953318314905131554975812 h (Hw.evalStack h s t) := by
  unfold Hw.evalStack
  repeat' first
    | intro _
    | extract_lets +onlyGivenNames v0; clear_value (e0 : v0 = _); (first | (with_reducible apply Hw.Within.let1 e0) | clear e0)
    | with_reducible apply Hw.Within.refl
    | with_reducible assumption
    | with_reducible apply Hw.Within.step (Hw.setReg_within ..); decide
    | with_reducible apply Hw.Within.step (Hw.askMultiplier_within ..); decide
    | with_reducible apply Hw.Within.step (Hw.noteWant_within ..); decide
    | with_reducible apply Hw.Within.step (Hw.cross_within ..); decide
    | with_reducible apply Hw.Within.step (Hw.uncross_within ..); decide
    | with_reducible apply Hw.Within.ite

theorem execColdHoldWait_within (stack : StackIx) (s : State) :
    ∃ k, execColdHoldWait stack s = .next { s with hw := k } ∧ s.hw.Within 1231497054230075221292109327356335894365390843282134511483234691223944083767759328369507720836526818118395133694020 k := by
  refine ⟨_, rfl, ?_⟩
  generalize s.hw = h
  beta_reduce
  repeat' first
    | extract_lets +onlyGivenNames v0; clear_value (e0 : v0 = _); clear e0
    | with_reducible apply Hw.Within.refl
    | with_reducible apply Hw.Within.step (Hw.raise_within ..); decide
    | with_reducible apply Hw.Within.step (Hw.setTimer_within ..); decide
    | with_reducible apply Hw.Within.ite

theorem Hw.putTemp_within (h : Hw) (r : Reg) (i : Nat) (v : Option Int) :
    Hw.Within r.mask h (Hw.putTemp h r i v) := by
  unfold Hw.putTemp
  repeat' first
    | with_reducible apply Hw.Within.refl
    | with_reducible apply Hw.Within.step (Hw.setSreg_within ..); first | decide | exact Nat.and_self _ | exact mask_r _ _ | exact mask_l _ _ _ | exact mask_m _ _ _

theorem execSensorReading_within (src : SensorSrc) (reading : Option Int) (st : State) :
    ∃ k, execSensorReading src reading st = .next { st with hw := k } ∧ st.hw.Within 11349018600632808537302921259236741997666622369939469444291916415958584319820082245293885233213567600587266719369641028 k := by
  refine ⟨_, rfl, ?_⟩
  generalize st.hw = h
  beta_reduce
  repeat' first
    | intro _
    | extract_lets +onlyGivenNames v0; clear_value (e0 : v0 = _); (first | (with_reducible apply Hw.Within.let1 e0) | clear e0)
    | rw [Hw.mk_sl]
    | with_reducible apply Hw.Within.refl
    | with_reducible assumption
    | with_reducible apply Hw.Within.step (Hw.setBit_within ..); decide
    | with_reducible apply Hw.Within.step (Hw.raise_within ..); decide
    | with_reducible apply Hw.Within.step (Hw.setElem_within ..); decide
    | with_reducible apply Hw.Within.step (Hw.putTemp_within ..); decide
    | with_reducible apply Hw.Within.step (Hw.shutStack_within ..); decide
    | with_reducible apply Hw.Within.step (Hw.driftCal_within ..); decide
    | with_reducible apply Hw.Within.step (Hw.coldRun_within ..); decide
    | with_reducible apply Hw.Within.step (Hw.evalStack_within ..); decide
    | with_reducible apply Hw.Within.step (Hw.sirocco_within ..); decide
    | with_reducible apply Hw.Within.step (Hw.setReg_within ..); decide
    | with_reducible apply Hw.Within.step (Hw.shutDevice_within ..); decide
    | with_reducible apply Hw.Within.step (Hw.putSl_within ..); decide
    | with_reducible apply Hw.Within.ite
    | split

theorem execCalibrationRun_within (g : PcIx) (caPassed : Bool) (badWriteLanes : List (Fin 38)) (s : State) :
    ∃ k, execCalibrationRun g caPassed badWriteLanes s = .next { s with hw := k } ∧ s.hw.Within 11349009281615840156162428126891669166821827179901789146110706948115757413132228224294134017080071032373635230093786180 k := by
  refine ⟨_, rfl, ?_⟩
  generalize s.hw = h
  beta_reduce
  repeat' first
    | intro _
    | extract_lets +onlyGivenNames v0; clear_value (e0 : v0 = _); (first | (with_reducible apply Hw.Within.let1 e0) | clear e0)
    | with_reducible apply Hw.Within.refl
    | with_reducible assumption
    | with_reducible apply Hw.Within.step (Hw.laneUnusable_within ..); decide
    | with_reducible apply Hw.Within.step (Hw.spareLanes_within ..); decide
    | with_reducible apply Hw.Within.step (Hw.setPc_within ..); decide
    | with_reducible apply Hw.Within.step (Hw.setReg_within ..); decide
    | with_reducible apply Hw.Within.step (Hw.addReg_within ..); decide
    | with_reducible apply Hw.Within.step (Hw.failPc_within ..); decide
    | with_reducible apply Hw.Within.step (Hw.dropCal_within ..); decide
    | with_reducible apply Hw.Within.ite
    | with_reducible apply Hw.Within.fold

theorem execPowerEstimate_within (hubMw : BitVec 32) (stackMw : List (BitVec 32)) (s : State) :
    ∃ k, execPowerEstimate hubMw stackMw s = .next { s with hw := k } ∧ s.hw.Within 1913844384185135433825939448727918694684023252031560881872549280608708874299453932820574029895172164 k := by
  refine ⟨_, rfl, ?_⟩
  generalize s.hw = h
  beta_reduce
  repeat' first
    | intro _
    | extract_lets +onlyGivenNames v0; clear_value (e0 : v0 = _); with_reducible apply Hw.Within.let1 e0
    | with_reducible apply Hw.Within.refl
    | with_reducible assumption
    | with_reducible apply Hw.Within.step (Hw.setTimer_within ..); decide
    | with_reducible apply Hw.Within.step (Hw.setElem_within ..); decide
    | with_reducible apply Hw.Within.step (Hw.setReg_within ..); decide
    | with_reducible apply Hw.Within.ite
    | with_reducible apply Hw.Within.fold

theorem execCalIntervalExpiry_within (g : PcIx) (s : State) :
    ∃ k, execCalIntervalExpiry g s = .next { s with hw := k } ∧ s.hw.Within 2187250724783011924372502227117621365353169430893212436425770606409952999199375923223513177023062020 k := by
  refine ⟨_, rfl, ?_⟩
  generalize s.hw = h
  beta_reduce
  repeat' first
    | extract_lets +onlyGivenNames v0; clear_value (e0 : v0 = _); clear e0
    | with_reducible apply Hw.Within.refl
    | with_reducible apply Hw.Within.step (Hw.askCal_within ..); decide
    | with_reducible apply Hw.Within.ite

theorem execPowerTempCoarseRefresh_within (s : State) :
    ∃ k, execPowerTempCoarseRefresh s = .next { s with hw := k } ∧ s.hw.Within 96 k := by
  refine ⟨_, rfl, ?_⟩
  generalize s.hw = h
  beta_reduce
  repeat' first
    | intro _
    | extract_lets +onlyGivenNames v0; clear_value (e0 : v0 = _); with_reducible apply Hw.Within.let1 e0
    | rw [Hw.mk_odPower]
    | with_reducible apply Hw.Within.refl
    | with_reducible assumption
    | with_reducible apply Hw.Within.step (Hw.setTimer_within ..); decide
    | with_reducible apply Hw.Within.step (Hw.putOdPower_within ..); decide
    | with_reducible apply Hw.Within.ite

end Sys2Proof.Machine
end

