-- ==== Sys2Proof/Laws/FrameLink.lean ====
section
/-! SUPPORT. What each operation and command of Machine/Link.lean changes, and that it keeps canonical tables. -/

namespace Sys2Proof.Machine

theorem Hw.retrainModule_within (h : Hw) (stack : Nat) (m : Nat) :
    Hw.Within 2112 h (Hw.retrainModule h stack m) := by
  unfold Hw.retrainModule
  repeat' first
    | intro _
    | extract_lets +onlyGivenNames v0; clear_value (e0 : v0 = _); (first | (with_reducible apply Hw.Within.let1 e0) | clear e0)
    | with_reducible apply Hw.Within.refl
    | with_reducible assumption
    | with_reducible apply Hw.Within.step (Hw.setLink_within ..); decide
    | with_reducible apply Hw.Within.step (Hw.setTimer_within ..); decide
    | with_reducible apply Hw.Within.ite
    | with_reducible apply Hw.Within.fold

theorem execFlitIdleTimeout_within (stack : StackIx) (module : Fin 8) (hubEnd : Bool) (s : State) :
    ∃ k, execFlitIdleTimeout stack module hubEnd s = .next { s with hw := k } ∧ s.hw.Within 2112 k := by
  refine ⟨_, rfl, ?_⟩
  generalize s.hw = h
  beta_reduce
  repeat' first
    | extract_lets +onlyGivenNames v0; clear_value (e0 : v0 = _); clear e0
    | with_reducible apply Hw.Within.refl
    | with_reducible apply Hw.Within.step (Hw.retrainModule_within ..); decide
    | with_reducible apply Hw.Within.ite

theorem execReplayLimitRetrain_within (stack : StackIx) (module : Fin 8) (hubEnd : Bool) (s : State) :
    ∃ k, execReplayLimitRetrain stack module hubEnd s = .next { s with hw := k } ∧ s.hw.Within 2112 k := by
  refine ⟨_, rfl, ?_⟩
  generalize s.hw = h
  beta_reduce
  repeat' first
    | extract_lets +onlyGivenNames v0; clear_value (e0 : v0 = _); clear e0
    | with_reducible apply Hw.Within.refl
    | with_reducible apply Hw.Within.step (Hw.retrainModule_within ..); decide
    | with_reducible apply Hw.Within.ite

theorem execSandglassWindow_within (die : Option StackIx) (tau : BitVec 16) (s : State) :
    ∃ k, execSandglassWindow die tau s = .next { s with hw := k } ∧ s.hw.Within 3987683987354747618711421181210132548 k := by
  refine ⟨_, rfl, ?_⟩
  generalize s.hw = h
  beta_reduce
  repeat' first
    | intro _
    | extract_lets +onlyGivenNames v0; clear_value (e0 : v0 = _); (first | (with_reducible apply Hw.Within.let1 e0) | clear e0)
    | with_reducible apply Hw.Within.refl
    | with_reducible assumption
    | with_reducible apply Hw.Within.step (Hw.setTimer_within ..); decide
    | with_reducible apply Hw.Within.step (Hw.setReg_within ..); decide
    | with_reducible apply Hw.Within.step (Hw.addReg_within ..); decide
    | with_reducible apply Hw.Within.ite
    | split

theorem execPaceQuantizedRefresh_within (s : State) :
    ∃ k, execPaceQuantizedRefresh s = .next { s with hw := k } ∧ s.hw.Within 80 k := by
  refine ⟨_, rfl, ?_⟩
  generalize s.hw = h
  beta_reduce
  repeat' first
    | intro _
    | extract_lets +onlyGivenNames v0; clear_value (e0 : v0 = _); with_reducible apply Hw.Within.let1 e0
    | rw [Hw.mk_odPace]
    | with_reducible apply Hw.Within.refl
    | with_reducible assumption
    | with_reducible apply Hw.Within.step (Hw.setTimer_within ..); decide
    | with_reducible apply Hw.Within.step (Hw.putOdPace_within ..); decide
    | with_reducible apply Hw.Within.ite

theorem Hw.failModule_within (h : Hw) (stack : Nat) (m : Nat) :
    Hw.Within 1231497054230075221292109327356335894365390843282134511483234691223944083767764645281490860500018433346636255074372 h (Hw.failModule h stack m) := by
  unfold Hw.failModule
  repeat' first
    | intro _
    | extract_lets +onlyGivenNames v0; clear_value (e0 : v0 = _); (first | (with_reducible apply Hw.Within.let1 e0) | clear e0)
    | with_reducible apply Hw.Within.refl
    | with_reducible assumption
    | with_reducible apply Hw.Within.step (Hw.setLink_within ..); decide
    | with_reducible apply Hw.Within.step (Hw.subReg_within ..); decide
    | with_reducible apply Hw.Within.step (Hw.raise_within ..); decide
    | with_reducible apply Hw.Within.step (Hw.sendQanat_within ..); decide
    | with_reducible apply Hw.Within.step (Hw.setTimer_within ..); decide
    | with_reducible apply Hw.Within.ite
    | with_reducible apply Hw.Within.fold

theorem execFlitDeliveryTimeout_within (stack : StackIx) (module : Fin 8) (hubEnd : Bool) (s : State) :
    ∃ k, execFlitDeliveryTimeout stack module hubEnd s = .next { s with hw := k } ∧ s.hw.Within 1231497054230075221292109327356335894365390843282134511483234691223944083767764645281490860500018433346636255074372 k := by
  refine ⟨_, rfl, ?_⟩
  generalize s.hw = h
  beta_reduce
  repeat' first
    | extract_lets +onlyGivenNames v0; clear_value (e0 : v0 = _); clear e0
    | with_reducible apply Hw.Within.refl
    | with_reducible apply Hw.Within.step (Hw.failModule_within ..); decide
    | with_reducible apply Hw.Within.ite
    | split

theorem execModuleRetrainDone_within (stack : StackIx) (module : Fin 8) (hubEnd : Bool) (failedLanes : Nat) (delivered : Bool) (s : State) :
    ∃ k, execModuleRetrainDone stack module hubEnd failedLanes delivered s = .next { s with hw := k } ∧ s.hw.Within 1231497054230075221292109327356335894365390843282134511483234691223944083767785912929423419153984894259600740587588 k := by
  refine ⟨_, rfl, ?_⟩
  generalize s.hw = h
  beta_reduce
  repeat' first
    | intro _
    | extract_lets +onlyGivenNames v0; clear_value (e0 : v0 = _); (first | (with_reducible apply Hw.Within.let1 e0) | (with_reducible apply Hw.Within.letFnL e0) | clear e0)
    | with_reducible apply Hw.Within.refl
    | with_reducible assumption
    | with_reducible apply Hw.Within.step (Hw.setTimer_within ..); decide
    | with_reducible apply Hw.Within.step (Hw.addReg_within ..); decide
    | with_reducible apply Hw.Within.step (Hw.setLink_within ..); decide
    | with_reducible apply Hw.Within.step (Hw.failModule_within ..); decide
    | with_reducible apply Hw.Within.step (Hw.pumpQanat_within ..); decide
    | with_reducible apply Hw.Within.ite
    | with_reducible apply Hw.Within.fold
    | with_reducible apply_assumption -exfalso -symm

theorem Hw.countReplays_within (h : Hw) (stack : Nat) (n : Nat) :
    Hw.Within 1231312693637327475383720003129487931408741852202045208373384168882678805359298465430662099792136844231689367453700 h (Hw.countReplays h stack n) := by
  unfold Hw.countReplays
  repeat' first
    | with_reducible apply Hw.Within.refl
    | with_reducible apply Hw.Within.step (Hw.countSel_within ..); decide
    | with_reducible apply Hw.Within.step (Hw.addReg_within ..); decide
    | with_reducible apply Hw.Within.ite

theorem execFlitReceive_within (stack : StackIx) (module : Fin 8) (hubEnd : Bool) (header : BitVec 32) (payload : List Byte) (crc : BitVec 32) (s : State) :
    ∃ k, execFlitReceive stack module hubEnd header payload crc s = .next { s with hw := k } ∧ s.hw.Within 1231312693637327475383720003129487931408741852202045208373384168882678805359298465430662099792136844231689367455812 k := by
  refine ⟨_, rfl, ?_⟩
  generalize s.hw = h
  beta_reduce
  repeat' first
    | extract_lets +onlyGivenNames v0; clear_value (e0 : v0 = _); clear e0
    | with_reducible apply Hw.Within.refl
    | with_reducible apply Hw.Within.step (Hw.countReplays_within ..); decide
    | with_reducible apply Hw.Within.step (Hw.setLink_within ..); decide
    | with_reducible apply Hw.Within.step (Hw.setTimer_within ..); decide
    | with_reducible apply Hw.Within.step (Hw.pumpQanat_within ..); decide
    | with_reducible apply Hw.Within.ite

theorem execSliceSilenceTimeout_within (stack : StackIx) (s : State) :
    ∃ k, execSliceSilenceTimeout stack s = .next { s with hw := k } ∧ s.hw.Within 11349009281615840088357655658618299511274258139255526820151206024116358952004545435727427712977914393957291618705849412 k := by
  refine ⟨_, rfl, ?_⟩
  generalize s.hw = h
  beta_reduce
  repeat' first
    | with_reducible apply Hw.Within.refl
    | with_reducible apply Hw.Within.step (Hw.failStack_within ..); decide
    | with_reducible apply Hw.Within.ite

theorem execQanatRetryBudgetExpiry_within (stack : StackIx) (s : State) :
    ∃ k, execQanatRetryBudgetExpiry stack s = .next { s with hw := k } ∧ s.hw.Within 11349009281615840088357655658618299511274258139255526820151206024116358952004545435727427712977914393957291618705849412 k := by
  refine ⟨_, rfl, ?_⟩
  generalize s.hw = h
  beta_reduce
  repeat' first
    | with_reducible apply Hw.Within.refl
    | with_reducible apply Hw.Within.step (Hw.failStack_within ..); decide
    | with_reducible apply Hw.Within.ite

end Sys2Proof.Machine
end

