-- ==== Sys2Proof/Laws/FrameMirror.lean ====
section
/-! SUPPORT. What each operation and command of Machine/Mirror.lean changes, and that it keeps canonical tables. -/

namespace Sys2Proof.Machine

theorem Hw.mirrorWrite_within (h : Hw) (dpa : Nat) (data : List Byte) (mask : List Bool) (marked : List Nat) (window : Option (BitVec 12 × BitVec 16 × BitVec 4)) :
    Hw.Within 11349182434963382837533881494243739595514612493578492732761445672842561311693747774452119629835928758954304218499906628 h (Hw.mirrorWrite h dpa data mask marked window) := by
  unfold Hw.mirrorWrite
  repeat' first
    | intro _
    | extract_lets +onlyGivenNames v0; clear_value (e0 : v0 = _); (first | (with_reducible apply Hw.Within.let1 e0) | clear e0)
    | with_reducible apply Hw.Within.refl
    | with_reducible assumption
    | with_reducible apply Hw.Within.step (Hw.writeBytes_within ..); decide
    | with_reducible apply Hw.Within.step (Hw.setWin_within ..); decide
    | split

theorem Hw.mirrorSet_within (h : Hw) (r : Reg) (i : Nat) (e : Nat) (v : Nat) :
    Hw.Within 165263992197562149737978827008192759957101170741070304821162198818601447809077836456297302609928821211897803006255831186940 h (Hw.mirrorSet h r i e v) := by
  unfold Hw.mirrorSet
  repeat' first
    | with_reducible apply Hw.Within.refl
    | with_reducible apply Hw.Within.step (Hw.command_within ..); first | decide | exact Reg.mask_any _ _ (by decide)
    | with_reducible apply Hw.Within.step (Hw.writeReqState_within ..); first | decide | exact Reg.mask_any _ _ (by decide)
    | with_reducible apply Hw.Within.step (Hw.setMode_within ..); first | decide | exact Reg.mask_any _ _ (by decide)
    | with_reducible apply Hw.Within.step (Hw.store_within ..); first | decide | exact Reg.mask_any _ _ (by decide)
    | with_reducible apply Hw.Within.step (Hw.setReg_within ..); first | decide | exact Reg.mask_any _ _ (by decide)
    | with_reducible apply Hw.Within.step (Hw.setElem_within ..); first | decide | exact Reg.mask_any _ _ (by decide)
    | with_reducible apply Hw.Within.ite
    | split

theorem Hw.refill_within (h : Hw) (p : Nat) (old : Option (BitVec 512)) (key : BitVec 512) :
    Hw.Within 170141183460469232321983114074593976324 h (Hw.refill h p old key) := by
  unfold Hw.refill
  repeat' first
    | intro _
    | with_reducible apply Hw.Within.refl
    | with_reducible assumption
    | with_reducible apply Hw.Within.step (Hw.setReg_within ..); decide
    | with_reducible apply Hw.Within.step (Hw.fillStack_within ..); decide
    | with_reducible apply Hw.Within.ite
    | with_reducible apply Hw.Within.fold

theorem Hw.mirrorKey_within (h : Hw) (p : Nat) (key : BitVec 512) :
    Hw.Within 170141183460469232322055171668632952836 h (Hw.mirrorKey h p key) := by
  unfold Hw.mirrorKey
  repeat' first
    | extract_lets +onlyGivenNames v0; clear_value (e0 : v0 = _); clear e0
    | rw [Hw.mk_sec]
    | with_reducible apply Hw.Within.refl
    | with_reducible apply Hw.Within.step (Hw.refill_within ..); decide
    | with_reducible apply Hw.Within.step (Hw.setReg_within ..); decide
    | with_reducible apply Hw.Within.step (Hw.putSec_within ..); decide

theorem Hw.mirrorCopy_within (h : Hw) (s : Nat) (off : Nat) (data : List Byte) (marked : List Nat) :
    Hw.Within 445601619823168831371222494339551472730008711114423554826655723296270909323229904481812484 h (Hw.mirrorCopy h s off data marked) := by
  unfold Hw.mirrorCopy
  repeat' first
    | intro _
    | extract_lets +onlyGivenNames v0; clear_value (e0 : v0 = _); (first | (with_reducible apply Hw.Within.let1 e0) | clear e0)
    | with_reducible apply Hw.Within.refl
    | with_reducible assumption
    | with_reducible apply Hw.Within.step (Hw.putRaw_within ..); decide
    | with_reducible apply Hw.Within.step (Hw.setReg_within ..); decide
    | with_reducible apply Hw.Within.ite
    | with_reducible apply Hw.Within.fold
    | split

theorem Hw.mirrorApply_within (h : Hw) (x2 : MirrorMsg) :
    Hw.Within 165263992197562149737978827008192759957101170741070304821162198818601447809077836456297302609928821211897803006255831186940 h (Hw.mirrorApply h x2) := by
  unfold Hw.mirrorApply
  repeat' first
    | extract_lets +onlyGivenNames v0; clear_value (e0 : v0 = _); (first | (with_reducible apply Hw.Within.letCar e0; subst e0) | clear e0)
    | rw [Hw.mk_car]
    | rw [Hw.mk_pair]
    | with_reducible apply Hw.Within.refl
    | with_reducible apply Hw.Within.step (Hw.mirrorWrite_within ..); decide
    | with_reducible apply Hw.Within.step (Hw.mirrorSet_within ..); decide
    | with_reducible apply Hw.Within.step (Hw.mirrorKey_within ..); decide
    | with_reducible apply Hw.Within.step (Hw.setReg_within ..); decide
    | with_reducible apply Hw.Within.step (Hw.mirrorCopy_within ..); decide
    | (with_reducible apply Hw.Within.stepCar); (· rfl); (· decide)
    | with_reducible apply Hw.Within.step (Hw.putPair_within ..); decide
    | split

theorem execMirrorMessage_within (m : MirrorMsg) (s : State) :
    ∃ k, execMirrorMessage m s = .next { s with hw := k } ∧ s.hw.Within 165263992197562149737978827008192759957101170741070304821162198818601447809077836456297302609928821211897803006255831186940 k := by
  refine ⟨_, rfl, ?_⟩
  generalize s.hw = h
  beta_reduce
  repeat' first
    | intro _
    | extract_lets +onlyGivenNames v0; clear_value (e0 : v0 = _); (first | (with_reducible apply Hw.Within.let1 e0) | clear e0)
    | rw [Hw.mk_pair]
    | with_reducible apply Hw.Within.refl
    | with_reducible assumption
    | with_reducible apply Hw.Within.step (Hw.mirrorApply_within ..); decide
    | with_reducible apply Hw.Within.step (Hw.sendPeer_within ..); decide
    | with_reducible apply Hw.Within.step (Hw.ignoreEvent_within ..); decide
    | with_reducible apply Hw.Within.step (Hw.putPair_within ..); decide
    | with_reducible apply Hw.Within.ite

end Sys2Proof.Machine
end

