-- ==== Sys2Proof/Laws/FramePorts.lean ====
section
/-! SUPPORT. What each operation and command of Machine/Ports.lean changes, and that it keeps canonical tables. -/

namespace Sys2Proof.Machine

theorem Hw.noteBlock_within (h : Hw) (n : Nat) :
    Hw.Within 40564819207303340847894502576132 h (Hw.noteBlock h n) := by
  unfold Hw.noteBlock
  repeat' first
    | extract_lets +onlyGivenNames v0; clear_value (e0 : v0 = _); clear e0
    | with_reducible apply Hw.Within.refl
    | with_reducible apply Hw.Within.step (Hw.setPort_within ..); decide
    | with_reducible apply Hw.Within.step (Hw.addReg_within ..); decide
    | split

theorem Hw.dropBeats_within (h : Hw) (n : Nat) (uid : Nat) :
    Hw.Within 4096 h (Hw.dropBeats h n uid) := by
  unfold Hw.dropBeats
  repeat' first
    | extract_lets +onlyGivenNames v0; clear_value (e0 : v0 = _); clear e0
    | with_reducible apply Hw.Within.refl
    | with_reducible apply Hw.Within.step (Hw.setPort_within ..); decide

theorem Hw.refuse_within (h : Hw) (r : Rq) (status : Nat) (rep : Bool) :
    Hw.Within 633825300114114700748352131076 h (Hw.refuse h r status rep) := by
  unfold Hw.refuse
  repeat' first
    | with_reducible apply Hw.Within.refl
    | with_reducible apply Hw.Within.step (Hw.reply_within ..); decide
    | with_reducible apply Hw.Within.step (Hw.dropBeats_within ..); decide

theorem Hw.admitBirsp_within (h : Hw) (r : Rq) :
    Hw.Within 11349182434963382837533881494243739595514612493578492732761445672842561311693811747537100766624901915986431626636688452 h (Hw.admitBirsp h r) := by
  unfold Hw.admitBirsp
  repeat' first
    | extract_lets +onlyGivenNames v0; clear_value (e0 : v0 = _); clear e0
    | with_reducible apply Hw.Within.refl
    | with_reducible apply Hw.Within.step (Hw.enqueueArb_within ..); decide
    | with_reducible apply Hw.Within.step (Hw.setTrk_within ..); decide
    | with_reducible apply Hw.Within.step (Hw.resolveBirsp_within ..); decide
    | with_reducible apply Hw.Within.ite

theorem Hw.deny_within (h : Hw) (r : Rq) :
    Hw.Within 1231312693637327475383720003129487931408741852202045208373384168882678805359287832257000578382235296743015869059076 h (Hw.deny h r) := by
  unfold Hw.deny
  repeat' first
    | intro _
    | extract_lets +onlyGivenNames v0; clear_value (e0 : v0 = _); (first | (with_reducible apply Hw.Within.let1 e0) | clear e0)
    | with_reducible apply Hw.Within.refl
    | with_reducible assumption
    | with_reducible apply Hw.Within.step (Hw.addReg_within ..); decide
    | with_reducible apply Hw.Within.step (Hw.dropBeats_within ..); decide
    | with_reducible apply Hw.Within.step (Hw.countSel_within ..); decide
    | with_reducible apply Hw.Within.step (Hw.setPort_within ..); decide
    | with_reducible apply Hw.Within.step (Hw.setReg_within ..); decide
    | with_reducible apply Hw.Within.ite

theorem Hw.tagNew_within (h : Hw) (r : Rq) :
    Hw.Within 256 h (Hw.tagNew h r).2 := by
  unfold Hw.tagNew
  repeat' first
    | intro _
    | extract_lets +onlyGivenNames v0; clear_value (e0 : v0 = _); (first | (with_reducible apply Hw.Within.let1 e0) | clear e0)
    | rw [Hw.mk_lfsr]
    | with_reducible apply Hw.Within.refl
    | with_reducible assumption
    | with_reducible apply Hw.Within.step (Hw.putLfsr_within ..); decide

theorem Hw.queueUp_within (h : Hw) (uid : Nat) (s : Nat) :
    Hw.Within 6144 h (Hw.queueUp h uid s) := by
  unfold Hw.queueUp
  repeat' first
    | intro _
    | extract_lets +onlyGivenNames v0; clear_value (e0 : v0 = _); with_reducible apply Hw.Within.let1 e0
    | with_reducible apply Hw.Within.refl
    | with_reducible assumption
    | with_reducible apply Hw.Within.step (Hw.setTrk_within ..); decide
    | with_reducible apply Hw.Within.step (Hw.sendSpan_within ..); decide
    | with_reducible apply Hw.Within.step (Hw.enqueueArb_within ..); decide
    | with_reducible apply Hw.Within.ite
    | split

theorem Hw.dispatchAcw_within (h : Hw) (uid : Nat) (t : Tracker) :
    Hw.Within 11347777784561610013136363548841360776337249307410095776824055255401477425974662727867359861939432635800275365885777988 h (Hw.dispatchAcw h uid t) := by
  unfold Hw.dispatchAcw
  repeat' first
    | extract_lets +onlyGivenNames v0; clear_value (e0 : v0 = _); clear e0
    | with_reducible apply Hw.Within.refl
    | with_reducible apply Hw.Within.step (Hw.complete_within ..); decide
    | with_reducible apply Hw.Within.step (Hw.parkAcw_within ..); decide
    | with_reducible apply Hw.Within.step (Hw.queueUp_within ..); decide
    | with_reducible apply Hw.Within.ite

theorem Hw.dispatchNew_within (h : Hw) (uid : Nat) (t : Tracker) :
    Hw.Within 165263992197562149737978827008192759957101170741070304821162198818601447809077836456297302609928821211897803006255831186942 h (Hw.dispatchNew h uid t) := by
  unfold Hw.dispatchNew
  repeat' first
    | extract_lets +onlyGivenNames v0; clear_value (e0 : v0 = _); clear e0
    | with_reducible apply Hw.Within.refl
    | with_reducible apply Hw.Within.step (Hw.complete_within ..); decide
    | with_reducible apply Hw.Within.step (Hw.dispatchAcw_within ..); decide
    | with_reducible apply Hw.Within.step (Hw.queueUp_within ..); decide
    | with_reducible apply Hw.Within.step (Hw.mbServe_within ..); decide
    | with_reducible apply Hw.Within.step (Hw.charge_within ..); decide
    | with_reducible apply Hw.Within.step (Hw.setTrk_within ..); decide
    | with_reducible apply Hw.Within.step (Hw.odwServe_within ..); decide
    | with_reducible apply Hw.Within.ite
    | split

theorem Hw.dispatchRepeat_within (h : Hw) (uid : Nat) (t : Tracker) :
    Hw.Within 165263992197562149737978827008192759957101170741070304821162198818601447809077836456297302609928821211897803006255831186942 h (Hw.dispatchRepeat h uid t) := by
  unfold Hw.dispatchRepeat
  repeat' first
    | extract_lets +onlyGivenNames v0; clear_value (e0 : v0 = _); clear e0
    | with_reducible apply Hw.Within.refl
    | with_reducible apply Hw.Within.step (Hw.setTrk_within ..); decide
    | with_reducible apply Hw.Within.step (Hw.dispatchNew_within ..); decide
    | with_reducible apply Hw.Within.step (Hw.complete_within ..); decide
    | with_reducible apply Hw.Within.ite

theorem Hw.dispatch_within (h : Hw) (uid : Nat) :
    Hw.Within 165263992197562149737978827008192759957101170741070304821162198818601447809077836456297302609928821211897803006255831186942 h (Hw.dispatch h uid) := by
  unfold Hw.dispatch
  repeat' first
    | with_reducible apply Hw.Within.refl
    | with_reducible apply Hw.Within.step (Hw.dispatchRepeat_within ..); decide
    | with_reducible apply Hw.Within.step (Hw.dispatchNew_within ..); decide
    | with_reducible apply Hw.Within.ite
    | split

theorem Hw.allocTrk_within (h : Hw) (r : Rq) :
    Hw.Within 165263992197562149737978827008192759957101170741070304821162198818601447809077836456297302609928821211897803006255831186942 h (Hw.allocTrk h r) := by
  unfold Hw.allocTrk
  repeat' first
    | extract_lets +onlyGivenNames v0; clear_value (e0 : v0 = _); clear e0
    | rw [Hw.mk_req]
    | with_reducible apply Hw.Within.refl
    | with_reducible apply Hw.Within.step (Hw.tagNew_within ..); decide
    | with_reducible apply Hw.Within.step (Hw.addReg_within ..); decide
    | with_reducible apply Hw.Within.step (Hw.setTrk_within ..); decide
    | with_reducible apply Hw.Within.step (Hw.dispatch_within ..); decide
    | with_reducible apply Hw.Within.step (Hw.putReq_within ..); decide
    | with_reducible apply Hw.Within.ite

theorem Hw.admitTrk_within (h : Hw) (r : Rq) :
    Hw.Within 165263992197562149737978827008192759957101170741070304821162198818601447809077836456297302609928821211897803006255831186942 h (Hw.admitTrk h r) := by
  unfold Hw.admitTrk
  repeat' first
    | extract_lets +onlyGivenNames v0; clear_value (e0 : v0 = _); clear e0
    | with_reducible apply Hw.Within.refl
    | with_reducible apply Hw.Within.step (Hw.allocTrk_within ..); decide
    | with_reducible apply Hw.Within.step (Hw.countSel_within ..); decide
    | with_reducible apply Hw.Within.step (Hw.setPort_within ..); decide
    | with_reducible apply Hw.Within.ite

theorem Hw.admitLimit_within (h : Hw) (r : Rq) :
    Hw.Within 165263992197562149737978827008192759957101170741070304821162198818601447809077836456297302609928821211897803006255831186942 h (Hw.admitLimit h r) := by
  unfold Hw.admitLimit
  repeat' first
    | intro _
    | extract_lets +onlyGivenNames v0; clear_value (e0 : v0 = _); (first | (with_reducible apply Hw.Within.let1 e0) | clear e0)
    | with_reducible apply Hw.Within.refl
    | with_reducible assumption
    | with_reducible apply Hw.Within.step (Hw.admitTrk_within ..); decide
    | with_reducible apply Hw.Within.step (Hw.setPort_within ..); decide
    | with_reducible apply Hw.Within.step (Hw.countSel_within ..); decide
    | with_reducible apply Hw.Within.step (Hw.setReg_within ..); decide
    | with_reducible apply Hw.Within.ite

theorem Hw.admitWindow_within (h : Hw) (r : Rq) :
    Hw.Within 165263992197562149737978827008192759957101170741070304821162198818601447809077836456297302609928821211897803006255831186942 h (Hw.admitWindow h r) := by
  unfold Hw.admitWindow
  repeat' first
    | intro _
    | extract_lets +onlyGivenNames v0; clear_value (e0 : v0 = _); (first | (with_reducible apply Hw.Within.let1 e0) | clear e0)
    | rw [Hw.mk_req]
    | with_reducible apply Hw.Within.refl
    | with_reducible assumption
    | with_reducible apply Hw.Within.step (Hw.admitLimit_within ..); decide
    | with_reducible apply Hw.Within.step (Hw.refuse_within ..); decide
    | with_reducible apply Hw.Within.step (Hw.setWin_within ..); decide
    | with_reducible apply Hw.Within.step (Hw.setReg_within ..); decide
    | with_reducible apply Hw.Within.step (Hw.putReq_within ..); decide
    | with_reducible apply Hw.Within.ite
    | split

theorem Hw.admission_within (h : Hw) (r : Rq) :
    Hw.Within 165263992197562149737978827008192759957101170741070304821162198818601447809077836456297302609928821211897803006255831186942 h (Hw.admission h r) := by
  unfold Hw.admission
  repeat' first
    | with_reducible apply Hw.Within.refl
    | with_reducible apply Hw.Within.step (Hw.refuse_within ..); decide
    | with_reducible apply Hw.Within.step (Hw.admitBirsp_within ..); decide
    | with_reducible apply Hw.Within.step (Hw.deny_within ..); decide
    | with_reducible apply Hw.Within.step (Hw.admitWindow_within ..); decide
    | with_reducible apply Hw.Within.ite

theorem Hw.ingress_within (n : Nat) (x2 : Nat) (x3 : Hw) :
    Hw.Within 165263992197562149737978827008192759957101170741070304821162198818601447809077836456297302609928821211897803006255831186942 x3 (Hw.ingress n x2 x3) := by
  induction x2 generalizing x3 with
  | zero => exact Hw.Within.refl _ _
  | succ n ih =>
    unfold Hw.ingress
    split
    · refine Hw.Within.trans ?_ (ih _)
      refine Hw.Within.step (Hw.admission_within ..) (by decide) ?_
      refine Hw.Within.step (Hw.countSel_within ..) (by decide) ?_
      exact Hw.Within.step (Hw.setPort_within ..) (by decide) (Hw.Within.refl _ _)
    · exact Hw.Within.refl _ _

theorem Hw.pumpIngress_within (h : Hw) (n : Nat) :
    Hw.Within 165263992197562149737978827008192759957101170741070304821162198818601447809077836456297302609928821211897803006255831186942 h (Hw.pumpIngress h n) := by
  unfold Hw.pumpIngress
  repeat' first
    | with_reducible apply Hw.Within.refl
    | with_reducible apply Hw.Within.step (Hw.noteBlock_within ..); decide
    | with_reducible apply Hw.Within.step (Hw.ingress_within ..); decide

theorem execHeldIngressAdmit_within (port : PortIx) (s : State) :
    ∃ k, execHeldIngressAdmit port s = .next { s with hw := k } ∧ s.hw.Within 165263992197562149737978827008192759957101170741070304821162198818601447809077836456297302609928821211897803006255831186942 k := by
  refine ⟨_, rfl, ?_⟩
  generalize s.hw = h
  beta_reduce
  repeat' first
    | extract_lets +onlyGivenNames v0; clear_value (e0 : v0 = _); clear e0
    | with_reducible apply Hw.Within.refl
    | with_reducible apply Hw.Within.step (Hw.pumpIngress_within ..); decide
    | with_reducible apply Hw.Within.step (Hw.allocTrk_within ..); decide
    | with_reducible apply Hw.Within.step (Hw.setPort_within ..); decide
    | with_reducible apply Hw.Within.ite
    | split

theorem Hw.passIdle_within (h : Hw) (uid : Nat) :
    Hw.Within 11349009097255247340611747268844490263794373651746250685577481885166336376821264265803296185848068173269980784278583364 h (Hw.passIdle h uid) := by
  unfold Hw.passIdle
  repeat' first
    | extract_lets +onlyGivenNames v0; clear_value (e0 : v0 = _); clear e0
    | with_reducible apply Hw.Within.refl
    | with_reducible apply Hw.Within.step (Hw.grantStart_within ..); decide
    | with_reducible apply Hw.Within.step (Hw.arbiterPick_within ..); decide
    | with_reducible apply Hw.Within.ite
    | split

theorem Hw.headerIn_within (h : Hw) (r : Rq) :
    Hw.Within 165263992197562149737978827008192759957101170741070304821162198818601447809077836456297302609928821211897803006255831186942 h (Hw.headerIn h r) := by
  unfold Hw.headerIn
  repeat' first
    | intro _
    | extract_lets +onlyGivenNames v0; clear_value (e0 : v0 = _); (first | (with_reducible apply Hw.Within.let1 e0) | clear e0)
    | rw [Hw.mk_req]
    | with_reducible apply Hw.Within.refl
    | with_reducible assumption
    | with_reducible apply Hw.Within.step (Hw.pumpIngress_within ..); decide
    | with_reducible apply Hw.Within.step (Hw.portError_within ..); decide
    | with_reducible apply Hw.Within.step (Hw.setPort_within ..); decide
    | with_reducible apply Hw.Within.step (Hw.putReq_within ..); decide
    | with_reducible apply Hw.Within.ite

theorem Hw.arrive_within (h : Hw) (r : Rq) (data : List Byte) (mask : List Bool) (psn : List Bool) :
    Hw.Within 165263992197562149737978827008192759957101170741070304821162198818601447809077836456297302609928821211897803006255831186942 h (Hw.arrive h r data mask psn) := by
  unfold Hw.arrive
  repeat' first
    | extract_lets +onlyGivenNames v0; clear_value (e0 : v0 = _); clear e0
    | with_reducible apply Hw.Within.refl
    | with_reducible apply Hw.Within.step (Hw.pumpIngress_within ..); decide
    | with_reducible apply Hw.Within.step (Hw.portError_within ..); decide
    | with_reducible apply Hw.Within.step (Hw.headerIn_within ..); decide
    | with_reducible apply Hw.Within.ite

theorem execBirsp_within (h : Hdr) (kind : BitVec 4) (addr : BitVec 41) (s : State) :
    ∃ k, execBirsp h kind addr s = .next { s with hw := k } ∧ s.hw.Within 165263992197562149737978827008192759957101170741070304821162198818601447809077836456297302609928821211897803006255831186942 k := by
  refine ⟨_, rfl, ?_⟩
  generalize s.hw = h
  beta_reduce
  repeat' first
    | intro _
    | extract_lets +onlyGivenNames v0; clear_value (e0 : v0 = _); (first | (with_reducible apply Hw.Within.let1 e0) | clear e0)
    | with_reducible apply Hw.Within.refl
    | with_reducible assumption
    | with_reducible apply Hw.Within.step (Hw.passIdle_within ..); decide
    | with_reducible apply Hw.Within.step (Hw.arrive_within ..); decide
    | with_reducible apply Hw.Within.step (Hw.sliceInput_within ..); decide
    | with_reducible apply Hw.Within.ite

theorem Hw.takeIdle_within (h : Hw) (s : Nat) :
    Hw.Within 11349182434963382837533881494243739595514612493578492732761445672842561311693811747537100766624901915986431626636688452 h (Hw.takeIdle h s) := by
  unfold Hw.takeIdle
  repeat' first
    | intro _
    | extract_lets +onlyGivenNames v0; clear_value (e0 : v0 = _); with_reducible apply Hw.Within.let1 e0
    | with_reducible apply Hw.Within.refl
    | with_reducible assumption
    | with_reducible apply Hw.Within.step (Hw.sliceInput_within ..); decide
    | with_reducible apply Hw.Within.step (Hw.directoryLookup_within ..); decide
    | with_reducible apply Hw.Within.ite

theorem Hw.throughSlice_within (h : Hw) (uid : Nat) :
    Hw.Within 11349182434963382837533881494243739595514612493578492732761445673034123254302047854831894145018690563938774016909638724 h (Hw.throughSlice h uid) := by
  unfold Hw.throughSlice
  repeat' first
    | intro _
    | extract_lets +onlyGivenNames v0; clear_value (e0 : v0 = _); with_reducible apply Hw.Within.let1 e0
    | with_reducible apply Hw.Within.refl
    | with_reducible assumption
    | with_reducible apply Hw.Within.step (Hw.passIdle_within ..); decide
    | with_reducible apply Hw.Within.step (Hw.takeIdle_within ..); decide
    | split

theorem Hw.atm_within (w : Hw) (h : Hdr) (subop : Nat) (addr : BitVec 41) (operands : List Byte) :
    Hw.Within 165263992197562149737978827008192759957101170741070304821162198818601447809077836456297302609928821211897803006255831186942 w (Hw.atm w h subop addr operands) := by
  unfold Hw.atm
  repeat' first
    | with_reducible apply Hw.Within.refl
    | with_reducible apply Hw.Within.step (Hw.throughSlice_within ..); decide
    | with_reducible apply Hw.Within.step (Hw.arrive_within ..); decide

theorem execCas128_within (h : Hdr) (addr : BitVec 41) (compare : BitVec 128) (swap : BitVec 128) (s : State) :
    ∃ k, execCas128 h addr compare swap s = .next { s with hw := k } ∧ s.hw.Within 165263992197562149737978827008192759957101170741070304821162198818601447809077836456297302609928821211897803006255831186942 k := by
  refine ⟨_, rfl, ?_⟩
  generalize s.hw = h
  beta_reduce
  repeat' first
    | with_reducible apply Hw.Within.refl
    | with_reducible apply Hw.Within.step (Hw.atm_within ..); decide

theorem execSwap64_within (h : Hdr) (addr : BitVec 41) (operand : BitVec 64) (s : State) :
    ∃ k, execSwap64 h addr operand s = .next { s with hw := k } ∧ s.hw.Within 165263992197562149737978827008192759957101170741070304821162198818601447809077836456297302609928821211897803006255831186942 k := by
  refine ⟨_, rfl, ?_⟩
  generalize s.hw = h
  beta_reduce
  repeat' first
    | with_reducible apply Hw.Within.refl
    | with_reducible apply Hw.Within.step (Hw.atm_within ..); decide

theorem execEgressPick_within (port : PortIx) (s : State) :
    ∃ k, execEgressPick port s = .next { s with hw := k } ∧ s.hw.Within 4096 k := by
  refine ⟨_, rfl, ?_⟩
  generalize s.hw = h
  beta_reduce
  repeat' first
    | extract_lets +onlyGivenNames v0; clear_value (e0 : v0 = _); clear e0
    | with_reducible apply Hw.Within.refl
    | with_reducible apply Hw.Within.step (Hw.setPort_within ..); decide
    | with_reducible apply Hw.Within.ite
    | split

theorem execWr_within (h : Hdr) (len : BitVec 6) (addr : BitVec 41) (data : List Byte) (psn : List Bool) (s : State) :
    ∃ k, execWr h len addr data psn s = .next { s with hw := k } ∧ s.hw.Within 165263992197562149737978827008192759957101170741070304821162198818601447809077836456297302609928821211897803006255831186942 k := by
  refine ⟨_, rfl, ?_⟩
  generalize s.hw = h
  beta_reduce
  repeat' first
    | with_reducible apply Hw.Within.refl
    | with_reducible apply Hw.Within.step (Hw.throughSlice_within ..); decide
    | with_reducible apply Hw.Within.step (Hw.arrive_within ..); decide

theorem Hw.timeoutTrk_within (h : Hw) (uid : Nat) (t : Tracker) :
    Hw.Within 11347777784561610013136363548841360776337249307410095776824055255401477425974662727867359861939432635800275365885786180 h (Hw.timeoutTrk h uid t) := by
  unfold Hw.timeoutTrk
  repeat' first
    | intro _
    | extract_lets +onlyGivenNames v0; clear_value (e0 : v0 = _); (first | (with_reducible apply Hw.Within.let1 e0) | clear e0)
    | rw [Hw.mk_sl]
    | with_reducible apply Hw.Within.refl
    | with_reducible assumption
    | with_reducible apply Hw.Within.step (Hw.dropBeats_within ..); decide
    | with_reducible apply Hw.Within.step (Hw.unqueueArb_within ..); decide
    | with_reducible apply Hw.Within.step (Hw.setReg_within ..); decide
    | with_reducible apply Hw.Within.step (Hw.setSes_within ..); decide
    | with_reducible apply Hw.Within.step (Hw.sendQanat_within ..); decide
    | with_reducible apply Hw.Within.step (Hw.complete_within ..); decide
    | with_reducible apply Hw.Within.step (Hw.putSl_within ..); decide
    | split

theorem execAcw_within (h : Hdr) (len : BitVec 6) (session : BitVec 8) (contributor : BitVec 12) (chunk : BitVec 32) (data : List Byte) (psn : List Bool) (s : State) :
    ∃ k, execAcw h len session contributor chunk data psn s = .next { s with hw := k } ∧ s.hw.Within 165263992197562149737978827008192759957101170741070304821162198818601447809077836456297302609928821211897803006255831186942 k := by
  refine ⟨_, rfl, ?_⟩
  generalize s.hw = h
  beta_reduce
  repeat' first
    | intro _
    | extract_lets +onlyGivenNames v0; clear_value (e0 : v0 = _); (first | (with_reducible apply Hw.Within.let1 e0) | clear e0)
    | with_reducible apply Hw.Within.refl
    | with_reducible assumption
    | with_reducible apply Hw.Within.step (Hw.passIdle_within ..); decide
    | with_reducible apply Hw.Within.step (Hw.arrive_within ..); decide
    | with_reducible apply Hw.Within.step (Hw.takeContribution_within ..); decide
    | with_reducible apply Hw.Within.ite
    | split

theorem Hw.mbx_within (w : Hw) (h : Hdr) (channel : Nat) (reg : Nat) (n : Nat) (write : Bool) (data : List Byte) :
    Hw.Within 165263992197562149737978827008192759957101170741070304821162198818601447809077836456297302609928821211897803006255831186942 w (Hw.mbx w h channel reg n write data) := by
  unfold Hw.mbx
  repeat' first
    | with_reducible apply Hw.Within.refl
    | with_reducible apply Hw.Within.step (Hw.arrive_within ..); decide

theorem execLockRead_within (h : Option Hdr) (core : Fin 2) (semaphore : Bool) (channel : Fin 64) (s : State) :
    ∃ k, execLockRead h core semaphore channel s = .next { s with hw := k } ∧ s.hw.Within 165263992197562149737978827008192759957101170741070304821162198818601447809077836456297302609928821211897803006255831186942 k := by
  refine ⟨_, rfl, ?_⟩
  generalize s.hw = h
  beta_reduce
  repeat' first
    | with_reducible apply Hw.Within.refl
    | with_reducible apply Hw.Within.step (Hw.mbx_within ..); decide
    | with_reducible apply Hw.Within.step (Hw.coreLockRead_within ..); decide
    | with_reducible apply Hw.Within.ite
    | split

theorem execDeferredRelease_within (port : PortIx) (s : State) :
    ∃ k, execDeferredRelease port s = .next { s with hw := k } ∧ s.hw.Within 165263992197562149737978827008192759957101170741070304821162198818601447809077836456297302609928821211897803006255831186942 k := by
  refine ⟨_, rfl, ?_⟩
  generalize s.hw = h
  beta_reduce
  repeat' first
    | intro _
    | extract_lets +onlyGivenNames v0; clear_value (e0 : v0 = _); (first | (with_reducible apply Hw.Within.let1 e0) | clear e0)
    | with_reducible apply Hw.Within.refl
    | with_reducible assumption
    | with_reducible apply Hw.Within.step (Hw.setReg_within ..); decide
    | with_reducible apply Hw.Within.step (Hw.setPort_within ..); decide
    | with_reducible apply Hw.Within.step (Hw.pumpIngress_within ..); decide
    | with_reducible apply Hw.Within.step (Hw.allocTrk_within ..); decide
    | with_reducible apply Hw.Within.ite
    | split

theorem execLockWrite_within (h : Option Hdr) (core : Fin 2) (semaphore : Bool) (channel : Fin 64) (value : BitVec 64) (s : State) :
    ∃ k, execLockWrite h core semaphore channel value s = .next { s with hw := k } ∧ s.hw.Within 165263992197562149737978827008192759957101170741070304821162198818601447809077836456297302609928821211897803006255831186942 k := by
  refine ⟨_, rfl, ?_⟩
  generalize s.hw = h
  beta_reduce
  repeat' first
    | with_reducible apply Hw.Within.refl
    | with_reducible apply Hw.Within.step (Hw.mbx_within ..); decide
    | with_reducible apply Hw.Within.step (Hw.coreLockWrite_within ..); decide
    | with_reducible apply Hw.Within.ite
    | split

theorem execStatusRead_within (h : Option Hdr) (channel : Fin 64) (s : State) :
    ∃ k, execStatusRead h channel s = .next { s with hw := k } ∧ s.hw.Within 165263992197562149737978827008192759957101170741070304821162198818601447809077836456297302609928821211897803006255831186942 k := by
  refine ⟨_, rfl, ?_⟩
  generalize s.hw = h
  beta_reduce
  repeat' first
    | with_reducible apply Hw.Within.refl
    | with_reducible apply Hw.Within.step (Hw.mbx_within ..); decide
    | split

theorem execQueueWrite_within (h : Option Hdr) (channel : Fin 64) (words : List (BitVec 64)) (s : State) :
    ∃ k, execQueueWrite h channel words s = .next { s with hw := k } ∧ s.hw.Within 165263992197562149737978827008192759957101170741070304821162198818601447809077836456297302609928821211897803006255831186942 k := by
  refine ⟨_, rfl, ?_⟩
  generalize s.hw = h
  beta_reduce
  repeat' first
    | with_reducible apply Hw.Within.refl
    | with_reducible apply Hw.Within.step (Hw.mbx_within ..); decide
    | with_reducible apply Hw.Within.step (Hw.coreWrite_within ..); decide
    | split

theorem execOdwRead_within (h : Hdr) (index : BitVec 16) (inst : BitVec 12) (sub : BitVec 8) (first : BitVec 16) (count : BitVec 16) (s : State) :
    ∃ k, execOdwRead h index inst sub first count s = .next { s with hw := k } ∧ s.hw.Within 165263992197562149737978827008192759957101170741070304821162198818601447809077836456297302609928821211897803006255831186942 k := by
  refine ⟨_, rfl, ?_⟩
  generalize s.hw = h
  beta_reduce
  repeat' first
    | with_reducible apply Hw.Within.refl
    | with_reducible apply Hw.Within.step (Hw.arrive_within ..); decide

theorem execOdwWrite_within (h : Hdr) (index : BitVec 16) (inst : BitVec 12) (sub : BitVec 8) (first : BitVec 16) (count : BitVec 16) (value : List Byte) (s : State) :
    ∃ k, execOdwWrite h index inst sub first count value s = .next { s with hw := k } ∧ s.hw.Within 165263992197562149737978827008192759957101170741070304821162198818601447809077836456297302609928821211897803006255831186942 k := by
  refine ⟨_, rfl, ?_⟩
  generalize s.hw = h
  beta_reduce
  repeat' first
    | extract_lets +onlyGivenNames v0; clear_value (e0 : v0 = _); clear e0
    | with_reducible apply Hw.Within.refl
    | with_reducible apply Hw.Within.step (Hw.arrive_within ..); decide

theorem execResponseLastBeat_within (port : PortIx) (s : State) :
    ∃ k, execResponseLastBeat port s = .next { s with hw := k } ∧ s.hw.Within 11347777784561610013136363548841360775862964909894048640369108500805891755407668870676895477808514257589162438528372804 k := by
  refine ⟨_, rfl, ?_⟩
  generalize s.hw = h
  beta_reduce
  repeat' first
    | intro _
    | extract_lets +onlyGivenNames v0; clear_value (e0 : v0 = _); (first | (with_reducible apply Hw.Within.let1 e0) | clear e0)
    | rw [Hw.mk_coh]
    | with_reducible apply Hw.Within.refl
    | with_reducible assumption
    | with_reducible apply Hw.Within.step (Hw.setPort_within ..); decide
    | with_reducible apply Hw.Within.step (Hw.releaseTrk_within ..); decide
    | with_reducible apply Hw.Within.step (Hw.point_within ..); decide
    | with_reducible apply Hw.Within.step (Hw.putCoh_within ..); decide
    | with_reducible apply Hw.Within.ite
    | split

theorem execRequestHeader_within (port : PortIx) (header : BitVec 128) (parity : BitVec 16) (s : State) :
    ∃ k, execRequestHeader port header parity s = .next { s with hw := k } ∧ s.hw.Within 165263992197562149737978827008192759957101170741070304821162198818601447809077836456297302609928821211897803006255831186942 k := by
  refine ⟨_, rfl, ?_⟩
  generalize s.hw = h
  beta_reduce
  repeat' first
    | intro _
    | extract_lets +onlyGivenNames v0; clear_value (e0 : v0 = _); (first | (with_reducible apply Hw.Within.let1 e0) | clear e0)
    | with_reducible apply Hw.Within.refl
    | with_reducible assumption
    | with_reducible apply Hw.Within.step (Hw.pumpIngress_within ..); decide
    | with_reducible apply Hw.Within.step (Hw.portError_within ..); decide
    | with_reducible apply Hw.Within.step (Hw.addReg_within ..); decide
    | with_reducible apply Hw.Within.step (Hw.setPort_within ..); decide
    | with_reducible apply Hw.Within.step (Hw.headerIn_within ..); decide
    | with_reducible apply Hw.Within.ite

theorem execLaunch_within (h : Hdr) (engine : BitVec 4) (prog : BitVec 7) (stack : StackIx) (regs : List (BitVec 64)) (descs : List (BitVec 256)) (s : State) :
    ∃ k, execLaunch h engine prog stack regs descs s = .next { s with hw := k } ∧ s.hw.Within 165263992197562149737978827008192759957101170741070304821162198818601447809077836456297302609928821211897803006255831186942 k := by
  refine ⟨_, rfl, ?_⟩
  generalize s.hw = h
  beta_reduce
  repeat' first
    | extract_lets +onlyGivenNames v0; clear_value (e0 : v0 = _); clear e0
    | with_reducible apply Hw.Within.refl
    | with_reducible apply Hw.Within.step (Hw.passIdle_within ..); decide
    | with_reducible apply Hw.Within.step (Hw.arrive_within ..); decide

theorem execDeniedDue_within (port : PortIx) (s : State) :
    ∃ k, execDeniedDue port s = .next { s with hw := k } ∧ s.hw.Within 649037107316853453566312041680900 k := by
  refine ⟨_, rfl, ?_⟩
  generalize s.hw = h
  beta_reduce
  repeat' first
    | intro _
    | extract_lets +onlyGivenNames v0; clear_value (e0 : v0 = _); (first | (with_reducible apply Hw.Within.let1 e0) | clear e0)
    | with_reducible apply Hw.Within.refl
    | with_reducible assumption
    | with_reducible apply Hw.Within.step (Hw.setReg_within ..); decide
    | with_reducible apply Hw.Within.step (Hw.setPort_within ..); decide
    | with_reducible apply Hw.Within.step (Hw.emit_within ..); decide
    | with_reducible apply Hw.Within.ite
    | split

theorem execQueueRead_within (h : Option Hdr) (channel : Fin 64) (n : Fin 17) (s : State) :
    ∃ k, execQueueRead h channel n s = .next { s with hw := k } ∧ s.hw.Within 165263992197562149737978827008192759957101170741070304821162198818601447809077836456297302609928821211897803006255831186942 k := by
  refine ⟨_, rfl, ?_⟩
  generalize s.hw = h
  beta_reduce
  repeat' first
    | with_reducible apply Hw.Within.refl
    | with_reducible apply Hw.Within.step (Hw.mbx_within ..); decide
    | with_reducible apply Hw.Within.step (Hw.coreRead_within ..); decide
    | split

theorem execFadd64_within (h : Hdr) (addr : BitVec 41) (operand : BitVec 64) (s : State) :
    ∃ k, execFadd64 h addr operand s = .next { s with hw := k } ∧ s.hw.Within 165263992197562149737978827008192759957101170741070304821162198818601447809077836456297302609928821211897803006255831186942 k := by
  refine ⟨_, rfl, ?_⟩
  generalize s.hw = h
  beta_reduce
  repeat' first
    | with_reducible apply Hw.Within.refl
    | with_reducible apply Hw.Within.step (Hw.atm_within ..); decide

theorem Hw.timeoutWaiting_within (h : Hw) (n : Nat) (r : Rq) :
    Hw.Within 165263992197562149737978827008192759957101170741070304821162198818601447809077836456297302609928821211897803006255831186942 h (Hw.timeoutWaiting h n r) := by
  unfold Hw.timeoutWaiting
  repeat' first
    | intro _
    | extract_lets +onlyGivenNames v0; clear_value (e0 : v0 = _); (first | (with_reducible apply Hw.Within.let1 e0) | clear e0)
    | with_reducible apply Hw.Within.refl
    | with_reducible assumption
    | with_reducible apply Hw.Within.step (Hw.setPort_within ..); decide
    | with_reducible apply Hw.Within.step (Hw.setReg_within ..); decide
    | with_reducible apply Hw.Within.step (Hw.settleWin_within ..); decide
    | with_reducible apply Hw.Within.step (Hw.pumpIngress_within ..); decide
    | with_reducible apply Hw.Within.step (Hw.refuse_within ..); decide
    | with_reducible apply Hw.Within.ite

theorem execRequestTimeout_within (uid : Nat) (s : State) :
    ∃ k, execRequestTimeout uid s = .next { s with hw := k } ∧ s.hw.Within 165263992197562149737978827008192759957101170741070304821162198818601447809077836456297302609928821211897803006255831186942 k := by
  refine ⟨_, rfl, ?_⟩
  generalize s.hw = h
  beta_reduce
  repeat' first
    | with_reducible apply Hw.Within.refl
    | with_reducible apply Hw.Within.step (Hw.timeoutTrk_within ..); decide
    | with_reducible apply Hw.Within.step (Hw.timeoutWaiting_within ..); decide
    | with_reducible apply Hw.Within.ite
    | split

theorem Hw.modRq_within (h : Hw) (n : Nat) (uid : Nat) (f : Rq → Rq) :
    Hw.Within 4096 h (Hw.modRq h n uid f) := by
  unfold Hw.modRq
  repeat' first
    | intro _
    | extract_lets +onlyGivenNames v0; clear_value (e0 : v0 = _); (first | (with_reducible apply Hw.Within.let1 e0) | clear e0)
    | with_reducible apply Hw.Within.refl
    | with_reducible assumption
    | with_reducible apply Hw.Within.step (Hw.setPort_within ..); decide
    | with_reducible apply Hw.Within.step (Hw.modTrk_within ..); decide

theorem execWrp_within (h : Hdr) (len : BitVec 6) (addr : BitVec 41) (data : List Byte) (mask : List Bool) (psn : List Bool) (s : State) :
    ∃ k, execWrp h len addr data mask psn s = .next { s with hw := k } ∧ s.hw.Within 165263992197562149737978827008192759957101170741070304821162198818601447809077836456297302609928821211897803006255831186942 k := by
  refine ⟨_, rfl, ?_⟩
  generalize s.hw = h
  beta_reduce
  repeat' first
    | with_reducible apply Hw.Within.refl
    | with_reducible apply Hw.Within.step (Hw.throughSlice_within ..); decide
    | with_reducible apply Hw.Within.step (Hw.arrive_within ..); decide

theorem execRd_within (h : Hdr) (len : BitVec 6) (addr : BitVec 41) (s : State) :
    ∃ k, execRd h len addr s = .next { s with hw := k } ∧ s.hw.Within 165263992197562149737978827008192759957101170741070304821162198818601447809077836456297302609928821211897803006255831186942 k := by
  refine ⟨_, rfl, ?_⟩
  generalize s.hw = h
  beta_reduce
  repeat' first
    | with_reducible apply Hw.Within.refl
    | with_reducible apply Hw.Within.step (Hw.passIdle_within ..); decide
    | with_reducible apply Hw.Within.step (Hw.arrive_within ..); decide

theorem execDataBeat_within (port : PortIx) (data : List Byte) (parity : BitVec 128) (mask : BitVec 128) (psn : BitVec 2) (last : Bool) (s : State) :
    ∃ k, execDataBeat port data parity mask psn last s = .next { s with hw := k } ∧ s.hw.Within 165263992197562149737978827008192759957101170741070304821162198818601447809077836456297302609928821211897803006255831186942 k := by
  refine ⟨_, rfl, ?_⟩
  generalize s.hw = h
  beta_reduce
  repeat' first
    | intro _
    | extract_lets +onlyGivenNames v0; clear_value (e0 : v0 = _); (first | (with_reducible apply Hw.Within.let1 e0) | clear e0)
    | with_reducible apply Hw.Within.refl
    | with_reducible assumption
    | with_reducible apply Hw.Within.step (Hw.pumpIngress_within ..); decide
    | with_reducible apply Hw.Within.step (Hw.portError_within ..); decide
    | with_reducible apply Hw.Within.step (Hw.setPort_within ..); decide
    | with_reducible apply Hw.Within.step (Hw.modRq_within ..); decide
    | with_reducible apply Hw.Within.step (Hw.dispatch_within ..); decide
    | with_reducible apply Hw.Within.ite
    | split

end Sys2Proof.Machine
end

