-- ==== Sys2Proof/Laws/State.lean ====
section
/-! SUPPORT. One lemma per field and update of the state: what an update leaves as it was, and the field it writes. -/

namespace Sys2Proof.Machine

/-! `setElem` -/

@[simp] theorem Hw.setElem_now (h : Hw) (r : Reg) (i e v : Nat) : (h.setElem r i e v).now = h.now := rfl
@[simp] theorem Hw.setElem_drawn (h : Hw) (r : Reg) (i e v : Nat) : (h.setElem r i e v).drawn = h.drawn := rfl
@[simp] theorem Hw.setElem_odMs (h : Hw) (r : Reg) (i e v : Nat) : (h.setElem r i e v).odMs = h.odMs := rfl
@[simp] theorem Hw.setElem_odPace (h : Hw) (r : Reg) (i e v : Nat) : (h.setElem r i e v).odPace = h.odPace := rfl
@[simp] theorem Hw.setElem_odPower (h : Hw) (r : Reg) (i e v : Nat) : (h.setElem r i e v).odPower = h.odPower := rfl
@[simp] theorem Hw.setElem_timers (h : Hw) (r : Reg) (i e v : Nat) : (h.setElem r i e v).timers = h.timers := rfl
@[simp] theorem Hw.setElem_cntPending (h : Hw) (r : Reg) (i e v : Nat) : (h.setElem r i e v).cntPending = h.cntPending := rfl
@[simp] theorem Hw.setElem_lfsr (h : Hw) (r : Reg) (i e v : Nat) : (h.setElem r i e v).lfsr = h.lfsr := rfl
@[simp] theorem Hw.setElem_tap (h : Hw) (r : Reg) (i e v : Nat) : (h.setElem r i e v).tap = h.tap := rfl
@[simp] theorem Hw.setElem_boot (h : Hw) (r : Reg) (i e v : Nat) : (h.setElem r i e v).boot = h.boot := rfl
@[simp] theorem Hw.setElem_lnk (h : Hw) (r : Reg) (i e v : Nat) : (h.setElem r i e v).lnk = h.lnk := rfl
@[simp] theorem Hw.setElem_req (h : Hw) (r : Reg) (i e v : Nat) : (h.setElem r i e v).req = h.req := rfl
@[simp] theorem Hw.setElem_sl (h : Hw) (r : Reg) (i e v : Nat) : (h.setElem r i e v).sl = h.sl := rfl
@[simp] theorem Hw.setElem_mem (h : Hw) (r : Reg) (i e v : Nat) : (h.setElem r i e v).mem = h.mem := rfl
@[simp] theorem Hw.setElem_coh (h : Hw) (r : Reg) (i e v : Nat) : (h.setElem r i e v).coh = h.coh := rfl
@[simp] theorem Hw.setElem_car (h : Hw) (r : Reg) (i e v : Nat) : (h.setElem r i e v).car = h.car := rfl
@[simp] theorem Hw.setElem_red (h : Hw) (r : Reg) (i e v : Nat) : (h.setElem r i e v).red = h.red := rfl
@[simp] theorem Hw.setElem_par (h : Hw) (r : Reg) (i e v : Nat) : (h.setElem r i e v).par = h.par := rfl
@[simp] theorem Hw.setElem_pair (h : Hw) (r : Reg) (i e v : Nat) : (h.setElem r i e v).pair = h.pair := rfl
@[simp] theorem Hw.setElem_sec (h : Hw) (r : Reg) (i e v : Nat) : (h.setElem r i e v).sec = h.sec := rfl
@[simp] theorem Hw.setElem_msg (h : Hw) (r : Reg) (i e v : Nat) : (h.setElem r i e v).msg = h.msg := rfl

/-! `setReg` -/

@[simp] theorem Hw.setReg_now (h : Hw) (r : Reg) (i v : Nat) : (h.setReg r i v).now = h.now := rfl
@[simp] theorem Hw.setReg_drawn (h : Hw) (r : Reg) (i v : Nat) : (h.setReg r i v).drawn = h.drawn := rfl
@[simp] theorem Hw.setReg_odMs (h : Hw) (r : Reg) (i v : Nat) : (h.setReg r i v).odMs = h.odMs := rfl
@[simp] theorem Hw.setReg_odPace (h : Hw) (r : Reg) (i v : Nat) : (h.setReg r i v).odPace = h.odPace := rfl
@[simp] theorem Hw.setReg_odPower (h : Hw) (r : Reg) (i v : Nat) : (h.setReg r i v).odPower = h.odPower := rfl
@[simp] theorem Hw.setReg_timers (h : Hw) (r : Reg) (i v : Nat) : (h.setReg r i v).timers = h.timers := rfl
@[simp] theorem Hw.setReg_cntPending (h : Hw) (r : Reg) (i v : Nat) : (h.setReg r i v).cntPending = h.cntPending := rfl
@[simp] theorem Hw.setReg_lfsr (h : Hw) (r : Reg) (i v : Nat) : (h.setReg r i v).lfsr = h.lfsr := rfl
@[simp] theorem Hw.setReg_tap (h : Hw) (r : Reg) (i v : Nat) : (h.setReg r i v).tap = h.tap := rfl
@[simp] theorem Hw.setReg_boot (h : Hw) (r : Reg) (i v : Nat) : (h.setReg r i v).boot = h.boot := rfl
@[simp] theorem Hw.setReg_lnk (h : Hw) (r : Reg) (i v : Nat) : (h.setReg r i v).lnk = h.lnk := rfl
@[simp] theorem Hw.setReg_req (h : Hw) (r : Reg) (i v : Nat) : (h.setReg r i v).req = h.req := rfl
@[simp] theorem Hw.setReg_sl (h : Hw) (r : Reg) (i v : Nat) : (h.setReg r i v).sl = h.sl := rfl
@[simp] theorem Hw.setReg_mem (h : Hw) (r : Reg) (i v : Nat) : (h.setReg r i v).mem = h.mem := rfl
@[simp] theorem Hw.setReg_coh (h : Hw) (r : Reg) (i v : Nat) : (h.setReg r i v).coh = h.coh := rfl
@[simp] theorem Hw.setReg_car (h : Hw) (r : Reg) (i v : Nat) : (h.setReg r i v).car = h.car := rfl
@[simp] theorem Hw.setReg_red (h : Hw) (r : Reg) (i v : Nat) : (h.setReg r i v).red = h.red := rfl
@[simp] theorem Hw.setReg_par (h : Hw) (r : Reg) (i v : Nat) : (h.setReg r i v).par = h.par := rfl
@[simp] theorem Hw.setReg_pair (h : Hw) (r : Reg) (i v : Nat) : (h.setReg r i v).pair = h.pair := rfl
@[simp] theorem Hw.setReg_sec (h : Hw) (r : Reg) (i v : Nat) : (h.setReg r i v).sec = h.sec := rfl
@[simp] theorem Hw.setReg_msg (h : Hw) (r : Reg) (i v : Nat) : (h.setReg r i v).msg = h.msg := rfl

/-! `addReg` -/

@[simp] theorem Hw.addReg_now (h : Hw) (r : Reg) (i n : Nat) : (h.addReg r i n).now = h.now := rfl
@[simp] theorem Hw.addReg_drawn (h : Hw) (r : Reg) (i n : Nat) : (h.addReg r i n).drawn = h.drawn := rfl
@[simp] theorem Hw.addReg_odMs (h : Hw) (r : Reg) (i n : Nat) : (h.addReg r i n).odMs = h.odMs := rfl
@[simp] theorem Hw.addReg_odPace (h : Hw) (r : Reg) (i n : Nat) : (h.addReg r i n).odPace = h.odPace := rfl
@[simp] theorem Hw.addReg_odPower (h : Hw) (r : Reg) (i n : Nat) : (h.addReg r i n).odPower = h.odPower := rfl
@[simp] theorem Hw.addReg_timers (h : Hw) (r : Reg) (i n : Nat) : (h.addReg r i n).timers = h.timers := rfl
@[simp] theorem Hw.addReg_cntPending (h : Hw) (r : Reg) (i n : Nat) : (h.addReg r i n).cntPending = h.cntPending := rfl
@[simp] theorem Hw.addReg_lfsr (h : Hw) (r : Reg) (i n : Nat) : (h.addReg r i n).lfsr = h.lfsr := rfl
@[simp] theorem Hw.addReg_tap (h : Hw) (r : Reg) (i n : Nat) : (h.addReg r i n).tap = h.tap := rfl
@[simp] theorem Hw.addReg_boot (h : Hw) (r : Reg) (i n : Nat) : (h.addReg r i n).boot = h.boot := rfl
@[simp] theorem Hw.addReg_lnk (h : Hw) (r : Reg) (i n : Nat) : (h.addReg r i n).lnk = h.lnk := rfl
@[simp] theorem Hw.addReg_req (h : Hw) (r : Reg) (i n : Nat) : (h.addReg r i n).req = h.req := rfl
@[simp] theorem Hw.addReg_sl (h : Hw) (r : Reg) (i n : Nat) : (h.addReg r i n).sl = h.sl := rfl
@[simp] theorem Hw.addReg_mem (h : Hw) (r : Reg) (i n : Nat) : (h.addReg r i n).mem = h.mem := rfl
@[simp] theorem Hw.addReg_coh (h : Hw) (r : Reg) (i n : Nat) : (h.addReg r i n).coh = h.coh := rfl
@[simp] theorem Hw.addReg_car (h : Hw) (r : Reg) (i n : Nat) : (h.addReg r i n).car = h.car := rfl
@[simp] theorem Hw.addReg_red (h : Hw) (r : Reg) (i n : Nat) : (h.addReg r i n).red = h.red := rfl
@[simp] theorem Hw.addReg_par (h : Hw) (r : Reg) (i n : Nat) : (h.addReg r i n).par = h.par := rfl
@[simp] theorem Hw.addReg_pair (h : Hw) (r : Reg) (i n : Nat) : (h.addReg r i n).pair = h.pair := rfl
@[simp] theorem Hw.addReg_sec (h : Hw) (r : Reg) (i n : Nat) : (h.addReg r i n).sec = h.sec := rfl
@[simp] theorem Hw.addReg_msg (h : Hw) (r : Reg) (i n : Nat) : (h.addReg r i n).msg = h.msg := rfl

/-! `subReg` -/

@[simp] theorem Hw.subReg_now (h : Hw) (r : Reg) (i n : Nat) : (h.subReg r i n).now = h.now := rfl
@[simp] theorem Hw.subReg_drawn (h : Hw) (r : Reg) (i n : Nat) : (h.subReg r i n).drawn = h.drawn := rfl
@[simp] theorem Hw.subReg_odMs (h : Hw) (r : Reg) (i n : Nat) : (h.subReg r i n).odMs = h.odMs := rfl
@[simp] theorem Hw.subReg_odPace (h : Hw) (r : Reg) (i n : Nat) : (h.subReg r i n).odPace = h.odPace := rfl
@[simp] theorem Hw.subReg_odPower (h : Hw) (r : Reg) (i n : Nat) : (h.subReg r i n).odPower = h.odPower := rfl
@[simp] theorem Hw.subReg_timers (h : Hw) (r : Reg) (i n : Nat) : (h.subReg r i n).timers = h.timers := rfl
@[simp] theorem Hw.subReg_cntPending (h : Hw) (r : Reg) (i n : Nat) : (h.subReg r i n).cntPending = h.cntPending := rfl
@[simp] theorem Hw.subReg_lfsr (h : Hw) (r : Reg) (i n : Nat) : (h.subReg r i n).lfsr = h.lfsr := rfl
@[simp] theorem Hw.subReg_tap (h : Hw) (r : Reg) (i n : Nat) : (h.subReg r i n).tap = h.tap := rfl
@[simp] theorem Hw.subReg_boot (h : Hw) (r : Reg) (i n : Nat) : (h.subReg r i n).boot = h.boot := rfl
@[simp] theorem Hw.subReg_lnk (h : Hw) (r : Reg) (i n : Nat) : (h.subReg r i n).lnk = h.lnk := rfl
@[simp] theorem Hw.subReg_req (h : Hw) (r : Reg) (i n : Nat) : (h.subReg r i n).req = h.req := rfl
@[simp] theorem Hw.subReg_sl (h : Hw) (r : Reg) (i n : Nat) : (h.subReg r i n).sl = h.sl := rfl
@[simp] theorem Hw.subReg_mem (h : Hw) (r : Reg) (i n : Nat) : (h.subReg r i n).mem = h.mem := rfl
@[simp] theorem Hw.subReg_coh (h : Hw) (r : Reg) (i n : Nat) : (h.subReg r i n).coh = h.coh := rfl
@[simp] theorem Hw.subReg_car (h : Hw) (r : Reg) (i n : Nat) : (h.subReg r i n).car = h.car := rfl
@[simp] theorem Hw.subReg_red (h : Hw) (r : Reg) (i n : Nat) : (h.subReg r i n).red = h.red := rfl
@[simp] theorem Hw.subReg_par (h : Hw) (r : Reg) (i n : Nat) : (h.subReg r i n).par = h.par := rfl
@[simp] theorem Hw.subReg_pair (h : Hw) (r : Reg) (i n : Nat) : (h.subReg r i n).pair = h.pair := rfl
@[simp] theorem Hw.subReg_sec (h : Hw) (r : Reg) (i n : Nat) : (h.subReg r i n).sec = h.sec := rfl
@[simp] theorem Hw.subReg_msg (h : Hw) (r : Reg) (i n : Nat) : (h.subReg r i n).msg = h.msg := rfl

/-! `setBit` -/

@[simp] theorem Hw.setBit_now (h : Hw) (r : Reg) (i b : Nat) (v : Bool) : (h.setBit r i b v).now = h.now := rfl
@[simp] theorem Hw.setBit_drawn (h : Hw) (r : Reg) (i b : Nat) (v : Bool) : (h.setBit r i b v).drawn = h.drawn := rfl
@[simp] theorem Hw.setBit_odMs (h : Hw) (r : Reg) (i b : Nat) (v : Bool) : (h.setBit r i b v).odMs = h.odMs := rfl
@[simp] theorem Hw.setBit_odPace (h : Hw) (r : Reg) (i b : Nat) (v : Bool) : (h.setBit r i b v).odPace = h.odPace := rfl
@[simp] theorem Hw.setBit_odPower (h : Hw) (r : Reg) (i b : Nat) (v : Bool) : (h.setBit r i b v).odPower = h.odPower := rfl
@[simp] theorem Hw.setBit_timers (h : Hw) (r : Reg) (i b : Nat) (v : Bool) : (h.setBit r i b v).timers = h.timers := rfl
@[simp] theorem Hw.setBit_cntPending (h : Hw) (r : Reg) (i b : Nat) (v : Bool) : (h.setBit r i b v).cntPending = h.cntPending := rfl
@[simp] theorem Hw.setBit_lfsr (h : Hw) (r : Reg) (i b : Nat) (v : Bool) : (h.setBit r i b v).lfsr = h.lfsr := rfl
@[simp] theorem Hw.setBit_tap (h : Hw) (r : Reg) (i b : Nat) (v : Bool) : (h.setBit r i b v).tap = h.tap := rfl
@[simp] theorem Hw.setBit_boot (h : Hw) (r : Reg) (i b : Nat) (v : Bool) : (h.setBit r i b v).boot = h.boot := rfl
@[simp] theorem Hw.setBit_lnk (h : Hw) (r : Reg) (i b : Nat) (v : Bool) : (h.setBit r i b v).lnk = h.lnk := rfl
@[simp] theorem Hw.setBit_req (h : Hw) (r : Reg) (i b : Nat) (v : Bool) : (h.setBit r i b v).req = h.req := rfl
@[simp] theorem Hw.setBit_sl (h : Hw) (r : Reg) (i b : Nat) (v : Bool) : (h.setBit r i b v).sl = h.sl := rfl
@[simp] theorem Hw.setBit_mem (h : Hw) (r : Reg) (i b : Nat) (v : Bool) : (h.setBit r i b v).mem = h.mem := rfl
@[simp] theorem Hw.setBit_coh (h : Hw) (r : Reg) (i b : Nat) (v : Bool) : (h.setBit r i b v).coh = h.coh := rfl
@[simp] theorem Hw.setBit_car (h : Hw) (r : Reg) (i b : Nat) (v : Bool) : (h.setBit r i b v).car = h.car := rfl
@[simp] theorem Hw.setBit_red (h : Hw) (r : Reg) (i b : Nat) (v : Bool) : (h.setBit r i b v).red = h.red := rfl
@[simp] theorem Hw.setBit_par (h : Hw) (r : Reg) (i b : Nat) (v : Bool) : (h.setBit r i b v).par = h.par := rfl
@[simp] theorem Hw.setBit_pair (h : Hw) (r : Reg) (i b : Nat) (v : Bool) : (h.setBit r i b v).pair = h.pair := rfl
@[simp] theorem Hw.setBit_sec (h : Hw) (r : Reg) (i b : Nat) (v : Bool) : (h.setBit r i b v).sec = h.sec := rfl
@[simp] theorem Hw.setBit_msg (h : Hw) (r : Reg) (i b : Nat) (v : Bool) : (h.setBit r i b v).msg = h.msg := rfl

/-! `setSreg` -/

@[simp] theorem Hw.setSreg_now (h : Hw) (r : Reg) (i : Nat) (v : Int) : (h.setSreg r i v).now = h.now := rfl
@[simp] theorem Hw.setSreg_drawn (h : Hw) (r : Reg) (i : Nat) (v : Int) : (h.setSreg r i v).drawn = h.drawn := rfl
@[simp] theorem Hw.setSreg_odMs (h : Hw) (r : Reg) (i : Nat) (v : Int) : (h.setSreg r i v).odMs = h.odMs := rfl
@[simp] theorem Hw.setSreg_odPace (h : Hw) (r : Reg) (i : Nat) (v : Int) : (h.setSreg r i v).odPace = h.odPace := rfl
@[simp] theorem Hw.setSreg_odPower (h : Hw) (r : Reg) (i : Nat) (v : Int) : (h.setSreg r i v).odPower = h.odPower := rfl
@[simp] theorem Hw.setSreg_timers (h : Hw) (r : Reg) (i : Nat) (v : Int) : (h.setSreg r i v).timers = h.timers := rfl
@[simp] theorem Hw.setSreg_cntPending (h : Hw) (r : Reg) (i : Nat) (v : Int) : (h.setSreg r i v).cntPending = h.cntPending := rfl
@[simp] theorem Hw.setSreg_lfsr (h : Hw) (r : Reg) (i : Nat) (v : Int) : (h.setSreg r i v).lfsr = h.lfsr := rfl
@[simp] theorem Hw.setSreg_tap (h : Hw) (r : Reg) (i : Nat) (v : Int) : (h.setSreg r i v).tap = h.tap := rfl
@[simp] theorem Hw.setSreg_boot (h : Hw) (r : Reg) (i : Nat) (v : Int) : (h.setSreg r i v).boot = h.boot := rfl
@[simp] theorem Hw.setSreg_lnk (h : Hw) (r : Reg) (i : Nat) (v : Int) : (h.setSreg r i v).lnk = h.lnk := rfl
@[simp] theorem Hw.setSreg_req (h : Hw) (r : Reg) (i : Nat) (v : Int) : (h.setSreg r i v).req = h.req := rfl
@[simp] theorem Hw.setSreg_sl (h : Hw) (r : Reg) (i : Nat) (v : Int) : (h.setSreg r i v).sl = h.sl := rfl
@[simp] theorem Hw.setSreg_mem (h : Hw) (r : Reg) (i : Nat) (v : Int) : (h.setSreg r i v).mem = h.mem := rfl
@[simp] theorem Hw.setSreg_coh (h : Hw) (r : Reg) (i : Nat) (v : Int) : (h.setSreg r i v).coh = h.coh := rfl
@[simp] theorem Hw.setSreg_car (h : Hw) (r : Reg) (i : Nat) (v : Int) : (h.setSreg r i v).car = h.car := rfl
@[simp] theorem Hw.setSreg_red (h : Hw) (r : Reg) (i : Nat) (v : Int) : (h.setSreg r i v).red = h.red := rfl
@[simp] theorem Hw.setSreg_par (h : Hw) (r : Reg) (i : Nat) (v : Int) : (h.setSreg r i v).par = h.par := rfl
@[simp] theorem Hw.setSreg_pair (h : Hw) (r : Reg) (i : Nat) (v : Int) : (h.setSreg r i v).pair = h.pair := rfl
@[simp] theorem Hw.setSreg_sec (h : Hw) (r : Reg) (i : Nat) (v : Int) : (h.setSreg r i v).sec = h.sec := rfl
@[simp] theorem Hw.setSreg_msg (h : Hw) (r : Reg) (i : Nat) (v : Int) : (h.setSreg r i v).msg = h.msg := rfl

/-! `setTimer` -/

@[simp] theorem Hw.setTimer_now (h : Hw) (kind i t : Nat) : (h.setTimer kind i t).now = h.now := rfl
@[simp] theorem Hw.setTimer_drawn (h : Hw) (kind i t : Nat) : (h.setTimer kind i t).drawn = h.drawn := rfl
@[simp] theorem Hw.setTimer_od (h : Hw) (kind i t : Nat) : (h.setTimer kind i t).od = h.od := rfl
@[simp] theorem Hw.setTimer_odMs (h : Hw) (kind i t : Nat) : (h.setTimer kind i t).odMs = h.odMs := rfl
@[simp] theorem Hw.setTimer_odPace (h : Hw) (kind i t : Nat) : (h.setTimer kind i t).odPace = h.odPace := rfl
@[simp] theorem Hw.setTimer_odPower (h : Hw) (kind i t : Nat) : (h.setTimer kind i t).odPower = h.odPower := rfl
@[simp] theorem Hw.setTimer_cntPending (h : Hw) (kind i t : Nat) : (h.setTimer kind i t).cntPending = h.cntPending := rfl
@[simp] theorem Hw.setTimer_lfsr (h : Hw) (kind i t : Nat) : (h.setTimer kind i t).lfsr = h.lfsr := rfl
@[simp] theorem Hw.setTimer_tap (h : Hw) (kind i t : Nat) : (h.setTimer kind i t).tap = h.tap := rfl
@[simp] theorem Hw.setTimer_boot (h : Hw) (kind i t : Nat) : (h.setTimer kind i t).boot = h.boot := rfl
@[simp] theorem Hw.setTimer_lnk (h : Hw) (kind i t : Nat) : (h.setTimer kind i t).lnk = h.lnk := rfl
@[simp] theorem Hw.setTimer_req (h : Hw) (kind i t : Nat) : (h.setTimer kind i t).req = h.req := rfl
@[simp] theorem Hw.setTimer_sl (h : Hw) (kind i t : Nat) : (h.setTimer kind i t).sl = h.sl := rfl
@[simp] theorem Hw.setTimer_mem (h : Hw) (kind i t : Nat) : (h.setTimer kind i t).mem = h.mem := rfl
@[simp] theorem Hw.setTimer_coh (h : Hw) (kind i t : Nat) : (h.setTimer kind i t).coh = h.coh := rfl
@[simp] theorem Hw.setTimer_car (h : Hw) (kind i t : Nat) : (h.setTimer kind i t).car = h.car := rfl
@[simp] theorem Hw.setTimer_red (h : Hw) (kind i t : Nat) : (h.setTimer kind i t).red = h.red := rfl
@[simp] theorem Hw.setTimer_par (h : Hw) (kind i t : Nat) : (h.setTimer kind i t).par = h.par := rfl
@[simp] theorem Hw.setTimer_pair (h : Hw) (kind i t : Nat) : (h.setTimer kind i t).pair = h.pair := rfl
@[simp] theorem Hw.setTimer_sec (h : Hw) (kind i t : Nat) : (h.setTimer kind i t).sec = h.sec := rfl
@[simp] theorem Hw.setTimer_msg (h : Hw) (kind i t : Nat) : (h.setTimer kind i t).msg = h.msg := rfl

/-! `setLink` -/

@[simp] theorem Hw.setLink_now (h : Hw) (k : Nat) (l : Link) : (h.setLink k l).now = h.now := rfl
@[simp] theorem Hw.setLink_drawn (h : Hw) (k : Nat) (l : Link) : (h.setLink k l).drawn = h.drawn := rfl
@[simp] theorem Hw.setLink_od (h : Hw) (k : Nat) (l : Link) : (h.setLink k l).od = h.od := rfl
@[simp] theorem Hw.setLink_odMs (h : Hw) (k : Nat) (l : Link) : (h.setLink k l).odMs = h.odMs := rfl
@[simp] theorem Hw.setLink_odPace (h : Hw) (k : Nat) (l : Link) : (h.setLink k l).odPace = h.odPace := rfl
@[simp] theorem Hw.setLink_odPower (h : Hw) (k : Nat) (l : Link) : (h.setLink k l).odPower = h.odPower := rfl
@[simp] theorem Hw.setLink_timers (h : Hw) (k : Nat) (l : Link) : (h.setLink k l).timers = h.timers := rfl
@[simp] theorem Hw.setLink_cntPending (h : Hw) (k : Nat) (l : Link) : (h.setLink k l).cntPending = h.cntPending := rfl
@[simp] theorem Hw.setLink_lfsr (h : Hw) (k : Nat) (l : Link) : (h.setLink k l).lfsr = h.lfsr := rfl
@[simp] theorem Hw.setLink_tap (h : Hw) (k : Nat) (l : Link) : (h.setLink k l).tap = h.tap := rfl
@[simp] theorem Hw.setLink_boot (h : Hw) (k : Nat) (l : Link) : (h.setLink k l).boot = h.boot := rfl
@[simp] theorem Hw.setLink_req (h : Hw) (k : Nat) (l : Link) : (h.setLink k l).req = h.req := rfl
@[simp] theorem Hw.setLink_sl (h : Hw) (k : Nat) (l : Link) : (h.setLink k l).sl = h.sl := rfl
@[simp] theorem Hw.setLink_mem (h : Hw) (k : Nat) (l : Link) : (h.setLink k l).mem = h.mem := rfl
@[simp] theorem Hw.setLink_coh (h : Hw) (k : Nat) (l : Link) : (h.setLink k l).coh = h.coh := rfl
@[simp] theorem Hw.setLink_car (h : Hw) (k : Nat) (l : Link) : (h.setLink k l).car = h.car := rfl
@[simp] theorem Hw.setLink_red (h : Hw) (k : Nat) (l : Link) : (h.setLink k l).red = h.red := rfl
@[simp] theorem Hw.setLink_par (h : Hw) (k : Nat) (l : Link) : (h.setLink k l).par = h.par := rfl
@[simp] theorem Hw.setLink_pair (h : Hw) (k : Nat) (l : Link) : (h.setLink k l).pair = h.pair := rfl
@[simp] theorem Hw.setLink_sec (h : Hw) (k : Nat) (l : Link) : (h.setLink k l).sec = h.sec := rfl
@[simp] theorem Hw.setLink_msg (h : Hw) (k : Nat) (l : Link) : (h.setLink k l).msg = h.msg := rfl
@[simp] theorem Hw.setLink_lnk_txWait (h : Hw) (k : Nat) (l : Link) : (h.setLink k l).lnk.txWait = h.lnk.txWait := rfl
@[simp] theorem Hw.setLink_lnk_spans (h : Hw) (k : Nat) (l : Link) : (h.setLink k l).lnk.spans = h.lnk.spans := rfl

/-! `setSpan` -/

@[simp] theorem Hw.setSpan_now (h : Hw) (p : Nat) (l : Link) : (h.setSpan p l).now = h.now := rfl
@[simp] theorem Hw.setSpan_drawn (h : Hw) (p : Nat) (l : Link) : (h.setSpan p l).drawn = h.drawn := rfl
@[simp] theorem Hw.setSpan_od (h : Hw) (p : Nat) (l : Link) : (h.setSpan p l).od = h.od := rfl
@[simp] theorem Hw.setSpan_odMs (h : Hw) (p : Nat) (l : Link) : (h.setSpan p l).odMs = h.odMs := rfl
@[simp] theorem Hw.setSpan_odPace (h : Hw) (p : Nat) (l : Link) : (h.setSpan p l).odPace = h.odPace := rfl
@[simp] theorem Hw.setSpan_odPower (h : Hw) (p : Nat) (l : Link) : (h.setSpan p l).odPower = h.odPower := rfl
@[simp] theorem Hw.setSpan_timers (h : Hw) (p : Nat) (l : Link) : (h.setSpan p l).timers = h.timers := rfl
@[simp] theorem Hw.setSpan_cntPending (h : Hw) (p : Nat) (l : Link) : (h.setSpan p l).cntPending = h.cntPending := rfl
@[simp] theorem Hw.setSpan_lfsr (h : Hw) (p : Nat) (l : Link) : (h.setSpan p l).lfsr = h.lfsr := rfl
@[simp] theorem Hw.setSpan_tap (h : Hw) (p : Nat) (l : Link) : (h.setSpan p l).tap = h.tap := rfl
@[simp] theorem Hw.setSpan_boot (h : Hw) (p : Nat) (l : Link) : (h.setSpan p l).boot = h.boot := rfl
@[simp] theorem Hw.setSpan_req (h : Hw) (p : Nat) (l : Link) : (h.setSpan p l).req = h.req := rfl
@[simp] theorem Hw.setSpan_sl (h : Hw) (p : Nat) (l : Link) : (h.setSpan p l).sl = h.sl := rfl
@[simp] theorem Hw.setSpan_mem (h : Hw) (p : Nat) (l : Link) : (h.setSpan p l).mem = h.mem := rfl
@[simp] theorem Hw.setSpan_coh (h : Hw) (p : Nat) (l : Link) : (h.setSpan p l).coh = h.coh := rfl
@[simp] theorem Hw.setSpan_car (h : Hw) (p : Nat) (l : Link) : (h.setSpan p l).car = h.car := rfl
@[simp] theorem Hw.setSpan_red (h : Hw) (p : Nat) (l : Link) : (h.setSpan p l).red = h.red := rfl
@[simp] theorem Hw.setSpan_par (h : Hw) (p : Nat) (l : Link) : (h.setSpan p l).par = h.par := rfl
@[simp] theorem Hw.setSpan_pair (h : Hw) (p : Nat) (l : Link) : (h.setSpan p l).pair = h.pair := rfl
@[simp] theorem Hw.setSpan_sec (h : Hw) (p : Nat) (l : Link) : (h.setSpan p l).sec = h.sec := rfl
@[simp] theorem Hw.setSpan_msg (h : Hw) (p : Nat) (l : Link) : (h.setSpan p l).msg = h.msg := rfl
@[simp] theorem Hw.setSpan_lnk_links (h : Hw) (p : Nat) (l : Link) : (h.setSpan p l).lnk.links = h.lnk.links := rfl
@[simp] theorem Hw.setSpan_lnk_txWait (h : Hw) (p : Nat) (l : Link) : (h.setSpan p l).lnk.txWait = h.lnk.txWait := rfl

/-! `setPort` -/

@[simp] theorem Hw.setPort_now (h : Hw) (n : Nat) (p : Port) : (h.setPort n p).now = h.now := rfl
@[simp] theorem Hw.setPort_drawn (h : Hw) (n : Nat) (p : Port) : (h.setPort n p).drawn = h.drawn := rfl
@[simp] theorem Hw.setPort_od (h : Hw) (n : Nat) (p : Port) : (h.setPort n p).od = h.od := rfl
@[simp] theorem Hw.setPort_odMs (h : Hw) (n : Nat) (p : Port) : (h.setPort n p).odMs = h.odMs := rfl
@[simp] theorem Hw.setPort_odPace (h : Hw) (n : Nat) (p : Port) : (h.setPort n p).odPace = h.odPace := rfl
@[simp] theorem Hw.setPort_odPower (h : Hw) (n : Nat) (p : Port) : (h.setPort n p).odPower = h.odPower := rfl
@[simp] theorem Hw.setPort_timers (h : Hw) (n : Nat) (p : Port) : (h.setPort n p).timers = h.timers := rfl
@[simp] theorem Hw.setPort_cntPending (h : Hw) (n : Nat) (p : Port) : (h.setPort n p).cntPending = h.cntPending := rfl
@[simp] theorem Hw.setPort_lfsr (h : Hw) (n : Nat) (p : Port) : (h.setPort n p).lfsr = h.lfsr := rfl
@[simp] theorem Hw.setPort_tap (h : Hw) (n : Nat) (p : Port) : (h.setPort n p).tap = h.tap := rfl
@[simp] theorem Hw.setPort_boot (h : Hw) (n : Nat) (p : Port) : (h.setPort n p).boot = h.boot := rfl
@[simp] theorem Hw.setPort_lnk (h : Hw) (n : Nat) (p : Port) : (h.setPort n p).lnk = h.lnk := rfl
@[simp] theorem Hw.setPort_sl (h : Hw) (n : Nat) (p : Port) : (h.setPort n p).sl = h.sl := rfl
@[simp] theorem Hw.setPort_mem (h : Hw) (n : Nat) (p : Port) : (h.setPort n p).mem = h.mem := rfl
@[simp] theorem Hw.setPort_coh (h : Hw) (n : Nat) (p : Port) : (h.setPort n p).coh = h.coh := rfl
@[simp] theorem Hw.setPort_car (h : Hw) (n : Nat) (p : Port) : (h.setPort n p).car = h.car := rfl
@[simp] theorem Hw.setPort_red (h : Hw) (n : Nat) (p : Port) : (h.setPort n p).red = h.red := rfl
@[simp] theorem Hw.setPort_par (h : Hw) (n : Nat) (p : Port) : (h.setPort n p).par = h.par := rfl
@[simp] theorem Hw.setPort_pair (h : Hw) (n : Nat) (p : Port) : (h.setPort n p).pair = h.pair := rfl
@[simp] theorem Hw.setPort_sec (h : Hw) (n : Nat) (p : Port) : (h.setPort n p).sec = h.sec := rfl
@[simp] theorem Hw.setPort_msg (h : Hw) (n : Nat) (p : Port) : (h.setPort n p).msg = h.msg := rfl
@[simp] theorem Hw.setPort_req_trackers (h : Hw) (n : Nat) (p : Port) : (h.setPort n p).req.trackers = h.req.trackers := rfl
@[simp] theorem Hw.setPort_req_uidNext (h : Hw) (n : Nat) (p : Port) : (h.setPort n p).req.uidNext = h.req.uidNext := rfl
@[simp] theorem Hw.setPort_req_seqWin (h : Hw) (n : Nat) (p : Port) : (h.setPort n p).req.seqWin = h.req.seqWin := rfl
@[simp] theorem Hw.setPort_req_seqLive (h : Hw) (n : Nat) (p : Port) : (h.setPort n p).req.seqLive = h.req.seqLive := rfl
@[simp] theorem Hw.setPort_req_arbs (h : Hw) (n : Nat) (p : Port) : (h.setPort n p).req.arbs = h.req.arbs := rfl
@[simp] theorem Hw.setPort_req_credits (h : Hw) (n : Nat) (p : Port) : (h.setPort n p).req.credits = h.req.credits := rfl
@[simp] theorem Hw.setPort_req_creditsDue (h : Hw) (n : Nat) (p : Port) : (h.setPort n p).req.creditsDue = h.req.creditsDue := rfl
@[simp] theorem Hw.setPort_req_regNow (h : Hw) (n : Nat) (p : Port) : (h.setPort n p).req.regNow = h.req.regNow := rfl
@[simp] theorem Hw.setPort_req_regFresh (h : Hw) (n : Nat) (p : Port) : (h.setPort n p).req.regFresh = h.req.regFresh := rfl
@[simp] theorem Hw.setPort_req_homes (h : Hw) (n : Nat) (p : Port) : (h.setPort n p).req.homes = h.req.homes := rfl

/-! `setTrk` -/

@[simp] theorem Hw.setTrk_now (h : Hw) (uid : Nat) (t : Tracker) : (h.setTrk uid t).now = h.now := rfl
@[simp] theorem Hw.setTrk_drawn (h : Hw) (uid : Nat) (t : Tracker) : (h.setTrk uid t).drawn = h.drawn := rfl
@[simp] theorem Hw.setTrk_od (h : Hw) (uid : Nat) (t : Tracker) : (h.setTrk uid t).od = h.od := rfl
@[simp] theorem Hw.setTrk_odMs (h : Hw) (uid : Nat) (t : Tracker) : (h.setTrk uid t).odMs = h.odMs := rfl
@[simp] theorem Hw.setTrk_odPace (h : Hw) (uid : Nat) (t : Tracker) : (h.setTrk uid t).odPace = h.odPace := rfl
@[simp] theorem Hw.setTrk_odPower (h : Hw) (uid : Nat) (t : Tracker) : (h.setTrk uid t).odPower = h.odPower := rfl
@[simp] theorem Hw.setTrk_timers (h : Hw) (uid : Nat) (t : Tracker) : (h.setTrk uid t).timers = h.timers := rfl
@[simp] theorem Hw.setTrk_cntPending (h : Hw) (uid : Nat) (t : Tracker) : (h.setTrk uid t).cntPending = h.cntPending := rfl
@[simp] theorem Hw.setTrk_lfsr (h : Hw) (uid : Nat) (t : Tracker) : (h.setTrk uid t).lfsr = h.lfsr := rfl
@[simp] theorem Hw.setTrk_tap (h : Hw) (uid : Nat) (t : Tracker) : (h.setTrk uid t).tap = h.tap := rfl
@[simp] theorem Hw.setTrk_boot (h : Hw) (uid : Nat) (t : Tracker) : (h.setTrk uid t).boot = h.boot := rfl
@[simp] theorem Hw.setTrk_lnk (h : Hw) (uid : Nat) (t : Tracker) : (h.setTrk uid t).lnk = h.lnk := rfl
@[simp] theorem Hw.setTrk_sl (h : Hw) (uid : Nat) (t : Tracker) : (h.setTrk uid t).sl = h.sl := rfl
@[simp] theorem Hw.setTrk_mem (h : Hw) (uid : Nat) (t : Tracker) : (h.setTrk uid t).mem = h.mem := rfl
@[simp] theorem Hw.setTrk_coh (h : Hw) (uid : Nat) (t : Tracker) : (h.setTrk uid t).coh = h.coh := rfl
@[simp] theorem Hw.setTrk_car (h : Hw) (uid : Nat) (t : Tracker) : (h.setTrk uid t).car = h.car := rfl
@[simp] theorem Hw.setTrk_red (h : Hw) (uid : Nat) (t : Tracker) : (h.setTrk uid t).red = h.red := rfl
@[simp] theorem Hw.setTrk_par (h : Hw) (uid : Nat) (t : Tracker) : (h.setTrk uid t).par = h.par := rfl
@[simp] theorem Hw.setTrk_pair (h : Hw) (uid : Nat) (t : Tracker) : (h.setTrk uid t).pair = h.pair := rfl
@[simp] theorem Hw.setTrk_sec (h : Hw) (uid : Nat) (t : Tracker) : (h.setTrk uid t).sec = h.sec := rfl
@[simp] theorem Hw.setTrk_msg (h : Hw) (uid : Nat) (t : Tracker) : (h.setTrk uid t).msg = h.msg := rfl
@[simp] theorem Hw.setTrk_req_ports (h : Hw) (uid : Nat) (t : Tracker) : (h.setTrk uid t).req.ports = h.req.ports := rfl
@[simp] theorem Hw.setTrk_req_uidNext (h : Hw) (uid : Nat) (t : Tracker) : (h.setTrk uid t).req.uidNext = h.req.uidNext := rfl
@[simp] theorem Hw.setTrk_req_seqWin (h : Hw) (uid : Nat) (t : Tracker) : (h.setTrk uid t).req.seqWin = h.req.seqWin := rfl
@[simp] theorem Hw.setTrk_req_seqLive (h : Hw) (uid : Nat) (t : Tracker) : (h.setTrk uid t).req.seqLive = h.req.seqLive := rfl
@[simp] theorem Hw.setTrk_req_arbs (h : Hw) (uid : Nat) (t : Tracker) : (h.setTrk uid t).req.arbs = h.req.arbs := rfl
@[simp] theorem Hw.setTrk_req_credits (h : Hw) (uid : Nat) (t : Tracker) : (h.setTrk uid t).req.credits = h.req.credits := rfl
@[simp] theorem Hw.setTrk_req_creditsDue (h : Hw) (uid : Nat) (t : Tracker) : (h.setTrk uid t).req.creditsDue = h.req.creditsDue := rfl
@[simp] theorem Hw.setTrk_req_regNow (h : Hw) (uid : Nat) (t : Tracker) : (h.setTrk uid t).req.regNow = h.req.regNow := rfl
@[simp] theorem Hw.setTrk_req_regFresh (h : Hw) (uid : Nat) (t : Tracker) : (h.setTrk uid t).req.regFresh = h.req.regFresh := rfl
@[simp] theorem Hw.setTrk_req_homes (h : Hw) (uid : Nat) (t : Tracker) : (h.setTrk uid t).req.homes = h.req.homes := rfl

/-! `setArb` -/

@[simp] theorem Hw.setArb_now (h : Hw) (s : Nat) (a : Arb) : (h.setArb s a).now = h.now := rfl
@[simp] theorem Hw.setArb_drawn (h : Hw) (s : Nat) (a : Arb) : (h.setArb s a).drawn = h.drawn := rfl
@[simp] theorem Hw.setArb_od (h : Hw) (s : Nat) (a : Arb) : (h.setArb s a).od = h.od := rfl
@[simp] theorem Hw.setArb_odMs (h : Hw) (s : Nat) (a : Arb) : (h.setArb s a).odMs = h.odMs := rfl
@[simp] theorem Hw.setArb_odPace (h : Hw) (s : Nat) (a : Arb) : (h.setArb s a).odPace = h.odPace := rfl
@[simp] theorem Hw.setArb_odPower (h : Hw) (s : Nat) (a : Arb) : (h.setArb s a).odPower = h.odPower := rfl
@[simp] theorem Hw.setArb_timers (h : Hw) (s : Nat) (a : Arb) : (h.setArb s a).timers = h.timers := rfl
@[simp] theorem Hw.setArb_cntPending (h : Hw) (s : Nat) (a : Arb) : (h.setArb s a).cntPending = h.cntPending := rfl
@[simp] theorem Hw.setArb_lfsr (h : Hw) (s : Nat) (a : Arb) : (h.setArb s a).lfsr = h.lfsr := rfl
@[simp] theorem Hw.setArb_tap (h : Hw) (s : Nat) (a : Arb) : (h.setArb s a).tap = h.tap := rfl
@[simp] theorem Hw.setArb_boot (h : Hw) (s : Nat) (a : Arb) : (h.setArb s a).boot = h.boot := rfl
@[simp] theorem Hw.setArb_lnk (h : Hw) (s : Nat) (a : Arb) : (h.setArb s a).lnk = h.lnk := rfl
@[simp] theorem Hw.setArb_sl (h : Hw) (s : Nat) (a : Arb) : (h.setArb s a).sl = h.sl := rfl
@[simp] theorem Hw.setArb_mem (h : Hw) (s : Nat) (a : Arb) : (h.setArb s a).mem = h.mem := rfl
@[simp] theorem Hw.setArb_coh (h : Hw) (s : Nat) (a : Arb) : (h.setArb s a).coh = h.coh := rfl
@[simp] theorem Hw.setArb_car (h : Hw) (s : Nat) (a : Arb) : (h.setArb s a).car = h.car := rfl
@[simp] theorem Hw.setArb_red (h : Hw) (s : Nat) (a : Arb) : (h.setArb s a).red = h.red := rfl
@[simp] theorem Hw.setArb_par (h : Hw) (s : Nat) (a : Arb) : (h.setArb s a).par = h.par := rfl
@[simp] theorem Hw.setArb_pair (h : Hw) (s : Nat) (a : Arb) : (h.setArb s a).pair = h.pair := rfl
@[simp] theorem Hw.setArb_sec (h : Hw) (s : Nat) (a : Arb) : (h.setArb s a).sec = h.sec := rfl
@[simp] theorem Hw.setArb_msg (h : Hw) (s : Nat) (a : Arb) : (h.setArb s a).msg = h.msg := rfl
@[simp] theorem Hw.setArb_req_ports (h : Hw) (s : Nat) (a : Arb) : (h.setArb s a).req.ports = h.req.ports := rfl
@[simp] theorem Hw.setArb_req_trackers (h : Hw) (s : Nat) (a : Arb) : (h.setArb s a).req.trackers = h.req.trackers := rfl
@[simp] theorem Hw.setArb_req_uidNext (h : Hw) (s : Nat) (a : Arb) : (h.setArb s a).req.uidNext = h.req.uidNext := rfl
@[simp] theorem Hw.setArb_req_seqWin (h : Hw) (s : Nat) (a : Arb) : (h.setArb s a).req.seqWin = h.req.seqWin := rfl
@[simp] theorem Hw.setArb_req_seqLive (h : Hw) (s : Nat) (a : Arb) : (h.setArb s a).req.seqLive = h.req.seqLive := rfl
@[simp] theorem Hw.setArb_req_credits (h : Hw) (s : Nat) (a : Arb) : (h.setArb s a).req.credits = h.req.credits := rfl
@[simp] theorem Hw.setArb_req_creditsDue (h : Hw) (s : Nat) (a : Arb) : (h.setArb s a).req.creditsDue = h.req.creditsDue := rfl
@[simp] theorem Hw.setArb_req_regNow (h : Hw) (s : Nat) (a : Arb) : (h.setArb s a).req.regNow = h.req.regNow := rfl
@[simp] theorem Hw.setArb_req_regFresh (h : Hw) (s : Nat) (a : Arb) : (h.setArb s a).req.regFresh = h.req.regFresh := rfl
@[simp] theorem Hw.setArb_req_homes (h : Hw) (s : Nat) (a : Arb) : (h.setArb s a).req.homes = h.req.homes := rfl

/-! `setWin` -/

@[simp] theorem Hw.setWin_now (h : Hw) (r s w : Nat) : (h.setWin r s w).now = h.now := rfl
@[simp] theorem Hw.setWin_drawn (h : Hw) (r s w : Nat) : (h.setWin r s w).drawn = h.drawn := rfl
@[simp] theorem Hw.setWin_od (h : Hw) (r s w : Nat) : (h.setWin r s w).od = h.od := rfl
@[simp] theorem Hw.setWin_odMs (h : Hw) (r s w : Nat) : (h.setWin r s w).odMs = h.odMs := rfl
@[simp] theorem Hw.setWin_odPace (h : Hw) (r s w : Nat) : (h.setWin r s w).odPace = h.odPace := rfl
@[simp] theorem Hw.setWin_odPower (h : Hw) (r s w : Nat) : (h.setWin r s w).odPower = h.odPower := rfl
@[simp] theorem Hw.setWin_timers (h : Hw) (r s w : Nat) : (h.setWin r s w).timers = h.timers := rfl
@[simp] theorem Hw.setWin_cntPending (h : Hw) (r s w : Nat) : (h.setWin r s w).cntPending = h.cntPending := rfl
@[simp] theorem Hw.setWin_lfsr (h : Hw) (r s w : Nat) : (h.setWin r s w).lfsr = h.lfsr := rfl
@[simp] theorem Hw.setWin_tap (h : Hw) (r s w : Nat) : (h.setWin r s w).tap = h.tap := rfl
@[simp] theorem Hw.setWin_boot (h : Hw) (r s w : Nat) : (h.setWin r s w).boot = h.boot := rfl
@[simp] theorem Hw.setWin_lnk (h : Hw) (r s w : Nat) : (h.setWin r s w).lnk = h.lnk := rfl
@[simp] theorem Hw.setWin_sl (h : Hw) (r s w : Nat) : (h.setWin r s w).sl = h.sl := rfl
@[simp] theorem Hw.setWin_mem (h : Hw) (r s w : Nat) : (h.setWin r s w).mem = h.mem := rfl
@[simp] theorem Hw.setWin_coh (h : Hw) (r s w : Nat) : (h.setWin r s w).coh = h.coh := rfl
@[simp] theorem Hw.setWin_car (h : Hw) (r s w : Nat) : (h.setWin r s w).car = h.car := rfl
@[simp] theorem Hw.setWin_red (h : Hw) (r s w : Nat) : (h.setWin r s w).red = h.red := rfl
@[simp] theorem Hw.setWin_par (h : Hw) (r s w : Nat) : (h.setWin r s w).par = h.par := rfl
@[simp] theorem Hw.setWin_pair (h : Hw) (r s w : Nat) : (h.setWin r s w).pair = h.pair := rfl
@[simp] theorem Hw.setWin_sec (h : Hw) (r s w : Nat) : (h.setWin r s w).sec = h.sec := rfl
@[simp] theorem Hw.setWin_msg (h : Hw) (r s w : Nat) : (h.setWin r s w).msg = h.msg := rfl
@[simp] theorem Hw.setWin_req_ports (h : Hw) (r s w : Nat) : (h.setWin r s w).req.ports = h.req.ports := rfl
@[simp] theorem Hw.setWin_req_trackers (h : Hw) (r s w : Nat) : (h.setWin r s w).req.trackers = h.req.trackers := rfl
@[simp] theorem Hw.setWin_req_uidNext (h : Hw) (r s w : Nat) : (h.setWin r s w).req.uidNext = h.req.uidNext := rfl
@[simp] theorem Hw.setWin_req_seqLive (h : Hw) (r s w : Nat) : (h.setWin r s w).req.seqLive = h.req.seqLive := rfl
@[simp] theorem Hw.setWin_req_arbs (h : Hw) (r s w : Nat) : (h.setWin r s w).req.arbs = h.req.arbs := rfl
@[simp] theorem Hw.setWin_req_credits (h : Hw) (r s w : Nat) : (h.setWin r s w).req.credits = h.req.credits := rfl
@[simp] theorem Hw.setWin_req_creditsDue (h : Hw) (r s w : Nat) : (h.setWin r s w).req.creditsDue = h.req.creditsDue := rfl
@[simp] theorem Hw.setWin_req_regNow (h : Hw) (r s w : Nat) : (h.setWin r s w).req.regNow = h.req.regNow := rfl
@[simp] theorem Hw.setWin_req_regFresh (h : Hw) (r s w : Nat) : (h.setWin r s w).req.regFresh = h.req.regFresh := rfl
@[simp] theorem Hw.setWin_req_homes (h : Hw) (r s w : Nat) : (h.setWin r s w).req.homes = h.req.homes := rfl

/-! `setPc` -/

@[simp] theorem Hw.setPc_now (h : Hw) (g : Nat) (x : Pc) : (h.setPc g x).now = h.now := rfl
@[simp] theorem Hw.setPc_drawn (h : Hw) (g : Nat) (x : Pc) : (h.setPc g x).drawn = h.drawn := rfl
@[simp] theorem Hw.setPc_od (h : Hw) (g : Nat) (x : Pc) : (h.setPc g x).od = h.od := rfl
@[simp] theorem Hw.setPc_odMs (h : Hw) (g : Nat) (x : Pc) : (h.setPc g x).odMs = h.odMs := rfl
@[simp] theorem Hw.setPc_odPace (h : Hw) (g : Nat) (x : Pc) : (h.setPc g x).odPace = h.odPace := rfl
@[simp] theorem Hw.setPc_odPower (h : Hw) (g : Nat) (x : Pc) : (h.setPc g x).odPower = h.odPower := rfl
@[simp] theorem Hw.setPc_timers (h : Hw) (g : Nat) (x : Pc) : (h.setPc g x).timers = h.timers := rfl
@[simp] theorem Hw.setPc_cntPending (h : Hw) (g : Nat) (x : Pc) : (h.setPc g x).cntPending = h.cntPending := rfl
@[simp] theorem Hw.setPc_lfsr (h : Hw) (g : Nat) (x : Pc) : (h.setPc g x).lfsr = h.lfsr := rfl
@[simp] theorem Hw.setPc_tap (h : Hw) (g : Nat) (x : Pc) : (h.setPc g x).tap = h.tap := rfl
@[simp] theorem Hw.setPc_boot (h : Hw) (g : Nat) (x : Pc) : (h.setPc g x).boot = h.boot := rfl
@[simp] theorem Hw.setPc_lnk (h : Hw) (g : Nat) (x : Pc) : (h.setPc g x).lnk = h.lnk := rfl
@[simp] theorem Hw.setPc_req (h : Hw) (g : Nat) (x : Pc) : (h.setPc g x).req = h.req := rfl
@[simp] theorem Hw.setPc_mem (h : Hw) (g : Nat) (x : Pc) : (h.setPc g x).mem = h.mem := rfl
@[simp] theorem Hw.setPc_coh (h : Hw) (g : Nat) (x : Pc) : (h.setPc g x).coh = h.coh := rfl
@[simp] theorem Hw.setPc_car (h : Hw) (g : Nat) (x : Pc) : (h.setPc g x).car = h.car := rfl
@[simp] theorem Hw.setPc_red (h : Hw) (g : Nat) (x : Pc) : (h.setPc g x).red = h.red := rfl
@[simp] theorem Hw.setPc_par (h : Hw) (g : Nat) (x : Pc) : (h.setPc g x).par = h.par := rfl
@[simp] theorem Hw.setPc_pair (h : Hw) (g : Nat) (x : Pc) : (h.setPc g x).pair = h.pair := rfl
@[simp] theorem Hw.setPc_sec (h : Hw) (g : Nat) (x : Pc) : (h.setPc g x).sec = h.sec := rfl
@[simp] theorem Hw.setPc_msg (h : Hw) (g : Nat) (x : Pc) : (h.setPc g x).msg = h.msg := rfl
@[simp] theorem Hw.setPc_sl_inbox (h : Hw) (g : Nat) (x : Pc) : (h.setPc g x).sl.inbox = h.sl.inbox := rfl
@[simp] theorem Hw.setPc_sl_stage (h : Hw) (g : Nat) (x : Pc) : (h.setPc g x).sl.stage = h.sl.stage := rfl
@[simp] theorem Hw.setPc_sl_queues (h : Hw) (g : Nat) (x : Pc) : (h.setPc g x).sl.queues = h.sl.queues := rfl
@[simp] theorem Hw.setPc_sl_banks (h : Hw) (g : Nat) (x : Pc) : (h.setPc g x).sl.banks = h.sl.banks := rfl
@[simp] theorem Hw.setPc_sl_ra (h : Hw) (g : Nat) (x : Pc) : (h.setPc g x).sl.ra = h.sl.ra := rfl
@[simp] theorem Hw.setPc_sl_cancels (h : Hw) (g : Nat) (x : Pc) : (h.setPc g x).sl.cancels = h.sl.cancels := rfl
@[simp] theorem Hw.setPc_sl_holds (h : Hw) (g : Nat) (x : Pc) : (h.setPc g x).sl.holds = h.sl.holds := rfl
@[simp] theorem Hw.setPc_sl_descriptors (h : Hw) (g : Nat) (x : Pc) : (h.setPc g x).sl.descriptors = h.sl.descriptors := rfl
@[simp] theorem Hw.setPc_sl_rateSwitchTo (h : Hw) (g : Nat) (x : Pc) : (h.setPc g x).sl.rateSwitchTo = h.sl.rateSwitchTo := rfl
@[simp] theorem Hw.setPc_sl_dwell (h : Hw) (g : Nat) (x : Pc) : (h.setPc g x).sl.dwell = h.sl.dwell := rfl
@[simp] theorem Hw.setPc_sl_raNow (h : Hw) (g : Nat) (x : Pc) : (h.setPc g x).sl.raNow = h.sl.raNow := rfl
@[simp] theorem Hw.setPc_sl_sensors (h : Hw) (g : Nat) (x : Pc) : (h.setPc g x).sl.sensors = h.sl.sensors := rfl

/-! `setBank` -/

@[simp] theorem Hw.setBank_now (h : Hw) (g b : Nat) (x : Bank) : (h.setBank g b x).now = h.now := rfl
@[simp] theorem Hw.setBank_drawn (h : Hw) (g b : Nat) (x : Bank) : (h.setBank g b x).drawn = h.drawn := rfl
@[simp] theorem Hw.setBank_od (h : Hw) (g b : Nat) (x : Bank) : (h.setBank g b x).od = h.od := rfl
@[simp] theorem Hw.setBank_odMs (h : Hw) (g b : Nat) (x : Bank) : (h.setBank g b x).odMs = h.odMs := rfl
@[simp] theorem Hw.setBank_odPace (h : Hw) (g b : Nat) (x : Bank) : (h.setBank g b x).odPace = h.odPace := rfl
@[simp] theorem Hw.setBank_odPower (h : Hw) (g b : Nat) (x : Bank) : (h.setBank g b x).odPower = h.odPower := rfl
@[simp] theorem Hw.setBank_timers (h : Hw) (g b : Nat) (x : Bank) : (h.setBank g b x).timers = h.timers := rfl
@[simp] theorem Hw.setBank_cntPending (h : Hw) (g b : Nat) (x : Bank) : (h.setBank g b x).cntPending = h.cntPending := rfl
@[simp] theorem Hw.setBank_lfsr (h : Hw) (g b : Nat) (x : Bank) : (h.setBank g b x).lfsr = h.lfsr := rfl
@[simp] theorem Hw.setBank_tap (h : Hw) (g b : Nat) (x : Bank) : (h.setBank g b x).tap = h.tap := rfl
@[simp] theorem Hw.setBank_boot (h : Hw) (g b : Nat) (x : Bank) : (h.setBank g b x).boot = h.boot := rfl
@[simp] theorem Hw.setBank_lnk (h : Hw) (g b : Nat) (x : Bank) : (h.setBank g b x).lnk = h.lnk := rfl
@[simp] theorem Hw.setBank_req (h : Hw) (g b : Nat) (x : Bank) : (h.setBank g b x).req = h.req := rfl
@[simp] theorem Hw.setBank_mem (h : Hw) (g b : Nat) (x : Bank) : (h.setBank g b x).mem = h.mem := rfl
@[simp] theorem Hw.setBank_coh (h : Hw) (g b : Nat) (x : Bank) : (h.setBank g b x).coh = h.coh := rfl
@[simp] theorem Hw.setBank_car (h : Hw) (g b : Nat) (x : Bank) : (h.setBank g b x).car = h.car := rfl
@[simp] theorem Hw.setBank_red (h : Hw) (g b : Nat) (x : Bank) : (h.setBank g b x).red = h.red := rfl
@[simp] theorem Hw.setBank_par (h : Hw) (g b : Nat) (x : Bank) : (h.setBank g b x).par = h.par := rfl
@[simp] theorem Hw.setBank_pair (h : Hw) (g b : Nat) (x : Bank) : (h.setBank g b x).pair = h.pair := rfl
@[simp] theorem Hw.setBank_sec (h : Hw) (g b : Nat) (x : Bank) : (h.setBank g b x).sec = h.sec := rfl
@[simp] theorem Hw.setBank_msg (h : Hw) (g b : Nat) (x : Bank) : (h.setBank g b x).msg = h.msg := rfl
@[simp] theorem Hw.setBank_sl_inbox (h : Hw) (g b : Nat) (x : Bank) : (h.setBank g b x).sl.inbox = h.sl.inbox := rfl
@[simp] theorem Hw.setBank_sl_stage (h : Hw) (g b : Nat) (x : Bank) : (h.setBank g b x).sl.stage = h.sl.stage := rfl
@[simp] theorem Hw.setBank_sl_queues (h : Hw) (g b : Nat) (x : Bank) : (h.setBank g b x).sl.queues = h.sl.queues := rfl
@[simp] theorem Hw.setBank_sl_pcs (h : Hw) (g b : Nat) (x : Bank) : (h.setBank g b x).sl.pcs = h.sl.pcs := rfl
@[simp] theorem Hw.setBank_sl_ra (h : Hw) (g b : Nat) (x : Bank) : (h.setBank g b x).sl.ra = h.sl.ra := rfl
@[simp] theorem Hw.setBank_sl_cancels (h : Hw) (g b : Nat) (x : Bank) : (h.setBank g b x).sl.cancels = h.sl.cancels := rfl
@[simp] theorem Hw.setBank_sl_holds (h : Hw) (g b : Nat) (x : Bank) : (h.setBank g b x).sl.holds = h.sl.holds := rfl
@[simp] theorem Hw.setBank_sl_descriptors (h : Hw) (g b : Nat) (x : Bank) : (h.setBank g b x).sl.descriptors = h.sl.descriptors := rfl
@[simp] theorem Hw.setBank_sl_rateSwitchTo (h : Hw) (g b : Nat) (x : Bank) : (h.setBank g b x).sl.rateSwitchTo = h.sl.rateSwitchTo := rfl
@[simp] theorem Hw.setBank_sl_dwell (h : Hw) (g b : Nat) (x : Bank) : (h.setBank g b x).sl.dwell = h.sl.dwell := rfl
@[simp] theorem Hw.setBank_sl_raNow (h : Hw) (g b : Nat) (x : Bank) : (h.setBank g b x).sl.raNow = h.sl.raNow := rfl
@[simp] theorem Hw.setBank_sl_sensors (h : Hw) (g b : Nat) (x : Bank) : (h.setBank g b x).sl.sensors = h.sl.sensors := rfl

/-! `setStage` -/

@[simp] theorem Hw.setStage_now (h : Hw) (s : Nat) (q : List QEntry) : (h.setStage s q).now = h.now := rfl
@[simp] theorem Hw.setStage_drawn (h : Hw) (s : Nat) (q : List QEntry) : (h.setStage s q).drawn = h.drawn := rfl
@[simp] theorem Hw.setStage_od (h : Hw) (s : Nat) (q : List QEntry) : (h.setStage s q).od = h.od := rfl
@[simp] theorem Hw.setStage_odMs (h : Hw) (s : Nat) (q : List QEntry) : (h.setStage s q).odMs = h.odMs := rfl
@[simp] theorem Hw.setStage_odPace (h : Hw) (s : Nat) (q : List QEntry) : (h.setStage s q).odPace = h.odPace := rfl
@[simp] theorem Hw.setStage_odPower (h : Hw) (s : Nat) (q : List QEntry) : (h.setStage s q).odPower = h.odPower := rfl
@[simp] theorem Hw.setStage_timers (h : Hw) (s : Nat) (q : List QEntry) : (h.setStage s q).timers = h.timers := rfl
@[simp] theorem Hw.setStage_cntPending (h : Hw) (s : Nat) (q : List QEntry) : (h.setStage s q).cntPending = h.cntPending := rfl
@[simp] theorem Hw.setStage_lfsr (h : Hw) (s : Nat) (q : List QEntry) : (h.setStage s q).lfsr = h.lfsr := rfl
@[simp] theorem Hw.setStage_tap (h : Hw) (s : Nat) (q : List QEntry) : (h.setStage s q).tap = h.tap := rfl
@[simp] theorem Hw.setStage_boot (h : Hw) (s : Nat) (q : List QEntry) : (h.setStage s q).boot = h.boot := rfl
@[simp] theorem Hw.setStage_lnk (h : Hw) (s : Nat) (q : List QEntry) : (h.setStage s q).lnk = h.lnk := rfl
@[simp] theorem Hw.setStage_req (h : Hw) (s : Nat) (q : List QEntry) : (h.setStage s q).req = h.req := rfl
@[simp] theorem Hw.setStage_mem (h : Hw) (s : Nat) (q : List QEntry) : (h.setStage s q).mem = h.mem := rfl
@[simp] theorem Hw.setStage_coh (h : Hw) (s : Nat) (q : List QEntry) : (h.setStage s q).coh = h.coh := rfl
@[simp] theorem Hw.setStage_car (h : Hw) (s : Nat) (q : List QEntry) : (h.setStage s q).car = h.car := rfl
@[simp] theorem Hw.setStage_red (h : Hw) (s : Nat) (q : List QEntry) : (h.setStage s q).red = h.red := rfl
@[simp] theorem Hw.setStage_par (h : Hw) (s : Nat) (q : List QEntry) : (h.setStage s q).par = h.par := rfl
@[simp] theorem Hw.setStage_pair (h : Hw) (s : Nat) (q : List QEntry) : (h.setStage s q).pair = h.pair := rfl
@[simp] theorem Hw.setStage_sec (h : Hw) (s : Nat) (q : List QEntry) : (h.setStage s q).sec = h.sec := rfl
@[simp] theorem Hw.setStage_msg (h : Hw) (s : Nat) (q : List QEntry) : (h.setStage s q).msg = h.msg := rfl
@[simp] theorem Hw.setStage_sl_inbox (h : Hw) (s : Nat) (q : List QEntry) : (h.setStage s q).sl.inbox = h.sl.inbox := rfl
@[simp] theorem Hw.setStage_sl_queues (h : Hw) (s : Nat) (q : List QEntry) : (h.setStage s q).sl.queues = h.sl.queues := rfl
@[simp] theorem Hw.setStage_sl_banks (h : Hw) (s : Nat) (q : List QEntry) : (h.setStage s q).sl.banks = h.sl.banks := rfl
@[simp] theorem Hw.setStage_sl_pcs (h : Hw) (s : Nat) (q : List QEntry) : (h.setStage s q).sl.pcs = h.sl.pcs := rfl
@[simp] theorem Hw.setStage_sl_ra (h : Hw) (s : Nat) (q : List QEntry) : (h.setStage s q).sl.ra = h.sl.ra := rfl
@[simp] theorem Hw.setStage_sl_cancels (h : Hw) (s : Nat) (q : List QEntry) : (h.setStage s q).sl.cancels = h.sl.cancels := rfl
@[simp] theorem Hw.setStage_sl_holds (h : Hw) (s : Nat) (q : List QEntry) : (h.setStage s q).sl.holds = h.sl.holds := rfl
@[simp] theorem Hw.setStage_sl_descriptors (h : Hw) (s : Nat) (q : List QEntry) : (h.setStage s q).sl.descriptors = h.sl.descriptors := rfl
@[simp] theorem Hw.setStage_sl_rateSwitchTo (h : Hw) (s : Nat) (q : List QEntry) : (h.setStage s q).sl.rateSwitchTo = h.sl.rateSwitchTo := rfl
@[simp] theorem Hw.setStage_sl_dwell (h : Hw) (s : Nat) (q : List QEntry) : (h.setStage s q).sl.dwell = h.sl.dwell := rfl
@[simp] theorem Hw.setStage_sl_raNow (h : Hw) (s : Nat) (q : List QEntry) : (h.setStage s q).sl.raNow = h.sl.raNow := rfl
@[simp] theorem Hw.setStage_sl_sensors (h : Hw) (s : Nat) (q : List QEntry) : (h.setStage s q).sl.sensors = h.sl.sensors := rfl

/-! `setInbox` -/

@[simp] theorem Hw.setInbox_now (h : Hw) (s : Nat) (q : List Piece) : (h.setInbox s q).now = h.now := rfl
@[simp] theorem Hw.setInbox_drawn (h : Hw) (s : Nat) (q : List Piece) : (h.setInbox s q).drawn = h.drawn := rfl
@[simp] theorem Hw.setInbox_od (h : Hw) (s : Nat) (q : List Piece) : (h.setInbox s q).od = h.od := rfl
@[simp] theorem Hw.setInbox_odMs (h : Hw) (s : Nat) (q : List Piece) : (h.setInbox s q).odMs = h.odMs := rfl
@[simp] theorem Hw.setInbox_odPace (h : Hw) (s : Nat) (q : List Piece) : (h.setInbox s q).odPace = h.odPace := rfl
@[simp] theorem Hw.setInbox_odPower (h : Hw) (s : Nat) (q : List Piece) : (h.setInbox s q).odPower = h.odPower := rfl
@[simp] theorem Hw.setInbox_timers (h : Hw) (s : Nat) (q : List Piece) : (h.setInbox s q).timers = h.timers := rfl
@[simp] theorem Hw.setInbox_cntPending (h : Hw) (s : Nat) (q : List Piece) : (h.setInbox s q).cntPending = h.cntPending := rfl
@[simp] theorem Hw.setInbox_lfsr (h : Hw) (s : Nat) (q : List Piece) : (h.setInbox s q).lfsr = h.lfsr := rfl
@[simp] theorem Hw.setInbox_tap (h : Hw) (s : Nat) (q : List Piece) : (h.setInbox s q).tap = h.tap := rfl
@[simp] theorem Hw.setInbox_boot (h : Hw) (s : Nat) (q : List Piece) : (h.setInbox s q).boot = h.boot := rfl
@[simp] theorem Hw.setInbox_lnk (h : Hw) (s : Nat) (q : List Piece) : (h.setInbox s q).lnk = h.lnk := rfl
@[simp] theorem Hw.setInbox_req (h : Hw) (s : Nat) (q : List Piece) : (h.setInbox s q).req = h.req := rfl
@[simp] theorem Hw.setInbox_mem (h : Hw) (s : Nat) (q : List Piece) : (h.setInbox s q).mem = h.mem := rfl
@[simp] theorem Hw.setInbox_coh (h : Hw) (s : Nat) (q : List Piece) : (h.setInbox s q).coh = h.coh := rfl
@[simp] theorem Hw.setInbox_car (h : Hw) (s : Nat) (q : List Piece) : (h.setInbox s q).car = h.car := rfl
@[simp] theorem Hw.setInbox_red (h : Hw) (s : Nat) (q : List Piece) : (h.setInbox s q).red = h.red := rfl
@[simp] theorem Hw.setInbox_par (h : Hw) (s : Nat) (q : List Piece) : (h.setInbox s q).par = h.par := rfl
@[simp] theorem Hw.setInbox_pair (h : Hw) (s : Nat) (q : List Piece) : (h.setInbox s q).pair = h.pair := rfl
@[simp] theorem Hw.setInbox_sec (h : Hw) (s : Nat) (q : List Piece) : (h.setInbox s q).sec = h.sec := rfl
@[simp] theorem Hw.setInbox_msg (h : Hw) (s : Nat) (q : List Piece) : (h.setInbox s q).msg = h.msg := rfl
@[simp] theorem Hw.setInbox_sl_stage (h : Hw) (s : Nat) (q : List Piece) : (h.setInbox s q).sl.stage = h.sl.stage := rfl
@[simp] theorem Hw.setInbox_sl_queues (h : Hw) (s : Nat) (q : List Piece) : (h.setInbox s q).sl.queues = h.sl.queues := rfl
@[simp] theorem Hw.setInbox_sl_banks (h : Hw) (s : Nat) (q : List Piece) : (h.setInbox s q).sl.banks = h.sl.banks := rfl
@[simp] theorem Hw.setInbox_sl_pcs (h : Hw) (s : Nat) (q : List Piece) : (h.setInbox s q).sl.pcs = h.sl.pcs := rfl
@[simp] theorem Hw.setInbox_sl_ra (h : Hw) (s : Nat) (q : List Piece) : (h.setInbox s q).sl.ra = h.sl.ra := rfl
@[simp] theorem Hw.setInbox_sl_cancels (h : Hw) (s : Nat) (q : List Piece) : (h.setInbox s q).sl.cancels = h.sl.cancels := rfl
@[simp] theorem Hw.setInbox_sl_holds (h : Hw) (s : Nat) (q : List Piece) : (h.setInbox s q).sl.holds = h.sl.holds := rfl
@[simp] theorem Hw.setInbox_sl_descriptors (h : Hw) (s : Nat) (q : List Piece) : (h.setInbox s q).sl.descriptors = h.sl.descriptors := rfl
@[simp] theorem Hw.setInbox_sl_rateSwitchTo (h : Hw) (s : Nat) (q : List Piece) : (h.setInbox s q).sl.rateSwitchTo = h.sl.rateSwitchTo := rfl
@[simp] theorem Hw.setInbox_sl_dwell (h : Hw) (s : Nat) (q : List Piece) : (h.setInbox s q).sl.dwell = h.sl.dwell := rfl
@[simp] theorem Hw.setInbox_sl_raNow (h : Hw) (s : Nat) (q : List Piece) : (h.setInbox s q).sl.raNow = h.sl.raNow := rfl
@[simp] theorem Hw.setInbox_sl_sensors (h : Hw) (s : Nat) (q : List Piece) : (h.setInbox s q).sl.sensors = h.sl.sensors := rfl

/-! `setEng` -/

@[simp] theorem Hw.setEng_now (h : Hw) (e : Nat) (x : Engine) : (h.setEng e x).now = h.now := rfl
@[simp] theorem Hw.setEng_drawn (h : Hw) (e : Nat) (x : Engine) : (h.setEng e x).drawn = h.drawn := rfl
@[simp] theorem Hw.setEng_od (h : Hw) (e : Nat) (x : Engine) : (h.setEng e x).od = h.od := rfl
@[simp] theorem Hw.setEng_odMs (h : Hw) (e : Nat) (x : Engine) : (h.setEng e x).odMs = h.odMs := rfl
@[simp] theorem Hw.setEng_odPace (h : Hw) (e : Nat) (x : Engine) : (h.setEng e x).odPace = h.odPace := rfl
@[simp] theorem Hw.setEng_odPower (h : Hw) (e : Nat) (x : Engine) : (h.setEng e x).odPower = h.odPower := rfl
@[simp] theorem Hw.setEng_timers (h : Hw) (e : Nat) (x : Engine) : (h.setEng e x).timers = h.timers := rfl
@[simp] theorem Hw.setEng_cntPending (h : Hw) (e : Nat) (x : Engine) : (h.setEng e x).cntPending = h.cntPending := rfl
@[simp] theorem Hw.setEng_lfsr (h : Hw) (e : Nat) (x : Engine) : (h.setEng e x).lfsr = h.lfsr := rfl
@[simp] theorem Hw.setEng_tap (h : Hw) (e : Nat) (x : Engine) : (h.setEng e x).tap = h.tap := rfl
@[simp] theorem Hw.setEng_boot (h : Hw) (e : Nat) (x : Engine) : (h.setEng e x).boot = h.boot := rfl
@[simp] theorem Hw.setEng_lnk (h : Hw) (e : Nat) (x : Engine) : (h.setEng e x).lnk = h.lnk := rfl
@[simp] theorem Hw.setEng_req (h : Hw) (e : Nat) (x : Engine) : (h.setEng e x).req = h.req := rfl
@[simp] theorem Hw.setEng_sl (h : Hw) (e : Nat) (x : Engine) : (h.setEng e x).sl = h.sl := rfl
@[simp] theorem Hw.setEng_mem (h : Hw) (e : Nat) (x : Engine) : (h.setEng e x).mem = h.mem := rfl
@[simp] theorem Hw.setEng_coh (h : Hw) (e : Nat) (x : Engine) : (h.setEng e x).coh = h.coh := rfl
@[simp] theorem Hw.setEng_red (h : Hw) (e : Nat) (x : Engine) : (h.setEng e x).red = h.red := rfl
@[simp] theorem Hw.setEng_par (h : Hw) (e : Nat) (x : Engine) : (h.setEng e x).par = h.par := rfl
@[simp] theorem Hw.setEng_pair (h : Hw) (e : Nat) (x : Engine) : (h.setEng e x).pair = h.pair := rfl
@[simp] theorem Hw.setEng_sec (h : Hw) (e : Nat) (x : Engine) : (h.setEng e x).sec = h.sec := rfl
@[simp] theorem Hw.setEng_msg (h : Hw) (e : Nat) (x : Engine) : (h.setEng e x).msg = h.msg := rfl
@[simp] theorem Hw.setEng_car_progCopies (h : Hw) (e : Nat) (x : Engine) : (h.setEng e x).car.progCopies = h.car.progCopies := rfl
@[simp] theorem Hw.setEng_car_progSteps (h : Hw) (e : Nat) (x : Engine) : (h.setEng e x).car.progSteps = h.car.progSteps := rfl
@[simp] theorem Hw.setEng_car_launchIn (h : Hw) (e : Nat) (x : Engine) : (h.setEng e x).car.launchIn = h.car.launchIn := rfl
@[simp] theorem Hw.setEng_car_staging (h : Hw) (e : Nat) (x : Engine) : (h.setEng e x).car.staging = h.car.staging := rfl
@[simp] theorem Hw.setEng_car_weightKeys (h : Hw) (e : Nat) (x : Engine) : (h.setEng e x).car.weightKeys = h.car.weightKeys := rfl
@[simp] theorem Hw.setEng_car_weightLog (h : Hw) (e : Nat) (x : Engine) : (h.setEng e x).car.weightLog = h.car.weightLog := rfl
@[simp] theorem Hw.setEng_car_fmtBase (h : Hw) (e : Nat) (x : Engine) : (h.setEng e x).car.fmtBase = h.car.fmtBase := rfl

/-! `setSes` -/

@[simp] theorem Hw.setSes_now (h : Hw) (n : Nat) (x : Session) : (h.setSes n x).now = h.now := rfl
@[simp] theorem Hw.setSes_drawn (h : Hw) (n : Nat) (x : Session) : (h.setSes n x).drawn = h.drawn := rfl
@[simp] theorem Hw.setSes_od (h : Hw) (n : Nat) (x : Session) : (h.setSes n x).od = h.od := rfl
@[simp] theorem Hw.setSes_odMs (h : Hw) (n : Nat) (x : Session) : (h.setSes n x).odMs = h.odMs := rfl
@[simp] theorem Hw.setSes_odPace (h : Hw) (n : Nat) (x : Session) : (h.setSes n x).odPace = h.odPace := rfl
@[simp] theorem Hw.setSes_odPower (h : Hw) (n : Nat) (x : Session) : (h.setSes n x).odPower = h.odPower := rfl
@[simp] theorem Hw.setSes_timers (h : Hw) (n : Nat) (x : Session) : (h.setSes n x).timers = h.timers := rfl
@[simp] theorem Hw.setSes_cntPending (h : Hw) (n : Nat) (x : Session) : (h.setSes n x).cntPending = h.cntPending := rfl
@[simp] theorem Hw.setSes_lfsr (h : Hw) (n : Nat) (x : Session) : (h.setSes n x).lfsr = h.lfsr := rfl
@[simp] theorem Hw.setSes_tap (h : Hw) (n : Nat) (x : Session) : (h.setSes n x).tap = h.tap := rfl
@[simp] theorem Hw.setSes_boot (h : Hw) (n : Nat) (x : Session) : (h.setSes n x).boot = h.boot := rfl
@[simp] theorem Hw.setSes_lnk (h : Hw) (n : Nat) (x : Session) : (h.setSes n x).lnk = h.lnk := rfl
@[simp] theorem Hw.setSes_req (h : Hw) (n : Nat) (x : Session) : (h.setSes n x).req = h.req := rfl
@[simp] theorem Hw.setSes_sl (h : Hw) (n : Nat) (x : Session) : (h.setSes n x).sl = h.sl := rfl
@[simp] theorem Hw.setSes_mem (h : Hw) (n : Nat) (x : Session) : (h.setSes n x).mem = h.mem := rfl
@[simp] theorem Hw.setSes_coh (h : Hw) (n : Nat) (x : Session) : (h.setSes n x).coh = h.coh := rfl
@[simp] theorem Hw.setSes_car (h : Hw) (n : Nat) (x : Session) : (h.setSes n x).car = h.car := rfl
@[simp] theorem Hw.setSes_par (h : Hw) (n : Nat) (x : Session) : (h.setSes n x).par = h.par := rfl
@[simp] theorem Hw.setSes_pair (h : Hw) (n : Nat) (x : Session) : (h.setSes n x).pair = h.pair := rfl
@[simp] theorem Hw.setSes_sec (h : Hw) (n : Nat) (x : Session) : (h.setSes n x).sec = h.sec := rfl
@[simp] theorem Hw.setSes_msg (h : Hw) (n : Nat) (x : Session) : (h.setSes n x).msg = h.msg := rfl
@[simp] theorem Hw.setSes_red_accIn (h : Hw) (n : Nat) (x : Session) : (h.setSes n x).red.accIn = h.red.accIn := rfl

/-! `setSem` -/

@[simp] theorem Hw.setSem_now (h : Hw) (i v : Nat) : (h.setSem i v).now = h.now := rfl
@[simp] theorem Hw.setSem_drawn (h : Hw) (i v : Nat) : (h.setSem i v).drawn = h.drawn := rfl
@[simp] theorem Hw.setSem_od (h : Hw) (i v : Nat) : (h.setSem i v).od = h.od := rfl
@[simp] theorem Hw.setSem_odMs (h : Hw) (i v : Nat) : (h.setSem i v).odMs = h.odMs := rfl
@[simp] theorem Hw.setSem_odPace (h : Hw) (i v : Nat) : (h.setSem i v).odPace = h.odPace := rfl
@[simp] theorem Hw.setSem_odPower (h : Hw) (i v : Nat) : (h.setSem i v).odPower = h.odPower := rfl
@[simp] theorem Hw.setSem_timers (h : Hw) (i v : Nat) : (h.setSem i v).timers = h.timers := rfl
@[simp] theorem Hw.setSem_cntPending (h : Hw) (i v : Nat) : (h.setSem i v).cntPending = h.cntPending := rfl
@[simp] theorem Hw.setSem_lfsr (h : Hw) (i v : Nat) : (h.setSem i v).lfsr = h.lfsr := rfl
@[simp] theorem Hw.setSem_tap (h : Hw) (i v : Nat) : (h.setSem i v).tap = h.tap := rfl
@[simp] theorem Hw.setSem_boot (h : Hw) (i v : Nat) : (h.setSem i v).boot = h.boot := rfl
@[simp] theorem Hw.setSem_lnk (h : Hw) (i v : Nat) : (h.setSem i v).lnk = h.lnk := rfl
@[simp] theorem Hw.setSem_req (h : Hw) (i v : Nat) : (h.setSem i v).req = h.req := rfl
@[simp] theorem Hw.setSem_sl (h : Hw) (i v : Nat) : (h.setSem i v).sl = h.sl := rfl
@[simp] theorem Hw.setSem_mem (h : Hw) (i v : Nat) : (h.setSem i v).mem = h.mem := rfl
@[simp] theorem Hw.setSem_coh (h : Hw) (i v : Nat) : (h.setSem i v).coh = h.coh := rfl
@[simp] theorem Hw.setSem_car (h : Hw) (i v : Nat) : (h.setSem i v).car = h.car := rfl
@[simp] theorem Hw.setSem_red (h : Hw) (i v : Nat) : (h.setSem i v).red = h.red := rfl
@[simp] theorem Hw.setSem_par (h : Hw) (i v : Nat) : (h.setSem i v).par = h.par := rfl
@[simp] theorem Hw.setSem_pair (h : Hw) (i v : Nat) : (h.setSem i v).pair = h.pair := rfl
@[simp] theorem Hw.setSem_sec (h : Hw) (i v : Nat) : (h.setSem i v).sec = h.sec := rfl
@[simp] theorem Hw.setSem_msg_mbq (h : Hw) (i v : Nat) : (h.setSem i v).msg.mbq = h.msg.mbq := rfl
@[simp] theorem Hw.setSem_msg_semTry (h : Hw) (i v : Nat) : (h.setSem i v).msg.semTry = h.msg.semTry := rfl
@[simp] theorem Hw.setSem_msg_evRing (h : Hw) (i v : Nat) : (h.setSem i v).msg.evRing = h.msg.evRing := rfl
@[simp] theorem Hw.setSem_msg_evMeta (h : Hw) (i v : Nat) : (h.setSem i v).msg.evMeta = h.msg.evMeta := rfl
@[simp] theorem Hw.setSem_msg_evSeq (h : Hw) (i v : Nat) : (h.setSem i v).msg.evSeq = h.msg.evSeq := rfl
@[simp] theorem Hw.setSem_msg_routeTokens (h : Hw) (i v : Nat) : (h.setSem i v).msg.routeTokens = h.msg.routeTokens := rfl
@[simp] theorem Hw.setSem_msg_wmBase (h : Hw) (i v : Nat) : (h.setSem i v).msg.wmBase = h.msg.wmBase := rfl
@[simp] theorem Hw.setSem_msg_msTx (h : Hw) (i v : Nat) : (h.setSem i v).msg.msTx = h.msg.msTx := rfl
@[simp] theorem Hw.setSem_msg_msDelayed (h : Hw) (i v : Nat) : (h.setSem i v).msg.msDelayed = h.msg.msDelayed := rfl
@[simp] theorem Hw.setSem_msg_subs (h : Hw) (i v : Nat) : (h.setSem i v).msg.subs = h.msg.subs := rfl
@[simp] theorem Hw.setSem_msg_logSel (h : Hw) (i v : Nat) : (h.setSem i v).msg.logSel = h.msg.logSel := rfl
@[simp] theorem Hw.setSem_msg_logRead (h : Hw) (i v : Nat) : (h.setSem i v).msg.logRead = h.msg.logRead := rfl
@[simp] theorem Hw.setSem_msg_clampRing (h : Hw) (i v : Nat) : (h.setSem i v).msg.clampRing = h.msg.clampRing := rfl
@[simp] theorem Hw.setSem_msg_errRing (h : Hw) (i v : Nat) : (h.setSem i v).msg.errRing = h.msg.errRing := rfl
@[simp] theorem Hw.setSem_msg_lossRing (h : Hw) (i v : Nat) : (h.setSem i v).msg.lossRing = h.msg.lossRing := rfl
@[simp] theorem Hw.setSem_msg_smpRing (h : Hw) (i v : Nat) : (h.setSem i v).msg.smpRing = h.msg.smpRing := rfl

/-! `setSemWaiting` -/

@[simp] theorem Hw.setSemWaiting_now (h : Hw) (i : Nat) (l : List (Nat × Nat)) : (h.setSemWaiting i l).now = h.now := rfl
@[simp] theorem Hw.setSemWaiting_drawn (h : Hw) (i : Nat) (l : List (Nat × Nat)) : (h.setSemWaiting i l).drawn = h.drawn := rfl
@[simp] theorem Hw.setSemWaiting_od (h : Hw) (i : Nat) (l : List (Nat × Nat)) : (h.setSemWaiting i l).od = h.od := rfl
@[simp] theorem Hw.setSemWaiting_odMs (h : Hw) (i : Nat) (l : List (Nat × Nat)) : (h.setSemWaiting i l).odMs = h.odMs := rfl
@[simp] theorem Hw.setSemWaiting_odPace (h : Hw) (i : Nat) (l : List (Nat × Nat)) : (h.setSemWaiting i l).odPace = h.odPace := rfl
@[simp] theorem Hw.setSemWaiting_odPower (h : Hw) (i : Nat) (l : List (Nat × Nat)) : (h.setSemWaiting i l).odPower = h.odPower := rfl
@[simp] theorem Hw.setSemWaiting_timers (h : Hw) (i : Nat) (l : List (Nat × Nat)) : (h.setSemWaiting i l).timers = h.timers := rfl
@[simp] theorem Hw.setSemWaiting_cntPending (h : Hw) (i : Nat) (l : List (Nat × Nat)) : (h.setSemWaiting i l).cntPending = h.cntPending := rfl
@[simp] theorem Hw.setSemWaiting_lfsr (h : Hw) (i : Nat) (l : List (Nat × Nat)) : (h.setSemWaiting i l).lfsr = h.lfsr := rfl
@[simp] theorem Hw.setSemWaiting_tap (h : Hw) (i : Nat) (l : List (Nat × Nat)) : (h.setSemWaiting i l).tap = h.tap := rfl
@[simp] theorem Hw.setSemWaiting_boot (h : Hw) (i : Nat) (l : List (Nat × Nat)) : (h.setSemWaiting i l).boot = h.boot := rfl
@[simp] theorem Hw.setSemWaiting_lnk (h : Hw) (i : Nat) (l : List (Nat × Nat)) : (h.setSemWaiting i l).lnk = h.lnk := rfl
@[simp] theorem Hw.setSemWaiting_req (h : Hw) (i : Nat) (l : List (Nat × Nat)) : (h.setSemWaiting i l).req = h.req := rfl
@[simp] theorem Hw.setSemWaiting_sl (h : Hw) (i : Nat) (l : List (Nat × Nat)) : (h.setSemWaiting i l).sl = h.sl := rfl
@[simp] theorem Hw.setSemWaiting_mem (h : Hw) (i : Nat) (l : List (Nat × Nat)) : (h.setSemWaiting i l).mem = h.mem := rfl
@[simp] theorem Hw.setSemWaiting_coh (h : Hw) (i : Nat) (l : List (Nat × Nat)) : (h.setSemWaiting i l).coh = h.coh := rfl
@[simp] theorem Hw.setSemWaiting_car (h : Hw) (i : Nat) (l : List (Nat × Nat)) : (h.setSemWaiting i l).car = h.car := rfl
@[simp] theorem Hw.setSemWaiting_red (h : Hw) (i : Nat) (l : List (Nat × Nat)) : (h.setSemWaiting i l).red = h.red := rfl
@[simp] theorem Hw.setSemWaiting_par (h : Hw) (i : Nat) (l : List (Nat × Nat)) : (h.setSemWaiting i l).par = h.par := rfl
@[simp] theorem Hw.setSemWaiting_pair (h : Hw) (i : Nat) (l : List (Nat × Nat)) : (h.setSemWaiting i l).pair = h.pair := rfl
@[simp] theorem Hw.setSemWaiting_sec (h : Hw) (i : Nat) (l : List (Nat × Nat)) : (h.setSemWaiting i l).sec = h.sec := rfl
@[simp] theorem Hw.setSemWaiting_msg_mbq (h : Hw) (i : Nat) (l : List (Nat × Nat)) : (h.setSemWaiting i l).msg.mbq = h.msg.mbq := rfl
@[simp] theorem Hw.setSemWaiting_msg_sems (h : Hw) (i : Nat) (l : List (Nat × Nat)) : (h.setSemWaiting i l).msg.sems = h.msg.sems := rfl
@[simp] theorem Hw.setSemWaiting_msg_evRing (h : Hw) (i : Nat) (l : List (Nat × Nat)) : (h.setSemWaiting i l).msg.evRing = h.msg.evRing := rfl
@[simp] theorem Hw.setSemWaiting_msg_evMeta (h : Hw) (i : Nat) (l : List (Nat × Nat)) : (h.setSemWaiting i l).msg.evMeta = h.msg.evMeta := rfl
@[simp] theorem Hw.setSemWaiting_msg_evSeq (h : Hw) (i : Nat) (l : List (Nat × Nat)) : (h.setSemWaiting i l).msg.evSeq = h.msg.evSeq := rfl
@[simp] theorem Hw.setSemWaiting_msg_routeTokens (h : Hw) (i : Nat) (l : List (Nat × Nat)) : (h.setSemWaiting i l).msg.routeTokens = h.msg.routeTokens := rfl
@[simp] theorem Hw.setSemWaiting_msg_wmBase (h : Hw) (i : Nat) (l : List (Nat × Nat)) : (h.setSemWaiting i l).msg.wmBase = h.msg.wmBase := rfl
@[simp] theorem Hw.setSemWaiting_msg_msTx (h : Hw) (i : Nat) (l : List (Nat × Nat)) : (h.setSemWaiting i l).msg.msTx = h.msg.msTx := rfl
@[simp] theorem Hw.setSemWaiting_msg_msDelayed (h : Hw) (i : Nat) (l : List (Nat × Nat)) : (h.setSemWaiting i l).msg.msDelayed = h.msg.msDelayed := rfl
@[simp] theorem Hw.setSemWaiting_msg_subs (h : Hw) (i : Nat) (l : List (Nat × Nat)) : (h.setSemWaiting i l).msg.subs = h.msg.subs := rfl
@[simp] theorem Hw.setSemWaiting_msg_logSel (h : Hw) (i : Nat) (l : List (Nat × Nat)) : (h.setSemWaiting i l).msg.logSel = h.msg.logSel := rfl
@[simp] theorem Hw.setSemWaiting_msg_logRead (h : Hw) (i : Nat) (l : List (Nat × Nat)) : (h.setSemWaiting i l).msg.logRead = h.msg.logRead := rfl
@[simp] theorem Hw.setSemWaiting_msg_clampRing (h : Hw) (i : Nat) (l : List (Nat × Nat)) : (h.setSemWaiting i l).msg.clampRing = h.msg.clampRing := rfl
@[simp] theorem Hw.setSemWaiting_msg_errRing (h : Hw) (i : Nat) (l : List (Nat × Nat)) : (h.setSemWaiting i l).msg.errRing = h.msg.errRing := rfl
@[simp] theorem Hw.setSemWaiting_msg_lossRing (h : Hw) (i : Nat) (l : List (Nat × Nat)) : (h.setSemWaiting i l).msg.lossRing = h.msg.lossRing := rfl
@[simp] theorem Hw.setSemWaiting_msg_smpRing (h : Hw) (i : Nat) (l : List (Nat × Nat)) : (h.setSemWaiting i l).msg.smpRing = h.msg.smpRing := rfl

/-! `setDirIn` -/

@[simp] theorem Hw.setDirIn_now (h : Hw) (s : Nat) (q : List Piece) : (h.setDirIn s q).now = h.now := rfl
@[simp] theorem Hw.setDirIn_drawn (h : Hw) (s : Nat) (q : List Piece) : (h.setDirIn s q).drawn = h.drawn := rfl
@[simp] theorem Hw.setDirIn_od (h : Hw) (s : Nat) (q : List Piece) : (h.setDirIn s q).od = h.od := rfl
@[simp] theorem Hw.setDirIn_odMs (h : Hw) (s : Nat) (q : List Piece) : (h.setDirIn s q).odMs = h.odMs := rfl
@[simp] theorem Hw.setDirIn_odPace (h : Hw) (s : Nat) (q : List Piece) : (h.setDirIn s q).odPace = h.odPace := rfl
@[simp] theorem Hw.setDirIn_odPower (h : Hw) (s : Nat) (q : List Piece) : (h.setDirIn s q).odPower = h.odPower := rfl
@[simp] theorem Hw.setDirIn_timers (h : Hw) (s : Nat) (q : List Piece) : (h.setDirIn s q).timers = h.timers := rfl
@[simp] theorem Hw.setDirIn_cntPending (h : Hw) (s : Nat) (q : List Piece) : (h.setDirIn s q).cntPending = h.cntPending := rfl
@[simp] theorem Hw.setDirIn_lfsr (h : Hw) (s : Nat) (q : List Piece) : (h.setDirIn s q).lfsr = h.lfsr := rfl
@[simp] theorem Hw.setDirIn_tap (h : Hw) (s : Nat) (q : List Piece) : (h.setDirIn s q).tap = h.tap := rfl
@[simp] theorem Hw.setDirIn_boot (h : Hw) (s : Nat) (q : List Piece) : (h.setDirIn s q).boot = h.boot := rfl
@[simp] theorem Hw.setDirIn_lnk (h : Hw) (s : Nat) (q : List Piece) : (h.setDirIn s q).lnk = h.lnk := rfl
@[simp] theorem Hw.setDirIn_req (h : Hw) (s : Nat) (q : List Piece) : (h.setDirIn s q).req = h.req := rfl
@[simp] theorem Hw.setDirIn_sl (h : Hw) (s : Nat) (q : List Piece) : (h.setDirIn s q).sl = h.sl := rfl
@[simp] theorem Hw.setDirIn_mem (h : Hw) (s : Nat) (q : List Piece) : (h.setDirIn s q).mem = h.mem := rfl
@[simp] theorem Hw.setDirIn_car (h : Hw) (s : Nat) (q : List Piece) : (h.setDirIn s q).car = h.car := rfl
@[simp] theorem Hw.setDirIn_red (h : Hw) (s : Nat) (q : List Piece) : (h.setDirIn s q).red = h.red := rfl
@[simp] theorem Hw.setDirIn_par (h : Hw) (s : Nat) (q : List Piece) : (h.setDirIn s q).par = h.par := rfl
@[simp] theorem Hw.setDirIn_pair (h : Hw) (s : Nat) (q : List Piece) : (h.setDirIn s q).pair = h.pair := rfl
@[simp] theorem Hw.setDirIn_sec (h : Hw) (s : Nat) (q : List Piece) : (h.setDirIn s q).sec = h.sec := rfl
@[simp] theorem Hw.setDirIn_msg (h : Hw) (s : Nat) (q : List Piece) : (h.setDirIn s q).msg = h.msg := rfl
@[simp] theorem Hw.setDirIn_coh_dir (h : Hw) (s : Nat) (q : List Piece) : (h.setDirIn s q).coh.dir = h.coh.dir := rfl
@[simp] theorem Hw.setDirIn_coh_dirPend (h : Hw) (s : Nat) (q : List Piece) : (h.setDirIn s q).coh.dirPend = h.coh.dirPend := rfl
@[simp] theorem Hw.setDirIn_coh_snoops (h : Hw) (s : Nat) (q : List Piece) : (h.setDirIn s q).coh.snoops = h.coh.snoops := rfl
@[simp] theorem Hw.setDirIn_coh_snoopQ (h : Hw) (s : Nat) (q : List Piece) : (h.setDirIn s q).coh.snoopQ = h.coh.snoopQ := rfl
@[simp] theorem Hw.setDirIn_coh_dirWait (h : Hw) (s : Nat) (q : List Piece) : (h.setDirIn s q).coh.dirWait = h.coh.dirWait := rfl
@[simp] theorem Hw.setDirIn_coh_suspectAll (h : Hw) (s : Nat) (q : List Piece) : (h.setDirIn s q).coh.suspectAll = h.coh.suspectAll := rfl
@[simp] theorem Hw.setDirIn_coh_suspect (h : Hw) (s : Nat) (q : List Piece) : (h.setDirIn s q).coh.suspect = h.coh.suspect := rfl
@[simp] theorem Hw.setDirIn_coh_dirPtr (h : Hw) (s : Nat) (q : List Piece) : (h.setDirIn s q).coh.dirPtr = h.coh.dirPtr := rfl
@[simp] theorem Hw.setDirIn_coh_victimPtr (h : Hw) (s : Nat) (q : List Piece) : (h.setDirIn s q).coh.victimPtr = h.coh.victimPtr := rfl
@[simp] theorem Hw.setDirIn_coh_epochCopy (h : Hw) (s : Nat) (q : List Piece) : (h.setDirIn s q).coh.epochCopy = h.coh.epochCopy := rfl
@[simp] theorem Hw.setDirIn_coh_sweeps (h : Hw) (s : Nat) (q : List Piece) : (h.setDirIn s q).coh.sweeps = h.coh.sweeps := rfl

/-! `setTap` -/

@[simp] theorem Hw.setTap_now (h : Hw) (f : Tap → Tap) : (h.setTap f).now = h.now := rfl
@[simp] theorem Hw.setTap_drawn (h : Hw) (f : Tap → Tap) : (h.setTap f).drawn = h.drawn := rfl
@[simp] theorem Hw.setTap_od (h : Hw) (f : Tap → Tap) : (h.setTap f).od = h.od := rfl
@[simp] theorem Hw.setTap_odMs (h : Hw) (f : Tap → Tap) : (h.setTap f).odMs = h.odMs := rfl
@[simp] theorem Hw.setTap_odPace (h : Hw) (f : Tap → Tap) : (h.setTap f).odPace = h.odPace := rfl
@[simp] theorem Hw.setTap_odPower (h : Hw) (f : Tap → Tap) : (h.setTap f).odPower = h.odPower := rfl
@[simp] theorem Hw.setTap_timers (h : Hw) (f : Tap → Tap) : (h.setTap f).timers = h.timers := rfl
@[simp] theorem Hw.setTap_cntPending (h : Hw) (f : Tap → Tap) : (h.setTap f).cntPending = h.cntPending := rfl
@[simp] theorem Hw.setTap_lfsr (h : Hw) (f : Tap → Tap) : (h.setTap f).lfsr = h.lfsr := rfl
@[simp] theorem Hw.setTap_boot (h : Hw) (f : Tap → Tap) : (h.setTap f).boot = h.boot := rfl
@[simp] theorem Hw.setTap_lnk (h : Hw) (f : Tap → Tap) : (h.setTap f).lnk = h.lnk := rfl
@[simp] theorem Hw.setTap_req (h : Hw) (f : Tap → Tap) : (h.setTap f).req = h.req := rfl
@[simp] theorem Hw.setTap_sl (h : Hw) (f : Tap → Tap) : (h.setTap f).sl = h.sl := rfl
@[simp] theorem Hw.setTap_mem (h : Hw) (f : Tap → Tap) : (h.setTap f).mem = h.mem := rfl
@[simp] theorem Hw.setTap_coh (h : Hw) (f : Tap → Tap) : (h.setTap f).coh = h.coh := rfl
@[simp] theorem Hw.setTap_car (h : Hw) (f : Tap → Tap) : (h.setTap f).car = h.car := rfl
@[simp] theorem Hw.setTap_red (h : Hw) (f : Tap → Tap) : (h.setTap f).red = h.red := rfl
@[simp] theorem Hw.setTap_par (h : Hw) (f : Tap → Tap) : (h.setTap f).par = h.par := rfl
@[simp] theorem Hw.setTap_pair (h : Hw) (f : Tap → Tap) : (h.setTap f).pair = h.pair := rfl
@[simp] theorem Hw.setTap_sec (h : Hw) (f : Tap → Tap) : (h.setTap f).sec = h.sec := rfl
@[simp] theorem Hw.setTap_msg (h : Hw) (f : Tap → Tap) : (h.setTap f).msg = h.msg := rfl
@[simp] theorem Hw.setTap_tap (h : Hw) (f : Tap → Tap) : (h.setTap f).tap = f h.tap := rfl

/-! `draw` and `random` -/

@[simp] theorem Hw.draw_fst (h : Hw) (w : Nat) : (h.draw w).1 = Config.free w h.drawn := rfl
@[simp] theorem Hw.draw_snd (h : Hw) (w : Nat) : (h.draw w).2 = { h with drawn := h.drawn + 1 } := rfl
@[simp] theorem Hw.random_fst (h : Hw) (w : Nat) : (h.random w).1 = Config.drbg w h.drawn := rfl
@[simp] theorem Hw.random_snd (h : Hw) (w : Nat) : (h.random w).2 = { h with drawn := h.drawn + 1 } := rfl

end Sys2Proof.Machine
end

