-- ==== Sys2Proof/Laws/Regs.lean ====
section
/-! SUPPORT. Reading back what was written: registers, timers, and the records kept by number. -/

namespace Sys2Proof.Machine

/-! ### Registers -/

theorem Hw.elem_setElem_same (h : Hw) (r : Reg) (i e v : Nat) :
    (h.setElem r i e v).elem r i e = v % 2 ^ r.width := Table.atD_setD_same _ _ _ _

theorem Hw.elem_setElem_ne (h : Hw) (r q : Reg) (i j e d v : Nat) (hk : odKey q j d ≠ odKey r i e) :
    (h.setElem r i e v).elem q j d = h.elem q j d := Table.atD_setD_ne _ _ _ _ _ hk

theorem Hw.reg_setReg_same (h : Hw) (r : Reg) (i v : Nat) : (h.setReg r i v).reg r i = v % 2 ^ r.width :=
  Hw.elem_setElem_same h r i 0 v

theorem odKey_ne (r q : Reg) (i j e d : Nat) (h : r ≠ q) (hr : r.sub < 256) (hq : q.sub < 256) : odKey q j d ≠ odKey r i e := by
  intro k
  apply h
  rw [← keyReg_odKey r i e hr, ← keyReg_odKey q j d hq, k]

theorem Hw.elem_setReg_ne (h : Hw) (r q : Reg) (i j d v : Nat) (hn : r ≠ q) (hr : r.sub < 256) (hq : q.sub < 256) :
    (h.setReg r i v).elem q j d = h.elem q j d := Hw.elem_setElem_ne _ _ _ _ _ _ _ _ (odKey_ne r q i j 0 d hn hr hq)

theorem Hw.reg_setReg_ne (h : Hw) (r q : Reg) (i j v : Nat) (hn : r ≠ q) (hr : r.sub < 256) (hq : q.sub < 256) :
    (h.setReg r i v).reg q j = h.reg q j := Hw.elem_setReg_ne h r q i j 0 v hn hr hq

/-- Another index of the same register. -/
theorem Hw.reg_setReg_other (h : Hw) (r : Reg) (i j v : Nat) (hi : j % 4096 ≠ i % 4096) : (h.setReg r i v).reg r j = h.reg r j := by
  refine Hw.elem_setElem_ne _ _ _ _ _ _ _ _ (fun k => hi ?_)
  unfold odKey at k
  omega

/-- A register outside a mask reads as before. -/
theorem Hw.Within.elem {m : Nat} {a b : Hw} (w : Hw.Within m a b) (r : Reg) (i e : Nat) (hm : m.testBit (24 + r.no) = false) :
    b.elem r i e = a.elem r i e := w.frame (r.no + 24) (by rw [Nat.add_comm]; exact hm) _ (keyNo_odKey r i e)

theorem Hw.Within.reg {m : Nat} {a b : Hw} (w : Hw.Within m a b) (r : Reg) (i : Nat) (hm : m.testBit (24 + r.no) = false) :
    b.reg r i = a.reg r i := w.elem r i 0 hm

theorem Hw.reg_addReg_same (h : Hw) (r : Reg) (i n : Nat) :
    (h.addReg r i n).reg r i = (h.reg r i + n) % 2 ^ r.width := Hw.reg_setReg_same h r i _

theorem Hw.reg_addReg_ne (h : Hw) (r q : Reg) (i j n : Nat) (hn : r ≠ q) (hr : r.sub < 256) (hq : q.sub < 256) :
    (h.addReg r i n).reg q j = h.reg q j := Hw.reg_setReg_ne h r q i j _ hn hr hq

theorem Hw.tidy_setElem (h : Hw) (r : Reg) (i e v : Nat) (ht : h.tidy = true) : (h.setElem r i e v).tidy = true :=
  (Hw.setElem_within h r i e v).tidy ht

theorem Hw.tidy_setReg (h : Hw) (r : Reg) (i v : Nat) (ht : h.tidy = true) : (h.setReg r i v).tidy = true :=
  (Hw.setReg_within h r i v).tidy ht

theorem Hw.tidy_addReg (h : Hw) (r : Reg) (i n : Nat) (ht : h.tidy = true) : (h.addReg r i n).tidy = true :=
  (Hw.addReg_within h r i n).tidy ht

theorem Hw.tidy_setTimer (h : Hw) (kind i t : Nat) (ht : h.tidy = true) : (h.setTimer kind i t).tidy = true :=
  (Hw.setTimer_within h kind i t).tidy ht

/-! ### Timers -/

theorem Hw.timer_setTimer_same (h : Hw) (kind i t : Nat) : (h.setTimer kind i t).timer kind i = t := by
  unfold Hw.timer Hw.setTimer; exact Table.atD_setD_same h.timers (fun _ => 0) (Tm.base kind i) t

theorem Hw.timer_setTimer_ne (h : Hw) (kind i q j t : Nat) (hk : Tm.base q j ≠ Tm.base kind i) :
    (h.setTimer kind i t).timer q j = h.timer q j := by
  unfold Hw.timer Hw.setTimer; exact Table.atD_setD_ne h.timers (fun _ => 0) (Tm.base kind i) (Tm.base q j) t hk

/-! ### Records kept by number -/

theorem Table.atD_put_same {α : Type} (t : Table α) (d : Nat → α) (k : Nat) (v : α) : (t.put k v).atD d k = v := by
  unfold Table.atD; rw [Table.look_put_same]; rfl

theorem Table.atD_put_ne {α : Type} (t : Table α) (d : Nat → α) (k i : Nat) (v : α) (h : i ≠ k) : (t.put k v).atD d i = t.atD d i := by
  unfold Table.atD; rw [Table.look_put_ne _ _ _ _ h]

theorem Hw.link_setLink_same (h : Hw) (k : Nat) (l : Link) : (h.setLink k l).link k = l := by
  unfold Hw.link Hw.setLink; exact Table.atD_setD_same h.lnk.links (fun _ => ({} : Link)) k l
theorem Hw.link_setLink_ne (h : Hw) (k i : Nat) (l : Link) (hi : i ≠ k) : (h.setLink k l).link i = h.link i := by
  unfold Hw.link Hw.setLink; exact Table.atD_setD_ne h.lnk.links (fun _ => ({} : Link)) k i l hi
theorem Hw.span_setSpan_same (h : Hw) (p : Nat) (l : Link) : (h.setSpan p l).span p = l := by
  unfold Hw.span Hw.setSpan; exact Table.atD_setD_same h.lnk.spans (fun _ => ({} : Link)) p l
theorem Hw.span_setSpan_ne (h : Hw) (p i : Nat) (l : Link) (hi : i ≠ p) : (h.setSpan p l).span i = h.span i := by
  unfold Hw.span Hw.setSpan; exact Table.atD_setD_ne h.lnk.spans (fun _ => ({} : Link)) p i l hi
theorem Hw.pc_setPc_same (h : Hw) (g : Nat) (x : Pc) : (h.setPc g x).pc g = x := by
  unfold Hw.pc Hw.setPc; exact Table.atD_put_same _ _ _ _
theorem Hw.pc_setPc_ne (h : Hw) (g i : Nat) (x : Pc) (hi : i ≠ g) : (h.setPc g x).pc i = h.pc i := by
  unfold Hw.pc Hw.setPc; exact Table.atD_put_ne _ _ _ _ _ hi
theorem Hw.eng_setEng_same (h : Hw) (e : Nat) (x : Engine) : (h.setEng e x).eng e = x := by
  unfold Hw.eng Hw.setEng; exact Table.atD_put_same _ _ _ _
theorem Hw.eng_setEng_ne (h : Hw) (e i : Nat) (x : Engine) (hi : i ≠ e) : (h.setEng e x).eng i = h.eng i := by
  unfold Hw.eng Hw.setEng; exact Table.atD_put_ne _ _ _ _ _ hi
theorem Hw.ses_setSes_same (h : Hw) (n : Nat) (x : Session) : (h.setSes n x).ses n = x := by
  unfold Hw.ses Hw.setSes; exact Table.atD_put_same _ _ _ _
theorem Hw.arb_setArb_same (h : Hw) (s : Nat) (a : Arb) : (h.setArb s a).arb s = a := by
  unfold Hw.arb Hw.setArb; exact Table.atD_put_same _ _ _ _
theorem Hw.arb_setArb_ne (h : Hw) (s i : Nat) (a : Arb) (hi : i ≠ s) : (h.setArb s a).arb i = h.arb i := by
  unfold Hw.arb Hw.setArb; exact Table.atD_put_ne _ _ _ _ _ hi
theorem Hw.trk_setTrk_same (h : Hw) (uid : Nat) (t : Tracker) : (h.setTrk uid t).trk uid = some t := Table.look_put_same _ _ _
theorem Hw.trk_setTrk_ne (h : Hw) (uid i : Nat) (t : Tracker) (hi : i ≠ uid) : (h.setTrk uid t).trk i = h.trk i :=
  Table.look_put_ne _ _ _ _ hi
theorem Hw.bank_setBank_same (h : Hw) (g b : Nat) (x : Bank) : (h.setBank g b x).bank g b = x := by
  unfold Hw.bank Hw.setBank; exact Table.atD_put_same _ _ _ _

end Sys2Proof.Machine
end

