-- ==== Sys2Proof/Tests/Slice0.lean ====
section
/-! SUPPORT. Tests. -/

namespace Sys2Proof.Tests

theorem test_reset_queue : Sys2Proof.Machine.State.reset.pending = [] := rfl

end Sys2Proof.Tests
end

