-- ==== Sys2Proof/WellFormed.lean ====
section
/-! DEFINITION. Which commands are well formed: their lists have the lengths that the fields beside them state. -/

namespace Sys2Proof

/-- Write data of `len` + 1 units of 64 B, with one poison mark per unit (R50, R54). -/
def dataFits (len : BitVec 6) (data : List Byte) (psn : List Bool) : Bool :=
  decide (data.length = (len.toNat + 1) * 64) && decide (psn.length = len.toNat + 1)

/-- Value bytes of an ADP write item are at most 4,096 B (R316). -/
def itemFits (i : Item) : Bool := decide (i.value.length ≤ 4096)

/-- The command's lists have the lengths the spec gives them. -/
def Instr.wf : Instr → Bool
  | .flitReceive _ _ _ _ payload _ => decide (payload.length = 256)
  | .spanFlitReceive _ _ payload _ _ => decide (payload.length = 256)
  | .dataBeat _ data _ _ _ _ => decide (data.length = 128)
  | .wr _ len _ data psn => dataFits len data psn
  | .wrp _ len _ data mask psn => dataFits len data psn && decide (mask.length = data.length)
  | .acw _ len _ _ _ data psn => dataFits len data psn
  | .launch _ _ _ _ regs descs => decide (regs.length = 16) && (decide (descs.length = 0) || decide (descs.length = 4))
  | .odwWrite _ _ _ _ _ _ value => decide (value.length ≤ 4080)
  | .columnData _ flips => decide (flips.length ≤ 36)
  | .scrubRead _ flips again => decide (flips.length ≤ 36) && decide (again.length ≤ 36)
  | .trainingAttemptDone _ _ taps _ => decide (taps.length = 38)
  | .mirrorMessage (.write _ data mask _ _) => decide (data.length = 256) && decide (mask.length = 256)
  | .mirrorMessage (.copy _ _ data _) => decide (data.length = 256)
  | .keyExchange peerKey _ => decide (peerKey.length = 97)
  | .read _ _ items => items.all itemFits && decide (1 ≤ items.length) && decide (items.length ≤ 64)
  | .write _ _ item => itemFits item
  | .multiWrite _ _ items => items.all itemFits && decide (1 ≤ items.length) && decide (items.length ≤ 64)
  | .peek _ _ items => items.all itemFits && decide (1 ≤ items.length) && decide (items.length ≤ 64)
  | .subscribe _ _ item => itemFits item
  | .unsubscribe _ _ item => itemFits item
  | .queueWrite _ _ words => decide (words.length ≤ 16)
  | .powerEstimate _ stackMw => decide (stackMw.length = 16)
  | .qanatTrainingDone _ modules => decide (modules.length = 8)
  | _ => true

end Sys2Proof
end

section
/-! What a command leads to and what it keeps to, from what is known of its meaning. -/

namespace Sys2Proof.Machine

theorem Leads.imp {c : Instr} {s : State} {P Q : Hw → Prop} (hl : Leads c s P) (h : ∀ x, P x → Q x) : Leads c s Q := by
  obtain ⟨x, hx, hp⟩ := hl
  exact ⟨x, hx, h x hp⟩

/-- A command whose meaning stays within a mask keeps to the groups and registers that the mask names. -/
theorem KeepsTo.of_within {c : Instr} {m : Nat} {ps : List Part} {rs : List Reg}
    (hc : ∀ s, ∃ k, exec c s = .next { s with hw := k } ∧ s.hw.Within m k)
    (hp : partsOk m ps = true) (hr : regsOk m rs = true) : KeepsTo c ps rs := by
  intro s
  obtain ⟨k, hk, hw⟩ := hc s
  exact ⟨k, hk, hw.changesOnly ps rs hp hr⟩

end Sys2Proof.Machine
end

section
/-! One end of a link, what sending over a qanat leaves alone, and the reception of a flit (R15, R16). -/

namespace Sys2Proof.Machine

/-! ### One end of a link -/

/-- What a reception looks at and writes in one end of a link, beside the acknowledgements of its own flits (R16). -/
structure LinkIn where
  st : LinkState
  rxSeq : Nat
  nak : Bool
  rx : List Flit
  lastRx : Nat

/-- The receiving side of a link's end. -/
def Link.inbound (l : Link) : LinkIn := ⟨l.st, l.rxSeq, l.nak, l.rx, l.lastRx⟩

theorem Link.inbound_ack (l : Link) (aseq : Nat) : (l.ack aseq).inbound = l.inbound := by
  unfold Link.ack
  dsimp only
  split <;> rfl

theorem Link.inbound_replay (l : Link) (now : Nat) : (l.replay now).inbound = l.inbound := by
  unfold Link.replay
  split <;> rfl

/-- A good flit before its sequence number is looked at: the acknowledgement and the nak it carries are heeded. -/
def Link.heed (l : Link) (now aseq : Nat) (nak : Bool) : Link :=
  let x := { l with lastRx := now }.ack aseq
  if nak then x.replay now else x

theorem Link.inbound_heed (l : Link) (now aseq : Nat) (nak : Bool) :
    (l.heed now aseq nak).inbound = ⟨l.st, l.rxSeq, l.nak, l.rx, now⟩ := by
  unfold Link.heed
  cases nak
  · exact Link.inbound_ack _ aseq
  · exact (Link.inbound_replay _ now).trans (Link.inbound_ack _ aseq)

theorem Link.receive_bad (l : Link) (now kind fseq aseq vc : Nat) (nak : Bool) (payload : List Byte) :
    (l.receive now kind fseq aseq vc nak false payload).1 = { l with nak := true } := rfl

/-- The link after a good flit that is no IDLE flit: the next one is accepted; of the others one ahead makes a nak due. -/
theorem Link.receive_good (l : Link) (now kind fseq aseq vc : Nat) (nak : Bool) (payload : List Byte) (hk : kind ≠ Fk.idle) :
    (l.receive now kind fseq aseq vc nak true payload).1 =
      let x := l.heed now aseq nak
      if fseq = (x.rxSeq + 1) % 4096 then { x with rxSeq := fseq, nak := false, rx := [⟨fseq, kind, vc, payload⟩] }
      else if seqPast x.rxSeq fseq < 2048 then x else { x with nak := true } := by
  have heq : l.receive now kind fseq aseq vc nak true payload =
      let x := l.heed now aseq nak
      let n := if nak then ({ l with lastRx := now }.ack aseq).buf.length else 0
      if kind = Fk.idle then (x, n, false)
      else if fseq = (x.rxSeq + 1) % 4096 then
        ({ x with rxSeq := fseq, nak := false, rx := [⟨fseq, kind, vc, payload⟩] }, n, true)
      else if seqPast x.rxSeq fseq < 2048 then (x, n, false) else ({ x with nak := true }, n, false) := rfl
  rw [heq]
  dsimp only
  rw [if_neg hk, apply_ite Prod.fst, apply_ite Prod.fst]

section Reception

variable (l : Link) (now kind fseq aseq vc : Nat) (nak : Bool) (payload : List Byte)

theorem Link.inbound_receive_next (hk : kind ≠ Fk.idle) (hs : fseq = (l.rxSeq + 1) % 4096) :
    (l.receive now kind fseq aseq vc nak true payload).1.inbound = ⟨l.st, fseq, false, [⟨fseq, kind, vc, payload⟩], now⟩ := by
  have hi := Link.inbound_heed l now aseq nak
  obtain ⟨hst, hrx, -, -, hlast⟩ := LinkIn.mk.inj hi
  rw [Link.receive_good _ _ _ _ _ _ _ _ hk]
  dsimp only
  rw [if_pos (by rw [hrx]; exact hs)]
  simp only [Link.inbound, hst, hlast]

theorem Link.inbound_receive_other (hk : kind ≠ Fk.idle) (hs : fseq ≠ (l.rxSeq + 1) % 4096) :
    (l.receive now kind fseq aseq vc nak true payload).1.inbound =
      ⟨l.st, l.rxSeq, if seqPast l.rxSeq fseq < 2048 then l.nak else true, l.rx, now⟩ := by
  have hi := Link.inbound_heed l now aseq nak
  obtain ⟨hst, hrx, hnak, hq, hlast⟩ := LinkIn.mk.inj hi
  rw [Link.receive_good _ _ _ _ _ _ _ _ hk]
  dsimp only
  rw [hrx, if_neg hs]
  split
  · exact hi
  · simp only [Link.inbound, hst, hq, hlast]

end Reception

/-! ### Sending over a qanat -/

/-- A link's end without what sending changes: its next sequence number and its replay buffer (R15). -/
def Link.unsent (l : Link) : Link := { l with txSeq := 0, buf := [] }

theorem Link.inbound_of_unsent {l x : Link} (h : l.unsent = x.unsent) : l.inbound = x.inbound := by
  exact (congrArg Link.inbound h :)

theorem Hw.link_of_lnk {a b : Hw} (h : b.lnk = a.lnk) (k : Nat) : b.link k = a.link k := by
  unfold Hw.link
  rw [h]

/-- Sending leaves every end but its next sequence number and its replay buffer as it was. -/
theorem Hw.unsent_sendQanat (h : Hw) (stack : Nat) (e : Bool) (kind vc : Nat) (payload : List Byte) (k : Nat) :
    ((h.sendQanat stack e kind vc payload).link k).unsent = (h.link k).unsent := by
  unfold Hw.sendQanat
  split
  case h_1 m _ =>
    by_cases hk : k = linkKey stack m e
    · subst hk
      rw [Hw.link_setLink_same]
      rfl
    · rw [Hw.link_setLink_ne _ _ _ _ hk]
  case h_2 => rfl

theorem Hw.unsent_sendAll (fs : List Flit) (h : Hw) (stack : Nat) (e : Bool) (k : Nat) :
    ((fs.foldl (fun h f => h.sendQanat stack e f.kind f.vc f.payload) h).link k).unsent = (h.link k).unsent := by
  induction fs generalizing h with
  | nil => rfl
  | cons f fs ih => exact (ih _).trans (Hw.unsent_sendQanat ..)

theorem Hw.unsent_sendBoth (fs : List (Bool × List Flit)) (h : Hw) (stack k : Nat) :
    ((fs.foldl (fun h f => f.2.foldl (fun h x => h.sendQanat stack f.1 x.kind x.vc x.payload) h) h).link k).unsent =
      (h.link k).unsent := by
  induction fs generalizing h with
  | nil => rfl
  | cons f fs ih => exact (ih _).trans (Hw.unsent_sendAll ..)

theorem Hw.sendBoth_within (fs : List (Bool × List Flit)) (h : Hw) (stack : Nat) :
    h.Within 2048 (fs.foldl (fun h f => f.2.foldl (fun h x => h.sendQanat stack f.1 x.kind x.vc x.payload) h) h) := by
  refine Hw.Within.fold (fun _ f hf => ?_) (Hw.Within.refl _ _)
  refine Hw.Within.fold (fun _ x hx => ?_) hf
  exact Hw.Within.step (Hw.sendQanat_within ..) (by decide) hx

theorem Hw.unsent_pumpQanat (h : Hw) (stack : Nat) (e : Bool) (k : Nat) :
    ((h.pumpQanat stack e).link k).unsent = (h.link k).unsent := Hw.unsent_sendAll _ _ stack e k

/-! ### Reception of a flit -/

@[simp] theorem Hw.countReplays_lnk (h : Hw) (stack n : Nat) : (h.countReplays stack n).lnk = h.lnk :=
  (Hw.countReplays_within h stack n).same .links (by decide)

/-- FLIT_RECEIVE at a module that is up leaves on the receiving side of that end what the link makes of the flit. -/
theorem flitReceive_leads (stack : StackIx) (m : Fin 8) (e : Bool) (header : BitVec 32) (payload : List Byte)
    (crc : BitVec 32) (s : State) (hup : (s.hw.link (linkKey stack m e)).st = .up) :
    Leads (.flitReceive stack m e header payload crc) s (fun h => (h.link (linkKey stack m e)).inbound =
      ((s.hw.link (linkKey stack m e)).take s.hw.now header payload (flitGood header payload crc)).1.inbound) := by
  refine ⟨_, rfl, ?_⟩
  dsimp only
  rw [if_neg (not_not.2 hup), Link.inbound_of_unsent (Hw.unsent_pumpQanat ..)]
  have hl (l : Link) (n : Nat) : ((s.hw.setLink (linkKey stack m e) l).countReplays stack n).link (linkKey stack m e) = l :=
    (Hw.link_of_lnk (Hw.countReplays_lnk ..) _).trans (Hw.link_setLink_same ..)
  split
  · rw [Hw.link_of_lnk (Hw.setTimer_lnk ..), hl]
  · rw [hl]

/-- Settles O13: the three cases of a reception (R16), each carried past what is then sent. -/
theorem flitReception : Obligations.FlitReception := by
  intro stack m e header payload crc s k l seq hup
  have hl := flitReceive_leads stack m e header payload crc s hup
  refine ⟨fun hg hk hs => ?_, fun hg hk hs => ?_, fun hg => ?_⟩
  · refine hl.imp fun h hi => ?_
    rw [hg, Link.take, Link.inbound_receive_next _ _ _ _ _ _ _ _ hk hs] at hi
    obtain ⟨hst, hrx, hnak, hq, hlast⟩ := LinkIn.mk.inj hi
    exact ⟨hst.trans hup, hrx, hnak, hlast, hq⟩
  · refine hl.imp fun h hi => ?_
    rw [hg, Link.take, Link.inbound_receive_other _ _ _ _ _ _ _ _ hk hs] at hi
    obtain ⟨-, hrx, hnak, hq, -⟩ := LinkIn.mk.inj hi
    exact ⟨hrx, hq, hnak⟩
  · refine hl.imp fun h hi => ?_
    rw [hg, Link.take, Link.receive_bad] at hi
    obtain ⟨-, hrx, hnak, hq, hlast⟩ := LinkIn.mk.inj hi
    exact ⟨hrx, hq, hlast, hnak⟩

end Sys2Proof.Machine
end

section
/-! Both ends of a module: retrains, failures and the end of a retrain (R16, R17, R18, R20). -/

namespace Sys2Proof.Machine

theorem Hw.reg_setTimer (h : Hw) (kind n t : Nat) (r : Reg) (i : Nat) : (h.setTimer kind n t).reg r i = h.reg r i := rfl

/-- Both ends of module `m` of a stack, each changed by `f`. -/
def Hw.mapEnds (h : Hw) (stack m : Nat) (f : Link → Link) : Hw :=
  [false, true].foldl (fun h e => h.setLink (linkKey stack m e) (f (h.link (linkKey stack m e)))) h

theorem linkKey_ne (stack m : Nat) : linkKey stack m true ≠ linkKey stack m false := by
  simp [linkKey]

theorem Hw.link_mapEnds (h : Hw) (stack m : Nat) (f : Link → Link) (e : Bool) :
    (h.mapEnds stack m f).link (linkKey stack m e) = f (h.link (linkKey stack m e)) := by
  have hne := linkKey_ne stack m
  cases e
  · exact (Hw.link_setLink_ne _ _ _ _ hne.symm).trans (Hw.link_setLink_same ..)
  · exact (Hw.link_setLink_same ..).trans (congrArg f (Hw.link_setLink_ne _ _ _ _ hne))

theorem Hw.reg_mapEnds (h : Hw) (stack m : Nat) (f : Link → Link) (r : Reg) (i : Nat) :
    (h.mapEnds stack m f).reg r i = h.reg r i := rfl

theorem Hw.retrainModule_link (h : Hw) (stack m : Nat) (e : Bool) :
    (h.retrainModule stack m).link (linkKey stack m e) =
      { h.link (linkKey stack m e) with st := .retrain, retrains := (h.link (linkKey stack m e)).retrains + 1 } := by
  have hends := Hw.link_mapEnds h stack m (fun l => { l with st := .retrain, retrains := l.retrains + 1 }) e
  unfold Hw.retrainModule
  dsimp only
  split
  · rw [Hw.link_of_lnk (Hw.setTimer_lnk ..)]
    exact hends
  · exact hends

@[simp] theorem Hw.raise_lnk (h : Hw) (e : Event) : (h.raise e).lnk = h.lnk := (Hw.raise_within h e).same .links (by decide)

/-- A failed module's ends are FAILED and one module fewer is active, whatever of their flits other modules then send. -/
theorem Hw.failModule_fails (h : Hw) (stack m : Nat) (e : Bool) :
    ((h.failModule stack m).link (linkKey stack m e)).st = .failed ∧
      (h.failModule stack m).reg Od.qanatModulesActive stack =
        (h.reg Od.qanatModulesActive stack - 1) % 2 ^ Od.qanatModulesActive.width := by
  have hends := Hw.link_mapEnds h stack m (fun _ => { st := .failed }) e
  unfold Hw.failModule
  extract_lets since flits failed fewer raised sent
  have hlink : (sent.link (linkKey stack m e)).st = .failed := by
    have hsent : (sent.link (linkKey stack m e)).unsent = (raised.link (linkKey stack m e)).unsent := Hw.unsent_sendBoth ..
    have hraised : raised.link (linkKey stack m e) = failed.link (linkKey stack m e) := Hw.link_of_lnk (Hw.raise_lnk fewer _) _
    have hfailed : failed.link (linkKey stack m e) = { st := .failed } := hends
    rw [hraised, hfailed] at hsent
    exact congrArg Link.st hsent
  have hreg : sent.reg Od.qanatModulesActive stack =
      (h.reg Od.qanatModulesActive stack - 1) % 2 ^ Od.qanatModulesActive.width := by
    have hsent : sent.reg Od.qanatModulesActive stack = raised.reg Od.qanatModulesActive stack :=
      (Hw.sendBoth_within flits raised stack).reg _ _ (by decide)
    have hraised : raised.reg Od.qanatModulesActive stack = fewer.reg Od.qanatModulesActive stack :=
      (Hw.raise_within fewer _).reg _ _ (by decide)
    rw [hsent, hraised]
    exact Hw.reg_setReg_same ..
  by_cases hz : sent.reg Od.qanatModulesActive stack = 0
  · rw [if_pos hz, Hw.link_of_lnk (Hw.setTimer_lnk ..), Hw.reg_setTimer]
    exact ⟨hlink, hreg⟩
  · rw [if_neg hz]
    exact ⟨hlink, hreg⟩

/-- The silence of a stack's slice is measured again, without the time its modules spent retraining (R140). -/
def Hw.resumeSilence (h : Hw) (stack : Nat) : Hw :=
  let pause := h.timer Tm.silPause stack
  if pause = 0 then h
  else (h.setTimer Tm.silence stack (h.timer Tm.silence stack + (h.now - pause))).setTimer Tm.silPause stack 0

theorem Hw.resumeSilence_within (h : Hw) (stack : Nat) : h.Within 64 (h.resumeSilence stack) := by
  refine Hw.Within.ite (Hw.Within.refl _ _) ?_
  exact Hw.Within.step (Hw.setTimer_within ..) (by decide) (Hw.setTimer_within ..)

/-- What a retrain makes of failed lanes at one end: up to four are repaired, with more the end runs at half width (R18). -/
def Hw.repairLanes (h : Hw) (stack m : Nat) (e : Bool) (lanes : Nat) : Hw :=
  if lanes ≤ 4 then h.addReg Od.qanatLanesRepaired stack lanes
  else h.setLink (linkKey stack m e) { h.link (linkKey stack m e) with half := true }

theorem Hw.repairLanes_now (h : Hw) (stack m : Nat) (e : Bool) (lanes : Nat) : (h.repairLanes stack m e lanes).now = h.now := by
  unfold Hw.repairLanes
  split <;> rfl

theorem Hw.repairLanes_few (h : Hw) (stack m : Nat) (e : Bool) (lanes : Nat) (hl : lanes ≤ 4) :
    h.repairLanes stack m e lanes = h.addReg Od.qanatLanesRepaired stack lanes := if_pos hl

theorem Hw.repairLanes_many_half (h : Hw) (stack m : Nat) (e : Bool) (lanes : Nat) (hl : 4 < lanes) :
    ((h.repairLanes stack m e lanes).link (linkKey stack m e)).half = true := by
  rw [Hw.repairLanes, if_neg (by omega), Hw.link_setLink_same]

/-- An end that a retrain brings back with its flit delivered (R16). -/
def Link.restored (now : Nat) (l : Link) : Link := { l.renumber with st := .up, lastRx := now, retrains := 0, firstFail := none }

/-- MODULE_RETRAIN_DONE at a module that retrains, with the flit delivered. -/
theorem moduleRetrainDone_delivered (stack : StackIx) (m : Fin 8) (e : Bool) (lanes : Nat) (s : State)
    (hst : (s.hw.link (linkKey stack m e)).st = .retrain) :
    Completes (.moduleRetrainDone stack m e lanes true) s
      ((((s.hw.resumeSilence stack).repairLanes stack m e lanes).mapEnds stack m (Link.restored s.hw.now)).pumpQanat stack e) := by
  have hnow : ((s.hw.resumeSilence stack).repairLanes stack m e lanes).now = s.hw.now :=
    (Hw.repairLanes_now ..).trans ((Hw.resumeSilence_within ..).same .time (by decide))
  rw [← hnow]
  have h : exec (.moduleRetrainDone stack m e lanes true) s = execModuleRetrainDone stack m e lanes true s := rfl
  rw [Completes, h, execModuleRetrainDone, State.on]
  extract_lets k pause resumed _ repaired back
  rw [if_neg (not_not.2 hst), if_neg (by simp)]
  have hrepaired : (s.hw.resumeSilence stack).repairLanes stack m e lanes = repaired := rfl
  rw [hrepaired]
  clear_value repaired
  rfl

theorem replayLimitRetrain_retrains (stack : StackIx) (m : Fin 8) (e : Bool) (s : State)
    (hup : (s.hw.link (linkKey stack m e)).st = .up) (hr : 8 ≤ (s.hw.link (linkKey stack m e)).replays) :
    Completes (.replayLimitRetrain stack m e) s (s.hw.retrainModule stack m) := by
  have h : exec (.replayLimitRetrain stack m e) s = execReplayLimitRetrain stack m e s := rfl
  rw [Completes, h, execReplayLimitRetrain, State.on]
  dsimp only
  rw [if_pos ⟨hup, hr⟩]

theorem flitIdleTimeout_retrains (stack : StackIx) (m : Fin 8) (e : Bool) (s : State)
    (hup : (s.hw.link (linkKey stack m e)).st = .up) (hi : (s.hw.link (linkKey stack m e)).lastRx + 2000 ≤ s.hw.now) :
    Completes (.flitIdleTimeout stack m e) s (s.hw.retrainModule stack m) := by
  have h : exec (.flitIdleTimeout stack m e) s = execFlitIdleTimeout stack m e s := rfl
  rw [Completes, h, execFlitIdleTimeout, State.on]
  dsimp only
  rw [if_pos ⟨hup, hi⟩]

theorem flitDeliveryTimeout_fails (stack : StackIx) (m : Fin 8) (e : Bool) (s : State) (t : Nat)
    (ht : (s.hw.link (linkKey stack m e)).firstFail = some t)
    (hst : (s.hw.link (linkKey stack m e)).st = .up ∨ (s.hw.link (linkKey stack m e)).st = .retrain)
    (hd : t + 96000 ≤ s.hw.now) : Completes (.flitDeliveryTimeout stack m e) s (s.hw.failModule stack m) := by
  have h : exec (.flitDeliveryTimeout stack m e) s = execFlitDeliveryTimeout stack m e s := rfl
  rw [Completes, h, execFlitDeliveryTimeout, State.on]
  dsimp only
  rw [ht]
  dsimp only
  rw [if_pos ⟨hst, hd⟩]

/-- Settles O14: what a retrain, a failure and the end of a retrain leave at both ends (R16, R17, R18, R20). -/
theorem moduleRetrain : Obligations.ModuleRetrain := by
  intro stack m e d s l
  have hretrain := Hw.retrainModule_link s.hw stack m d
  refine ⟨fun hup hr => ⟨_, replayLimitRetrain_retrains stack m e s hup hr, congrArg Link.st hretrain,
      congrArg Link.retrains hretrain⟩,
    fun hup hi => ⟨_, flitIdleTimeout_retrains stack m e s hup hi, congrArg Link.st hretrain⟩,
    fun t ht hst hd => ⟨_, flitDeliveryTimeout_fails stack m e s t ht hst hd, Hw.failModule_fails ..⟩,
    fun lanes hst => ⟨_, moduleRetrainDone_delivered stack m e lanes s hst, ?_⟩⟩
  have hback (x : Hw) (c : Bool) : (((x.mapEnds stack m (Link.restored s.hw.now)).pumpQanat stack e).link (linkKey stack m c)).unsent =
      ((x.link (linkKey stack m c)).restored s.hw.now).unsent :=
    (Hw.unsent_pumpQanat ..).trans (congrArg Link.unsent (Hw.link_mapEnds ..))
  have hd := hback ((s.hw.resumeSilence stack).repairLanes stack m e lanes) d
  refine ⟨congrArg Link.st hd, congrArg Link.retrains hd, congrArg Link.firstFail hd, congrArg Link.lastRx hd,
    fun hl => ?_, fun hl => ?_⟩
  · rw [Hw.repairLanes_few _ _ _ _ _ hl] at hd ⊢
    have hlnk : ((s.hw.resumeSilence stack).addReg Od.qanatLanesRepaired stack lanes).lnk = s.hw.lnk :=
      (Hw.resumeSilence_within s.hw stack).same .links (by decide)
    have hhalf := congrArg Link.half (Hw.link_of_lnk hlnk (linkKey stack m d))
    refine ⟨(congrArg Link.half hd).trans hhalf, ?_⟩
    rw [(Hw.pumpQanat_within ..).reg _ _ (by decide), Hw.reg_mapEnds, Hw.reg_addReg_same,
      (Hw.resumeSilence_within ..).reg _ _ (by decide)]
  · have he := hback ((s.hw.resumeSilence stack).repairLanes stack m e lanes) e
    exact (congrArg Link.half he).trans (Hw.repairLanes_many_half _ _ _ _ _ hl)

end Sys2Proof.Machine
end

section
/-! A stack that is declared FAILED (R17, R140). -/

namespace Sys2Proof.Machine

/-- Stack `s` as it is declared FAILED: its state, the log record and the latch, before what follows for others (R140). -/
def Hw.declareFailed (h : Hw) (s : Nat) : Hw :=
  let h := (h.setReg Od.stackState s 2).logErr { kind := 0x0e, stack := s }
  { h with boot.failedLatch := h.boot.failedLatch ||| 2 ^ s }

theorem Hw.declareFailed_state (h : Hw) (s : Nat) : (h.declareFailed s).reg Od.stackState s = 2 := by
  have hlog : ((h.setReg Od.stackState s 2).logErr { kind := 0x0e, stack := s }).reg Od.stackState s = 2 := by
    rw [(Hw.logErr_within ..).reg _ _ (by decide), Hw.reg_setReg_same]
    decide
  exact hlog

theorem Hw.declareFailed_latch (h : Hw) (s : Nat) : (h.declareFailed s).boot.failedLatch.testBit s = true := by
  unfold Hw.declareFailed
  simp [Nat.testBit_or, Nat.testBit_two_pow_self]

/-- The mask of what a stack's failure does to launches, requests and its partition: neither pins and latches nor stack_state
are in it. -/
def aftermathMask : Nat :=
  11349009281615840088357655658618299511274258139255526816448820770143645357155864774968196779908223868653206429842257988

/-- Once declared, a failure goes no further than its aftermath. -/
theorem Hw.failStack_within_declared (h : Hw) (s : Nat) (hs : h.reg Od.stackState s = 1) :
    (h.declareFailed s).Within aftermathMask (h.failStack s) := by
  rw [Hw.failStack, if_pos hs]
  extract_lets _ _ _ _ ended _ _ emptied answered
  have hended : (h.declareFailed s).Within aftermathMask ended := by
    refine Hw.Within.fold (fun x i hx => ?_) (Hw.Within.refl _ _)
    exact Hw.Within.step (Hw.faultEngine_within ..) (by decide) hx
  clear_value ended
  have hemptied : (h.declareFailed s).Within aftermathMask emptied := Hw.Within.stepCar rfl (by decide) hended
  have hanswered : (h.declareFailed s).Within aftermathMask answered := by
    refine Hw.Within.fold (fun x l hx => ?_) hemptied
    split
    · exact Hw.Within.step (Hw.complete_within ..) (by decide) hx
    · exact hx
  exact Hw.Within.step (Hw.partitionLosesStack_within ..) (by decide) hanswered

/-- A PRESENT stack declared FAILED is FAILED and latched. -/
theorem Hw.failStack_failed (h : Hw) (s : Nat) (hs : h.reg Od.stackState s = 1) :
    (h.failStack s).reg Od.stackState s = 2 ∧ (h.failStack s).boot.failedLatch.testBit s = true := by
  have hw := Hw.failStack_within_declared h s hs
  have hboot : (h.failStack s).boot = (h.declareFailed s).boot := hw.same .boot (by decide)
  rw [hw.reg Od.stackState s (by decide), hboot]
  exact ⟨Hw.declareFailed_state h s, Hw.declareFailed_latch h s⟩

/-- Settles O15: both rows, where they are due, declare the stack FAILED. -/
theorem stackFailure : Obligations.StackFailure := by
  intro stack s hs
  refine ⟨fun hm hb => ⟨s.hw.failStack stack, ?_, Hw.failStack_failed _ _ hs⟩,
    fun hm hsil => ⟨s.hw.failStack stack, ?_, Hw.failStack_failed _ _ hs⟩⟩
  · have h : exec (.qanatRetryBudgetExpiry stack) s = execQanatRetryBudgetExpiry stack s := rfl
    rw [Completes, h, execQanatRetryBudgetExpiry, State.on, if_pos ⟨hs, hm, hb⟩]
  · have h : exec (.sliceSilenceTimeout stack) s = execSliceSilenceTimeout stack s := rfl
    rw [Completes, h, execSliceSilenceTimeout, State.on, if_pos ⟨hs, by simpa using hm, hsil⟩]

end Sys2Proof.Machine
end

section
/-! Pace windows and the quantized copies of the pace (R22, R23). -/

namespace Sys2Proof.Machine

theorem Hw.timer_setReg (h : Hw) (r : Reg) (i v kind n : Nat) : (h.setReg r i v).timer kind n = h.timer kind n := rfl

theorem Hw.timer_addReg (h : Hw) (r : Reg) (i v kind n : Nat) : (h.addReg r i v).timer kind n = h.timer kind n := rfl

theorem Hw.timer_putOdPace (h : Hw) (t : Table Nat) (kind n : Nat) : (h.putOdPace t).timer kind n = h.timer kind n := rfl

/-- A table cut to the keys of `p` reads as before at those. -/
theorem Table.look_filter_of_pos {α : Type} (t : Table α) (p : Nat → Bool) (k : Nat) (hk : p k = true) :
    Table.look (t.filter (fun e => p e.1)) k = t.look k := by
  have h := Table.look_drop t (fun j => !p j) k
  simpa [Table.drop, hk] using h

theorem isPace_odKey (r : Reg) (i e : Nat) (hr : r ∈ [Od.hubPace, Od.hubPacePeak, Od.slicePace, Od.slicePacePeak]) :
    isPace (odKey r i e) = true := by
  have hsub : r.sub < 256 := by
    revert r
    decide
  unfold isPace
  rw [keyReg_odKey r i e hsub]
  simpa using hr

/-- What a register of 16 bits holds of a τ is the τ itself. -/
theorem tau_mod_width (tau : BitVec 16) (r : Reg) (hr : r.width = 16) : tau.toNat % 2 ^ r.width = tau.toNat := by
  rw [hr]
  exact Nat.mod_eq_of_lt tau.isLt

/-- The hub's window (R22). -/
theorem sandglassWindow_hub (s : State) (tau : BitVec 16) (hd : s.hw.due Tm.sand 16 = true) :
    Completes (.sandglassWindow none tau) s
      ((((s.hw.setTimer Tm.sand 16 ((s.hw.now / 1024 + 1) * 1024)).setReg Od.hubPace 0 tau.toNat).setReg Od.hubPacePeak 0
        (max (s.hw.reg Od.hubPacePeak) tau.toNat)).addReg Od.hubPaceWindows 0) := by
  have h : exec (.sandglassWindow none tau) s = execSandglassWindow none tau s := rfl
  rw [Completes, h, execSandglassWindow, State.on]
  dsimp only
  rw [hd]
  simp (disch := decide) only [Bool.not_true, Bool.false_eq_true, if_false, Hw.reg_setReg_ne, Hw.reg_setTimer]

/-- A slice's window (R22). -/
theorem sandglassWindow_slice (d : StackIx) (s : State) (tau : BitVec 16) (hd : s.hw.due Tm.sand d = true) :
    Completes (.sandglassWindow (some d) tau) s
      (((s.hw.setTimer Tm.sand d ((s.hw.now / 1024 + 1) * 1024)).setReg Od.slicePace d tau.toNat).setReg Od.slicePacePeak d
        (max (s.hw.reg Od.slicePacePeak d) tau.toNat)) := by
  have h : exec (.sandglassWindow (some d) tau) s = execSandglassWindow (some d) tau s := rfl
  rw [Completes, h, execSandglassWindow, State.on]
  dsimp only
  rw [hd]
  simp (disch := decide) only [Bool.not_true, Bool.false_eq_true, if_false, Hw.reg_setReg_ne, Hw.reg_setTimer]

/-- The refresh of the quantized copies, where it is due (R23). -/
theorem paceQuantizedRefresh_due (s : State) (hc : s.hw.confidential = true) (hd : s.hw.due Tm.paceRef 0 = true) :
    Completes .paceQuantizedRefresh s
      ((s.hw.setTimer Tm.paceRef 0 (s.hw.now + 100000000)).putOdPace (s.hw.od.filter (fun e => isPace e.1))) := by
  have h : exec .paceQuantizedRefresh s = execPaceQuantizedRefresh s := rfl
  rw [Completes, h, execPaceQuantizedRefresh, State.on]
  dsimp only
  rw [if_pos ⟨hc, hd⟩]
  rfl

/-- Settles O16: what each row leaves, read back register by register and, of the copies, key by key. -/
theorem paceWindows : Obligations.PaceWindows := by
  intro s tau
  refine ⟨fun hd => ⟨_, sandglassWindow_hub s tau hd, ?_, ?_, ?_, ?_⟩,
    fun d hd => ⟨_, sandglassWindow_slice d s tau hd, ?_, ?_, ?_⟩,
    fun hc hd => ⟨_, paceQuantizedRefresh_due s hc hd, ?_, fun r i e hr => ?_⟩⟩
  · simp (disch := decide) only [Hw.reg_addReg_ne, Hw.reg_setReg_ne, Hw.reg_setReg_same, tau_mod_width]
  · have hw : Od.hubPacePeak.width = 16 := by decide
    simp (disch := decide) only [Hw.reg_addReg_ne, Hw.reg_setReg_same, hw]
  · simp (disch := decide) only [Hw.reg_addReg_same, Hw.reg_setReg_ne, Hw.reg_setTimer]
  · simp only [Hw.timer_addReg, Hw.timer_setReg, Hw.timer_setTimer_same]
  · simp (disch := decide) only [Hw.reg_setReg_ne, Hw.reg_setReg_same, tau_mod_width]
  · have hw : Od.slicePacePeak.width = 16 := by decide
    simp only [Hw.reg_setReg_same, hw]
  · simp only [Hw.timer_setReg, Hw.timer_setTimer_same]
  · exact (Hw.timer_putOdPace ..).trans (Hw.timer_setTimer_same ..)
  · exact Table.look_filter_of_pos _ isPace _ (isPace_odKey r i e hr)

end Sys2Proof.Machine
end

section
/-! The frames of the rows of links and ports. -/

namespace Sys2Proof.Machine

/-- Settles O56: each row's mask, read as groups and registers. -/
theorem linkAndPortFrames : Obligations.LinkAndPortFrames := by
  refine ⟨?_, ?_, ?_, ?_, ?_, ?_, ?_, ?_, ?_, ?_, ?_, ?_, ?_⟩
  · intro stack module hubEnd header payload crc
    exact .of_within (execFlitReceive_within stack module hubEnd header payload crc) (by decide) (by decide)
  · intro stack module hubEnd
    simp only [List.forall_mem_cons]
    exact ⟨.of_within (execReplayLimitRetrain_within stack module hubEnd) (by decide) (by decide),
      .of_within (execFlitIdleTimeout_within stack module hubEnd) (by decide) (by decide), List.forall_mem_nil _⟩
  · intro stack module hubEnd failedLanes delivered
    exact .of_within (execModuleRetrainDone_within stack module hubEnd failedLanes delivered) (by decide) (by decide)
  · intro stack module hubEnd
    exact .of_within (execFlitDeliveryTimeout_within stack module hubEnd) (by decide) (by decide)
  · intro stack
    simp only [List.forall_mem_cons]
    exact ⟨.of_within (execQanatRetryBudgetExpiry_within stack) (by decide) (by decide),
      .of_within (execSliceSilenceTimeout_within stack) (by decide) (by decide), List.forall_mem_nil _⟩
  · intro die tau
    exact .of_within (execSandglassWindow_within die tau) (by decide) (by decide)
  · exact .of_within execPaceQuantizedRefresh_within (by decide) (by decide)
  · intro port
    exact .of_within (execDeniedDue_within port) (by decide) (by decide)
  · intro port
    exact .of_within (execEgressPick_within port) (by decide) (by decide)
  · intro port
    exact .of_within (execResponseLastBeat_within port) (by decide) (by decide)
  · intro who requester
    simp only [List.forall_mem_cons]
    exact ⟨.of_within (execReqStateActive_within who requester) (by decide) (by decide),
      .of_within (execReqStateReset_within who requester) (by decide) (by decide),
      .of_within (execReqStateDead_within who requester) (by decide) (by decide),
      .of_within (execReqStateAbsent_within who requester) (by decide) (by decide), List.forall_mem_nil _⟩
  · intro tracker
    exact .of_within (execCancel_within tracker) (by decide) (by decide)
  · intro stack
    exact .of_within (execSliceInput_within stack) (by decide) (by decide)

end Sys2Proof.Machine
end

section
/-! States that meet the hypotheses of the statements on links, stacks and pace, and what the statements then say of them. -/

namespace Sys2Proof.Machine

/-- A state whose module 0 of stack 0 has the link `l` at the hub's end. -/
def State.withLink (l : Link) : State := { hw := ({} : Hw).setLink (linkKey 0 0 true) l, pending := [] }

theorem State.withLink_link (l : Link) : (State.withLink l).hw.link (linkKey 0 0 true) = l := Hw.link_setLink_same ..

/-- 256 bytes of payload. -/
def blankPayload : List Byte := List.replicate 256 0

/-- A HEADERS or DATA flit on a virtual channel that exists is good when its CRC is the one its bytes give. -/
theorem flitGood_blank (header : BitVec 32) (hk : flitField header 28 4 ≤ 3) (hv : flitField header 0 3 ≤ 4) :
    flitGood header blankPayload (crc32c (bytesOf header 4 ++ blankPayload)) = true := by
  have hlen : blankPayload.length = 256 := List.length_replicate
  simp only [flitGood, hlen, hk, hv, decide_true, Bool.and_self]

/-- O13 at the first flit after training: sequence number 0 follows 4,095. -/
theorem flitReception_first : Leads (.flitReceive 0 0 true 0x10000000#32 blankPayload (crc32c (bytesOf 0x10000000#32 4 ++ blankPayload)))
    (State.withLink { st := .up, nak := true })
    (fun h => (h.link (linkKey 0 0 true)).rxSeq = 0 ∧ (h.link (linkKey 0 0 true)).nak = false) := by
  obtain ⟨hnext, -, -⟩ := flitReception 0 0 true 0x10000000#32 blankPayload (crc32c (bytesOf 0x10000000#32 4 ++ blankPayload))
    (State.withLink { st := .up, nak := true }) (congrArg Link.st (State.withLink_link _))
  refine (hnext (flitGood_blank _ (by decide) (by decide)) (by decide) ?_).imp fun h hh => ?_
  · decide
  · obtain ⟨-, hseq, hnak, -, -⟩ := hh
    exact ⟨hseq.trans (by decide), hnak⟩

/-- O13 at a flit that skips sequence number 0: a nak is owed. -/
theorem flitReception_ahead : Leads (.flitReceive 0 0 true 0x10010000#32 blankPayload (crc32c (bytesOf 0x10010000#32 4 ++ blankPayload)))
    (State.withLink { st := .up }) (fun h => (h.link (linkKey 0 0 true)).rxSeq = 4095 ∧ (h.link (linkKey 0 0 true)).nak = true) := by
  obtain ⟨-, hother, -⟩ := flitReception 0 0 true 0x10010000#32 blankPayload (crc32c (bytesOf 0x10010000#32 4 ++ blankPayload))
    (State.withLink { st := .up }) (congrArg Link.st (State.withLink_link _))
  refine (hother (flitGood_blank _ (by decide) (by decide)) (by decide) (by decide)).imp fun h hh => ?_
  obtain ⟨hseq, -, hnak⟩ := hh
  exact ⟨hseq.trans (by decide), hnak.trans (by decide)⟩

/-- O14 at a module whose oldest flit has failed eight replays. -/
theorem moduleRetrain_replays : Leads (.replayLimitRetrain 0 0 true) (State.withLink { st := .up, replays := 8 })
    (fun h => (h.link (linkKey 0 0 false)).st = .retrain) := by
  obtain ⟨hreplays, -⟩ := moduleRetrain 0 0 true false (State.withLink { st := .up, replays := 8 })
  exact (hreplays (by decide) (by decide)).imp fun h hh => hh.1

/-- O14 at a retrain that delivers the flit with five lanes failed: the module is up at half width. -/
theorem moduleRetrain_five_lanes : Leads (.moduleRetrainDone 0 0 true 5 true) (State.withLink { st := .retrain, retrains := 1 })
    (fun h => (h.link (linkKey 0 0 true)).st = .up ∧ (h.link (linkKey 0 0 true)).retrains = 0 ∧
      (h.link (linkKey 0 0 true)).half = true) := by
  obtain ⟨-, -, -, hdone⟩ := moduleRetrain 0 0 true true (State.withLink { st := .retrain, retrains := 1 })
  refine (hdone 5 (by decide)).imp fun h hh => ?_
  obtain ⟨hst, hretrains, -, -, -, hhalf⟩ := hh
  exact ⟨hst, hretrains, hhalf (by decide)⟩

/-- O15 at a PRESENT stack with no module. -/
theorem stackFailure_no_module : Leads (.qanatRetryBudgetExpiry 3) { State.reset with hw := State.reset.hw.setReg Od.stackState 3 1 }
    (fun h => h.reg Od.stackState 3 = 2 ∧ h.boot.failedLatch.testBit 3 = true) := by
  obtain ⟨hbudget, -⟩ := stackFailure 3 { State.reset with hw := State.reset.hw.setReg Od.stackState 3 1 } (by decide)
  exact hbudget (by decide) (by decide)

/-- O16 at the hub's first window. -/
theorem paceWindows_first (tau : BitVec 16) : Leads (.sandglassWindow none tau) State.reset
    (fun h => h.reg Od.hubPace = tau.toNat ∧ h.timer Tm.sand 16 = 1024) := by
  obtain ⟨hhub, -⟩ := paceWindows State.reset tau
  refine (hhub (by decide)).imp fun h hh => ?_
  obtain ⟨hpace, -, -, hwindow⟩ := hh
  exact ⟨hpace, hwindow⟩

end Sys2Proof.Machine
end

section
/-! A row's mask held against the groups and registers listed for it, the bit of a register before the list. -/

namespace Sys2Proof.Machine

/-- Every register whose bit is in the mask is listed; the list is searched only where the bit is set. -/
def regsListed (m : Nat) (rs : List Reg) : Bool :=
  regTree.all (fun c n => !m.testBit (24 + n) || rs.contains ⟨c / 256, c % 256⟩)

theorem regsOk_eq_regsListed (m : Nat) (rs : List Reg) : regsOk m rs = regsListed m rs := by
  simp only [regsOk, regsListed, Bool.or_comm]

/-- `KeepsTo.of_within` with both lists held against the mask in one evaluation. -/
theorem KeepsTo.of_listed {c : Instr} {m : Nat} {ps : List Part} {rs : List Reg}
    (hc : ∀ s, ∃ k, exec c s = .next { s with hw := k } ∧ s.hw.Within m k)
    (hl : (partsOk m ps && regsListed m rs) = true) : KeepsTo c ps rs := by
  obtain ⟨hp, hr⟩ := (Bool.and_eq_true _ _).mp hl
  exact .of_within hc hp ((regsOk_eq_regsListed m rs).trans hr)

/-- Rows whose meanings stay within one mask keep to the same groups and registers. -/
theorem KeepsTo.forall_of_listed {cs : List Instr} {m : Nat} {ps : List Part} {rs : List Reg}
    (hc : cs.Forall (fun c => ∀ s, ∃ k, exec c s = .next { s with hw := k } ∧ s.hw.Within m k))
    (hl : (partsOk m ps && regsListed m rs) = true) : ∀ c ∈ cs, KeepsTo c ps rs :=
  fun c h => .of_listed (List.forall_iff_forall_mem.mp hc c h) hl

end Sys2Proof.Machine
end

section
/-! The frames of the rows of spans, pairs, partitions and security. -/

namespace Sys2Proof.Machine

/-- Settles O59: each row's mask, read as groups and registers. -/
theorem pairAndSecurityFrames : Obligations.PairAndSecurityFrames := by
  refine ⟨?_, ?_, ?_, ?_, ?_, ?_, ?_, ?_, ?_, ?_, ?_, ?_, ?_, ?_, ?_, ?_, ?_, ?_, ?_, ?_, ?_, ?_, ?_, ?_, ?_, ?_, ?_, ?_, ?_, ?_,
    ?_, ?_, ?_, ?_, ?_, ?_, ?_, ?_, ?_, ?_⟩
  -- spans and the cascade (R244, R250)
  · intro port header payload crc tagOk
    exact .forall_of_listed ⟨execSpanFlitReceive_within port header payload crc tagOk, execSpanDown_within port⟩ (by decide)
  · intro port
    exact .of_listed (execSpanIdleRetrain_within port) (by decide)
  · intro peerFw peerDigest peerTime latencyNs
    exact .of_listed (execSp0Trained_within peerFw peerDigest peerTime latencyNs) (by decide)
  · exact .of_listed execSpanTrainTimeout_within (by decide)
  -- heartbeats, leases and pair states (R248, R251, R254 to R257)
  · exact .of_listed execHeartbeatSend_within (by decide)
  · intro port peerState peerEpoch offset accepted
    exact .of_listed (execHeartbeatReceive_within port peerState peerEpoch offset accepted) (by decide)
  · exact .forall_of_listed ⟨execPeerLost_within, execFenceFlit_within⟩ (by decide)
  · intro who value
    exact .of_listed (execLeaseGrant_within who value) (by decide)
  · exact .of_listed execLeaseRenew_within (by decide)
  · exact .of_listed execLeaseExpiry_within (by decide)
  · intro who epoch
    exact .of_listed (execPairEpochWrite_within who epoch) (by decide)
  · intro who
    exact .of_listed (execForm_within who) (by decide)
  · intro who
    exact .of_listed (execRejoin_within who) (by decide)
  · intro who
    exact .of_listed (execRelinquish_within who) (by decide)
  · intro peerKeyDigest peerFw peerDigest
    exact .of_listed (execPairSessionUp_within peerKeyDigest peerFw peerDigest) (by decide)
  · exact .of_listed execPairLinkTimeout_within (by decide)
  · exact .of_listed execTakeover_within (by decide)
  -- mirror traffic and resync (R252, R253, R258)
  · intro seqNo
    exact .of_listed (execMirrorAccepted_within seqNo) (by decide)
  · intro peer
    exact .of_listed (execMirrorDigestCompare_within peer) (by decide)
  · exact .of_listed execResyncSector_within (by decide)
  -- partitions and their scrub (R37, R40, R287 to R289)
  · intro who part
    exact .of_listed (execCreate_within who part) (by decide)
  · intro who part
    exact .of_listed (execGrow_within who part) (by decide)
  · intro who part
    exact .of_listed (execRelease_within who part) (by decide)
  · intro part
    exact .of_listed (execPartitionDrainDone_within part) (by decide)
  · intro part
    exact .of_listed (execPartitionFillDone_within part) (by decide)
  · intro part
    exact .of_listed (execGrowFillDone_within part) (by decide)
  · intro who part key
    exact .of_listed (execKeyInstall_within who part key) (by decide)
  · intro part
    exact .of_listed (execScrubHwmStep_within part) (by decide)
  · intro part failing
    exact .of_listed (execScrubVerify_within part failing) (by decide)
  · intro part
    exact .of_listed (execScrubResume_within part) (by decide)
  -- the life cycle (R261 to R263), sessions (R269 to R275), keys, consent and tamper (R280, R283, R291)
  · intro who
    exact .forall_of_listed ⟨execProvision_within who, execDeploy_within who, execReturnLc_within who,
      execScrap_within who⟩ (by decide)
  · intro s2 baseAsym baseHash slot offset length index s3 verified code stream keySet dirSub key requester part
    exact .forall_of_listed ⟨execGetVersion_within s2, execGetCapabilities_within s2,
      execNegotiateAlgorithms_within s2 baseAsym baseHash, execGetDigests_within s2,
      execGetCertificate_within s2 slot offset length, execGetMeasurements_within s2 index, execFinish_within s3 verified,
      execHeartbeat_within s3, execKeyUpdate_within s3, execEndSession_within s3, execSpdmUnsupportedRequest_within s2 code,
      execSpdmSessionTimeout_within s3, execQuery_within s3, execKeyProg_within s3 stream keySet dirSub key,
      execKSetGo_within s3 stream keySet, execKSetStop_within s3 stream keySet, execGetTdispVersion_within s3,
      execGetTdispCapabilities_within s3, execGetDeviceInterfaceReport_within s3 requester part,
      execGetDeviceInterfaceState_within s3 requester part⟩ (by decide)
  · intro s2 slot nonce peerKey heartbeatMs
    exact .forall_of_listed ⟨execChallenge_within s2 slot nonce, execKeyExchange_within peerKey heartbeatMs⟩ (by decide)
  · intro s2 requester part
    exact .of_listed (execLockInterfaceRequest_within s2 requester part) (by decide)
  · intro s2 requester part
    exact .forall_of_listed ⟨execStartInterfaceRequest_within s2 requester part,
      execStopInterfaceRequest_within s2 requester part⟩ (by decide)
  · intro who slot key
    exact .of_listed (execWkKeyWrite_within who slot key) (by decide)
  · intro who slot
    exact .of_listed (execDestroy_within who slot) (by decide)
  · intro who part
    exact .of_listed (execSecConsentDebugWrite_within who part) (by decide)
  · intro cause
    exact .of_listed (execTamperAlarm_within cause) (by decide)
  · intro who
    exact .of_listed (execTamperAck_within who) (by decide)

end Sys2Proof.Machine
end

section
/-! Reading the block past a frame: the tests of admission (R56) are the same after admission's own bookkeeping. -/

namespace Sys2Proof.Machine

section

variable {m : Nat} {a b : Hw} (w : a.Within m b)
include w

theorem Hw.Within.partOf (hp : m.testBit (24 + Od.partAlloc.no) = false) (hs : m.testBit (24 + Od.partStacks.no) = false)
    (s : Nat) : b.partOf s = a.partOf s := by
  simp only [Hw.partOf, Hw.inUse, Hw.bit, w.reg _ _ hp, w.reg _ _ hs]

theorem Hw.Within.isCascade (hb : m.testBit Part.boot.no = false) : b.isCascade = a.isCascade := by
  have h : b.boot = a.boot := w.same .boot hb
  rw [Hw.isCascade, h, Hw.isCascade]

theorem Hw.Within.exists (hs : m.testBit (24 + Od.stackState.no) = false) (s : Nat) : b.exists s = a.exists s := by
  rw [Hw.exists, w.reg _ _ hs, Hw.exists]

theorem Hw.Within.failed (hs : m.testBit (24 + Od.stackState.no) = false) (s : Nat) : b.failed s = a.failed s := by
  rw [Hw.failed, w.reg _ _ hs, Hw.failed]

end

/-- Only an ODW's form depends on the block. -/
theorem Hw.formed_other (r : Rq) (h8 : r.op ≠ 8) (x y : Hw) : x.formed r = y.formed r := by
  unfold Hw.formed
  split
  case h_8 => exact absurd ‹_› h8
  all_goals rfl

/-- The mask of what taking a request in changes: the sampler, the links, the group of ports and requests, and the registers
sel_count, req_seq_newest and req_inflight. -/
def admitMask : Nat :=
  1231312693637327475383720003129487931408741852202045208373384168882678805359287831607052347196467803294378072480004

section

variable {a b : Hw} (w : a.Within admitMask b)
include w

theorem Hw.Within.admit_fenced : b.fenced = a.fenced := by
  have ht : b.tap = a.tap := w.same .tap (by decide)
  unfold Hw.fenced
  simp (disch := decide) only [w.reg, ht]

theorem Hw.Within.admit_unmapped (r : Rq) : b.unmapped r = a.unmapped r := by
  unfold Hw.unmapped
  simp (disch := decide) only [w.reg, w.exists]

theorem Hw.Within.admit_reach (r : Rq) (p : Nat) (wr : Bool) : b.reach r p wr = a.reach r p wr := by
  unfold Hw.reach Hw.bit
  simp (disch := decide) only [w.reg]

theorem Hw.Within.admit_launchRights (r : Rq) : b.launchRights r = a.launchRights r := by
  unfold Hw.launchRights
  simp (disch := decide) only [w.reg, w.partOf, w.admit_reach]

/-- The rights of a request that is neither an MBX nor an ODW. -/
theorem Hw.Within.admit_rights (r : Rq) (h7 : r.op ≠ 7) (h8 : r.op ≠ 8) : b.rights r = a.rights r := by
  unfold Hw.rights Hw.active Hw.visibleEnd Hw.parityOn
  simp (disch := decide) only [w.reg, w.partOf, w.admit_reach, w.admit_launchRights]
  split
  · rfl
  · rfl
  · exact absurd ‹_› h7
  · exact absurd ‹_› h8
  · rfl

theorem Hw.Within.admit_classOf (r : Rq) : b.classOf r = a.classOf r := by
  unfold Hw.classOf
  simp (disch := decide) only [w.reg]

theorem Hw.Within.admit_otherHub (s : Nat) : b.otherHub s = a.otherHub s := by
  unfold Hw.otherHub
  simp (disch := decide) only [w.reg, w.isCascade]

end

end Sys2Proof.Machine
end

section
/-! A request that comes in on a quiet port (R51, R56, R60, R61): it leaves ingress at once. -/

namespace Sys2Proof.Machine

theorem Hw.port_setPort_same (h : Hw) (n : Nat) (p : Port) : (h.setPort n p).port n = p := by
  unfold Hw.port Hw.setPort; exact Table.atD_setD_same h.req.ports (fun _ => ({} : Port)) n p

theorem Hw.port_of_req {a b : Hw} (h : b.req = a.req) (n : Nat) : b.port n = a.port n := by
  unfold Hw.port; rw [h]

theorem Hw.trk_of_req {a b : Hw} (h : b.req = a.req) (uid : Nat) : b.trk uid = a.trk uid := by
  unfold Hw.trk; rw [h]

theorem Hw.arb_of_req {a b : Hw} (h : b.req = a.req) (s : Nat) : b.arb s = a.arb s := by
  unfold Hw.arb; rw [h]

theorem Hw.win_of_req {a b : Hw} (h : b.req = a.req) (r s : Nat) : b.win r s = a.win r s := by
  unfold Hw.win; rw [h]

@[simp] theorem Hw.countSel_req (h : Hw) (code inst n : Nat) : (h.countSel code inst n).req = h.req :=
  (Hw.countSel_within h code inst n).same .requests (by decide)

@[simp] theorem Hw.countSel_now (h : Hw) (code inst n : Nat) : (h.countSel code inst n).now = h.now :=
  (Hw.countSel_within h code inst n).same .time (by decide)

/-- The beats that a request's header announces and that have still to come. -/
def Rq.awaited (r : Rq) : List BeatWait := if r.beatsLeft = 0 then [] else [{ uid := some r.uid, left := r.beatsLeft }]

/-- Port `r.port`, quiet, once request `r` has come in and left ingress. -/
def Hw.portEntered (h : Hw) (r : Rq) : Port :=
  { h.port r.port with ingress := [], beats := (h.port r.port).beats ++ r.awaited }

/-- The block as admission finds it when request `r` has come in on its quiet port. -/
def Hw.enter (h : Hw) (r : Rq) : Hw :=
  (({ h with req.uidNext := h.req.uidNext + 1 }.setPort r.port { h.portEntered r with ingress := [r] }).setPort r.port
    (h.portEntered r)).countSel 3 r.port

theorem Hw.enter_within (h : Hw) (r : Rq) : h.Within
    1231312693637327475383720003129487931408741852202045208373384168882678805359287831606695820465153613775207124701188
    (h.enter r) := by
  refine Hw.Within.step (Hw.countSel_within ..) (by decide) ?_
  refine Hw.Within.step (Hw.setPort_within ..) (by decide) ?_
  refine Hw.Within.step (Hw.setPort_within ..) (by decide) ?_
  exact Hw.Within.step (Hw.putReq_within ..) (by decide) (Hw.Within.refl _ _)

theorem Hw.enter_admitWithin (h : Hw) (r : Rq) : h.Within admitMask (h.enter r) :=
  Hw.Within.step (Hw.enter_within h r) (by decide) (Hw.Within.refl _ _)

theorem Hw.enter_port (h : Hw) (r : Rq) : (h.enter r).port r.port = h.portEntered r :=
  (Hw.port_of_req (Hw.countSel_req ..) _).trans (Hw.port_setPort_same ..)

theorem Hw.enter_req (h : Hw) (r : Rq) : (h.enter r).req =
    { h.req with uidNext := h.req.uidNext + 1, ports := (h.enter r).req.ports } := by
  rw [Hw.enter, Hw.countSel_req]
  rfl

theorem Hw.enter_trackers (h : Hw) (r : Rq) : (h.enter r).req.trackers = h.req.trackers := by rw [Hw.enter_req]
theorem Hw.enter_seqLive (h : Hw) (r : Rq) : (h.enter r).req.seqLive = h.req.seqLive := by rw [Hw.enter_req]
theorem Hw.enter_arb (h : Hw) (r : Rq) (s : Nat) : (h.enter r).arb s = h.arb s := by rw [Hw.arb, Hw.enter_req, Hw.arb]
theorem Hw.enter_win (h : Hw) (r : Rq) (q s : Nat) : (h.enter r).win q s = h.win q s := by rw [Hw.win, Hw.enter_req, Hw.win]

/-- A port with nothing held back keeps no blocked time. -/
theorem Hw.noteBlock_idle (h : Hw) (n : Nat) (hh : (h.port n).held = none) (hd : (h.port n).deferred = [])
    (hb : (h.port n).blockedSince = none) : h.noteBlock n = h := by
  simp [Hw.noteBlock, hh, hd, hb]

/-- Can a header leave ingress as it stands: a LAUNCH and an ODW are tested with their data (R56). -/
def Rq.testable (r : Rq) : Bool := decide (r.beatsLeft = 0) || !([6, 8] : List Nat).contains r.op

theorem Hw.ingressNext_of_port (h : Hw) (n : Nat) (r : Rq) (hi : (h.port n).ingress = [r]) (hh : (h.port n).held = none)
    (hd : (h.port n).deferred = []) (ht : r.testable = true) : h.ingressNext n = some r := by
  simp only [Hw.ingressNext, hh, hd, hi]
  rw [if_neg (by simp)]
  exact Option.filter_some_pos ht

/-- A header that passes a quiet port's ingress goes to admission. -/
theorem Hw.headerIn_quiet (h : Hw) (r : Rq) (hq : h.portQuiet r.port) (ht : r.testable = true) :
    h.headerIn r = ((h.enter r).admission { r with start := h.now }).noteBlock r.port := by
  obtain ⟨hst, hin, hheld, hdef, -⟩ := hq
  have hin1 : (h.port r.port).ingress ++ [r] = [r] := by rw [hin]; rfl
  unfold Hw.headerIn
  dsimp only
  rw [if_neg (not_not.2 hst), if_neg (by rw [hin]; decide), hin1]
  have hp : ∀ x : Hw, (x.setPort r.port { h.portEntered r with ingress := [r] }).pumpIngress r.port =
      ((((x.setPort r.port { h.portEntered r with ingress := [r] }).setPort r.port (h.portEntered r)).countSel 3 r.port).admission
        { r with start := x.now }).noteBlock r.port := by
    intro x
    have hport := Hw.port_setPort_same x r.port { h.portEntered r with ingress := [r] }
    have hnext := Hw.ingressNext_of_port _ _ r (congrArg Port.ingress hport) ((congrArg Port.held hport).trans hheld)
      ((congrArg Port.deferred hport).trans hdef) ht
    unfold Hw.pumpIngress
    rw [congrArg Port.ingress hport, List.length_singleton, Hw.ingress, hnext, hport]
    rfl
  exact hp _

end Sys2Proof.Machine
end

section
/-! A request that passes all seven steps of admission (R56, R61, R64): its place in the sequence window and its tracker entry. -/

namespace Sys2Proof.Machine

theorem Hw.permits_enter {h : Hw} {r x : Rq} (h7 : x.op ≠ 7) (h8 : x.op ≠ 8) (h4 : x.op ≠ 4) (hp : h.permits x) :
    (h.enter r).permits x := by
  have w := Hw.enter_admitWithin h r
  obtain ⟨hform, hfen, hmap, hright, -⟩ := hp
  exact ⟨(Hw.formed_other x h8 _ _).trans hform, w.admit_fenced.trans hfen, (w.admit_unmapped x).trans hmap,
    (w.admit_rights x h7 h8).trans hright, fun h => absurd h h4⟩

theorem Hw.hasRoom_enter {h : Hw} {r x : Rq} (hr : h.hasRoom x) : (h.enter r).hasRoom x := by
  have w := Hw.enter_within h r
  unfold Hw.hasRoom Hw.trkFree at hr ⊢
  simp (disch := decide) only [w.reg, Hw.enter_win, Hw.enter_seqLive, Hw.enter_trackers]
  exact hr

/-- Sequence number `n` of requester `r`, a new one, is in flight and the newest (R64). -/
def Hw.startSeq (h : Hw) (r n : Nat) : Hw :=
  { (h.setWin r n (winBits (n / 1024) Win.inFlight 0)).setReg Od.reqSeqNewest r n with
    req.seqLive := Table.put h.req.seqLive r 1 }

/-- The sequence number of a request that is new, if it has one, is in flight. -/
def Hw.noteSeq (h : Hw) (r : Rq) : Hw :=
  match r.seq with
  | none => h
  | some n => h.startSeq r.requester n

theorem Hw.noteSeq_none {h : Hw} {r : Rq} (hn : r.seq = none) : h.noteSeq r = h := by rw [Hw.noteSeq, hn]

theorem Hw.noteSeq_some {h : Hw} {r : Rq} {n : Nat} (hn : r.seq = some n) : h.noteSeq r = h.startSeq r.requester n := by
  rw [Hw.noteSeq, hn]

theorem Hw.noteSeq_within (h : Hw) (r : Rq) : h.Within 316912650057057350374175805444 (h.noteSeq r) := by
  cases hn : r.seq with
  | none => exact Hw.noteSeq_none hn ▸ Hw.Within.refl _ _
  | some n =>
    rw [Hw.noteSeq_some hn]
    refine Hw.Within.step (Hw.putReq_within ..) (by decide) ?_
    refine Hw.Within.step (Hw.setReg_within ..) (by decide) ?_
    exact Hw.Within.step (Hw.setWin_within ..) (by decide) (Hw.Within.refl _ _)

theorem Hw.noteSeq_req (h : Hw) (r : Rq) : (h.noteSeq r).req =
    { h.req with seqWin := (h.noteSeq r).req.seqWin, seqLive := (h.noteSeq r).req.seqLive } := by
  cases hn : r.seq with
  | none => rw [Hw.noteSeq_none hn]
  | some n =>
    rw [Hw.noteSeq_some hn]
    rfl

theorem Hw.noteSeq_win (h : Hw) (r : Rq) (n : Nat) (hn : r.seq = some n) :
    (h.noteSeq r).win r.requester n = winBits (n / 1024) Win.inFlight 0 := by
  rw [Hw.noteSeq_some hn]
  exact Table.atD_setD_same h.req.seqWin (fun _ => 0) (r.requester * 1024 + n % 1024) (winBits (n / 1024) Win.inFlight 0)

/-- Step 5 of admission, where the window has room. -/
theorem Hw.admitWindow_room (h : Hw) (r : Rq) (hr : h.hasRoom r) : h.admitWindow r = (h.noteSeq r).admitLimit r := by
  obtain ⟨hwin, -, -⟩ := hr
  rw [Hw.admitWindow]
  cases hs : r.seq with
  | none => rw [Hw.noteSeq_none hs]
  | some n =>
    obtain ⟨hempty, hnew⟩ := hwin n hs
    have hahead : (!(Table.look h.req.seqLive r.requester).isSome ||
        decide (1 ≤ (n + 65536 - h.reg Od.reqSeqNewest r.requester) % 65536 ∧
          (n + 65536 - h.reg Od.reqSeqNewest r.requester) % 65536 ≤ 32767)) = true := by
      rcases hnew with hnew | hnew
      · rw [hnew]; rfl
      · rw [decide_eq_true hnew, Bool.or_true]
    rw [Hw.noteSeq_some hs]
    dsimp only
    rw [hahead, if_neg (by simp), if_pos (.inl hempty), if_pos rfl]
    rfl

/-- Admission of a request that passes all its steps on a port with nothing deferred. -/
theorem Hw.admission_passes (h : Hw) (r : Rq) (h9 : r.op ≠ 9) (hp : h.permits r) (hr : h.hasRoom r)
    (hd : (h.port r.port).deferred = []) : h.admission r = (h.noteSeq r).allocTrk r := by
  have w := Hw.noteSeq_within h r
  obtain ⟨hform, hfen, hmap, hright, hacw⟩ := hp
  have hport : (h.noteSeq r).port r.port = h.port r.port := by rw [Hw.port, Hw.noteSeq_req, Hw.port]
  have htrk : (h.noteSeq r).trkFree = h.trkFree := by rw [Hw.trkFree, Hw.noteSeq_req, Hw.trkFree]
  rw [Hw.admission, hform, hfen, hmap, hright, if_neg (by decide), if_neg (by decide), if_neg (by decide), if_neg h9,
    if_neg (by decide), if_neg (fun c => by simp [hacw c.1] at c), Hw.admitWindow_room h r hr]
  obtain ⟨-, hlim, hfree⟩ := hr
  rw [Hw.admitLimit, hport, hd, w.reg Od.reqInflight r.requester (by decide), w.reg Od.reqLimit r.requester (by decide),
    if_pos ⟨hlim, rfl⟩, Hw.admitTrk, htrk, if_pos hfree]

/-! ### The tracker entry (R61, R62) -/

/-- The sampler has drawn for a request, and its requester has a home port (R58, R366). -/
def Hw.drawTag (h : Hw) (r : Rq) : Hw :=
  let h := (h.tagNew r).2
  { h with req.homes := if (Table.look h.req.homes r.requester).isSome then h.req.homes else Table.put h.req.homes r.requester r.port }

/-- The tracker entry that a request takes. -/
def Hw.newTrk (h : Hw) (r : Rq) : Tracker :=
  let x := { r with epoch := h.reg Od.reqEpoch r.requester, subop := if r.op = 1 then h.reg Od.cohMode r.requester else r.subop }
  { rq := x, cls := h.classOf r, part := h.partFor x, stack := if [7, 8].contains r.op then none else some (dpaStack r.addr),
    sample := (h.tagNew r).1 }

/-- A request has taken its tracker entry, and its requester has one more in flight. -/
def Hw.takeTrk (h : Hw) (r : Rq) : Hw :=
  ((h.drawTag r).setTrk r.uid (h.newTrk r)).addReg Od.reqInflight r.requester

theorem Hw.allocTrk_eq (h : Hw) (r : Rq) :
    h.allocTrk r = if r.beatsLeft = 0 then (h.takeTrk r).dispatch r.uid else h.takeTrk r := rfl


theorem Hw.takeTrk_within (h : Hw) (r : Rq) : h.Within 39614081257132168796771979524 (h.takeTrk r) := by
  refine Hw.Within.step (Hw.addReg_within ..) (by decide) ?_
  refine Hw.Within.step (Hw.setTrk_within ..) (by decide) ?_
  refine Hw.Within.step (Hw.putReq_within ..) (by decide) ?_
  exact Hw.Within.step (Hw.tagNew_within ..) (by decide) (Hw.Within.refl _ _)

theorem Hw.takeTrk_req (h : Hw) (r : Rq) : (h.takeTrk r).req =
    { h.req with trackers := Table.put h.req.trackers r.uid (h.newTrk r), homes := (h.takeTrk r).req.homes } := rfl

theorem Hw.takeTrk_trk (h : Hw) (r : Rq) : (h.takeTrk r).trk r.uid = some (h.newTrk r) := Hw.trk_setTrk_same ..

theorem Hw.takeTrk_port (h : Hw) (r : Rq) (n : Nat) : (h.takeTrk r).port n = h.port n := rfl

theorem Hw.takeTrk_inflight (h : Hw) (r : Rq) : (h.takeTrk r).reg Od.reqInflight r.requester =
    (h.reg Od.reqInflight r.requester + 1) % 2 ^ Od.reqInflight.width := Hw.reg_addReg_same ..

/-! ### On its way (R99) -/

/-- A request of the kinds that go to a stack, whole and of good parity, waits at its stack ingress. -/
theorem Hw.dispatch_queues (h : Hw) (uid : Nat) (t : Tracker) (ht : h.trk uid = some t) (hph : t.phase = .waitData)
    (hrep : t.rq.isRepeat = false) (hpar : t.rq.parBad = false) (hpsn : 4 < t.rq.op → t.rq.psn.any id = false)
    (hop : t.rq.op ∈ [1, 2, 3, 5] ∨ (t.rq.op = 6 ∧ h.failed (dpaStack t.rq.addr) = false)) :
    h.dispatch uid = h.queueUp uid (dpaStack t.rq.addr) := by
  rw [Hw.dispatch, ht]
  simp only
  rw [if_pos hph, hrep, if_neg (by decide), Hw.dispatchNew]
  rw [hpar, if_neg (not_or.2 ⟨by decide, fun ⟨h4, hany⟩ => absurd (hany.symm.trans (hpsn h4)) (by decide)⟩)]
  rcases hop with hop | ⟨hop, hf⟩
  · simp only [List.mem_cons, List.not_mem_nil, or_false] at hop
    rcases hop with hop | hop | hop | hop <;> rw [hop] <;> rfl
  · rw [hop, hf]
    rfl

/-- The arbiter of a stack with `uid` at the end of one of its queues. -/
theorem Hw.enqueueArb_arb (h : Hw) (uid s src cls : Nat) : (h.enqueueArb uid s src cls).arb s =
    { h.arb s with
      queues := Table.put (h.arb s).queues (src * 8 + cls) (Table.atD (h.arb s).queues (fun _ => []) (src * 8 + cls) ++ [uid]) } := by
  unfold Hw.arb Hw.enqueueArb
  exact Table.atD_put_same _ _ _ _

/-- A request that waits at a stack ingress: its queue is that of its port, or of the span for a stack of the other hub. -/
theorem Hw.queueUp_req (h : Hw) (uid s : Nat) (t : Tracker) (ht : h.trk uid = some t) : (h.queueUp uid s).req =
    ((h.setTrk uid { t with phase := .queued, stack := some s }).enqueueArb uid s (if h.otherHub s then 32 else t.rq.port) t.cls).req := by
  rw [Hw.queueUp, ht]
  dsimp only
  have ho : (h.setTrk uid { t with phase := .queued, stack := some s }).otherHub s = h.otherHub s := rfl
  rw [ho]
  split
  · exact (Hw.sendSpan_within ..).same .requests (by decide)
  · rfl

theorem Hw.queueUp_trk (h : Hw) (uid s : Nat) (t : Tracker) (ht : h.trk uid = some t) :
    (h.queueUp uid s).trk uid = some { t with phase := .queued, stack := some s } :=
  (Hw.trk_of_req (Hw.queueUp_req h uid s t ht) uid).trans (Hw.trk_setTrk_same ..)

theorem Hw.queueUp_arb (h : Hw) (uid s : Nat) (t : Tracker) (ht : h.trk uid = some t) : (h.queueUp uid s).arb s =
    ((h.setTrk uid { t with phase := .queued, stack := some s }).enqueueArb uid s (if h.otherHub s then 32 else t.rq.port) t.cls).arb s :=
  Hw.arb_of_req (Hw.queueUp_req h uid s t ht) s

/-! ### From the port to the stack ingress -/

/-- The block once request `r`, which came in on its quiet port, holds a tracker entry. -/
def Hw.admitted (h : Hw) (r : Rq) : Hw :=
  ((h.enter r).noteSeq { r with start := h.now }).takeTrk { r with start := h.now }

section

variable (h : Hw) (r : Rq)

theorem Hw.noted_within : h.Within admitMask ((h.enter r).noteSeq { r with start := h.now }) :=
  Hw.Within.step (Hw.noteSeq_within ..) (by decide) (Hw.enter_admitWithin h r)

theorem Hw.admitted_within : h.Within
    1231312693637327475383720003129487931408741852202045208373384168882678805359287831607052347196467803294378072477956
    (h.admitted r) := by
  refine Hw.Within.step (Hw.takeTrk_within ..) (by decide) ?_
  refine Hw.Within.step (Hw.noteSeq_within ..) (by decide) ?_
  exact Hw.Within.step (Hw.enter_within ..) (by decide) (Hw.Within.refl _ _)

theorem Hw.admitted_trk : ∃ t, (h.admitted r).trk r.uid = some t ∧ t.rq = h.kept r ∧ t.cls = h.classOf r ∧ t.phase = .waitData := by
  have w := Hw.noted_within h r
  refine ⟨_, Hw.takeTrk_trk _ { r with start := h.now }, ?_, w.admit_classOf r, rfl⟩
  simp (disch := decide) only [Hw.newTrk, Hw.kept, w.reg]

theorem Hw.admitted_port : (h.admitted r).port r.port = h.portEntered r := by
  have hn : ((h.enter r).noteSeq { r with start := h.now }).port r.port = (h.enter r).port r.port := by
    rw [Hw.port, Hw.noteSeq_req, Hw.port]
  exact (Hw.takeTrk_port ..).trans (hn.trans (Hw.enter_port h r))

theorem Hw.admitted_arb (s : Nat) : (h.admitted r).arb s = h.arb s := by
  rw [Hw.admitted, Hw.arb, Hw.takeTrk_req, Hw.noteSeq_req, Hw.enter_req, Hw.arb]

theorem Hw.admitted_uidNext : (h.admitted r).req.uidNext = h.req.uidNext + 1 := by
  rw [Hw.admitted, Hw.takeTrk_req, Hw.noteSeq_req, Hw.enter_req]

theorem Hw.admitted_win (n : Nat) (hn : r.seq = some n) :
    (h.admitted r).win r.requester n = winBits (n / 1024) Win.inFlight 0 := by
  rw [Hw.admitted, Hw.win, Hw.takeTrk_req]
  exact Hw.noteSeq_win _ _ n hn

theorem Hw.admitted_inflight : (h.admitted r).reg Od.reqInflight r.requester =
    (h.reg Od.reqInflight r.requester + 1) % 2 ^ Od.reqInflight.width := by
  rw [Hw.admitted, Hw.takeTrk_inflight, (Hw.noteSeq_within ..).reg _ _ (by decide), (Hw.enter_within ..).reg _ _ (by decide)]

/-- A request that may enter takes its tracker entry; one that is whole goes on its way. -/
theorem Hw.headerIn_admitted (hq : h.portQuiet r.port) (hop : r.op ∈ [1, 2, 3, 5, 6]) (ht : r.testable = true)
    (hp : h.permits r) (hr : h.hasRoom r) :
    h.headerIn r = (if r.beatsLeft = 0 then (h.admitted r).dispatch r.uid else h.admitted r).noteBlock r.port := by
  have hne (k : Nat) (hk : k ∉ [1, 2, 3, 5, 6]) : r.op ≠ k := fun c => hk (c ▸ hop)
  obtain ⟨-, -, -, hdef, -⟩ := id hq
  have hadm := Hw.admission_passes (h.enter r) { r with start := h.now } (hne 9 (by decide))
    (Hw.permits_enter (hne 7 (by decide)) (hne 8 (by decide)) (hne 4 (by decide)) hp) (Hw.hasRoom_enter hr)
    ((congrArg Port.deferred (Hw.enter_port h r)).trans hdef)
  rw [Hw.headerIn_quiet h r hq ht, hadm]
  rfl

end

end Sys2Proof.Machine
end

section
/-! Requests that wait at a stack ingress where a grant is already decided (R55, R56, R61, R64, R99). -/

namespace Sys2Proof.Machine

/-! ### A request whole at a quiet port -/

/-- A request that is no repeat, of good parity, and without poison where that would end it at once. -/
def Rq.clean (r : Rq) : Prop := r.isRepeat = false ∧ r.parBad = false ∧ (4 < r.op → r.psn.any id = false)

theorem Hw.queueUp_port (h : Hw) (uid s n : Nat) (t : Tracker) (ht : h.trk uid = some t) :
    (h.queueUp uid s).port n = h.port n := Hw.port_of_req (Hw.queueUp_req h uid s t ht) n

theorem Hw.queueUp_win (h : Hw) (uid s r n : Nat) (t : Tracker) (ht : h.trk uid = some t) :
    (h.queueUp uid s).win r n = h.win r n := Hw.win_of_req (Hw.queueUp_req h uid s t ht) r n

theorem Hw.queueUp_uidNext (h : Hw) (uid s : Nat) (t : Tracker) (ht : h.trk uid = some t) :
    (h.queueUp uid s).req.uidNext = h.req.uidNext := by
  rw [Hw.queueUp_req h uid s t ht]
  rfl

theorem Hw.queueUp_next (h : Hw) (uid s : Nat) (t : Tracker) (ht : h.trk uid = some t) :
    ((h.queueUp uid s).arb s).next = (h.arb s).next := by
  rw [Hw.queueUp_arb h uid s t ht, Hw.enqueueArb_arb]
  rfl

theorem Hw.queueUp_mem (h : Hw) (uid s : Nat) (t : Tracker) (ht : h.trk uid = some t) :
    uid ∈ Table.atD ((h.queueUp uid s).arb s).queues (fun _ => []) ((if h.otherHub s then 32 else t.rq.port) * 8 + t.cls) := by
  rw [Hw.queueUp_arb h uid s t ht, Hw.enqueueArb_arb]
  dsimp only
  rw [Table.atD_put_same]
  exact List.mem_append_right _ (List.mem_singleton.2 rfl)

section

variable {h : Hw} {r : Rq}

/-- An admitted request queues up as the statements say it. -/
theorem Hw.queuedAt_queueUp (st : Nat) (huid : r.uid = h.req.uidNext) : h.queuedAt ((h.admitted r).queueUp r.uid st) r st := by
  obtain ⟨t, ht, hrq, hcls, -⟩ := Hw.admitted_trk h r
  have w := Hw.admitted_within h r
  have wq := Hw.queueUp_within (h.admitted r) r.uid st
  have wa : h.Within admitMask (h.admitted r) := Hw.Within.step w (by decide) (Hw.Within.refl _ _)
  refine ⟨⟨_, Hw.queueUp_trk _ _ st t ht, hrq, hcls, rfl, rfl, ?_⟩, ?_, ?_, fun n hn => ?_, ?_⟩
  · have hmem := Hw.queueUp_mem (h.admitted r) r.uid st t ht
    rw [wa.admit_otherHub, hrq, hcls] at hmem
    exact hmem
  · rw [wq.reg _ _ (by decide), Hw.admitted_inflight]
  · rw [Hw.queueUp_uidNext _ _ _ t ht, Hw.admitted_uidNext, huid]
  · rw [Hw.queueUp_win _ _ _ _ _ t ht, Hw.admitted_win h r n hn]
  · exact (Hw.Within.step (m := admitMask) wq (by decide) wa).changesOnly _ _ (by decide) (by decide)

/-- A whole request that may enter, for a stack whose ingress serves it: it queues up there. -/
theorem Hw.headerIn_queues (st : Nat) (hw : h.waitsAt r st) (hb : r.beatsLeft = 0) (hc : r.clean) (hst : dpaStack r.addr = st)
    (hop : r.op ∈ [1, 2, 3, 5] ∨ (r.op = 6 ∧ h.failed st = false)) :
    h.headerIn r = (h.admitted r).queueUp r.uid st := by
  obtain ⟨hq, -, hp, hr, -⟩ := hw
  obtain ⟨t, ht, hrq, -, hph⟩ := Hw.admitted_trk h r
  obtain ⟨hrep, hpar, hpsn⟩ := hc
  have hops : r.op ∈ [1, 2, 3, 5, 6] := by
    rcases hop with hop | ⟨hop, -⟩
    · simp only [List.mem_cons, List.not_mem_nil, or_false] at hop ⊢
      omega
    · rw [hop]
      decide
  have hgo : (h.admitted r).dispatch r.uid = (h.admitted r).queueUp r.uid st := by
    have hd := Hw.dispatch_queues (h.admitted r) r.uid t ht hph
    rw [hrq, (Hw.admitted_within h r).failed (by decide)] at hd
    subst hst
    exact hd hrep hpar hpsn hop
  rw [Hw.headerIn_admitted h r hq hops (by simp [Rq.testable, hb]) hp hr, if_pos hb, hgo]
  obtain ⟨-, -, hheld, hdef, hblk⟩ := hq
  have hport : ((h.admitted r).queueUp r.uid st).port r.port = h.portEntered r :=
    (Hw.queueUp_port _ _ _ _ t ht).trans (Hw.admitted_port h r)
  exact Hw.noteBlock_idle _ _ ((congrArg Port.held hport).trans hheld) ((congrArg Port.deferred hport).trans hdef)
    ((congrArg Port.blockedSince hport).trans hblk)

end

/-! ### Behind a grant that is already decided -/

theorem Hw.passIdle_behind (h : Hw) (uid : Nat) (t : Tracker) (ht : h.trk uid = some t)
    (hn : (h.arb (t.stack.getD 0)).next.isSome = true) : h.passIdle uid = h := by
  rw [Hw.passIdle, ht]
  dsimp only
  rw [if_neg (fun c => by simp_all)]

theorem Hw.throughSlice_behind (h : Hw) (uid : Nat) (t : Tracker) (ht : h.trk uid = some t) (hph : t.phase = .queued)
    (hn : (h.arb (t.stack.getD 0)).next.isSome = true) : h.throughSlice uid = h := by
  have hf : h.forwardedTo uid = none := by
    rw [Hw.forwardedTo, ht]
    dsimp only
    rw [if_neg (by rw [hph]; decide)]
  rw [Hw.throughSlice, Hw.passIdle_behind h uid t ht hn, hf]

/-- A typed request with its data, within the port's data credits, comes in as one header (R51). -/
theorem Hw.arrive_fits (h : Hw) (r : Rq) (data : List Byte) (mask psn : List Bool) (hd : h.dataHeld r.port + r.beats ≤ 4096) :
    h.arrive r data mask psn = h.headerIn (if r.beats = 0 then r else r.bringing data mask psn) := by
  rw [Hw.arrive]
  rw [if_neg (by omega)]
  split <;> rfl

/-- A request of the kinds that O17 names, without what would end it before its stack ingress. -/
def Hw.routable (h : Hw) (r : Rq) (st : Nat) : Prop :=
  r.uid = h.req.uidNext ∧ r.beatsLeft = 0 ∧ r.clean ∧ dpaStack r.addr = st ∧
    (r.op ∈ [1, 2, 3, 5] ∨ (r.op = 6 ∧ h.failed st = false))

theorem Hw.headerIn_routable {h : Hw} {r : Rq} {st : Nat} (hw : h.waitsAt r st) (hr : h.routable r st) :
    h.queuedAt (h.headerIn r) r st ∧ (h.headerIn r).passIdle h.req.uidNext = h.headerIn r ∧
      (h.headerIn r).throughSlice h.req.uidNext = h.headerIn r := by
  obtain ⟨huid, hb, hc, hst, hop⟩ := hr
  rw [Hw.headerIn_queues st hw hb hc hst hop, ← huid]
  obtain ⟨-, -, -, -, hnext⟩ := hw
  obtain ⟨t, ht, -⟩ := Hw.admitted_trk h r
  have htrk := Hw.queueUp_trk (h.admitted r) r.uid st t ht
  have hn : (((h.admitted r).queueUp r.uid st).arb st).next.isSome = true := by
    rw [Hw.queueUp_next _ _ _ t ht, Hw.admitted_arb, hnext]
  exact ⟨Hw.queuedAt_queueUp st huid, Hw.passIdle_behind _ _ _ htrk hn, Hw.throughSlice_behind _ _ _ htrk rfl hn⟩

/-- The same of a request that comes in by a typed row, with its data where it brings any. -/
theorem Hw.arrive_routable {h : Hw} {x r : Rq} {data : List Byte} {mask psn : List Bool} {st : Nat}
    (hx : r = if x.beats = 0 then x else x.bringing data mask psn) (hw : h.waitsAt r st) (hr : h.routable r st) :
    h.queuedAt (h.arrive x data mask psn) r st ∧ (h.arrive x data mask psn).passIdle h.req.uidNext = h.arrive x data mask psn ∧
      (h.arrive x data mask psn).throughSlice h.req.uidNext = h.arrive x data mask psn := by
  have hfits : h.dataHeld x.port + x.beats ≤ 4096 := by
    obtain ⟨-, hd, -⟩ := hw
    rw [hx] at hd
    split at hd <;> exact hd
  rw [Hw.arrive_fits h x data mask psn hfits, ← hx]
  exact Hw.headerIn_routable hw hr

/-- The ops whose requests bring data beats, whatever their subop (R55). -/
theorem Rq.beats_ne_zero (r : Rq) (h : r.op ∈ [2, 3, 4, 5, 6, 8]) : r.beats ≠ 0 := by
  have hb : ([2, 3, 4, 5, 6, 8].contains r.op || (r.op == 7 && r.subop == 1)) = true := by
    rw [List.contains_iff_mem.2 h, Bool.true_or]
  rw [Rq.beats, if_pos hb, beatsOf]
  omega

theorem fitTo_nil_any (n : Nat) : (fitTo n false []).any id = false := by
  simp [fitTo]

theorem Rq.clean_typed (h : Hw) (x : Hdr) (op len subop ext addr : Nat) (data : List Byte) (mask psn : List Bool)
    (hp : op ≤ 4 ∨ psn = []) : ((h.typed x op len subop ext addr).bringing data mask psn).clean := by
  refine ⟨rfl, rfl, fun h4 => ?_⟩
  have h4 : 4 < op := h4
  rcases hp with hp | rfl
  · omega
  · exact fitTo_nil_any _

/-- A typed RD, WR, WRP or ATM with its data. -/
theorem Hw.routable_typed (h : Hw) (x : Hdr) (op len subop ext addr : Nat) (data : List Byte) (mask psn : List Bool)
    (hop : op ∈ [1, 2, 3, 5]) (hp : op ≤ 4 ∨ psn = []) :
    h.routable ((h.typed x op len subop ext addr).bringing data mask psn)
      (dpaStack ((h.typed x op len subop ext addr).bringing data mask psn).addr) :=
  ⟨rfl, rfl, Rq.clean_typed h x op len subop ext addr data mask psn hp, rfl, .inl hop⟩

theorem Leads.of_eq {c : Instr} {s : State} {k x : Hw} {P : Hw → Prop} (hc : exec c s = .next { s with hw := k }) (hk : k = x)
    (hx : P x) : Leads c s P := ⟨k, hc, hk ▸ hx⟩

/-- Settles O17: each row is one arrival, which then waits behind the grant that is decided. -/
theorem requestsQueued : Obligations.RequestsQueued := by
  intro x s
  have hb {op len subop ext addr : Nat} (data : List Byte) (mask psn : List Bool) (ho : op ∈ [2, 3, 4, 5, 6, 8]) :
      (s.hw.typed x op len subop ext addr).bringing data mask psn =
        if (s.hw.typed x op len subop ext addr).beats = 0 then s.hw.typed x op len subop ext addr
        else (s.hw.typed x op len subop ext addr).bringing data mask psn := (if_neg (Rq.beats_ne_zero _ ho)).symm
  refine ⟨?_, ?_, ?_, ?_, ?_, ?_, ?_⟩
  · intro len addr r hw
    have hr : s.hw.routable r (dpaStack r.addr) :=
      ⟨rfl, rfl, ⟨rfl, rfl, fun h => absurd h (show ¬ 4 < 1 by decide)⟩, rfl, .inl (show 1 ∈ [1, 2, 3, 5] by decide)⟩
    obtain ⟨hq, hp, -⟩ := Hw.arrive_routable (x := r) (data := []) (mask := []) (psn := []) rfl hw hr
    exact .of_eq rfl hp hq
  · intro len addr data psn r hw
    obtain ⟨hq, -, hp⟩ := Hw.arrive_routable (hb data [] psn (by decide)) hw
      (Hw.routable_typed s.hw x 2 _ _ _ _ _ _ _ (by decide) (.inl (by decide)))
    exact .of_eq rfl hp hq
  · intro len addr data mask psn r hw
    obtain ⟨hq, -, hp⟩ := Hw.arrive_routable (hb data mask psn (by decide)) hw
      (Hw.routable_typed s.hw x 3 _ _ _ _ _ _ _ (by decide) (.inl (by decide)))
    exact .of_eq rfl hp hq
  · intro addr v r hw
    obtain ⟨hq, -, hp⟩ := Hw.arrive_routable (hb (bytesOf v 8) [] [] (by decide)) hw
      (Hw.routable_typed s.hw x 5 _ _ _ _ _ _ _ (by decide) (.inr rfl))
    exact .of_eq rfl hp hq
  · intro addr v r hw
    obtain ⟨hq, -, hp⟩ := Hw.arrive_routable (hb (bytesOf v 8) [] [] (by decide)) hw
      (Hw.routable_typed s.hw x 5 _ _ _ _ _ _ _ (by decide) (.inr rfl))
    exact .of_eq rfl hp hq
  · intro addr v w r hw
    obtain ⟨hq, -, hp⟩ := Hw.arrive_routable (hb (bytesOf v 16 ++ bytesOf w 16) [] [] (by decide)) hw
      (Hw.routable_typed s.hw x 5 _ _ _ _ _ _ _ (by decide) (.inr rfl))
    exact .of_eq rfl hp hq
  · intro engine prog stack regs descs r hf hw
    have hst : dpaStack r.addr = stack := by
      have haddr : r.addr = stack.val * 2 ^ 37 % 2 ^ 41 := rfl
      rw [haddr, dpaStack]
      omega
    obtain ⟨hq, hp, -⟩ := Hw.arrive_routable
      (hb (fitTo 128 0 (regs.flatMap (fun g => bytesOf g 8)) ++ descs.flatMap (fun d => bytesOf d 32)) [] [] (by decide)) hw
      ⟨rfl, rfl, Rq.clean_typed s.hw x 6 _ _ _ _ _ _ _ (.inr rfl), hst, .inr ⟨rfl, hf⟩⟩
    exact .of_eq rfl hp hq

end Sys2Proof.Machine
end

section
/-! Two statements that fail on a tracker table that holds an entry the block would not have made: O19 and O22. Neither has a
premise that no entry stands under the next unique id, or that the table holds at most one entry for it. -/

namespace Sys2Proof.Machine

/-- An RD's or an ODW's header on port 0, of requester 0 and tag 0, with sequence number `seq`. -/
def headerOnPort0 (seq : Option Nat) : Hdr := { port := 0, requester := 0, tag := 0, seq := seq, label := 0, secure := false }

/-! ### O19: an entry under the next unique id goes on in the refused request's stead -/

/-- Port 0 is in ACTIVE, and a BIRSP waits at stack 0's idle ingress under the unique id that the next header takes. -/
def strayBirspBlock : Hw :=
  ({ req := { trackers := [(0, { rq := { op := 9 }, phase := .queued, stack := some 0 })], arbs := [(0, { queues := [(0, [0])] })] } }
    : Hw).setReg Od.portState 0 1

/-- The trackers that are left after an RD of address 1, which is MALFORMED. -/
def strayBirspAfter : Nat :=
  match exec (.rd (headerOnPort0 none) 0 1) { hw := strayBirspBlock, pending := [] } with
  | .next t => t.hw.req.trackers.length
  | _ => 1

theorem strayBirspAfter_eq : strayBirspAfter = 0 := by decide +kernel

/-- Refutes O19: in `strayBirspBlock` the RD of address 1 is answered MALFORMED, but the idle ingress then passes the BIRSP that
stood under its unique id, whose tracker entry ends; the trackers are not as before. -/
theorem not_requestsRefused : ¬ Obligations.RequestsRefused := by
  intro h
  obtain ⟨hmalformed, -⟩ := h (headerOnPort0 none) 0 1 { hw := strayBirspBlock, pending := [] }
    ⟨by decide +kernel, rfl, rfl, rfl, rfl⟩ (by decide +kernel) (by decide +kernel)
  obtain ⟨k, hk, htrk, -⟩ := hmalformed (by decide +kernel)
  have hlen : strayBirspAfter = k.req.trackers.length := by rw [strayBirspAfter, hk]
  rw [strayBirspAfter_eq, htrk] at hlen
  exact absurd hlen (by decide)

/-! ### O22: a second entry under the same unique id, a repeat, takes the response -/

/-- Port 0, requester 0 and the dictionary take requests; the tracker table holds a repeat of sequence number 0 that waits for its
original, under the unique id that the next header takes, behind an entry of another id. -/
def strayRepeatBlock : Hw :=
  (((({ req := { trackers := [(1, { rq := {} }), (0, { rq := { op := 8, seq := some 0 }, phase := .waitOriginal })] } } : Hw).setReg
    Od.portState 0 1).setReg Od.reqState 0 1).setReg Od.dictState 0 1).setReg Od.reqLimit 0 1

/-- What waits at port 0's egress after a read of object 8000h with sequence number 0. -/
def strayRepeatReady : List (List Byte) :=
  match exec (.odwRead (headerOnPort0 (some 0)) 0x8000 0 0 0 0) { hw := strayRepeatBlock, pending := [] } with
  | .next t => (t.hw.port 0).ready.map OutUnit.data
  | _ => []

theorem strayRepeatReady_eq : strayRepeatReady = [[]] := by decide +kernel

/-- The read's request: object 8000h, index 0, count 0. -/
def strayRepeatRq : Rq :=
  (strayRepeatBlock.typed (headerOnPort0 (some 0)) 8 0 0 0 (odwAddr 0x8000 0 0)).bringing
    (bytesOf (0 : BitVec 16) 2 ++ bytesOf (0 : BitVec 16) 2) [] []

/-- The request passes admission: its sequence number is new and its requester has none in flight. -/
theorem strayRepeat_hasRoom : strayRepeatBlock.hasRoom strayRepeatRq := by
  refine ⟨fun n hn => ?_, by decide +kernel, by decide +kernel⟩
  obtain rfl : 0 = n := Option.some.inj hn
  exact ⟨by decide +kernel, .inl rfl⟩

theorem strayRepeat_takesIn : strayRepeatBlock.takesIn strayRepeatRq :=
  ⟨⟨by decide +kernel, rfl, rfl, rfl, rfl⟩, by decide +kernel,
    ⟨by decide +kernel, by decide +kernel, by decide +kernel, by decide +kernel, fun h => absurd h (by decide +kernel)⟩,
    strayRepeat_hasRoom, by decide +kernel⟩

/-- Refutes O22, in its clause of a read's exact data: in `strayRepeatBlock` the read of object 8000h is to bring a whole unit of
64 B, but its tracker entry, found again under its unique id, is then the repeat's, and the one unit sent brings no data. -/
theorem not_dictionaryByOdw : ¬ Obligations.DictionaryByOdw := by
  intro h
  obtain ⟨-, hread, -⟩ := h (headerOnPort0 (some 0)) 0x8000 0 0 0 0 { hw := strayRepeatBlock, pending := [] }
  obtain ⟨k, hk, -, u, hu, -, -, -, hdata⟩ := hread 1 1 [33]
    ⟨strayRepeat_takesIn, by decide +kernel, by decide +kernel, by decide +kernel⟩ (by decide +kernel) (by decide +kernel)
    (by decide +kernel)
  have hready : strayRepeatReady = (k.port 0).ready.map OutUnit.data := by rw [strayRepeatReady, hk]
  have hmem : u.data ∈ strayRepeatReady := hready ▸ List.mem_map_of_mem hu
  rw [strayRepeatReady_eq, List.mem_singleton, hdata] at hmem
  exact absurd hmem (by decide +kernel)

end Sys2Proof.Machine
end

section
/-! What an event and the release of a tracker entry leave of a port. -/

namespace Sys2Proof.Machine

theorem Hw.port_setPort_ne (h : Hw) (n i : Nat) (p : Port) (hi : i ≠ n) : (h.setPort n p).port i = h.port i := by
  unfold Hw.port Hw.setPort; exact Table.atD_setD_ne h.req.ports (fun _ => ({} : Port)) n i p hi

/-- An EVT that joins a port's queue leaves every port's ingress. -/
theorem Hw.ingress_setEvts (h : Hw) (home n : Nat) (l : List OutUnit) :
    ((h.setPort home { h.port home with evts := l }).port n).ingress = (h.port n).ingress := by
  by_cases hn : n = home
  · rw [hn, Hw.port_setPort_same]
  · rw [Hw.port_setPort_ne _ _ _ _ hn]

theorem Hw.ingress_of_req {a b : Hw} (h : b.req = a.req) (n : Nat) : (b.port n).ingress = (a.port n).ingress :=
  congrArg Port.ingress (Hw.port_of_req h n)

theorem Hw.ingress_sendEvt (h : Hw) (r : Nat) (e : Event) (n : Nat) : (((h.sendEvt r e).2).port n).ingress = (h.port n).ingress := by
  unfold Hw.sendEvt
  dsimp only
  split
  · exact Hw.ingress_setEvts ..
  · rfl

/-- The end of a route's step: the record is pending, or dropped and counted. -/
theorem Hw.ingress_satReg (h : Hw) (r : Reg) (i n : Nat) : ((h.satReg r i).port n).ingress = (h.port n).ingress := by
  unfold Hw.satReg
  split <;> rfl

theorem Hw.ingress_drop (h : Hw) (k n : Nat) : ((((h.addReg Od.routeDropped k).countSel 0x10 k).port n).ingress) = (h.port n).ingress :=
  Hw.ingress_of_req (Hw.countSel_req ..) n

theorem Hw.ingress_routeTake (h : Hw) (k : Nat) (e : Event) (n : Nat) : ((h.routeTake k e).port n).ingress = (h.port n).ingress := by
  have hend (ok : Bool) (x : Hw) (hx : (x.port n).ingress = (h.port n).ingress) :
      ((if ok then x.satReg Od.routePending k else (x.addReg Od.routeDropped k).countSel 0x10 k).port n).ingress = (h.port n).ingress := by
    split
    · exact (Hw.ingress_satReg ..).trans hx
    · exact (Hw.ingress_drop ..).trans hx
  have hsend (c : Bool) (x y : Hw) (hx : x.req = h.req) (hy : y.req = h.req) :
      (((if c then (true, x) else (false, y)).2).port n).ingress = (h.port n).ingress := by
    cases c
    · exact Hw.ingress_of_req hy n
    · exact Hw.ingress_of_req hx n
  unfold Hw.routeTake
  dsimp only
  split
  · exact Hw.ingress_drop _ k n
  · refine hend _ _ ?_
    split
    · split
      · exact Hw.ingress_setEvts ..
      · rfl
    · exact hsend _ _ _ rfl rfl
    · rfl
    · rfl

/-- The event's record in the ring leaves the ports. -/
theorem Hw.ringAdvance_events_req (h : Hw) : (h.ringAdvance 1 0 1024 Od.evHead Od.evOverflow).2.req = h.req :=
  (Hw.ringAdvance_within ..).same .requests (by decide)

/-- An event leaves every port's ingress as it was. -/
theorem Hw.ingress_raise (h : Hw) (e : Event) (n : Nat) : ((h.raise e).port n).ingress = (h.port n).ingress := by
  have hroutes (ks : List Nat) (f : Hw → Nat → Event) (x : Hw) :
      ((ks.foldl (fun h k => if h.routeWants k e then h.routeTake k (f h k) else h) x).port n).ingress = (x.port n).ingress := by
    induction ks generalizing x with
    | nil => rfl
    | cons k ks ih =>
      refine (ih _).trans ?_
      dsimp only
      split
      · exact Hw.ingress_routeTake ..
      · rfl
  have hdests (rs : List Nat) (x : Hw) : ((rs.foldl (fun h r => (h.sendEvt r e).2) x).port n).ingress = (x.port n).ingress := by
    induction rs generalizing x with
    | nil => rfl
    | cons r rs ih => exact (ih _).trans (Hw.ingress_sendEvt ..)
  unfold Hw.raise
  extract_lets routed sent
  have hring (x : Hw) : ((x.ringAdvance 1 0 1024 Od.evHead Od.evOverflow).2.port n).ingress = (x.port n).ingress :=
    Hw.ingress_of_req (Hw.ringAdvance_events_req x) n
  exact (hring _).trans ((hdests e.dests routed).trans
    (hroutes _ (fun h k => if k < 16 && e.kind == 4 then { e with payload := h.filterErr e.payload } else e) h))

/-! ### The trackers and the sequence windows leave the ports -/

theorem Hw.noteGate_req (h : Hw) (r : Nat) : (h.noteGate r).req = h.req := (Hw.noteGate_within ..).same .requests (by decide)

theorem Hw.writeSample_req (h : Hw) (t : Tracker) : (h.writeSample t).req = h.req := (Hw.writeSample_within ..).same .requests (by decide)

theorem Hw.winForget_ports (h : Hw) (r s : Nat) : (h.winForget r s).req.ports = h.req.ports := by
  unfold Hw.winForget
  split <;> rfl

theorem Hw.releaseTrk_ports (h : Hw) (uid : Nat) : (h.releaseTrk uid).req.ports = h.req.ports := by
  have hdel (t : Tracker) : (h.writeSample t).req.ports = h.req.ports := congrArg ReqSt.ports (Hw.writeSample_req h t)
  unfold Hw.releaseTrk
  split
  · dsimp only
    split
    · exact hdel _
    · exact (congrArg ReqSt.ports (Hw.noteGate_req ..)).trans (hdel _)
  · rfl

theorem Hw.dropUnfed_ports (h : Hw) (n : Nat) : (h.dropUnfed n).req.ports = h.req.ports := by
  refine List.foldlRecOn (motive := fun x : Hw => x.req.ports = h.req.ports) _ _ rfl (fun x hx e _ => ?_)
  refine (Hw.releaseTrk_ports ..).trans ?_
  split
  · split
    · exact hx
    · exact (Hw.winForget_ports ..).trans hx
  · exact hx

theorem Hw.port_of_ports {a b : Hw} (h : b.req.ports = a.req.ports) (n : Nat) : b.port n = a.port n := by
  unfold Hw.port; rw [h]

theorem Hw.dropUnits_port (h : Hw) (n : Nat) (p : OutUnit → Bool) : (h.dropUnits n p).port n =
    { h.port n with ready := (h.port n).ready.filter (fun u => !p u) } := by
  refine Eq.trans ?_ (Hw.port_setPort_same h n _)
  refine Hw.port_of_ports (List.foldlRecOn (motive := fun x : Hw => x.req.ports = _) _ _ rfl (fun x hx u _ => ?_)) n
  split
  · exact (Hw.releaseTrk_ports ..).trans hx
  · exact hx

theorem Hw.dropHeld_ingress (h : Hw) (n : Nat) (p : Rq → Bool) (forget : Bool) (hi : (h.port n).ingress = []) :
    ((h.dropHeld n p forget).port n).ingress = [] := by
  refine List.foldlRecOn (motive := fun x : Hw => (x.port n).ingress = []) _ _ ?_ (fun x hx r _ => ?_)
  · refine (congrArg Port.ingress (Hw.port_setPort_same h n _)).trans ?_
    rw [hi]
    rfl
  · split
    · split
      · exact (congrArg Port.ingress (Hw.port_of_ports (Hw.winForget_ports ..) n)).trans hx
      · exact hx
    · exact hx

/-! ### A port that goes into ERROR (R53) -/

theorem Hw.portError_ingress (h : Hw) (n : Nat) (hi : (h.port n).ingress = []) : ((h.portError n).port n).ingress = [] := by
  unfold Hw.portError
  split
  · exact hi
  · refine (Hw.ingress_raise ..).trans ((congrArg Port.ingress (Hw.port_setPort_same ..)).trans ?_)
    refine (congrArg Port.ingress (Hw.dropUnits_port ..)).trans ?_
    exact (congrArg Port.ingress (Hw.port_of_ports (Hw.dropUnfed_ports ..) n)).trans (Hw.dropHeld_ingress _ _ _ _ hi)

theorem Hw.portError_state (h : Hw) (n : Nat) (hs : h.reg Od.portState n = 1) : (h.portError n).reg Od.portState n = 2 := by
  unfold Hw.portError
  rw [if_neg (not_not.2 hs)]
  dsimp only
  rw [(Hw.raise_within ..).reg _ _ (by decide), (Hw.setPort_within ..).reg _ _ (by decide), (Hw.dropUnits_within ..).reg _ _ (by decide),
    (Hw.dropUnfed_within ..).reg _ _ (by decide), (Hw.dropHeld_within ..).reg _ _ (by decide), (Hw.addReg_within ..).reg _ _ (by decide),
    Hw.reg_setReg_same]
  rfl

theorem Hw.pumpIngress_empty (h : Hw) (n : Nat) (hi : (h.port n).ingress = []) : h.pumpIngress n = h.noteBlock n := by
  rw [Hw.pumpIngress, hi]
  rfl

/-- The mask of a header's parity error and of what follows it, down to the end of the port's blocked time. -/
def portErrorMask : Nat :=
  11349009281615840088357655658168717111757330300737330774880591735497115699491436630005893740227063986190423198449799236

/-- A port that goes into ERROR with nothing in ingress: the state that it is in, and what changes. -/
theorem Hw.portError_errored (h : Hw) (n : Nat) (hs : h.reg Od.portState n = 1) (hi : (h.port n).ingress = []) :
    ((h.portError n).pumpIngress n).reg Od.portState n = 2 ∧ h.Within portErrorMask ((h.portError n).pumpIngress n) := by
  rw [Hw.pumpIngress_empty _ _ (Hw.portError_ingress h n hi)]
  exact ⟨((Hw.noteBlock_within ..).reg _ _ (by decide)).trans (Hw.portError_state h n hs),
    Hw.Within.step (Hw.noteBlock_within ..) (by decide) (Hw.Within.step (Hw.portError_within ..) (by decide) (Hw.Within.refl _ _))⟩

theorem Hw.Within.portErrored {a b : Hw} (w : a.Within portErrorMask b) : a.ChangesOnly [.timers, .requests, .messages]
    (eventRegs ++ doneRegs ++ [Od.portState, Od.portHdrParity, Od.portDeferred, Od.portProtocolErrors, Od.portBlockedNs]) b :=
  w.changesOnly _ _ (by decide) (by decide)

end Sys2Proof.Machine
end

section
/-! Headers and data beats on a fabric port (R50, R51, R52, R53, R56). -/

namespace Sys2Proof.Machine

/-! ### The rows, per case -/

section

variable {port : PortIx} {header : BitVec 128} {parity : BitVec 16} {s : State}

/-- A header of good parity comes in. -/
theorem execRequestHeader_good (hs : s.hw.reg Od.portState port.val = 1)
    (hp : ∀ i, i < 16 → headerParityOk header parity i = true) :
    let r := headerRq header port.val s.hw.req.uidNext s.hw.now
    execRequestHeader port header parity s = .next { s with hw := s.hw.headerIn { r with beatsLeft := r.beats } } := by
  intro r
  have hbad : (List.range 16).any (fun i => !headerParityOk header parity i) = false :=
    List.any_eq_false.2 (fun i hi => by rw [hp i (List.mem_range.1 hi)]; decide)
  have h815 : (!headerParityOk header parity 8 || !headerParityOk header parity 15) = false := by
    rw [hp 8 (by decide), hp 15 (by decide)]
    rfl
  unfold execRequestHeader
  rw [State.on]
  dsimp only
  rw [if_neg (not_not.2 hs), h815, if_neg (by decide), hbad, if_neg (by decide)]

/-- Bad parity in the opcode or length byte: ERROR. -/
theorem execRequestHeader_fatal (hs : s.hw.reg Od.portState port.val = 1)
    (hp : headerParityOk header parity 8 = false ∨ headerParityOk header parity 15 = false) :
    execRequestHeader port header parity s =
      .next { s with hw := ((s.hw.addReg Od.portHdrParity port.val).portError port.val).pumpIngress port.val } := by
  have h815 : (!headerParityOk header parity 8 || !headerParityOk header parity 15) = true := by
    rcases hp with hp | hp <;> simp [hp]
  unfold execRequestHeader
  rw [State.on]
  dsimp only
  rw [if_neg (not_not.2 hs), h815, if_pos rfl]

/-- Bad parity elsewhere in a WR's or WRP's header: its beats are expected, and belong to no request. -/
theorem execRequestHeader_discards (hs : s.hw.reg Od.portState port.val = 1) (h8 : headerParityOk header parity 8 = true)
    (h15 : headerParityOk header parity 15 = true) (hp : ∃ i, i < 16 ∧ headerParityOk header parity i = false)
    (hop : (headerRq header port.val s.hw.req.uidNext s.hw.now).op = 2 ∨ (headerRq header port.val s.hw.req.uidNext s.hw.now).op = 3) :
    let gone : BeatWait := { uid := none, left := beatsOf (headerRq header port.val s.hw.req.uidNext s.hw.now).len }
    execRequestHeader port header parity s = .next { s with hw := ((s.hw.addReg Od.portHdrParity port.val).setPort port.val
      ({ s.hw.port port.val with beats := (s.hw.port port.val).beats ++ [gone] })) } := by
  intro gone
  have h815 : (!headerParityOk header parity 8 || !headerParityOk header parity 15) = false := by
    rw [h8, h15]
    rfl
  obtain ⟨i, hi, hpi⟩ := hp
  have hbad : (List.range 16).any (fun i => !headerParityOk header parity i) = true :=
    List.any_eq_true.2 ⟨i, List.mem_range.2 hi, by rw [hpi]; rfl⟩
  unfold execRequestHeader
  rw [State.on]
  dsimp only
  rw [if_neg (not_not.2 hs), h815, if_neg (by decide), hbad, if_pos rfl, if_pos hop]
  rfl

end

/-- A WR's or WRP's header that may enter takes its tracker entry and waits for its beats. -/
theorem Hw.headerIn_waitsData (h : Hw) (r : Rq) (hb : r.beatsLeft ≠ 0) (hop : r.op = 2 ∨ r.op = 3) (hq : h.portQuiet r.port)
    (hp : h.permits r) (hr : h.hasRoom r) : h.headerIn r = h.admitted r := by
  have hops : r.op ∈ [1, 2, 3, 5, 6] := by rcases hop with hop | hop <;> rw [hop] <;> decide
  have ht : r.testable = true := by rcases hop with hop | hop <;> simp [Rq.testable, hop]
  rw [Hw.headerIn_admitted h r hq hops ht hp hr, if_neg hb]
  obtain ⟨-, -, hheld, hdef, hblk⟩ := hq
  have hport := Hw.admitted_port h r
  exact Hw.noteBlock_idle _ _ ((congrArg Port.held hport).trans hheld) ((congrArg Port.deferred hport).trans hdef)
    ((congrArg Port.blockedSince hport).trans hblk)

theorem Hw.modTrk_of (h : Hw) (uid : Nat) (t : Tracker) (f : Tracker → Tracker) (ht : h.trk uid = some t) :
    h.modTrk uid f = h.setTrk uid (f t) := by
  rw [Hw.modTrk, ht]

/-- The request of tracker entry `uid` changes: nothing but that entry, and what the port holds of it, does. -/
theorem Hw.modRq_eq (h : Hw) (n uid : Nat) (t : Tracker) (f : Rq → Rq) (ht : h.trk uid = some t) :
    ∃ p : Port, p.beats = (h.port n).beats ∧ h.modRq n uid f = (h.setPort n p).setTrk uid { t with rq := f t.rq } :=
  ⟨{ h.port n with
      ingress := (h.port n).ingress.map (fun r => if r.uid = uid then f r else r)
      deferred := (h.port n).deferred.map (fun r => if r.uid = uid then f r else r)
      held := (h.port n).held.map (fun r => if r.uid = uid then f r else r) }, rfl,
    Hw.modTrk_of _ uid t (fun t => { t with rq := f t.rq }) ht⟩

/-- The oldest waiting header of port `n` has one beat fewer to come. -/
def Hw.takeBeat (h : Hw) (n : Nat) (b : BeatWait) (rest : List BeatWait) : Hw :=
  h.setPort n { h.port n with beats := if b.left ≤ 1 then rest else { b with left := b.left - 1 } :: rest }

theorem Hw.takeBeat_beats (h : Hw) (n : Nat) (b : BeatWait) (rest : List BeatWait) :
    ((h.takeBeat n b rest).port n).beats = if b.left ≤ 1 then rest else { b with left := b.left - 1 } :: rest :=
  congrArg Port.beats (Hw.port_setPort_same ..)

section

variable {port : PortIx} {data : List Byte} {par mask : BitVec 128} {psn : BitVec 2} {last : Bool} {s : State}

/-- A beat that no header asked for: ERROR. -/
theorem execDataBeat_unasked (hs : s.hw.reg Od.portState port.val = 1) (hb : (s.hw.port port.val).beats = []) :
    execDataBeat port data par mask psn last s = .next { s with hw := (s.hw.portError port.val).pumpIngress port.val } := by
  unfold execDataBeat
  rw [State.on]
  dsimp only
  rw [if_neg (not_not.2 hs), hb]

variable {b : BeatWait} {rest : List BeatWait}

/-- A beat of a header that was discarded. -/
theorem execDataBeat_discards (hs : s.hw.reg Od.portState port.val = 1) (hb : (s.hw.port port.val).beats = b :: rest)
    (hd : s.hw.dataHeld port.val < 4096) (hl : last = decide (b.left ≤ 1)) (hu : b.uid = none) :
    execDataBeat port data par mask psn last s = .next { s with hw := s.hw.takeBeat port.val b rest } := by
  obtain ⟨u, left⟩ := b
  obtain rfl : u = none := hu
  unfold execDataBeat
  rw [State.on]
  dsimp only
  rw [if_neg (not_not.2 hs), hb]
  dsimp only
  rw [if_neg (not_or.2 ⟨Nat.not_le.2 hd, not_not.2 hl⟩)]
  rfl

/-- A beat of a request, not its last. -/
theorem execDataBeat_joins {uid : Nat} (hs : s.hw.reg Od.portState port.val = 1) (hb : (s.hw.port port.val).beats = b :: rest)
    (hd : s.hw.dataHeld port.val < 4096) (hl : last = false) (hleft : 1 < b.left) (hu : b.uid = some uid) :
    execDataBeat port data par mask psn last s = .next { s with hw := (s.hw.takeBeat port.val b rest).modRq port.val uid (fun r =>
      r.addBeat data ((List.range 128).map mask.getLsbD) [psn.getLsbD 0, psn.getLsbD 1] (!beatParityOk data par)) } := by
  obtain ⟨u, left⟩ := b
  obtain rfl : u = some uid := hu
  have hmore : ¬ left ≤ 1 := Nat.not_le.2 hleft
  unfold execDataBeat
  rw [State.on]
  dsimp only
  rw [if_neg (not_not.2 hs), hb]
  dsimp only
  rw [if_neg (not_or.2 ⟨Nat.not_le.2 hd, not_not.2 (by rw [hl, decide_eq_false hmore])⟩)]
  exact congrArg (fun k => Host.Outcome.next { s with hw := k }) (if_neg hmore)

end

/-- Settles O20, one case of the two rows after another. -/
theorem headersAndBeats : Obligations.HeadersAndBeats := by
  intro port header parity s n r errored
  have herr (a : Hw) (wa : s.hw.Within portErrorMask a) (hs : a.reg Od.portState n = 1) (hi : (a.port n).ingress = []) :
      ((a.portError n).pumpIngress n).reg Od.portState n = 2 ∧ errored ((a.portError n).pumpIngress n) := by
    obtain ⟨hst, w⟩ := Hw.portError_errored a n hs hi
    exact ⟨hst, (wa.trans w).portErrored⟩
  refine ⟨fun hpar hop hw => ?_, fun hpar hop hq hp hr => ?_, fun hpar hs hi => ?_, fun h8 h15 hpar hop hs => ?_,
    fun data par mask psn last hs => ⟨fun hb hi => ?_, fun b rest hb hu hd hl => ?_, fun b rest uid t hb hu ht hleft hl hd => ?_⟩⟩
  · have hbeats : r.beats = 0 := by
      rw [Rq.beats, hop]
      rfl
    have hr : s.hw.routable r (dpaStack r.addr) :=
      ⟨rfl, rfl, ⟨rfl, rfl, fun h => absurd h (by rw [hop]; decide)⟩, rfl, .inl (by rw [hop]; decide)⟩
    obtain ⟨⟨hs, -⟩, -⟩ := id hw
    refine .of_eq (execRequestHeader_good hs hpar) ?_ (Hw.headerIn_routable hw hr).1
    exact congrArg s.hw.headerIn (show { r with beatsLeft := r.beats } = r by rw [hbeats]; rfl)
  · have hbeats : r.beats ≠ 0 := Rq.beats_ne_zero r (by rcases hop with hop | hop <;> rw [hop] <;> decide)
    obtain ⟨hs, -⟩ := id hq
    obtain ⟨t, ht, hrq, -, hph⟩ := Hw.admitted_trk s.hw { r with beatsLeft := r.beats }
    refine .of_eq (execRequestHeader_good hs hpar) (Hw.headerIn_waitsData s.hw { r with beatsLeft := r.beats } hbeats hop hq hp hr)
      ⟨⟨t, ht, hrq, hph⟩, ?_, (Hw.admitted_within ..).changesOnly _ _ (by decide) (by decide)⟩
    refine (congrArg Port.beats (Hw.admitted_port s.hw { r with beatsLeft := r.beats })).trans ?_
    exact congrArg ((s.hw.port n).beats ++ ·) (if_neg hbeats)
  · have w := Hw.addReg_within s.hw Od.portHdrParity n 1
    exact ⟨_, execRequestHeader_fatal hs hpar, herr _ (w.step (by decide) (Hw.Within.refl _ _)) ((w.reg _ _ (by decide)).trans hs) hi⟩
  · refine ⟨_, execRequestHeader_discards hs h8 h15 hpar hop, rfl, ?_, congrArg Port.beats (Hw.port_setPort_same ..),
      Hw.reg_addReg_same ..⟩
    exact (Hw.Within.step (Hw.setPort_within ..) (by decide) (Hw.Within.step (m := 162259276829213363391578010292228)
      (Hw.addReg_within ..) (by decide) (Hw.Within.refl _ _))).changesOnly _ _ (by decide) (by decide)
  · exact ⟨_, execDataBeat_unasked hs hb, herr s.hw (Hw.Within.refl _ _) hs hi⟩
  · exact ⟨_, execDataBeat_discards hs hb hd hl hu, rfl, Hw.takeBeat_beats ..⟩
  · obtain ⟨p, hp, heq⟩ := Hw.modRq_eq (s.hw.takeBeat n b rest) n uid t
      (fun r => r.addBeat data ((List.range 128).map mask.getLsbD) [psn.getLsbD 0, psn.getLsbD 1] (!beatParityOk data par)) ht
    refine .of_eq (execDataBeat_joins hs hb hd hl hleft hu) heq ⟨rfl, Hw.trk_setTrk_same .., ?_⟩
    refine (congrArg Port.beats (Hw.port_setPort_same _ n p)).trans (hp.trans ((Hw.takeBeat_beats ..).trans ?_))
    rw [if_neg (Nat.not_le.2 hleft)]

end Sys2Proof.Machine
end

section
/-! What waits at a port (R57, R60, R61, R63): deferred, held, refused, ready, and timed out. -/

namespace Sys2Proof.Machine

/-! ### Deferred and held requests -/

theorem Hw.noteBlock_req (h : Hw) (n : Nat) : (h.noteBlock n).req = { h.req with ports := (h.noteBlock n).req.ports } := by
  unfold Hw.noteBlock
  dsimp only
  split <;> rfl

/-- The end of a port's blocked time leaves what the port holds back. -/
theorem Hw.noteBlock_waiting (h : Hw) (n : Nat) : ((h.noteBlock n).port n).deferred = (h.port n).deferred ∧
    ((h.noteBlock n).port n).held = (h.port n).held := by
  have hset (t : Option Nat) : (((h.setPort n { h.port n with blockedSince := t }).port n).deferred = (h.port n).deferred ∧
      ((h.setPort n { h.port n with blockedSince := t }).port n).held = (h.port n).held) := by
    rw [Hw.port_setPort_same]
    exact ⟨rfl, rfl⟩
  unfold Hw.noteBlock
  dsimp only
  split
  · exact hset _
  · exact hset _
  · exact ⟨rfl, rfl⟩

/-- A request that a port lets go on, with data beats still to come, once a tracker entry is free: it takes the entry. -/
theorem Hw.allocTrk_waiting (h : Hw) (n : Nat) (r : Rq) (hi : (h.port n).ingress = []) (hb : r.beatsLeft ≠ 0) :
    (h.allocTrk r).pumpIngress n = (h.takeTrk r).noteBlock n := by
  rw [Hw.allocTrk_eq, if_neg hb]
  exact Hw.pumpIngress_empty _ _ hi

theorem Hw.takeTrk_noteBlock_trk (h : Hw) (n : Nat) (r : Rq) : ∃ t, ((h.takeTrk r).noteBlock n).trk r.uid = some t ∧
    t.phase = .waitData ∧ t.rq.requester = r.requester ∧ t.rq.tag = r.tag := by
  refine ⟨h.newTrk r, ?_, rfl, rfl, rfl⟩
  rw [Hw.trk, Hw.noteBlock_req]
  exact Hw.takeTrk_trk h r

theorem Hw.takeTrk_noteBlock_inflight (h : Hw) (n : Nat) (r : Rq) : ((h.takeTrk r).noteBlock n).reg Od.reqInflight r.requester =
    (h.reg Od.reqInflight r.requester + 1) % 2 ^ Od.reqInflight.width :=
  ((Hw.noteBlock_within ..).reg _ _ (by decide)).trans (Hw.takeTrk_inflight h r)

section

variable {port : PortIx} {s : State}

/-- The first deferred request below its requester's limit takes a tracker entry. -/
theorem deferredRelease_leads {r : Rq}
    (hf : (s.hw.port port.val).deferred.find? (fun r =>
      decide (s.hw.reg Od.reqInflight r.requester < s.hw.reg Od.reqLimit r.requester)) = some r)
    (hfree : s.hw.trkFree = true) (hi : (s.hw.port port.val).ingress = []) (hb : r.beatsLeft ≠ 0) :
    Leads (.deferredRelease port) s (fun h =>
      (∃ t, h.trk r.uid = some t ∧ t.phase = .waitData ∧ t.rq.requester = r.requester ∧ t.rq.tag = r.tag) ∧
      (h.port port.val).deferred = (s.hw.port port.val).deferred.erase r ∧
      s.hw.ChangesOnly [.lfsr, .requests] [Od.portDeferred, Od.reqInflight, Od.portBlockedNs] h ∧
      h.reg Od.reqInflight r.requester = (s.hw.reg Od.reqInflight r.requester + 1) % 2 ^ Od.reqInflight.width) := by
  let rest := (s.hw.port port.val).deferred.erase r
  let x := (s.hw.setPort port.val { s.hw.port port.val with deferred := rest }).setReg Od.portDeferred port.val rest.length
  have hport : x.port port.val = { s.hw.port port.val with deferred := rest } := Hw.port_setPort_same ..
  have w : s.hw.Within 121734071703167154712480279695620 x := Hw.Within.step (Hw.setReg_within ..) (by decide)
    (Hw.Within.step (Hw.setPort_within ..) (by decide) (Hw.Within.refl _ _))
  have hin : x.reg Od.reqInflight r.requester = s.hw.reg Od.reqInflight r.requester :=
    Hw.reg_setReg_ne _ _ _ _ _ _ (by decide) (by decide) (by decide)
  have wt : s.hw.Within 121734071703167154712480279695620 ((x.takeTrk r).noteBlock port.val) :=
    Hw.Within.step (Hw.noteBlock_within ..) (by decide) (Hw.Within.step (Hw.takeTrk_within ..) (by decide) w)
  have hexec : execDeferredRelease port s = .next { s with hw := (x.allocTrk r).pumpIngress port.val } := by
    unfold execDeferredRelease
    rw [State.on]
    dsimp only
    rw [hf]
    dsimp only
    rw [if_pos hfree]
  refine .of_eq hexec (Hw.allocTrk_waiting x port.val r ((congrArg Port.ingress hport).trans hi) hb)
    ⟨Hw.takeTrk_noteBlock_trk .., ?_, wt.changesOnly _ _ (by decide) (by decide), ?_⟩
  · exact (Hw.noteBlock_waiting ..).1.trans (congrArg Port.deferred hport)
  · rw [← hin]
    exact Hw.takeTrk_noteBlock_inflight ..

/-- A held header takes a tracker entry. -/
theorem heldIngressAdmit_leads {r : Rq} (hh : (s.hw.port port.val).held = some r) (hfree : s.hw.trkFree = true)
    (hi : (s.hw.port port.val).ingress = []) (hb : r.beatsLeft ≠ 0) :
    Leads (.heldIngressAdmit port) s (fun h => (h.port port.val).held = none ∧
      (∃ t, h.trk r.uid = some t ∧ t.phase = .waitData ∧ t.rq.requester = r.requester ∧ t.rq.tag = r.tag) ∧
      s.hw.ChangesOnly [.lfsr, .requests] [Od.reqInflight, Od.portBlockedNs] h ∧
      h.reg Od.reqInflight r.requester = (s.hw.reg Od.reqInflight r.requester + 1) % 2 ^ Od.reqInflight.width) := by
  let x := s.hw.setPort port.val { s.hw.port port.val with held := none }
  have hport : x.port port.val = { s.hw.port port.val with held := none } := Hw.port_setPort_same ..
  have wt : s.hw.Within 40604433288560473016691274551556 ((x.takeTrk r).noteBlock port.val) :=
    Hw.Within.step (Hw.noteBlock_within ..) (by decide) (Hw.Within.step (Hw.takeTrk_within ..) (by decide)
      (Hw.Within.step (Hw.setPort_within ..) (by decide) (Hw.Within.refl _ _)))
  have hexec : execHeldIngressAdmit port s = .next { s with hw := (x.allocTrk r).pumpIngress port.val } := by
    unfold execHeldIngressAdmit
    rw [State.on]
    dsimp only
    rw [hh]
    dsimp only
    rw [if_pos hfree]
  exact .of_eq hexec (Hw.allocTrk_waiting x port.val r ((congrArg Port.ingress hport).trans hi) hb)
    ⟨(Hw.noteBlock_waiting ..).2.trans (congrArg Port.held hport), Hw.takeTrk_noteBlock_trk ..,
      wt.changesOnly _ _ (by decide) (by decide), Hw.takeTrk_noteBlock_inflight ..⟩

/-! ### Egress -/

/-- A DENIED that is due joins egress. -/
theorem deniedDue_leads {t : Nat} {u : OutUnit} {rest : List (Nat × OutUnit)} (hr : (s.hw.port port.val).refusals = (t, u) :: rest)
    (ht : t ≤ s.hw.now) (hp : s.hw.reg Od.pairState ≠ 6) :
    Leads (.deniedDue port) s (fun h => (h.port port.val).refusals = rest ∧
      (h.port port.val).ready = (s.hw.port port.val).ready ++ [{ u with ready := s.hw.now }] ∧
      h.reg Od.portRefusalLine port.val = rest.length % 2 ^ Od.portRefusalLine.width) := by
  let x := (s.hw.setPort port.val { s.hw.port port.val with refusals := rest }).setReg Od.portRefusalLine port.val rest.length
  have hport : x.port port.val = { s.hw.port port.val with refusals := rest } := Hw.port_setPort_same ..
  have hpair : x.reg Od.pairState = s.hw.reg Od.pairState := Hw.reg_setReg_ne _ _ _ _ _ _ (by decide) (by decide) (by decide)
  have hexec : execDeniedDue port s = .next { s with hw := x.emit port.val u } := by
    unfold execDeniedDue
    rw [State.on]
    dsimp only
    rw [hr]
    dsimp only
    rw [if_pos ht]
  have hemit : x.emit port.val u =
      x.setPort port.val { x.port port.val with ready := (x.port port.val).ready ++ [{ u with ready := x.now }] } := by
    rw [Hw.emit, hpair, if_neg hp]
  refine .of_eq hexec hemit ⟨?_, ?_, Hw.reg_setReg_same ..⟩
  · exact (congrArg Port.refusals (Hw.port_setPort_same ..)).trans (congrArg Port.refusals hport)
  · exact (congrArg Port.ready (Hw.port_setPort_same ..)).trans
      (congrArg (fun p : Port => p.ready ++ [{ u with ready := s.hw.now }]) hport)

/-- Egress takes the next unit. -/
theorem egressPick_leads {u : OutUnit} (hs : (s.hw.port port.val).sending = none) (hst : s.hw.reg Od.portState port.val = 1)
    (hu : s.hw.egressNext port.val = some u) (hw : u.wm = none) :
    Leads (.egressPick port) s (fun h => (h.port port.val).sending = some u ∧
      (h.port port.val).ready = (s.hw.port port.val).ready.erase u) := by
  refine ⟨_, rfl, ?_⟩
  dsimp only
  rw [hs, if_neg (by simp [hst]), hu]
  dsimp only
  rw [hw, Hw.port_setPort_same]
  exact ⟨rfl, rfl⟩

/-! ### The last beat of a response -/

theorem Hw.point_trk (h : Hw) (uid k : Nat) (f : Sample → Sample) (t : Tracker) (ht : h.trk uid = some t) :
    ∃ u, (h.point uid k f).trk uid = some u ∧ u.rq = t.rq := by
  rw [Hw.point, ht]
  dsimp only
  split
  · exact ⟨_, Hw.trk_setTrk_same .., rfl⟩
  · exact ⟨t, ht, rfl⟩

theorem Hw.point_ports (h : Hw) (uid k : Nat) (f : Sample → Sample) : (h.point uid k f).req.ports = h.req.ports := by
  unfold Hw.point
  split
  · split <;> rfl
  · rfl

/-- The tracker entry of a request ends: it is gone, and its requester has one fewer in flight. -/
theorem Hw.releaseTrk_ends (h : Hw) (uid : Nat) (t : Tracker) (ht : h.trk uid = some t) (h9 : t.rq.op ≠ 9) :
    (h.releaseTrk uid).trk uid = none ∧ (h.releaseTrk uid).reg Od.reqInflight t.rq.requester =
      (h.reg Od.reqInflight t.rq.requester - 1) % 2 ^ Od.reqInflight.width := by
  have hw : (h.writeSample t).reg Od.reqInflight t.rq.requester = h.reg Od.reqInflight t.rq.requester :=
    (Hw.writeSample_within ..).reg _ _ (by decide)
  rw [Hw.releaseTrk, ht]
  dsimp only
  rw [if_neg h9, Hw.trk_of_req (Hw.noteGate_req ..), (Hw.noteGate_within ..).reg _ _ (by decide), ← hw]
  exact ⟨Table.look_del_same _ _, Hw.reg_setReg_same ..⟩

/-- The last beat of a response leaves, and its tracker entry ends. -/
theorem responseLastBeat_leads {u : OutUnit} {uid : Nat} {t : Tracker} (hs : (s.hw.port port.val).sending = some u)
    (hu : u.trk = some uid) (ht : s.hw.trk uid = some t) (h9 : t.rq.op ≠ 9) (hop : u.op ≠ 0x10) :
    Leads (.responseLastBeat port) s (fun h => (h.port port.val).sending = none ∧ h.trk uid = none ∧
      h.reg Od.reqInflight t.rq.requester = (s.hw.reg Od.reqInflight t.rq.requester - 1) % 2 ^ Od.reqInflight.width) := by
  let x := s.hw.setPort port.val { s.hw.port port.val with sending := none }
  have hexec : execResponseLastBeat port s = .next { s with hw := (x.point uid 9).releaseTrk uid } := by
    unfold execResponseLastBeat
    rw [State.on]
    dsimp only
    rw [hs]
    dsimp only
    rw [hu, if_neg hop]
  obtain ⟨v, hv, hrq⟩ := Hw.point_trk x uid 9 id t ht
  obtain ⟨hgone, hin⟩ := Hw.releaseTrk_ends _ uid v hv (hrq ▸ h9)
  refine ⟨_, hexec, ?_, hgone, ?_⟩
  · rw [Hw.port_of_ports ((Hw.releaseTrk_ports ..).trans (Hw.point_ports ..)), Hw.port_setPort_same]
  · rw [hrq, (Hw.point_within ..).reg _ _ (by decide)] at hin
    exact hin

/-! ### A request that times out -/

/-- A request that timed out no longer waits where it waited (R63). -/
def Hw.stopWaiting (h : Hw) (uid : Nat) (t : Tracker) : Hw :=
  match t.phase with
  | .waitData => h.dropBeats t.rq.port uid
  | .queued => h.unqueueArb uid
  | .parked =>
    let n := t.rq.ext / 4096 % 256
    let rest := (h.ses n).parked.filter (fun u => u != uid)
    (h.setSes n { h.ses n with parked := rest }).setReg Od.redParked n rest.length
  | .forwarded | .held =>
    let s := t.stack.getD 0
    { h.sendQanat s true Fk.control 4 (natBytes (uid % 65536) 2) with sl.cancels := h.sl.cancels ++ [uid] }
  | _ => h

theorem Hw.timeoutTrk_eq (h : Hw) (uid : Nat) (t : Tracker) : h.timeoutTrk uid t = (h.stopWaiting uid t).complete uid St.timeout := by
  unfold Hw.timeoutTrk Hw.stopWaiting
  cases t.phase <;> rfl

theorem Hw.stopWaiting_trackers (h : Hw) (uid : Nat) (t : Tracker) : (h.stopWaiting uid t).req.trackers = h.req.trackers := by
  have hq (s : Nat) : (h.sendQanat s true Fk.control 4 (natBytes (uid % 65536) 2)).req = h.req :=
    (Hw.sendQanat_within ..).same .requests (by decide)
  unfold Hw.stopWaiting
  cases t.phase with
  | forwarded => exact congrArg ReqSt.trackers (hq _)
  | held => exact congrArg ReqSt.trackers (hq _)
  | _ => rfl

theorem Hw.stopWaiting_within (h : Hw) (uid : Nat) (t : Tracker) :
    h.Within 474284397516047136454946754595585670566993857190463750305618264096412179005323268 (h.stopWaiting uid t) := by
  have hcancel (s : Nat) : h.Within 474284397516047136454946754595585670566993857190463750305618264096412179005323268
      { h.sendQanat s true Fk.control 4 (natBytes (uid % 65536) 2) with sl.cancels := h.sl.cancels ++ [uid] } :=
    Hw.Within.step (Hw.putSl_within ..) (by decide) (Hw.Within.step (Hw.sendQanat_within ..) (by decide) (Hw.Within.refl _ _))
  unfold Hw.stopWaiting
  cases t.phase with
  | waitData => exact Hw.Within.step (Hw.dropBeats_within ..) (by decide) (Hw.Within.refl _ _)
  | queued => exact Hw.Within.step (Hw.unqueueArb_within ..) (by decide) (Hw.Within.refl _ _)
  | parked =>
    refine Hw.Within.step (Hw.setReg_within ..) (by decide) ?_
    exact Hw.Within.step (Hw.setSes_within ..) (by decide) (Hw.Within.refl _ _)
  | forwarded => exact hcancel _
  | held => exact hcancel _
  | _ => exact Hw.Within.refl _ _

theorem Hw.emit_trackers (h : Hw) (n : Nat) (u : OutUnit) : (h.emit n u).req.trackers = h.req.trackers := by
  unfold Hw.emit
  split <;> rfl

/-- A request whose response is not discarded is answered. -/
theorem Hw.answer_trk (h : Hw) (uid st : Nat) (d : List Byte) (psn : List Bool) (t : Tracker) (ht : h.trk uid = some t)
    (hph : t.phase ≠ .responding) (hd : h.discards t = false) :
    (h.answer uid st d psn).trk uid = some { t with phase := .responding, status := st } := by
  have hdisc : (h.setTrk uid { t with status := st, phase := .responding }).discards { t with status := st, phase := .responding } =
    false := hd
  rw [Hw.answer, ht]
  dsimp only
  rw [if_neg hph, if_neg (by rw [hdisc]; decide), Hw.trk, Hw.emit_trackers]
  split <;> exact Table.look_put_same _ _ _

theorem Hw.winDone_trackers (h : Hw) (r n st : Nat) : (h.winDone r n st).req.trackers = h.req.trackers := by
  unfold Hw.winDone
  split <;> rfl

theorem Hw.winDone_reg (h : Hw) (r n st : Nat) (q : Reg) (i : Nat) : (h.winDone r n st).reg q i = h.reg q i := by
  unfold Hw.winDone
  split <;> rfl

/-- With no repeats waiting, the outcome of an original changes nothing but its place in the window. -/
theorem Hw.settleWin_alone (h : Hw) (r : Rq) (st : Nat) (hr : ∀ e ∈ h.req.trackers, e.2.phase ≠ .waitOriginal) :
    h.settleWin r st = h ∨ ∃ n, h.settleWin r st = h.winDone r.requester n st := by
  unfold Hw.settleWin
  split
  · next n _ =>
    split
    · exact .inl rfl
    · have hnone : (h.winDone r.requester n st).repeatsOf r.requester n r.epoch = [] := by
        rw [Hw.repeatsOf, Hw.winDone_trackers]
        exact List.filterMap_eq_nil_iff.2 (fun e he => if_neg (fun c => hr e he c.1))
      refine .inr ⟨n, ?_⟩
      dsimp only
      rw [hnone]
      rfl
  · exact .inl rfl

theorem Hw.settleWin_alone_reads (h : Hw) (r : Rq) (st : Nat) (hr : ∀ e ∈ h.req.trackers, e.2.phase ≠ .waitOriginal) :
    (h.settleWin r st).req.trackers = h.req.trackers ∧ ∀ q i, (h.settleWin r st).reg q i = h.reg q i := by
  rcases Hw.settleWin_alone h r st hr with he | ⟨n, he⟩ <;> rw [he]
  · exact ⟨rfl, fun _ _ => rfl⟩
  · exact ⟨Hw.winDone_trackers .., Hw.winDone_reg h r.requester n st⟩

theorem Hw.trk_of_trackers {a b : Hw} (h : b.req.trackers = a.req.trackers) (uid : Nat) : b.trk uid = a.trk uid := by
  unfold Hw.trk; rw [h]

/-- Is a response discarded: the requester's epoch and the port's state decide. -/
theorem Hw.discards_of {a b : Hw} (he : ∀ i, b.reg Od.reqEpoch i = a.reg Od.reqEpoch i)
    (hp : ∀ i, b.reg Od.portState i = a.reg Od.portState i) (t : Tracker) : b.discards t = a.discards t := by
  rw [Hw.discards, he, hp, Hw.discards]

/-- A request with no repeats waiting that times out, its response not discarded, is answered TIMEOUT. -/
theorem Hw.timeoutTrk_trk (h : Hw) (uid : Nat) (t : Tracker) (ht : h.trk uid = some t) (hph : t.phase ≠ .responding)
    (h9 : t.rq.op ≠ 9) (hd : h.discards t = false) (hr : ∀ e ∈ h.req.trackers, e.2.phase ≠ .waitOriginal) :
    (h.timeoutTrk uid t).trk uid = some { t with phase := .responding, status := St.timeout } := by
  have htrk := Hw.stopWaiting_trackers h uid t
  have hx : (h.stopWaiting uid t).trk uid = some t := (Hw.trk_of_trackers htrk uid).trans ht
  have w := Hw.stopWaiting_within h uid t
  obtain ⟨hset, hreg⟩ := Hw.settleWin_alone_reads (h.stopWaiting uid t) t.rq St.timeout (htrk ▸ hr)
  rw [Hw.timeoutTrk_eq, Hw.complete, hx]
  dsimp only
  rw [if_neg (not_or.2 ⟨hph, h9⟩)]
  refine Hw.answer_trk _ _ _ _ _ t ((Hw.trk_of_trackers hset uid).trans hx) hph ((Hw.discards_of (fun i => ?_) (fun i => ?_) t).trans hd)
  · exact (hreg ..).trans (w.reg _ _ (by decide))
  · exact (hreg ..).trans (w.reg _ _ (by decide))

end

/-- Settles O21, one row after another. -/
theorem portWaits : Obligations.PortWaits := by
  intro port s n
  refine ⟨fun r hf hfree hi hb => deferredRelease_leads hf hfree hi hb, fun r hh hfree hi hb => heldIngressAdmit_leads hh hfree hi hb,
    fun t u rest hr ht hp => deniedDue_leads hr ht hp, fun u hs hst hu hw => egressPick_leads hs hst hu hw,
    fun u uid t hs hu ht h9 hop => responseLastBeat_leads hs hu ht h9 hop, fun uid t ht hph h9 htime hd hr => ?_⟩
  have hexec : execRequestTimeout uid s = .next { s with hw := s.hw.timeoutTrk uid t } := by
    unfold execRequestTimeout
    rw [State.on]
    rw [ht]
    dsimp only
    rw [if_pos ⟨hph, h9, htime⟩]
  exact ⟨_, hexec, Hw.timeoutTrk_trk s.hw uid t ht hph h9 hd hr, (Hw.timeoutTrk_within ..).changesOnly _ _ (by decide) (by decide)⟩

end Sys2Proof.Machine
end

section
/-! A slice's input (R63, R74, R82, R145, R147): a BIRSP on its way to it, what its oldest piece becomes, and what is cancelled. -/

namespace Sys2Proof.Machine

/-! ### A BIRSP at its stack ingress -/

/-- The tracker entry of a BIRSP, which waits at the stack that its snoop ID names. -/
def Hw.birspTrk (h : Hw) (r : Rq) : Tracker :=
  { rq := r, cls := h.classOf r, stack := some (r.tag / 4096), part := h.partOf (r.tag / 4096), phase := .queued }

/-- A BIRSP of an existing stack queues up there, with no place among its requester's requests. -/
theorem Hw.admission_birsp (h : Hw) (r : Rq) (h9 : r.op = 9) (hform : h.formed r = true) (hfen : h.fenced = false)
    (hmap : h.unmapped r = false) (hex : h.exists (r.tag / 4096) = true) :
    h.admission r = (h.setTrk r.uid (h.birspTrk r)).enqueueArb r.uid (r.tag / 4096) r.port (h.classOf r) := by
  rw [Hw.admission, hform, hfen, hmap, if_neg (by decide), if_neg (by decide), if_neg (by decide), if_pos h9, Hw.admitBirsp, if_pos hex]
  rfl

/-- The block once BIRSP `r`, which came in on its quiet port, waits at its stack ingress. -/
def Hw.birspQueued (h : Hw) (r : Rq) : Hw :=
  ((h.enter r).setTrk r.uid (h.birspTrk { r with start := h.now })).enqueueArb r.uid (r.tag / 4096) r.port (h.classOf r)

section

variable (h : Hw) (r : Rq)

theorem Hw.birspQueued_within : h.Within
    1231312693637327475383720003129487931408741852202045208373384168882678805359287831606695820465153613775207124701188
    (h.birspQueued r) := by
  refine Hw.Within.step (Hw.enqueueArb_within ..) (by decide) ?_
  refine Hw.Within.step (Hw.setTrk_within ..) (by decide) ?_
  exact Hw.Within.step (Hw.enter_within ..) (by decide) (Hw.Within.refl _ _)

theorem Hw.birspQueued_trk : (h.birspQueued r).trk r.uid = some (h.birspTrk { r with start := h.now }) :=
  Hw.trk_setTrk_same ..

theorem Hw.birspQueued_port : (h.birspQueued r).port r.port = h.portEntered r := Hw.enter_port h r

theorem Hw.birspQueued_arb : (h.birspQueued r).arb (r.tag / 4096) =
    let q := (h.arb (r.tag / 4096)).queues
    let key := r.port * 8 + h.classOf r
    { h.arb (r.tag / 4096) with queues := Table.put q key (Table.atD q (fun _ => []) key ++ [r.uid]) } := by
  rw [Hw.birspQueued, Hw.enqueueArb_arb]
  have ha (t : Tracker) : ((h.enter r).setTrk r.uid t).arb (r.tag / 4096) = h.arb (r.tag / 4096) := Hw.enter_arb h r _
  rw [ha]

theorem Hw.headerIn_birsp (hq : h.portQuiet r.port) (hb : r.beatsLeft = 0) (h9 : r.op = 9) (hform : h.formed r = true)
    (hfen : h.fenced = false) (hmap : h.unmapped r = false) (hex : h.exists (r.tag / 4096) = true) :
    h.headerIn r = h.birspQueued r := by
  have w := Hw.enter_admitWithin h r
  have hadm := Hw.admission_birsp (h.enter r) { r with start := h.now } h9 ((Hw.formed_other r (by rw [h9]; decide) _ _).trans hform)
    (w.admit_fenced.trans hfen) ((w.admit_unmapped r).trans hmap) ((w.exists (by decide) _).trans hex)
  rw [Hw.birspTrk, w.admit_classOf, w.partOf (by decide) (by decide)] at hadm
  rw [Hw.headerIn_quiet h r hq (by simp [Rq.testable, hb]), hadm]
  change (h.birspQueued r).noteBlock r.port = _
  obtain ⟨-, -, hheld, hdef, hblk⟩ := hq
  have hport := Hw.birspQueued_port h r
  exact Hw.noteBlock_idle _ _ ((congrArg Port.held hport).trans hheld) ((congrArg Port.deferred hport).trans hdef)
    ((congrArg Port.blockedSince hport).trans hblk)

end

section

variable {x : Hdr} {kind : BitVec 4} {addr : BitVec 41} {s : State}

/-- A BIRSP that comes in behind a grant that is decided, with a slice's input that is empty or holds several pieces. -/
theorem execBirsp_behind (r : Rq) (hr : r = s.hw.typed x 9 0 kind.toNat 0 addr.toNat) (hq : s.hw.portQuiet r.port)
    (hd : s.hw.dataHeld r.port ≤ 4096) (hform : s.hw.formed r = true) (hfen : s.hw.fenced = false) (hmap : s.hw.unmapped r = false)
    (hex : s.hw.exists (r.tag / 4096) = true) (hn : (s.hw.arb (r.tag / 4096)).next.isSome = true)
    (hin : (s.hw.inbox (r.tag / 4096)).length ≠ 1) :
    execBirsp x kind addr s = .next { s with hw := s.hw.birspQueued r } := by
  have h9 : r.op = 9 := by rw [hr]; rfl
  have hb : r.beats = 0 := by rw [Rq.beats, h9]; rfl
  have htag : x.tag.toNat / 4096 = r.tag / 4096 := by rw [hr]; rfl
  have huid : r.uid = s.hw.req.uidNext := by rw [hr]; rfl
  have harr : s.hw.arrive r = s.hw.birspQueued r := by
    rw [Hw.arrive_fits s.hw r [] [] [] (by omega), if_pos hb]
    exact Hw.headerIn_birsp s.hw r hq (by rw [hr]; rfl) h9 hform hfen hmap hex
  have hpass : (s.hw.birspQueued r).passIdle r.uid = s.hw.birspQueued r :=
    Hw.passIdle_behind _ _ _ (Hw.birspQueued_trk s.hw r) ((congrArg (fun a : Arb => a.next.isSome) (Hw.birspQueued_arb ..)).trans hn)
  have hsl : (s.hw.birspQueued r).sl = s.hw.sl := (Hw.birspQueued_within ..).same .slices (by decide)
  unfold execBirsp
  rw [State.on]
  dsimp only
  rw [← hr, harr, ← huid, hpass, htag, Hw.inbox, hsl, if_neg (fun c => hin c.1)]

end

end Sys2Proof.Machine
end

section
/-! The oldest piece at a slice's input: to the directory, or cut into queue entries (R74, R82, R145, R147). -/

namespace Sys2Proof.Machine

/-- A mark in a request's sample changes nothing but the group of ports and requests. -/
theorem Hw.point_eq (h : Hw) (uid k : Nat) (f : Sample → Sample) : ∃ q, h.point uid k f = { h with req := q } := by
  unfold Hw.point
  split
  · split
    · exact ⟨_, rfl⟩
    · exact ⟨h.req, rfl⟩
  · exact ⟨h.req, rfl⟩

/-! ### Queue entries in staging order -/

/-- The mask of what placing a queue entry changes: the slices, and the counts of the fixed events. -/
def stageMask : Nat :=
  1404466041180076651609555628569572171763096175167957815800891317631805512362937682926387420218065840712345626615812

section

variable {a b : Hw} (w : a.Within stageMask b)
include w

theorem Hw.Within.stage_coord (s p : Nat) : b.coord s p = a.coord s p := by
  unfold Hw.coord Hw.grainLog Hw.sids
  simp (disch := decide) only [w.reg, w.partOf]

theorem Hw.Within.stage_lostAt (s p : Nat) : b.lostAt s p = a.lostAt s p := by
  unfold Hw.lostAt
  simp (disch := decide) only [w.reg, w.failed]

end

theorem Hw.countFix_sl (h : Hw) (g e n : Nat) : (h.countFix g e n).sl = h.sl := (Hw.countFix_within ..).same .slices (by decide)

theorem Hw.pushStage_sl (h : Hw) (s : Nat) (x : QEntry) :
    (h.pushStage s x).sl = { h.sl with stage := Table.setD h.sl.stage (fun _ => []) s (h.stage s ++ [x]) } := by
  unfold Hw.pushStage
  dsimp only
  split
  · rfl
  · rw [Hw.setStage, Hw.stage, Hw.countFix_sl]
    rfl

theorem Hw.pushStage_length (h : Hw) (s : Nat) (x : QEntry) : ((h.pushStage s x).stage s).length = (h.stage s).length + 1 := by
  unfold Hw.stage
  rw [Hw.pushStage_sl, Table.atD_setD_same, List.length_append]
  rfl

theorem Hw.pushStage_inbox (h : Hw) (s t : Nat) (x : QEntry) : (h.pushStage s x).inbox t = h.inbox t := by
  unfold Hw.inbox
  rw [Hw.pushStage_sl]

/-- Sectors without bytes in the write-combining buffer are not forced out. -/
theorem Hw.forceOut_clean (h : Hw) (ks : List Nat) (cls : Nat) (hk : ∀ k ∈ ks, Table.look h.mem.wcb k = none) :
    h.forceOut ks cls = h := by
  refine List.foldlRecOn (motive := fun x : Hw => x = h) ks _ rfl (fun x hx k hm => ?_)
  subst hx
  rw [hk k hm, if_neg (by decide)]

/-- A row of a read that lies on a pseudo channel that is not lost, with no bytes buffered: one queue entry. -/
theorem Hw.placeRow_clean (h : Hw) (p : Piece) (phys lo len : Nat) (hl : h.lostAt p.stack (h.coord p.stack lo).pc = false)
    (hk : ∀ k ∈ sectorsOf p.stack lo len, Table.look h.mem.wcb k = none) :
    ∃ x, h.placeRow p phys lo len = h.pushStage p.stack x := by
  unfold Hw.placeRow
  dsimp only
  rw [hl, if_neg (by decide), Hw.forceOut_clean h _ _ hk]
  exact ⟨_, rfl⟩

/-- Where rows of a read may be placed at once. -/
def Hw.rowsClean (h : Hw) (s : Nat) (rows : List (Nat × Nat)) : Prop :=
  ∀ q, q ∈ rows → h.lostAt s (h.coord s q.1).pc = false ∧ ∀ k, k ∈ sectorsOf s q.1 q.2 → Table.look h.mem.wcb k = none

theorem Hw.Within.stage_rowsClean {a b : Hw} (w : a.Within stageMask b) {s : Nat} {rows : List (Nat × Nat)} (hr : a.rowsClean s rows) :
    b.rowsClean s rows := by
  intro q hq
  obtain ⟨hl, hk⟩ := hr q hq
  have hmem : b.mem = { a.mem with dram := b.mem.dram, fills := b.mem.fills, spare := b.mem.spare } := w.same .buffers (by decide)
  have hwcb : b.mem.wcb = a.mem.wcb := by rw [hmem]
  rw [w.stage_coord, w.stage_lostAt, hwcb]
  exact ⟨hl, hk⟩

/-- The rows of a read, each one queue entry. -/
theorem Hw.placeRows_clean (h : Hw) (p : Piece) (phys : Nat) (rows : List (Nat × Nat)) (hr : h.rowsClean p.stack rows) :
    let k := rows.foldl (fun h r => h.placeRow p phys r.1 r.2) h
    h.Within stageMask k ∧ (∀ t, k.inbox t = h.inbox t) ∧ (k.stage p.stack).length = (h.stage p.stack).length + rows.length := by
  induction rows generalizing h with
  | nil => exact ⟨Hw.Within.refl _ _, fun _ => rfl, rfl⟩
  | cons q rows ih =>
    obtain ⟨hl, hk⟩ := hr q List.mem_cons_self
    obtain ⟨x, hx⟩ := Hw.placeRow_clean h p phys q.1 q.2 hl hk
    have w := Hw.pushStage_within h p.stack x
    obtain ⟨hw, hin, hlen⟩ := ih (h.pushStage p.stack x) (Hw.Within.stage_rowsClean w (fun q hq => hr q (List.mem_cons_of_mem _ hq)))
    intro k
    have hkeq : k = rows.foldl (fun h r => h.placeRow p phys r.1 r.2) (h.pushStage p.stack x) := by rw [← hx]; rfl
    rw [hkeq]
    refine ⟨Hw.Within.trans w hw, fun t => (hin t).trans (Hw.pushStage_inbox ..), hlen.trans ?_⟩
    rw [Hw.pushStage_length, List.length_cons]
    omega

/-! ### The oldest piece -/

theorem Hw.inbox_setInbox_same (h : Hw) (s : Nat) (l : List Piece) : (h.setInbox s l).inbox s = l := by
  unfold Hw.inbox Hw.setInbox; exact Table.atD_setD_same h.sl.inbox (fun _ => []) s l

theorem Hw.dirIn_setDirIn_same (h : Hw) (s : Nat) (l : List Piece) : (h.setDirIn s l).dirIn s = l := by
  unfold Hw.dirIn Hw.setDirIn; exact Table.atD_setD_same h.coh.dirQ (fun _ => []) s l

section

variable {h : Hw} {stack : Nat} {p : Piece} {rest : List Piece} (hin : h.inbox stack = p :: rest)
  (hgo : h.degrading stack = false ∧ h.wcbFull p = false ∧ (h.stage stack).length < 4096)
include hin hgo

/-- The oldest piece leaves a slice's input that is not held up. -/
theorem Hw.sliceInput_takes : h.sliceInput stack =
    let x := h.setInbox stack rest
    if p.op = 9 then x.resolveBirsp p.trk p.requester p.dpa p.subop
    else if (x.point p.trk 3).coherent p.part then
      (x.point p.trk 3).setDirIn ((x.point p.trk 3).dirStack p.stack) ((x.point p.trk 3).dirIn ((x.point p.trk 3).dirStack p.stack) ++ [p])
    else (x.point p.trk 3).place p := by
  obtain ⟨hd, hw, hs⟩ := hgo
  rw [Hw.sliceInput, hin]
  dsimp only
  rw [if_neg (by simp [hd, hw, hs])]

/-- A piece of a coherent partition goes to the directory. -/
theorem Hw.sliceInput_coherent (h9 : p.op ≠ 9) (hc : h.coherent p.part = true) :
    (h.sliceInput stack).inbox stack = rest ∧
      (h.sliceInput stack).dirIn (h.dirStack p.stack) = h.dirIn (h.dirStack p.stack) ++ [p] := by
  obtain ⟨q, hq⟩ := Hw.point_eq (h.setInbox stack rest) p.trk 3 id
  have hc' : ({ h.setInbox stack rest with req := q } : Hw).coherent p.part = true := hc
  rw [Hw.sliceInput_takes hin hgo]
  dsimp only
  rw [if_neg h9, hq, if_pos hc']
  exact ⟨Hw.inbox_setInbox_same h stack rest, Hw.dirIn_setDirIn_same { h.setInbox stack rest with req := q } _ _⟩

/-- A BIRSP that no snoop waits for is discarded and counted. -/
theorem Hw.sliceInput_stale (h9 : p.op = 9) (hs : Table.look h.coh.snoops p.trk = none) :
    h.sliceInput stack = (h.setInbox stack rest).addReg Od.dirBirspStale (p.trk / 4096 % 16) := by
  have hs' : Table.look (h.setInbox stack rest).coh.snoops p.trk = none := hs
  rw [Hw.sliceInput_takes hin hgo]
  dsimp only
  rw [if_pos h9, Hw.resolveBirsp, hs']

/-- A read of a partition that is not coherent is cut into queue entries. -/
theorem Hw.sliceInput_read {t : Tracker} (h1 : p.op = 1) (hc : h.coherent p.part = false) (ht : h.trk p.trk = some t)
    (hh : h.isHeld p = false) (hret : h.retired p.dpa = false)
    (hr : h.rowsClean p.stack (h.cutRows p.stack (h.physical p.stack p.off) p.len)) :
    (h.sliceInput stack).inbox stack = rest ∧ ((h.sliceInput stack).stage p.stack).length =
        (h.stage p.stack).length + (h.cutRows p.stack (h.physical p.stack p.off) p.len).length ∧
      ∃ u, (h.sliceInput stack).trk p.trk = some u ∧ u.rq = t.rq ∧ u.piecesLeft = p.len / 32 := by
  obtain ⟨v, hv, hrq⟩ := Hw.point_trk (h.setInbox stack rest) p.trk 3 id t ht
  obtain ⟨q, hq⟩ := Hw.point_eq (h.setInbox stack rest) p.trk 3 id
  rw [hq] at hv
  let x : Hw := { h.setInbox stack rest with req := q }
  let u : Tracker := { v with poison := (List.range (p.len / 64)).map (fun i => p.bad.contains (p.off / 64 + i)), out := [],
                              piecesLeft := p.len / 32 }
  let y := x.setTrk p.trk u
  have hc' : x.coherent p.part = false := hc
  have hh' : x.isHeld p = false := hh
  have hret' : y.retired p.dpa = false := hret
  have htake : h.sliceInput stack = (h.cutRows p.stack (h.physical p.stack p.off) p.len).foldl
      (fun k r => k.placeRow p (h.physical p.stack p.off) r.1 r.2) y := by
    rw [Hw.sliceInput_takes hin hgo]
    dsimp only
    rw [if_neg (by rw [h1]; decide), hq, if_neg (by rw [hc']; decide), Hw.place, h1, Hw.placeOrHold, if_neg (by rw [hh']; decide),
      Hw.placeRead, hv]
    dsimp only
    rw [if_neg (by rw [hret']; decide)]
    rfl
  obtain ⟨w, hinbox, hlen⟩ := Hw.placeRows_clean y p (h.physical p.stack p.off) _ hr
  rw [htake]
  have htrk := (Hw.trk_of_req (w.same .requests (by decide)) p.trk).trans (Hw.trk_setTrk_same x p.trk u)
  exact ⟨(hinbox stack).trans (Hw.inbox_setInbox_same h stack rest), hlen, u, htrk, hrq, rfl⟩

end

/-! ### CANCEL (R63) -/

theorem Table.look_map {α β : Type} (t : Table α) (f : α → β) (k : Nat) :
    Table.look (t.map (fun e => (e.1, f e.2))) k = (Table.look t k).map f := by
  induction t with
  | nil => rfl
  | cons e t ih =>
    obtain ⟨j, v⟩ := e
    simp only [List.map_cons, Table.look]
    split
    · rfl
    · exact ih

/-- The lists of a table, each filtered. -/
theorem Table.atD_map_filter {α : Type} (t : Table (List α)) (f : α → Bool) (k : Nat) :
    Table.atD (t.map (fun e => (e.1, e.2.filter f))) (fun _ => []) k = (Table.atD t (fun _ => []) k).filter f := by
  rw [Table.atD, Table.look_map t (List.filter f) k, Table.atD]
  cases Table.look t k <;> rfl

theorem Hw.creditsBack_req (h : Hw) (p : Piece) : ∃ q, h.creditsBack p = { h with req := q } := by
  refine List.foldlRecOn (motive := fun x : Hw => ∃ q, x = { h with req := q }) _ _ ⟨h.req, rfl⟩ (fun x hx g _ => ?_)
  obtain ⟨q, rfl⟩ := hx
  exact ⟨_, rfl⟩

/-- The credits of pieces that are dropped come back, and nothing else changes. -/
theorem Hw.creditsBack_all (h : Hw) (l : List Piece) : ∃ q, l.foldl (fun h p => h.creditsBack p) h = { h with req := q } := by
  refine List.foldlRecOn (motive := fun x : Hw => ∃ q, x = { h with req := q }) _ _ ⟨h.req, rfl⟩ (fun x hx p _ => ?_)
  obtain ⟨q, rfl⟩ := hx
  exact Hw.creditsBack_req { h with req := q } p

/-- A piece that a CANCEL of request `uid` leaves where it is. -/
def Piece.spared (uid : Nat) (p : Piece) : Bool := p.trk != uid || p.op == 9

/-- The pieces that a CANCEL of request `uid` drops, whose credits come back. -/
def Hw.cancelledPieces (h : Hw) (uid : Nat) : List Piece :=
  (h.sl.inbox ++ h.coh.dirQ ++ h.coh.dirWait).flatMap (fun e => e.2.filter (fun p => !p.spared uid)) ++
    h.sl.holds.filter (fun p => !p.spared uid)

/-- The lists of a table without the pieces of request `uid`. -/
def stripPieces (uid : Nat) (t : Table (List Piece)) : Table (List Piece) := t.map (fun e => (e.1, e.2.filter (Piece.spared uid)))

/-- The block once nothing of request `uid` waits at a slice. -/
def Hw.cancelled (h : Hw) (uid : Nat) : Hw :=
  { h with
    sl.cancels := h.sl.cancels.filter (fun u => u != uid)
    sl.inbox := stripPieces uid h.sl.inbox
    sl.holds := h.sl.holds.filter (Piece.spared uid)
    sl.stage := h.sl.stage.map (fun e => (e.1, e.2.filter (fun x => !decide (x.who.source = 0 ∧ x.who.tag = uid))))
    coh.dirQ := stripPieces uid h.coh.dirQ
    coh.dirWait := stripPieces uid h.coh.dirWait
    red.accIn := stripPieces uid h.red.accIn
    par.degReads := stripPieces uid h.par.degReads
    car.launchIn := h.car.launchIn.map (fun e => (e.1, e.2.filter (fun l => l.trk != some uid))) }

theorem execCancel_of {tracker : BitVec 16} {s : State} {uid : Nat}
    (hf : s.hw.sl.cancels.find? (fun u => u % 65536 == tracker.toNat) = some uid) : execCancel tracker s =
      .next { s with hw := (s.hw.cancelledPieces uid).foldl (fun h p => h.creditsBack p) (s.hw.cancelled uid) } := by
  unfold execCancel
  rw [State.on, hf]
  rfl

/-- CANCEL drops what a slice has not yet placed of a request. -/
theorem cancel_leads {tracker : BitVec 16} {s : State} {uid : Nat}
    (hf : s.hw.sl.cancels.find? (fun u => u % 65536 == tracker.toNat) = some uid) :
    Leads (.cancel tracker) s (fun h => uid ∉ h.sl.cancels ∧ (∀ st, h.inbox st = (s.hw.inbox st).filter (Piece.spared uid)) ∧
      (∀ st, h.dirIn st = (s.hw.dirIn st).filter (Piece.spared uid)) ∧
      (∀ st, h.dirWaiting st = (s.hw.dirWaiting st).filter (Piece.spared uid)) ∧
      h.sl.holds = s.hw.sl.holds.filter (Piece.spared uid)) := by
  obtain ⟨q, hq⟩ := Hw.creditsBack_all (s.hw.cancelled uid) (s.hw.cancelledPieces uid)
  exact .of_eq (execCancel_of hf) hq ⟨fun hm => by simpa using (List.mem_filter.1 hm).2, fun st => Table.atD_map_filter _ _ st,
    fun st => Table.atD_map_filter _ _ st, fun st => Table.atD_map_filter _ _ st, rfl⟩

/-- Settles O24: a BIRSP queues up, the oldest piece of a slice's input goes on, and a CANCEL drops pieces. -/
theorem sliceInput : Obligations.SliceInput := by
  intro s
  refine ⟨?_, fun stack p rest hin hd hw hs => ⟨fun h9 hc => ?_, fun t => ?_, fun h9 hsn => ?_⟩,
    fun tracker uid hf => cancel_leads hf⟩
  · intro x kind addr r st hq hd hform hfen hmap hex hn hin
    refine ⟨_, execBirsp_behind r rfl hq hd hform hfen hmap hex hn hin, ⟨_, Hw.birspQueued_trk s.hw r, rfl, rfl, rfl⟩, ?_,
      (Hw.birspQueued_within s.hw r).changesOnly _ _ (by decide) (by decide)⟩
    rw [Hw.birspQueued_arb]
    dsimp only
    rw [Table.atD_put_same]
    exact List.mem_append_right _ (List.mem_singleton.2 rfl)
  · exact ⟨_, rfl, Hw.sliceInput_coherent hin ⟨hd, hw, hs⟩ h9 hc⟩
  · intro phys h1 hc ht hh hret hr
    exact ⟨_, rfl, Hw.sliceInput_read hin ⟨hd, hw, hs⟩ h1 hc ht hh hret hr⟩
  · exact .of_eq rfl (Hw.sliceInput_stale hin ⟨hd, hw, hs⟩ h9 hsn)
      ⟨Hw.inbox_setInbox_same s.hw stack rest, rfl, Hw.reg_addReg_same ..⟩

end Sys2Proof.Machine
end

section
/-! A write of req_state (R59, R62, R64, R144): the epoch, the sequence window, the rights. -/

namespace Sys2Proof.Machine

/-! ### The write reaches its operation -/

theorem Hw.ownCheck_reqState (h : Hw) (i v : Nat) : h.ownCheck Od.reqState i v = v := by
  unfold Hw.ownCheck
  rw [if_neg (fun c => absurd c.1 (by decide)), if_neg (by decide), if_neg (fun c => absurd c.1 (by decide)),
    if_neg (fun c => absurd c.1 (by decide)), if_neg (by decide)]

/-- The four states are the values that an access to req_state may write. -/
theorem Hw.check_reqState (h : Hw) (f : FieldDesc) (hf : fieldOf Od.reqState = some f) (i v : Nat) (hv : v ∈ [0, 1, 2, 3]) :
    h.check f Od.reqState i (v % 2 ^ f.ty.width) = some (v, false) ∧ f.cmd = false ∧ v % 2 ^ f.ty.width = v := by
  obtain ⟨hty, hcmd⟩ : f.ty = .enum8 [0, 1, 2, 3] ∧ f.cmd = false := by
    have hd : ((fieldOf Od.reqState).map (fun f => (f.ty, f.cmd))) = some (.enum8 [0, 1, 2, 3], false) := by decide
    rw [hf] at hd
    exact Prod.mk.inj (Option.some.inj hd)
  have hlt : v % 2 ^ f.ty.width = v := by
    have hw : f.ty.width = 8 := by rw [hty]; rfl
    rw [hw]
    simp only [List.mem_cons, List.not_mem_nil, or_false] at hv
    omega
  have hmask : silentMask Od.reqState v = v := by
    unfold silentMask
    rw [if_neg (by decide), if_neg (by decide), if_neg (by decide)]
  refine ⟨?_, hcmd, hlt⟩
  unfold Hw.check
  dsimp only
  rw [hlt, hlt, hmask, hty]
  dsimp only
  rw [if_pos (List.contains_iff_mem.2 hv), Hw.ownCheck_reqState]
  simp

theorem Hw.blocks_reqState (h : Hw) (a : Actor) (i v : Nat) (b : Option Nat) : h.blocks a Od.reqState i v b = none := by
  unfold Hw.blocks
  dsimp only
  rw [if_neg (by decide), if_neg (by decide), if_neg (by decide), if_neg (by decide), if_neg (by decide), if_neg (by decide),
    if_neg (by decide), if_neg (by decide), if_neg (by decide), if_neg (by decide), if_neg (by decide), if_neg (by decide),
    if_neg (by decide), if_neg (by decide), if_neg (by decide), if_neg (by decide)]

/-- The mask of what passing an accepted write on to the mirror and to the other hub changes. -/
def passedOnMask : Nat := 3978585891278293137243057985174566720803649206378781739523711815145275976100267004790788 ||| 2048

theorem Hw.writeOne_reqState (h : Hw) (a : Actor) (i e v : Nat) (b : Option Nat) (hf : (h.fieldAt Od.reqState i).isSome = true)
    (hr : h.remoteCopy Od.reqState.index i = false) (hv : v ∈ [0, 1, 2, 3]) :
    (h.writeReqState a i v).Within passedOnMask (h.writeOne a Od.reqState i e v b).2 := by
  obtain ⟨f, hf⟩ := Option.isSome_iff_exists.1 hf
  obtain ⟨hcheck, hcmd, hmod⟩ := Hw.check_reqState h f (Hw.fieldAt_of hf) i v hv
  unfold Hw.writeOne
  rw [hf]
  dsimp only
  rw [if_neg (by rw [hr]; decide), Hw.blocks_reqState]
  dsimp only
  rw [hcheck]
  dsimp only
  have hdep : dependents Od.reqState = [] := by decide
  simp only [hcmd, hdep, Bool.false_eq_true, if_false, List.foldl_nil, Hw.store_reqState]
  split
  · exact Hw.Within.step (Hw.passOn_within ..) (by decide) (Hw.Within.step (Hw.mirrorDict_within ..) (by decide) (Hw.Within.refl _ _))
  · exact Hw.Within.refl _ _

/-- A write of req_state that is accepted: what it does, and then what passes it on. -/
theorem Hw.dictWrite_reqState (h : Hw) (a : Actor) (n v : Nat) (hacc : h.accepts a Od.reqState n v) (hv : v ∈ [0, 1, 2, 3]) :
    (h.writeReqState a n v).Within passedOnMask (h.dictWrite a Od.reqState n v) := by
  obtain ⟨hmay, hfield, hremote, -⟩ := hacc
  rw [Hw.dictWrite, if_pos hmay, Hw.writeItem, if_neg (by decide)]
  exact Hw.writeOne_reqState h a n _ v none hfield hremote hv

/-! ### The epoch and the window -/

/-- The directory of stack `s` takes over requester `r`'s epoch. -/
def Hw.copyEpoch (r : Nat) (h : Hw) (s : Nat) : Hw :=
  { h with coh.epochCopy := Table.setD h.coh.epochCopy (fun _ => 0) (s * 4096 + r) (h.reg Od.reqEpoch r % 256) }

theorem Hw.advanceEpoch_epoch (h : Hw) (r : Nat) : (h.advanceEpoch r).reg Od.reqEpoch r =
    (h.reg Od.reqEpoch r + 1) % 2 ^ Od.reqEpoch.width := by
  have hcopies (l : List Nat) (x : Hw) : (l.foldl (Hw.copyEpoch r) x).reg Od.reqEpoch r = x.reg Od.reqEpoch r :=
    List.foldlRecOn (motive := fun y : Hw => y.reg Od.reqEpoch r = x.reg Od.reqEpoch r) _ _ rfl (fun _ hy _ _ => hy)
  unfold Hw.advanceEpoch
  dsimp only
  rw [(Hw.tdiEpoch_within ..).reg _ _ (by decide), (Hw.mbEpoch_within ..).reg _ _ (by decide)]
  refine (hcopies _ _).trans ((Hw.reg_addReg_same ..).trans ?_)
  rw [(Hw.finishSweeps_within ..).reg _ _ (by decide)]

/-- Requester `r` has an empty sequence window. -/
def Hw.windowEmpty (h : Hw) (r : Nat) : Prop :=
  h.reg Od.reqSeqNewest r = 0 ∧ Table.look h.req.seqLive r = none ∧ ∀ q, h.win r q = 0

theorem Hw.clearWin_windowEmpty (h : Hw) (r : Nat) : (h.clearWin r).windowEmpty r := by
  refine ⟨Hw.reg_setReg_same .., Table.look_del_same _ _, fun q => ?_⟩
  have hk : (r * 1024 + q % 1024) / 1024 = r := by omega
  have hlook : Table.look (Table.drop h.req.seqWin (fun k => decide (k / 1024 = r))) (r * 1024 + q % 1024) = none := by
    rw [Table.look_drop, decide_eq_true hk, if_pos rfl]
  exact (congrArg (fun o : Option Nat => o.getD 0) hlook)

theorem Hw.windowEmpty_of {a b : Hw} {r : Nat} (ha : a.windowEmpty r) (hw : b.req.seqWin = a.req.seqWin)
    (hl : b.req.seqLive = a.req.seqLive) (hn : b.reg Od.reqSeqNewest r = a.reg Od.reqSeqNewest r) : b.windowEmpty r := by
  obtain ⟨h1, h2, h3⟩ := ha
  refine ⟨hn.trans h1, hl ▸ h2, fun q => ?_⟩
  rw [Hw.win, hw]
  exact h3 q

theorem Hw.resetActions_windowEmpty (h : Hw) (r : Nat) : (h.resetActions r).windowEmpty r := Hw.clearWin_windowEmpty ..

/-- What passes an accepted write on leaves the window. -/
theorem Hw.windowEmpty_within {a b : Hw} {m r : Nat} (w : a.Within m b) (hq : m.testBit Part.requests.no = false)
    (hn : m.testBit (24 + Od.reqSeqNewest.no) = false) (ha : a.windowEmpty r) : b.windowEmpty r :=
  Hw.windowEmpty_of ha (by rw [w.same .requests hq]) (by rw [w.same .requests hq]) (w.reg _ _ hn)

/-! ### The four states -/

/-- A requester's next epoch. -/
def Hw.nextEpoch (h : Hw) (r : Nat) : Nat := (h.reg Od.reqEpoch r + 1) % 2 ^ Od.reqEpoch.width

theorem Hw.advanceEpoch_state (h : Hw) (r i : Nat) : (h.advanceEpoch r).reg Od.reqState i = h.reg Od.reqState i :=
  (Hw.advanceEpoch_within ..).reg _ _ (by decide)

theorem Hw.resetActions_epoch (h : Hw) (r i : Nat) : (h.resetActions r).reg Od.reqEpoch i = h.reg Od.reqEpoch i :=
  (Hw.resetActions_within ..).reg _ _ (by decide)

theorem Hw.resetActions_state (h : Hw) (r i : Nat) : (h.resetActions r).reg Od.reqState i = h.reg Od.reqState i :=
  (Hw.resetActions_within ..).reg _ _ (by decide)

theorem Hw.setReqState_epoch (h : Hw) (r i v : Nat) : (h.setReg Od.reqState r v).reg Od.reqEpoch i = h.reg Od.reqEpoch i :=
  Hw.reg_setReg_ne _ _ _ _ _ _ (by decide) (by decide) (by decide)

theorem Hw.setReqState_windowEmpty {h : Hw} {r : Nat} (v : Nat) (hw : h.windowEmpty r) : (h.setReg Od.reqState r v).windowEmpty r :=
  Hw.windowEmpty_within (Hw.setReg_within ..) (by decide) (by decide) hw

section

variable (h : Hw) (a : Actor) (r : Nat)

/-- ABSENT or DEAD to ACTIVE. -/
theorem Hw.writeReqState_active (ho : h.reg Od.reqState r = 0 ∨ h.reg Od.reqState r = 3) : let k := h.writeReqState a r 1
    k.reg Od.reqState r = 1 ∧ k.reg Od.reqEpoch r = h.nextEpoch r ∧ k.windowEmpty r ∧ Table.look k.req.homes r = none := by
  have hk : h.writeReqState a r 1 = (((h.advanceEpoch r).clearWin r).dropHome r).setReg Od.reqState r 1 := by
    unfold Hw.writeReqState
    rcases ho with ho | ho <;> rw [ho] <;> rfl
  have hclear : (((h.advanceEpoch r).clearWin r).dropHome r).windowEmpty r :=
    Hw.windowEmpty_of (Hw.clearWin_windowEmpty (h.advanceEpoch r) r) rfl rfl rfl
  have hepoch : (((h.advanceEpoch r).clearWin r).dropHome r).reg Od.reqEpoch r = h.nextEpoch r :=
    ((Hw.clearWin_within ..).reg _ _ (by decide)).trans (Hw.advanceEpoch_epoch h r)
  rw [hk]
  exact ⟨Hw.reg_setReg_same .., (Hw.setReqState_epoch ..).trans hepoch, Hw.setReqState_windowEmpty 1 hclear, Table.look_del_same _ _⟩

/-- RESET of an ACTIVE requester. -/
theorem Hw.writeReqState_reset (ho : h.reg Od.reqState r = 1) : let k := h.writeReqState a r 2
    k.reg Od.reqState r = 1 ∧ k.reg Od.reqEpoch r = h.nextEpoch r ∧ k.windowEmpty r := by
  have hk : h.writeReqState a r 2 = (h.advanceEpoch r).resetActions r := by
    unfold Hw.writeReqState
    rw [ho]
    rfl
  dsimp only
  rw [hk, Hw.resetActions_state, Hw.resetActions_epoch, Hw.advanceEpoch_state]
  exact ⟨ho, Hw.advanceEpoch_epoch h r, Hw.resetActions_windowEmpty ..⟩

/-- ACTIVE to DEAD. -/
theorem Hw.writeReqState_dead (ho : h.reg Od.reqState r = 1) : let k := h.writeReqState a r 3
    k.reg Od.reqState r = 3 ∧ k.reg Od.reqEpoch r = h.nextEpoch r ∧ k.windowEmpty r := by
  have hk : h.writeReqState a r 3 = ((h.advanceEpoch r).resetActions r).setReg Od.reqState r 3 := by
    unfold Hw.writeReqState
    rw [ho]
    rfl
  dsimp only
  rw [hk, Hw.setReqState_epoch, Hw.resetActions_epoch]
  exact ⟨Hw.reg_setReg_same .., Hw.advanceEpoch_epoch h r, Hw.setReqState_windowEmpty 3 (Hw.resetActions_windowEmpty ..)⟩

/-- A requester that is ABSENT has no rights in any partition. -/
def Hw.makeAbsent : Hw := (((h.setReg Od.reqState r 0).setReg Od.reqPartitions r 0).setReg Od.reqWrite r 0).setReg Od.reqSecure r 0

theorem Hw.makeAbsent_rights : (h.makeAbsent r).reg Od.reqPartitions r = 0 ∧ (h.makeAbsent r).reg Od.reqWrite r = 0 ∧
    (h.makeAbsent r).reg Od.reqSecure r = 0 := by
  refine ⟨?_, ?_, Hw.reg_setReg_same ..⟩
  · rw [Hw.makeAbsent, (Hw.setReg_within ..).reg _ _ (by decide), (Hw.setReg_within ..).reg _ _ (by decide), Hw.reg_setReg_same]
    rfl
  · rw [Hw.makeAbsent, (Hw.setReg_within ..).reg _ _ (by decide), Hw.reg_setReg_same]
    rfl

theorem Hw.makeAbsent_state : (h.makeAbsent r).reg Od.reqState r = 0 ∧ (h.makeAbsent r).reg Od.reqEpoch r = h.reg Od.reqEpoch r := by
  unfold Hw.makeAbsent
  constructor
  · rw [(Hw.setReg_within ..).reg _ _ (by decide), (Hw.setReg_within ..).reg _ _ (by decide), (Hw.setReg_within ..).reg _ _ (by decide),
      Hw.reg_setReg_same]
    rfl
  · rw [(Hw.setReg_within ..).reg _ _ (by decide), (Hw.setReg_within ..).reg _ _ (by decide), (Hw.setReg_within ..).reg _ _ (by decide),
      Hw.setReqState_epoch]

/-- ACTIVE or DEAD to ABSENT. -/
theorem Hw.writeReqState_absent (ho : h.reg Od.reqState r = 1 ∨ h.reg Od.reqState r = 3) :
    ∃ x : Hw, h.writeReqState a r 0 = x.makeAbsent r ∧ x.reg Od.reqEpoch r = h.nextEpoch r := by
  rcases ho with ho | ho
  · exact ⟨(h.advanceEpoch r).resetActions r, by unfold Hw.writeReqState; rw [ho]; rfl,
      (Hw.resetActions_epoch ..).trans (Hw.advanceEpoch_epoch h r)⟩
  · exact ⟨h.advanceEpoch r, by unfold Hw.writeReqState; rw [ho]; rfl, Hw.advanceEpoch_epoch h r⟩

end

/-- Settles O23: what each of the four writes does, read through what passes the write on. -/
theorem requesterStates : Obligations.RequesterStates := by
  intro who r s n old cleared advanced
  refine ⟨fun hacc ho => ?_, fun hacc ho => ?_, fun hacc ho => ?_, fun hacc ho => ?_⟩
  · have w := Hw.dictWrite_reqState s.hw who n 1 hacc (by decide)
    obtain ⟨hst, hep, hwin, hhome⟩ := Hw.writeReqState_active s.hw who n ho
    refine ⟨_, rfl, (w.reg _ _ (by decide)).trans hst, (w.reg _ _ (by decide)).trans hep,
      Hw.windowEmpty_within w (by decide) (by decide) hwin, ?_⟩
    rw [w.same .requests (by decide)]
    exact hhome
  · have w := Hw.dictWrite_reqState s.hw who n 2 hacc (by decide)
    obtain ⟨hst, hep, hwin⟩ := Hw.writeReqState_reset s.hw who n ho
    exact ⟨_, rfl, (w.reg _ _ (by decide)).trans hst, (w.reg _ _ (by decide)).trans hep,
      Hw.windowEmpty_within w (by decide) (by decide) hwin⟩
  · have w := Hw.dictWrite_reqState s.hw who n 3 hacc (by decide)
    obtain ⟨hst, hep, hwin⟩ := Hw.writeReqState_dead s.hw who n ho
    exact ⟨_, rfl, (w.reg _ _ (by decide)).trans hst, (w.reg _ _ (by decide)).trans hep,
      Hw.windowEmpty_within w (by decide) (by decide) hwin⟩
  · have w := Hw.dictWrite_reqState s.hw who n 0 hacc (by decide)
    obtain ⟨x, hk, hep⟩ := Hw.writeReqState_absent s.hw who n ho
    rw [hk] at w
    obtain ⟨hst, hsame⟩ := Hw.makeAbsent_state x n
    obtain ⟨hpart, hwr, hsec⟩ := Hw.makeAbsent_rights x n
    exact ⟨_, rfl, (w.reg _ _ (by decide)).trans hst, (w.reg _ _ (by decide)).trans (hsame.trans hep),
      (w.reg _ _ (by decide)).trans hpart, (w.reg _ _ (by decide)).trans hwr, (w.reg _ _ (by decide)).trans hsec⟩

end Sys2Proof.Machine
end

section
/-! Concrete states that meet the hypotheses of O17, O20, O21, O23 and O24: what those statements say is about something. -/

namespace Sys2Proof.Machine

/-- Port 0, requester 0, stack 0 and its partition 0 are in use; a grant is decided at stack 0's ingress; a read of 64 B waits at
slice 0's input; a DENIED that is due waits in port 0's refusal delay line. -/
def busyBlock : Hw :=
  (((((((((({ now := 5000,
              req := { arbs := [(0, { next := some { source := 0, cls := 0 } })],
                       trackers := [(9, { rq := { op := 1, requester := 0 }, phase := .forwarded, stack := some 0 })], uidNext := 10,
                       ports := [(0, { refusals := [(4000, { op := 1, requester := 0, tag := 3, status := St.denied })] })] },
              sl := { inbox := [(0, [{ trk := 9, op := 1, stack := 0, off := 0, dpa := 0, len := 64, part := some 0 }])] } } : Hw).setReg
    Od.portState 0 1).setReg Od.reqState 0 1).setReg Od.reqLimit 0 8).setReg Od.stackState 0 1).setReg Od.stackCapacity 0 (2 ^ 30)).setReg
    Od.partAlloc 0 1).setReg Od.partStacks 0 1).setReg Od.partState 0 3).setReg Od.reqPartitions 0 1).setReg Od.reqWrite 0 1

/-- `busyBlock` with nothing to come from its queue. -/
def busyState : State := { hw := busyBlock, pending := [] }

theorem busyBlock_portQuiet : busyBlock.portQuiet 0 := ⟨by decide +kernel, rfl, rfl, rfl, rfl⟩

/-- A request of requester 0, without a sequence number, has room there. -/
theorem busyBlock_hasRoom (r : Rq) (hr : r.requester = 0) (hs : r.seq = none) : busyBlock.hasRoom r := by
  refine ⟨fun n hn => ?_, ?_, by decide +kernel⟩
  · rw [hs] at hn
    cases hn
  · rw [hr]
    decide +kernel

/-- O17's RD: address 0, 64 B. -/
theorem busyState_rd_queued : Leads (.rd (headerOnPort0 none) 0 0) busyState
    (fun h => busyBlock.queuedAt h (busyBlock.typed (headerOnPort0 none) 1 0 0 0 0) 0) := by
  obtain ⟨hrd, -⟩ := requestsQueued (headerOnPort0 none) busyState
  exact hrd 0 0 ⟨busyBlock_portQuiet, by decide +kernel,
    ⟨by decide +kernel, by decide +kernel, by decide +kernel, by decide +kernel, fun h => absurd h (by decide)⟩,
    busyBlock_hasRoom _ rfl rfl, by decide +kernel⟩

/-- The header of a WR of requester 0 and tag 0: address 0, 64 B. -/
def wrHeader : BitVec 128 := 2#128 <<< 123

/-- Its parity. -/
def wrParity : BitVec 16 := BitVec.ofBoolListLE ((List.range 16).map (fun i => parityBit (byteOf wrHeader i)))

/-- O20's WR: its beats are awaited. -/
theorem busyState_wr_waitsData : Leads (.requestHeader 0 wrHeader wrParity) busyState (fun h =>
    (h.port 0).beats = [{ uid := some 10, left := 1 }]) := by
  obtain ⟨-, hwr, -⟩ := headersAndBeats 0 wrHeader wrParity busyState
  obtain ⟨k, hk, -, hbeats, -⟩ := hwr (by decide +kernel) (.inl (by decide +kernel)) busyBlock_portQuiet
    ⟨by decide +kernel, by decide +kernel, by decide +kernel, by decide +kernel, fun h => absurd h (by decide +kernel)⟩
    (busyBlock_hasRoom _ (by decide +kernel) (by decide +kernel))
  exact ⟨k, hk, hbeats.trans (by decide +kernel)⟩

/-- O21's DENIED. -/
theorem busyState_denied_ready : Leads (.deniedDue 0) busyState (fun h => (h.port 0).refusals = []) := by
  obtain ⟨-, -, hdue, -⟩ := portWaits 0 busyState
  obtain ⟨k, hk, hrest, -⟩ := hdue 4000 _ [] rfl (by decide +kernel) (by decide +kernel)
  exact ⟨k, hk, hrest⟩

/-- O23's RESET, by the firmware. -/
theorem busyState_requester_reset : Leads (.reqStateReset .firmware 0) busyState (fun h => h.reg Od.reqEpoch 0 = 1) := by
  obtain ⟨-, hreset, -⟩ := requesterStates .firmware 0 busyState
  obtain ⟨k, hk, -, hepoch, -⟩ := hreset ⟨by decide +kernel, by decide +kernel, by decide +kernel, by decide +kernel⟩
    (by decide +kernel)
  exact ⟨k, hk, hepoch.trans (by decide +kernel)⟩

theorem busyBlock_cutRows : busyBlock.cutRows 0 (busyBlock.physical 0 0) 64 = [(0, 64)] := by decide +kernel

/-- O24's read: one row, one queue entry. -/
theorem busyState_read_staged : Leads (.sliceInput 0) busyState (fun h => h.inbox 0 = [] ∧ (h.stage 0).length = 1) := by
  obtain ⟨-, hslice, -⟩ := sliceInput busyState
  obtain ⟨-, hread, -⟩ := hslice 0 _ [] rfl (by decide +kernel) (by decide +kernel) (by decide +kernel)
  obtain ⟨k, hk, hinbox, hlen, -⟩ := hread _ rfl (by decide +kernel) rfl (by decide +kernel) (by decide +kernel) (fun q hq => by
    obtain rfl : q = (0, 64) := List.mem_singleton.1 (busyBlock_cutRows ▸ hq)
    exact ⟨by decide +kernel, fun _ _ => rfl⟩)
  exact ⟨k, hk, hinbox, hlen.trans (by decide +kernel)⟩

end Sys2Proof.Machine
end

section
/-! The frames of the rows of channels, arbitration, integrity and the directory. -/

namespace Sys2Proof.Machine

/-- Settles O57: each row's mask, read as groups and registers. -/
theorem channelFrames : Obligations.ChannelFrames := by
  and_intros
  · intro g flips stack sector
    simp only [List.forall_mem_cons]
    exact ⟨.of_within (execQueueEntryAdmit_within g) (by decide) (by decide),
      .of_within (execColumnData_within g flips) (by decide) (by decide),
      .of_within (execWcbEvict_within stack sector) (by decide) (by decide),
      .of_within (execWcbHoldExpiry_within stack sector) (by decide) (by decide),
      .of_within (execRmwMerge_within stack sector) (by decide) (by decide), List.forall_mem_nil _⟩
  · intro g
    exact .of_within (execColumnPick_within g) (by decide) (by decide)
  · intro g
    exact .of_within (execActivatePick_within g) (by decide) (by decide)
  · intro g
    simp only [List.forall_mem_cons]
    exact ⟨.of_within (execRefreshDue_within g) (by decide) (by decide),
      .of_within (execPauseIdleGap_within g) (by decide) (by decide),
      .of_within (execPauseForced_within g) (by decide) (by decide), List.forall_mem_nil _⟩
  · intro g
    exact .of_within (execRfmIssue_within g) (by decide) (by decide)
  · intro g stack
    simp only [List.forall_mem_cons]
    exact ⟨.of_within (execRefreshSlotEnd_within g) (by decide) (by decide),
      .of_within (execPauseEnd_within g) (by decide) (by decide),
      .of_within (execRateSwitch_within stack) (by decide) (by decide),
      .of_within (execCeHistoryExpiry_within g) (by decide) (by decide), List.forall_mem_nil _⟩
  · intro stack
    exact .of_within (execRefreshMultiplierChange_within stack) (by decide) (by decide)
  · intro stack
    exact .of_within (execRefreshWindowEnd_within stack) (by decide) (by decide)
  · intro g
    exact .of_within (execThrottleExpiry_within g) (by decide) (by decide)
  · intro stack
    exact .of_within (execThermalLevelChange_within stack) (by decide) (by decide)
  · intro stack
    exact .of_within (execRateSwitchDone_within stack) (by decide) (by decide)
  · intro stack
    exact .of_within (execColdHoldExit_within stack) (by decide) (by decide)
  · intro g failedLanes taps cl
    exact .of_within (execTrainingAttemptDone_within g failedLanes taps cl) (by decide) (by decide)
  · intro g
    exact .of_within (execZeroFillDone_within g) (by decide) (by decide)
  · intro stack g c0
    simp only [List.forall_mem_cons]
    exact ⟨.of_within (execArbiterPick_within stack) (by decide) (by decide),
      .of_within (execDispatchCreditReturn_within g c0) (by decide) (by decide),
      .of_within (execQuotaWindowEnd_within stack) (by decide) (by decide), List.forall_mem_nil _⟩
  · intro stack
    exact .of_within (execGrantStart_within stack) (by decide) (by decide)
  · intro stack
    exact .of_within (execBurstCutoff_within stack) (by decide) (by decide)
  · intro stack
    exact .of_within (execFrameSlotStart_within stack) (by decide) (by decide)
  · intro stack
    exact .of_within (execMissPeriodEnd_within stack) (by decide) (by decide)
  · intro who
    simp only [List.forall_mem_cons]
    exact ⟨.of_within (execServiceModeWriteNormal_within who) (by decide) (by decide),
      .of_within (execServiceModeWriteTest_within who) (by decide) (by decide), List.forall_mem_nil _⟩
  · simp only [List.forall_mem_cons]
    exact ⟨.of_within execSvcStartupExpiry_within (by decide) (by decide),
      .of_within execRecoveryDone_within (by decide) (by decide), List.forall_mem_nil _⟩
  · intro requester
    exact .of_within (execRegulatorWindow_within requester) (by decide) (by decide)
  · intro who
    simp only [List.forall_mem_cons]
    exact ⟨.of_within (execWriteSplit_within who) (by decide) (by decide),
      .of_within (execReadRaw_within who) (by decide) (by decide),
      .of_within (execReadDecoded_within who) (by decide) (by decide),
      .of_within (execTestEnd_within who) (by decide) (by decide), List.forall_mem_nil _⟩
  · intro stack flips again
    exact .of_within (execScrubRead_within stack flips again) (by decide) (by decide)
  · intro g
    exact .of_within (execRebuildRow_within g) (by decide) (by decide)
  · intro g bank row ok
    exact .of_within (execSppr_within g bank row ok) (by decide) (by decide)
  · intro g ok
    exact .of_within (execHppr_within g ok) (by decide) (by decide)
  · intro who dpa
    exact .of_within (execRetirePage_within who dpa) (by decide) (by decide)
  · intro who stack
    exact .of_within (execRetireClear_within who stack) (by decide) (by decide)
  · intro stack
    simp only [List.forall_mem_cons]
    exact ⟨.of_within (execDirectoryLookup_within stack) (by decide) (by decide),
      .of_within (execDirectorySweep_within stack) (by decide) (by decide), List.forall_mem_nil _⟩
  · intro id
    exact .of_within (execSnoopTimeout_within id) (by decide) (by decide)
  · intro who part
    exact .of_within (execAcceptAll_within who part) (by decide) (by decide)

end Sys2Proof.Machine
end

section
/-! Into the bank queue (R73, R74, R82). -/

namespace Sys2Proof.Machine

theorem Hw.point_sl (h : Hw) (uid k : Nat) (f : Sample → Sample) : (h.point uid k f).sl = h.sl :=
  (Hw.point_within ..).same .slices (by decide)

/-- The slices with `q` as the bank queue of pseudo-channel `g`. -/
def SliceSt.withQueue (x : SliceSt) (g : Nat) (q : List QEntry) : SliceSt :=
  { x with queues := Table.setD x.queues (fun _ => []) g q }

theorem Hw.queue_withQueue {b : Hw} {x : SliceSt} {g : Nat} {q : List QEntry} (hb : b.sl = x.withQueue g q) : b.queue g = q := by
  rw [Hw.queue, hb]
  exact Table.atD_setD_same x.queues (fun _ => []) g q

/-- A queue is stored that is not empty: nothing else of the slices changes. -/
theorem Hw.setQueue_sl (h : Hw) (g : Nat) (q : List QEntry) (hq : q ≠ []) : (h.setQueue g q).sl = h.sl.withQueue g q := by
  have hempty : q.isEmpty = false := by simpa using hq
  unfold Hw.setQueue
  rw [hempty]
  rfl

/-- `x` as it stands in its bank queue: a read that meets an older write to its columns waits for it. -/
def QEntry.queuedBehind (x : QEntry) (older : List QEntry) : QEntry :=
  { x with rawWait := x.kind != 1 && older.any (fun y => y.kind == 1 && x.overlaps y) }

theorem Hw.enqueue_sl (h : Hw) (g : Nat) (x : QEntry) :
    ∃ q, q.length = (h.queue g).length ∧ (h.enqueue g x).sl = h.sl.withQueue g (q ++ [x.queuedBehind (h.queue g)]) := by
  unfold Hw.enqueue
  extract_lets q hit promoted counted
  have hsl : counted.sl = h.sl := by rw [apply_ite Hw.sl, Hw.countFix_sl, ite_self]
  refine ⟨promoted, ?_, ?_⟩
  · rw [apply_ite List.length, List.length_map, ite_self]
  · rw [Hw.setQueue_sl _ _ _ (by simp), hsl]
    rfl

/-- The block after access `x` has gone from its input stage to the bank queue of pseudo-channel `g`. -/
def Hw.moveToBank (h : Hw) (g : Nat) (x : QEntry) : Hw :=
  let h := (h.setStage (g / 64) ((h.stage (g / 64)).erase x)).enqueue g x
  if x.kind = 0 then h.point x.who.tag 4 (fun p => { p with pc := g % 64, bank := x.bank }) else h

theorem Hw.moveToBank_sl (h : Hw) (g : Nat) (x : QEntry) :
    ∃ q, q.length = (h.queue g).length ∧ (h.moveToBank g x).sl =
      (h.setStage (g / 64) ((h.stage (g / 64)).erase x)).sl.withQueue g (q ++ [x.queuedBehind (h.queue g)]) := by
  obtain ⟨q, hlen, hsl⟩ := Hw.enqueue_sl (h.setStage (g / 64) ((h.stage (g / 64)).erase x)) g x
  refine ⟨q, hlen, ?_⟩
  rw [Hw.moveToBank, apply_ite Hw.sl, Hw.point_sl, ite_self]
  exact hsl

theorem Hw.moveToBank_stage (h : Hw) (g : Nat) (x : QEntry) :
    (h.moveToBank g x).stage (g / 64) = (h.stage (g / 64)).erase x := by
  obtain ⟨q, -, hsl⟩ := Hw.moveToBank_sl h g x
  rw [Hw.stage, hsl]
  exact Table.atD_setD_same h.sl.stage (fun _ => []) _ _

theorem Hw.moveToBank_queue (h : Hw) (g : Nat) (x : QEntry) :
    ((h.moveToBank g x).queue g).length = (h.queue g).length + 1 ∧
      ((h.moveToBank g x).queue g).getLast? = some (x.queuedBehind (h.queue g)) := by
  obtain ⟨q, hlen, hsl⟩ := Hw.moveToBank_sl h g x
  rw [Hw.queue_withQueue hsl, List.length_append, hlen, List.getLast?_concat]
  exact ⟨rfl, rfl⟩

theorem queueEntryAdmit_moves (g : PcIx) (s : State) (x : QEntry) (hl : s.hw.lostAt (g.val / 64) (g.val % 64) = false)
    (hx : (s.hw.stage (g.val / 64)).find? (fun x => decide (s.hw.entryPc x = g.val) &&
      (((s.hw.stage (g.val / 64)).filter (fun y => decide (s.hw.entryPc y = g.val) && y.bank == x.bank)).head? == some x) &&
      s.hw.admits g x) = some x) : Completes (.queueEntryAdmit g) s (s.hw.moveToBank g x) := by
  have h : exec (.queueEntryAdmit g) s = execQueueEntryAdmit g s := rfl
  rw [Completes, h, execQueueEntryAdmit, State.on]
  dsimp only
  rw [hl, if_neg (by decide), hx]
  rfl

end Sys2Proof.Machine
end

section
/-! The column pick (R78, R81): what is picked stands in the queue, and what counts leave alone. -/

namespace Sys2Proof.Machine

/-! ### What is picked -/

theorem Hw.qualify_subset (h : Hw) (g : Nat) : h.qualify g ⊆ h.queue g := by
  intro x hx
  unfold Hw.qualify at hx
  obtain ⟨p, hp, rfl⟩ := List.mem_map.1 hx
  obtain ⟨-, -, h3⟩ := List.mem_zipIdx (List.mem_filter.1 hp).1
  rw [h3]
  exact List.getElem_mem _

/-- The bus steps to one of its three modes, and what may be served in it qualifies. -/
theorem Hw.busStep_offers (h : Hw) (g : Nat) : (h.busStep g).1 < 3 ∧ (h.busStep g).2 ⊆ h.qualify g := by
  unfold Hw.busStep
  extract_lets mode x writes c rd wr c0 prom settled
  have hrd : rd ⊆ c := List.filter_subset_self c
  have hwr : wr ⊆ c := List.filter_subset_self c
  have hc0 : c0 ⊆ c := fun y hy => hrd (List.mem_of_mem_filter hy)
  have hprom : prom ⊆ c := fun y hy => hwr (List.mem_of_mem_filter hy)
  clear_value rd wr c0 prom settled writes
  have offer (m : Nat) (l : List QEntry) (hm : m < 3) (hl : l ⊆ c) : (m, l).1 < 3 ∧ (m, l).2 ⊆ c := ⟨hm, hl⟩
  repeat' split
  all_goals exact offer _ _ (Nat.le_of_ble_eq_true rfl) (by assumption)

theorem firstBy_mem (key : QEntry → Nat) (l : List QEntry) (x : QEntry) (hx : firstBy key l = some x) : x ∈ l := by
  induction l generalizing x with
  | nil => cases hx
  | cons y l ih =>
    rw [firstBy] at hx
    split at hx
    next z hz =>
      split at hx
      · cases hx
        exact List.mem_cons_of_mem _ (ih _ hz)
      · cases hx
        exact List.mem_cons_self
    next =>
      cases hx
      exact List.mem_cons_self

/-- Whatever rank picks an entry, it is one of those offered. -/
theorem Hw.pickColumn_mem (h : Hw) (g : Nat) (c : List QEntry) (x : QEntry) (aged : Bool) (hx : h.pickColumn g c = some (x, aged)) :
    x ∈ c := by
  have picked (y : QEntry) (f : Bool) (hy : y ∈ c) (e : some (y, f) = some (x, aged)) : x ∈ c := by
    cases e
    exact hy
  unfold Hw.pickColumn at hx
  dsimp only at hx
  split at hx
  next hy => exact picked _ _ (List.mem_of_find?_eq_some hy) hx
  split at hx
  next hy => exact picked _ _ (List.mem_of_mem_filter (firstBy_mem _ _ _ hy)) hx
  split at hx
  next hy => exact picked _ _ (List.mem_of_find?_eq_some hy) hx
  split at hx
  next hy => exact picked _ _ (List.mem_of_mem_filter (firstBy_mem _ _ _ hy)) hx
  obtain ⟨y, hy, hyx⟩ := Option.map_eq_some_iff.1 hx
  exact picked y false (firstBy_mem _ _ _ hy) (congrArg some hyx)

/-! ### What counts and samples leave alone -/

/-- The mask of counts of fixed events and of marks in samples. -/
def countMask : Nat := Reg.masks [Od.fixCounts, Od.stackCounters, Od.selCount] ||| 4096

theorem Hw.countFix_counted (h : Hw) (g e n : Nat) : h.Within countMask (h.countFix g e n) :=
  .step (Hw.countFix_within ..) (by decide) (.refl _ _)

theorem Hw.point_counted (h : Hw) (uid k : Nat) (f : Sample → Sample) : h.Within countMask (h.point uid k f) :=
  .step (Hw.point_within ..) (by decide) (.refl _ _)

section
variable {a b : Hw} (w : a.Within countMask b)
include w

theorem Hw.Within.count_sl : b.sl = a.sl := w.same .slices (by decide)

theorem Hw.Within.count_pc (g : Nat) : b.pc g = a.pc g := by
  rw [Hw.pc, w.count_sl]
  rfl

theorem Hw.Within.count_bank (g i : Nat) : b.bank g i = a.bank g i := by
  rw [Hw.bank, w.count_sl]
  rfl

theorem Hw.Within.count_queue (g : Nat) : b.queue g = a.queue g := by
  rw [Hw.queue, w.count_sl]
  rfl

theorem Hw.Within.count_ps : b.ps = a.ps := congrArg (· * 1000) (w.same .time (by decide) : b.now = a.now)

theorem Hw.Within.count_tim (s : Nat) (r : Reg) (hr : countMask.testBit (24 + r.no) = false) : b.tim s r = a.tim s r := by
  unfold Hw.tim
  rw [w.reg r s hr, w.reg Od.stackRateDivisor s (by decide)]

theorem Hw.Within.count_mem : b.mem = a.mem := by
  have hbuf : b.mem = { a.mem with dram := b.mem.dram, fills := b.mem.fills, spare := b.mem.spare } := w.same .buffers (by decide)
  obtain ⟨hdram, hfills, hspare⟩ : Part.dram.same a b := w.same .dram (by decide)
  rw [hbuf, hdram, hfills, hspare]

/-- What a column reads depends on the memories and the remap table. -/
theorem Hw.Within.count_rawCol (s : Nat) (c : Coord) : b.rawCol s c = a.rawCol s c := by
  have hremap (i e : Nat) : b.elem Od.remapTable i e = a.elem Od.remapTable i e := w.elem _ _ _ (by decide)
  unfold Hw.rawCol Hw.slotOf Hw.spareWord Hw.lanesCol Hw.filledWord
  simp only [w.count_mem, hremap]

end

end Sys2Proof.Machine
end

section
/-! The column pick (R78, R81): the bus turns, and what releasing a column leaves that is not its entry's last one. -/

namespace Sys2Proof.Machine

/-! ### The bus turns -/

/-- The block after the bus of pseudo-channel `g` has stepped to `mode` (R81). -/
def Hw.turnBus (h : Hw) (g mode : Nat) : Hw :=
  let old := h.reg Od.pcBusMode g
  if mode = old then h
  else
    let h := (h.setReg Od.pcBusMode g mode).countFix g 6
    let h := h.setPc g { h.pc g with colsSinceTurn := if mode = Bus.forced ∧ old = Bus.write then (h.pc g).colsSinceTurn else 0 }
    if mode = Bus.forced then (h.setPc g { h.pc g with fwWrites := 0 }).countFix g 7 else h

theorem Hw.busMode_countFix (h : Hw) (g e n i : Nat) : (h.countFix g e n).reg Od.pcBusMode i = h.reg Od.pcBusMode i :=
  (Hw.countFix_within ..).reg _ _ (by decide)

theorem Hw.queue_countFix (h : Hw) (g e n i : Nat) : (h.countFix g e n).queue i = h.queue i := by
  rw [Hw.queue, Hw.countFix_sl]
  rfl

theorem Hw.queue_setPc (h : Hw) (g : Nat) (x : Pc) (i : Nat) : (h.setPc g x).queue i = h.queue i := rfl

theorem Hw.queue_setReg (h : Hw) (r : Reg) (i v g : Nat) : (h.setReg r i v).queue g = h.queue g := rfl

theorem Hw.reg_setPc (h : Hw) (g : Nat) (x : Pc) (r : Reg) (i : Nat) : (h.setPc g x).reg r i = h.reg r i := rfl

theorem Hw.turnBus_mode (h : Hw) (g mode : Nat) (hm : mode < 3) : (h.turnBus g mode).reg Od.pcBusMode g = mode := by
  have hw : mode % 2 ^ Od.pcBusMode.width = mode := Nat.mod_eq_of_lt (Nat.lt_of_lt_of_le hm (by decide))
  unfold Hw.turnBus
  dsimp only
  split
  · next heq => exact heq.symm
  · rw [apply_ite (Hw.reg · Od.pcBusMode g)]
    simp only [Hw.busMode_countFix, Hw.reg_setPc, Hw.reg_setReg_same, hw, ite_self]

theorem Hw.turnBus_queue (h : Hw) (g mode : Nat) : (h.turnBus g mode).queue g = h.queue g := by
  unfold Hw.turnBus
  dsimp only
  split
  · rfl
  · rw [apply_ite (Hw.queue · g)]
    simp only [Hw.queue_countFix, Hw.queue_setPc, Hw.queue_setReg, ite_self]

/-! ### A column is released -/

/-- Bank `k` after a column of `x` at instant `t`. -/
def Bank.noted (k : Bank) (x : QEntry) (t : Nat) : Bank :=
  if decide (x.kind = 1) then { k with lastWrite := some t } else { k with lastRead := some t }

/-- Its bank and its pseudo-channel note a column of `x`. -/
def Hw.columnNoted (h : Hw) (g : Nat) (x : QEntry) : Hw :=
  let h := h.setBank g x.bank ((h.bank g x.bank).noted x h.ps)
  let p := h.pc g
  h.setPc g { p with lastCol := some (h.ps, x.bank, decide (x.kind = 1)), colsSinceTurn := p.colsSinceTurn + 1 }

/-- The next column of `x`. -/
def QEntry.nextCol (x : QEntry) (g : Nat) : Coord := { pc := g % 64, bank := x.bank, row := x.row, col := x.col + x.done }

/-- A write's word goes to the DRAM, a read's is on its way (R76). -/
def Hw.columnMoved (h : Hw) (g : Nat) (x : QEntry) : Hw :=
  if decide (x.kind = 1) then h.putRaw (g / 64) (x.nextCol g) (x.words.getD x.done [])
  else h.setPc g { h.pc g with inflight := (h.pc g).inflight ++
    [(h.ps + h.tim (g / 64) Od.tCl + h.tim (g / 64) Od.tBurst, { x with words := [h.rawCol (g / 64) (x.nextCol g)] })] }

/-- The queue after a column of `x` that is not its last. -/
def stepEntry (q : List QEntry) (x : QEntry) : List QEntry := q.map (fun z => if z = x then { x with done := x.done + 1 } else z)

/-- What a column of `x` counts (R356). -/
def Hw.columnCounted (h : Hw) (g : Nat) (x : QEntry) : Hw :=
  let k := h.bank g x.bank
  let w := decide (x.kind = 1)
  let h := if k.hot then h.countFix g 4 else h
  let h := h.countFix g (if w then 2 else 1)
  if x.kind = 2 ∧ x.done = 0 then h.countFix g 3 else h

theorem Hw.columnCounted_counted (h : Hw) (g : Nat) (x : QEntry) : h.Within countMask (h.columnCounted g x) := by
  have hot : h.Within countMask (if (h.bank g x.bank).hot then h.countFix g 4 else h) :=
    .ite (Hw.countFix_counted ..) (.refl _ _)
  have column := hot.trans (Hw.countFix_counted _ g (if decide (x.kind = 1) then 2 else 1) 1)
  exact .ite (column.trans (Hw.countFix_counted ..)) column

theorem Hw.releaseColumn_more (h : Hw) (g : Nat) (x : QEntry) (hd : x.done < x.ncol) :
    h.releaseColumn g x =
      let m := ((h.columnCounted g x).columnNoted g x).columnMoved g x
      m.setQueue g (stepEntry (m.queue g) x) := by
  have hk := (Hw.columnCounted_counted h g x).count_bank g x.bank
  have hmore : ¬x.ncol < x.done + 1 := by omega
  rw [Hw.columnNoted, hk]
  exact if_neg hmore

/-- The pick itself: one past its age is counted, a read's first column marked in its sample. -/
def Hw.pickNoted (h : Hw) (g : Nat) (x : QEntry) (aged : Bool) : Hw :=
  let h := if aged then h.countFix g 10 else h
  if x.kind == 0 && x.done == 0 then
    h.point x.who.tag 5 (fun p => if p.points.getD 5 none = none then { p with rowHit := true } else p)
  else h

theorem Hw.pickNoted_counted (h : Hw) (g : Nat) (x : QEntry) (aged : Bool) : h.Within countMask (h.pickNoted g x aged) := by
  have old : h.Within countMask (if aged then h.countFix g 10 else h) := .ite (Hw.countFix_counted ..) (.refl _ _)
  exact .ite (old.trans (Hw.point_counted ..)) old

/-- The pick of a column that every timing allows, in the present mode of the bus, is its release. -/
theorem columnPick_release (g : PcIx) (s : State) (x : QEntry) (aged : Bool) (hc : s.hw.canCommand g = true)
    (hb : s.hw.blankSlot (g.val / 64) = false) (hm : (s.hw.busStep g).1 = s.hw.reg Od.pcBusMode g)
    (hx : s.hw.pickColumn g (s.hw.busStep g).2 = some (x, aged)) (hr : s.hw.colReady g x = true) :
    Completes (.columnPick g) s ((s.hw.pickNoted g x aged).releaseColumn g x) := by
  have h : exec (.columnPick g) s = execColumnPick g s := rfl
  rw [Completes, h, execColumnPick, State.on]
  dsimp only
  rw [hc, hb, hm, if_pos rfl, hx]
  dsimp only
  rw [hr]
  rfl

/-- Nothing may be served in the mode the bus steps to: the bus turns, and nothing else. -/
theorem columnPick_none (g : PcIx) (s : State) (hc : s.hw.canCommand g = true) (hb : s.hw.blankSlot (g.val / 64) = false)
    (h0 : (s.hw.busStep g).2 = []) : Completes (.columnPick g) s (s.hw.turnBus g (s.hw.busStep g).1) := by
  have h : exec (.columnPick g) s = execColumnPick g s := rfl
  have hnone (x : Hw) : x.pickColumn g [] = none := rfl
  rw [Completes, h, execColumnPick, State.on]
  dsimp only
  rw [hc, hb, h0, hnone]
  rfl

/-! ### What the release leaves -/

theorem stepEntry_mem (q : List QEntry) (x : QEntry) (hx : x ∈ q) : { x with done := x.done + 1 } ∈ stepEntry q x :=
  List.mem_map.2 ⟨x, hx, if_pos rfl⟩

theorem Hw.columnNoted_pc (h : Hw) (g : Nat) (x : QEntry) : (h.columnNoted g x).pc g =
    { h.pc g with lastCol := some (h.ps, x.bank, decide (x.kind = 1)), colsSinceTurn := (h.pc g).colsSinceTurn + 1 } :=
  Hw.pc_setPc_same ..

theorem Hw.columnNoted_bank (h : Hw) (g : Nat) (x : QEntry) :
    (h.columnNoted g x).bank g x.bank = (h.bank g x.bank).noted x h.ps := Hw.bank_setBank_same ..

theorem Hw.columnMoved_write (h : Hw) (g : Nat) (x : QEntry) (hk : x.kind = 1) : (h.columnMoved g x).sl = h.sl := by
  rw [Hw.columnMoved, if_pos (by simpa using hk)]
  exact (Hw.putRaw_within ..).same .slices (by decide)

theorem Hw.columnMoved_read (h : Hw) (g : Nat) (x : QEntry) (hk : x.kind ≠ 1) :
    h.columnMoved g x = h.setPc g { h.pc g with inflight := (h.pc g).inflight ++
      [(h.ps + h.tim (g / 64) Od.tCl + h.tim (g / 64) Od.tBurst, { x with words := [h.rawCol (g / 64) (x.nextCol g)] })] } :=
  if_neg (by simpa using hk)

/-- A column on the move leaves the banks, the queues and what the pseudo-channel noted of it. -/
theorem Hw.columnMoved_keeps (h : Hw) (g : Nat) (x : QEntry) : (h.columnMoved g x).sl.banks = h.sl.banks ∧
    (h.columnMoved g x).sl.queues = h.sl.queues ∧ ((h.columnMoved g x).pc g).lastCol = (h.pc g).lastCol := by
  by_cases hk : x.kind = 1
  · rw [Hw.pc, Hw.columnMoved_write h g x hk]
    exact ⟨rfl, rfl, rfl⟩
  · rw [Hw.columnMoved_read h g x hk, Hw.pc_setPc_same]
    exact ⟨rfl, rfl, rfl⟩

section

variable (h : Hw) (g : Nat) (x : QEntry) (hd : x.done < x.ncol) (hx : x ∈ h.queue g)
include hd hx

/-- The release is the move of its column, and the step of its entry in the queue. -/
theorem Hw.releaseColumn_sl : (h.releaseColumn g x).sl =
    (((h.columnCounted g x).columnNoted g x).columnMoved g x).sl.withQueue g (stepEntry (h.queue g) x) := by
  obtain ⟨-, hqueues, -⟩ := Hw.columnMoved_keeps ((h.columnCounted g x).columnNoted g x) g x
  have hq : (((h.columnCounted g x).columnNoted g x).columnMoved g x).queue g = h.queue g := by
    rw [Hw.queue, hqueues]
    exact (Hw.columnCounted_counted h g x).count_queue g
  rw [Hw.releaseColumn_more h g x hd]
  dsimp only
  rw [hq]
  exact Hw.setQueue_sl _ _ _ (List.ne_nil_of_mem (stepEntry_mem _ _ hx))

theorem Hw.releaseColumn_queue : { x with done := x.done + 1 } ∈ (h.releaseColumn g x).queue g := by
  rw [Hw.queue_withQueue (Hw.releaseColumn_sl h g x hd hx)]
  exact stepEntry_mem _ _ hx

theorem Hw.releaseColumn_pc : (h.releaseColumn g x).pc g = (((h.columnCounted g x).columnNoted g x).columnMoved g x).pc g := by
  rw [Hw.pc, Hw.releaseColumn_sl h g x hd hx]
  rfl

theorem Hw.releaseColumn_lastCol : ((h.releaseColumn g x).pc g).lastCol = some (h.ps, x.bank, decide (x.kind = 1)) := by
  obtain ⟨-, -, hlast⟩ := Hw.columnMoved_keeps ((h.columnCounted g x).columnNoted g x) g x
  rw [Hw.releaseColumn_pc h g x hd hx, hlast, Hw.columnNoted_pc, (Hw.columnCounted_counted h g x).count_ps]

theorem Hw.releaseColumn_bank : (h.releaseColumn g x).bank g x.bank = (h.bank g x.bank).noted x h.ps := by
  have w := Hw.columnCounted_counted h g x
  obtain ⟨hbanks, -, -⟩ := Hw.columnMoved_keeps ((h.columnCounted g x).columnNoted g x) g x
  have hb : (h.releaseColumn g x).bank g x.bank = ((h.columnCounted g x).columnNoted g x).bank g x.bank := by
    rw [Hw.bank, Hw.releaseColumn_sl h g x hd hx]
    exact congrArg (fun t => Table.atD t (fun _ => ({} : Bank)) (g * 64 + x.bank)) hbanks
  rw [hb, Hw.columnNoted_bank, w.count_ps, w.count_bank]

theorem Hw.releaseColumn_inflight (hk : x.kind ≠ 1) : ((h.releaseColumn g x).pc g).inflight = (h.pc g).inflight ++
    [(h.ps + h.tim (g / 64) Od.tCl + h.tim (g / 64) Od.tBurst, { x with words := [h.rawCol (g / 64) (x.nextCol g)] })] := by
  have w := Hw.columnCounted_counted h g x
  have hnoted (c : Hw) (r : Reg) : (c.columnNoted g x).tim (g / 64) r = c.tim (g / 64) r := rfl
  have hps (c : Hw) : (c.columnNoted g x).ps = c.ps := rfl
  have hraw (c : Hw) : (c.columnNoted g x).rawCol (g / 64) (x.nextCol g) = c.rawCol (g / 64) (x.nextCol g) := rfl
  rw [Hw.releaseColumn_pc h g x hd hx, Hw.columnMoved_read _ _ _ hk, Hw.pc_setPc_same, Hw.columnNoted_pc, hnoted, hnoted, hps, hraw,
    w.count_tim _ _ (by decide), w.count_tim _ _ (by decide), w.count_ps, w.count_pc, w.count_rawCol]

end

end Sys2Proof.Machine
end

section
/-! The activate pick (R79, R89): what counting an activate leaves of the banks and of the rotation. -/

namespace Sys2Proof.Machine

/-- From `a` to `b` the banks and every pseudo-channel's place in the rotation are the same. -/
structure Hw.RowsKept (a b : Hw) : Prop where
  banks : b.sl.banks = a.sl.banks
  ptr : ∀ g, (b.pc g).ptr = (a.pc g).ptr

theorem Hw.RowsKept.refl (a : Hw) : a.RowsKept a := ⟨rfl, fun _ => rfl⟩

theorem Hw.RowsKept.trans {a b c : Hw} (h1 : a.RowsKept b) (h2 : b.RowsKept c) : a.RowsKept c :=
  ⟨h2.banks.trans h1.banks, fun g => (h2.ptr g).trans (h1.ptr g)⟩

theorem Hw.RowsKept.ite {a x y : Hw} {p : Prop} [Decidable p] (hx : a.RowsKept x) (hy : a.RowsKept y) :
    a.RowsKept (if p then x else y) := by
  split
  · exact hx
  · exact hy

theorem Hw.RowsKept.of_sl {a b : Hw} (h : b.sl = a.sl) : a.RowsKept b := by
  refine ⟨congrArg SliceSt.banks h, fun g => ?_⟩
  rw [Hw.pc, h]
  rfl

theorem Hw.RowsKept.setPc (a : Hw) (g : Nat) (x : Pc) (hx : x.ptr = (a.pc g).ptr) : a.RowsKept (a.setPc g x) := by
  refine ⟨rfl, fun i => ?_⟩
  by_cases hi : i = g
  · rw [hi, Hw.pc_setPc_same, hx]
  · rw [Hw.pc_setPc_ne _ _ _ _ hi]

theorem Hw.countFix_rowsKept (h : Hw) (g e n : Nat) : h.RowsKept (h.countFix g e n) := .of_sl (Hw.countFix_sl ..)

theorem Hw.noteAct_rowsKept (h : Hw) (g b t : Nat) : h.RowsKept (h.noteAct g b t) := .setPc _ _ _ rfl

theorem Hw.setRa_rowsKept (h : Hw) (g b i : Nat) (e : RaEntry) : h.RowsKept (h.setRa g b i e) := ⟨rfl, fun _ => rfl⟩

theorem Hw.queueRfm_rowsKept (h : Hw) (g b : Nat) : h.RowsKept (h.queueRfm g b) :=
  .ite (.refl h) (.ite (.setPc _ _ _ rfl) (.setPc _ _ _ rfl))

theorem Hw.setThrottles_rowsKept (h : Hw) (g : Nat) (l : List Throttle) : h.RowsKept (h.setThrottles g l) :=
  (Hw.RowsKept.setPc h g { h.pc g with throttles := l } rfl).trans ⟨rfl, fun _ => rfl⟩

theorem Hw.throttle_rowsKept (h : Hw) (g r b : Nat) : h.RowsKept (h.throttle g r b) := by
  unfold Hw.throttle
  extract_lets l till counted new first room
  have hcounted : h.RowsKept counted := Hw.countFix_rowsKept ..
  have hroom : counted.RowsKept room :=
    .ite (Hw.setThrottles_rowsKept ..) ((Hw.countFix_rowsKept ..).trans (Hw.setThrottles_rowsKept ..))
  refine .ite (hcounted.trans (Hw.setThrottles_rowsKept ..)) (hcounted.trans (hroom.trans (.of_sl ?_)))
  exact (Hw.raise_within ..).same .slices (by decide)

theorem Hw.track_rowsKept (h : Hw) (g b r : Nat) (attr : Option Nat) : h.RowsKept (h.track g b r attr) := by
  unfold Hw.track
  extract_lets ix found free least pick
  clear_value pick
  cases pick with
  | none => exact .refl h
  | some p =>
    dsimp only
    refine .ite ?_ (Hw.setRa_rowsKept ..)
    have hqueued (e : RaEntry) : h.RowsKept (((h.setRa g b p.1 e).countFix g 13).queueRfm g b) :=
      (Hw.setRa_rowsKept ..).trans ((Hw.countFix_rowsKept ..).trans (Hw.queueRfm_rowsKept ..))
    split
    · exact (hqueued _).trans (Hw.throttle_rowsKept ..)
    · exact hqueued _

/-- Bank `b` of pseudo-channel `g` opens row `r`, and the rotation goes on behind it. -/
def Hw.openRow (h : Hw) (g b r : Nat) : Hw :=
  let h := h.setBank g b { row := some r, actAt := some h.ps, preAt := none, streak := 0 }
  h.setPc g { h.pc g with ptr := (b + 1) % 64, lastGrp := b / 4 }

/-- The activate of entry `x` is noted for t_rrd and t_faw, for its requester, its sample and the row-activity tracker. -/
def Hw.noteActivate (h : Hw) (g b : Nat) (x : QEntry) : Hw :=
  let h := (h.noteAct g b h.ps).countFix g 0
  let h := match x.who.attr with
    | some r => h.setPc g { h.pc g with reqActs := noteReqAct (h.pc g).reqActs r b h.now }
    | none => h
  let h := if x.kind = 0 then h.point x.who.tag 5 else h
  h.track g b x.row x.who.attr

theorem Hw.noteActivate_rowsKept (h : Hw) (g b : Nat) (x : QEntry) : h.RowsKept (h.noteActivate g b x) := by
  unfold Hw.noteActivate
  extract_lets acted _ charged marked
  have hacted : h.RowsKept acted := (Hw.noteAct_rowsKept ..).trans (Hw.countFix_rowsKept ..)
  have hcharged : acted.RowsKept charged := by
    unfold charged
    split
    · exact .setPc _ _ _ rfl
    · exact .refl _
  clear_value acted charged
  have hmarked : charged.RowsKept marked := .ite (.of_sl (Hw.point_sl ..)) (.refl _)
  exact hacted.trans (hcharged.trans (hmarked.trans (Hw.track_rowsKept ..)))

/-- The block after an activate of bank `b` for entry `x`: conflicting rows are closed, its row opens and the activate is noted. -/
def Hw.activated (h : Hw) (g b : Nat) (x : QEntry) : Hw := ((h.closeConflicts g).openRow g b x.row).noteActivate g b x

theorem activatePick_activates (g : PcIx) (s : State) (b : Nat) (x : QEntry) (hc : s.hw.canCommand g = true)
    (hb : s.hw.blankSlot (g.val / 64) = false) (hp : (s.hw.closeConflicts g).pickActivate g = some b)
    (he : (s.hw.closeConflicts g).actEntry g b = some x) (hr : (s.hw.closeConflicts g).actReady g b = true) :
    Completes (.activatePick g) s (s.hw.activated g b x) := by
  have h : exec (.activatePick g) s = execActivatePick g s := rfl
  rw [Completes, h, execActivatePick, State.on]
  dsimp only
  rw [hc, hb, hp]
  dsimp only
  rw [he]
  dsimp only
  rw [hr]
  rfl

theorem Hw.activated_bank (h : Hw) (g b : Nat) (x : QEntry) :
    (h.activated g b x).bank g b = { row := some x.row, actAt := some h.ps, preAt := none, streak := 0 } := by
  have hnow : (h.closeConflicts g).now = h.now := (Hw.closeConflicts_within ..).same .time (by decide)
  have hps : (h.closeConflicts g).ps = h.ps := congrArg (· * 1000) hnow
  rw [Hw.bank, Hw.activated, (Hw.noteActivate_rowsKept ..).banks, ← hps]
  exact Hw.bank_setBank_same ..

theorem Hw.activated_ptr (h : Hw) (g b : Nat) (x : QEntry) : ((h.activated g b x).pc g).ptr = (b + 1) % 64 := by
  rw [Hw.activated, (Hw.noteActivate_rowsKept ..).ptr, Hw.openRow, Hw.pc_setPc_same]

end Sys2Proof.Machine
end

section
/-! Column data (R119): a clean word that arrives. -/

namespace Sys2Proof.Machine

/-- Pseudo-channel `g` with the columns of `l` on their way. -/
def Hw.setInflight (h : Hw) (g : Nat) (l : List (Nat × QEntry)) : Hw := h.setPc g { h.pc g with inflight := l }

/-- What a column is read with depends on the lanes and the rebuild of its pseudo-channel, not on the columns on their way. -/
theorem Hw.erasures_setInflight (h : Hw) (g : Nat) (l : List (Nat × QEntry)) (s : Nat) (c : Coord) :
    (h.setInflight g l).erasures s c = h.erasures s c := by
  unfold Hw.erasures Hw.setInflight
  dsimp only
  by_cases hg : gOf s c.pc = g
  · rw [hg, Hw.pc_setPc_same]
    rfl
  · rw [Hw.pc_setPc_ne _ _ _ _ hg]
    rfl

theorem Hw.landCol_clean (h : Hw) (kind s : Nat) (c : Coord) (raw : List Byte) (req : Option Nat) (source : Nat) (data : List Byte)
    (p : List Nat) (hd : rsDecode (h.erasures s c) raw = (.clean, data, p)) :
    h.landCol kind s c raw req source = (.clean, data, h) := by
  unfold Hw.landCol
  rw [hd]
  rfl

/-- A clean column is not a read's last: it is held in the tracker entry. -/
theorem Hw.deliver_part (h : Hw) (uid at_ : Nat) (data : List Byte) (u : Tracker) (hu : h.trk uid = some u) (hl : 1 < u.piecesLeft) :
    h.deliver uid at_ data false 1 = h.setTrk uid { u with out := u.out ++ [(at_, data)], piecesLeft := u.piecesLeft - 1 } := by
  have hmore : u.piecesLeft - 1 ≠ 0 := by omega
  unfold Hw.deliver
  rw [hu]
  exact if_neg hmore

/-- The word of `x` as it arrives, with the errors `flips`. -/
def QEntry.arrived (x : QEntry) (flips : List (Fin 36 × Byte)) : List Byte :=
  flips.foldl (fun (w : List Byte) (f : Fin 36 × Byte) => w.set f.1 (w.getD f.1 0 ^^^ f.2)) (x.words.headD [])

theorem columnData_clean (g : PcIx) (flips : List (Fin 36 × Byte)) (s : State) (t : Nat) (x : QEntry) (rest : List (Nat × QEntry))
    (u : Tracker) (data : List Byte) (p : List Nat) (hin : (s.hw.pc g).inflight = (t, x) :: rest) (ht : t ≤ s.hw.ps)
    (hk : x.kind = 0) (hu : s.hw.trk x.who.tag = some u) (hl : 1 < u.piecesLeft)
    (hd : rsDecode (s.hw.erasures (g.val / 64) (x.nextCol g)) (x.arrived flips) = (.clean, data, p))
    (hs : let off := s.hw.offOf (g.val / 64) (x.nextCol g)
      (s.hw.unsettledLines (secKey (g.val / 64) off)).testBit (off % 256 / 64) = false) :
    let off := s.hw.offOf (g.val / 64) (x.nextCol g)
    Completes (.columnData g flips) s ((s.hw.setInflight g rest).setTrk x.who.tag
      { u with out := u.out ++ [(dpaOf (g.val / 64) (s.hw.visible (g.val / 64) off) - u.rq.addr, s.hw.decCol (g.val / 64) off data)],
               piecesLeft := u.piecesLeft - 1 }) := by
  have h : exec (.columnData g flips) s = execColumnData g flips s := rfl
  rw [← Hw.erasures_setInflight s.hw g rest] at hd
  intro off
  rw [Completes, h, execColumnData, State.on]
  extract_lets gv st
  split
  case h_1 hempty =>
    rw [hin] at hempty
    cases hempty
  case h_2 heq =>
    rw [hin] at heq
    cases heq
    extract_lets popped raw c
    have hland := Hw.landCol_clean (s.hw.setInflight g rest) (if x.kind = 2 then 0x10 else 2) st c raw x.who.attr x.who.source
      data p hd
    have hpopped : popped = s.hw.setInflight g rest := rfl
    clear_value popped
    subst hpopped
    have hu' : (s.hw.setInflight g rest).trk x.who.tag = some u := hu
    have hs' : ((s.hw.setInflight g rest).unsettledLines (secKey st ((s.hw.setInflight g rest).offOf st c))).testBit
      ((s.hw.setInflight g rest).offOf st c % 256 / 64) = false := hs
    rw [if_neg (by omega), hland]
    dsimp only
    rw [if_neg (by omega), hu']
    dsimp only
    rw [hs', if_neg (by decide)]
    exact congrArg (fun k => Host.Outcome.next { s with hw := k }) (Hw.deliver_part _ _ _ _ u hu' hl)

end Sys2Proof.Machine
end

section
/-! Admission, picks and column data of a pseudo-channel together. -/

namespace Sys2Proof.Machine

/-- Settles O25: admission, the bus without work, a column, an activate and a clean word that arrives, one row after another. -/
theorem schedulerPicks : Obligations.SchedulerPicks := by
  intro g s st
  refine ⟨fun x hl hx => ?_, fun hc hb h0 => ?_, fun x aged hc hb hm hx hr hd => ?_,
    fun b x hc hb hp he hr => ⟨_, activatePick_activates g s b x hc hb hp he hr, Hw.activated_bank .., Hw.activated_ptr ..⟩,
    fun flips t x rest u data p hin ht hk hu hl hd hs => ?_⟩
  · obtain ⟨hlen, hlast⟩ := Hw.moveToBank_queue s.hw g x
    exact ⟨_, queueEntryAdmit_moves g s x hl hx, Hw.moveToBank_stage s.hw g x, hlen, hlast⟩
  · obtain ⟨hmode, -⟩ := Hw.busStep_offers s.hw g
    exact ⟨_, columnPick_none g s hc hb h0, Hw.turnBus_mode s.hw g _ hmode, Hw.turnBus_queue s.hw g _⟩
  · have w := Hw.pickNoted_counted s.hw g x aged
    have hmem : x ∈ (s.hw.pickNoted g x aged).queue g :=
      w.count_queue g ▸ Hw.qualify_subset _ _ ((Hw.busStep_offers s.hw g).2 (Hw.pickColumn_mem _ _ _ _ _ hx))
    have hps := w.count_ps
    have hbank := Hw.releaseColumn_bank _ g x hd hmem
    rw [hps] at hbank
    refine ⟨_, columnPick_release g s x aged hc hb hm hx hr, ?_, Hw.releaseColumn_queue _ g x hd hmem, fun hk => ?_,
      fun hk => ⟨?_, ?_⟩⟩
    · rw [Hw.releaseColumn_lastCol _ g x hd hmem, hps]
    · rw [hbank, Bank.noted, if_pos (by simpa using hk)]
    · rw [hbank, Bank.noted, if_neg (by simpa using hk)]
    · rw [Hw.releaseColumn_inflight _ g x hd hmem hk, w.count_pc, hps, w.count_tim _ _ (by decide),
        w.count_tim _ _ (by decide), w.count_rawCol]
      rfl
  · exact ⟨_, columnData_clean g flips s t x rest u data p hin ht hk hu hl hd hs,
      congrArg Pc.inflight (Hw.pc_setPc_same ..), Hw.trk_setTrk_same ..⟩

end Sys2Proof.Machine
end

section
/-! Two statements that fail where the register file holds more than a register's eight bits: O26 and O27. Neither has a premise
that the registers hold values of their widths; both equate the register that a row stores into, which is cut to its width, with
the value stored, or a register left as it is with its value cut to the width. -/

namespace Sys2Proof.Machine

/-! ### O26: a pending multiplier that does not fit -/

/-- Stack 0 is in a refresh epoch, and its pending multiplier reads 256. -/
def wideMultiplierBlock : Hw :=
  { od := [(odKey Od.refPendingMultiplier 0 0, 256)], timers := [(Tm.base Tm.refDue 0, 1)] }

/-- The multiplier of stack 0 once the change has taken effect. -/
def wideMultiplierAfter : Nat :=
  match exec (.refreshMultiplierChange 0) { hw := wideMultiplierBlock, pending := [] } with
  | .next t => t.hw.reg Od.refMultiplier 0
  | _ => 256

theorem wideMultiplierAfter_eq : wideMultiplierAfter = 0 := by decide +kernel

/-- Refutes O26, in its clause of a changed multiplier: in `wideMultiplierBlock` the pending multiplier reads 256, and the multiplier
that it becomes is cut to eight bits. -/
theorem not_refreshAndRfm : ¬ Obligations.RefreshAndRfm := by
  intro h
  obtain ⟨-, -, -, hchange, -⟩ := h 0 0 { hw := wideMultiplierBlock, pending := [] }
  obtain ⟨k, hk, hreg, -⟩ := hchange (by decide +kernel) (by decide +kernel) (by decide +kernel)
  have hafter : wideMultiplierAfter = k.reg Od.refMultiplier 0 := by rw [wideMultiplierAfter, hk]
  have hwide : wideMultiplierBlock.reg Od.refPendingMultiplier 0 = 256 := by decide +kernel
  have hboth : (0 : Nat) = 256 := wideMultiplierAfter_eq.symm.trans (hafter.trans (hreg.trans hwide))
  exact absurd hboth (by decide)

/-! ### O27: a thermal level that does not fit -/

/-- Stack 0 runs at the level that its thermal unit asks for, and both registers read 256. -/
def wideLevelBlock : Hw := { od := [(odKey Od.thermLevel 0 0, 256), (odKey Od.thermLevelThermal 0 0, 256)] }

/-- The level of stack 0 after the row of a level change, which has nothing to do. -/
def wideLevelAfter : Nat :=
  match exec (.thermalLevelChange 0) { hw := wideLevelBlock, pending := [] } with
  | .next t => t.hw.reg Od.thermLevel 0
  | _ => 0

theorem wideLevelAfter_eq : wideLevelAfter = 256 := by decide +kernel

/-- Refutes O27, in its clause of a level taken at once: in `wideLevelBlock` the level asked for is the present one, 256, so that the
register is left as it is and does not hold the level cut to eight bits. -/
theorem not_levelsAndStartUp : ¬ Obligations.LevelsAndStartUp := by
  intro h
  obtain ⟨hlevel, -⟩ := h 0 0 { hw := wideLevelBlock, pending := [] }
  obtain ⟨k, hk, hreg⟩ := hlevel (by decide +kernel) (by decide +kernel)
  have hafter : wideLevelAfter = k.reg Od.thermLevel 0 := by rw [wideLevelAfter, hk]
  have hcut : wideLevelBlock.wantLevel 0 % 2 ^ Od.thermLevel.width = 0 := by decide +kernel
  have hboth : (256 : Nat) = 0 := wideLevelAfter_eq.symm.trans (hafter.trans (hreg.trans hcut))
  exact absurd hboth (by decide)

end Sys2Proof.Machine
end

section
/-! Concrete states that meet the hypotheses of O25, row by row, and what it then says of them. -/

namespace Sys2Proof.Machine

/-- Pseudo-channel 0 is READY over the slices `sl`; request 9 waits for two columns. -/
def readyOver (sl : SliceSt) : State :=
  { hw := ({ now := 5000, sl := sl, req := { trackers := [(9, { rq := { op := 1 }, piecesLeft := 2 })] } } : Hw).setReg Od.pcState 0 4,
    pending := [] }

/-- Request 9's read of two columns of bank 0, row 0. -/
def twoColumns : QEntry :=
  { kind := 0, who := { source := 0, cls := 0, attr := none, tag := 9 }, bank := 0, row := 0, col := 0, ncol := 1, arrival := 4000,
    sector := 0 }

/-- The read waits in the input stage. -/
theorem twoColumns_admitted : Leads (.queueEntryAdmit 0) (readyOver { stage := [(0, [twoColumns])] })
    (fun h => h.stage 0 = [] ∧ (h.queue 0).length = 1) := by
  obtain ⟨hadmit, -⟩ := schedulerPicks 0 (readyOver { stage := [(0, [twoColumns])] })
  obtain ⟨k, hk, hstage, hlen, -⟩ := hadmit twoColumns (by decide +kernel) (by decide +kernel)
  exact ⟨k, hk, hstage.trans (by decide +kernel), hlen.trans (by decide +kernel)⟩

/-- The bank queue is empty. -/
theorem emptyQueue_picked : Leads (.columnPick 0) (readyOver {}) (fun h => h.reg Od.pcBusMode 0 = Bus.read ∧ h.queue 0 = []) := by
  obtain ⟨-, hidle, -⟩ := schedulerPicks 0 (readyOver {})
  obtain ⟨k, hk, hmode, hqueue⟩ := hidle (by decide +kernel) (by decide +kernel) (by decide +kernel)
  exact ⟨k, hk, hmode.trans (by decide +kernel), hqueue.trans (by decide +kernel)⟩

/-- The read stands in the bank queue, and its row is open. -/
theorem twoColumns_picked : Leads (.columnPick 0) (readyOver { queues := [(0, [twoColumns])], banks := [(0, { row := some 0 })] })
    (fun h => { twoColumns with done := 1 } ∈ h.queue 0 ∧ ((h.pc 0).inflight).length = 1) := by
  obtain ⟨-, -, hcolumn, -⟩ := schedulerPicks 0 (readyOver { queues := [(0, [twoColumns])], banks := [(0, { row := some 0 })] })
  obtain ⟨k, hk, -, hqueue, -, hread⟩ := hcolumn twoColumns false (by decide +kernel) (by decide +kernel) (by decide +kernel)
    (by decide +kernel) (by decide +kernel) (by decide)
  obtain ⟨-, hin⟩ := hread (by decide)
  exact ⟨k, hk, hqueue, (congrArg List.length hin).trans (by decide +kernel)⟩

/-- The read stands in the bank queue, and its bank is closed. -/
theorem twoColumns_activated : Leads (.activatePick 0) (readyOver { queues := [(0, [twoColumns])] })
    (fun h => (h.bank 0 0).row = some 0) := by
  obtain ⟨-, -, -, hactivate, -⟩ := schedulerPicks 0 (readyOver { queues := [(0, [twoColumns])] })
  obtain ⟨k, hk, hbank, -⟩ := hactivate 0 twoColumns (by decide +kernel) (by decide +kernel) (by decide +kernel)
    (by decide +kernel) (by decide +kernel)
  exact ⟨k, hk, congrArg Bank.row hbank⟩

/-- The read's first column, the zero code word, arrives. -/
theorem twoColumns_arrived : Leads (.columnData 0 [])
    (readyOver { pcs := [(0, { inflight := [(0, { twoColumns with words := [List.replicate 36 0] })] })] })
    (fun h => (h.pc 0).inflight = [] ∧ ∃ u, h.trk 9 = some u ∧ u.piecesLeft = 1) := by
  obtain ⟨-, -, -, -, hdata⟩ := schedulerPicks 0
    (readyOver { pcs := [(0, { inflight := [(0, { twoColumns with words := [List.replicate 36 0] })] })] })
  obtain ⟨k, hk, hin, htrk⟩ := hdata [] 0 _ [] _ (List.replicate 32 0) [] rfl (by decide +kernel) rfl rfl (by decide)
    (by decide +kernel) (by decide +kernel)
  exact ⟨k, hk, hin, _, htrk, rfl⟩

end Sys2Proof.Machine
end

section
/-! The default frame at reset (R111). -/

namespace Sys2Proof.Machine

/-! ### What unwritten registers read -/

/-- A register whose reset value is one number reads it at every index until it is written. -/
theorem odDefault_plain {r : Reg} {f : FieldDesc} (hf : fieldOf r = some f) (hs : r.sub < 256)
    (hr : r ∉ [Od.classQuota, Od.frameMap, Od.routeKind, Od.routeTarget, Od.routeMask]) (i e : Nat) :
    odDefault (odKey r i e) = f.reset := by
  simp only [List.mem_cons, List.not_mem_nil, or_false, not_or] at hr
  obtain ⟨hquota, hmap, hkind, htarget, hmask⟩ := hr
  rw [odDefault, keyReg_odKey r i e hs, if_neg hquota, if_neg hmap, if_neg hkind, if_neg htarget, if_neg hmask, hf]

theorem odDefault_frameMap (i e : Nat) : odDefault (odKey Od.frameMap i e) = defaultFrameMap := by
  rw [odDefault, keyReg_odKey _ i e (by decide), if_neg (by decide), if_pos rfl]

/-! ### The bytes of a frame map -/

/-- The number whose byte `k` is `b k`, for `k` below `n`. -/
def ofBytes (b : Nat → Nat) (n : Nat) : Nat := (List.range n).foldl (fun a k => a + b k * 2 ^ (8 * k)) 0

theorem ofBytes_succ (b : Nat → Nat) (n : Nat) : ofBytes b (n + 1) = ofBytes b n + b n * 2 ^ (8 * n) := by
  rw [ofBytes, List.range_succ, List.foldl_append, ofBytes]
  rfl

section
variable {b : Nat → Nat} (hb : ∀ k, b k < 256)
include hb

theorem ofBytes_lt (n : Nat) : ofBytes b n < 2 ^ (8 * n) := by
  induction n with
  | zero => exact Nat.two_pow_pos _
  | succ n ih =>
    have hpow : 2 ^ (8 * (n + 1)) = 256 * 2 ^ (8 * n) := by rw [Nat.mul_add, pow_add, mul_comm]; rfl
    have hbyte : (b n + 1) * 2 ^ (8 * n) ≤ 256 * 2 ^ (8 * n) := Nat.mul_le_mul_right _ (hb n)
    rw [ofBytes_succ, hpow]
    rw [Nat.add_mul] at hbyte
    omega

/-- Each byte reads back. -/
theorem ofBytes_byte {n i : Nat} (hi : i < n) : ofBytes b n / 2 ^ (8 * i) % 256 = b i := by
  induction n with
  | zero => exact absurd hi (Nat.not_lt_zero i)
  | succ n ih =>
    rw [ofBytes_succ]
    rcases Nat.lt_succ_iff_lt_or_eq.1 hi with hlt | rfl
    · have hpow : b n * 2 ^ (8 * n) = 256 * (b n * 2 ^ (8 * (n - i - 1))) * 2 ^ (8 * i) := by
        have hsplit : 8 * n = 8 * (n - i - 1) + 8 * i + 8 := by omega
        rw [hsplit, pow_add, pow_add]
        ring
      rw [hpow, Nat.add_mul_div_right _ _ (Nat.two_pow_pos _), Nat.add_mul_mod_self_left, ih hlt]
    · rw [Nat.add_mul_div_right _ _ (Nat.two_pow_pos _), Nat.div_eq_of_lt (ofBytes_lt hb i), Nat.zero_add, Nat.mod_eq_of_lt (hb i)]

end

theorem defaultFrameByte_lt (i : Nat) : defaultFrameByte i < 256 := by
  unfold defaultFrameByte
  repeat' split
  all_goals decide

/-- The bytes of the default map are the default frame's. -/
theorem defaultFrameMap_byte {i : Nat} (hi : i < 64) : defaultFrameMap / 2 ^ (8 * i) % 256 = defaultFrameByte i :=
  ofBytes_byte defaultFrameByte_lt hi

/-- The slots that hold `v` in the default map, found in the default frame. -/
theorem filter_defaultFrameMap (v : Nat) :
    (List.range 64).filter (fun i => defaultFrameMap / 2 ^ (8 * i) % 256 == v) =
      (List.range 64).filter (fun i => defaultFrameByte i == v) :=
  List.filter_congr (fun i hi => by rw [defaultFrameMap_byte (List.mem_range.1 hi)])

/-- Settles O8: byte by byte, and then by counting the slots of each owner. -/
theorem defaultFrame : Obligations.DefaultFrame := by
  intro s byte count
  have hbyte (i : Nat) : byte i = defaultFrameMap / 2 ^ (8 * i) % 256 := by
    have hmap : State.reset.hw.reg Od.frameMap s = defaultFrameMap := odDefault_frameMap s 0
    unfold byte
    rw [hmap]
  have hcount (v : Nat) : count v = ((List.range 64).filter (fun i => defaultFrameByte i == v)).length := by
    unfold count
    simp only [hbyte, filter_defaultFrameMap]
  have hgap : State.reset.hw.reg Od.frameLongestC0Gap s = 3 :=
    odDefault_plain (r := Od.frameLongestC0Gap) rfl (by decide) (by decide) s 0
  refine ⟨fun i => (hbyte i).trans (defaultFrameMap_byte i.isLt), ?_⟩
  simp only [hcount, hgap]
  decide

end Sys2Proof.Machine
end

section
/-! What an event leaves of the requests: all but what the ports hold (R346 to R352). -/

namespace Sys2Proof.Machine

/-- From `a` to `b`, of ports, trackers, windows, arbiters and credits, at most what the ports hold has changed. -/
def Hw.PortsOnly (a b : Hw) : Prop := ∃ p, b.req = { a.req with ports := p }

theorem Hw.PortsOnly.of_req {a b : Hw} (h : b.req = a.req) : a.PortsOnly b := ⟨a.req.ports, h⟩

theorem Hw.PortsOnly.trans {a b c : Hw} (h1 : a.PortsOnly b) (h2 : b.PortsOnly c) : a.PortsOnly c := by
  obtain ⟨p, hp⟩ := h1
  obtain ⟨q, hq⟩ := h2
  exact ⟨q, by rw [hq, hp]⟩

theorem Hw.PortsOnly.fold {α : Type} {f : Hw → α → Hw} (hf : ∀ (x : Hw) (i : α), x.PortsOnly (f x i)) (l : List α) (a : Hw) :
    a.PortsOnly (l.foldl f a) :=
  List.foldlRecOn (motive := a.PortsOnly) l f (.of_req rfl) (fun x hx i _ => hx.trans (hf x i))

theorem Hw.PortsOnly.arb {a b : Hw} (h : a.PortsOnly b) (s : Nat) : b.arb s = a.arb s := by
  obtain ⟨p, hp⟩ := h
  rw [Hw.arb, hp]
  rfl

theorem Hw.sendEvt_portsOnly (h : Hw) (r : Nat) (e : Event) : h.PortsOnly (h.sendEvt r e).2 := by
  unfold Hw.sendEvt
  dsimp only
  split
  · exact ⟨_, rfl⟩
  · exact .of_req rfl

theorem Hw.routeTake_portsOnly (h : Hw) (k : Nat) (e : Event) : h.PortsOnly (h.routeTake k e) := by
  have hdrop (x : Hw) : x.PortsOnly ((x.addReg Od.routeDropped k).countSel 0x10 k) := .of_req (Hw.countSel_req ..)
  have hend (ok : Bool) (x : Hw) (hx : h.PortsOnly x) :
      h.PortsOnly (if ok then x.satReg Od.routePending k else (x.addReg Od.routeDropped k).countSel 0x10 k) := by
    split
    · exact hx.trans (.of_req (by unfold Hw.satReg; split <;> rfl))
    · exact hx.trans (hdrop x)
  have hsend (c : Bool) (x y : Hw) (hx : h.PortsOnly x) (hy : h.PortsOnly y) :
      h.PortsOnly (if c then (true, x) else (false, y)).2 := by
    cases c
    · exact hy
    · exact hx
  unfold Hw.routeTake
  dsimp only
  split
  · exact (Hw.PortsOnly.of_req rfl : h.PortsOnly (h.addReg Od.routeSeq k)).trans (hdrop _)
  · refine hend _ _ ?_
    split
    · exact hsend _ _ _ ⟨_, rfl⟩ (.of_req rfl)
    · exact hsend _ _ _ (.of_req rfl) (.of_req rfl)
    · exact .of_req rfl
    · exact .of_req rfl

/-- An event reaches routes, requesters and the ring; of the requests it changes what the ports hold. -/
theorem Hw.raise_portsOnly (h : Hw) (e : Event) : h.PortsOnly (h.raise e) := by
  unfold Hw.raise
  extract_lets routed sent
  have hrouted : h.PortsOnly routed := by
    refine .fold (fun x k => ?_) _ h
    split
    · exact Hw.routeTake_portsOnly ..
    · exact .of_req rfl
  have hsent : routed.PortsOnly sent := .fold (fun x r => Hw.sendEvt_portsOnly x r e) _ _
  exact hrouted.trans (hsent.trans (.of_req (Hw.ringAdvance_events_req (sent.nextSeq 4096).2)))

end Sys2Proof.Machine
end

section
/-! What a grant that passes leaves of the arbiters' decisions: the request that goes on may end at once, and repeats that waited
for it may join a queue (R66, R99, R140). -/

namespace Sys2Proof.Machine

/-- What the arbiter of stack `s` has decided: the grant that comes next, and whether the present one is a dead step. -/
def Hw.decision (h : Hw) (s : Nat) : Option Grant × Bool := ((h.arb s).next, (h.arb s).dead)

theorem Hw.decision_of_arbs {a b : Hw} (h : b.req.arbs = a.req.arbs) (s : Nat) : b.decision s = a.decision s := by
  rw [Hw.decision, Hw.arb, h]
  rfl

/-- An arbiter is stored whose decision is the one it held. -/
theorem Hw.decision_setArb (h : Hw) (i : Nat) (a : Arb) (ha : (a.next, a.dead) = h.decision i) (s : Nat) :
    (h.setArb i a).decision s = h.decision s := by
  by_cases hs : s = i
  · rw [hs, Hw.decision, Hw.arb_setArb_same, ha]
  · rw [Hw.decision, Hw.arb_setArb_ne _ _ _ _ hs, Hw.decision]

theorem Hw.decision_enqueueArb (h : Hw) (uid i src cls s : Nat) : (h.enqueueArb uid i src cls).decision s = h.decision s :=
  Hw.decision_setArb h i _ (by rfl) s

theorem Hw.point_arbs (h : Hw) (uid k : Nat) (f : Sample → Sample) : (h.point uid k f).req.arbs = h.req.arbs := by
  unfold Hw.point
  split
  · split <;> rfl
  · rfl

theorem Hw.winDone_arbs (h : Hw) (r n st : Nat) : (h.winDone r n st).req.arbs = h.req.arbs := by
  unfold Hw.winDone
  split <;> rfl

theorem Hw.emit_arbs (h : Hw) (n : Nat) (u : OutUnit) : (h.emit n u).req.arbs = h.req.arbs := by
  unfold Hw.emit
  split <;> rfl

theorem Hw.releaseTrk_arbs (h : Hw) (uid : Nat) : (h.releaseTrk uid).req.arbs = h.req.arbs := by
  have hsample (t : Tracker) : (h.writeSample t).req.arbs = h.req.arbs := congrArg ReqSt.arbs (Hw.writeSample_req h t)
  unfold Hw.releaseTrk
  split
  · dsimp only
    split
    · exact hsample _
    · exact (congrArg ReqSt.arbs (Hw.noteGate_req ..)).trans (hsample _)
  · rfl

theorem Hw.answer_arbs (h : Hw) (uid st : Nat) (d : List Byte) (psn : List Bool) : (h.answer uid st d psn).req.arbs = h.req.arbs := by
  unfold Hw.answer
  split
  · split
    · rfl
    · dsimp only
      split
      · exact Hw.releaseTrk_arbs ..
      · refine (Hw.emit_arbs ..).trans ?_
        split <;> rfl
  · rfl

theorem Hw.decision_settleWin (h : Hw) (r : Rq) (st s : Nat) : (h.settleWin r st).decision s = h.decision s := by
  unfold Hw.settleWin
  split
  · split
    · rfl
    · dsimp only
      refine List.foldlRecOn (motive := fun x : Hw => x.decision s = h.decision s) _ _
        (Hw.decision_of_arbs (Hw.winDone_arbs ..) s) (fun x hx uid _ => ?_)
      split
      · split
        · exact (Hw.decision_enqueueArb ..).trans hx
        · exact (Hw.decision_of_arbs (Hw.answer_arbs ..) s).trans hx
      · exact hx
  · rfl

theorem Hw.decision_complete (h : Hw) (uid st : Nat) (d : List Byte) (psn : List Bool) (s : Nat) :
    (h.complete uid st d psn).decision s = h.decision s := by
  unfold Hw.complete
  split
  · split
    · rfl
    · exact (Hw.decision_of_arbs (Hw.answer_arbs ..) s).trans (Hw.decision_settleWin ..)
  · rfl

theorem Hw.decision_answerLost (h : Hw) (uid : Nat) (r : Rq) (s : Nat) : (h.answerLost uid r).decision s = h.decision s := by
  unfold Hw.answerLost
  split <;> exact Hw.decision_complete ..

theorem Hw.sendQanat_req (h : Hw) (stack : Nat) (e : Bool) (kind vc : Nat) (payload : List Byte) :
    (h.sendQanat stack e kind vc payload).req = h.req := (Hw.sendQanat_within ..).same .requests (by decide)

theorem Hw.sendIntents_req (h : Hw) (r : Rq) : (h.sendIntents r).req = h.req :=
  (Hw.sendIntents_within ..).same .requests (by decide)

theorem Hw.decision_forward (h : Hw) (uid s : Nat) : (h.forward uid).decision s = h.decision s := by
  unfold Hw.forward
  split
  · rfl
  · extract_lets r st req gone birsp fwd to_ told headed sent
    split
    · exact Hw.decision_of_arbs (congrArg ReqSt.arbs (Hw.sendQanat_req gone ..)) s
    · have hsent : sent.req = fwd.req := by
        have hheaded : headed.req = fwd.req := (Hw.sendQanat_req ..).trans (Hw.sendIntents_req ..)
        unfold sent
        split
        · exact hheaded
        · exact (Hw.sendQanat_req ..).trans hheaded
      have hon : sent.decision s = h.decision s := Hw.decision_of_arbs (congrArg ReqSt.arbs hsent) s
      split
      · exact Hw.decision_complete ..
      · split
        · exact Hw.decision_answerLost ..
        · split <;> exact hon

theorem Hw.decision_passHeader (h : Hw) (i src cls uid s : Nat) : (h.passHeader i src cls uid).decision s = h.decision s := by
  unfold Hw.passHeader
  split
  · rfl
  · extract_lets a key q dequeued credited counted marked charged
    have hdequeued : dequeued.decision s = h.decision s := Hw.decision_setArb h i _ (by rfl) s
    have hcredited : credited.decision s = dequeued.decision s :=
      List.foldlRecOn (motive := fun x : Hw => x.decision s = dequeued.decision s) _ _ rfl (fun _ hx _ _ => hx)
    have hcounted : counted.decision s = credited.decision s := Hw.decision_of_arbs (congrArg ReqSt.arbs (Hw.countSel_req ..)) s
    have hmarked : marked.decision s = counted.decision s := Hw.decision_of_arbs (Hw.point_arbs ..) s
    have hcharged : charged.decision s = marked.decision s := by
      refine Hw.decision_of_arbs (congrArg ReqSt.arbs ?_) s
      unfold charged
      split
      · rfl
      · exact (Hw.charge_within ..).same .requests (by decide)
    calc ((charged.forward uid).noteGate _).decision s
        = (charged.forward uid).decision s := Hw.decision_of_arbs (congrArg ReqSt.arbs (Hw.noteGate_req ..)) s
      _ = charged.decision s := Hw.decision_forward ..
      _ = h.decision s := hcharged.trans (hmarked.trans (hcounted.trans (hcredited.trans hdequeued)))

/-- Headers that pass leave every arbiter's decision. -/
theorem Hw.decision_passHeaders (i src cls n : Nat) (h : Hw) (s : Nat) :
    (Hw.passHeaders i src cls n h).2.decision s = h.decision s := by
  induction n generalizing h with
  | zero => rfl
  | succ n ih =>
    unfold Hw.passHeaders
    split
    · exact (ih _).trans (Hw.decision_passHeader ..)
    · rfl

end Sys2Proof.Machine
end

section
/-! The pick and the grants of a stack ingress arbiter (R101, R102, R103). -/

namespace Sys2Proof.Machine

/-! ### The pick -/

/-- A choice that keeps what it holds or takes the next one ends on one of those offered. -/
theorem mem_of_foldl_choice {α : Type} (f : Option α → α → Option α) (hf : ∀ b c, f b c = b ∨ f b c = some c) (l : List α) (w : α)
    (hw : l.foldl f none = some w) : w ∈ l := by
  refine List.foldlRecOn (motive := fun b => ∀ w, b = some w → w ∈ l) l f (fun _ h => absurd h (by simp)) (fun b hb c hc w hw => ?_) w hw
  rcases hf b c with h | h
  · exact hb w (h.symm.trans hw)
  · obtain rfl : c = w := Option.some.inj (h.symm.trans hw)
    exact hc

/-- The winner is one of the candidates; it is the next grant's owner, and the window has one grant more. -/
theorem Arb.pick_spec (a : Arb) (cands : List (Nat × Nat)) (owner : Option Nat) (w : Nat × Nat) (b : Arb)
    (h : a.pick cands owner = some (w, b)) :
    w ∈ cands ∧ b.next = some { source := w.1, cls := w.2 } ∧ b.windowGrants = a.windowGrants + 1 := by
  unfold Arb.pick at h
  extract_lets owned inSlot free set r top p best at h
  obtain ⟨x, hx, hxw⟩ := Option.map_eq_some_iff.1 h
  obtain ⟨rfl, rfl⟩ := Prod.mk.inj hxw
  have howned : owned ⊆ cands := by
    unfold owned
    split
    · exact List.filter_subset_self _
    · exact List.nil_subset _
  have hset : set ⊆ cands := by
    unfold set
    split
    · exact howned
    · split
      · exact List.Subset.refl _
      · exact List.filter_subset_self _
  have htop : x ∈ top := by
    refine mem_of_foldl_choice _ (fun b c => ?_) top x hx
    split
    · split
      · exact .inr rfl
      · exact .inl rfl
    · exact .inr rfl
  exact ⟨hset (List.mem_of_mem_filter htop), rfl, rfl⟩

theorem Hw.arbiterPick_picks (h : Hw) (stack : Nat) (w : Nat × Nat) (b : Arb) (hn : (h.arb stack).next = none)
    (hg : (h.arb stack).windowGrants < 256)
    (hp : (h.arb stack).pick (h.candidates stack) (h.slotOwner stack (h.now / 16 % 64)) = some (w, b)) :
    h.arbiterPick stack = h.setArb stack b := by
  have hopen : ¬((h.arb stack).next.isSome = true ∨ 256 ≤ (h.arb stack).windowGrants) := by
    rw [hn]
    simp only [Option.isSome_none, Bool.false_eq_true, false_or]
    omega
  rw [Hw.arbiterPick, if_neg hopen, hp]

/-! ### The grant that starts -/

/-- What a queue offers does not depend on what its arbiter has decided. -/
theorem Hw.candidate_setArb (h : Hw) (s : Nat) (a : Arb) (hq : a.queues = (h.arb s).queues) (src cls : Nat) :
    (h.setArb s a).candidate s src cls = h.candidate s src cls := by
  have hfront : (h.setArb s a).front s src cls = h.front s src cls := by
    rw [Hw.front, Hw.arb_setArb_same, hq]
    rfl
  rw [Hw.candidate, hfront]
  rfl

theorem Hw.passHeaders_le (s src cls n : Nat) (h : Hw) : (Hw.passHeaders s src cls n h).1 ≤ n := by
  induction n generalizing h with
  | zero => exact Nat.le_refl 0
  | succ n ih =>
    unfold Hw.passHeaders
    split
    · exact Nat.succ_le_succ (ih _)
    · exact Nat.zero_le _

/-- A queue that offers a candidate passes at least one header. -/
theorem Hw.passHeaders_pos (s src cls n : Nat) (h : Hw) (hc : h.candidate s src cls ≠ none) (hn : 1 ≤ n) :
    1 ≤ (Hw.passHeaders s src cls n h).1 := by
  obtain ⟨uid, hu⟩ := Option.ne_none_iff_exists'.1 hc
  obtain ⟨n, rfl⟩ := Nat.exists_eq_add_of_le' hn
  unfold Hw.passHeaders
  rw [hu]
  exact Nat.le_add_left _ _

theorem Hw.grantStart_dead (h : Hw) (stack : Nat) (g : Grant) (hg : (h.arb stack).next = some g)
    (hc : h.candidate stack g.source g.cls = none) :
    h.grantStart stack = h.setArb stack { h.arb stack with next := none, current := none, dead := true } := by
  rw [Hw.grantStart, hg]
  dsimp only
  rw [hc]
  rfl

/-- The block once the grant decided at `stack` has begun to pass. -/
def Hw.beginGrant (h : Hw) (stack : Nat) : Hw := h.setArb stack { h.arb stack with next := none, dead := false }

theorem Hw.grantStart_passes (h : Hw) (stack : Nat) (g : Grant) (hg : (h.arb stack).next = some g)
    (hc : h.candidate stack g.source g.cls ≠ none) :
    let p := Hw.passHeaders stack g.source g.cls (h.reg Od.arbBurstMax) (h.beginGrant stack)
    h.grantStart stack = p.2.setArb stack { p.2.arb stack with current := some { g with passed := p.1 } } := by
  have hsome : ¬(h.candidate stack g.source g.cls).isNone = true := by simpa using hc
  rw [Hw.grantStart, hg]
  dsimp only
  rw [if_neg hsome]
  rfl

/-- A grant that starts and has its candidate passes between one and arb_burst_max headers. -/
theorem Hw.grantStart_current (h : Hw) (stack : Nat) (g : Grant) (hg : (h.arb stack).next = some g)
    (hc : h.candidate stack g.source g.cls ≠ none) (hb : 1 ≤ h.reg Od.arbBurstMax) :
    let k := (h.grantStart stack).arb stack
    k.next = none ∧ k.dead = false ∧ ∃ n, 1 ≤ n ∧ n ≤ h.reg Od.arbBurstMax ∧ k.current = some { g with passed := n } := by
  have hbegun : (h.beginGrant stack).decision stack = (none, false) := by rw [Hw.decision, Hw.beginGrant, Hw.arb_setArb_same]
  have hcand : (h.beginGrant stack).candidate stack g.source g.cls ≠ none :=
    (Hw.candidate_setArb h stack { h.arb stack with next := none, dead := false } rfl _ _).trans_ne hc
  have hpassed := (Hw.decision_passHeaders stack g.source g.cls (h.reg Od.arbBurstMax) (h.beginGrant stack) stack).trans hbegun
  obtain ⟨hnext, hdead⟩ := Prod.mk.inj hpassed
  rw [Hw.grantStart_passes h stack g hg hc]
  dsimp only
  rw [Hw.arb_setArb_same]
  exact ⟨hnext, hdead, _, Hw.passHeaders_pos _ _ _ _ _ hcand hb, Hw.passHeaders_le .., rfl⟩

/-! ### The cut-off -/

theorem execBurstCutoff_cuts (stack : StackIx) (s : State) (g : Grant) (hg : (s.hw.arb stack).current = some g)
    (hb : s.hw.reg Od.arbBurstMax ≤ g.passed) (hc : (s.hw.candidate stack g.source g.cls).isSome = true) (hs : g.source < 33) :
    Leads (.burstCutoff stack) s (fun h => (h.arb stack).current = none ∧
      h.reg Od.arbCutoffs = (s.hw.reg Od.arbCutoffs + 1) % 2 ^ Od.arbCutoffs.width) := by
  let cut := (s.hw.setArb stack { s.hw.arb stack with current := none }).addReg Od.arbCutoffs 0
  let e : Event := { kind := 6, stack := some stack.val, payload := packFields [(8, g.source)] }
  have hexec : exec (.burstCutoff stack) s = .next { s with hw := cut.raise e } := by
    have h : exec (.burstCutoff stack) s = execBurstCutoff stack s := rfl
    rw [h, execBurstCutoff, State.on]
    dsimp only
    rw [hg]
    dsimp only
    rw [if_pos ⟨hb, hc, hs⟩]
  refine ⟨_, hexec, ?_, ?_⟩
  · rw [(Hw.raise_portsOnly cut e).arb]
    exact congrArg Arb.current (Hw.arb_setArb_same ..)
  · rw [(Hw.raise_within cut e).reg _ _ (by decide)]
    exact Hw.reg_addReg_same ..

end Sys2Proof.Machine
end

section
/-! Credits, quota windows, the frame and the miss periods of a stack ingress (R100, R105, R109, R110, R116). -/

namespace Sys2Proof.Machine

/-! ### A credit comes back -/

theorem dispatchCreditReturn_leads (g : PcIx) (c0 : Bool) (s : State) : let k := g.val * 2 + (if c0 then 0 else 1)
    Table.atD s.hw.req.creditsDue (fun _ => 0) k ≠ 0 → Leads (.dispatchCreditReturn g c0) s (fun h =>
      Table.atD h.req.creditsDue (fun _ => 0) k = Table.atD s.hw.req.creditsDue (fun _ => 0) k - 1 ∧
      h.heldCredits g (!c0) = s.hw.heldCredits g (!c0) - 1) := by
  intro k hd
  have hkey (x : Hw) : x.heldCredits g (!c0) = Table.atD x.req.credits (fun _ => 0) k := by cases c0 <;> rfl
  refine .of_eq rfl (if_neg hd) ⟨Table.atD_setD_same s.hw.req.creditsDue (fun _ => 0) _ _, ?_⟩
  rw [hkey, hkey]
  exact Table.atD_setD_same s.hw.req.credits (fun _ => 0) _ _

/-! ### The quota window ends -/

theorem Table.look_map_keys {α : Type} (f : Nat → α) (l : List Nat) (k : Nat) (hk : k ∈ l) :
    Table.look (l.map (fun c => (c, f c))) k = some (f k) := by
  induction l with
  | nil => cases hk
  | cons c l ih =>
    rw [List.map_cons, Table.look]
    split
    · next h => rw [h]
    · next h => exact ih ((List.mem_cons.1 hk).resolve_left (Ne.symm h))

/-- What an arbiter adopts of a class register reads as the register, for every class. -/
theorem Table.atD_adopted (f d : Nat → Nat) (c : Nat) (hc : c < 8) : Table.atD ((List.range 8).map (fun c => (c, f c))) d c = f c := by
  rw [Table.atD, Table.look_map_keys f _ c (List.mem_range.2 hc)]
  rfl

theorem quotaWindowEnd_leads (stack : StackIx) (s : State) (hw : 256 ≤ (s.hw.arb stack).windowGrants) :
    Leads (.quotaWindowEnd stack) s (fun h => (h.arb stack).windowGrants = 0 ∧ (h.arb stack).quotaUsed = [] ∧
      ∀ c, c < 8 → (h.arb stack).quota c = s.hw.reg Od.classQuota c ∧ (h.arb stack).ageStep c = max 1 (s.hw.reg Od.classAgeStep c) ∧
        (h.arb stack).missLimit c = s.hw.reg Od.classMissThreshold c) := by
  refine .of_eq rfl (if_neg (Nat.not_lt.2 hw)) ?_
  rw [Hw.arb_setArb_same]
  exact ⟨rfl, rfl, fun c hc => ⟨Table.atD_adopted _ _ c hc, congrArg (max 1) (Table.atD_adopted _ _ c hc), Table.atD_adopted _ _ c hc⟩⟩

/-! ### A slot starts -/

theorem Hw.slotOwner_of_map {a b : Hw} {s : Nat} (h : (b.arb s).mapNow = (a.arb s).mapNow) (i : Nat) :
    b.slotOwner s i = a.slotOwner s i := by
  rw [Hw.slotOwner, h, Hw.slotOwner]

/-- The arbiter of stack `s` once slot number `slot` has taken a written map into effect (R110). -/
def Hw.adoptMap (h : Hw) (s slot : Nat) : Arb :=
  if slot % 64 = 0 then { h.arb s with mapNow := some (h.reg Od.frameMap s) } else h.arb s

/-- The slot's class is noted at stack `s`: no grant of it has started, and whether it waits (R116). -/
def Hw.noteSlot (h : Hw) (s slot : Nat) : Hw :=
  h.setArb s { h.arb s with
    slotClass := h.slotOwner s (slot % 64), slotGranted := false,
    slotWaiting := match h.slotOwner s (slot % 64) with | some c => h.classWaits s c | none => false }

theorem Hw.timer_setArb (h : Hw) (s : Nat) (a : Arb) (kind n : Nat) : (h.setArb s a).timer kind n = h.timer kind n := rfl

theorem execFrameSlotStart_starts (stack : StackIx) (s : State) (ht : s.hw.timer Tm.slot stack ≠ s.hw.now / 16 + 1) :
    let h := (s.hw.endSlot stack).setTimer Tm.slot stack (s.hw.now / 16 + 1)
    Completes (.frameSlotStart stack) s ((h.setArb stack (h.adoptMap stack (s.hw.now / 16))).noteSlot stack (s.hw.now / 16)) := by
  intro h
  have hexec : exec (.frameSlotStart stack) s = execFrameSlotStart stack s := rfl
  rw [Completes, hexec, execFrameSlotStart, State.on]
  dsimp only
  rw [if_neg ht, Hw.noteSlot, Hw.arb_setArb_same]
  rfl

theorem frameSlotStart_leads (stack : StackIx) (s : State) (ht : s.hw.timer Tm.slot stack ≠ s.hw.now / 16 + 1) :
    Leads (.frameSlotStart stack) s (fun h => h.timer Tm.slot stack = s.hw.now / 16 + 1 ∧ (h.arb stack).slotGranted = false ∧
      (h.arb stack).slotClass = h.slotOwner stack (s.hw.now / 16 % 64) ∧
      (s.hw.now / 16 % 64 = 0 → (h.arb stack).mapNow = some (s.hw.reg Od.frameMap stack))) := by
  refine ⟨_, execFrameSlotStart_starts stack s ht, ?_, ?_⟩
  · exact (Hw.timer_setArb ..).trans ((Hw.timer_setArb ..).trans (Hw.timer_setTimer_same ..))
  generalize hh : (s.hw.endSlot stack).setTimer Tm.slot stack (s.hw.now / 16 + 1) = h
  have hmap : h.reg Od.frameMap stack = s.hw.reg Od.frameMap stack := by
    rw [← hh, Hw.reg_setTimer]
    exact (Hw.endSlot_within ..).reg _ _ (by decide)
  have hnoted (x : Hw) (slot : Nat) : ((x.noteSlot stack slot).arb stack).mapNow = (x.arb stack).mapNow := by
    rw [Hw.noteSlot, Hw.arb_setArb_same]
  refine ⟨congrArg Arb.slotGranted (Hw.arb_setArb_same ..), ?_, fun h0 => ?_⟩
  · rw [Hw.slotOwner_of_map (hnoted _ _)]
    exact congrArg Arb.slotClass (Hw.arb_setArb_same ..)
  · rw [hnoted, Hw.arb_setArb_same, Hw.adoptMap, if_pos h0, hmap]

/-! ### The miss period ends -/

/-- LEVEL of `v` is low once it has fallen, and stays low. -/
theorem Hw.uncross_low (h : Hw) (w v : Nat) (hv : w = v ∨ h.reg Od.wmLevel v = 0) : (h.uncross w).reg Od.wmLevel v = 0 := by
  by_cases hk : odKey Od.wmLevel v 0 = odKey Od.wmLevel w 0
  · have hsame := Hw.reg_setReg_same h Od.wmLevel w 0
    rw [Nat.zero_mod, Hw.reg, Hw.elem, ← hk] at hsame
    exact hsame
  · have hne : w ≠ v := fun e => hk (by rw [e])
    exact (Hw.elem_setElem_ne h Od.wmLevel Od.wmLevel w v 0 0 0 hk).trans (hv.resolve_left hne)

/-- The levels of `n + c`, for the classes `c` of a list, fall. -/
def Hw.uncrossAll (h : Hw) (n : Nat) (cs : List Nat) : Hw := cs.foldl (fun h c => h.uncross (n + c)) h

theorem Hw.uncrossAll_low (cs : List Nat) (h : Hw) (n c : Nat) (hc : c ∈ cs ∨ h.reg Od.wmLevel (n + c) = 0) :
    (h.uncrossAll n cs).reg Od.wmLevel (n + c) = 0 := by
  induction cs generalizing h with
  | nil => exact hc.resolve_left List.not_mem_nil
  | cons d cs ih =>
    refine ih (h.uncross (n + d)) ?_
    rcases hc with hc | hc
    · rcases List.mem_cons.1 hc with rfl | hc
      · exact .inr (Hw.uncross_low _ _ _ (.inl rfl))
      · exact .inl hc
    · exact .inr (Hw.uncross_low _ _ _ (.inr hc))

theorem Hw.uncrossAll_within (h : Hw) (n : Nat) (cs : List Nat) : h.Within Od.wmLevel.mask (h.uncrossAll n cs) :=
  .fold (fun _ _ hx => hx.trans (Hw.setReg_within ..)) (.refl _ _)

theorem missPeriodEnd_leads (stack : StackIx) (s : State) (hd : s.hw.due Tm.missPeriod stack = true) :
    Leads (.missPeriodEnd stack) s (fun h => (h.arb stack).periodMiss = [] ∧
      h.timer Tm.missPeriod stack = (s.hw.now / 1048576 + 1) * 1048576 ∧ ∀ c, c < 8 → h.reg Od.wmLevel (stack * 8 + c) = 0) := by
  let cleared := s.hw.setArb stack { s.hw.arb stack with periodMiss := [] }
  have w := Hw.uncrossAll_within cleared (stack * 8) (List.range 8)
  have hnow : (cleared.uncrossAll (stack * 8) (List.range 8)).now = s.hw.now := w.same .time (by decide)
  have hexec : Completes (.missPeriodEnd stack) s ((cleared.uncrossAll (stack * 8) (List.range 8)).setTimer Tm.missPeriod stack
      ((s.hw.now / 1048576 + 1) * 1048576)) := by
    have h : exec (.missPeriodEnd stack) s = execMissPeriodEnd stack s := rfl
    rw [Completes, h, execMissPeriodEnd, State.on, ← hnow]
    dsimp only
    rw [hd]
    rfl
  refine ⟨_, hexec, ?_, Hw.timer_setTimer_same .., fun c hc =>
    (Hw.reg_setTimer ..).trans (Hw.uncrossAll_low _ _ _ _ (.inl (List.mem_range.2 hc)))⟩
  rw [Hw.arb_of_req (Hw.setTimer_req ..), Hw.arb_of_req (w.same .requests (by decide)), Hw.arb_setArb_same]

/-- Settles O28, one row after another. -/
theorem arbiterGrants : Obligations.ArbiterGrants := by
  intro stack s a
  refine ⟨fun w b hn hw hp => ?_, fun g hg => ⟨fun hc => ?_, fun hc hb => ?_⟩,
    fun g hg hb hc hs => execBurstCutoff_cuts stack s g hg hb hc hs, fun g c0 => dispatchCreditReturn_leads g c0 s,
    fun hw => quotaWindowEnd_leads stack s hw, fun ht => frameSlotStart_leads stack s ht, fun hd => missPeriodEnd_leads stack s hd⟩
  · obtain ⟨hmem, hnext, hgrants⟩ := Arb.pick_spec a _ _ w b hp
    exact .of_eq rfl (Hw.arbiterPick_picks s.hw stack w b hn hw hp) ⟨Hw.arb_setArb_same .., hnext, hmem, hgrants⟩
  · refine .of_eq rfl (Hw.grantStart_dead s.hw stack g hg hc) ?_
    rw [Hw.arb_setArb_same]
    exact ⟨rfl, rfl, rfl⟩
  · exact ⟨_, rfl, Hw.grantStart_current s.hw stack g hg hc hb⟩

end Sys2Proof.Machine
end

section
/-! A write of the dictionary that is accepted, and signed registers (R312, R323). -/

namespace Sys2Proof.Machine

/-! ### An accepted write stores -/

/-- A listed code of an enumeration is stored as it is written. -/
theorem Hw.check_code (h : Hw) {f : FieldDesc} {r : Reg} {codes : List Nat} (hty : f.ty = .enum8 codes) (i v : Nat)
    (hv : v ∈ codes) (hlt : v % 2 ^ f.ty.width = v) (hmask : silentMask r v = v) (hown : h.ownCheck r i v = v) :
    h.check f r i v = some (v, false) := by
  unfold Hw.check
  dsimp only
  rw [hlt, hmask, hty]
  dsimp only
  rw [if_pos (List.contains_iff_mem.2 hv), hown, decide_eq_false (not_not_intro rfl)]

/-- A write that nothing blocks and that fits its field: it is stored, and then at most passed on. -/
theorem Hw.writeOne_stores {h : Hw} {a : Actor} {r : Reg} {f : FieldDesc} {i e v : Nat} {b : Option Nat}
    (hf : h.fieldAt r i = some f) (hcmd : f.cmd = false) (hr : h.remoteCopy r.index i = false) (hlt : v % 2 ^ f.ty.width = v)
    (hb : h.blocks a r i v b = none) (hc : h.check f r i v = some (v, false)) (hd : dependents r = []) :
    (h.store a r i e v).Within passedOnMask (h.writeOne a r i e v b).2 := by
  unfold Hw.writeOne
  rw [hf]
  dsimp only
  rw [if_neg (by rw [hr]; decide), hlt, hb]
  dsimp only
  rw [hc]
  dsimp only
  rw [hcmd, hd]
  simp only [Bool.false_eq_true, if_false, List.foldl_nil]
  split
  · exact .step (Hw.passOn_within ..) (by decide) (.step (Hw.mirrorDict_within ..) (by decide) (.refl _ _))
  · exact .refl _ _

/-! ### Signed registers -/

theorem Hw.sreg_of_reg {a b : Hw} {r : Reg} {i : Nat} (h : b.reg r i = a.reg r i) : b.sreg r i = a.sreg r i := by
  rw [Hw.sreg, h, Hw.sreg]

/-- Two's complement on `2 * p` codes reads back what lies within its range. -/
theorem twosComplement_reads_back (p : Nat) (v : Int) (hlo : -(p : Int) ≤ v) (hhi : v < p) :
    let x := (v % (2 * p : Nat)).toNat % (2 * p)
    (if x < p then (x : Int) else x - (2 * p : Nat)) = v := by
  intro x
  rcases Int.lt_or_le v 0 with hv | hv
  · have hmod : v % (2 * p : Nat) = v + (2 * p : Nat) := by
      rw [← Int.add_emod_right]
      exact Int.emod_eq_of_lt (by omega) (by omega)
    have hx : x = (v + (2 * p : Nat)).toNat := by
      unfold x
      rw [hmod]
      exact Nat.mod_eq_of_lt (by omega)
    rw [hx, if_neg (by omega)]
    omega
  · have hmod : v % (2 * p : Nat) = v := Int.emod_eq_of_lt hv (by omega)
    have hx : x = v.toNat := by
      unfold x
      rw [hmod]
      exact Nat.mod_eq_of_lt (by omega)
    rw [hx, if_pos (by omega)]
    omega

/-- A signed number that fits its register reads back. -/
theorem Hw.sreg_setSreg_same (h : Hw) (r : Reg) (i : Nat) (v : Int) (hw : 0 < r.width) (hlo : -(2 : Int) ^ (r.width - 1) ≤ v)
    (hhi : v < 2 ^ (r.width - 1)) : (h.setSreg r i v).sreg r i = v := by
  have hwidth : 2 ^ r.width = 2 * 2 ^ (r.width - 1) := (mul_pow_sub_one hw.ne' 2).symm
  have hreg : (h.setSreg r i v).reg r i = (v % (2 ^ r.width : Nat)).toNat % 2 ^ r.width := Hw.reg_setReg_same ..
  have hback := twosComplement_reads_back (2 ^ (r.width - 1)) v (by exact_mod_cast hlo) (by exact_mod_cast hhi)
  rw [← hwidth] at hback
  rw [Hw.sreg, hreg]
  exact_mod_cast hback

end Sys2Proof.Machine
end

section
/-! Changes of the service mode (R112). -/

namespace Sys2Proof.Machine

theorem Hw.setMode_mode (h : Hw) (m : Nat) : (h.setMode m).reg Od.serviceMode = m % 2 ^ Od.serviceMode.width := by
  unfold Hw.setMode
  extract_lets set req fresh
  have hset : set.reg Od.serviceMode = m % 2 ^ Od.serviceMode.width := Hw.reg_setReg_same ..
  have hfresh : fresh.reg Od.serviceMode = set.reg Od.serviceMode := by
    unfold fresh
    split <;> rfl
  exact List.foldlRecOn (motive := fun x : Hw => x.reg Od.serviceMode = m % 2 ^ Od.serviceMode.width) _ _ (hfresh.trans hset)
    (fun x hx r _ => ((Hw.noteGate_within x r).reg _ _ (by decide)).trans hx)

/-- START_UP or TEST to NORMAL. -/
theorem Hw.writeServiceMode_normal (h : Hw) (a : Actor) (ho : h.reg Od.serviceMode = 1 ∨ h.reg Od.serviceMode = 2) :
    h.writeServiceMode a 0 = h.setMode 0 := by
  unfold Hw.writeServiceMode
  rcases ho with ho | ho <;> rw [ho] <;> rfl

/-- NORMAL to TEST. -/
theorem Hw.writeServiceMode_test (h : Hw) (a : Actor) (ho : h.reg Od.serviceMode = 0) : h.writeServiceMode a 2 = h.setMode 2 := by
  unfold Hw.writeServiceMode
  rw [ho]
  rfl

/-- A write of service_mode that is accepted: what it does, and then what passes it on. -/
theorem Hw.dictWrite_serviceMode (h : Hw) (a : Actor) (v : Nat) (hacc : h.accepts a Od.serviceMode 0 v) (hv : v ∈ [0, 1, 2, 3]) :
    (h.writeServiceMode a v).Within passedOnMask (h.dictWrite a Od.serviceMode 0 v) := by
  obtain ⟨hmay, hfield, hremote, -⟩ := hacc
  obtain ⟨f, hf⟩ := Option.isSome_iff_exists.1 hfield
  obtain ⟨hty, hcmd⟩ : f.ty = .enum8 [0, 1, 2, 3] ∧ f.cmd = false := by
    have hd : ((fieldOf Od.serviceMode).map (fun f => (f.ty, f.cmd))) = some (.enum8 [0, 1, 2, 3], false) := by decide
    rw [Hw.fieldAt_of hf] at hd
    exact Prod.mk.inj (Option.some.inj hd)
  have hlt : v % 2 ^ f.ty.width = v := by
    have hw : f.ty.width = 8 := by rw [hty]; rfl
    rw [hw]
    simp only [List.mem_cons, List.not_mem_nil, or_false] at hv
    omega
  have hmask : silentMask Od.serviceMode v = v := by
    unfold silentMask
    rw [if_neg (by decide), if_neg (by decide), if_neg (by decide)]
  have hown : h.ownCheck Od.serviceMode 0 v = v := by
    unfold Hw.ownCheck
    rw [if_neg (fun c => absurd c.1 (by decide)), if_neg (by decide), if_neg (fun c => absurd c.1 (by decide)),
      if_neg (fun c => absurd c.1 (by decide)), if_neg (by decide)]
  have hblocks : h.blocks a Od.serviceMode 0 v none = none := by
    unfold Hw.blocks
    dsimp only
    iterate 16 rw [if_neg (by decide)]
  rw [Hw.dictWrite, if_pos hmay, Hw.writeItem, if_neg (by decide), ← Hw.store_serviceMode h a 0 0 v]
  exact Hw.writeOne_stores hf hcmd hremote hlt hblocks (Hw.check_code h hty 0 v hv hlt hmask hown) (by decide)

/-- An accepted write of a mode that the present one leads to enters it. -/
theorem Hw.dictWrite_mode (h : Hw) (a : Actor) (v : Nat) (hacc : h.accepts a Od.serviceMode 0 v) (hv : v ∈ [0, 1, 2, 3])
    (hw : h.writeServiceMode a v = h.setMode v) : (h.dictWrite a Od.serviceMode 0 v).reg Od.serviceMode = v % 2 ^ Od.serviceMode.width := by
  have w := Hw.dictWrite_serviceMode h a v hacc hv
  rw [hw] at w
  exact (w.reg _ _ (by decide)).trans (Hw.setMode_mode h v)

end Sys2Proof.Machine
end

section
/-! The boundary of a requester's byte window (R113, R115). -/

namespace Sys2Proof.Machine

theorem Hw.refillCredit_regNow (h : Hw) (r bytes : Nat) : (h.refillCredit r bytes).req.regNow = h.req.regNow := by
  unfold Hw.refillCredit
  dsimp only
  split <;> rfl

/-- In NORMAL a boundary refills the credit; an overdraft carries over, but not into a window that starts fresh. -/
theorem Hw.refillCredit_credit (h : Hw) (r bytes : Nat) (hm : h.reg Od.serviceMode = 0) (hb : bytes ≠ 0) (hlt : bytes < 2 ^ 62)
    (hlo : -(2 : Int) ^ 62 ≤ h.sreg Od.regCredit r) : (h.refillCredit r bytes).sreg Od.regCredit r = (bytes : Int) +
      if Table.atD h.req.regFresh (fun _ => 0) r = Table.atD h.req.regFresh (fun _ => 0) 4096 then min (h.sreg Od.regCredit r) 0
      else 0 := by
  have hwidth : Od.regCredit.width = 64 := by decide
  unfold Hw.refillCredit
  extract_lets gen fresh req marked
  have hcredit : marked.sreg Od.regCredit r = h.sreg Od.regCredit r := rfl
  rw [if_pos ⟨hm, hb⟩, hcredit, Hw.sreg_setSreg_same _ _ _ _ (by rw [hwidth]; decide) (by rw [hwidth]; split <;> omega)
    (by rw [hwidth]; split <;> omega), Int.add_comm]
  by_cases hf : Table.atD h.req.regFresh (fun _ => 0) r = gen
  · rw [if_pos hf]
    simp [fresh, hf]
  · rw [if_neg hf]
    simp [fresh, hf]

/-- The instants that tell how long a requester is gated are the only ones kept with its gate. -/
theorem Hw.noteGate_timer (h : Hw) (r kind n : Nat) (hk : Tm.base kind n ≠ Tm.base Tm.gate r) :
    (h.noteGate r).timer kind n = h.timer kind n := by
  unfold Hw.noteGate
  dsimp only
  split
  · split
    · exact Hw.timer_setTimer_ne _ _ _ _ _ _ hk
    · rfl
  · split
    · rfl
    · exact Hw.timer_setTimer_ne _ _ _ _ _ _ hk

/-- The settings of requester `r` as the dictionary holds them. -/
def Hw.regRecord (h : Hw) (r : Nat) : Nat × Nat × Nat := (h.reg Od.regBytes r, h.reg Od.regWindowLog2 r, h.reg Od.regOutstanding r)

/-- The block once a boundary has counted that requester `r` is gated, and adopted its settings. -/
def Hw.adoptRegs (h : Hw) (r : Nat) : Hw :=
  let c := if h.gated r then h.countSel 9 r else h
  { c with req.regNow := Table.setD c.req.regNow (fun _ => (0, 12, 64)) r (c.regRecord r) }

theorem Hw.adoptRegs_within (h : Hw) (r : Nat) : h.Within (Od.selCount.mask ||| 4096) (h.adoptRegs r) := by
  unfold Hw.adoptRegs
  extract_lets c req
  have hc : h.Within (Od.selCount.mask ||| 4096) c := .ite (.step (Hw.countSel_within ..) (by decide) (.refl _ _)) (.refl _ _)
  exact .step (Hw.putReq_within c _) (by decide) hc

theorem Hw.adoptRegs_regFresh (h : Hw) (r : Nat) : (h.adoptRegs r).req.regFresh = h.req.regFresh := by
  unfold Hw.adoptRegs
  dsimp only
  split
  · rw [Hw.countSel_req]
  · rfl

theorem Hw.adoptRegs_regSet (h : Hw) (r : Nat) : (h.adoptRegs r).regSet r = h.regRecord r := by
  have w := Hw.adoptRegs_within h r
  have hrecord : (h.adoptRegs r).regRecord r = h.regRecord r := by
    rw [Hw.regRecord, w.reg _ _ (by decide), w.reg _ _ (by decide), w.reg _ _ (by decide), Hw.regRecord]
  rw [← hrecord]
  exact Table.atD_setD_same _ (fun _ => (0, 12, 64)) r _

/-- A boundary adopts the settings, refills the credit by them and sets the next boundary. -/
theorem Hw.windowBoundary_eq (h : Hw) (r : Nat) : h.windowBoundary r =
    (((h.adoptRegs r).refillCredit r (h.reg Od.regBytes r)).setTimer Tm.reg r
      ((h.now / 2 ^ h.reg Od.regWindowLog2 r + 1) * 2 ^ h.reg Od.regWindowLog2 r)).noteGate r := by
  have w := Hw.adoptRegs_within h r
  have hnow : ((h.adoptRegs r).refillCredit r (h.reg Od.regBytes r)).now = h.now :=
    ((Hw.refillCredit_within ..).same .time (by decide)).trans (w.same .time (by decide))
  have hbytes : (h.adoptRegs r).reg Od.regBytes r = h.reg Od.regBytes r := w.reg _ _ (by decide)
  have hlog : (h.adoptRegs r).reg Od.regWindowLog2 r = h.reg Od.regWindowLog2 r := w.reg _ _ (by decide)
  rw [← hnow, ← hlog, ← hbytes]
  rfl

theorem Hw.windowBoundary_regSet (h : Hw) (r : Nat) : (h.windowBoundary r).regSet r = h.regRecord r := by
  have hset {a b : Hw} (hr : b.req.regNow = a.req.regNow) : b.regSet r = a.regSet r := by rw [Hw.regSet, hr, Hw.regSet]
  rw [Hw.windowBoundary_eq, hset (congrArg ReqSt.regNow (Hw.noteGate_req ..))]
  exact (hset (Hw.refillCredit_regNow ..)).trans (Hw.adoptRegs_regSet h r)

theorem Hw.windowBoundary_timer (h : Hw) (r : Nat) : let w := h.reg Od.regWindowLog2 r
    (h.windowBoundary r).timer Tm.reg r = (h.now / 2 ^ w + 1) * 2 ^ w := by
  have hk : Tm.base Tm.reg r ≠ Tm.base Tm.gate r := by
    unfold Tm.base Tm.reg Tm.gate
    omega
  dsimp only
  rw [Hw.windowBoundary_eq, Hw.noteGate_timer _ _ _ _ hk, Hw.timer_setTimer_same]

theorem Hw.windowBoundary_credit (h : Hw) (r : Nat) (hm : h.reg Od.serviceMode = 0) (hb : h.reg Od.regBytes r ≠ 0)
    (hlt : h.reg Od.regBytes r < 2 ^ 62) (hlo : -(2 : Int) ^ 62 ≤ h.sreg Od.regCredit r) :
    (h.windowBoundary r).sreg Od.regCredit r = (h.reg Od.regBytes r : Int) +
      if Table.atD h.req.regFresh (fun _ => 0) r = Table.atD h.req.regFresh (fun _ => 0) 4096 then min (h.sreg Od.regCredit r) 0
      else 0 := by
  have w := Hw.adoptRegs_within h r
  have hcredit : (h.adoptRegs r).sreg Od.regCredit r = h.sreg Od.regCredit r := Hw.sreg_of_reg (w.reg _ _ (by decide))
  have hrefill := Hw.refillCredit_credit (h.adoptRegs r) r _ ((w.reg _ _ (by decide)).trans hm) hb hlt (hcredit ▸ hlo)
  rw [hcredit, Hw.adoptRegs_regFresh] at hrefill
  rw [Hw.windowBoundary_eq, ← hrefill]
  exact Hw.sreg_of_reg (((Hw.noteGate_within ..).reg _ _ (by decide)).trans (Hw.reg_setTimer ..))

end Sys2Proof.Machine
end

section
/-! Service modes and regulator windows together. -/

namespace Sys2Proof.Machine

/-- Settles O29: the three ways into another mode, and the boundary of a byte window. -/
theorem serviceModes : Obligations.ServiceModes := by
  intro who requester s mode r b w
  refine ⟨fun hacc hm => ?_, fun hacc hm => ?_, fun hm hp hd => ?_, fun hm hd hs => ?_, fun hd => ?_⟩
  · exact ⟨_, rfl, Hw.dictWrite_mode s.hw who 0 hacc (by decide) (Hw.writeServiceMode_normal s.hw who hm)⟩
  · exact ⟨_, rfl, Hw.dictWrite_mode s.hw who 2 hacc (by decide) (Hw.writeServiceMode_test s.hw who hm)⟩
  · exact .of_eq rfl (if_pos ⟨hm, hp, hd⟩) (Hw.setMode_mode s.hw 0)
  · exact .of_eq rfl (if_pos ⟨hm, hd, hs⟩) (Hw.setMode_mode s.hw 0)
  · exact .of_eq rfl (if_pos hd) ⟨Hw.windowBoundary_regSet s.hw r, Hw.windowBoundary_timer s.hw r, Hw.windowBoundary_credit s.hw r⟩

end Sys2Proof.Machine
end

section
/-! Concrete states that meet the hypotheses of O28 and O29, row by row, and what the statements then say of them. -/

namespace Sys2Proof.Machine

/-! ### O28: a stack ingress with one read -/

/-- Request 9, a read of 64 B from port 0 in class C0, waits at stack 0's ingress, whose arbiter otherwise is `a`; a credit of
pseudo-channel 0 held by C0 is on its way back. -/
def readAtIngress (a : Arb) : State :=
  { hw := { req := { arbs := [(0, { a with queues := [(0, [9])] })],
                     trackers := [(9, { rq := { op := 1 }, phase := .queued, stack := some 0 })],
                     credits := [(0, 1)], creditsDue := [(0, 1)] } }, pending := [] }

/-- The same in slot 0 of a frame that reserves it to no class. -/
def readInFreeSlot : State := readAtIngress { mapNow := some 0xff }

theorem readInFreeSlot_candidates : readInFreeSlot.hw.candidates (0 : StackIx) = [(0, 0)] := by decide

/-- The read is the only candidate, so that the pick decides for it. -/
theorem readInFreeSlot_picked : Leads (.arbiterPick 0) readInFreeSlot (fun h => (h.arb 0).next = some { source := 0, cls := 0 }) := by
  obtain ⟨hpick, -⟩ := arbiterGrants 0 readInFreeSlot
  obtain ⟨⟨w, b⟩, hp⟩ : ∃ x, (readInFreeSlot.hw.arb 0).pick (readInFreeSlot.hw.candidates 0)
      (readInFreeSlot.hw.slotOwner 0 (readInFreeSlot.hw.now / 16 % 64)) = some x := Option.isSome_iff_exists.1 (by decide)
  obtain ⟨k, hk, harb, hnext, hmem, -⟩ := hpick w b (by decide) (by decide) hp
  rw [readInFreeSlot_candidates, List.mem_singleton] at hmem
  subst hmem
  exact ⟨k, hk, (congrArg Arb.next harb).trans hnext⟩

/-- The grant decided for the read starts and passes it. -/
theorem readAtIngress_granted : Leads (.grantStart 0) (readAtIngress { next := some { source := 0, cls := 0 } })
    (fun h => (h.arb 0).next = none ∧ (h.arb 0).current.isSome = true) := by
  obtain ⟨-, hgrant, -⟩ := arbiterGrants 0 (readAtIngress { next := some { source := 0, cls := 0 } })
  obtain ⟨-, hpass⟩ := hgrant { source := 0, cls := 0 } (by decide)
  obtain ⟨k, hk, hnext, -, n, -, -, hcurrent⟩ := hpass (by decide) (by decide)
  exact ⟨k, hk, hnext, congrArg Option.isSome hcurrent⟩

/-- A grant is decided for port 1, which has nothing there. -/
theorem readAtIngress_dead : Leads (.grantStart 0) (readAtIngress { next := some { source := 1, cls := 0 } })
    (fun h => (h.arb 0).current = none ∧ (h.arb 0).dead = true) := by
  obtain ⟨-, hgrant, -⟩ := arbiterGrants 0 (readAtIngress { next := some { source := 1, cls := 0 } })
  obtain ⟨hgone, -⟩ := hgrant { source := 1, cls := 0 } (by decide)
  obtain ⟨k, hk, -, hcurrent, hdead⟩ := hgone (by decide)
  exact ⟨k, hk, hcurrent, hdead⟩

/-- Port 0 has passed four headers, and still requests. -/
theorem readAtIngress_cutOff : Leads (.burstCutoff 0) (readAtIngress { current := some { source := 0, cls := 0, passed := 4 } })
    (fun h => (h.arb 0).current = none ∧ h.reg Od.arbCutoffs = 1) := by
  obtain ⟨-, -, hcut, -⟩ := arbiterGrants 0 (readAtIngress { current := some { source := 0, cls := 0, passed := 4 } })
  obtain ⟨k, hk, hcurrent, hcount⟩ := hcut { source := 0, cls := 0, passed := 4 } (by decide) (by decide)
    (by decide) (by decide)
  exact ⟨k, hk, hcurrent, hcount.trans (by decide)⟩

theorem readAtIngress_creditBack : Leads (.dispatchCreditReturn 0 true) (readAtIngress {}) (fun h => h.heldCredits 0 false = 0) := by
  obtain ⟨-, -, -, hcredit, -⟩ := arbiterGrants 0 (readAtIngress {})
  obtain ⟨k, hk, -, hheld⟩ := hcredit 0 true (by decide)
  exact ⟨k, hk, hheld.trans (by decide)⟩

/-- The window's 256 grants have passed; C0 may have 64 of the next. -/
theorem readAtIngress_quota : Leads (.quotaWindowEnd 0) (readAtIngress { windowGrants := 256 })
    (fun h => (h.arb 0).windowGrants = 0 ∧ (h.arb 0).quota 0 = 64) := by
  obtain ⟨-, -, -, -, hquota, -⟩ := arbiterGrants 0 (readAtIngress { windowGrants := 256 })
  obtain ⟨k, hk, hgrants, -, hclasses⟩ := hquota (by decide)
  obtain ⟨hq, -⟩ := hclasses 0 (by decide)
  exact ⟨k, hk, hgrants, hq.trans (by decide)⟩

/-- Slot 0 of frame 0, where the written map takes effect. -/
theorem readAtIngress_slot : Leads (.frameSlotStart 0) (readAtIngress {})
    (fun h => h.timer Tm.slot 0 = 1 ∧ (h.arb 0).mapNow.isSome = true) := by
  obtain ⟨-, -, -, -, -, hslot, -⟩ := arbiterGrants 0 (readAtIngress {})
  obtain ⟨k, hk, htimer, -, -, hmap⟩ := hslot (by decide)
  exact ⟨k, hk, htimer, congrArg Option.isSome (hmap (by decide))⟩

theorem readAtIngress_period : Leads (.missPeriodEnd 0) (readAtIngress { periodMiss := [(0, 3)] })
    (fun h => (h.arb 0).periodMiss = []) := by
  obtain ⟨-, -, -, -, -, -, hperiod⟩ := arbiterGrants 0 (readAtIngress { periodMiss := [(0, 3)] })
  obtain ⟨k, hk, hmiss, -⟩ := hperiod (by decide)
  exact ⟨k, hk, hmiss⟩

/-! ### O29: modes, and a window that opens with an overdraft -/

/-- The ports are released, the service mode is `mode`, and requester 0 has 1,024 B per window and an overdraft of 100 B; `fresh`
counts the entries into NORMAL. -/
def regulatedIn (mode fresh : Nat) : State :=
  { hw := ((({ boot := { portsReleased := true }, req := { regFresh := [(4096, fresh)] } } : Hw).setReg Od.serviceMode 0 mode).setReg
      Od.regBytes 0 1024).setSreg Od.regCredit 0 (-100), pending := [] }

theorem regulatedIn_testEnds : Leads (.serviceModeWriteNormal .firmware) (regulatedIn 2 0) (fun h => h.reg Od.serviceMode = 0) := by
  obtain ⟨hnormal, -⟩ := serviceModes .firmware 0 (regulatedIn 2 0)
  exact hnormal ⟨by decide, by decide, by decide, by decide⟩ (.inr (by decide))

theorem regulatedIn_testBegins : Leads (.serviceModeWriteTest .firmware) (regulatedIn 0 0) (fun h => h.reg Od.serviceMode = 2) := by
  obtain ⟨-, htest, -⟩ := serviceModes .firmware 0 (regulatedIn 0 0)
  exact htest ⟨by decide, by decide, by decide, by decide⟩ (by decide)

theorem regulatedIn_startUpEnds : Leads .svcStartupExpiry (regulatedIn 1 0) (fun h => h.reg Od.serviceMode = 0) := by
  obtain ⟨-, -, hstart, -⟩ := serviceModes .nobody 0 (regulatedIn 1 0)
  exact hstart (by decide) rfl (by decide)

theorem regulatedIn_recoveryEnds : Leads .recoveryDone (regulatedIn 3 0) (fun h => h.reg Od.serviceMode = 0) := by
  obtain ⟨-, -, -, hrecovery, -⟩ := serviceModes .nobody 0 (regulatedIn 3 0)
  exact hrecovery (by decide) rfl rfl

/-- The overdraft carries over into a window that does not start fresh. -/
theorem regulatedIn_carries : Leads (.regulatorWindow 0) (regulatedIn 0 0) (fun h => h.sreg Od.regCredit 0 = 924) := by
  obtain ⟨-, -, -, -, hwindow⟩ := serviceModes .nobody 0 (regulatedIn 0 0)
  obtain ⟨k, hk, -, -, hcredit⟩ := hwindow (by decide)
  exact ⟨k, hk, (hcredit (by decide) (by decide) (by decide) (by decide)).trans (by decide)⟩

/-- After an entry into NORMAL that requester 0's window has not seen, it does not. -/
theorem regulatedIn_startsFresh : Leads (.regulatorWindow 0) (regulatedIn 0 1) (fun h => h.sreg Od.regCredit 0 = 1024) := by
  obtain ⟨-, -, -, -, hwindow⟩ := serviceModes .nobody 0 (regulatedIn 0 1)
  obtain ⟨k, hk, -, -, hcredit⟩ := hwindow (by decide)
  exact ⟨k, hk, (hcredit (by decide) (by decide) (by decide) (by decide)).trans (by decide)⟩

end Sys2Proof.Machine
end

section
/-! Evictions: what a buffered sector that leaves the write-combining buffer becomes (R122, R123). -/

namespace Sys2Proof.Machine

/-! ### The key of a sector -/

theorem secStack_secKey (stack : StackIx) (sector : BitVec 29) : secStack (secKey stack (sector.toNat * 256)) = stack.val := by
  unfold secStack secKey
  omega

/-! ### What the counts and the input stage leave alone -/

theorem Hw.Within.mem_same {m : Nat} {a b : Hw} (w : a.Within m b) (hb : m.testBit Part.buffers.no = false)
    (hd : m.testBit Part.dram.no = false) : b.mem = a.mem := by
  have hbuf : b.mem = { a.mem with dram := b.mem.dram, fills := b.mem.fills, spare := b.mem.spare } := w.same .buffers hb
  obtain ⟨hdram, hfills, hspare⟩ : Part.dram.same a b := w.same .dram hd
  rw [hbuf, hdram, hfills, hspare]

section

variable {a b : Hw} (w : a.Within stageMask b)
include w

theorem Hw.Within.stage_parityFor (s off : Nat) : b.parityFor s off = a.parityFor s off := by
  unfold Hw.parityFor Hw.parityStack Hw.members Hw.parityOn
  simp (disch := decide) only [w.reg, w.partOf, w.stage_coord, w.stage_lostAt]

theorem Hw.Within.stage_needsRead (s off : Nat) (x : Wcb) : b.needsRead s off x = a.needsRead s off x := by
  rw [Hw.needsRead, w.stage_parityFor, Hw.needsRead]

end

theorem Hw.countSel_staged (h : Hw) (code inst n : Nat) : h.Within stageMask (h.countSel code inst n) :=
  .step (Hw.countSel_within ..) (by decide) (.refl _ _)

theorem Hw.countSel_mem (h : Hw) (code inst n : Nat) : (h.countSel code inst n).mem = h.mem :=
  (Hw.countSel_staged ..).mem_same (by decide) (by decide)

theorem Hw.pushStage_mem (h : Hw) (s : Nat) (x : QEntry) : (h.pushStage s x).mem = h.mem :=
  (Hw.pushStage_within ..).mem_same (by decide) (by decide)

theorem Hw.mem_stage_pushStage (h : Hw) (s : Nat) (x : QEntry) : x ∈ (h.pushStage s x).stage s := by
  unfold Hw.stage
  rw [Hw.pushStage_sl, Table.atD_setD_same]
  exact List.mem_append_right _ List.mem_cons_self

/-! ### The merge of a sector -/

theorem Wcb.gap_lt (w : Wcb) (j : Nat) (hj : j ∈ w.gap) : j < 8 := by
  unfold Wcb.gap at hj
  dsimp only at hj
  split at hj
  · exact List.mem_range.1 (List.mem_of_mem_filter hj)
  · cases hj

/-- A merge that has the old columns it needs reads nothing, and so leaves the memories alone. -/
theorem Hw.mergeSector_mem (h : Hw) (s off : Nat) (w : Wcb)
    (hold : ∀ j, j ∈ (if (h.parityFor s off).isSome then List.range 8 else w.gap) → (w.old.find? (fun x => x.1 == j)).isSome = true) :
    (h.mergeSector s off w).2.mem = h.mem := by
  unfold Hw.mergeSector
  extract_lets base par need st read old words readable delta staged
  have hst : st.2 = h := by
    refine List.foldlRecOn (motive := fun a : List (Nat × Decoded × List Byte) × Hw => a.2 = h) need _ rfl (fun a ha j hj => ?_)
    obtain ⟨x, hx⟩ := Option.isSome_iff_exists.1 (hold j hj)
    dsimp only
    rw [hx]
    exact ha
  have hread : read.mem = h.mem := congrArg Hw.mem hst
  change staged.mem = h.mem
  unfold staged
  cases par with
  | some t => exact ((Hw.stageDelta_within ..).mem_same (by decide) (by decide)).trans hread
  | none => exact hread

/-! ### A sector that the buffer has given up -/

section

variable (h : Hw) (k : Nat) (w : Wcb) (hkey : ∀ p, w.part = some p → (Table.look h.sec.memKeys p).isSome = true)
  (hlost : h.lostAt (secStack k) (h.coord (secStack k) (secOff k)).pc = false)
include hkey hlost

/-- With its key at hand and its place standing, the sector takes its read, or its write. -/
theorem Hw.evictNow_eq : h.evictNow k w =
    let x := h.countSel 0x0c (secStack k)
    if h.needsRead (secStack k) (secOff k) w then
      let x := { x with mem.rmw := Table.put x.mem.rmw k w }
      x.pushStage (secStack k) (x.evictEntry k w w.force true [])
    else
      let y := x.mergeSector (secStack k) (secOff k) w
      y.2.pushStage (secStack k) (y.2.evictEntry k w w.force false y.1) := by
  have c := Hw.countSel_staged h 0x0c (secStack k) 1
  unfold Hw.evictNow
  dsimp only
  rw [if_neg, c.stage_coord, c.stage_lostAt, hlost, c.stage_needsRead]
  · rfl
  · split
    next p hp =>
      obtain ⟨key, hk⟩ := Option.isSome_iff_exists.1 (hkey p hp)
      rw [hk]
      exact Bool.false_ne_true
    next => decide

theorem Hw.evictNow_reads (hread : h.needsRead (secStack k) (secOff k) w = true) :
    (h.evictNow k w).mem = { h.mem with rmw := Table.put h.mem.rmw k w } ∧
      ∃ x, x ∈ (h.evictNow k w).stage (secStack k) ∧ x.kind = 2 ∧ x.sector = k := by
  rw [Hw.evictNow_eq h k w hkey hlost]
  dsimp only
  rw [if_pos hread, Hw.pushStage_mem, Hw.countSel_mem]
  exact ⟨rfl, _, Hw.mem_stage_pushStage .., rfl, rfl⟩

theorem Hw.evictNow_writes (hread : h.needsRead (secStack k) (secOff k) w = false) (hgap : w.gap = []) :
    (h.evictNow k w).mem = h.mem ∧ ∃ x, x ∈ (h.evictNow k w).stage (secStack k) ∧ x.writes k = true := by
  have hpar : (h.parityFor (secStack k) (secOff k)).isSome = false := (Bool.or_eq_false_iff.1 hread).2
  rw [Hw.evictNow_eq h k w hkey hlost]
  dsimp only
  rw [if_neg (by rw [hread]; decide), Hw.pushStage_mem, Hw.mergeSector_mem, Hw.countSel_mem]
  · exact ⟨rfl, _, Hw.mem_stage_pushStage .., decide_eq_true ⟨rfl, rfl⟩⟩
  · rw [(Hw.countSel_staged ..).stage_parityFor, hpar, hgap]
    exact fun j hj => absurd hj List.not_mem_nil

end

/-! ### A sector of the buffer -/

theorem Hw.waiting_setWaiting_same (h : Hw) (k : Nat) (l : List Wcb) : (h.setWaiting k l).waiting k = l := by
  unfold Hw.waiting Hw.setWaiting; exact Table.atD_setD_same h.mem.wcbWait (fun _ => []) k l

section

variable (h : Hw) (k : Nat) (w : Wcb) (hw : Table.look h.mem.wcb k = some w)
include hw

/-- Behind an eviction of the same sector it waits. -/
theorem Hw.evict_waits (he : h.evicting k = true) : Table.look (h.evict k).mem.wcb k = none ∧
    (h.evict k).waiting k = h.waiting k ++ [{ w with force := none }] := by
  unfold Hw.evict
  rw [hw]
  dsimp only
  rw [if_pos he]
  exact ⟨Table.look_del_same .., Hw.waiting_setWaiting_same ..⟩

theorem Hw.evict_alone (he : h.evicting k = false) :
    h.evict k = { h with mem.wcb := Table.del h.mem.wcb k }.evictNow k { w with force := none } := by
  unfold Hw.evict
  rw [hw]
  dsimp only
  rw [if_neg (by rw [he]; decide)]

section

variable (he : h.evicting k = false) (hkey : ∀ p, w.part = some p → (Table.look h.sec.memKeys p).isSome = true)
  (hlost : h.lostAt (secStack k) (h.coord (secStack k) (secOff k)).pc = false)
include he hkey hlost

theorem Hw.evict_reads (hread : h.needsRead (secStack k) (secOff k) w = true) : Table.look (h.evict k).mem.wcb k = none ∧
    Table.look (h.evict k).mem.rmw k = some { w with force := none } ∧
      ∃ x, x ∈ (h.evict k).stage (secStack k) ∧ x.kind = 2 ∧ x.sector = k := by
  obtain ⟨hmem, hstage⟩ := Hw.evictNow_reads { h with mem.wcb := Table.del h.mem.wcb k } k { w with force := none } hkey hlost hread
  rw [Hw.evict_alone h k w hw he, hmem]
  exact ⟨Table.look_del_same .., Table.look_put_same .., hstage⟩

theorem Hw.evict_writes (hread : h.needsRead (secStack k) (secOff k) w = false) (hgap : w.gap = []) :
    Table.look (h.evict k).mem.wcb k = none ∧ ∃ x, x ∈ (h.evict k).stage (secStack k) ∧ x.writes k = true := by
  obtain ⟨hmem, hstage⟩ :=
    Hw.evictNow_writes { h with mem.wcb := Table.del h.mem.wcb k } k { w with force := none } hkey hlost hread hgap
  rw [Hw.evict_alone h k w hw he, hmem]
  exact ⟨Table.look_del_same .., hstage⟩

end

end

/-! ### A read-modify-write that has its columns -/

theorem Hw.finishRmw_writes (h : Hw) (k : Nat) (w : Wcb) (hw : Table.look h.mem.rmw k = some w)
    (hold : ∀ j, j < 8 → ∃ x, x ∈ w.old ∧ x.1 = j) :
    Table.look (h.finishRmw k).mem.rmw k = none ∧ ∃ x, x ∈ (h.finishRmw k).stage (secStack k) ∧ x.writes k = true := by
  have hfind (j : Nat) (hj : j < 8) : (w.old.find? (fun x => x.1 == j)).isSome = true := by
    obtain ⟨x, hx, hxj⟩ := hold j hj
    exact List.find?_isSome.2 ⟨x, hx, beq_iff_eq.2 hxj⟩
  unfold Hw.finishRmw
  rw [hw]
  dsimp only
  rw [Hw.pushStage_mem, Hw.mergeSector_mem]
  · exact ⟨Table.look_del_same .., _, Hw.mem_stage_pushStage .., decide_eq_true ⟨rfl, rfl⟩⟩
  · intro j hj
    split at hj
    · exact hfind j (List.mem_range.1 hj)
    · exact hfind j (Wcb.gap_lt w j hj)

end Sys2Proof.Machine
end

section
/-! The correctable-error history, the scrubber and the rebuild of a lane (R125, R127, R129). -/

namespace Sys2Proof.Machine

theorem Hw.pc_of_sl {a b : Hw} (h : b.sl = a.sl) (g : Nat) : b.pc g = a.pc g := by
  rw [Hw.pc, h]
  rfl

/-- Old entries leave the history. -/
theorem ceHistoryExpiry_leads (g : PcIx) (s : State) : Leads (.ceHistoryExpiry g) s (fun h => (h.pc g).history =
    (s.hw.pc g).history.filter (fun e => decide (s.hw.now < e.since + s.hw.reg Od.eccCeWindowH * 3600000000000))) := by
  refine ⟨_, rfl, ?_⟩
  dsimp only
  split
  next hlen => exact (List.filter_eq_self.2 (List.length_filter_eq_length_iff.1 hlen)).symm
  next => rw [Hw.pc_setPc_same]

/-- The mask of what the scrubber changes at a column: the timers, and what it does with what it reads. -/
def scrubMask : Nat :=
  64 ||| 11349182434963382837533881494243739595514612493578492732787156681550705156102419167929578231476284006854828903864712260

/-- What a step of the scrubber has done before it moves on. -/
def Hw.scrubStep (h : Hw) (st : Nat) (flips again : List (Fin 36 × Byte)) : Hw :=
  let off := h.reg Od.scrubPosition st
  let x := if off = 0 then h.setTimer Tm.scrubPass st (h.now + h.reg Od.scrubPeriodH * 3600000000000) else h
  if x.scrubs st off then x.scrubCol st off flips again else x

theorem Hw.scrubStep_within (h : Hw) (st : Nat) (flips again : List (Fin 36 × Byte)) :
    h.Within scrubMask (h.scrubStep st flips again) := by
  unfold Hw.scrubStep
  extract_lets off x
  have hx : h.Within scrubMask x := .ite (.step (Hw.setTimer_within ..) (by decide) (.refl _ _)) (.refl _ _)
  exact .ite (.step (Hw.scrubCol_within ..) (by decide) hx) hx

/-- The scrubber leaves the column at `off` for the next one, or for the start of its next pass. -/
def Hw.scrubAdvance (h : Hw) (st off : Nat) : Hw :=
  if h.reg Od.stackCapacity st ≤ off + 32 then (h.setReg Od.scrubPosition st 0).addReg Od.scrubPasses st
  else h.setReg Od.scrubPosition st (off + 32)

theorem Hw.scrubAdvance_reads (h : Hw) (st off : Nat) :
    if h.reg Od.stackCapacity st ≤ off + 32 then (h.scrubAdvance st off).reg Od.scrubPosition st = 0 ∧
      (h.scrubAdvance st off).reg Od.scrubPasses st = (h.reg Od.scrubPasses st + 1) % 2 ^ Od.scrubPasses.width
    else (h.scrubAdvance st off).reg Od.scrubPosition st = (off + 32) % 2 ^ Od.scrubPosition.width := by
  unfold Hw.scrubAdvance
  split
  · rw [Hw.reg_addReg_same, Hw.reg_addReg_ne _ _ _ _ _ _ (by decide) (by decide) (by decide), Hw.reg_setReg_same,
      Hw.reg_setReg_ne _ _ _ _ _ _ (by decide) (by decide) (by decide), Nat.zero_mod]
    exact ⟨rfl, rfl⟩
  · exact Hw.reg_setReg_same ..

section

variable (stack : StackIx) (flips again : List (Fin 36 × Byte)) (s : State) (hpresent : s.hw.reg Od.stackState stack = 1)
  (hdue : s.hw.reg Od.scrubPosition stack = 0 → s.hw.due Tm.scrubPass stack = true)
include hpresent hdue

theorem execScrubRead_advances : exec (.scrubRead stack flips again) s =
    .next { s with hw := (s.hw.scrubStep stack flips again).scrubAdvance stack (s.hw.reg Od.scrubPosition stack) } := by
  refine congrArg (fun k => Host.Outcome.next { s with hw := k }) (if_neg ?_)
  rintro (hne | ⟨hzero, hwait⟩)
  · exact hne hpresent
  · rw [hdue hzero] at hwait
    exact absurd hwait (by decide)

theorem scrubRead_leads : Leads (.scrubRead stack flips again) s (fun h =>
    if s.hw.reg Od.stackCapacity stack ≤ s.hw.reg Od.scrubPosition stack + 32 then h.reg Od.scrubPosition stack = 0 ∧
      h.reg Od.scrubPasses stack = (s.hw.reg Od.scrubPasses stack + 1) % 2 ^ Od.scrubPasses.width
    else h.reg Od.scrubPosition stack = (s.hw.reg Od.scrubPosition stack + 32) % 2 ^ Od.scrubPosition.width) := by
  have w := Hw.scrubStep_within s.hw stack flips again
  have hreads := Hw.scrubAdvance_reads (s.hw.scrubStep stack flips again) stack (s.hw.reg Od.scrubPosition stack)
  rw [w.reg Od.stackCapacity stack (by decide), w.reg Od.scrubPasses stack (by decide)] at hreads
  exact ⟨_, execScrubRead_advances stack flips again s hpresent hdue, hreads⟩

end

/-- A rebuild goes on to the next row, and after the last its erasures end. -/
theorem rebuildRow_leads (g : PcIx) (s : State) (n : Nat) (hn : (s.hw.pc g).rebuildRow = some n) :
    Leads (.rebuildRow g) s (fun h =>
      if s.hw.reg Od.stackCapacity (g.val / 64) / 65536 ≤ n then
        (h.pc g).rebuildRow = none ∧ (h.pc g).sparing = [] ∧ h.reg Od.rebuildPointer g = 2 ^ 64 - 1
      else (h.pc g).rebuildRow = some (n + 1)) := by
  refine ⟨_, rfl, ?_⟩
  dsimp only
  rw [hn]
  dsimp only
  split
  · have w := Hw.logErr_within (((s.hw.setPc g { s.hw.pc g with rebuildRow := none, sparing := [] }).setReg Od.rebuildPointer g
      (2 ^ 64 - 1))) { kind := 8, stack := g.val / 64, pc := g.val % 64, source := 4 }
    rw [Hw.pc_of_sl (w.same .slices (by decide)), w.reg Od.rebuildPointer g (by decide), Hw.reg_setReg_same,
      Hw.pc_of_sl (Hw.setReg_sl ..), Hw.pc_setPc_same]
    exact ⟨rfl, rfl, by decide⟩
  · rw [Hw.pc_of_sl (Hw.setReg_sl ..), Hw.pc_setPc_same]

end Sys2Proof.Machine
end

section
/-! Evictions, the correctable-error history, the scrubber and a lane's rebuild together. -/

namespace Sys2Proof.Machine

section

variable (stack : StackIx) (sector : BitVec 29) (s : State) (w : Wcb)

theorem execWcbEvict_evicts (hwait : s.hw.waiting (secKey stack (sector.toNat * 256)) = [])
    (hw : Table.look s.hw.mem.wcb (secKey stack (sector.toNat * 256)) = some w)
    (hdue : w.complete = true ∨ w.firstAt + s.hw.reg Od.wcbHoldNs ≤ s.hw.now ∨ s.hw.reg Od.wcbHigh ≤ s.hw.wcbCount stack) :
    exec (.wcbEvict stack sector) s = .next { s with hw := s.hw.evict (secKey stack (sector.toNat * 256)) } := by
  refine congrArg (fun k => Host.Outcome.next { s with hw := k }) ((if_neg ?_).trans ?_)
  · rintro ⟨hne, -⟩
    exact hne hwait
  · rw [hw]
    exact if_pos hdue

theorem execWcbHoldExpiry_evicts (hw : Table.look s.hw.mem.wcb (secKey stack (sector.toNat * 256)) = some w)
    (hdue : w.firstAt + s.hw.reg Od.wcbHoldNs ≤ s.hw.now) :
    exec (.wcbHoldExpiry stack sector) s = .next { s with hw := s.hw.evict (secKey stack (sector.toNat * 256)) } := by
  refine congrArg (fun k => Host.Outcome.next { s with hw := k }) ?_
  dsimp only
  rw [hw]
  exact if_pos hdue

end

/-- Settles O30: a sector that leaves the buffer by either command is one eviction; the other rows each on their own. -/
theorem writeBufferAndScrub : Obligations.WriteBufferAndScrub := by
  intro stack sector g s k off evicted
  have hstack : secStack k = stack.val := secStack_secKey stack sector
  have hevicted (w : Wcb) (c : Instr) (hc : exec c s = .next { s with hw := s.hw.evict k })
      (hw : Table.look s.hw.mem.wcb k = some w) : evicted w c := by
    refine ⟨fun he => ⟨_, hc, Hw.evict_waits s.hw k w hw he⟩, fun he hkey hlost => ?_⟩
    rw [← hstack] at hlost ⊢
    exact ⟨fun hread => ⟨_, hc, Hw.evict_reads s.hw k w hw he hkey hlost hread⟩,
      fun hread hgap => ⟨_, hc, Hw.evict_writes s.hw k w hw he hkey hlost hread hgap⟩⟩
  refine ⟨fun w hwait hw hdue => ?_, fun w hw hdue => ?_, fun w hw hold hnone => ?_, ceHistoryExpiry_leads g s,
    fun flips again => scrubRead_leads stack flips again s, rebuildRow_leads g s⟩
  · exact hevicted w _ (execWcbEvict_evicts stack sector s w hwait hw hdue) hw
  · exact hevicted w _ (execWcbHoldExpiry_evicts stack sector s w hw hdue) hw
  · obtain ⟨hqueue, hflight⟩ := hnone
    have hread := Hw.finishRmw_writes s.hw k w hw hold
    rw [hstack] at hread
    refine .of_eq rfl (if_neg ?_) hread
    simp only [Bool.or_eq_true, List.any_eq_true, decide_eq_true_eq, not_or, not_exists, not_and]
    exact ⟨fun x hx hkind => hqueue x hx hkind, fun x hx hkind => hflight x hx hkind⟩

end Sys2Proof.Machine
end

section
/-! Concrete states that meet the hypotheses of O30, row by row, and what it then says of them. -/

namespace Sys2Proof.Machine

/-- Stack 0 is PRESENT, of 65,536 B with the scrubber at offset `pos`, over the memories `mem` and the slices `sl`. -/
def presentOver (mem : MemSt) (sl : SliceSt) (pos : Nat) : State :=
  { hw := ((({ now := 10 ^ 16, mem := mem, sl := sl } : Hw).setReg Od.stackState 0 1).setReg Od.stackCapacity 0 65536).setReg
      Od.scrubPosition 0 pos, pending := [] }

/-- A sector with all its bytes. -/
def fullSector : Wcb := { bytes := (List.range 256).map (fun i => (i, 0)) }

theorem fullSector_whole : fullSector.complete = true ∧ fullSector.gap = [] := by decide +kernel

/-- A sector with its first byte alone, whose eight old columns are there. -/
def readSector : Wcb := { bytes := [(0, 0)], old := (List.range 8).map (fun j => (j, 0, List.replicate 32 0)) }

/-- A complete sector is written, with no read before. -/
theorem fullSector_written : Leads (.wcbEvict 0 0) (presentOver { wcb := [(0, fullSector)] } {} 0)
    (fun h => ∃ x, x ∈ h.stage 0 ∧ x.writes 0 = true) := by
  obtain ⟨hevict, -⟩ := writeBufferAndScrub 0 0 0 (presentOver { wcb := [(0, fullSector)] } {} 0)
  obtain ⟨hcomplete, hgap⟩ := fullSector_whole
  obtain ⟨-, halone⟩ := hevict fullSector (by decide) (if_pos (by decide)) (.inl hcomplete)
  obtain ⟨-, hwrite⟩ := halone (by decide) (fun p hp => by cases hp) (by decide)
  obtain ⟨k, hk, -, hstage⟩ := hwrite (by rw [Hw.needsRead, hcomplete]; decide) hgap
  exact ⟨k, hk, hstage⟩

/-- Behind a read-modify-write of its sector it waits. -/
theorem fullSector_waits : Leads (.wcbEvict 0 0) (presentOver { wcb := [(0, fullSector)], rmw := [(0, readSector)] } {} 0)
    (fun h => h.waiting 0 = [fullSector]) := by
  obtain ⟨hevict, -⟩ := writeBufferAndScrub 0 0 0 (presentOver { wcb := [(0, fullSector)], rmw := [(0, readSector)] } {} 0)
  obtain ⟨hbusy, -⟩ := hevict fullSector (by decide) (if_pos (by decide)) (.inl fullSector_whole.1)
  obtain ⟨k, hk, -, hwait⟩ := hbusy (by decide)
  exact ⟨k, hk, hwait.trans rfl⟩

/-- A sector of one byte that is past its hold time takes its read. -/
theorem readSector_read : Leads (.wcbHoldExpiry 0 0) (presentOver { wcb := [(0, readSector)] } {} 0)
    (fun h => ∃ x, x ∈ h.stage 0 ∧ x.kind = 2 ∧ x.sector = 0) := by
  obtain ⟨-, hhold, -⟩ := writeBufferAndScrub 0 0 0 (presentOver { wcb := [(0, readSector)] } {} 0)
  obtain ⟨-, halone⟩ := hhold readSector (by decide) (by decide)
  obtain ⟨hread, -⟩ := halone (by decide) (fun p hp => by cases hp) (by decide)
  obtain ⟨k, hk, -, -, hstage⟩ := hread (by decide)
  exact ⟨k, hk, hstage⟩

/-- The sector has its columns and is written. -/
theorem readSector_merged : Leads (.rmwMerge 0 0) (presentOver { rmw := [(0, readSector)] } {} 0)
    (fun h => Table.look h.mem.rmw 0 = none ∧ ∃ x, x ∈ h.stage 0 ∧ x.writes 0 = true) := by
  obtain ⟨-, -, hmerge, -⟩ := writeBufferAndScrub 0 0 0 (presentOver { rmw := [(0, readSector)] } {} 0)
  exact hmerge readSector (by decide) (by decide) ⟨by decide, by decide⟩

/-- An entry of the history is 2,777 h old. -/
theorem oldEntry_leaves : Leads (.ceHistoryExpiry 0)
    (presentOver {} { pcs := [(0, { history := [{ colAddr := 0, count := 1, since := 0 }] })] } 0) (fun h => (h.pc 0).history = []) := by
  obtain ⟨-, -, -, hhistory, -⟩ :=
    writeBufferAndScrub 0 0 0 (presentOver {} { pcs := [(0, { history := [{ colAddr := 0, count := 1, since := 0 }] })] } 0)
  obtain ⟨k, hk, hlive⟩ := hhistory
  exact ⟨k, hk, hlive.trans (by decide)⟩

/-- The scrubber at the last column but one. -/
theorem scrubber_movesOn : Leads (.scrubRead 0 [] []) (presentOver {} {} 65472) (fun h => h.reg Od.scrubPosition = 65504) := by
  obtain ⟨-, -, -, -, hscrub, -⟩ := writeBufferAndScrub 0 0 0 (presentOver {} {} 65472)
  obtain ⟨k, hk, hpos⟩ := hscrub [] [] (by decide) (fun h => absurd h (by decide))
  rw [if_neg (by decide)] at hpos
  exact ⟨k, hk, hpos.trans (by decide)⟩

/-- The scrubber at the last column. -/
theorem scrubber_ends : Leads (.scrubRead 0 [] []) (presentOver {} {} 65504)
    (fun h => h.reg Od.scrubPosition = 0 ∧ h.reg Od.scrubPasses = 1) := by
  obtain ⟨-, -, -, -, hscrub, -⟩ := writeBufferAndScrub 0 0 0 (presentOver {} {} 65504)
  obtain ⟨k, hk, hpos⟩ := hscrub [] [] (by decide) (fun h => absurd h (by decide))
  rw [if_pos (by decide)] at hpos
  exact ⟨k, hk, hpos.1, hpos.2.trans (by decide)⟩

/-- A pseudo-channel of one row, before its rebuild. -/
theorem rebuild_movesOn : Leads (.rebuildRow 0) (presentOver {} { pcs := [(0, { sparing := [3], rebuildRow := some 0 })] } 0)
    (fun h => (h.pc 0).rebuildRow = some 1) := by
  obtain ⟨-, -, -, -, -, hrebuild⟩ :=
    writeBufferAndScrub 0 0 0 (presentOver {} { pcs := [(0, { sparing := [3], rebuildRow := some 0 })] } 0)
  obtain ⟨k, hk, hrow⟩ := hrebuild 0 (by decide)
  rw [if_neg (by decide)] at hrow
  exact ⟨k, hk, hrow⟩

/-- The same after its rebuild. -/
theorem rebuild_ends : Leads (.rebuildRow 0) (presentOver {} { pcs := [(0, { sparing := [3], rebuildRow := some 1 })] } 0)
    (fun h => (h.pc 0).rebuildRow = none ∧ (h.pc 0).sparing = []) := by
  obtain ⟨-, -, -, -, -, hrebuild⟩ :=
    writeBufferAndScrub 0 0 0 (presentOver {} { pcs := [(0, { sparing := [3], rebuildRow := some 1 })] } 0)
  obtain ⟨k, hk, hrow⟩ := hrebuild 1 (by decide)
  rw [if_pos (by decide)] at hrow
  exact ⟨k, hk, hrow.1, hrow.2.1⟩

end Sys2Proof.Machine
end

section
/-! A statement that fails where the register file holds more than a register's 64 bits: O31, in its clause of a repair that
fails. It has no premise that a remap entry fits its register, and `ppr_state` is cleared by storing the whole entry again, cut to
its width. -/

namespace Sys2Proof.Machine

/-- Remap entry 0 of pseudo-channel 0 reads 2^64 + 2^32: bank 0, row 0, a repair queued, and as its only sign of being valid a bit
beyond the register's width. Pseudo-channel 0 is in a pause. -/
def wideRemapBlock : Hw :=
  { od := [(odKey Od.remapTable 0 0, 2 ^ 64 + 2 ^ 32)], sl := { pcs := [(0, { pauseUntil := some 0 })] } }

/-- The entry once the repair of row 0 of bank 0 has failed. -/
def wideRemapAfter : Nat :=
  match exec (.sppr 0 0 0 false) { hw := wideRemapBlock, pending := [] } with
  | .next t => t.hw.elem Od.remapTable 0 0
  | _ => 2 ^ 63

theorem wideRemapAfter_eq : wideRemapAfter = 0 := by decide +kernel

/-- Refutes O31, in its clause of a failed repair: in `wideRemapBlock` entry 0 belongs to the row, but the store that ends its repair
cuts off the bit that made it valid. -/
theorem not_testsAndRepairs : ¬ Obligations.TestsAndRepairs := by
  intro h
  obtain ⟨-, -, hsppr, -⟩ := h .firmware { hw := wideRemapBlock, pending := [] }
  obtain ⟨-, -, hfails⟩ := hsppr 0 0 0 false
  obtain ⟨k, hk, hvalid⟩ := hfails (by decide) (by decide) rfl
  obtain ⟨-, hle⟩ := hvalid 0 (by decide)
  have hafter : wideRemapAfter = k.elem Od.remapTable 0 0 := by rw [wideRemapAfter, hk]
  have hzero : k.elem Od.remapTable 0 0 = 0 := hafter.symm.trans wideRemapAfter_eq
  exact absurd (hzero ▸ hle : 2 ^ 63 ≤ 0) (by decide)

end Sys2Proof.Machine
end

section
/-! The ways of the directory (R143, R145, R153): what writing one way, freeing it and losing its owner leave of the rest. -/

namespace Sys2Proof.Machine

/-- A value that a table lists under a key is one of its entries. -/
theorem Table.mem_of_look {α : Type} (t : Table α) (k : Nat) (v : α) (h : t.look k = some v) : (k, v) ∈ t := by
  induction t with
  | nil => cases h
  | cons e t ih =>
    obtain ⟨j, w⟩ := e
    rw [Table.look] at h
    split at h
    · next hj =>
      cases h
      rw [hj]
      exact List.mem_cons_self
    · exact List.mem_cons_of_mem _ (ih h)

/-- A way that is not free is listed. -/
theorem Hw.way_listed (h : Hw) (key : Nat) (hst : (h.way key).st ≠ .invalid) : (key, h.way key) ∈ h.coh.dir := by
  unfold Hw.way Table.atD at *
  cases hk : Table.look h.coh.dir key with
  | none => rw [hk] at hst; exact absurd rfl hst
  | some e => exact Table.mem_of_look _ _ _ hk

/-- The mask of what a loss of an owner changes: the directory, its counts, and the loss log. -/
def lossMask : Nat := 4083388403051619403603101219416933695492

/-- From `a` to `b` way `key` is written with `e`, and of coherence nothing else changes. -/
structure Hw.Writes (key : Nat) (e : DirEntry) (a b : Hw) : Prop where
  within : a.Within lossMask b
  coh : b.coh = { a.coh with dir := Table.setD a.coh.dir (fun _ => {}) key e }

namespace Hw.Writes

variable {key : Nat} {e : DirEntry} {a b : Hw} (w : a.Writes key e b)
include w

theorem way_same : b.way key = e := by
  unfold Hw.way
  rw [w.coh]
  exact Table.atD_setD_same a.coh.dir (fun _ => ({} : DirEntry)) key e

theorem way_ne {k : Nat} (hk : k ≠ key) : b.way k = a.way k := by
  unfold Hw.way
  rw [w.coh]
  exact Table.atD_setD_ne a.coh.dir (fun _ => ({} : DirEntry)) key k e hk

theorem dirWaiting (ds : Nat) : b.dirWaiting ds = a.dirWaiting ds := by
  unfold Hw.dirWaiting
  rw [w.coh]

theorem dirIn (ds : Nat) : b.dirIn ds = a.dirIn ds := by
  unfold Hw.dirIn
  rw [w.coh]

theorem snoops : b.coh.snoops = a.coh.snoops := by rw [w.coh]

/-- A way whose owner the epoch rule has taken (R144) is still such a way when another is written. -/
theorem ownerGone_ne {k : Nat} (hk : k ≠ key) : b.ownerGone k = a.ownerGone k := by
  unfold Hw.ownerGone Hw.epochAt Hw.active
  rw [w.way_ne hk, w.coh]
  simp (disch := decide) only [w.within.reg]

end Hw.Writes

theorem Hw.dirCount_coh (h : Hw) (ds : Nat) (e : DirEntry) (add : Bool) : (h.dirCount ds e add).coh = h.coh :=
  (Hw.dirCount_within ..).same .coherence (by decide)

theorem Hw.logLoss_coh (h : Hw) (p kind requester dpa : Nat) (stale : Bool) : (h.logLoss p kind requester dpa stale).coh = h.coh :=
  (Hw.logLoss_within ..).same .coherence (by decide)

theorem Hw.setWay_writes (h : Hw) (key : Nat) (e : DirEntry) : h.Writes key e (h.setWay key e) := by
  refine ⟨.step (Hw.setWay_within ..) (by decide) (.refl _ _), ?_⟩
  unfold Hw.setWay
  dsimp only
  rw [Hw.dirCount_coh]
  dsimp only
  rw [Hw.dirCount_coh]

theorem Hw.freeWay_writes (h : Hw) (key : Nat) : h.Writes key {} (h.freeWay key) := Hw.setWay_writes h key {}

/-- A loss is logged before a way is written. -/
theorem Hw.Writes.logged {h b : Hw} {key : Nat} {e : DirEntry} {p kind requester dpa : Nat} {stale : Bool}
    (w : (h.logLoss p kind requester dpa stale).Writes key e b) : h.Writes key e b :=
  ⟨.step w.within (by decide) (.step (Hw.logLoss_within ..) (by decide) (.refl _ _)), by rw [w.coh, Hw.logLoss_coh]⟩

/-- An owner that is lost leaves a LOST line where its partition keeps losses (R149, R153). -/
theorem Hw.ownerLoss_keeps (h : Hw) (key : Nat) (t : Bool) (hp : h.reg Od.partState (h.way key).part ≠ 5)
    (hl : h.reg Od.cohOwnerLoss (h.way key).part = 0) :
    h.Writes key { h.way key with st := .lost, busy := false } (h.ownerLoss key t) := by
  unfold Hw.ownerLoss
  dsimp only
  rw [if_neg hp, if_pos hl]
  exact (Hw.setWay_writes ..).logged

/-- An owner that is lost leaves its way LOST, or free (R40, R153). -/
theorem Hw.ownerLoss_writes (h : Hw) (key : Nat) (t : Bool) :
    ∃ e : DirEntry, (e.st = .lost ∨ e.st = .invalid) ∧ h.Writes key e (h.ownerLoss key t) := by
  by_cases hp : h.reg Od.partState (h.way key).part = 5
  · refine ⟨{}, .inr rfl, ?_⟩
    unfold Hw.ownerLoss
    dsimp only
    rw [if_pos hp]
    exact Hw.freeWay_writes ..
  · by_cases hl : h.reg Od.cohOwnerLoss (h.way key).part = 0
    · exact ⟨_, .inl rfl, Hw.ownerLoss_keeps h key t hp hl⟩
    · refine ⟨{}, .inr rfl, ?_⟩
      unfold Hw.ownerLoss
      dsimp only
      rw [if_neg hp, if_neg hl]
      exact (Hw.freeWay_writes ..).logged

/-- Steps that each write at most one way, taken for several ways, change nothing else of coherence. -/
theorem Hw.foldWays_coh {f : Hw → Nat → Hw} (hf : ∀ h k, f h k = h ∨ ∃ e, h.Writes k e (f h k)) (h : Hw) (l : List Nat) :
    ∃ d, (l.foldl f h).coh = { h.coh with dir := d } := by
  refine List.foldlRecOn (motive := fun x : Hw => ∃ d, x.coh = { h.coh with dir := d }) l f ⟨_, rfl⟩ (fun x hx k _ => ?_)
  obtain ⟨d, hd⟩ := hx
  rcases hf x k with hsame | ⟨e, w⟩
  · exact ⟨d, by rw [hsame, hd]⟩
  · exact ⟨_, w.coh.trans (by rw [hd])⟩

/-- With nothing in the wait list, nothing acts again. -/
theorem Hw.retryWaiting_idle (h : Hw) (ds : Nat) (hq : h.dirWaiting ds = []) : h.retryWaiting ds = h := by
  rw [Hw.retryWaiting, hq]
  rfl

theorem Hw.dirWaiting_of_dir {a b : Hw} {d : Table DirEntry} (h : b.coh = { a.coh with dir := d }) (ds : Nat) :
    b.dirWaiting ds = a.dirWaiting ds := by
  rw [Hw.dirWaiting, h]
  rfl

end Sys2Proof.Machine
end

section
/-! A line without an entry that is read at the directory (R145, R150). -/

namespace Sys2Proof.Machine

/-! ### The lookup -/

/-- A single read is its own order, and leaves dir_ptr. -/
theorem orderLine_read (ptr : Nat) (owner : Option Nat) (p : Piece) (h1 : p.op = 1) : orderLine ptr owner [p] = ([p], ptr) := by
  have hhosts : ¬ 2 ≤ ([p].filter (fun p => p.source == 0)).length := by
    have hle := List.length_filter_le (fun p : Piece => p.source == 0) [p]
    rw [List.length_singleton] at hle
    omega
  simp [orderLine, Piece.isWrite, h1, hhosts]

/-- A request that touches one line consults that line alone. -/
theorem Hw.lookLines_one (h : Hw) (s line : Nat) (ask : Nat → Ask) (g : List Nat) : h.lookLines s line line ask g =
    let x := h.lookLine s line (ask line) (g.contains line)
    (decide (x.1 = .wait), if x.1 = .lost then [line] else [], x.2) := by
  have hn : line + 1 - line = 1 := by omega
  rw [Hw.lookLines, hn]
  rfl

section

variable (h : Hw) (s line k : Nat) (hk : h.invalidWay s line = some k)
include hk

/-- A read that keeps a copy takes a free way, as sharer or as owner by its mode (R141). -/
theorem Hw.lookInvalid_read (r mode : Nat) (hm : mode = 1 ∨ mode = 2) : ∃ e : DirEntry,
    h.lookInvalid s line (.read r mode) = (.pass, h.setWay k e) ∧ e.ptrs = [r] ∧ e.home = s ∧ e.tag = line / 65536 ∧
      e.st = if mode = 2 then .owned else .shared := by
  rcases hm with rfl | rfl
  · unfold Hw.lookInvalid Hw.allocate
    rw [hk]
    exact ⟨_, rfl, rfl, rfl, rfl, rfl⟩
  · unfold Hw.lookInvalid Hw.allocate
    rw [hk]
    exact ⟨_, rfl, rfl, rfl, rfl, rfl⟩

theorem Hw.lookLine_read (r mode : Nat) (hm : mode = 1 ∨ mode = 2) (g : Bool) (hf : h.findWay s line = none)
    (hs : h.isSuspect s line = false) : ∃ e : DirEntry,
    h.lookLine s line (.read r mode) g = (.pass, h.setWay k e) ∧ e.ptrs = [r] ∧ e.home = s ∧ e.tag = line / 65536 ∧
      e.st = if mode = 2 then .owned else .shared := by
  rw [Hw.lookLine, hf]
  dsimp only
  rw [hs, Bool.false_and, if_neg (by decide)]
  exact Hw.lookInvalid_read h s line k hk r mode hm

end

/-! ### The read that passes it -/

/-- The mask of what a lookup that takes a free way changes: what `lossMask` holds, and the mark in the request's sample. -/
def lookMask : Nat := lossMask ||| 4096

section

variable {a b : Hw} (w : a.Within lookMask b)
include w

theorem Hw.Within.look_mem : b.mem = a.mem := w.mem_same (by decide) (by decide)

theorem Hw.Within.look_partOf (s : Nat) : b.partOf s = a.partOf s := w.partOf (by decide) (by decide) s

theorem Hw.Within.look_coord (s off : Nat) : b.coord s off = a.coord s off := by
  unfold Hw.coord Hw.grainLog Hw.sids
  simp (disch := decide) only [w.reg, w.look_partOf]

theorem Hw.Within.look_lostAt (s pc : Nat) : b.lostAt s pc = a.lostAt s pc := by
  unfold Hw.lostAt
  simp (disch := decide) only [w.reg, w.failed]

theorem Hw.Within.look_physical (s off : Nat) : b.physical s off = a.physical s off := by
  unfold Hw.physical Hw.position Hw.members Hw.parityOn
  simp (disch := decide) only [w.reg, w.look_partOf]

theorem Hw.Within.look_cutRows (s off len : Nat) : b.cutRows s off len = a.cutRows s off len := by
  unfold Hw.cutRows Hw.grainLog
  simp (disch := decide) only [w.reg, w.look_partOf]

theorem Hw.Within.look_retired (dpa : Nat) : b.retired dpa = a.retired dpa := by
  unfold Hw.retired
  simp (disch := decide) only [w.elem, w.look_mem]

theorem Hw.Within.look_isHeld (p : Piece) : b.isHeld p = a.isHeld p := by
  have hcar : b.car = { a.car with staging := b.car.staging } := w.same .engines (by decide)
  unfold Hw.isHeld Hw.allDescs
  rw [hcar]

theorem Hw.Within.look_rowsClean {s : Nat} {rows : List (Nat × Nat)} (hr : a.rowsClean s rows) : b.rowsClean s rows := by
  intro q hq
  obtain ⟨hl, hk⟩ := hr q hq
  rw [w.look_coord, w.look_lostAt, w.look_mem]
  exact ⟨hl, hk⟩

end

/-- Where a read can be placed at once: no PULL holds it, its page stands, and so do its rows, with no bytes buffered. -/
structure Hw.PlacesRead (h : Hw) (p : Piece) : Prop where
  free : h.isHeld p = false
  page : h.retired p.dpa = false
  rows : h.rowsClean p.stack (h.cutRows p.stack (h.physical p.stack p.off) p.len)

theorem Hw.Within.look_placesRead {a b : Hw} (w : a.Within lookMask b) {p : Piece} (h : a.PlacesRead p) : b.PlacesRead p := by
  refine ⟨?_, ?_, ?_⟩
  · rw [w.look_isHeld]
    exact h.free
  · rw [w.look_retired]
    exact h.page
  · rw [w.look_physical, w.look_cutRows]
    exact w.look_rowsClean h.rows

/-- Placing such a read leaves the directory alone. -/
theorem Hw.place_read_coh (h : Hw) (p : Piece) (h1 : p.op = 1) (hp : h.PlacesRead p) : (h.place p).coh = h.coh := by
  have hplace : h.place p = h.placeOrHold p := by rw [Hw.place, h1]; rfl
  rw [hplace, Hw.placeOrHold, hp.free, if_neg (by decide), Hw.placeRead]
  cases h.trk p.trk with
  | none => exact (Hw.creditsBack_within ..).same .coherence (by decide)
  | some t =>
    dsimp only
    split
    · next hret => exact absurd (hp.page.symm.trans hret) (by decide)
    · exact (Hw.placeRows_clean (h.setTrk p.trk _) p _ _ hp.rows).1.same .coherence (by decide)

/-- A read of one line that no entry tracks takes a free way, and is placed. -/
theorem Hw.consult_read (h : Hw) (p : Piece) (k : Nat) (h1 : p.op = 1) (hm : p.subop = 1 ∨ p.subop = 2) (hlen : p.len = 64)
    (hoff : p.off % 64 = 0) (hf : h.findWay p.stack (p.off / 64) = none) (hs : h.isSuspect p.stack (p.off / 64) = false)
    (hk : h.invalidWay p.stack (p.off / 64) = some k) (hp : h.PlacesRead p) :
    ∃ e : DirEntry, (h.consult p).1 = false ∧ (h.consult p).2.coh = (h.setWay k e).coh ∧ e.ptrs = [p.requester] ∧ e.home = p.stack ∧
      e.tag = p.off / 64 / 65536 ∧ e.st = if p.subop = 2 then .owned else .shared := by
  obtain ⟨e, hlook, hentry⟩ := Hw.lookLine_read h p.stack (p.off / 64) k hk p.requester p.subop hm
    (p.gathered.contains (p.off / 64)) hf hs
  have hhi : (p.off + p.len - 1) / 64 = p.off / 64 := by omega
  have hask : p.ask (p.off / 64) = .read p.requester p.subop := by rw [Piece.ask, h1]; rfl
  have hconsult : h.consult p = (false, ((h.setWay k e).markCoherent p.trk false).place { p with bad := [] }) := by
    unfold Hw.consult
    dsimp only
    rw [hhi, Hw.lookLines_one, hask, hlook]
    rfl
  have w : h.Within lookMask ((h.setWay k e).markCoherent p.trk false) :=
    .step (Hw.markCoherent_within ..) (by decide) (.step (Hw.setWay_within ..) (by decide) (.refl _ _))
  have hp' : ((h.setWay k e).markCoherent p.trk false).PlacesRead { p with bad := [] } := w.look_placesRead ⟨hp.free, hp.page, hp.rows⟩
  refine ⟨e, by rw [hconsult], ?_, hentry⟩
  rw [hconsult]
  exact (Hw.place_read_coh _ { p with bad := [] } h1 hp').trans ((Hw.markCoherent_within ..).same .coherence (by decide))

/-- The block once the directory input of slice `s` is empty and its dir_ptr is `ptr`. -/
def Hw.dirTaken (h : Hw) (s ptr : Nat) : Hw :=
  { h.setDirIn s [] with coh.dirPtr := Table.setD h.coh.dirPtr (fun _ => 0) s ptr }

/-- A read alone at the directory input is consulted, and waits only where the line says so. -/
theorem Hw.directoryLookup_read (h : Hw) (p : Piece) (hin : h.dirIn p.stack = [p]) (h1 : p.op = 1) (hlen : p.len = 64)
    (hd : h.degrading p.stack = false) (hw : (h.dirWaiting p.stack).length < 2048)
    (hpass : ((h.dirTaken p.stack (Table.atD h.coh.dirPtr (fun _ => 0) p.stack)).consult p).1 = false) :
    h.directoryLookup p.stack = ((h.dirTaken p.stack (Table.atD h.coh.dirPtr (fun _ => 0) p.stack)).consult p).2 := by
  have htouch : (p.stack == p.stack && decide (p.off / 64 ≤ p.off / 64 ∧ p.off / 64 ≤ (p.off + p.len - 1) / 64)) = true := by
    simp
    omega
  unfold Hw.directoryLookup
  rw [hin]
  dsimp only
  rw [if_neg (by simp [hd]; omega), List.filter_cons, List.filter_cons, htouch]
  simp only [if_true, Bool.not_true, Bool.false_eq_true, if_false, List.filter_nil, orderLine_read _ _ p h1, List.foldl_cons,
    List.foldl_nil]
  refine if_neg ?_
  change ¬ ((h.dirTaken p.stack (Table.atD h.coh.dirPtr (fun _ => 0) p.stack)).consult p).1 = true
  rw [hpass]
  decide

/-- DIRECTORY_LOOKUP of such a read. -/
theorem directoryLookup_leads (stack : StackIx) (s : State) (p : Piece) (k : Nat) (hin : s.hw.dirIn stack = [p])
    (hst : p.stack = stack) (h1 : p.op = 1) (hm : p.subop = 1 ∨ p.subop = 2) (hlen : p.len = 64) (hoff : p.off % 64 = 0)
    (hd : s.hw.degrading stack = false) (hw : (s.hw.dirWaiting stack).length < 2048)
    (hf : s.hw.findWay stack (p.off / 64) = none) (hs : s.hw.isSuspect stack (p.off / 64) = false)
    (hk : s.hw.invalidWay stack (p.off / 64) = some k) (hp : s.hw.PlacesRead p) :
    Leads (.directoryLookup stack) s (fun h => h.dirIn stack = [] ∧ (h.way k).ptrs = [p.requester] ∧ (h.way k).home = stack ∧
      (h.way k).tag = p.off / 64 / 65536 ∧ (h.way k).st = if p.subop = 2 then DirState.owned else DirState.shared) := by
  rw [← hst] at hin hd hw hf hs hk ⊢
  let x := s.hw.dirTaken p.stack (Table.atD s.hw.coh.dirPtr (fun _ => 0) p.stack)
  obtain ⟨e, hpass, hcoh, hptrs, hhome, htag, hstate⟩ := Hw.consult_read x p k h1 hm hlen hoff hf hs hk ⟨hp.free, hp.page, hp.rows⟩
  have hexec : execDirectoryLookup stack s = .next { s with hw := s.hw.directoryLookup p.stack } := by
    rw [hst]
    rfl
  refine .of_eq hexec (Hw.directoryLookup_read s.hw p hin h1 hlen hd hw hpass) ?_
  have w := Hw.setWay_writes x k e
  have hway : (x.consult p).2.way k = e := by
    rw [Hw.way, hcoh]
    exact w.way_same
  refine ⟨?_, by rw [hway, hptrs], by rw [hway, hhome], by rw [hway, htag], by rw [hway, hstate]⟩
  rw [Hw.dirIn, hcoh]
  exact (w.dirIn p.stack).trans (Hw.dirIn_setDirIn_same s.hw p.stack [])

end Sys2Proof.Machine
end

section
/-! A snoop that is not answered in time (R148). -/

namespace Sys2Proof.Machine

/-- What the end of a line's busy time leaves: the snoops that are out, wait lists that are empty, and a LOST line. -/
structure Hw.KeepsLost (key : Nat) (a b : Hw) : Prop where
  snoops : b.coh.snoops = a.coh.snoops
  idle : ∀ ds, a.dirWaiting ds = [] → b.dirWaiting ds = []
  lost : (a.way key).st = .lost → (b.way key).st = .lost

theorem Hw.Writes.keepsLost {key : Nat} {e : DirEntry} {a b : Hw} (w : a.Writes key e b) (h : (a.way key).st = .lost → e.st = .lost) :
    a.KeepsLost key b :=
  ⟨w.snoops, fun ds hq => (w.dirWaiting ds).trans hq, fun hl => by rw [w.way_same]; exact h hl⟩

theorem Hw.KeepsLost.trans {key : Nat} {a b c : Hw} (h : a.KeepsLost key b) (k : b.KeepsLost key c) : a.KeepsLost key c :=
  ⟨k.snoops.trans h.snoops, fun ds hq => k.idle ds (h.idle ds hq), fun hl => k.lost (h.lost hl)⟩

/-- Marks in a wait list that is empty. -/
theorem markGathered_all_nil (l : List DirPend) : l.foldl (fun q d => markGathered d.stack d.line q) [] = [] :=
  List.foldlRecOn (motive := fun q : List Piece => q = []) l _ rfl (fun q hq d _ => by rw [hq]; rfl)

theorem Hw.unbusy_keepsLost (h : Hw) (key : Nat) : h.KeepsLost key (h.unbusy key) := by
  unfold Hw.unbusy
  extract_lets e ds ended wait c x
  have hx : h.KeepsLost key x := by
    refine ⟨rfl, fun d hq => ?_, id⟩
    by_cases hd : d = ds
    · rw [hd] at hq ⊢
      have hwait : wait = [] := by
        unfold wait
        rw [show Table.atD h.coh.dirWait (fun _ => []) ds = [] from hq]
        exact markGathered_all_nil ended
      exact (Table.atD_setD_same h.coh.dirWait (fun _ => []) ds wait).trans hwait
    · exact (Table.atD_setD_ne h.coh.dirWait (fun _ => []) ds d wait hd).trans hq
  split
  · next hl => exact hx.trans ((Hw.setWay_writes ..).keepsLost (fun _ => hl))
  · next hl =>
    split
    · exact hx.trans ((Hw.freeWay_writes ..).keepsLost (fun hlost => absurd hlost hl))
    · exact hx.trans ((Hw.setWay_writes ..).keepsLost (fun hlost => absurd hlost hl))

theorem Hw.oneLess_keepsLost (h : Hw) (key : Nat) : h.KeepsLost key (h.oneLess key) := by
  unfold Hw.oneLess
  split
  · split
    · exact Hw.unbusy_keepsLost h key
    · exact ⟨rfl, fun _ hq => hq, id⟩
  · exact ⟨rfl, fun _ hq => hq, id⟩

/-- A snoop that timed out leaves the other snoops and empty wait lists, and a LOST line of an owner where losses are kept. -/
theorem Hw.answered_timeout (h : Hw) (key r : Nat) (owner : Bool) : let k := h.answered key r false owner true true
    k.coh.snoops = h.coh.snoops ∧ (∀ ds, h.dirWaiting ds = [] → k.dirWaiting ds = []) ∧
      (owner = true → h.reg Od.cohOwnerLoss (h.way key).part = 0 → h.reg Od.partState (h.way key).part ≠ 5 →
        (k.way key).st = .lost) := by
  intro k
  cases owner with
  | true =>
    have hk : k = (h.ownerLoss key true).oneLess key := rfl
    obtain ⟨hsnoops, hidle, hlost⟩ := Hw.oneLess_keepsLost (h.ownerLoss key true) key
    obtain ⟨e, -, w⟩ := Hw.ownerLoss_writes h key true
    rw [hk]
    refine ⟨hsnoops.trans w.snoops, fun ds hq => hidle ds ((w.dirWaiting ds).trans hq), fun _ hl hp => hlost ?_⟩
    rw [(Hw.ownerLoss_keeps h key true hp hl).way_same]
  | false =>
    have hk : k = (h.setWay key ((h.way key).remove r)).oneLess key := rfl
    obtain ⟨hsnoops, hidle, -⟩ := Hw.oneLess_keepsLost (h.setWay key ((h.way key).remove r)) key
    have w := Hw.setWay_writes h key ((h.way key).remove r)
    rw [hk]
    exact ⟨hsnoops.trans w.snoops, fun ds hq => hidle ds ((w.dirWaiting ds).trans hq), fun ho => absurd ho (by decide)⟩

/-- The block once the slot of snoop `id`, to requester `r`, is free and its timeout is counted and reported. -/
def Hw.snoopExpired (h : Hw) (id part r : Nat) : Hw :=
  ({ h with coh.snoops := Table.del h.coh.snoops id }.addReg Od.dirSnoopTimeouts (id / 4096)).raise
    { kind := 8, stack := some (id / 4096), part := some part, req := some r }

section

variable (h : Hw) (id part r : Nat)

theorem Hw.snoopExpired_coh : (h.snoopExpired id part r).coh = { h.coh with snoops := Table.del h.coh.snoops id } :=
  (Hw.raise_within ..).same .coherence (by decide)

theorem Hw.snoopExpired_counted : (h.snoopExpired id part r).reg Od.dirSnoopTimeouts (id / 4096) =
    (h.reg Od.dirSnoopTimeouts (id / 4096) + 1) % 2 ^ Od.dirSnoopTimeouts.width :=
  ((Hw.raise_within ..).reg _ _ (by decide)).trans (Hw.reg_addReg_same ..)

theorem Hw.snoopExpired_reg (q : Reg) (i : Nat) (hq : q = Od.cohOwnerLoss ∨ q = Od.partState) :
    (h.snoopExpired id part r).reg q i = h.reg q i := by
  rcases hq with rfl | rfl <;>
    exact ((Hw.raise_within ..).reg _ _ (by decide)).trans (Hw.reg_addReg_ne _ _ _ _ _ _ (by decide) (by decide) (by decide))

end

/-- With no snoop waiting for a slot, a snoop that is due resolves as unanswered. -/
theorem execSnoopTimeout_due (id : BitVec 16) (s : State) (x : Snoop) (t : Nat)
    (hx : Table.look s.hw.coh.snoops id.toNat = some x) (ht : x.sentAt = some t)
    (hdue : t + s.hw.reg Od.cohSnoopTimeoutUs (s.hw.way x.dirKey).part * 1000 ≤ s.hw.now)
    (hq : Table.atD s.hw.coh.snoopQ (fun _ => []) (id.toNat / 4096) = []) :
    let k := (s.hw.snoopExpired id.toNat (s.hw.way x.dirKey).part x.requester).answered x.dirKey x.requester false x.owner true true
    execSnoopTimeout id s = .next { s with hw := k.retryWaiting (id.toNat / 4096) } := by
  intro k
  have hid : id.toNat / 4096 * 4096 + id.toNat % 4096 = id.toNat := by omega
  have hfree : s.hw.freeSnoop (id.toNat / 4096) (id.toNat % 4096) =
      { s.hw with coh.snoops := Table.del s.hw.coh.snoops id.toNat } := by
    unfold Hw.freeSnoop
    dsimp only
    rw [hq, hid]
  unfold execSnoopTimeout
  rw [State.on]
  dsimp only
  rw [hx]
  dsimp only
  rw [ht]
  dsimp only
  rw [if_pos hdue, hfree]
  rfl

/-- SNOOP_TIMEOUT with no request waiting at the slice. -/
theorem snoopTimeout_leads (id : BitVec 16) (s : State) (x : Snoop) (t : Nat)
    (hx : Table.look s.hw.coh.snoops id.toNat = some x) (ht : x.sentAt = some t)
    (hdue : t + s.hw.reg Od.cohSnoopTimeoutUs (s.hw.way x.dirKey).part * 1000 ≤ s.hw.now)
    (hw : s.hw.dirWaiting (id.toNat / 4096) = []) (hq : Table.atD s.hw.coh.snoopQ (fun _ => []) (id.toNat / 4096) = []) :
    Leads (.snoopTimeout id) s (fun h => Table.look h.coh.snoops id.toNat = none ∧
      h.reg Od.dirSnoopTimeouts (id.toNat / 4096) =
        (s.hw.reg Od.dirSnoopTimeouts (id.toNat / 4096) + 1) % 2 ^ Od.dirSnoopTimeouts.width ∧
      (x.owner = true → s.hw.reg Od.cohOwnerLoss (s.hw.way x.dirKey).part = 0 →
        s.hw.reg Od.partState (s.hw.way x.dirKey).part ≠ 5 → (h.way x.dirKey).st = .lost)) := by
  let y := s.hw.snoopExpired id.toNat (s.hw.way x.dirKey).part x.requester
  have hcoh : y.coh = { s.hw.coh with snoops := Table.del s.hw.coh.snoops id.toNat } := Hw.snoopExpired_coh ..
  have hway : y.way x.dirKey = s.hw.way x.dirKey := by
    rw [Hw.way, hcoh]
    rfl
  have hidle : y.dirWaiting (id.toNat / 4096) = [] := by
    rw [Hw.dirWaiting, hcoh]
    exact hw
  obtain ⟨hsnoops, hwait, hlost⟩ := Hw.answered_timeout y x.dirKey x.requester x.owner
  refine .of_eq (execSnoopTimeout_due id s x t hx ht hdue hq) (Hw.retryWaiting_idle _ _ (hwait _ hidle)) ⟨?_, ?_, fun ho hl hp => ?_⟩
  · rw [hsnoops, hcoh]
    exact Table.look_del_same _ _
  · exact ((Hw.answered_within ..).reg _ _ (by decide)).trans (Hw.snoopExpired_counted ..)
  · refine hlost ho ?_ ?_
    · rw [hway]
      exact (Hw.snoopExpired_reg _ _ _ _ _ _ (.inl rfl)).trans hl
    · rw [hway, Hw.snoopExpired_reg _ _ _ _ _ _ (.inr rfl)]
      exact hp

end Sys2Proof.Machine
end

section
/-! The sweep of a requester whose epoch advanced (R144). -/

namespace Sys2Proof.Machine

/-- Requester `r` holds nothing through way `key` that a sweep takes, unless the line is busy. -/
def Hw.swept (h : Hw) (r key : Nat) : Prop :=
  (h.way key).busy = false →
    ((h.way key).st = .shared → (h.way key).coarse = false → r ∉ (h.way key).ptrs) ∧
      ¬((h.way key).st = .owned ∧ (h.way key).ptrs = [r] ∧ h.ownerGone key = true)

/-- The sweep of requester `r` at one way. -/
def Hw.sweepWay (r : Nat) (h : Hw) (key : Nat) : Hw :=
  let e := h.way key
  if e.busy then h
  else if e.st = .owned ∧ e.ptrs = [r] ∧ h.ownerGone key then h.ownerLoss key false
  else if e.st = .shared ∧ !e.coarse ∧ e.ptrs.contains r then
    let e := e.remove r
    if e.ptrs = [] then h.freeWay key else h.setWay key e
  else h

/-- The ways that slice `st` lists. -/
def Hw.listedWays (h : Hw) (st : Nat) : List Nat := (h.coh.dir.filter (fun e => decide (e.1 / 16 / 65536 = st))).map (fun e => e.1)

theorem Hw.sweepSlice_eq (h : Hw) (st r : Nat) : h.sweepSlice st r =
    ((h.listedWays st).foldl (Hw.sweepWay r) { h with coh.sweeps := h.coh.sweeps.erase (st, r) }).retryWaiting st := rfl

theorem Hw.swept_of_free {h : Hw} (r : Nat) {key : Nat} (hst : (h.way key).st = .lost ∨ (h.way key).st = .invalid) : h.swept r key := by
  rcases hst with hst | hst <;> simp [Hw.swept, hst]

/-- A holder that is removed from a line with pointers. -/
theorem DirEntry.not_mem_remove (e : DirEntry) (r : Nat) (hc : (!e.coarse) = true) : r ∉ (e.remove r).ptrs := by
  unfold DirEntry.remove
  rw [if_neg (by simpa using hc)]
  simp

/-- A sweep leaves the way as it is, or writes it; either way it is swept. -/
theorem Hw.sweepWay_cases (h : Hw) (r key : Nat) :
    (h.sweepWay r key).swept r key ∧ (h.sweepWay r key = h ∨ ∃ e, h.Writes key e (h.sweepWay r key)) := by
  unfold Hw.sweepWay
  dsimp only
  split
  · next hb => exact ⟨fun hfree => absurd (hb.symm.trans hfree) (by decide), .inl rfl⟩
  · split
    · obtain ⟨e, hst, w⟩ := Hw.ownerLoss_writes h key false
      exact ⟨Hw.swept_of_free r (by rw [w.way_same]; exact hst), .inr ⟨e, w⟩⟩
    · next howned =>
      split
      · next hshared =>
        obtain ⟨hst, hc, -⟩ := hshared
        split
        · have w := Hw.freeWay_writes h key
          exact ⟨Hw.swept_of_free r (by rw [w.way_same]; exact .inr rfl), .inr ⟨_, w⟩⟩
        · have w := Hw.setWay_writes h key ((h.way key).remove r)
          have hst' : ((h.way key).remove r).st = .shared := by
            unfold DirEntry.remove
            split <;> exact hst
          refine ⟨fun _ => ?_, .inr ⟨_, w⟩⟩
          rw [w.way_same]
          exact ⟨fun _ _ => DirEntry.not_mem_remove _ r hc, fun ho => absurd (hst'.symm.trans ho.1) (by decide)⟩
      · next hshared =>
        exact ⟨fun _ => ⟨fun hst hc hr => hshared ⟨hst, by rw [hc]; rfl, List.contains_iff_mem.2 hr⟩, howned⟩, .inl rfl⟩

/-- What is swept at one way stays so while the sweep goes on. -/
theorem Hw.swept_sweepWay {h : Hw} {r k : Nat} (hs : h.swept r k) (key : Nat) : (h.sweepWay r key).swept r k := by
  obtain ⟨hself, hcase⟩ := Hw.sweepWay_cases h r key
  by_cases hk : k = key
  · rw [hk]
    exact hself
  · rcases hcase with hsame | ⟨e, w⟩
    · rw [hsame]
      exact hs
    · unfold Hw.swept
      rw [w.way_ne hk, w.ownerGone_ne hk]
      exact hs

/-- After the sweep of several ways, each of them is swept, and so is what was swept before. -/
theorem Hw.sweepWays_swept (r : Nat) (l : List Nat) (h : Hw) (k : Nat) (hk : k ∈ l ∨ h.swept r k) :
    (l.foldl (Hw.sweepWay r) h).swept r k := by
  induction l generalizing h with
  | nil => exact hk.resolve_left List.not_mem_nil
  | cons key l ih =>
    refine ih (h.sweepWay r key) ?_
    rcases hk with hk | hs
    · rcases List.mem_cons.1 hk with rfl | hl
      · exact .inr (Hw.sweepWay_cases h r k).1
      · exact .inl hl
    · exact .inr (Hw.swept_sweepWay hs key)

/-- A way of slice `st` is listed there, or it is free. -/
theorem Hw.mem_listedWays_or_free (h : Hw) (st key : Nat) (hkey : key / 16 / 65536 = st) :
    key ∈ h.listedWays st ∨ (h.way key).st = .invalid := by
  by_cases hst : (h.way key).st = .invalid
  · exact .inr hst
  · exact .inl (List.mem_map.2 ⟨_, List.mem_filter.2 ⟨Hw.way_listed h key hst, decide_eq_true hkey⟩, rfl⟩)

/-- DIRECTORY_SWEEP with no request waiting at the slice. -/
theorem directorySweep_leads (stack : StackIx) (s : State) (st r : Nat)
    (hf : s.hw.coh.sweeps.find? (fun x => x.1 == stack.val) = some (st, r)) (hw : s.hw.dirWaiting stack = []) :
    Leads (.directorySweep stack) s (fun h => h.coh.sweeps = s.hw.coh.sweeps.erase (st, r) ∧
      ∀ key, key / 16 / 65536 = stack.val → h.swept r key) := by
  have hst : st = stack.val := by simpa using List.find?_some hf
  let x : Hw := { s.hw with coh.sweeps := s.hw.coh.sweeps.erase (st, r) }
  obtain ⟨d, hd⟩ := Hw.foldWays_coh (fun h k => (Hw.sweepWay_cases h r k).2) x (s.hw.listedWays st)
  have hidle : ((s.hw.listedWays st).foldl (Hw.sweepWay r) x).dirWaiting st = [] :=
    (Hw.dirWaiting_of_dir hd st).trans (hst ▸ hw)
  have hexec : execDirectorySweep stack s = .next { s with hw := s.hw.sweepSlice st r } := by
    unfold execDirectorySweep
    rw [State.on, hf]
  refine .of_eq hexec ((Hw.sweepSlice_eq ..).trans (Hw.retryWaiting_idle _ _ hidle)) ⟨by rw [hd], fun key hkey => ?_⟩
  exact Hw.sweepWays_swept r _ x key ((Hw.mem_listedWays_or_free s.hw st key (hkey.trans hst.symm)).imp id
    (fun hfree => Hw.swept_of_free r (.inr hfree)))

end Sys2Proof.Machine
end

section
/-! ACCEPT_ALL: every LOST line of a partition takes its memory copy (R145, R149). -/

namespace Sys2Proof.Machine

/-- Way `key` of partition `p`, whose line is LOST, takes the memory copy, which is logged. -/
def Hw.acceptWay (p : Nat) (h : Hw) (key : Nat) : Hw :=
  (h.logLoss p 2 ((h.way key).ptrs.headD 0) ((h.way key).dpa key) false).freeWay key

theorem Hw.acceptWay_writes (h : Hw) (p key : Nat) : h.Writes key {} (h.acceptWay p key) := (Hw.freeWay_writes ..).logged

/-- The ways of LOST lines of partition `p`, as the directories list them. -/
def Hw.lostWays (h : Hw) (p : Nat) : List Nat :=
  (h.coh.dir.filter (fun e => decide (e.2.st = .lost ∧ e.2.part = p))).map (fun e => e.1)

theorem Hw.acceptAll_eq (h : Hw) (p : Nat) : h.acceptAll p =
    (List.range 16).foldl (fun h ds => h.retryWaiting ds) ((h.lostWays p).foldl (Hw.acceptWay p) h) := rfl

theorem Hw.mem_lostWays (h : Hw) (p key : Nat) (hl : (h.way key).st = .lost) (hp : (h.way key).part = p) : key ∈ h.lostWays p :=
  List.mem_map.2 ⟨_, List.mem_filter.2 ⟨Hw.way_listed h key (by rw [hl]; decide), decide_eq_true ⟨hl, hp⟩⟩, rfl⟩

/-- Once every way of a list that holds the LOST lines of a partition is accepted, none of them is left. -/
theorem Hw.acceptWays_none (p : Nat) (l : List Nat) (h : Hw) (hl : ∀ key, (h.way key).st = .lost → (h.way key).part = p → key ∈ l)
    (key : Nat) (hlost : ((l.foldl (Hw.acceptWay p) h).way key).st = .lost) : ((l.foldl (Hw.acceptWay p) h).way key).part ≠ p := by
  induction l generalizing h with
  | nil => exact fun hp => absurd (hl key hlost hp) List.not_mem_nil
  | cons k l ih =>
    have w := Hw.acceptWay_writes h p k
    refine ih (h.acceptWay p k) (fun j hj hjp => ?_) hlost
    by_cases hjk : j = k
    · rw [hjk, w.way_same] at hj
      cases hj
    · rw [w.way_ne hjk] at hj hjp
      exact (List.mem_cons.1 (hl j hj hjp)).resolve_left hjk

/-- With no request waiting anywhere, ACCEPT_ALL is no more than that. -/
theorem Hw.acceptAll_idle (h : Hw) (p : Nat) (hw : ∀ ds, h.dirWaiting ds = []) :
    h.acceptAll p = (h.lostWays p).foldl (Hw.acceptWay p) h := by
  obtain ⟨d, hd⟩ := Hw.foldWays_coh (fun h k => .inr ⟨_, Hw.acceptWay_writes h p k⟩) h (h.lostWays p)
  rw [Hw.acceptAll_eq]
  refine List.foldlRecOn (motive := fun x : Hw => x = (h.lostWays p).foldl (Hw.acceptWay p) h) _ _ rfl (fun x hx ds _ => ?_)
  rw [hx]
  exact Hw.retryWaiting_idle _ _ ((Hw.dirWaiting_of_dir hd ds).trans (hw ds))

/-- A write of a command that nothing blocks and whose code is listed: it is carried out, and then at most passed on. -/
theorem Hw.writeOne_runs {h : Hw} {a : Actor} {r : Reg} {f : FieldDesc} {i e v x : Nat} {b : Option Nat} {c : Bool}
    (hf : h.fieldAt r i = some f) (hcmd : f.cmd = true) (hr : h.remoteCopy r.index i = false) (hlt : v % 2 ^ f.ty.width = v)
    (hb : h.blocks a r i v b = none) (hc : h.check f r i v = some (x, c)) :
    (h.runCommand a r i v).Within passedOnMask (h.writeOne a r i e v b).2 := by
  unfold Hw.writeOne
  rw [hf]
  dsimp only
  rw [if_neg (by rw [hr]; decide), hlt, hb]
  dsimp only
  rw [hc]
  dsimp only
  simp only [hcmd, if_true]
  split
  · exact .step (Hw.passOn_within ..) (by decide) (.step (Hw.mirrorDict_within ..) (by decide) (.refl _ _))
  · exact .refl _ _

/-- ACCEPT_ALL that is accepted is carried out. -/
theorem Hw.dictWrite_lostAccept (h : Hw) (a : Actor) (p : Nat) (hacc : h.accepts a Od.cohLostAccept p 1) :
    (h.acceptAll p).Within passedOnMask (h.dictWrite a Od.cohLostAccept p 1) := by
  obtain ⟨hmay, hfield, hremote, -⟩ := hacc
  obtain ⟨f, hf⟩ := Option.isSome_iff_exists.1 hfield
  obtain ⟨hty, hcmd⟩ : f.ty = .enum8 [1] ∧ f.cmd = true := by
    have hd : ((fieldOf Od.cohLostAccept).map (fun f => (f.ty, f.cmd))) = some (.enum8 [1], true) := by decide
    rw [Hw.fieldAt_of hf] at hd
    exact Prod.mk.inj (Option.some.inj hd)
  have hlt : 1 % 2 ^ f.ty.width = 1 := by rw [hty]; decide
  have hblocks : h.blocks a Od.cohLostAccept p 1 none = none := by
    unfold Hw.blocks
    repeat rw [if_neg (by decide)]
  have hcheck : h.check f Od.cohLostAccept p 1 = some (1, false) := by
    refine Hw.check_code h hty p 1 (by decide) hlt (by decide) ?_
    unfold Hw.ownCheck
    rw [if_neg (fun c => absurd c.1 (by decide)), if_neg (by decide), if_neg (fun c => absurd c.1 (by decide)),
      if_neg (fun c => absurd c.1 (by decide)), if_neg (by decide)]
  rw [Hw.dictWrite, if_pos hmay, Hw.writeItem, if_neg (by decide)]
  have w : (h.runCommand a Od.cohLostAccept p 1).Within passedOnMask (h.writeOne a Od.cohLostAccept p 0 1 none).2 :=
    Hw.writeOne_runs hf hcmd hremote hlt hblocks hcheck
  rw [Hw.runCommand_eq _ _ _ _ _ rfl, Hw.command_cohLostAccept_1] at w
  exact w

/-- ACCEPT_ALL with no request waiting at a slice. -/
theorem acceptAll_leads (who : Actor) (p : PartIx) (s : State) (hacc : s.hw.accepts who Od.cohLostAccept p 1)
    (hw : ∀ ds, s.hw.dirWaiting ds = []) :
    Leads (.acceptAll who p) s (fun h => ∀ key, (h.way key).st = .lost → (h.way key).part ≠ p.val) := by
  have w := Hw.dictWrite_lostAccept s.hw who p hacc
  rw [Hw.acceptAll_idle s.hw p hw] at w
  refine ⟨_, rfl, fun key => ?_⟩
  rw [Hw.way, w.same .coherence (by decide)]
  exact Hw.acceptWays_none p _ s.hw (Hw.mem_lostWays s.hw p) key

end Sys2Proof.Machine
end

section
/-! The directory's lookup, timeout, sweep and acceptance together. -/

namespace Sys2Proof.Machine

/-- Settles O32, one row after another. -/
theorem directoryActs : Obligations.DirectoryActs := by
  intro s
  refine ⟨?_, ?_, fun stack st r hf hw => directorySweep_leads stack s st r hf hw, fun who p hacc hw => acceptAll_leads who p s hacc hw⟩
  · intro stack p k line phys hin hst h1 hm hlen hoff _ hd hw _ hf hs hk hheld hret hr
    exact directoryLookup_leads stack s p k hin hst h1 hm hlen hoff hd hw hf hs hk ⟨hheld, hret, hr⟩
  · intro id x t ds part hx ht hdue hw hq
    exact snoopTimeout_leads id s x t hx ht hdue hw hq

end Sys2Proof.Machine
end

section
/-! Concrete states that meet the hypotheses of O32, row by row, and what it then says of them. -/

namespace Sys2Proof.Machine

/-- A block 1 ms after its start that holds nothing but the coherence group `coh`. -/
def blockOf (coh : CohSt) : State := { hw := { now := 10 ^ 6, coh := coh }, pending := [] }

/-- Requester 5's read of the first line of stack 0, in OWNER mode. -/
def ownerRead : Piece := { trk := 9, op := 1, stack := 0, off := 0, dpa := 0, len := 64, part := some 0, requester := 5, subop := 2 }

/-- The read that makes requester 5 the owner, alone at the directory input. -/
def readAtDirectory : State := blockOf { dirQ := [(0, [ownerRead])] }

theorem readAtDirectory_cutRows : readAtDirectory.hw.cutRows 0 (readAtDirectory.hw.physical 0 0) 64 = [(0, 64)] := by decide +kernel

/-- Requester 5 becomes the owner in way 0. -/
theorem readAtDirectory_owns : Leads (.directoryLookup 0) readAtDirectory
    (fun h => h.dirIn 0 = [] ∧ (h.way 0).ptrs = [5] ∧ (h.way 0).st = .owned) := by
  obtain ⟨hlookup, -⟩ := directoryActs readAtDirectory
  obtain ⟨k, hk, hin, hptrs, -, -, hst⟩ := hlookup 0 ownerRead 0 rfl rfl rfl (.inr rfl) rfl rfl rfl (by decide +kernel)
    (by decide +kernel) (by decide +kernel) (by decide +kernel) (by decide +kernel) (by decide +kernel) (by decide +kernel) (by decide +kernel)
    (fun q hq => by
      obtain rfl : q = (0, 64) := List.mem_singleton.1 (readAtDirectory_cutRows ▸ hq)
      exact ⟨by decide +kernel, fun _ _ => rfl⟩)
  exact ⟨k, hk, hin, hptrs, hst⟩

/-- Requester 5, which is not ACTIVE, owns the line in way 0. -/
def ownedByFive : Table DirEntry := [(0, { st := .owned, ptrs := [5] })]

/-- A snoop to requester 5 for that line left at time 0. -/
def snoopToFive : Snoop := { requester := 5, dpa := 0, data := false, dirKey := 0, owner := true, sentAt := some 0 }

/-- After 1 ms the snoop times out: its slot is free, and the line is LOST. -/
theorem snoopToFive_timesOut : Leads (.snoopTimeout 0) (blockOf { dir := ownedByFive, snoops := [(0, snoopToFive)] })
    (fun h => Table.look h.coh.snoops 0 = none ∧ h.reg Od.dirSnoopTimeouts 0 = 1 ∧ (h.way 0).st = .lost) := by
  obtain ⟨-, htimeout, -⟩ := directoryActs (blockOf { dir := ownedByFive, snoops := [(0, snoopToFive)] })
  obtain ⟨k, hk, hslot, hcount, hlost⟩ := htimeout 0 snoopToFive 0 rfl rfl (by decide +kernel) rfl rfl
  exact ⟨k, hk, hslot, hcount.trans (by decide +kernel), hlost rfl (by decide +kernel) (by decide +kernel)⟩

/-- The sweep of requester 5 at slice 0 ends with the line not its own, unless the line is busy. -/
theorem ownedByFive_swept : Leads (.directorySweep 0) (blockOf { dir := ownedByFive, sweeps := [(0, 5)] })
    (fun h => h.coh.sweeps = [] ∧ h.swept 5 0) := by
  obtain ⟨-, -, hsweep, -⟩ := directoryActs (blockOf { dir := ownedByFive, sweeps := [(0, 5)] })
  obtain ⟨k, hk, hsweeps, hways⟩ := hsweep 0 0 5 rfl rfl
  exact ⟨k, hk, hsweeps, hways 0 rfl⟩

/-- Firmware accepts the LOST line of partition 0 in way 0. -/
theorem lostLine_accepted : Leads (.acceptAll .firmware 0) (blockOf { dir := [(0, { st := .lost, ptrs := [5] })] })
    (fun h => (h.way 0).st = .lost → (h.way 0).part ≠ 0) := by
  obtain ⟨-, -, -, haccept⟩ := directoryActs (blockOf { dir := [(0, { st := .lost, ptrs := [5] })] })
  exact (haccept .firmware 0 ⟨by decide +kernel, by decide +kernel, by decide +kernel, by decide +kernel⟩ (fun _ => rfl)).imp
    (fun _ hnone => hnone 0)

end Sys2Proof.Machine
end

section
/-! The frames of the rows of programs, caravan steps, reductions and parity. -/

namespace Sys2Proof.Machine

/-- Settles O58: each row's mask, read as groups and registers. -/
theorem caravanFrames : Obligations.CaravanFrames := by
  and_intros
  -- programs and launches (R163, R165, R167, R168, R171)
  · intro who prog
    exact .of_listed (execProgBegin_within who prog) (by decide)
  · intro who prog
    exact .of_listed (execCommit_within who prog) (by decide)
  · intro who prog
    exact .of_listed (execDelete_within who prog) (by decide)
  · intro who prog word
    exact .of_listed (execProgStepWrite_within who prog word) (by decide)
  · intro stack prog
    exact .of_listed (execProgramCopyRepair_within stack prog) (by decide)
  · intro stack
    exact .of_listed (execLaunchQueue_within stack) (by decide)
  · intro e
    exact .of_listed (execLaunchStart_within e) (by decide)
  -- steps over operands (R175, R211, R219)
  · intro e
    exact .forall_of_listed ⟨execMove_within e, execGather_within e, execScatter_within e, execFill_within e, execDelta_within e,
      execPackz_within e, execTile_within e⟩ (by decide)
  · intro e
    exact .forall_of_listed ⟨execConvert_within e, execAccum_within e, execAxpby_within e, execMoment_within e⟩ (by decide)
  · intro e
    exact .forall_of_listed ⟨execReduce_within e, execFence_within e⟩ (by decide)
  · intro e
    exact .of_listed (execDigest_within e) (by decide)
  · intro e
    exact .of_listed (execIngest_within e) (by decide)
  -- control steps, waits and ends (R172, R175 to R177, R179, R183 to R186)
  · intro e
    exact .forall_of_listed ⟨execSeti_within e, execAddi_within e, execLoop_within e, execSignalNotice_within e⟩ (by decide)
  · intro e
    exact .forall_of_listed ⟨execWaitFlag_within e, execWaitPush_within e, execWaitChunk_within e, execWaitEnd_within e,
      execWaitTimeout_within e⟩ (by decide)
  · intro e
    exact .of_listed (execSignalFlag_within e) (by decide)
  · intro e
    exact .of_listed (execEndStep_within e) (by decide)
  · intro e
    exact .of_listed (execRuntimeLimit_within e) (by decide)
  · intro who e
    exact .of_listed (execAbortRunning_within who e) (by decide)
  · intro who e
    exact .of_listed (execAbortAll_within who e) (by decide)
  · intro e desc
    exact .of_listed (execDescriptorDeadline_within e desc) (by decide)
  -- reductions (R216, R217, R219, R220, R230, R234)
  · intro who session
    exact .of_listed (execOpenSession_within who session) (by decide)
  · intro who session
    exact .of_listed (execAbort_within who session) (by decide)
  · intro who session
    exact .of_listed (execClose_within who session) (by decide)
  · intro who session
    exact .of_listed (execExclude_within who session) (by decide)
  · intro who session
    exact .of_listed (execRearm_within who session) (by decide)
  · intro session
    exact .of_listed (execSessionPrepared_within session) (by decide)
  · intro stack
    exact .of_listed (execContribution_within stack) (by decide)
  · intro session chunk
    exact .forall_of_listed ⟨execMapEntryWrite_within session chunk, execStragglerExpiry_within session chunk⟩ (by decide)
  -- parity (R237 to R240)
  · intro stack
    exact .forall_of_listed ⟨execWriteIntent_within stack, execSettleNotice_within stack⟩ (by decide)
  · intro stack
    exact .of_listed (execParityDelta_within stack) (by decide)
  · intro stack
    exact .forall_of_listed ⟨execDegradeDrainEnd_within stack, execDegradedRead_within stack⟩ (by decide)
  · intro stack
    exact .of_listed (execDegradeComplete_within stack) (by decide)

end Sys2Proof.Machine
end

section
/-! What no command writes but a few: the hub timebase, the debug port and the staging of the engines. -/

namespace Sys2Proof.Machine

/-- Whether each of the three may be written. -/
structure RareWrites where
  timebase : Bool
  tap : Bool
  staging : Bool

/-- What a mask says of the three. -/
def rareOf (m : Nat) : RareWrites := ⟨m.testBit Part.time.no, m.testBit Part.tap.no, m.testBit Part.staging.no⟩

/-- Which of the three a command may write. -/
def Instr.rare : Instr → RareWrites
  | .pwrokFall | .hubRstAssert | .hubRstRelease _ | .sliceRstAssert _ => ⟨true, true, true⟩
  | .sp0Trained .. | .heartbeatReceive .. => ⟨true, false, false⟩
  | .extest | .samplePreload | .idcode | .dbgUnlock .. | .dictPeek _ | .wirSelect _ | .stewardHalt _ | .stewardResume _ | .bypass _
  | .tapReset => ⟨false, true, false⟩
  | .move _ | .gather _ | .scatter _ | .convert _ | .accum _ | .fill _ | .digest _ | .delta _ | .packz _ | .tile _ | .axpby _
  | .moment _ | .ingest _ | .scrubVerify .. => ⟨false, false, true⟩
  | _ => ⟨false, false, false⟩

/-- From `s` command `c` answers a next state with the same queue, within a mask that says of the three what `Instr.rare` says. -/
def RunsWithin (c : Instr) (s : State) : Prop :=
  ∃ m k, exec c s = .next { s with hw := k } ∧ s.hw.Within m k ∧ rareOf m = Instr.rare c

theorem RunsWithin.of {c : Instr} {s : State} {m : Nat} (h : ∃ k, exec c s = .next { s with hw := k } ∧ s.hw.Within m k)
    (hm : rareOf m = Instr.rare c) : RunsWithin c s := by
  obtain ⟨k, hk, hw⟩ := h
  exact ⟨m, k, hk, hw, hm⟩

/-- The masks of all rows of the opcode table. -/
theorem exec_runsWithin (c : Instr) (s : State) : RunsWithin c s := by
  cases c with
  | flitReceive => exact .of (execFlitReceive_within ..) rfl
  | replayLimitRetrain => exact .of (execReplayLimitRetrain_within ..) rfl
  | moduleRetrainDone => exact .of (execModuleRetrainDone_within ..) rfl
  | flitDeliveryTimeout => exact .of (execFlitDeliveryTimeout_within ..) rfl
  | qanatRetryBudgetExpiry => exact .of (execQanatRetryBudgetExpiry_within ..) rfl
  | flitIdleTimeout => exact .of (execFlitIdleTimeout_within ..) rfl
  | sandglassWindow => exact .of (execSandglassWindow_within ..) rfl
  | paceQuantizedRefresh => exact .of (execPaceQuantizedRefresh_within ..) rfl
  | sliceSilenceTimeout => exact .of (execSliceSilenceTimeout_within ..) rfl
  | requestHeader => exact .of (execRequestHeader_within ..) rfl
  | dataBeat => exact .of (execDataBeat_within ..) rfl
  | rd => exact .of (execRd_within ..) rfl
  | wr => exact .of (execWr_within ..) rfl
  | wrp => exact .of (execWrp_within ..) rfl
  | acw => exact .of (execAcw_within ..) rfl
  | fadd64 => exact .of (execFadd64_within ..) rfl
  | swap64 => exact .of (execSwap64_within ..) rfl
  | cas128 => exact .of (execCas128_within ..) rfl
  | launch => exact .of (execLaunch_within ..) rfl
  | odwRead => exact .of (execOdwRead_within ..) rfl
  | odwWrite => exact .of (execOdwWrite_within ..) rfl
  | birsp => exact .of (execBirsp_within ..) rfl
  | deniedDue => exact .of (execDeniedDue_within ..) rfl
  | deferredRelease => exact .of (execDeferredRelease_within ..) rfl
  | heldIngressAdmit => exact .of (execHeldIngressAdmit_within ..) rfl
  | egressPick => exact .of (execEgressPick_within ..) rfl
  | responseLastBeat => exact .of (execResponseLastBeat_within ..) rfl
  | reqStateActive => exact .of (execReqStateActive_within ..) rfl
  | reqStateReset => exact .of (execReqStateReset_within ..) rfl
  | reqStateDead => exact .of (execReqStateDead_within ..) rfl
  | reqStateAbsent => exact .of (execReqStateAbsent_within ..) rfl
  | requestTimeout => exact .of (execRequestTimeout_within ..) rfl
  | cancel => exact .of (execCancel_within ..) rfl
  | sliceInput => exact .of (execSliceInput_within ..) rfl
  | queueEntryAdmit => exact .of (execQueueEntryAdmit_within ..) rfl
  | columnPick => exact .of (execColumnPick_within ..) rfl
  | activatePick => exact .of (execActivatePick_within ..) rfl
  | columnData => exact .of (execColumnData_within ..) rfl
  | refreshDue => exact .of (execRefreshDue_within ..) rfl
  | rfmIssue => exact .of (execRfmIssue_within ..) rfl
  | refreshSlotEnd => exact .of (execRefreshSlotEnd_within ..) rfl
  | refreshMultiplierChange => exact .of (execRefreshMultiplierChange_within ..) rfl
  | refreshWindowEnd => exact .of (execRefreshWindowEnd_within ..) rfl
  | throttleExpiry => exact .of (execThrottleExpiry_within ..) rfl
  | pauseIdleGap => exact .of (execPauseIdleGap_within ..) rfl
  | pauseForced => exact .of (execPauseForced_within ..) rfl
  | pauseEnd => exact .of (execPauseEnd_within ..) rfl
  | thermalLevelChange => exact .of (execThermalLevelChange_within ..) rfl
  | rateSwitch => exact .of (execRateSwitch_within ..) rfl
  | rateSwitchDone => exact .of (execRateSwitchDone_within ..) rfl
  | coldHoldExit => exact .of (execColdHoldExit_within ..) rfl
  | trainingAttemptDone => exact .of (execTrainingAttemptDone_within ..) rfl
  | zeroFillDone => exact .of (execZeroFillDone_within ..) rfl
  | arbiterPick => exact .of (execArbiterPick_within ..) rfl
  | grantStart => exact .of (execGrantStart_within ..) rfl
  | burstCutoff => exact .of (execBurstCutoff_within ..) rfl
  | dispatchCreditReturn => exact .of (execDispatchCreditReturn_within ..) rfl
  | quotaWindowEnd => exact .of (execQuotaWindowEnd_within ..) rfl
  | frameSlotStart => exact .of (execFrameSlotStart_within ..) rfl
  | missPeriodEnd => exact .of (execMissPeriodEnd_within ..) rfl
  | serviceModeWriteNormal => exact .of (execServiceModeWriteNormal_within ..) rfl
  | serviceModeWriteTest => exact .of (execServiceModeWriteTest_within ..) rfl
  | svcStartupExpiry => exact .of (execSvcStartupExpiry_within ..) rfl
  | recoveryDone => exact .of (execRecoveryDone_within ..) rfl
  | regulatorWindow => exact .of (execRegulatorWindow_within ..) rfl
  | wcbEvict => exact .of (execWcbEvict_within ..) rfl
  | wcbHoldExpiry => exact .of (execWcbHoldExpiry_within ..) rfl
  | rmwMerge => exact .of (execRmwMerge_within ..) rfl
  | writeSplit => exact .of (execWriteSplit_within ..) rfl
  | readRaw => exact .of (execReadRaw_within ..) rfl
  | readDecoded => exact .of (execReadDecoded_within ..) rfl
  | testEnd => exact .of (execTestEnd_within ..) rfl
  | ceHistoryExpiry => exact .of (execCeHistoryExpiry_within ..) rfl
  | scrubRead => exact .of (execScrubRead_within ..) rfl
  | rebuildRow => exact .of (execRebuildRow_within ..) rfl
  | sppr => exact .of (execSppr_within ..) rfl
  | hppr => exact .of (execHppr_within ..) rfl
  | retirePage => exact .of (execRetirePage_within ..) rfl
  | retireClear => exact .of (execRetireClear_within ..) rfl
  | directoryLookup => exact .of (execDirectoryLookup_within ..) rfl
  | snoopTimeout => exact .of (execSnoopTimeout_within ..) rfl
  | directorySweep => exact .of (execDirectorySweep_within ..) rfl
  | acceptAll => exact .of (execAcceptAll_within ..) rfl
  | progBegin => exact .of (execProgBegin_within ..) rfl
  | commit => exact .of (execCommit_within ..) rfl
  | delete => exact .of (execDelete_within ..) rfl
  | progStepWrite => exact .of (execProgStepWrite_within ..) rfl
  | programCopyRepair => exact .of (execProgramCopyRepair_within ..) rfl
  | launchQueue => exact .of (execLaunchQueue_within ..) rfl
  | launchStart => exact .of (execLaunchStart_within ..) rfl
  | move => exact .of (execMove_within ..) rfl
  | gather => exact .of (execGather_within ..) rfl
  | scatter => exact .of (execScatter_within ..) rfl
  | convert => exact .of (execConvert_within ..) rfl
  | reduce => exact .of (execReduce_within ..) rfl
  | accum => exact .of (execAccum_within ..) rfl
  | fill => exact .of (execFill_within ..) rfl
  | digest => exact .of (execDigest_within ..) rfl
  | delta => exact .of (execDelta_within ..) rfl
  | packz => exact .of (execPackz_within ..) rfl
  | tile => exact .of (execTile_within ..) rfl
  | axpby => exact .of (execAxpby_within ..) rfl
  | moment => exact .of (execMoment_within ..) rfl
  | ingest => exact .of (execIngest_within ..) rfl
  | seti => exact .of (execSeti_within ..) rfl
  | addi => exact .of (execAddi_within ..) rfl
  | loop => exact .of (execLoop_within ..) rfl
  | waitFlag => exact .of (execWaitFlag_within ..) rfl
  | waitPush => exact .of (execWaitPush_within ..) rfl
  | waitChunk => exact .of (execWaitChunk_within ..) rfl
  | waitEnd => exact .of (execWaitEnd_within ..) rfl
  | waitTimeout => exact .of (execWaitTimeout_within ..) rfl
  | signalFlag => exact .of (execSignalFlag_within ..) rfl
  | signalNotice => exact .of (execSignalNotice_within ..) rfl
  | fence => exact .of (execFence_within ..) rfl
  | endStep => exact .of (execEndStep_within ..) rfl
  | runtimeLimit => exact .of (execRuntimeLimit_within ..) rfl
  | abortRunning => exact .of (execAbortRunning_within ..) rfl
  | abortAll => exact .of (execAbortAll_within ..) rfl
  | descriptorDeadline => exact .of (execDescriptorDeadline_within ..) rfl
  | openSession => exact .of (execOpenSession_within ..) rfl
  | abort => exact .of (execAbort_within ..) rfl
  | close => exact .of (execClose_within ..) rfl
  | exclude => exact .of (execExclude_within ..) rfl
  | rearm => exact .of (execRearm_within ..) rfl
  | sessionPrepared => exact .of (execSessionPrepared_within ..) rfl
  | contribution => exact .of (execContribution_within ..) rfl
  | mapEntryWrite => exact .of (execMapEntryWrite_within ..) rfl
  | stragglerExpiry => exact .of (execStragglerExpiry_within ..) rfl
  | writeIntent => exact .of (execWriteIntent_within ..) rfl
  | parityDelta => exact .of (execParityDelta_within ..) rfl
  | settleNotice => exact .of (execSettleNotice_within ..) rfl
  | degradeDrainEnd => exact .of (execDegradeDrainEnd_within ..) rfl
  | degradeComplete => exact .of (execDegradeComplete_within ..) rfl
  | degradedRead => exact .of (execDegradedRead_within ..) rfl
  | spanFlitReceive => exact .of (execSpanFlitReceive_within ..) rfl
  | spanIdleRetrain => exact .of (execSpanIdleRetrain_within ..) rfl
  | spanDown => exact .of (execSpanDown_within ..) rfl
  | sp0Trained => exact .of (execSp0Trained_within ..) rfl
  | spanTrainTimeout => exact .of (execSpanTrainTimeout_within ..) rfl
  | heartbeatSend => exact .of (execHeartbeatSend_within ..) rfl
  | heartbeatReceive => exact .of (execHeartbeatReceive_within ..) rfl
  | peerLost => exact .of (execPeerLost_within ..) rfl
  | fenceFlit => exact .of (execFenceFlit_within ..) rfl
  | leaseGrant => exact .of (execLeaseGrant_within ..) rfl
  | leaseRenew => exact .of (execLeaseRenew_within ..) rfl
  | leaseExpiry => exact .of (execLeaseExpiry_within ..) rfl
  | pairEpochWrite => exact .of (execPairEpochWrite_within ..) rfl
  | form => exact .of (execForm_within ..) rfl
  | rejoin => exact .of (execRejoin_within ..) rfl
  | relinquish => exact .of (execRelinquish_within ..) rfl
  | pairSessionUp => exact .of (execPairSessionUp_within ..) rfl
  | pairLinkTimeout => exact .of (execPairLinkTimeout_within ..) rfl
  | takeover => exact .of (execTakeover_within ..) rfl
  | mirrorMessage => exact .of (execMirrorMessage_within ..) rfl
  | mirrorAccepted => exact .of (execMirrorAccepted_within ..) rfl
  | mirrorDigestCompare => exact .of (execMirrorDigestCompare_within ..) rfl
  | resyncSector => exact .of (execResyncSector_within ..) rfl
  | create => exact .of (execCreate_within ..) rfl
  | grow => exact .of (execGrow_within ..) rfl
  | release => exact .of (execRelease_within ..) rfl
  | partitionDrainDone => exact .of (execPartitionDrainDone_within ..) rfl
  | partitionFillDone => exact .of (execPartitionFillDone_within ..) rfl
  | growFillDone => exact .of (execGrowFillDone_within ..) rfl
  | keyInstall => exact .of (execKeyInstall_within ..) rfl
  | scrubHwmStep => exact .of (execScrubHwmStep_within ..) rfl
  | scrubVerify => exact .of (execScrubVerify_within ..) rfl
  | scrubResume => exact .of (execScrubResume_within ..) rfl
  | provision => exact .of (execProvision_within ..) rfl
  | deploy => exact .of (execDeploy_within ..) rfl
  | returnLc => exact .of (execReturnLc_within ..) rfl
  | scrap => exact .of (execScrap_within ..) rfl
  | getVersion => exact .of (execGetVersion_within ..) rfl
  | getCapabilities => exact .of (execGetCapabilities_within ..) rfl
  | negotiateAlgorithms => exact .of (execNegotiateAlgorithms_within ..) rfl
  | getDigests => exact .of (execGetDigests_within ..) rfl
  | getCertificate => exact .of (execGetCertificate_within ..) rfl
  | challenge => exact .of (execChallenge_within ..) rfl
  | getMeasurements => exact .of (execGetMeasurements_within ..) rfl
  | keyExchange => exact .of (execKeyExchange_within ..) rfl
  | finish => exact .of (execFinish_within ..) rfl
  | heartbeat => exact .of (execHeartbeat_within ..) rfl
  | keyUpdate => exact .of (execKeyUpdate_within ..) rfl
  | endSession => exact .of (execEndSession_within ..) rfl
  | spdmUnsupportedRequest => exact .of (execSpdmUnsupportedRequest_within ..) rfl
  | spdmSessionTimeout => exact .of (execSpdmSessionTimeout_within ..) rfl
  | query => exact .of (execQuery_within ..) rfl
  | keyProg => exact .of (execKeyProg_within ..) rfl
  | kSetGo => exact .of (execKSetGo_within ..) rfl
  | kSetStop => exact .of (execKSetStop_within ..) rfl
  | getTdispVersion => exact .of (execGetTdispVersion_within ..) rfl
  | getTdispCapabilities => exact .of (execGetTdispCapabilities_within ..) rfl
  | lockInterfaceRequest => exact .of (execLockInterfaceRequest_within ..) rfl
  | getDeviceInterfaceReport => exact .of (execGetDeviceInterfaceReport_within ..) rfl
  | getDeviceInterfaceState => exact .of (execGetDeviceInterfaceState_within ..) rfl
  | startInterfaceRequest => exact .of (execStartInterfaceRequest_within ..) rfl
  | stopInterfaceRequest => exact .of (execStopInterfaceRequest_within ..) rfl
  | wkKeyWrite => exact .of (execWkKeyWrite_within ..) rfl
  | destroy => exact .of (execDestroy_within ..) rfl
  | secConsentDebugWrite => exact .of (execSecConsentDebugWrite_within ..) rfl
  | tamperAlarm => exact .of (execTamperAlarm_within ..) rfl
  | tamperAck => exact .of (execTamperAck_within ..) rfl
  | sensorReading => exact .of (execSensorReading_within ..) rfl
  | levelDwellExpiry => exact .of (execLevelDwellExpiry_within ..) rfl
  | throtReqChange => exact .of (execThrotReqChange_within ..) rfl
  | coldHoldWait => exact .of (execColdHoldWait_within ..) rfl
  | powerEstimate => exact .of (execPowerEstimate_within ..) rfl
  | centeringWindow => exact .of (execCenteringWindow_within ..) rfl
  | calIntervalExpiry => exact .of (execCalIntervalExpiry_within ..) rfl
  | calibrationRun => exact .of (execCalibrationRun_within ..) rfl
  | read => exact .of (execRead_within ..) rfl
  | write => exact .of (execWrite_within ..) rfl
  | multiWrite => exact .of (execMultiWrite_within ..) rfl
  | peek => exact .of (execPeek_within ..) rfl
  | subscribe => exact .of (execSubscribe_within ..) rfl
  | unsubscribe => exact .of (execUnsubscribe_within ..) rfl
  | notify => exact .of (execNotify_within ..) rfl
  | refusalResponseDue => exact .of (execRefusalResponseDue_within ..) rfl
  | registerWrite => exact .of (execRegisterWrite_within ..) rfl
  | loadDone => exact .of (execLoadDone_within ..) rfl
  | queueWrite => exact .of (execQueueWrite_within ..) rfl
  | queueRead => exact .of (execQueueRead_within ..) rfl
  | statusRead => exact .of (execStatusRead_within ..) rfl
  | lockRead => exact .of (execLockRead_within ..) rfl
  | lockWrite => exact .of (execLockWrite_within ..) rfl
  | mailboxTimeout => exact .of (execMailboxTimeout_within ..) rfl
  | lockStall => exact .of (execLockStall_within ..) rfl
  | mbBindingLockWrite => exact .of (execMbBindingLockWrite_within ..) rfl
  | routeBucketRefill => exact .of (execRouteBucketRefill_within ..) rfl
  | routeAck => exact .of (execRouteAck_within ..) rfl
  | wmRearm => exact .of (execWmRearm_within ..) rfl
  | wmClear => exact .of (execWmClear_within ..) rfl
  | fixClear => exact .of (execFixClear_within ..) rfl
  | selSourceWrite => exact .of (execSelSourceWrite_within ..) rfl
  | selClear => exact .of (execSelClear_within ..) rfl
  | freeze => exact .of (execFreeze_within ..) rfl
  | unfreeze => exact .of (execUnfreeze_within ..) rfl
  | snapshot => exact .of (execSnapshot_within ..) rfl
  | counterCommandInstant => exact .of (execCounterCommandInstant_within ..) rfl
  | smpSeedWrite => exact .of (execSmpSeedWrite_within ..) rfl
  | coarseValueRefresh => exact .of (execCoarseValueRefresh_within ..) rfl
  | pwrokRise => exact .of (execPwrokRise_within ..) rfl
  | pwrokFall => exact .of (execPwrokFall_within ..) rfl
  | hubRstAssert => exact .of (execHubRstAssert_within ..) rfl
  | hubRstRelease => exact .of (execHubRstRelease_within ..) rfl
  | sliceRstAssert => exact .of (execSliceRstAssert_within ..) rfl
  | sliceRstRelease => exact .of (execSliceRstRelease_within ..) rfl
  | bootReadAnswer => exact .of (execBootReadAnswer_within ..) rfl
  | fetchTimeout => exact .of (execFetchTimeout_within ..) rfl
  | stewardRelease => exact .of (execStewardRelease_within ..) rfl
  | portRelease => exact .of (execPortRelease_within ..) rfl
  | portReset => exact .of (execPortReset_within ..) rfl
  | portIdleUp => exact .of (execPortIdleUp_within ..) rfl
  | extest => exact .of (execExtest_within ..) rfl
  | samplePreload => exact .of (execSamplePreload_within ..) rfl
  | idcode => exact .of (execIdcode_within ..) rfl
  | dbgUnlock => exact .of (execDbgUnlock_within ..) rfl
  | dictPeek => exact .of (execDictPeek_within ..) rfl
  | wirSelect => exact .of (execWirSelect_within ..) rfl
  | stewardHalt => exact .of (execStewardHalt_within ..) rfl
  | stewardResume => exact .of (execStewardResume_within ..) rfl
  | bypass => exact .of (execBypass_within ..) rfl
  | tapReset => exact .of (execTapReset_within ..) rfl
  | khAck => exact .of (execKhAck_within ..) rfl
  | keyHandoffTimeout => exact .of (execKeyHandoffTimeout_within ..) rfl
  | qanatTrainingDone => exact .of (execQanatTrainingDone_within ..) rfl
  | stackDescriptorRead => exact .of (execStackDescriptorRead_within ..) rfl
  | spanRetrainDone => exact .of (execSpanRetrainDone_within ..) rfl
  | powerTempCoarseRefresh => exact .of (execPowerTempCoarseRefresh_within ..) rfl

/-- A command that may not write the staging leaves it as it was. -/
theorem exec_staging {c : Instr} {s t : State} (h : exec c s = .next t) (hc : (Instr.rare c).staging = false) :
    t.hw.car.staging = s.hw.car.staging := by
  obtain ⟨m, k, hk, hw, hm⟩ := exec_runsWithin c s
  obtain rfl : { s with hw := k } = t := Host.Outcome.next.inj (hk.symm.trans h)
  exact hw.same .staging ((congrArg RareWrites.staging hm).trans hc)

/-- Settles O12: the rows that may write the staging, by `Instr.rare`, are those listed. -/
theorem stagingWriters : Obligations.StagingWriters := by
  intro c s t h
  by_cases hc : (Instr.rare c).staging = false
  · exact .inl (exec_staging h hc)
  cases c with
  | pwrokFall | hubRstAssert | hubRstRelease | sliceRstAssert | scrubVerify | move | gather | scatter | convert | accum | fill | digest
  | delta | packz | tile | axpby | moment | ingest => simp
  | _ => exact absurd rfl hc

end Sys2Proof.Machine
end

section
/-! Accepted commands of the program store and of the engines (R312, R325): they are carried out. -/

namespace Sys2Proof.Machine

/-- The command objects of programs and engines: nothing blocks them, and their codes are stored as written. -/
def caravanCommands : List Reg := [Od.progCommand, Od.engCommand]

theorem Hw.blocks_caravanCommand (h : Hw) (a : Actor) {r : Reg} (hr : r ∈ caravanCommands) (i v : Nat) :
    h.blocks a r i v none = none := by
  simp only [caravanCommands, List.mem_cons, List.not_mem_nil, or_false] at hr
  unfold Hw.blocks
  rcases hr with rfl | rfl <;> iterate 16 rw [if_neg (by decide)]

theorem Hw.ownCheck_caravanCommand (h : Hw) {r : Reg} (hr : r ∈ caravanCommands) (i v : Nat) : h.ownCheck r i v = v := by
  simp only [caravanCommands, List.mem_cons, List.not_mem_nil, or_false] at hr
  unfold Hw.ownCheck
  rcases hr with rfl | rfl <;>
    rw [if_neg (fun c => absurd c.1 (by decide)), if_neg (by decide), if_neg (fun c => absurd c.1 (by decide)),
      if_neg (fun c => absurd c.1 (by decide)), if_neg (by decide)]

/-- A command of programs or engines that is accepted is carried out, and then at most passed on. -/
theorem Hw.dictWrite_caravanCommand (h : Hw) (a : Actor) {r : Reg} (hr : r ∈ caravanCommands) (i v : Nat) (codes : List Nat)
    (hacc : h.accepts a r i v) (hd : (fieldOf r).map (fun f => (f.ty, f.cmd)) = some (.enum8 codes, true)) (hv : v ∈ codes)
    (hlt : v < 256) : (h.command a r i v).Within passedOnMask (h.dictWrite a r i v) := by
  obtain ⟨hmay, hfield, hremote, hcore⟩ := hacc
  obtain ⟨f, hf⟩ := Option.isSome_iff_exists.1 hfield
  rw [Hw.fieldAt_of hf] at hd
  obtain ⟨hty, hcmd⟩ : f.ty = .enum8 codes ∧ f.cmd = true := Prod.mk.inj (Option.some.inj hd)
  have hmod : v % 2 ^ f.ty.width = v := by
    rw [hty]
    exact Nat.mod_eq_of_lt hlt
  have hmask : silentMask r v = v := by
    simp only [caravanCommands, List.mem_cons, List.not_mem_nil, or_false] at hr
    unfold silentMask
    rcases hr with rfl | rfl <;> rw [if_neg (by decide), if_neg (by decide), if_neg (by decide)]
  have hkeys : r ≠ Od.opKeys := by
    rintro rfl
    exact absurd hr (by decide)
  rw [Hw.dictWrite, if_pos hmay, Hw.writeItem, if_neg hkeys, ← Hw.runCommand_runs h a r i v hcore]
  exact Hw.writeOne_runs hf hcmd hremote hmod (Hw.blocks_caravanCommand h a hr i v)
    (Hw.check_code h hty i v hv hmod hmask (Hw.ownCheck_caravanCommand h hr i v))

/-- A step word that is written and accepted goes to the program store, and then at most on. -/
theorem Hw.dictWrite_progStep (h : Hw) (a : Actor) (i : Nat) (w : BitVec 128) (hacc : h.accepts a Od.progStep i w.toNat) :
    (h.progStepWrite a i w).Within passedOnMask (h.dictWrite a Od.progStep i w.toNat) := by
  obtain ⟨hmay, hfield, hremote, -⟩ := hacc
  obtain ⟨f, hf⟩ := Option.isSome_iff_exists.1 hfield
  obtain ⟨hty, hcmd⟩ : f.ty = .octets 16 ∧ f.cmd = false := by
    have hd : ((fieldOf Od.progStep).map (fun f => (f.ty, f.cmd))) = some (.octets 16, false) := by decide
    rw [Hw.fieldAt_of hf] at hd
    exact Prod.mk.inj (Option.some.inj hd)
  have hmod : w.toNat % 2 ^ f.ty.width = w.toNat := by
    rw [hty]
    exact Nat.mod_eq_of_lt w.isLt
  have hmask : silentMask Od.progStep w.toNat = w.toNat := by
    unfold silentMask
    rw [if_neg (by decide), if_neg (by decide), if_neg (by decide)]
  have hown : h.ownCheck Od.progStep i w.toNat = w.toNat := by
    unfold Hw.ownCheck
    rw [if_neg (fun c => absurd c.1 (by decide)), if_neg (by decide), if_neg (fun c => absurd c.1 (by decide)),
      if_neg (fun c => absurd c.1 (by decide)), if_neg (by decide)]
  have hcheck : h.check f Od.progStep i w.toNat = some (w.toNat, false) := by
    unfold Hw.check
    dsimp only
    rw [hmod, hmask, hty]
    dsimp only
    rw [hown, decide_eq_false (not_not_intro rfl)]
  have hblocks : h.blocks a Od.progStep i w.toNat none = none := by
    unfold Hw.blocks
    dsimp only
    iterate 16 rw [if_neg (by decide)]
  have hstore : h.store a Od.progStep i 0 w.toNat = h.progStepWrite a i w := by
    rw [Hw.store_progStep, BitVec.ofNat_toNat, BitVec.setWidth_eq]
  rw [Hw.dictWrite, if_pos hmay, Hw.writeItem, if_neg (by decide), ← hstore]
  exact Hw.writeOne_stores hf hcmd hremote hmod hblocks hcheck (by decide)

end Sys2Proof.Machine
end

section
/-! The program store (R163 to R167): what its commands leave of the record, of its steps and of its copies. -/

namespace Sys2Proof.Machine

/-! ### What passing a command on leaves of the program store -/

section

variable {a b : Hw} (w : a.Within passedOnMask b)
include w

theorem Hw.Within.passed_car : b.car = { a.car with staging := b.car.staging } := w.same .engines (by decide)

theorem Hw.Within.passed_progSteps : b.car.progSteps = a.car.progSteps := by rw [w.passed_car]

theorem Hw.Within.passed_progCopies : b.car.progCopies = a.car.progCopies := by rw [w.passed_car]

end

/-! ### The steps and the copies of a program -/

theorem Hw.dropSteps_look (h : Hw) (n i : Nat) (hi : i < 512) : Table.look (h.dropSteps n).car.progSteps (n * 512 + i) = none := by
  have hn : (n * 512 + i) / 512 = n := by omega
  exact (Table.look_drop _ (fun k => decide (k / 512 = n)) _).trans (if_pos (decide_eq_true hn))

/-- The copy of program `n` at slice `x`. -/
def Hw.copyAt (h : Hw) (x n : Nat) : Option ProgCopy := Table.look h.car.progCopies (x * 128 + n)

theorem Hw.copyAt_putCopy_same (h : Hw) (x n : Nat) (c : ProgCopy) : (h.putCopy x n c).copyAt x n = some c :=
  Table.look_put_same _ _ _

theorem Hw.copyAt_putCopy_ne (h : Hw) (x y n : Nat) (c : ProgCopy) (hxy : y ≠ x) : (h.putCopy x n c).copyAt y n = h.copyAt y n :=
  Table.look_put_ne _ _ _ _ (by omega)

/-- A copy of the words `ws`, bound as the record of program `n` says. -/
def Hw.newCopy (h : Hw) (n : Nat) (ws : List (BitVec 128)) : ProgCopy := { steps := ws, bind := h.reg Od.progBind n }

/-- A copy put to every slice of a list is found at each of them. -/
theorem Hw.putCopies_copyAt (n : Nat) (ws : List (BitVec 128)) (l : List Nat) (h : Hw) (x : Nat)
    (hx : x ∈ l ∨ h.copyAt x n = some (h.newCopy n ws)) :
    (l.foldl (fun h s => h.putCopy s n (h.newCopy n ws)) h).copyAt x n = some (h.newCopy n ws) := by
  induction l generalizing h with
  | nil => exact hx.resolve_left List.not_mem_nil
  | cons y l ih =>
    refine ih (h.putCopy y n (h.newCopy n ws)) ?_
    by_cases hxy : x = y
    · subst hxy
      exact .inr (Hw.copyAt_putCopy_same ..)
    · rw [Hw.copyAt_putCopy_ne _ _ _ _ _ hxy]
      exact hx.imp_left (fun hm => (List.mem_cons.1 hm).resolve_left hxy)

theorem Hw.putCopies_reg (n : Nat) (ws : List (BitVec 128)) (l : List Nat) (h : Hw) (r : Reg) (i : Nat) :
    (l.foldl (fun h s => h.putCopy s n (h.newCopy n ws)) h).reg r i = h.reg r i := by
  induction l generalizing h with
  | nil => rfl
  | cons y l ih => exact ih _

theorem Hw.mem_slices (h : Hw) (x : Nat) (hx : x < 16) (he : h.exists x = true) : x ∈ h.slices :=
  List.mem_filter.2 ⟨List.mem_range.2 hx, he⟩

/-! ### BEGIN (R165) -/

section

variable (h : Hw) (a : Actor) (n : Nat)

theorem Hw.progBegin_begins (hst : h.reg Od.progState n = 0) (hok : h.beginOk a n = true) :
    (h.progBegin a n).reg Od.progState n = 1 ∧ (h.progBegin a n).reg Od.progIndex n = 0 ∧
      ∀ i, i < 512 → Table.look (h.progBegin a n).car.progSteps (n * 512 + i) = none := by
  unfold Hw.progBegin
  rw [if_neg (not_not.2 hst), hok]
  rw [if_neg (by decide)]
  refine ⟨Hw.reg_setReg_same .., ?_, fun i hi => Hw.dropSteps_look h n i hi⟩
  rw [Hw.reg_setReg_ne _ _ _ _ _ _ (by decide) (by decide) (by decide), Hw.reg_setReg_same]
  rfl

/-! ### A step word (R164) -/

theorem Hw.progStepWrite_writes (w : BitVec 128) (hst : h.reg Od.progState n = 1) : let i := min 511 (h.reg Od.progIndex n)
    Table.look (h.progStepWrite a n w).car.progSteps (n * 512 + i) = some w ∧
      (h.progStepWrite a n w).reg Od.progIndex n = min 511 (i + 1) := by
  intro i
  unfold Hw.progStepWrite
  rw [if_neg (not_not.2 hst)]
  refine ⟨Table.look_put_same .., (Hw.reg_setReg_same ..).trans (Nat.mod_eq_of_lt ?_)⟩
  have hw : Od.progIndex.width = 16 := by decide
  rw [hw]
  omega

/-! ### COMMIT (R165, R166) -/

/-- The words that COMMIT finds, where none of them is unwritten. -/
def Hw.holdsWords (ws : List (BitVec 128)) : Prop :=
  (List.range (h.reg Od.progSteps n)).map (fun i => Table.look h.car.progSteps (n * 512 + i)) = ws.map some

theorem Hw.progCommit_eq (ws : List (BitVec 128)) (hst : h.reg Od.progState n = 1) (hws : h.holdsWords n ws) :
    h.progCommit a n =
      if loadCheck ws ≠ 0 then (h.setReg Od.progReject n (loadCheck ws)).setReg Od.progState n 3
      else
        let k := h.setReg Od.progDigest n (sha384Nat (ws.flatMap stepBytes))
        (k.slices.foldl (fun h s => h.putCopy s n (h.newCopy n ws)) k).setReg Od.progState n 2 := by
  have hall : (ws.map some).all (fun w => w.isSome) = true := by simp
  have hget : (ws.map some).map (fun (w : Option (BitVec 128)) => w.getD 0) = ws := by
    simp only [List.map_map, Function.comp_def, Option.getD_some, List.map_id']
  unfold Hw.progCommit
  rw [if_neg (not_not.2 hst)]
  unfold Hw.holdsWords at hws
  simp only [hws, hall, hget, if_true]
  rfl

theorem loadCheck_le (ws : List (BitVec 128)) : loadCheck ws ≤ 6 := by
  unfold loadCheck
  split
  · omega
  split
  · omega
  split
  · omega
  split
  · omega
  split
  · omega
  split
  · split <;> omega
  · omega

theorem Hw.progCommit_valid (ws : List (BitVec 128)) (hst : h.reg Od.progState n = 1) (hws : h.holdsWords n ws)
    (hl : loadCheck ws = 0) : (h.progCommit a n).reg Od.progState n = 2 ∧
      (h.progCommit a n).reg Od.progDigest n = sha384Nat (ws.flatMap stepBytes) % 2 ^ Od.progDigest.width ∧
      ∀ x, x < 16 → h.exists x = true → (h.progCommit a n).copyAt x n = some (h.newCopy n ws) := by
  rw [Hw.progCommit_eq h a n ws hst hws, if_neg (not_not.2 hl)]
  set k := h.setReg Od.progDigest n (sha384Nat (ws.flatMap stepBytes)) with hk
  have w : h.Within Od.progDigest.mask k := Hw.setReg_within ..
  have hnew : k.newCopy n ws = h.newCopy n ws := by
    unfold Hw.newCopy
    rw [w.reg _ _ (by decide)]
  refine ⟨Hw.reg_setReg_same .., ?_, fun x hx he => ?_⟩
  · refine (Hw.reg_setReg_ne _ _ _ _ _ _ (by decide) (by decide) (by decide)).trans ?_
    exact (Hw.putCopies_reg ..).trans (Hw.reg_setReg_same ..)
  · refine Eq.trans ?_ (congrArg some hnew)
    exact Hw.putCopies_copyAt n ws _ k x (.inl (Hw.mem_slices k x hx ((w.exists (by decide) x).trans he)))

theorem Hw.progCommit_rejected (ws : List (BitVec 128)) (hst : h.reg Od.progState n = 1) (hws : h.holdsWords n ws)
    (hl : loadCheck ws ≠ 0) : (h.progCommit a n).reg Od.progState n = 3 ∧ (h.progCommit a n).reg Od.progReject n = loadCheck ws := by
  rw [Hw.progCommit_eq h a n ws hst hws, if_pos hl]
  refine ⟨Hw.reg_setReg_same .., ?_⟩
  rw [Hw.reg_setReg_ne _ _ _ _ _ _ (by decide) (by decide) (by decide), Hw.reg_setReg_same]
  have hle := loadCheck_le ws
  exact Nat.mod_eq_of_lt (lt_of_le_of_lt hle (by decide))

/-! ### DELETE (R165) -/

theorem Hw.zeroRegs_car (rs : List Reg) (h : Hw) (i : Nat) : (h.zeroRegs rs i).car = h.car := by
  induction rs generalizing h with
  | nil => rfl
  | cons r rs ih => exact (ih _).trans (Hw.setReg_car ..)

theorem Hw.progDelete_empties (hn : n < 128) (hst : h.reg Od.progState n ≠ 0) (hl : h.progLaunched n = false) :
    let k := h.progDelete a n
    k.reg Od.progState n = 0 ∧ k.reg Od.progBind n = 0 ∧ (∀ x, k.copyAt x n = none) ∧
      ∀ i, i < 512 → Table.look k.car.progSteps (n * 512 + i) = none := by
  unfold Hw.progDelete
  rw [if_neg (by simp [hst, hl])]
  unfold Hw.progEmpty
  refine ⟨Hw.reg_setReg_same .., ?_, fun x => ?_, fun i hi => ?_⟩
  · refine (Hw.reg_setReg_ne _ _ _ _ _ _ (by decide) (by decide) (by decide)).trans ?_
    simp (disch := decide) only [Hw.zeroRegs, List.foldl_cons, List.foldl_nil, Hw.reg_setReg_ne, Hw.reg_setReg_same]
    rfl
  · have hmod : (x * 128 + n) % 128 = n := by omega
    unfold Hw.copyAt
    rw [Hw.setReg_car, Hw.zeroRegs_car]
    exact (Table.look_drop _ (fun k => decide (k % 128 = n)) _).trans (if_pos (decide_eq_true hmod))
  · rw [Hw.setReg_car, Hw.zeroRegs_car]
    exact Hw.dropSteps_look h n i hi

end

/-! ### The repair of a copy (R167) -/

theorem programCopyRepair_repairs (stack : StackIx) (prog : Fin 128) (s : State) (c : ProgCopy)
    (hbad : ∀ d, s.hw.copyAt stack prog = some d → d.valid = false) (hex : s.hw.exists stack = true)
    (hst : s.hw.reg Od.progState prog = 2) (hgood : s.hw.goodCopy prog = some c) :
    Completes (.programCopyRepair stack prog) s (s.hw.putCopy stack prog c) := by
  have hrow : exec (.programCopyRepair stack prog) s = execProgramCopyRepair stack prog s := rfl
  unfold Hw.copyAt at hbad
  rw [Completes, hrow, execProgramCopyRepair, State.on]
  dsimp only
  cases hd : Table.look s.hw.car.progCopies (stack.val * 128 + prog.val) with
  | none => simp only [hex, hst, hgood, decide_true, Bool.and_self, if_true]
  | some d => simp only [hbad d hd, hex, hst, hgood, decide_true, Bool.not_false, Bool.and_self, if_true]

/-! ### The rows -/

/-- Settles O33, one row after another: what its command does, read through what passes it on. -/
theorem programStore : Obligations.ProgramStore := by
  intro who prog s n st
  have runs (v : Nat) (hv : v ∈ [1, 2, 3]) (hacc : s.hw.accepts who Od.progCommand n v) :
      (s.hw.command who Od.progCommand n v).Within passedOnMask (s.hw.dictWrite who Od.progCommand n v) := by
    refine Hw.dictWrite_caravanCommand s.hw who (by decide) n v [1, 2, 3] hacc (by decide) hv ?_
    simp only [List.mem_cons, List.not_mem_nil, or_false] at hv
    omega
  refine ⟨?_, ?_, ?_, ?_, ?_⟩
  · intro hacc hst hok
    have w := runs 1 (by decide) hacc
    rw [Hw.command_progCommand_1] at w
    obtain ⟨hstate, hindex, hsteps⟩ := Hw.progBegin_begins s.hw who n hst hok
    refine ⟨_, rfl, (w.reg _ _ (by decide)).trans hstate, (w.reg _ _ (by decide)).trans hindex, ?_⟩
    rw [w.passed_progSteps]
    exact hsteps
  · intro word i hacc hst
    have w := Hw.dictWrite_progStep s.hw who n word hacc
    obtain ⟨hword, hindex⟩ := Hw.progStepWrite_writes s.hw who n word hst
    refine ⟨_, rfl, ?_, (w.reg _ _ (by decide)).trans hindex⟩
    rw [w.passed_progSteps]
    exact hword
  · intro ws hacc hst hws
    have w := runs 2 (by decide) hacc
    rw [Hw.command_progCommand_2] at w
    refine ⟨fun hl => ⟨_, rfl, ?_⟩, fun hl => ⟨_, rfl, ?_⟩⟩
    · obtain ⟨hstate, hdigest, hcopies⟩ := Hw.progCommit_valid s.hw who n ws hst hws hl
      refine ⟨(w.reg _ _ (by decide)).trans hstate, (w.reg _ _ (by decide)).trans hdigest,
        fun x hx he => ⟨s.hw.newCopy n ws, ?_, rfl, rfl⟩⟩
      rw [w.passed_progCopies]
      exact hcopies x hx he
    · obtain ⟨hstate, hwhy⟩ := Hw.progCommit_rejected s.hw who n ws hst hws hl
      exact ⟨(w.reg _ _ (by decide)).trans hstate, (w.reg _ _ (by decide)).trans hwhy⟩
  · intro hacc hst hl
    have w := runs 3 (by decide) hacc
    rw [Hw.command_progCommand_3] at w
    obtain ⟨hstate, hbind, hcopies, hsteps⟩ := Hw.progDelete_empties s.hw who n prog.isLt hst hl
    refine ⟨_, rfl, (w.reg _ _ (by decide)).trans hstate, (w.reg _ _ (by decide)).trans hbind, ?_, ?_⟩
    · rw [w.passed_progCopies]
      exact hcopies
    · rw [w.passed_progSteps]
      exact hsteps
  · intro stack c hbad hex hst hgood
    exact ⟨_, programCopyRepair_repairs stack prog s c hbad hex hst hgood, Table.look_put_same ..⟩

end Sys2Proof.Machine
end

section
/-! The engines: what leaves them alone, how a launch faults, and how a step of a running launch ends (R171, R175, R184). -/

namespace Sys2Proof.Machine

/-! ### What leaves the engines and their staging alone -/

theorem Hw.Within.eng {m : Nat} {a b : Hw} (w : a.Within m b) (hm : m.testBit Part.engines.no = false) (i : Nat) : b.eng i = a.eng i := by
  have h : b.car = { a.car with staging := b.car.staging } := w.same .engines hm
  rw [Hw.eng, h, Hw.eng]

theorem Hw.Within.car_staging {m : Nat} {a b : Hw} (w : a.Within m b) (hm : m.testBit Part.staging.no = false) :
    b.car.staging = a.car.staging := w.same .staging hm

@[simp] theorem Hw.eng_setReg (h : Hw) (r : Reg) (i v e : Nat) : (h.setReg r i v).eng e = h.eng e := rfl

@[simp] theorem Hw.eng_dropEngWait (h : Hw) (i e : Nat) : (h.dropEngWait i).eng e = h.eng e := rfl

@[simp] theorem Hw.eng_countSel (h : Hw) (code inst n e : Nat) : (h.countSel code inst n).eng e = h.eng e :=
  (Hw.countSel_within h code inst n).eng (by decide) e

@[simp] theorem Hw.eng_launchNotice (h : Hw) (l : Launch) (kind status fault step code value e : Nat) :
    (h.launchNotice l kind status fault step code value).eng e = h.eng e :=
  (Hw.launchNotice_within h l kind status fault step code value).eng (by decide) e

@[simp] theorem Hw.eng_countFmt (h : Hw) (p : Option Nat) (c : FmtCount) (e : Nat) : (h.countFmt p c).eng e = h.eng e :=
  (Hw.countFmt_within h p c).eng (by decide) e

@[simp] theorem Hw.eng_faultLaunch (h : Hw) (e : Nat) (l : Launch) (fault step i : Nat) :
    (h.faultLaunch e l fault step).eng i = h.eng i := (Hw.faultLaunch_within h e l fault step).eng (by decide) i

@[simp] theorem Hw.eng_putStaging (h : Hw) (base : Nat) (data : List Byte) (e : Nat) : (h.putStaging base data).eng e = h.eng e := rfl

@[simp] theorem Hw.eng_addStaged (h : Hw) (base n e : Nat) : (h.addStaged base n).eng e = h.eng e := by
  rw [Hw.addStaged, Hw.eng_putStaging]

/-- Arithmetic counters leave the staging alone. -/
@[simp] theorem Hw.staging_countFmt (h : Hw) (p : Option Nat) (c : FmtCount) : (h.countFmt p c).car.staging = h.car.staging :=
  (Hw.countFmt_within h p c).car_staging (by decide)

/-- The mask of what the routes and the requesters that an event is sent to change. -/
def routedMask : Nat :=
  1231327959164115505299701284753367062099419794138613112452543766273993764717951076561578334508643114771776834375684

/-- Each event takes one place of the event ring. -/
theorem Hw.raise_evHead (h : Hw) (x : Event) :
    (h.raise x).reg Od.evHead = (h.reg Od.evHead + 1) % 2 ^ Od.evHead.width := by
  unfold Hw.raise
  extract_lets routed sent
  have hrouted : h.Within routedMask routed := by
    refine Hw.Within.fold (fun y k hy => ?_) (Hw.Within.refl _ _)
    split
    · exact hy.trans (Hw.routeTake_within ..)
    · exact hy
  have hsent : h.Within routedMask sent :=
    Hw.Within.fold (fun y r hy => Hw.Within.step (Hw.sendEvt_within y r x) (by decide) hy) hrouted
  have hnumbered : h.Within routedMask (sent.nextSeq 4096).2 := Hw.Within.step (Hw.nextSeq_within ..) (by decide) hsent
  rw [← hnumbered.reg Od.evHead 0 (by decide)]
  dsimp only [Hw.ringAdvance]
  exact Hw.reg_setReg_same ..

/-- The mask of what counting a selectable event changes. -/
def selMask : Nat :=
  1231312693637327475383720003129487931408741852202045208373384168882678805359287831606695820465153613775207124697092

/-- Counting selectable events leaves every other register. -/
theorem Hw.reg_countSel (h : Hw) (code inst n : Nat) (r : Reg) (i e : Nat) (hr : selMask.testBit (24 + r.no) = false) :
    (h.countSel code inst n).elem r i e = h.elem r i e := (Hw.countSel_within h code inst n).elem r i e hr

/-! ### A launch that faults -/

/-- The mask of what a fault's notice, its descriptors and the standby's record change. -/
def noticeMask : Nat :=
  11349009281615840088357655658172695697648608593874573832865766302217919348697815411744789331169796174498081849016334404

/-- What the end of a launch does beside its engine keeps within `noticeMask`. -/
theorem Hw.endLaunch_within (h : Hw) (l : Launch) (kind status fault step code value : Nat) :
    h.Within noticeMask (((l.descs.foldl (fun h d => h.abortHeld d) h).launchNotice l kind status fault step code value).mirrorLaunchEnd l) := by
  have hheld : h.Within noticeMask (l.descs.foldl (fun h d => h.abortHeld d) h) :=
    Hw.Within.fold (fun x d hx => Hw.Within.step (Hw.abortHeld_within x d) (by decide) hx) (Hw.Within.refl _ _)
  exact Hw.Within.step (Hw.mirrorLaunchEnd_within ..) (by decide)
    (Hw.Within.step (Hw.launchNotice_within ..) (by decide) hheld)

theorem Hw.faultLaunch_lastFault (h : Hw) (e : Nat) (l : Launch) (fault step : Nat) :
    (h.faultLaunch e l fault step).reg Od.engLastFault e = fault % 2 ^ Od.engLastFault.width := by
  unfold Hw.faultLaunch
  rw [(Hw.endLaunch_within ..).reg _ _ (by decide), Hw.reg_setReg_ne _ _ _ _ _ _ (by decide) (by decide) (by decide),
    Hw.reg_setReg_same]

/-- An engine that goes idle keeps its queue and holds nothing else. -/
theorem Hw.eng_idleEngine (h : Hw) (e : Nat) : (h.idleEngine e).eng e = { queue := (h.eng e).queue } := by
  unfold Hw.idleEngine
  simp [Hw.eng_setEng_same]

theorem Hw.idleEngine_engState (h : Hw) (e : Nat) : (h.idleEngine e).reg Od.engState e = 0 := by
  unfold Hw.idleEngine
  simp only [Hw.reg_setReg_same, Hw.reg_setReg_ne _ _ Od.engState _ _ _ (by decide : Od.engStep ≠ Od.engState) (by decide) (by decide),
    Hw.reg_setReg_ne _ _ Od.engState _ _ _ (by decide : Od.engLauncher ≠ Od.engState) (by decide) (by decide),
    Hw.reg_setReg_ne _ _ Od.engState _ _ _ (by decide : Od.engProgram ≠ Od.engState) (by decide) (by decide), Nat.zero_mod]

/-- A running launch that faults leaves its engine idle, its fault recorded, and the queue as it was. -/
theorem Hw.faultRunning_faulted (h : Hw) (e : Nat) {fault : Nat} {l : Launch} (hrun : (h.eng e).run = some l)
    (hf : fault < 2 ^ Od.engLastFault.width) :
    (h.faultRunning e fault).faulted e fault ∧ ((h.faultRunning e fault).eng e).queue = (h.eng e).queue := by
  unfold Hw.faultRunning
  rw [hrun]
  refine ⟨⟨?_, Hw.idleEngine_engState .., ?_⟩, ?_⟩
  · rw [Hw.eng_idleEngine]
  · rw [(Hw.idleEngine_within ..).reg _ _ (by decide), Hw.faultLaunch_lastFault, Nat.mod_eq_of_lt hf]
  · rw [Hw.eng_idleEngine, Hw.eng_faultLaunch]

/-! ### How a step ends -/

/-- The running step as its function finds it. -/
def Hw.startRun (h : Hw) (e : Nat) (l : Launch) : Run :=
  { h := h, e := e, l := l, bind := h.bindOf e l, regs := (h.eng e).regs, next := (h.eng e).pc + 1 }

theorem Hw.stepNow_running {h : Hw} {e op : Nat} {l : Launch} {w : BitVec 128} (hst : h.stepNow e op = some (l, w)) :
    (h.eng e).run = some l ∧ (h.eng e).wait = none := by
  unfold Hw.stepNow at hst
  dsimp only at hst
  split at hst
  · rename_i l' hrun hwait
    split at hst
    · split at hst
      · obtain ⟨rfl, -⟩ := Prod.mk.inj (Option.some.inj hst)
        exact ⟨hrun, hwait⟩
      · exact absurd hst (by simp)
    · exact absurd hst (by simp)
  · exact absurd hst (by simp)

/-- The step that an engine stands in runs. -/
theorem Hw.runStep_eq {h : Hw} {e op : Nat} {p : BitVec 128 → Bool} {f : BitVec 128 → Run → Run} {l : Launch} {w : BitVec 128}
    (hst : h.stepNow e op = some (l, w)) (hp : p w = true) : h.runStep e op p f = h.endStep (f w (h.startRun e l)) := by
  unfold Hw.runStep
  rw [hst]
  simp only [hp, if_true]
  rfl

/-- The mask of what the end of a step that goes on changes. -/
def goOnMask : Nat :=
  32768 ||| 65536 ||| Od.engStep.mask ||| selMask

theorem Run.ok_iff (r : Run) : r.ok = true ↔ r.fault = 0 ∧ r.stall = none := by
  simp [Run.ok]

/-- A step that goes on hands its registers to the next step. -/
theorem Hw.endStep_goesOn (h : Hw) {r : Run} (hr : r.ok = true) :
    (h.endStep r).eng r.e = { r.h.eng r.e with regs := r.regs, pc := r.next } ∧
      (h.endStep r).reg Od.engStep r.e = r.next % 2 ^ Od.engStep.width ∧ r.h.Within goOnMask (h.endStep r) := by
  obtain ⟨hf, hs⟩ := r.ok_iff.1 hr
  unfold Hw.endStep
  rw [hs, hf]
  refine ⟨?_, ?_, ?_⟩
  · simp [Hw.eng_setEng_same]
  · exact (Hw.reg_countSel _ _ _ _ _ _ _ (by decide)).trans (Hw.reg_setReg_same ..)
  · exact Hw.Within.step (Hw.countSel_within ..) (by decide) (Hw.Within.step (Hw.setReg_within ..) (by decide)
      (Hw.Within.step (Hw.setEng_within ..) (by decide) (Hw.Within.step (Hw.dropEngWait_within ..) (by decide) (Hw.Within.refl _ _))))

/-- A step that has stopped with fault `f` ends its launch with it. -/
theorem Hw.endStep_faults (h : Hw) {r : Run} {l : Launch} (hs : r.stall = none) (hf : r.fault ≠ 0) (hlt : r.fault < 2 ^ Od.engLastFault.width)
    (hrun : (r.h.eng r.e).run = some l) : (h.endStep r).faulted r.e r.fault := by
  unfold Hw.endStep
  rw [hs]
  simp only [ne_eq, hf, not_false_eq_true, if_true]
  exact (Hw.faultRunning_faulted _ _ hrun hlt).1

section

variable {e : EngIx} {l : Launch} {w : BitVec 128} {s : State}

/-- What a step that goes on with `r` leaves in its engine, and what its end changes. -/
structure Run.EndsAs (r : Run) (e : Nat) (k : Hw) : Prop where
  eng : k.eng e = { r.h.eng e with regs := r.regs, pc := r.next }
  step : k.reg Od.engStep e = r.next % 2 ^ Od.engStep.width
  within : r.h.Within goOnMask k

/-- A command that runs a step which goes on. -/
theorem Leads.of_run {c : Instr} {op : Nat} {p : BitVec 128 → Bool} {f : BitVec 128 → Run → Run} {r : Run} {P : Hw → Prop}
    (hc : exec c s = .next { s with hw := s.hw.runStep e op p f }) (hst : s.hw.stepNow e op = some (l, w)) (hp : p w = true)
    (hf : f w (s.hw.startRun e l) = r) (he : r.e = e) (hok : r.ok = true) (hP : ∀ k, r.EndsAs e k → P k) : Leads c s P := by
  refine ⟨_, hc, hP _ ?_⟩
  rw [Hw.runStep_eq hst hp, hf, ← he]
  obtain ⟨heng, hstep, hwithin⟩ := Hw.endStep_goesOn s.hw hok
  exact ⟨heng, hstep, hwithin⟩

/-- A step that goes on to the next one, its launch still in its engine, with registers `g`. -/
theorem Run.EndsAs.stepped {r : Run} {op : Nat} {k : Hw} (hk : r.EndsAs e k) (g : Nat → Nat) (hst : s.hw.stepNow e op = some (l, w))
    (hnext : r.next = (s.hw.eng e).pc + 1) (hrun : (r.h.eng e).run = (s.hw.eng e).run)
    (hwait : (r.h.eng e).wait = (s.hw.eng e).wait) (hregs : ∀ i, i < 16 → r.g i = g i) : s.hw.stepped k e g := by
  refine ⟨?_, ?_, ?_, ?_, fun i hi => ?_⟩
  · rw [hk.eng, hnext]
  · rw [hk.eng, hrun]
  · rw [hk.eng, hwait, (Hw.stepNow_running hst).2]
  · rw [hk.step, hnext]
  · rw [Hw.greg, hk.eng]
    exact hregs i hi

end

/-! ### Registers of a step on its way -/

theorem Run.eng_modEng (r : Run) (f : Engine → Engine) : (r.modEng f).h.eng r.e = f (r.h.eng r.e) := Hw.eng_setEng_same ..

/-- A register that has been written. -/
theorem Run.g_setG (r : Run) (i v : Nat) {k : Nat} (hk : k < 16) : (r.setG i v).g k = if k = i then v % 2 ^ 64 else r.g k := by
  simp [Run.g, Run.setG, hk]

end Sys2Proof.Machine
end

section
/-! A step that has stopped: nothing that follows in its step changes it. -/

namespace Sys2Proof.Machine

section

variable {r : Run} (hr : r.ok = false)
include hr

theorem Run.stop_stopped (f : Nat) : r.stop f = r := by
  simp [Run.stop, hr]

theorem Run.aligned_stopped (a n : Nat) : r.aligned a n = r := by
  unfold Run.aligned
  split
  · rfl
  · exact Run.stop_stopped hr _

theorem Run.valid_stopped (a n : Nat) : r.valid a n = r := by
  unfold Run.valid
  split
  · rfl
  · exact Run.stop_stopped hr _

theorem Run.read_stopped (a n : Nat) : r.read a n = ([], [], r) := by
  simp [Run.read, Run.valid_stopped hr, hr]

theorem Run.readClean_stopped (a n : Nat) : r.readClean a n = ([], r) := by
  simp [Run.readClean, Run.read_stopped hr]

theorem Run.write_stopped (a : Nat) (data : List Byte) (psn : List Bool) : r.write a data psn = r := by
  simp [Run.write, Run.valid_stopped hr, hr]

theorem Run.advance_stopped (flag : Bool) (i n : Nat) : r.advance flag i n = r := by
  simp [Run.advance, hr]

theorem Run.copy_stopped (src dst n : Nat) (pass : Bool) : r.copy src dst n pass = r :=
  List.foldl_fixed' (fun _ => by simp [hr]) _

theorem Run.stream_stopped (a n : Nat) : r.stream a n = ([], r) :=
  List.foldl_fixed' (fun _ => by simp [hr]) _

theorem Run.indices_stopped (a n : Nat) : (r.indices a n).2 = r := by
  simp [Run.indices, Run.aligned_stopped hr, Run.stop_stopped hr, Run.readClean_stopped hr]

theorem Run.guardAt_stopped (a fmt v : Nat) : r.guardAt a fmt v = (none, r) := by
  simp [Run.guardAt, Run.aligned_stopped hr, Run.stop_stopped hr, Run.readClean_stopped hr, hr]

theorem Run.guardOf_stopped (w : BitVec 128) (fi fo a b : Nat) : r.guardOf w fi fo a b = (none, r) := by
  simp [Run.guardOf, Run.guardAt_stopped hr]

theorem Run.convertPieces_stopped (fi fo n a b d : Nat) (gi go : Option GuardAt) (seed : Option (BitVec 64)) :
    r.convertPieces fi fo n a b d gi go seed = (0, {}, r) :=
  List.foldl_fixed' (fun _ => by simp [hr]) _

theorem Run.momentPieces_stopped (y : MomentJob) : r.momentPieces y = (0, {}, r) :=
  List.foldl_fixed' (fun _ => by simp [hr]) _

theorem Run.elementwise_stopped (fi a b n : Nat) (f : Nat → Nat → Nat) :
    r.elementwise fi a b n f = r.count a { poisoned := 0 } := by
  have h : ∀ l : List (Nat × Nat), l.foldl (fun (t : Nat × Run) p =>
      if !t.2.ok then t
      else
        let (xs, k, r) := t.2.readPiece fi none a p.1 p.2
        let (yb, r) := r.stream (b + 4 * p.1) (4 * p.2)
        let out := xs.zipIdx.flatMap (fun x => natBytes (f (f32of x.1) (leAt yb (4 * x.2) 4)) 4)
        let r := (units out.length).foldl (fun r u => r.write (b + 4 * p.1 + u.1) ((out.drop u.1).take u.2)) r
        (t.1 + k, r)) (0, r) = (0, r) := fun l => List.foldl_fixed' (fun _ => by simp [hr]) l
  unfold Run.elementwise
  rw [h]

end

/-! ### Steps whose operand ga is misaligned -/

/-- A step of launch `l` on engine `e` that has stopped with RANGE. -/
def Run.RangeStop (r : Run) (e : Nat) (l : Launch) : Prop :=
  r.e = e ∧ r.fault = Cf.range ∧ r.stall = none ∧ (r.h.eng e).run = some l

section

variable {r : Run} {e : Nat} {l : Launch}

theorem Run.RangeStop.ok (hs : r.RangeStop e l) : r.ok = false := by
  obtain ⟨-, hfault, -⟩ := hs
  simp [Run.ok, hfault, Cf.range]

theorem Run.RangeStop.count (hs : r.RangeStop e l) (a : Nat) (c : FmtCount) : (r.count a c).RangeStop e l := by
  obtain ⟨he, hfault, hstall, hrun⟩ := hs
  exact ⟨he, hfault, hstall, (congrArg Engine.run (Hw.eng_countFmt ..)).trans hrun⟩

theorem Run.RangeStop.guardCounts (hs : r.RangeStop e l) (g : GuardAt) (c : FmtCount) : (r.guardCounts g c).RangeStop e l := by
  simpa only [Run.RangeStop, Run.guardCounts, Hw.eng_addStaged] using hs

/-- A change of the engine that leaves its launch. -/
theorem Run.RangeStop.modEng (hs : r.RangeStop e l) (f : Engine → Engine) (hf : ∀ x, (f x).run = x.run) : (r.modEng f).RangeStop e l := by
  obtain ⟨rfl, hfault, hstall, hrun⟩ := hs
  exact ⟨rfl, hfault, hstall, by rw [Run.modEng, Hw.eng_setEng_same, hf, hrun]⟩

theorem Run.RangeStop.advance (hs : r.RangeStop e l) (flag : Bool) (i n : Nat) : (r.advance flag i n).RangeStop e l := by
  rwa [Run.advance_stopped hs.ok]

theorem Run.RangeStop.aligned (hs : r.RangeStop e l) (a n : Nat) : (r.aligned a n).RangeStop e l := by
  rwa [Run.aligned_stopped hs.ok]

end

section

variable {r : Run} {e : Nat} {l : Launch}

theorem Run.RangeStop.advances (hs : r.RangeStop e l) (serve f0 f1 f5 f6 : Bool) (a b c d n0 n1 n5 n6 : Nat) :
    (if serve = true then (((r.advance f0 a n0).advance f1 b n1).advance f5 c n5).advance f6 d n6
      else ((r.advance f0 a n0).advance f1 b n1).advance f5 c n5).RangeStop e l := by
  have h := ((hs.advance f0 a n0).advance f1 b n1).advance f5 c n5
  split
  · exact h.advance _ _ _
  · exact h

/-- A stopped step writes nothing at its end. -/
theorem Run.RangeStop.thenWrite (hs : r.RangeStop e l) (a : Nat) (d : List Byte) : (if r.ok = true then r.write a d else r).RangeStop e l := by
  rwa [hs.ok]

/-- A stopped step meets no further fault. -/
theorem Run.RangeStop.unless (hs : r.RangeStop e l) (c : Prop) [Decidable c] (f : Nat) : (if c then r else r.stop f).RangeStop e l := by
  rwa [Run.stop_stopped hs.ok, ite_self]

end

/-- Of a run that goes on or has stopped with RANGE: it still may go on. -/
def Run.OrRange (r : Run) (e : Nat) (l : Launch) : Prop := (r.e = e ∧ (r.h.eng e).run = some l ∧ r.ok = true) ∨ r.RangeStop e l

section

variable {r : Run} {e : Nat} {l : Launch}

theorem Run.OrRange.stop (hr : r.OrRange e l) : (r.stop Cf.range).RangeStop e l := by
  obtain ⟨he, hrun, hok⟩ | hs := hr
  · simp only [Run.stop, hok, if_true]
    exact ⟨he, rfl, (r.ok_iff.1 hok).2, hrun⟩
  · rwa [Run.stop_stopped hs.ok]

theorem Run.OrRange.misaligned (hr : r.OrRange e l) {a n : Nat} (ha : a % n ≠ 0) : (r.aligned a n).RangeStop e l := by
  rw [Run.aligned, if_neg ha]
  exact hr.stop

theorem Run.OrRange.aligned (hr : r.OrRange e l) (a n : Nat) : (r.aligned a n).OrRange e l := by
  by_cases ha : a % n = 0
  · rwa [Run.aligned, if_pos ha]
  · exact .inr (hr.misaligned ha)

theorem Run.OrRange.unless (hr : r.OrRange e l) (c : Prop) [Decidable c] : (if c then r else r.stop Cf.range).OrRange e l := by
  split
  · exact hr
  · exact .inr hr.stop

end

/-! ### Reads that can only meet RANGE: those of staging -/

/-- An access of staging goes on or meets RANGE. -/
theorem Run.check_staging (r : Run) {a : Nat} (ha : inStage a = true) (n : Nat) : r.check a n = 0 ∨ r.check a n = Cf.range := by
  unfold Run.check
  simp only [ha, if_true]
  split
  · exact .inr rfl
  · split
    · exact .inr rfl
    · exact .inl rfl

section

variable {r : Run} {e : Nat} {l : Launch}

theorem Run.OrRange.valid (hr : r.OrRange e l) {a : Nat} (ha : inStage a = true) (n : Nat) : (r.valid a n).OrRange e l := by
  unfold Run.valid
  obtain h | h := r.check_staging ha n
  · rwa [h]
  · rw [h]
    exact .inr hr.stop

/-- A read of staging poisons nothing. -/
theorem Run.OrRange.readClean (hr : r.OrRange e l) {a : Nat} (ha : inStage a = true) (n : Nat) : (r.readClean a n).2.OrRange e l := by
  have hv := hr.valid ha n
  unfold Run.readClean Run.read
  dsimp only
  by_cases hok : (r.valid a n).ok = true
  · simpa [hok, ha] using hv
  · simpa [hok] using hv

theorem Run.OrRange.guardAt (hr : r.OrRange e l) (a fmt v : Nat) : (r.guardAt a fmt v).2.OrRange e l := by
  unfold Run.guardAt
  dsimp only
  rw [apply_ite Prod.snd, ite_self]
  refine Run.OrRange.unless ?_ _
  by_cases ha : inStage a = true
  · rw [if_pos ha]
    exact (hr.aligned a 64).readClean ha 64
  · rw [if_neg ha, Run.readClean_stopped hr.stop.ok]
    exact .inr hr.stop

end

/-! ### The twelve steps -/

theorem Hw.startRun_orRange {h : Hw} {e op : Nat} {l : Launch} {w : BitVec 128} (hst : h.stepNow e op = some (l, w)) :
    (h.startRun e l).OrRange e l := .inl ⟨rfl, (Hw.stepNow_running hst).1, rfl⟩

section

variable {e : EngIx} {l : Launch} {w : BitVec 128} {s : State}

/-- A step that stops with RANGE for a misaligned ga ends its launch with it. -/
theorem Hw.runStep_misaligned {op : Nat} {f : BitVec 128 → Run → Run} (hst : s.hw.stepNow e op = some (l, w))
    (ha : s.hw.greg e (stepA w) % 64 ≠ 0)
    (hf : ∀ r : Run, r.OrRange e l → r.g (stepA w) % 64 ≠ 0 → (f w r).RangeStop e l) :
    (s.hw.runStep e op anyWord f).faulted e Cf.range := by
  have hr := hf (s.hw.startRun e l) (Hw.startRun_orRange hst) ha
  rw [Hw.runStep_eq hst rfl]
  generalize f w (s.hw.startRun e l) = r at hr ⊢
  obtain ⟨he, hfault, hstall, hrun⟩ := hr
  rw [← he, ← hfault]
  exact Hw.endStep_faults _ hstall (by rw [hfault]; decide) (by rw [hfault]; decide) (he ▸ hrun)

theorem move_misaligned (hst : s.hw.stepNow e 0x01 = some (l, w)) (ha : s.hw.greg e (stepA w) % 64 ≠ 0) :
    Leads (.move e) s (fun h => h.faulted e Cf.range) := by
  refine ⟨_, rfl, Hw.runStep_misaligned hst ha fun r hr ha => ?_⟩
  have h := (hr.misaligned ha).aligned (r.g (stepB w)) 64
  dsimp only
  rw [Run.copy_stopped h.ok]
  exact (h.advance _ _ _).advance _ _ _

theorem gather_misaligned (hst : s.hw.stepNow e 0x02 = some (l, w)) (ha : s.hw.greg e (stepA w) % 64 ≠ 0) :
    Leads (.gather e) s (fun h => h.faulted e Cf.range) := by
  refine ⟨_, rfl, Hw.runStep_misaligned hst ha fun r hr ha => ?_⟩
  have h := (hr.misaligned ha).aligned (r.g (stepB w)) 64
  dsimp only
  rw [Run.indices_stopped h.ok, List.foldl_fixed' (fun _ => Run.copy_stopped h.ok ..)]
  exact h.advance _ _ _

theorem scatter_misaligned (hst : s.hw.stepNow e 0x03 = some (l, w)) (ha : s.hw.greg e (stepA w) % 64 ≠ 0) :
    Leads (.scatter e) s (fun h => h.faulted e Cf.range) := by
  refine ⟨_, rfl, Hw.runStep_misaligned hst ha fun r hr ha => ?_⟩
  have h := (hr.misaligned ha).aligned (r.g (stepB w)) 64
  dsimp only
  rw [Run.indices_stopped h.ok, List.foldl_fixed' (fun _ => Run.copy_stopped h.ok ..)]
  exact h.advance _ _ _

theorem convert_misaligned (hst : s.hw.stepNow e 0x04 = some (l, w)) (ha : s.hw.greg e (stepA w) % 64 ≠ 0) :
    Leads (.convert e) s (fun h => h.faulted e Cf.range) := by
  refine ⟨_, rfl, Hw.runStep_misaligned hst ha fun r hr ha => ?_⟩
  have h := (hr.misaligned ha).aligned (r.g (stepB w)) 64
  unfold Run.convert
  dsimp only
  rw [Run.guardOf_stopped h.ok]
  dsimp only
  rw [Run.convertPieces_stopped h.ok]
  have hc := (((h.count (r.g (stepA w)) { poisoned := 0 }).count (r.g (stepB w)) {}).advance
    (stepFlag w 0) (stepA w) (streamBytes (stepIn w) (stepN w))).advance (stepFlag w 1) (stepB w) (streamBytes (stepOut w) (stepN w))
  dsimp only
  rw [hc.ok]
  exact hc

theorem reduce_misaligned (hst : s.hw.stepNow e 0x05 = some (l, w)) (ha : s.hw.greg e (stepA w) % 64 ≠ 0) :
    Leads (.reduce e) s (fun h => h.faulted e Cf.range) := by
  refine ⟨_, rfl, Hw.runStep_misaligned hst ha fun r hr ha => ?_⟩
  have h := hr.misaligned ha
  dsimp only
  simp only [Run.stop_stopped h.ok, ite_self]
  rw [Run.stream_stopped h.ok]
  simpa [h.ok] using h

theorem accum_misaligned (hst : s.hw.stepNow e 0x06 = some (l, w)) (ha : s.hw.greg e (stepA w) % 64 ≠ 0) :
    Leads (.accum e) s (fun h => h.faulted e Cf.range) := by
  refine ⟨_, rfl, Hw.runStep_misaligned hst ha fun r hr ha => ?_⟩
  have h := (hr.misaligned ha).aligned (r.g (stepB w)) 64
  dsimp only
  rw [Run.elementwise_stopped h.ok]
  exact ((h.count _ _).advance _ _ _).advance _ _ _

theorem delta_misaligned (hst : s.hw.stepNow e 0x09 = some (l, w)) (ha : s.hw.greg e (stepA w) % 64 ≠ 0) :
    Leads (.delta e) s (fun h => h.faulted e Cf.range) := by
  refine ⟨_, rfl, Hw.runStep_misaligned hst ha fun r hr ha => ?_⟩
  have h := ((hr.misaligned ha).aligned (r.g (stepB w)) 64).aligned
    (r.g (stepC w)) 64
  dsimp only
  rw [List.foldl_fixed' (fun u => by simp only [Run.readClean_stopped h.ok, Run.write_stopped h.ok])]
  exact ((h.advance _ _ _).advance _ _ _).advance _ _ _

theorem packz_misaligned (hst : s.hw.stepNow e 0x0a = some (l, w)) (ha : s.hw.greg e (stepA w) % 64 ≠ 0) :
    Leads (.packz e) s (fun h => h.faulted e Cf.range) := by
  refine ⟨_, rfl, Hw.runStep_misaligned hst ha fun r hr ha => ?_⟩
  have h := (hr.misaligned ha).aligned (r.g (stepB w)) 64
  dsimp only
  rw [List.foldl_fixed' (fun u => by simp [h.ok])]
  have hadv := (h.advance (stepFlag w 0) (stepA w) 0).advance (stepFlag w 1) (stepB w) 0
  dsimp only
  rw [hadv.ok]
  exact hadv

theorem tile_misaligned (hst : s.hw.stepNow e 0x0b = some (l, w)) (ha : s.hw.greg e (stepA w) % 64 ≠ 0) :
    Leads (.tile e) s (fun h => h.faulted e Cf.range) := by
  refine ⟨_, rfl, Hw.runStep_misaligned hst ha fun r hr ha => ?_⟩
  have h := (hr.misaligned ha).aligned (r.g (stepB w)) 64
  dsimp only
  rwa [List.foldl_fixed' (fun _ => Run.copy_stopped h.ok ..)]

theorem axpby_misaligned (hst : s.hw.stepNow e 0x0c = some (l, w)) (ha : s.hw.greg e (stepA w) % 64 ≠ 0) :
    Leads (.axpby e) s (fun h => h.faulted e Cf.range) := by
  refine ⟨_, rfl, Hw.runStep_misaligned hst ha fun r hr ha => ?_⟩
  have h := ((hr.unless (1 ≤ r.g (stepC w) ∧ r.g (stepC w) ≤ 1048576 ∧
    r.g (stepC w) % blockElems (stepIn w) = 0)).misaligned ha).aligned (r.g (stepB w)) 64
  dsimp only
  rw [h.ok]
  exact (h.advance _ _ _).advance _ _ _

/-- The parameter block of a MOMENT step lies in staging: before its streams are aligned it can only have met RANGE. -/
theorem Run.momentStart_misaligned {r : Run} (hr : r.OrRange e l) (ha : r.g (stepA w) % 64 ≠ 0) :
    (r.momentStart w).2.2.RangeStop e l := by
  unfold Run.momentStart
  extract_lets serve fo d pa y
  have hpa : inStage pa = true := by
    have hlt : wf w 32 24 < 2 ^ 24 := (w.extractLsb' 32 24).isLt
    simp only [pa, inStage, decide_eq_true_eq]
    omega
  have hblk := (((hr.aligned pa 64).readClean hpa 64).unless (paramsOk ((r.aligned pa 64).readClean pa 64).1 = true))
  dsimp only
  generalize (if paramsOk ((r.aligned pa 64).readClean pa 64).1 = true then ((r.aligned pa 64).readClean pa 64).2
    else ((r.aligned pa 64).readClean pa 64).2.stop Cf.range) = q at hblk ⊢
  have hguard : (if (serve && fmtGuarded fo && q.ok) = true then q.guardAt (pa + 64) fo d else (none, q)).2.OrRange e l := by
    split
    · exact hblk.guardAt ..
    · exact hblk
  have h := ((hguard.misaligned ha).aligned y.b 64).aligned y.c 64
  split
  · exact h.aligned _ _
  · exact h

theorem moment_misaligned (hst : s.hw.stepNow e 0x0d = some (l, w)) (ha : s.hw.greg e (stepA w) % 64 ≠ 0) :
    Leads (.moment e) s (fun h => h.faulted e Cf.range) := by
  refine ⟨_, rfl, Hw.runStep_misaligned hst ha fun r hr ha => ?_⟩
  have h := Run.momentStart_misaligned hr ha
  dsimp only
  rw [Run.momentPieces_stopped h.ok]
  generalize (r.momentStart w).2.2 = q at h ⊢
  generalize (r.momentStart w).2.1 = y
  generalize (r.momentStart w).1 = blk
  have hcounted : (if y.serve = true then (q.count y.b {}).count y.d {} else q.count y.b {}).RangeStop e l := by
    split
    · exact (h.count _ _).count _ _
    · exact h.count _ _
  dsimp only
  refine Run.RangeStop.thenWrite ?_ _ _
  cases y.g with
  | none => exact hcounted.advances ..
  | some x => exact (hcounted.guardCounts x {}).advances ..

theorem ingest_misaligned (hst : s.hw.stepNow e 0x0e = some (l, w)) (ha : s.hw.greg e (stepA w) % 64 ≠ 0) :
    Leads (.ingest e) s (fun h => h.faulted e Cf.range) := by
  refine ⟨_, rfl, Hw.runStep_misaligned hst ha fun r hr ha => ?_⟩
  extract_lets n a b c i slot aligned staged
  have haligned : aligned.RangeStop e l := ((hr.misaligned ha).aligned b 64).aligned c 64
  have hstaged : staged.RangeStop e l := haligned.unless _ _
  rw [Run.readClean_stopped hstaged.ok]
  dsimp -zeta only
  extract_lets blank part keyed key fresh begun
  have hkeyed : keyed.RangeStop e l := by
    have hblank : blank.RangeStop e l := hstaged.unless _ _
    unfold keyed
    clear_value part
    cases part with
    | none => rwa [Run.stop_stopped hblank.ok]
    | some p => exact hblank.unless _ _
  have hbegun : begun.RangeStop e l := by
    unfold begun
    split
    · exact (hkeyed.modEng (fun x => { x with sha := x.sha.set i [] }) (fun _ => rfl)).modEng _ (fun _ => rfl)
    · exact hkeyed
  rw [Run.stream_stopped hbegun.ok, if_pos (by rw [hbegun.ok]; rfl)]
  exact hbegun

end

/-! ### Steps that go on -/

section

variable {e : EngIx} {l : Launch} {w : BitVec 128} {s : State}

theorem seti_writes (hst : s.hw.stepNow e 0x10 = some (l, w)) : Leads (.seti e) s (fun h =>
    s.hw.stepped h e (fun k => if k = stepA w then wf w 0 64 else s.hw.greg e k)) := by
  refine Leads.of_run rfl hst rfl rfl rfl rfl fun k hk => hk.stepped _ hst rfl rfl rfl fun i hi => ?_
  have hlt : wf w 0 64 < 2 ^ 64 := (w.extractLsb' 0 64).isLt
  rw [Run.g_setG _ _ _ hi, Nat.mod_eq_of_lt hlt]
  rfl

theorem addi_writes (hst : s.hw.stepNow e 0x11 = some (l, w)) : Leads (.addi e) s (fun h =>
    s.hw.stepped h e (fun k => if k = stepA w then (s.hw.greg e (stepB w) + wf w 0 64) % 2 ^ 64 else s.hw.greg e k)) := by
  refine Leads.of_run rfl hst rfl rfl rfl rfl fun k hk => hk.stepped _ hst rfl rfl rfl fun i hi => ?_
  rw [Run.g_setG _ _ _ hi]
  rfl

/-- LOOP counts a pass down and goes back, or leaves its counter idle and goes on. -/
theorem loop_counts (hst : s.hw.stepNow e 0x12 = some (l, w)) : Leads (.loop e) s (fun h =>
    let x := s.hw.eng e
    let left := (Table.look x.loops x.pc).getD (stepN w - 1)
    if 0 < left then (h.eng e).pc = wf w 0 9 ∧ Table.look (h.eng e).loops x.pc = some (left - 1)
    else (h.eng e).pc = x.pc + 1 ∧ Table.look (h.eng e).loops x.pc = none) := by
  dsimp only
  split
  · next hleft =>
    refine Leads.of_run rfl hst rfl (if_pos hleft) rfl rfl fun k hk => ?_
    rw [hk.eng]
    exact ⟨rfl, (congrArg (fun x : Engine => Table.look x.loops _) (Run.eng_modEng _ _)).trans (Table.look_put_same ..)⟩
  · next hleft =>
    refine Leads.of_run rfl hst rfl (if_neg hleft) rfl rfl fun k hk => ?_
    rw [hk.eng]
    exact ⟨rfl, (congrArg (fun x : Engine => Table.look x.loops _) (Run.eng_modEng _ _)).trans (Table.look_del_same ..)⟩

/-- Storing a flag leaves the engines alone. -/
@[simp] theorem Hw.eng_setFlag (h : Hw) (t k v i : Nat) : (h.setFlag t k v).eng i = h.eng i :=
  (Hw.setFlag_within h t k v).eng (by decide) i

/-- A flag that has been stored. -/
theorem Hw.elem_setFlag (h : Hw) {t p : Nat} (hp : h.partOf t = some p) (k v : Nat) :
    (h.setFlag t k v).elem Od.caravanFlags p k = v % 2 ^ Od.caravanFlags.width := by
  rw [Hw.setFlag, hp]
  exact Hw.elem_setElem_same ..

theorem signalFlag_adds {p : Nat} (hst : s.hw.stepNow e 0x19 = some (l, w)) (hk : wf w 76 4 = 0) (hp : s.hw.partOf (e.val / 4) = some p) :
    Leads (.signalFlag e) s (fun h => s.hw.stepped h e (s.hw.greg e) ∧
      h.elem Od.caravanFlags p (wf w 0 6) = min 0xffff (s.hw.elem Od.caravanFlags p (wf w 0 6) + 1)) := by
  refine Leads.of_run rfl hst (decide_eq_true hk) rfl rfl rfl fun k hends => ⟨hends.stepped _ hst rfl ?_ ?_ (fun _ _ => rfl), ?_⟩
  · exact congrArg Engine.run (Hw.eng_setFlag ..)
  · exact congrArg Engine.wait (Hw.eng_setFlag ..)
  · have hw : Od.caravanFlags.width = 16 := by decide
    rw [hends.within.elem _ _ _ (by decide)]
    refine (Hw.elem_setFlag s.hw hp _ _).trans ?_
    rw [Hw.startRun, Hw.flag, hp, hw]
    exact Nat.mod_eq_of_lt (by omega)

theorem signalNotice_raises (hst : s.hw.stepNow e 0x19 = some (l, w)) (hk : wf w 76 4 = 1) :
    Leads (.signalNotice e) s (fun h => s.hw.stepped h e (s.hw.greg e) ∧
      h.reg Od.evHead = (s.hw.reg Od.evHead + 1) % 2 ^ Od.evHead.width) := by
  refine Leads.of_run rfl hst (decide_eq_true hk) rfl rfl rfl fun k hends => ⟨hends.stepped _ hst rfl ?_ ?_ (fun _ _ => rfl), ?_⟩
  · exact congrArg Engine.run (Hw.eng_launchNotice ..)
  · exact congrArg Engine.wait (Hw.eng_launchNotice ..)
  · rw [hends.within.reg _ _ (by decide)]
    exact Hw.raise_evHead ..

theorem fence_passes (hst : s.hw.stepNow e 0x1a = some (l, w)) (hc : s.hw.engContributes e = false) (hw : stepFlag w 0 = false) :
    Leads (.fence e) s (fun h => s.hw.stepped h e (s.hw.greg e) ∧ (h.eng e).touched = []) := by
  have hx : exec (.fence e) s = .next { s with hw := s.hw.runStep e 0x1a anyWord (fun _ r => r.modEng (fun y => { y with touched := [] })) } := by
    change execFence e s = _
    unfold execFence State.on
    simp [hst, hc, hw]
  refine Leads.of_run hx hst rfl rfl rfl rfl fun k hends => ⟨hends.stepped _ hst rfl ?_ ?_ (fun _ _ => rfl), ?_⟩
  · exact (congrArg Engine.run (Run.eng_modEng (s.hw.startRun e l) _)).trans rfl
  · exact (congrArg Engine.wait (Run.eng_modEng (s.hw.startRun e l) _)).trans rfl
  · rw [hends.eng]
    exact congrArg Engine.touched (Run.eng_modEng (s.hw.startRun e l) _)

theorem endStep_idles (hst : s.hw.stepNow e 0x1f = some (l, w)) (hc : s.hw.engContributes e = false) :
    Leads (.endStep e) s (fun h => (h.eng e).run = none ∧ (h.eng e).queue = (s.hw.eng e).queue ∧ h.reg Od.engState e = 0) := by
  have hx : execEndStep e s = .next { s with hw :=
      ((((l.descs.foldl (fun h d => h.abortHeld d) (s.hw.countSel 0x0d e)).launchNotice l 0x09 St.ok 0 (s.hw.eng e).pc (wf w 0 8)
        0).mirrorLaunchEnd l).idleEngine e) } := by
    unfold execEndStep State.on
    simp [hst, hc]
  refine ⟨_, hx, ?_, ?_, Hw.idleEngine_engState ..⟩
  · rw [Hw.eng_idleEngine]
  · rw [Hw.eng_idleEngine, (Hw.endLaunch_within ..).eng (by decide), Hw.eng_countSel]

/-- Settles O38. -/
theorem controlSteps : Obligations.ControlSteps := by
  intro e l w s
  refine ⟨seti_writes, addi_writes, loop_counts, fun p => signalFlag_adds, signalNotice_raises, fence_passes, endStep_idles, ?_⟩
  intro c op hc hst ha
  simp only [List.mem_cons, Prod.mk.injEq, List.not_mem_nil, or_false] at hc
  rcases hc with ⟨rfl, rfl⟩ | ⟨rfl, rfl⟩ | ⟨rfl, rfl⟩ | ⟨rfl, rfl⟩ | ⟨rfl, rfl⟩ | ⟨rfl, rfl⟩ | ⟨rfl, rfl⟩ | ⟨rfl, rfl⟩ |
    ⟨rfl, rfl⟩ | ⟨rfl, rfl⟩ | ⟨rfl, rfl⟩ | ⟨rfl, rfl⟩
  · exact move_misaligned hst ha
  · exact gather_misaligned hst ha
  · exact scatter_misaligned hst ha
  · exact convert_misaligned hst ha
  · exact reduce_misaligned hst ha
  · exact accum_misaligned hst ha
  · exact delta_misaligned hst ha
  · exact packz_misaligned hst ha
  · exact tile_misaligned hst ha
  · exact axpby_misaligned hst ha
  · exact moment_misaligned hst ha
  · exact ingest_misaligned hst ha

end

end Sys2Proof.Machine
end

section
/-! Waits: what the end of a wait leaves, and how one begins (R177, R178). -/

namespace Sys2Proof.Machine

/-- The registers of engine `e` once a wait has ended with outcome `out`. -/
def Hw.waitRegs (h : Hw) (e : Nat) (on : WaitOn) (out : Nat) : List Nat :=
  match on.cont with
  | some i => (List.range 16).map (fun k => if k = i then out else (h.eng e).regs.getD k 0)
  | none => (h.eng e).regs

theorem Hw.waitRegs_getD (h : Hw) (e : Nat) (on : WaitOn) (out : Nat) {k : Nat} (hk : k < 16) :
    (h.waitRegs e on out).getD k 0 = if on.cont = some k then out else h.greg e k := by
  unfold Hw.waitRegs
  cases hc : on.cont with
  | none => simp [Hw.greg]
  | some i => simp [hk, Hw.greg, eq_comm]

/-- A wait that ends: its engine goes on, RUNNING. -/
theorem Hw.waitEnds_goesOn (h : Hw) (e : Nat) (on : WaitOn) (out : Nat) :
    (h.waitEnds e on out).eng e = { h.eng e with wait := none, regs := h.waitRegs e on out, pc := (h.eng e).pc + 1 } ∧
      (h.waitEnds e on out).reg Od.engState e = 1 ∧
      (h.waitEnds e on out).reg Od.engStep e = ((h.eng e).pc + 1) % 2 ^ Od.engStep.width := by
  unfold Hw.waitEnds
  dsimp only
  refine ⟨?_, ?_, ?_⟩
  · simp only [Hw.eng_countSel, Hw.eng_setReg]
    split
    · exact (Hw.eng_setFlag ..).trans (Hw.eng_setEng_same ..)
    · exact Hw.eng_setEng_same ..
  · refine (Hw.reg_countSel _ _ _ _ _ _ _ (by decide)).trans ?_
    exact (Hw.reg_setReg_ne _ _ _ _ _ _ (by decide) (by decide) (by decide)).trans (Hw.reg_setReg_same ..)
  · exact (Hw.reg_countSel _ _ _ _ _ _ _ (by decide)).trans (Hw.reg_setReg_same ..)

/-- A wait that ends takes its engine to the next step. -/
theorem Hw.waitEnds_stepped (h : Hw) (e : Nat) (on : WaitOn) (out : Nat) :
    h.stepped (h.waitEnds e on out) e (fun k => if on.cont = some k then out else h.greg e k) := by
  obtain ⟨heng, -, hstep⟩ := h.waitEnds_goesOn e on out
  refine ⟨?_, ?_, ?_, hstep, fun k hk => ?_⟩
  · rw [heng]
  · rw [heng]
  · rw [heng]
  · rw [Hw.greg, heng]
    exact h.waitRegs_getD e on out hk

/-- The end of a FLAG wait takes one from its flag. -/
theorem Hw.waitEnds_flag (h : Hw) (e : Nat) (on : WaitOn) {p : Nat} (hk : on.kind = 0) (hp : h.partOf (e / 4) = some p) :
    (h.waitEnds e on 0).elem Od.caravanFlags p on.arg = (h.elem Od.caravanFlags p on.arg - 1) % 2 ^ Od.caravanFlags.width := by
  unfold Hw.waitEnds
  dsimp only
  rw [if_pos ⟨hk, rfl⟩]
  refine (Hw.reg_countSel _ _ _ _ _ _ _ (by decide)).trans ?_
  refine (Hw.elem_setReg_ne _ _ _ _ _ _ _ (by decide) (by decide) (by decide)).trans ?_
  refine (Hw.elem_setReg_ne _ _ _ _ _ _ _ (by decide) (by decide) (by decide)).trans ?_
  refine (Hw.elem_setFlag (h.setEng e _) hp _ _).trans ?_
  rw [Hw.flag, show (h.setEng e _).partOf (e / 4) = some p from hp]
  rfl

section

variable {e : EngIx} {l : Launch} {w : BitVec 128} {s : State} {on : WaitOn}

/-- What WAIT step `w` of kind `wf w 76 4` waits on, beside its argument and its chunks. -/
def Hw.waitWants (h : Hw) (w : BitVec 128) (on : WaitOn) : Prop :=
  on.kind = wf w 76 4 ∧ on.since = h.now ∧ on.timeout = wf w 56 20 ∧ on.cont = if stepFlag w 0 then some (stepD w) else none

/-- A WAIT step that begins faults with SESSION, goes on at once or stands in its step. -/
theorem Hw.startWait_eq {kind : Nat} {arg : BitVec 128 → Nat} (hst : s.hw.stepNow e 0x18 = some (l, w)) (hw : s.hw.waitWants w on)
    (hk : wf w 76 4 = kind) (harg : on.arg = arg w)
    (hchunk : on.chunk = if kind = 2 then s.hw.greg e (stepB w) % 2 ^ 32 else 0) (hcount : on.count = if kind = 2 then wf w 24 16 else 0) :
    s.hw.startWait e kind arg = if s.hw.waitLost on (s.hw.bindOf e l) then s.hw.faultRunning e Cf.session
      else if s.hw.waitMet e l on then s.hw.waitEnds e on 0
      else (s.hw.setEng e { s.hw.eng e with wait := some on }).setReg Od.engState e 2 := by
  obtain ⟨okind, oarg, osince, otimeout, ochunk, ocount, ocont⟩ := on
  obtain ⟨hkind, hsince, htimeout, hcont⟩ := hw
  dsimp only at hkind hsince htimeout hcont harg hchunk hcount
  subst hkind hsince htimeout hcont harg hchunk hcount hk
  unfold Hw.startWait
  rw [hst]
  dsimp only
  rw [if_neg (not_not_intro rfl)]
  rfl

/-- How a WAIT step begins, by whether its session is lost and whether its condition holds. -/
theorem wait_begins {c : Instr} {kind : Nat} {arg : BitVec 128 → Nat} (hc : exec c s = .next { s with hw := s.hw.startWait e kind arg })
    (hst : s.hw.stepNow e 0x18 = some (l, w)) (hw : s.hw.waitWants w on) (hk : wf w 76 4 = kind) (harg : on.arg = arg w)
    (hchunk : on.chunk = if kind = 2 then s.hw.greg e (stepB w) % 2 ^ 32 else 0) (hcount : on.count = if kind = 2 then wf w 24 16 else 0) :
    (s.hw.waitLost on (s.hw.bindOf e l) = true → Leads c s (fun h => h.faulted e Cf.session)) ∧
    (s.hw.waitLost on (s.hw.bindOf e l) = false → s.hw.waitMet e l on = true → Leads c s (fun h => h.reg Od.engState e = 1 ∧
      s.hw.stepped h e (fun k => if stepFlag w 0 = true ∧ k = stepD w then 0 else s.hw.greg e k))) ∧
    (s.hw.waitLost on (s.hw.bindOf e l) = false → s.hw.waitMet e l on = false → Leads c s (fun h =>
      (h.eng e).wait = some on ∧ (h.eng e).pc = (s.hw.eng e).pc ∧ h.reg Od.engState e = 2)) := by
  have hstart := Hw.startWait_eq hst hw hk harg hchunk hcount
  obtain ⟨-, -, -, hcont⟩ := hw
  refine ⟨fun hlost => ?_, fun hlost hmet => ?_, fun hlost hmet => ?_⟩
  · rw [if_pos hlost] at hstart
    exact .of_eq hc hstart (Hw.faultRunning_faulted _ _ (Hw.stepNow_running hst).1 (by decide)).1
  · rw [if_neg (by simp [hlost]), if_pos hmet] at hstart
    obtain ⟨-, hstate, -⟩ := s.hw.waitEnds_goesOn e on 0
    refine .of_eq hc hstart ⟨hstate, ?_⟩
    have hout (k : Nat) : (on.cont = some k) = (stepFlag w 0 = true ∧ k = stepD w) := by
      rw [hcont]
      split
      · next hf => simp [hf, eq_comm]
      · next hf => simp [hf]
    simpa only [hout] using s.hw.waitEnds_stepped e on 0
  · rw [if_neg (by simp [hlost]), if_neg (by simp [hmet])] at hstart
    refine .of_eq hc hstart ?_
    rw [Hw.eng_setReg, Hw.eng_setEng_same]
    exact ⟨rfl, rfl, Hw.reg_setReg_same ..⟩

/-- The command that ends a wait, where its condition holds. -/
theorem waitEnd_goesOn (hrun : (s.hw.eng e).run = some l) (hwait : (s.hw.eng e).wait = some on)
    (hlost : s.hw.waitLost on (s.hw.bindOf e l) = false) (hmet : s.hw.waitMet e l on = true) :
    exec (.waitEnd e) s = .next { s with hw := s.hw.waitEnds e on 0 } := by
  change execWaitEnd e s = _
  unfold execWaitEnd State.on
  simp [hrun, hwait, hlost, hmet]

/-- The command that times a wait out. -/
theorem waitTimeout_ends (hrun : (s.hw.eng e).run = some l) (hwait : (s.hw.eng e).wait = some on) (hmet : s.hw.waitMet e l on = false)
    (hpush : s.hw.waitDeadline l on = false) (hlate : on.since + on.timeout * 1000 ≤ s.hw.now) :
    exec (.waitTimeout e) s =
      .next { s with hw := if on.cont.isSome then s.hw.waitEnds e on 1 else s.hw.faultRunning e Cf.waitTimeout } := by
  change execWaitTimeout e s = _
  unfold execWaitTimeout State.on
  simp [hrun, hwait, hmet, hpush, hlate]

end

/-- Settles O39. -/
theorem engineWaits : Obligations.EngineWaits := by
  intro e l w s
  refine ⟨fun on hst hw => ⟨fun hk harg hchunk hcount => ?_, fun hk harg hchunk hcount => ?_, fun hk harg hchunk hcount => ?_⟩,
    fun on hrun hwait => ⟨fun hlost hmet => ?_, fun hmet hpush hlate => ⟨fun hcont => ?_, fun i hcont => ?_⟩⟩⟩
  · exact wait_begins rfl hst hw hk harg hchunk hcount
  · exact wait_begins rfl hst hw hk harg hchunk hcount
  · exact wait_begins rfl hst hw hk harg hchunk hcount
  · obtain ⟨-, hstate, -⟩ := s.hw.waitEnds_goesOn e on 0
    exact ⟨_, waitEnd_goesOn hrun hwait hlost hmet, hstate, s.hw.waitEnds_stepped e on 0, fun p hk hp => s.hw.waitEnds_flag e on hk hp⟩
  · refine .of_eq (waitTimeout_ends hrun hwait hmet hpush hlate) (if_neg (by simp [hcont])) ?_
    exact (Hw.faultRunning_faulted _ _ hrun (by decide)).1
  · refine .of_eq (waitTimeout_ends hrun hwait hmet hpush hlate) (if_pos (by simp [hcont])) ?_
    have h := s.hw.waitEnds_stepped e on 1
    simpa only [hcont, Option.some.injEq, eq_comm] using h

end Sys2Proof.Machine
end

section
/-! Launches: how one is queued and answered, starts, is ended, and how its descriptors pass their deadline (R168 to R171, R183 to R185). -/

namespace Sys2Proof.Machine

/-! ### A request that completes with OK -/

/-- The entry of request `uid` is that of `t`, still with its stack or answered OK. -/
def Hw.oksAs (h : Hw) (uid : Nat) (t : Tracker) : Prop :=
  ∃ u, h.trk uid = some u ∧ u.rq = t.rq ∧ u.orphan = t.orphan ∧ (u.phase = .forwarded ∨ u.phase = .responding ∧ u.status = St.ok)

theorem Hw.oksAs.of_trackers {a b : Hw} {uid : Nat} {t : Tracker} (ha : a.oksAs uid t) (h : b.trk uid = a.trk uid) : b.oksAs uid t := by
  unfold Hw.oksAs
  rwa [h]

/-- The block says of two entries of one request the same about discarding. -/
theorem Hw.discards_congr (h : Hw) {t u : Tracker} (hrq : u.rq = t.rq) (ho : u.orphan = t.orphan) : h.discards u = h.discards t := by
  rw [Hw.discards, hrq, ho, Hw.discards]

/-- The answer to one request leaves the entries of the others. -/
theorem Hw.answer_trk_ne (h : Hw) {uid v : Nat} (hne : uid ≠ v) (st : Nat) (d : List Byte) (psn : List Bool) :
    (h.answer v st d psn).trk uid = h.trk uid := by
  have hrel (x : Hw) : (x.releaseTrk v).trk uid = x.trk uid := by
    unfold Hw.releaseTrk
    split
    · next t _ =>
      have hdel : Table.look (Table.del (x.writeSample t).req.trackers v) uid = x.trk uid := by
        rw [Table.look_del_ne _ _ _ hne, Hw.writeSample_req]
        rfl
      dsimp only
      split
      · exact hdel
      · exact (Hw.trk_of_req (Hw.noteGate_req ..) uid).trans hdel
    · rfl
  unfold Hw.answer
  split
  · dsimp only
    split
    · rfl
    · split
      · exact (hrel _).trans (Hw.trk_setTrk_ne _ _ _ _ hne)
      · refine (Hw.trk_of_trackers (Hw.emit_trackers ..) uid).trans ?_
        split <;> exact Hw.trk_setTrk_ne _ _ _ _ hne
  · rfl

/-- Answered OK, an entry that is not discarded stays. -/
theorem Hw.oksAs.answer {h : Hw} {uid : Nat} {t : Tracker} (ht : h.oksAs uid t) (hd : h.discards t = false) (v : Nat) (d : List Byte)
    (psn : List Bool) : (h.answer v St.ok d psn).oksAs uid t := by
  obtain ⟨u, hu, hrq, ho, hph⟩ := ht
  by_cases hv : uid = v
  · subst hv
    obtain hf | hr := hph
    · have hanswer := Hw.answer_trk h uid St.ok d psn u hu (by rw [hf]; decide) ((h.discards_congr hrq ho).trans hd)
      exact ⟨_, hanswer, hrq, ho, .inr ⟨rfl, rfl⟩⟩
    · refine ⟨u, ?_, hrq, ho, .inr hr⟩
      rw [Hw.answer, hu]
      dsimp only
      rw [if_pos hr.1, hu]
  · exact ⟨u, (Hw.answer_trk_ne h hv St.ok d psn).trans hu, hrq, ho, hph⟩

/-- The mask of what a request's end changes. -/
def requestEndMask : Nat :=
  11347777784561610013136363548841360775862964909894048640369108500805891755407668870676896111633814371703863186880467012

/-- Whether a response is discarded is the same after another request's end. -/
theorem Hw.Within.end_discards {a b : Hw} (w : a.Within requestEndMask b) (t : Tracker) : b.discards t = a.discards t :=
  Hw.discards_of (fun _ => w.reg _ _ (by decide)) (fun _ => w.reg _ _ (by decide)) t

/-- The repeats that waited for a request go on with their own entries: that of a LAUNCH stays. -/
theorem Hw.oksAs.settleWin {h : Hw} {uid : Nat} {t : Tracker} (ht : h.oksAs uid t) (hop : t.rq.op ≠ 1) (hd : h.discards t = false) (rq : Rq) :
    (h.settleWin rq St.ok).oksAs uid t := by
  unfold Hw.settleWin
  split
  · next n _ =>
    split
    · exact ht
    · refine (List.foldlRecOn (motive := fun x => h.Within requestEndMask x ∧ x.oksAs uid t) _ _ ⟨?_, ?_⟩ ?_).2
      · exact Hw.Within.step (Hw.winDone_within ..) (by decide) (Hw.Within.refl _ _)
      · exact ht.of_trackers (Hw.trk_of_trackers (Hw.winDone_trackers ..) uid)
      · rintro x ⟨hw, hx⟩ v -
        split
        · next y hy =>
          split
          · next hread =>
            have hne : uid ≠ v := by
              rintro rfl
              obtain ⟨u, hu, hrq, -⟩ := hx
              rw [hu] at hy
              obtain rfl := Option.some.inj hy
              exact hop (hrq ▸ hread.1)
            exact ⟨Hw.Within.step (Hw.enqueueArb_within ..) (by decide) (Hw.Within.step (Hw.setTrk_within ..) (by decide) hw),
              hx.of_trackers (Hw.trk_setTrk_ne _ _ _ _ hne)⟩
          · exact ⟨Hw.Within.step (Hw.answer_within ..) (by decide) hw, hx.answer ((hw.end_discards t).trans hd) v _ _⟩
        · exact ⟨hw, hx⟩
  · exact ht

/-- A LAUNCH on its way whose response is not discarded completes with OK. -/
theorem Hw.oksAs.complete {h : Hw} {uid : Nat} {t : Tracker} (ht : h.oksAs uid t) (hop : t.rq.op = 6) (hd : h.discards t = false)
    (d : List Byte) (psn : List Bool) :
    ∃ u, (h.complete uid St.ok d psn).trk uid = some u ∧ u.phase = .responding ∧ u.status = St.ok := by
  obtain ⟨u, hu, hrq, ho, hph⟩ := id ht
  rw [Hw.complete, hu]
  dsimp only
  obtain hf | hr := hph
  · rw [if_neg (by rw [hf, hrq, hop]; decide)]
    have hset := ht.settleWin (by rw [hop]; decide) hd u.rq
    have hdisc : (h.settleWin u.rq St.ok).discards t = false :=
      (Hw.Within.end_discards (Hw.settleWin_within ..) t).trans hd
    obtain ⟨v, hv, hvrq, hvo, hvph⟩ := hset
    obtain hvf | hvr := hvph
    · exact ⟨_, Hw.answer_trk _ uid St.ok d psn v hv (by rw [hvf]; decide) ((Hw.discards_congr _ hvrq hvo).trans hdisc), rfl, rfl⟩
    · refine ⟨v, ?_, hvr⟩
      rw [Hw.answer, hv]
      dsimp only
      rw [if_pos hvr.1, hv]
  · rw [if_pos (.inl hr.1)]
    exact ⟨u, hu, hr⟩

/-- A sampling point leaves an entry's phase. -/
theorem Hw.oksAs.point {h : Hw} {uid : Nat} {t : Tracker} (ht : h.oksAs uid t) (k : Nat) : (h.point uid k).oksAs uid t := by
  obtain ⟨u, hu, hrq, ho, hph⟩ := ht
  rw [Hw.point, hu]
  dsimp only
  split
  · exact ⟨_, Hw.trk_setTrk_same .., hrq, ho, hph⟩
  · exact ⟨u, hu, hrq, ho, hph⟩

theorem Hw.point_discards (h : Hw) (uid k : Nat) (t : Tracker) : (h.point uid k).discards t = h.discards t :=
  Hw.Within.end_discards (Hw.Within.step (Hw.point_within ..) (by decide) (Hw.Within.refl _ _)) t

/-- An accepted LAUNCH that is not mirrored answers OK. -/
theorem Hw.oksAs.acceptWrite {h : Hw} {uid : Nat} {t : Tracker} (ht : h.oksAs uid t) (hop : t.rq.op = 6) (hd : h.discards t = false) :
    ∃ u, (h.acceptWrite uid St.ok [] [] none).trk uid = some u ∧ u.phase = .responding ∧ u.status = St.ok := by
  unfold Hw.acceptWrite
  exact ((((ht.point 4).point 6).point 7).point 8).complete hop (by simpa only [Hw.point_discards] using hd) _ _

/-! ### A launch takes an entry -/

/-- A descriptor as its launch's queue entry arms it. -/
def Hw.armed (h : Hw) (d : Desc) : Desc := if d.kind = 0 then d else { d with armedAt := some h.now, lines := [], expired := false }

/-- Launch `l` of slice `t` as engine `e` queues it. -/
def Hw.asQueued (h : Hw) (t e : Nat) (l : Launch) : Launch := { l with descs := l.descs.map h.armed, engine := e % 4, stack := t }

/-- The launch has left its slice's input and stands in the queue of engine `e`. -/
def Hw.queueLaunch (h : Hw) (t e : Nat) (l : Launch) : Hw :=
  (({ h with car.launchIn := Table.setD h.car.launchIn (fun _ => []) t ((h.launches t).erase l) } : Hw).setEng e
    { h.eng e with queue := (h.eng e).queue ++ [h.asQueued t e l] }).setReg Od.engQueue e ((h.eng e).queue.length + 1)

/-- The answer to a launch that has been queued. -/
def Hw.answerLaunch (h : Hw) (l : Launch) : Hw :=
  match l.trk with
  | some uid => (h.point uid 3).acceptWrite uid St.ok [] []
      (if h.mirroring then some { seqNo := 0, kind := 2, requester := l.launcher.getD 0x8000, seq := some l.seq } else none)
  | none => h

theorem Hw.answerLaunch_eng (h : Hw) (l : Launch) :
    (∀ e, (h.answerLaunch l).eng e = h.eng e) ∧ ∀ t, (h.answerLaunch l).launches t = h.launches t := by
  have hcar : Hw.Within 11347777784561610013136363548845339361754243203031291698354283067526695404614047652416419823448959647679963453884733508
      h (h.answerLaunch l) := by
    unfold Hw.answerLaunch
    split
    · exact Hw.Within.step (Hw.acceptWrite_within ..) (by decide) (Hw.Within.step (Hw.point_within ..) (by decide) (Hw.Within.refl _ _))
    · exact Hw.Within.refl _ _
  refine ⟨hcar.eng (by decide), fun t => ?_⟩
  have h1 : (h.answerLaunch l).car = { h.car with staging := (h.answerLaunch l).car.staging } := hcar.same .engines (by decide)
  rw [Hw.launches, h1, Hw.launches]

section

variable {stack : StackIx} {e : EngIx} {who : Actor} {s : State}

theorem launchQueue_queues {l : Launch} {g : Nat} (hl : (s.hw.launches stack).find? (fun l => (s.hw.engineFor stack l).isSome) = some l)
    (hg : s.hw.engineFor stack l = some g) (hroom : s.hw.descRoom l = true) :
    exec (.launchQueue stack) s = .next { s with hw := (s.hw.queueLaunch stack g l).answerLaunch l } := by
  change execLaunchQueue stack s = _
  unfold execLaunchQueue State.on
  dsimp only
  rw [hl]
  dsimp only
  rw [hg, if_neg (by rw [Bool.not_eq_true', Bool.not_eq_false]; exact hroom)]
  rfl

/-- The oldest launch that finds room is queued, armed and answered. -/
theorem launchQueue_leads {l : Launch} {g : Nat} (hl : (s.hw.launches stack).find? (fun l => (s.hw.engineFor stack l).isSome) = some l)
    (hg : s.hw.engineFor stack l = some g) (hroom : s.hw.descRoom l = true) :
    Leads (.launchQueue stack) s (fun h => h.launches stack = (s.hw.launches stack).erase l ∧
      (h.eng g).queue.length = (s.hw.eng g).queue.length + 1 ∧
      (∃ l', (h.eng g).queue.getLast? = some l' ∧ l'.prog = l.prog ∧ l'.regs = l.regs ∧ l'.launcher = l.launcher ∧
        ∀ d, d ∈ l'.descs → d.kind ≠ 0 → d.armedAt = some s.hw.now) ∧
      ∀ uid t, l.trk = some uid → s.hw.trk uid = some t → t.phase = .forwarded → t.rq.op = 6 → s.hw.discards t = false →
        s.hw.mirroring = false → ∃ u, h.trk uid = some u ∧ u.phase = .responding ∧ u.status = St.ok) := by
  refine ⟨_, launchQueue_queues hl hg hroom, ?_⟩
  obtain ⟨heng, hlaunches⟩ := (s.hw.queueLaunch stack g l).answerLaunch_eng l
  have hqueued : (s.hw.queueLaunch stack g l).eng g = { s.hw.eng g with queue := (s.hw.eng g).queue ++ [s.hw.asQueued stack g l] } :=
    Hw.eng_setEng_same ..
  rw [hlaunches, heng, hqueued]
  refine ⟨?_, ?_, ⟨s.hw.asQueued stack g l, ?_, rfl, rfl, rfl, ?_⟩, ?_⟩
  · exact Table.atD_setD_same s.hw.car.launchIn (fun _ => []) stack.val _
  · simp
  · simp
  · intro d hd hk
    obtain ⟨d', -, rfl⟩ := List.mem_map.1 hd
    unfold Hw.armed at hk ⊢
    split at hk
    · next h0 => exact absurd h0 hk
    · next h0 => rw [if_neg h0]
  · intro uid t huid ht hph hop hd hm
    have hm' : (s.hw.queueLaunch stack g l).mirroring = false := by
      rw [← hm, Hw.mirroring, Hw.mirroring]
      exact congrArg (fun n => decide (n = 4)) (Hw.reg_setReg_ne _ _ _ _ _ _ (by decide) (by decide) (by decide))
    have hd' : (s.hw.queueLaunch stack g l).discards t = false := by
      rw [← hd]
      exact Hw.discards_of (fun i => Hw.reg_setReg_ne _ _ _ _ _ _ (by decide) (by decide) (by decide))
        (fun i => Hw.reg_setReg_ne _ _ _ _ _ _ (by decide) (by decide) (by decide)) t
    have hoks : (s.hw.queueLaunch stack g l).oksAs uid t := ⟨t, ht, rfl, rfl, .inl hph⟩
    rw [Hw.answerLaunch, huid, hm']
    exact (hoks.point 3).acceptWrite hop ((Hw.point_discards ..).trans hd')

/-! ### A launch starts -/

/-- Launch `l` has left the queue of engine `e`, of which `rest` stays. -/
def Hw.dequeued (h : Hw) (e : Nat) (rest : List Launch) : Hw :=
  (h.setEng e { h.eng e with queue := rest }).setReg Od.engQueue e rest.length

/-- Launch `l` runs on engine `e`, of whose queue `rest` stays. -/
def Hw.started (h : Hw) (e : Nat) (rest : List Launch) (l : Launch) : Hw :=
  (((((h.setEng e { queue := rest, run := some l, regs := l.regs, startedAt := h.now, limit := h.reg Od.carRuntimeLimitMs }).addReg
    Od.progLaunches l.prog).setReg Od.engState e 1).setReg Od.engProgram e l.prog).setReg Od.engLauncher e
      (l.launcher.getD 0x8000)).setReg Od.engStep e 0

/-- Whether the slice of engine `e` holds a valid copy of program `n`. -/
def Hw.copyGood (h : Hw) (e n : Nat) : Bool :=
  match Table.look h.car.progCopies (e / 4 * 128 + n) with
  | some c => c.valid
  | none => false

/-- A head that starts: its engine RUNNING, its registers those of the launch, at step 0. -/
theorem launchStart_runs {l : Launch} {rest : List Launch} {c : ProgCopy} (hrun : (s.hw.eng e).run = none)
    (hq : (s.hw.eng e).queue = l :: rest) (hc : Table.look s.hw.car.progCopies (e.val / 4 * 128 + l.prog) = some c) (hv : c.valid = true) :
    Leads (.launchStart e) s (fun h => (h.eng e).run = some l ∧ (h.eng e).queue = rest ∧ (h.eng e).regs = l.regs ∧
      (h.eng e).pc = 0 ∧ h.reg Od.engState e = 1 ∧ h.reg Od.engProgram e = l.prog % 2 ^ Od.engProgram.width) := by
  have hx : exec (.launchStart e) s = .next { s with hw := (s.hw.dequeued e rest).started e rest l } := by
    change execLaunchStart e s = _
    unfold execLaunchStart State.on
    dsimp only
    split
    · next l' rest' _ hq' =>
      obtain ⟨rfl, rfl⟩ := List.cons.inj (hq'.symm.trans hq)
      have hgood : s.hw.copyGood e l'.prog = true := by
        rw [Hw.copyGood, hc]
        exact hv
      rw [if_neg (by rw [Bool.not_eq_true', Bool.not_eq_false]; exact hgood)]
      rfl
    · next hno => exact absurd hq (hno l rest hrun)
  refine ⟨_, hx, ?_⟩
  dsimp only
  have heng : ((s.hw.dequeued e rest).started e rest l).eng e =
      { queue := rest, run := some l, regs := l.regs, startedAt := s.hw.now, limit := (s.hw.dequeued e rest).reg Od.carRuntimeLimitMs } :=
    Hw.eng_setEng_same ..
  rw [heng]
  refine ⟨rfl, rfl, rfl, rfl, ?_, ?_⟩
  · unfold Hw.started
    simp only [Hw.reg_setReg_same, Hw.reg_setReg_ne _ _ Od.engState _ _ _ (by decide : Od.engStep ≠ Od.engState) (by decide) (by decide),
      Hw.reg_setReg_ne _ _ Od.engState _ _ _ (by decide : Od.engLauncher ≠ Od.engState) (by decide) (by decide),
      Hw.reg_setReg_ne _ _ Od.engState _ _ _ (by decide : Od.engProgram ≠ Od.engState) (by decide) (by decide)]
    decide
  · unfold Hw.started
    simp only [Hw.reg_setReg_same, Hw.reg_setReg_ne _ _ Od.engProgram _ _ _ (by decide : Od.engStep ≠ Od.engProgram) (by decide) (by decide),
      Hw.reg_setReg_ne _ _ Od.engProgram _ _ _ (by decide : Od.engLauncher ≠ Od.engProgram) (by decide) (by decide)]

/-- A head without a valid copy of its program leaves the queue and ends with PROGRAM_INVALID. -/
theorem launchStart_invalid {l : Launch} {rest : List Launch} (hrun : (s.hw.eng e).run = none) (hq : (s.hw.eng e).queue = l :: rest)
    (hc : ∀ c, Table.look s.hw.car.progCopies (e.val / 4 * 128 + l.prog) = some c → c.valid = false) :
    Leads (.launchStart e) s (fun h => (h.eng e).run = none ∧ (h.eng e).queue = rest ∧ h.reg Od.engLastFault e = 0x0b) := by
  have hx : exec (.launchStart e) s = .next { s with hw := (s.hw.dequeued e rest).faultLaunch e l 0x0b 0 } := by
    change execLaunchStart e s = _
    unfold execLaunchStart State.on
    dsimp only
    split
    · next l' rest' _ hq' =>
      obtain ⟨rfl, rfl⟩ := List.cons.inj (hq'.symm.trans hq)
      have hgood : s.hw.copyGood e l'.prog = false := by
        unfold Hw.copyGood
        split
        · next c hlook => exact hc c hlook
        · rfl
      rw [if_pos (by rw [Bool.not_eq_true']; exact hgood)]
      rfl
    · next hno => exact absurd hq (hno l rest hrun)
  refine ⟨_, hx, ?_, ?_, ?_⟩
  · rw [Hw.eng_faultLaunch, Hw.dequeued, Hw.eng_setReg, Hw.eng_setEng_same]
    exact hrun
  · rw [Hw.eng_faultLaunch, Hw.dequeued, Hw.eng_setReg, Hw.eng_setEng_same]
  · exact Hw.faultLaunch_lastFault ..

/-! ### A launch is ended -/

theorem runtimeLimit_faults (hrun : (s.hw.eng e).run.isSome = true) (hlate : (s.hw.eng e).startedAt + (s.hw.eng e).limit * 1000000 < s.hw.now) :
    Leads (.runtimeLimit e) s (fun h => h.faulted e Cf.runtime) := by
  obtain ⟨l, hl⟩ := Option.isSome_iff_exists.1 hrun
  exact .of_eq (k := if _ then _ else _) rfl (if_pos ⟨hrun, hlate⟩) (Hw.faultRunning_faulted _ _ hl (by decide)).1

/-- An accepted command of the engines is carried out. -/
theorem Hw.dictWrite_engCommand (h : Hw) (a : Actor) {i v : Nat} (hv : v ∈ [1, 2]) (hacc : h.accepts a Od.engCommand i v) :
    (h.command a Od.engCommand i v).Within passedOnMask (h.dictWrite a Od.engCommand i v) := by
  refine Hw.dictWrite_caravanCommand h a (by decide) i v [1, 2] hacc (by decide) hv ?_
  simp only [List.mem_cons, List.not_mem_nil, or_false] at hv
  omega

theorem abortRunning_faults (hacc : s.hw.accepts who Od.engCommand e 1) (hrun : (s.hw.eng e).run.isSome = true) :
    Leads (.abortRunning who e) s (fun h => h.faulted e Cf.abort ∧ (h.eng e).queue = (s.hw.eng e).queue) := by
  obtain ⟨l, hl⟩ := Option.isSome_iff_exists.1 hrun
  have w := Hw.dictWrite_engCommand s.hw who (by decide) hacc
  rw [Hw.command_engCommand_1] at w
  obtain ⟨⟨hend, hstate, hfault⟩, hqueue⟩ := Hw.faultRunning_faulted s.hw e hl (fault := Cf.abort) (by decide)
  refine ⟨_, rfl, ⟨?_, ?_, ?_⟩, ?_⟩
  · rw [w.eng (by decide)]
    exact hend
  · exact (w.reg _ _ (by decide)).trans hstate
  · exact (w.reg _ _ (by decide)).trans hfault
  · rw [w.eng (by decide)]
    exact hqueue

/-- Nothing is left of an engine's launches when all of them fault. -/
theorem Hw.faultEngine_all (h : Hw) (e fault : Nat) :
    ((h.faultEngine e fault (fun _ => true)).eng e).run = none ∧ ((h.faultEngine e fault (fun _ => true)).eng e).queue = [] := by
  have hqueued (x : Hw) : (x.faultQueued e fault (fun _ => true)).eng e = { x.eng e with queue := [] } := by
    unfold Hw.faultQueued
    refine List.foldlRecOn (motive := fun y : Hw => y.eng e = { x.eng e with queue := [] }) _ _ ?_ ?_
    · rw [Hw.eng_setReg, Hw.eng_setEng_same]
      simp
    · intro y hy l _
      rw [Hw.eng_faultLaunch, hy]
  unfold Hw.faultEngine
  dsimp only
  rw [hqueued]
  refine ⟨?_, rfl⟩
  cases hrun : (h.eng e).run with
  | none => exact hrun
  | some l =>
    have hend : ((h.faultRunning e fault).eng e).run = none := by
      rw [Hw.faultRunning, hrun]
      dsimp only
      rw [Hw.eng_idleEngine]
    exact hend

theorem abortAll_empties (hacc : s.hw.accepts who Od.engCommand e 2) :
    Leads (.abortAll who e) s (fun h => (h.eng e).run = none ∧ (h.eng e).queue = []) := by
  have w := Hw.dictWrite_engCommand s.hw who (by decide) hacc
  rw [Hw.command_engCommand_2] at w
  refine ⟨_, rfl, ?_⟩
  dsimp only
  rw [w.eng (by decide)]
  exact s.hw.faultEngine_all e Cf.abort

/-! ### A descriptor's deadline -/

/-- The mask of what the end of held reads changes. -/
def heldMask : Nat :=
  11347777784561610013136363548841360775862964909894048640369108500805891755407668870676896111633814371703863186880475204

/-- A launch whose descriptor `i` is marked expired. -/
def Launch.expire (l : Launch) (i : Nat) : Launch :=
  { l with descs := l.descs.zipIdx.map (fun p => if p.2 = i then { p.1 with expired := true } else p.1) }

theorem Launch.expire_descs (l : Launch) (i : Nat) {d : Desc} (hd : l.descs[i]? = some d) :
    (l.expire i).descs[i]? = some { d with expired := true } := by
  simp [Launch.expire, hd]

theorem descriptorDeadline_expires {i : Fin 4} {l : Launch} {d : Desc} {t : Nat} (hrun : (s.hw.eng e).run = some l)
    (hd : l.descs[i.val]? = some d) (hk : d.kind ≠ 0) (hx : d.expired = false) (ht : d.armedAt = some t)
    (hlate : t + d.deadline * 1000 ≤ s.hw.now) :
    Leads (.descriptorDeadline e i) s (fun h => ∃ l', (h.eng e).run = some l' ∧ l'.descs[i.val]? = some { d with expired := true }) := by
  have hmarks : Leads (.descriptorDeadline e i) s (fun h => (h.eng e).run = some (l.expire i)) := by
    refine ⟨_, rfl, ?_⟩
    beta_reduce
    extract_lets n m x late released y mark note marked
    have hheld : s.hw.Within heldMask released := by
      refine Hw.Within.fold (fun z l hz => ?_) (Hw.Within.refl _ _)
      split
      · exact hz.trans (Hw.abortHeld_within ..)
      · exact hz
    have hy : y.run = some l := (congrArg Engine.run (hheld.eng (by decide) e)).trans hrun
    have hpass : released.passDeadline l i = true := by
      have hnow : released.now = s.hw.now := hheld.same .time (by decide)
      simp [Hw.passDeadline, hd, hk, hx, ht, hnow, hlate]
    have hmarked : (marked.eng e).run = some (l.expire i) := by
      refine (congrArg Engine.run (Hw.eng_setEng_same ..)).trans ?_
      dsimp only
      rw [hy]
      exact congrArg some (if_pos hpass)
    clear_value note
    cases note with
    | none => exact hmarked
    | some l' => exact (congrArg Engine.run (Hw.eng_launchNotice ..)).trans hmarked
  exact hmarks.imp (fun h hh => ⟨_, hh, l.expire_descs i hd⟩)

end

/-- Settles O34. -/
theorem launches : Obligations.Launches := by
  intro stack e who s
  exact ⟨fun l g => launchQueue_leads, fun l rest hrun hq => ⟨fun c hc hv => launchStart_runs hrun hq hc hv, launchStart_invalid hrun hq⟩,
    runtimeLimit_faults, abortRunning_faults, abortAll_empties, fun i l d t => descriptorDeadline_expires⟩

end Sys2Proof.Machine
end

section
/-! Bytes of the engines' staging: what a write leaves, and what a step that reads and writes only staging comes to (R159, R160). -/

namespace Sys2Proof.Machine

/-! ### Bytes in a table -/

/-- The table with bytes `data` from key `base` on. -/
def putBytes (t : Table Byte) (base : Nat) (data : List Byte) : Table Byte :=
  data.zipIdx.foldl (fun t p => Table.setD t (fun _ => 0) (base + p.2) p.1) t

theorem Hw.putStaging_eq (h : Hw) (base : Nat) (data : List Byte) :
    h.putStaging base data = { h with car.staging := putBytes h.car.staging base data } := rfl

theorem putBytes_append (t : Table Byte) (base : Nat) (x y : List Byte) :
    putBytes t base (x ++ y) = putBytes (putBytes t base x) (base + x.length) y := by
  unfold putBytes
  rw [List.zipIdx_append, List.foldl_append, Nat.zero_add, List.zipIdx_eq_map_add (i := x.length), List.foldl_map]
  simp only [Nat.add_assoc, Nat.add_comm x.length]

theorem atD_putBytes (t : Table Byte) (base : Nat) (data : List Byte) (k : Nat) :
    (putBytes t base data).atD (fun _ => 0) k =
      if base ≤ k ∧ k < base + data.length then data.getD (k - base) 0 else t.atD (fun _ => 0) k := by
  induction data using List.reverseRecOn with
  | nil =>
    rw [if_neg (by simp)]
    rfl
  | append_singleton data b ih =>
    have hone (t : Table Byte) (n : Nat) : putBytes t n [b] = Table.setD t (fun _ => 0) n b := rfl
    rw [putBytes_append, hone]
    by_cases hk : k = base + data.length
    · subst hk
      rw [Table.atD_setD_same, if_pos (by simp)]
      simp
    · rw [Table.atD_setD_ne _ _ _ _ _ hk, ih]
      by_cases hin : base ≤ k ∧ k < base + data.length
      · rw [if_pos hin, if_pos (by simp; omega), List.getD_append _ _ _ _ (by omega)]
      · rw [if_neg hin, if_neg (by simp; omega)]

/-! ### Addresses of staging -/

/-- Within a range of staging an offset moves the low part of the address only. -/
theorem stageRange.offset {a n : Nat} (ha : stageRange a n) {i : Nat} (hi : i ≤ n) :
    (a + i) % 2 ^ 41 = a % 2 ^ 41 + i ∧ (a + i) / 2 ^ 41 = 2 ^ 20 := by
  obtain ⟨hhigh, hlow⟩ := ha
  unfold stagingSize at hlow
  omega

theorem stageRange.sub {a n : Nat} (ha : stageRange a n) {i m : Nat} (hm : i + m ≤ n) : stageRange (a + i) m := by
  obtain ⟨hlow, hhigh⟩ := ha.offset (show i ≤ n by omega)
  refine ⟨hhigh, ?_⟩
  rw [hlow]
  have := ha.2
  omega

theorem stageRange.take {a n m : Nat} (ha : stageRange a n) (hm : m ≤ n) : stageRange a m := ha.sub (i := 0) (by omega)

theorem stageRange.inStage {a n : Nat} (ha : stageRange a n) : inStage a = true := by
  obtain ⟨hhigh, -⟩ := ha
  rw [Machine.inStage, decide_eq_true_eq]
  omega

theorem stageRange.check {a n : Nat} (ha : stageRange a n) (r : Run) : r.check a n = 0 := by
  have hin := ha.inStage
  obtain ⟨hhigh, hlow⟩ := ha
  unfold Run.check
  simp only [hin, if_true]
  rw [if_neg (by omega), if_neg (by omega)]

/-- Ranges that do not meet have parts that do not meet. -/
theorem apart.sub {a n b m : Nat} (h : apart a n b m) {i k j l : Nat} (hi : i + k ≤ n) (hj : j + l ≤ m) : apart (a + i) k (b + j) l := by
  unfold apart at *
  omega

/-! ### Staging of one engine -/

theorem Hw.staged_length (h : Hw) (e a n : Nat) : (h.staged e a n).length = n := by
  simp [Hw.staged]

theorem Hw.staged_getD (h : Hw) (e a n : Nat) {i : Nat} (hi : i < n) :
    (h.staged e a n).getD i 0 = Table.atD h.car.staging (fun _ => 0) (e * 2 ^ 23 + a % 2 ^ 41 + i) := by
  simp [Hw.staged, hi]

/-- Part of a range of staging. -/
theorem Hw.staged_sub (h : Hw) (e : Nat) {a n : Nat} (ha : stageRange a n) {i m : Nat} (hm : i + m ≤ n) :
    h.staged e (a + i) m = ((h.staged e a n).drop i).take m := by
  refine List.ext_getElem (by simp [Hw.staged_length]; omega) (fun k hk _ => ?_)
  simp only [Hw.staged, List.getElem_map, List.getElem_range, List.getElem_take, List.getElem_drop,
    (ha.offset (show i ≤ n by omega)).1, Nat.add_assoc]

/-- Staging that a frame leaves reads as before. -/
theorem Hw.staged_of_staging {x y : Hw} (h : y.car.staging = x.car.staging) (e a n : Nat) : y.staged e a n = x.staged e a n := by
  rw [Hw.staged, h, Hw.staged]

theorem Hw.stageKept_of_staging {x y z : Hw} (h : z.car.staging = y.car.staging) {e b n : Nat} (hy : x.stageKept y e b n) :
    x.stageKept z e b n := by
  unfold Hw.stageKept
  rwa [h]

/-! ### Runs that write staging -/

/-- The step has written `data` to address `a` of its staging. -/
def Run.stageWrite (r : Run) (a : Nat) (data : List Byte) : Run :=
  { r with h := r.h.putStaging (r.e * 2 ^ 23 + a % 2 ^ 41) data }

section

variable {r : Run}

@[simp] theorem Run.stageWrite_ok (a : Nat) (d : List Byte) : (r.stageWrite a d).ok = r.ok := rfl
@[simp] theorem Run.stageWrite_e (a : Nat) (d : List Byte) : (r.stageWrite a d).e = r.e := rfl
@[simp] theorem Run.stageWrite_g (a : Nat) (d : List Byte) (k : Nat) : (r.stageWrite a d).g k = r.g k := rfl
@[simp] theorem Run.stageWrite_next (a : Nat) (d : List Byte) : (r.stageWrite a d).next = r.next := rfl
@[simp] theorem Run.stageWrite_eng (a : Nat) (d : List Byte) (i : Nat) : (r.stageWrite a d).h.eng i = r.h.eng i := rfl
@[simp] theorem Run.stageWrite_reg (a : Nat) (d : List Byte) (q : Reg) (i : Nat) : (r.stageWrite a d).h.reg q i = r.h.reg q i := rfl

theorem Run.stageWrite_nil (a : Nat) : r.stageWrite a [] = r := rfl

theorem Run.atD_stageWrite (a : Nat) (d : List Byte) (k : Nat) :
    Table.atD (r.stageWrite a d).h.car.staging (fun _ => 0) k =
      if r.e * 2 ^ 23 + a % 2 ^ 41 ≤ k ∧ k < r.e * 2 ^ 23 + a % 2 ^ 41 + d.length then d.getD (k - (r.e * 2 ^ 23 + a % 2 ^ 41)) 0
      else Table.atD r.h.car.staging (fun _ => 0) k := atD_putBytes ..

/-- Two writes, the second right behind the first, are one. -/
theorem Run.stageWrite_append {a : Nat} (x y : List Byte) (ha : stageRange a (x.length + y.length)) :
    (r.stageWrite a x).stageWrite (a + x.length) y = r.stageWrite a (x ++ y) := by
  have h := putBytes_append r.h.car.staging (r.e * 2 ^ 23 + a % 2 ^ 41) x y
  simp only [Run.stageWrite, Hw.putStaging_eq, (ha.offset (Nat.le_add_right ..)).1, h, Nat.add_assoc]

/-- What a write has left is there. -/
theorem Run.staged_stageWrite_same (a : Nat) (d : List Byte) : (r.stageWrite a d).h.staged r.e a d.length = d := by
  refine List.ext_getElem (Hw.staged_length ..) (fun i hi hd => ?_)
  have hat := Run.atD_stageWrite (r := r) a d (r.e * 2 ^ 23 + a % 2 ^ 41 + i)
  rw [if_pos (by omega)] at hat
  simp only [Hw.staged, List.getElem_map, List.getElem_range]
  rw [hat]
  simp [hd]

/-- A write leaves what it does not meet. -/
theorem Run.staged_stageWrite_apart {a n b : Nat} {d : List Byte} (ha : stageRange a n) (hb : stageRange b d.length)
    (hab : apart a n b d.length) : (r.stageWrite b d).h.staged r.e a n = r.h.staged r.e a n := by
  refine List.map_congr_left (fun i hi => ?_)
  have hi := List.mem_range.1 hi
  rw [Run.atD_stageWrite, if_neg]
  obtain ⟨hhigh, -⟩ := ha
  obtain ⟨bhigh, -⟩ := hb
  unfold apart at hab
  omega

theorem Run.stageKept_stageWrite (b : Nat) (d : List Byte) : r.h.stageKept (r.stageWrite b d).h r.e b d.length := by
  intro k hk
  rw [Run.atD_stageWrite, if_neg (by omega)]

/-- What a write leaves, in any block with its staging. -/
theorem Run.stageWrite_leaves {b n : Nat} {d : List Byte} {k : Hw} (hk : k.car.staging = (r.stageWrite b d).h.car.staging)
    (hd : d.length = n) : k.staged r.e b n = d ∧ r.h.stageKept k r.e b n := by
  subst hd
  exact ⟨(Hw.staged_of_staging hk ..).trans (Run.staged_stageWrite_same b d), Hw.stageKept_of_staging hk (Run.stageKept_stageWrite b d)⟩

/-! ### Accesses of staging by a step that goes on -/

theorem Run.valid_staging {a n : Nat} (ha : stageRange a n) : r.valid a n = r := by
  rw [Run.valid, ha.check r]
  rfl

theorem Run.aligned_of {a n : Nat} (ha : a % n = 0) : r.aligned a n = r := if_pos ha

theorem Run.read_staging (hr : r.ok = true) {a n : Nat} (ha : stageRange a n) : r.read a n = (r.h.staged r.e a n, [], r) := by
  simp only [Run.read, Run.valid_staging ha, hr, ha.inStage]
  rfl

theorem Run.readClean_staging (hr : r.ok = true) {a n : Nat} (ha : stageRange a n) : r.readClean a n = (r.h.staged r.e a n, r) := by
  rw [Run.readClean, Run.read_staging hr ha]
  rfl

theorem Run.write_staging (hr : r.ok = true) {a : Nat} {d : List Byte} (ha : stageRange a d.length) (psn : List Bool) :
    r.write a d psn = r.stageWrite a d := by
  simp only [Run.write, Run.valid_staging ha, hr, ha.inStage]
  by_cases hd : d.length = 0
  · obtain rfl := List.eq_nil_of_length_eq_zero hd
    rfl
  · rw [if_neg (by simpa using hd)]
    rfl

end

/-! ### Streams in pieces -/

/-- A fold over the pieces of `n` elements, of `k` each but the last, keeps what each piece takes from its first element to the element
after its last. -/
theorem foldl_pieces_keeps {β : Type} (F : β → Nat × Nat → β) (I : Nat → β → Prop) {n k : Nat} {t : β} (hk : 0 < k) (h0 : I 0 t)
    (hF : ∀ i m s, i + m ≤ n → m ≤ k → i % k = 0 → m = k ∨ i + m = n → I i s → I (i + m) (F s (i, m))) :
    I n ((pieces n k).foldl F t) := by
  have hgo : ∀ j, j ≤ (n + k - 1) / k →
      I (min (j * k) n) (((List.range j).map (fun i => (i * k, min k (n - i * k)))).foldl F t) := by
    intro j
    induction j with
    | zero => simpa using h0
    | succ j ih =>
      intro hj
      have hs : (j + 1) * k = j * k + k := Nat.succ_mul j k
      have hle := (Nat.le_div_iff_mul_le hk).1 hj
      have hj' := ih (by omega)
      rw [Nat.min_eq_left (by omega)] at hj'
      have hstep := hF _ (min k (n - j * k)) _ (by omega) (Nat.min_le_left ..) (Nat.mul_mod_left j k) (by omega) hj'
      rw [List.range_succ, List.map_append, List.foldl_append, show min ((j + 1) * k) n = j * k + min k (n - j * k) by omega]
      exact hstep
  have hn : n ≤ (n + k - 1) / k * k := by
    have hsum := Nat.div_add_mod (n + k - 1) k
    have hlt := Nat.mod_lt (n + k - 1) hk
    rw [Nat.mul_comm]
    omega
  have hend := hgo _ (Nat.le_refl _)
  rwa [Nat.min_eq_right hn] at hend

/-- A fold over the pieces of `n` elements that goes from the state at a piece's first element to that after its last. -/
theorem foldl_pieces_at {β : Type} (F : β → Nat × Nat → β) (S : Nat → β) {n k : Nat} (hk : 0 < k)
    (hF : ∀ i m, i + m ≤ n → m ≤ k → i % k = 0 → m = k ∨ i + m = n → F (S i) (i, m) = S (i + m)) :
    (pieces n k).foldl F (S 0) = S n :=
  foldl_pieces_keeps F (fun i t => t = S i) hk rfl (fun i m t hm hle hi hlast ht => ht ▸ hF i m hm hle hi hlast)

/-- The same where a piece's place does not matter. -/
theorem foldl_pieces {β : Type} (F : β → Nat × Nat → β) (S : Nat → β) {n k : Nat} (hk : 0 < k)
    (hF : ∀ i m, i + m ≤ n → m ≤ k → F (S i) (i, m) = S (i + m)) : (pieces n k).foldl F (S 0) = S n :=
  foldl_pieces_at F S hk (fun i m hm hle _ _ => hF i m hm hle)

theorem units_eq_pieces (n : Nat) : units n = pieces n 256 := by
  rw [units, pieces, Nat.add_sub_assoc (by decide)]

section

variable {r : Run} (hr : r.ok = true)
include hr

/-- Reading a stream from staging. -/
theorem Run.stream_staging {a n : Nat} (ha : stageRange a n) : r.stream a n = (r.h.staged r.e a n, r) := by
  rw [Run.stream, units_eq_pieces]
  have h0 : ([], r) = ((r.h.staged r.e a n).take 0, r) := rfl
  rw [h0, foldl_pieces _ (fun i => ((r.h.staged r.e a n).take i, r)) (by decide) (fun i m hm _ => ?_)]
  · rw [List.take_of_length_le (Nat.le_of_eq (Hw.staged_length ..))]
  · simp only [hr, Bool.not_true, Bool.false_eq_true, if_false]
    rw [Run.readClean_staging hr (ha.sub hm), Hw.staged_sub _ _ ha hm, List.take_add]

/-- Writing bytes to staging unit by unit. -/
theorem Run.writeUnits_staging {a n : Nat} {d : List Byte} (hd : d.length ≤ n) (ha : stageRange a n) :
    (units n).foldl (fun r u => r.write (a + u.1) ((d.drop u.1).take u.2)) r = r.stageWrite a d := by
  rw [units_eq_pieces]
  have h0 : r = r.stageWrite a (d.take 0) := rfl
  conv_lhs => rw [h0]
  rw [foldl_pieces _ (fun i => r.stageWrite a (d.take i)) (by decide) (fun i m hm _ => ?_), List.take_of_length_le hd]
  have hm' : ((d.drop i).take m).length ≤ m := by
    rw [List.length_take]
    omega
  dsimp only
  rw [Run.write_staging (r := r.stageWrite a (d.take i)) hr ((ha.sub hm).take hm'), List.take_add]
  by_cases hi : i ≤ d.length
  · have hlen : (d.take i).length = i := by
      rw [List.length_take]
      omega
    have happ := Run.stageWrite_append (r := r) (d.take i) ((d.drop i).take m) (ha.take (by omega))
    rwa [hlen] at happ
  · rw [List.drop_of_length_le (by omega), List.take_nil, List.append_nil, Run.stageWrite_nil]

/-- A copy within staging whose source and destination do not meet. -/
theorem Run.copy_staging {a b n : Nat} (ha : stageRange a n) (hb : stageRange b n) (hab : apart a n b n) (pass : Bool) :
    r.copy a b n pass = r.stageWrite b (r.h.staged r.e a n) := by
  rw [Run.copy, units_eq_pieces]
  have h0 : r = r.stageWrite b ((r.h.staged r.e a n).take 0) := rfl
  conv_lhs => rw [h0]
  rw [foldl_pieces _ (fun i => r.stageWrite b ((r.h.staged r.e a n).take i)) (by decide) (fun i m hm _ => ?_)]
  · rw [List.take_of_length_le (Nat.le_of_eq (Hw.staged_length ..))]
  · have hi : ((r.h.staged r.e a n).take i).length = i := by simp [Hw.staged_length]; omega
    have hm' : (r.h.staged r.e (a + i) m).length = m := Hw.staged_length ..
    simp only [Run.stageWrite_ok, hr, Bool.not_true, Bool.false_eq_true, if_false]
    rw [Run.read_staging (r := r.stageWrite b _) hr (ha.sub hm)]
    dsimp only
    rw [Run.stageWrite_e, Run.staged_stageWrite_apart (ha.sub hm) (by rw [hi]; exact hb.take (by omega))
      (by rw [hi]; exact hab.sub (j := 0) hm (by omega))]
    simp only [List.any_nil, Bool.false_and, Bool.false_eq_true, if_false]
    rw [Run.write_staging (r := r.stageWrite b _) hr (by rw [hm']; exact hb.sub hm)]
    have happ := Run.stageWrite_append (r := r) (a := b) ((r.h.staged r.e a n).take i) (r.h.staged r.e (a + i) m)
      (by rw [hi, hm']; exact hb.take hm)
    rw [hi] at happ
    rw [happ, Hw.staged_sub _ _ ha hm, List.take_add]

end

/-! ### Registers that advance -/

theorem stepA_lt (w : BitVec 128) : stepA w < 16 := (w.extractLsb' 92 4).isLt
theorem stepB_lt (w : BitVec 128) : stepB w < 16 := (w.extractLsb' 88 4).isLt
theorem stepC_lt (w : BitVec 128) : stepC w < 16 := (w.extractLsb' 84 4).isLt

/-- Register `i` has gone up by `n` where the flag says so. -/
def Run.bump (r : Run) (flag : Bool) (i n : Nat) : Run := if flag = true then r.setG i (r.g i + n) else r

section

variable {r : Run}

theorem Run.g_bump (flag : Bool) (i n : Nat) {k : Nat} (hk : k < 16) :
    (r.bump flag i n).g k = if flag = true ∧ k = i then (r.g i + n) % 2 ^ 64 else r.g k := by
  unfold Run.bump
  cases flag with
  | false => simp
  | true => simp [Run.g_setG _ _ _ hk]

theorem Run.g_bump_bumped {g : Nat → Nat} (hg : ∀ k, k < 16 → r.g k = g k) (w : BitVec 128) (f n : Nat) {i : Nat} (hi : i < 16) :
    ∀ k, k < 16 → (r.bump (stepFlag w f) i n).g k = bumped w f i n g k := by
  intro k hk
  rw [Run.g_bump _ _ _ hk, hg k hk, hg i hi, bumped]

@[simp] theorem Run.bump_ok (flag : Bool) (i n : Nat) : (r.bump flag i n).ok = r.ok := by
  unfold Run.bump
  split <;> rfl

@[simp] theorem Run.bump_h (flag : Bool) (i n : Nat) : (r.bump flag i n).h = r.h := by
  unfold Run.bump
  split <;> rfl

theorem Run.bump_of_unflagged {flag : Bool} (hf : flag = false) (i n : Nat) : r.bump flag i n = r := by
  rw [Run.bump, if_neg (by rw [hf]; decide)]

theorem Run.advance_unflagged {flag : Bool} (hf : flag = false) (i n : Nat) : r.advance flag i n = r := by
  rw [Run.advance, if_pos (.inl (by rw [hf]; rfl))]

/-- An advance that stays within staging. -/
theorem Run.advance_staging (hr : r.ok = true) {w : BitVec 128} {f i m n : Nat} (ha : stageRange (r.g i) m)
    (hadv : advances w f (r.g i) n) : r.advance (stepFlag w f) i n = r.bump (stepFlag w f) i n := by
  cases hf : stepFlag w f with
  | false => rw [Run.advance_unflagged rfl, Run.bump_of_unflagged rfl]
  | true =>
    have hlt := hadv hf
    simp only [Run.advance, Run.bump, hr, ha.inStage]
    simp only [Bool.not_true, Bool.false_eq_true, or_self, if_false, if_true]
    rw [if_neg (by omega)]

/-- The advances of the two operands of a step that goes on. -/
theorem Run.advance_two (hr : r.ok = true) {w : BitVec 128} {f f' i j m m' n n' : Nat} (hj : j < 16) (ha : stageRange (r.g i) m)
    (hb : stageRange (r.g j) m') (hadv : advances w f (r.g i) n) (hadv' : advances w f' (r.g j) n') (hij : i = j → n = 0) :
    (r.advance (stepFlag w f) i n).advance (stepFlag w f') j n' = (r.bump (stepFlag w f) i n).bump (stepFlag w f') j n' := by
  have hg : (r.bump (stepFlag w f) i n).g j = r.g j := by
    rw [Run.g_bump _ _ _ hj]
    split
    · next h =>
      obtain ⟨-, rfl⟩ := h
      rw [hij rfl, Nat.add_zero, Nat.mod_eq_of_lt]
      have := hb.1
      omega
    · rfl
  rw [Run.advance_staging hr ha hadv]
  exact Run.advance_staging (by rw [Run.bump_ok, hr]) (hg.symm ▸ hb) (hg.symm ▸ hadv')

/-! ### A step over staging ends -/

/-- Run `q` is what `r` has come to: it goes on for the same engine to the same step, its launch still in its engine. -/
def Run.Reaches (r q : Run) : Prop :=
  q.ok = r.ok ∧ q.e = r.e ∧ q.next = r.next ∧ (q.h.eng r.e).run = (r.h.eng r.e).run ∧ (q.h.eng r.e).wait = (r.h.eng r.e).wait

theorem Run.Reaches.refl (r : Run) : r.Reaches r := ⟨rfl, rfl, rfl, rfl, rfl⟩

theorem Run.Reaches.stageWrite {q : Run} (h : r.Reaches q) (a : Nat) (d : List Byte) : r.Reaches (q.stageWrite a d) := h

theorem Run.Reaches.setG {q : Run} (h : r.Reaches q) (i v : Nat) : r.Reaches (q.setG i v) := h

theorem Run.Reaches.bump {q : Run} (h : r.Reaches q) (flag : Bool) (i n : Nat) : r.Reaches (q.bump flag i n) := by
  unfold Run.bump
  split
  · exact h.setG _ _
  · exact h

theorem Run.Reaches.count {q : Run} (h : r.Reaches q) (a : Nat) (c : FmtCount) : r.Reaches (q.count a c) := by
  obtain ⟨hok, he, hnext, hrun, hwait⟩ := h
  refine ⟨hok, he, hnext, ?_, ?_⟩
  · exact (congrArg Engine.run (Hw.eng_countFmt ..)).trans hrun
  · exact (congrArg Engine.wait (Hw.eng_countFmt ..)).trans hwait

theorem Run.Reaches.modEng {q : Run} (h : r.Reaches q) {f : Engine → Engine} (hf : ∀ x, (f x).run = x.run ∧ (f x).wait = x.wait) :
    r.Reaches (q.modEng f) := by
  obtain ⟨hok, he, hnext, hrun, hwait⟩ := h
  have heng : (q.modEng f).h.eng r.e = f (q.h.eng r.e) := by
    rw [← he]
    exact Run.eng_modEng q f
  exact ⟨hok, he, hnext, by rw [heng, (hf _).1, hrun], by rw [heng, (hf _).2, hwait]⟩

end

section

variable {e : EngIx} {l : Launch} {w : BitVec 128} {s : State} {r : Run}

theorem Hw.startRun_facts (hstart : s.hw.startRun e l = r) : r.ok = true ∧ r.e = e ∧ r.h = s.hw := by
  subst hstart
  exact ⟨rfl, rfl, rfl⟩

/-- A command whose step stops with a fault: its launch ends, and the staging stays. -/
theorem Leads.of_faults {c : Instr} {op : Nat} {f : BitVec 128 → Run → Run} {q : Run} {P : Hw → Prop}
    (hc : exec c s = .next { s with hw := s.hw.runStep e op anyWord f }) (hst : s.hw.stepNow e op = some (l, w))
    (hf : f w (s.hw.startRun e l) = q) (he : q.e = e) (hstall : q.stall = none) (hfault : q.fault ≠ 0)
    (hlt : q.fault < 2 ^ Od.engLastFault.width) (hrun : (q.h.eng e).run = (s.hw.eng e).run)
    (hP : ∀ k, k.faulted e q.fault → k.car.staging = q.h.car.staging → P k) : Leads c s P := by
  have hl : (q.h.eng q.e).run = some l := by rw [he, hrun, (Hw.stepNow_running hst).1]
  refine ⟨_, hc, hP _ ?_ ?_⟩
  · rw [Hw.runStep_eq hst rfl, hf, ← he]
    exact Hw.endStep_faults s.hw hstall hfault hlt hl
  · rw [Hw.runStep_eq hst rfl, hf, Hw.endStep, hstall]
    simp only [ne_eq, hfault, not_false_eq_true, if_true]
    exact (Hw.faultRunning_within ..).car_staging (by decide)

/-- A command whose step goes on: what it leaves in staging, and that it has stepped. -/
theorem Leads.of_reaches {c : Instr} {op : Nat} {f : BitVec 128 → Run → Run} {q : Run} {P : Hw → Prop} {g : Nat → Nat}
    (hc : exec c s = .next { s with hw := s.hw.runStep e op anyWord f }) (hstart : s.hw.startRun e l = r)
    (hst : s.hw.stepNow e op = some (l, w)) (hf : f w r = q) (hq : r.Reaches q) (hregs : ∀ k, k < 16 → q.g k = g k)
    (hP : ∀ k, q.EndsAs e k → k.car.staging = q.h.car.staging → s.hw.stepped k e g → P k) : Leads c s P := by
  subst hstart
  obtain ⟨hok, he, hnext, hrun, hwait⟩ := hq
  refine Leads.of_run hc hst rfl hf he hok fun k hk => hP k hk (hk.within.car_staging (by decide)) ?_
  exact hk.stepped g hst hnext hrun hwait hregs

end

end Sys2Proof.Machine
end

section
/-! Steps that copy within staging: MOVE, GATHER, SCATTER, TILE, FILL and DELTA (R159, R160, R175). -/

namespace Sys2Proof.Machine

/-! ### Records -/

/-- Ranges of records of `row` bytes at a pitch of `q` do not meet. -/
theorem records_apart {row q : Nat} (hq : row ≤ q) (b : Nat) {i j : Nat} (hij : i ≠ j) : apart (b + i * q) row (b + j * q) row := by
  unfold apart
  obtain h | h := Nat.lt_or_gt_of_ne hij
  · have := Nat.mul_le_mul_right q h
    rw [Nat.succ_mul] at this
    omega
  · have := Nat.mul_le_mul_right q h
    rw [Nat.succ_mul] at this
    omega

/-- Record `i` of `n` lies within them all. -/
theorem record_within {row q n i : Nat} (hq : row ≤ q) (hi : i < n) : i * q + row ≤ n * q := by
  have := Nat.mul_le_mul_right q hi
  rw [Nat.succ_mul] at this
  omega

theorem apart.symm {a n b m : Nat} (h : apart a n b m) : apart b m a n := h.elim .inr .inl

/-- The step has written record `D i` to address `B i`, for every `i < n` in order. -/
def Run.stageRecords (r : Run) (n : Nat) (B : Nat → Nat) (D : Nat → List Byte) : Run :=
  (List.range n).foldl (fun q i => q.stageWrite (B i) (D i)) r

section

variable {r : Run} {B : Nat → Nat} {D : Nat → List Byte} {len : Nat}

theorem Run.stageRecords_succ (n : Nat) : r.stageRecords (n + 1) B D = (r.stageRecords n B D).stageWrite (B n) (D n) := by
  rw [Run.stageRecords, List.range_succ, List.foldl_append]
  rfl

theorem Run.stageRecords_e (n : Nat) : (r.stageRecords n B D).e = r.e := by
  induction n with
  | zero => rfl
  | succ n ih => rw [Run.stageRecords_succ, Run.stageWrite_e, ih]

theorem Run.stageRecords_ok (n : Nat) : (r.stageRecords n B D).ok = r.ok := by
  induction n with
  | zero => rfl
  | succ n ih => rw [Run.stageRecords_succ, Run.stageWrite_ok, ih]

theorem Run.stageRecords_g (n k : Nat) : (r.stageRecords n B D).g k = r.g k := by
  induction n with
  | zero => rfl
  | succ n ih => rw [Run.stageRecords_succ, Run.stageWrite_g, ih]

theorem Run.Reaches.stageRecords {q : Run} (h : r.Reaches q) (n : Nat) : r.Reaches (q.stageRecords n B D) := by
  induction n with
  | zero => exact h
  | succ n ih =>
    rw [Run.stageRecords_succ]
    exact ih.stageWrite _ _

/-- Staging that no record meets reads as before. -/
theorem Run.staged_stageRecords_apart {a m n : Nat} (ha : stageRange a m) (hB : ∀ i, i < n → stageRange (B i) (D i).length)
    (hap : ∀ i, i < n → apart a m (B i) (D i).length) : (r.stageRecords n B D).h.staged r.e a m = r.h.staged r.e a m := by
  induction n with
  | zero => rfl
  | succ n ih =>
    have h := Run.staged_stageWrite_apart (r := r.stageRecords n B D) ha (hB n (Nat.lt_succ_self n)) (hap n (Nat.lt_succ_self n))
    rw [Run.stageRecords_e] at h
    rw [Run.stageRecords_succ, h]
    exact ih (fun i hi => hB i (Nat.lt_succ_of_lt hi)) (fun i hi => hap i (Nat.lt_succ_of_lt hi))

/-- A record that no later one meets is there. -/
theorem Run.staged_stageRecords {n : Nat} (hD : ∀ i, i < n → (D i).length = len) (hB : ∀ i, i < n → stageRange (B i) len) {i : Nat}
    (hi : i < n) (hlast : ∀ j, i < j → j < n → apart (B i) len (B j) len) :
    (r.stageRecords n B D).h.staged r.e (B i) len = D i := by
  induction n with
  | zero => exact absurd hi (Nat.not_lt_zero i)
  | succ n ih =>
    rw [Run.stageRecords_succ]
    obtain h | h := Nat.lt_succ_iff_lt_or_eq.1 hi
    · have hn := hD n (Nat.lt_succ_self n)
      have hw := Run.staged_stageWrite_apart (r := r.stageRecords n B D) (d := D n) (hB i hi) (by rw [hn]; exact hB n (Nat.lt_succ_self n))
        (by rw [hn]; exact hlast n h (Nat.lt_succ_self n))
      rw [Run.stageRecords_e] at hw
      rw [hw]
      exact ih (fun j hj => hD j (Nat.lt_succ_of_lt hj)) (fun j hj => hB j (Nat.lt_succ_of_lt hj)) h
        (fun j hij hj => hlast j hij (Nat.lt_succ_of_lt hj))
    · subst h
      have hw := Run.staged_stageWrite_same (r := r.stageRecords i B D) (B i) (D i)
      rwa [Run.stageRecords_e, hD i hi] at hw

/-- Records within a range leave the staging outside it. -/
theorem Run.stageKept_stageRecords {b m n : Nat} (hb : stageRange b m)
    (hB : ∀ i, i < n → ∃ o, B i = b + o ∧ o + (D i).length ≤ m) : r.h.stageKept (r.stageRecords n B D).h r.e b m := by
  induction n with
  | zero => exact fun k _ => rfl
  | succ n ih =>
    intro k hk
    obtain ⟨o, ho, hlen⟩ := hB n (Nat.lt_succ_self n)
    rw [Run.stageRecords_succ, Run.stageKept_stageWrite (r := r.stageRecords n B D) (B n) (D n) k]
    · exact ih (fun i hi => hB i (Nat.lt_succ_of_lt hi)) k hk
    · rw [Run.stageRecords_e, ho, (hb.offset (show o ≤ m by omega)).1]
      omega

/-- Copies of records within staging, no source of which meets a destination. -/
theorem Run.copies_staging (hr : r.ok = true) {A : Nat → Nat} {n : Nat} (hA : ∀ i, i < n → stageRange (A i) len)
    (hB : ∀ i, i < n → stageRange (B i) len) (hap : ∀ i j, i < n → j < n → apart (A i) len (B j) len) (pass : Bool) :
    (List.range n).foldl (fun r i => r.copy (A i) (B i) len pass) r = r.stageRecords n B (fun i => r.h.staged r.e (A i) len) := by
  induction n with
  | zero => rfl
  | succ n ih =>
    rw [List.range_succ, List.foldl_append, ih (fun i hi => hA i (Nat.lt_succ_of_lt hi)) (fun i hi => hB i (Nat.lt_succ_of_lt hi))
      (fun i j hi hj => hap i j (Nat.lt_succ_of_lt hi) (Nat.lt_succ_of_lt hj)), Run.stageRecords_succ]
    have hn := Nat.lt_succ_self n
    have hsrc := Run.staged_stageRecords_apart (r := r) (B := B) (D := fun i => r.h.staged r.e (A i) len) (n := n) (hA n hn)
      (fun i hi => by rw [Hw.staged_length]; exact hB i (Nat.lt_succ_of_lt hi))
      (fun i hi => by rw [Hw.staged_length]; exact hap n i hn (Nat.lt_succ_of_lt hi))
    have hcopy := Run.copy_staging (r := r.stageRecords n B (fun i => r.h.staged r.e (A i) len)) (by rw [Run.stageRecords_ok, hr])
      (hA n hn) (hB n hn) (hap n n hn hn) pass
    rw [Run.stageRecords_e, hsrc] at hcopy
    exact hcopy

end

/-! ### The steps -/

section

variable {e : EngIx} {l : Launch} {w : BitVec 128} {s : State} {r : Run}

theorem move_copies (hstart : s.hw.startRun e l = r) (hst : s.hw.stepNow e 0x01 = some (l, w)) (ha : r.g (stepA w) % 64 = 0)
    (hb : r.g (stepB w) % 64 = 0) (hsa : stageRange (r.g (stepA w)) (64 * stepN w)) (hsb : stageRange (r.g (stepB w)) (64 * stepN w))
    (hab : apart (r.g (stepA w)) (64 * stepN w) (r.g (stepB w)) (64 * stepN w)) (hva : advances w 0 (r.g (stepA w)) (64 * stepN w))
    (hvb : advances w 1 (r.g (stepB w)) (64 * stepN w)) :
    Leads (.move e) s (fun h => h.staged r.e (r.g (stepB w)) (64 * stepN w) = r.h.staged r.e (r.g (stepA w)) (64 * stepN w) ∧
      r.h.stageKept h r.e (r.g (stepB w)) (64 * stepN w) ∧
      s.hw.stepped h e (bumped w 1 (stepB w) (64 * stepN w) (bumped w 0 (stepA w) (64 * stepN w) r.g))) := by
  obtain ⟨hok, -, -⟩ := Hw.startRun_facts hstart
  refine Leads.of_reaches rfl hstart hst
    (q := ((r.stageWrite (r.g (stepB w)) (r.h.staged r.e (r.g (stepA w)) (64 * stepN w))).bump (stepFlag w 0) (stepA w)
      (64 * stepN w)).bump (stepFlag w 1) (stepB w) (64 * stepN w)) ?_ ((((Run.Reaches.refl r).stageWrite _ _).bump _ _ _).bump _ _ _)
    (Run.g_bump_bumped (Run.g_bump_bumped (fun _ _ => rfl) w 0 _ (stepA_lt w)) w 1 _ (stepB_lt w)) (fun k _ hk hstepped => ?_)
  · dsimp only
    rw [Nat.mul_comm, Run.aligned_of ha, Run.aligned_of hb, Run.copy_staging hok hsa hsb hab]
    refine Run.advance_two (r := r.stageWrite _ _) hok (stepB_lt w) hsa hsb hva hvb (fun hij => ?_)
    rw [hij] at hab
    unfold apart at hab
    omega
  · rw [Run.bump_h, Run.bump_h] at hk
    obtain ⟨hdst, hkept⟩ := Run.stageWrite_leaves hk (Hw.staged_length ..)
    exact ⟨hdst, hkept, hstepped⟩

/-- The index list of a GATHER or SCATTER in staging. -/
theorem Run.indices_staging (hok : r.ok = true) {c n : Nat} (hc : c % 4 = 0) (hsc : stageRange c (4 * n)) :
    r.indices c n = ((List.range n).map (fun i => leAt (r.h.staged r.e c (4 * n)) (4 * i) 4), r) := by
  unfold Run.indices
  simp only [hsc.inStage, if_true]
  rw [Run.aligned_of hc, Run.readClean_staging hok hsc]

theorem zipIdx_map_range (f : Nat → Nat) (n : Nat) : ((List.range n).map f).zipIdx = (List.range n).map (fun i => (f i, i)) := by
  refine List.ext_getElem (by simp) (fun i hi _ => by simp)

/-- GATHER lays its records side by side. -/
theorem gather_copies (hstart : s.hw.startRun e l = r) (idx : Nat → Nat) (len : Nat) (hlen : len = (wf w 48 8 + 1) * 64)
    (hidx : idx = fun i => leAt (r.h.staged r.e (r.g (stepC w)) (4 * stepN w)) (4 * i) 4)
    (hst : s.hw.stepNow e 0x02 = some (l, w)) (ha : r.g (stepA w) % 64 = 0)
    (hb : r.g (stepB w) % 64 = 0) (hc : r.g (stepC w) % 4 = 0) (hsc : stageRange (r.g (stepC w)) (4 * stepN w))
    (hsb : stageRange (r.g (stepB w)) (stepN w * len))
    (hrec : ∀ i, i < stepN w → stageRange (r.g (stepA w) + idx i * len) len ∧
      apart (r.g (stepA w) + idx i * len) len (r.g (stepB w)) (stepN w * len))
    (hvb : advances w 1 (r.g (stepB w)) (stepN w * len)) :
    Leads (.gather e) s (fun h => r.h.stageKept h r.e (r.g (stepB w)) (stepN w * len) ∧
      s.hw.stepped h e (bumped w 1 (stepB w) (stepN w * len) r.g) ∧
      ∀ i, i < stepN w → h.staged r.e (r.g (stepB w) + i * len) len = r.h.staged r.e (r.g (stepA w) + idx i * len) len) := by
  obtain ⟨hok, -, -⟩ := Hw.startRun_facts hstart
  have hB (i : Nat) (hi : i < stepN w) : stageRange (r.g (stepB w) + i * len) len := hsb.sub (record_within (Nat.le_refl _) hi)
  refine Leads.of_reaches rfl hstart hst
    (q := (r.stageRecords (stepN w) (fun i => r.g (stepB w) + i * len)
      (fun i => r.h.staged r.e (r.g (stepA w) + idx i * len) len)).bump (stepFlag w 1) (stepB w) (stepN w * len))
    ?_ (((Run.Reaches.refl r).stageRecords _).bump _ _ _)
    (Run.g_bump_bumped (fun k _ => Run.stageRecords_g _ k) w 1 _ (stepB_lt w)) (fun k _ hk hstepped => ?_)
  · dsimp only
    rw [Run.aligned_of ha, Run.aligned_of hb, Run.indices_staging hok hc hsc]
    dsimp only
    rw [zipIdx_map_range, List.foldl_map]
    dsimp only
    subst hidx hlen
    rw [Run.copies_staging hok (fun i hi => (hrec i hi).1) hB
      (fun i j hi hj => (hrec i hi).2.sub (i := 0) (Nat.zero_add _).le (record_within (Nat.le_refl _) hj))]
    exact Run.advance_staging (by rw [Run.stageRecords_ok, hok]) (by rwa [Run.stageRecords_g]) (by rwa [Run.stageRecords_g])
  · rw [Run.bump_h] at hk
    have hkept := Run.stageKept_stageRecords (r := r) (D := fun i => r.h.staged r.e (r.g (stepA w) + idx i * len) len) hsb
      (B := fun i => r.g (stepB w) + i * len) (n := stepN w)
      (fun i hi => ⟨i * len, rfl, by rw [Hw.staged_length]; exact record_within (Nat.le_refl _) hi⟩)
    refine ⟨?_, hstepped, fun i hi => ?_⟩
    · exact Hw.stageKept_of_staging hk hkept
    · have hi' := Run.staged_stageRecords (r := r) (B := fun i => r.g (stepB w) + i * len)
        (D := fun i => r.h.staged r.e (r.g (stepA w) + idx i * len) len) (fun i _ => Hw.staged_length ..) hB hi
        (fun j hij _ => records_apart (Nat.le_refl _) _ (Nat.ne_of_lt hij))
      exact (Hw.staged_of_staging hk ..).trans hi'

/-- SCATTER leaves each record where no later one lies. -/
theorem scatter_copies (hstart : s.hw.startRun e l = r) (idx : Nat → Nat) (len : Nat) (hlen : len = (wf w 48 8 + 1) * 64)
    (hidx : idx = fun i => leAt (r.h.staged r.e (r.g (stepC w)) (4 * stepN w)) (4 * i) 4)
    (hst : s.hw.stepNow e 0x03 = some (l, w)) (ha : r.g (stepA w) % 64 = 0)
    (hb : r.g (stepB w) % 64 = 0) (hc : r.g (stepC w) % 4 = 0) (hsc : stageRange (r.g (stepC w)) (4 * stepN w))
    (hsa : stageRange (r.g (stepA w)) (stepN w * len))
    (hrec : ∀ i, i < stepN w → stageRange (r.g (stepB w) + idx i * len) len ∧
      apart (r.g (stepB w) + idx i * len) len (r.g (stepA w)) (stepN w * len))
    (hva : advances w 0 (r.g (stepA w)) (stepN w * len)) :
    Leads (.scatter e) s (fun h => s.hw.stepped h e (bumped w 0 (stepA w) (stepN w * len) r.g) ∧
      ∀ i, i < stepN w → (∀ j, i < j → j < stepN w → idx j ≠ idx i) →
        h.staged r.e (r.g (stepB w) + idx i * len) len = r.h.staged r.e (r.g (stepA w) + i * len) len) := by
  obtain ⟨hok, -, -⟩ := Hw.startRun_facts hstart
  have hA (i : Nat) (hi : i < stepN w) : stageRange (r.g (stepA w) + i * len) len := hsa.sub (record_within (Nat.le_refl _) hi)
  refine Leads.of_reaches rfl hstart hst
    (q := (r.stageRecords (stepN w) (fun i => r.g (stepB w) + idx i * len)
      (fun i => r.h.staged r.e (r.g (stepA w) + i * len) len)).bump (stepFlag w 0) (stepA w) (stepN w * len))
    ?_ (((Run.Reaches.refl r).stageRecords _).bump _ _ _)
    (Run.g_bump_bumped (fun k _ => Run.stageRecords_g _ k) w 0 _ (stepA_lt w)) (fun k _ hk hstepped => ⟨hstepped, fun i hi hlast => ?_⟩)
  · dsimp only
    rw [Run.aligned_of ha, Run.aligned_of hb, Run.indices_staging hok hc hsc]
    dsimp only
    rw [zipIdx_map_range, List.foldl_map]
    dsimp only
    subst hidx hlen
    rw [Run.copies_staging hok hA (fun i hi => (hrec i hi).1)
      (fun i j hi hj => ((hrec j hj).2.sub (i := 0) (Nat.zero_add _).le (record_within (Nat.le_refl _) hi)).symm)]
    exact Run.advance_staging (by rw [Run.stageRecords_ok, hok]) (by rwa [Run.stageRecords_g]) (by rwa [Run.stageRecords_g])
  · rw [Run.bump_h] at hk
    exact (Hw.staged_of_staging hk ..).trans (Run.staged_stageRecords (r := r) (B := fun i => r.g (stepB w) + idx i * len)
      (D := fun i => r.h.staged r.e (r.g (stepA w) + i * len) len) (fun i _ => Hw.staged_length ..) (fun i hi => (hrec i hi).1) hi
      (fun j hij hj => records_apart (Nat.le_refl _) _ (hlast j hij hj).symm))

/-- TILE copies rows between two pitches. -/
theorem tile_copies (hstart : s.hw.startRun e l = r) (row rows p q : Nat) (hrow : row = (wf w 56 12 + 1) * scalarWidth (stepIn w))
    (hrows : rows = wf w 68 12 + 1) (hp : p = wf w 36 20) (hq : q = wf w 16 20)
    (hst : s.hw.stepNow e 0x0b = some (l, w)) (ha : r.g (stepA w) % 64 = 0) (hb : r.g (stepB w) % 64 = 0) (hrp : row ≤ p) (hrq : row ≤ q)
    (hsa : stageRange (r.g (stepA w)) (rows * p)) (hsb : stageRange (r.g (stepB w)) (rows * q))
    (hab : apart (r.g (stepA w)) (rows * p) (r.g (stepB w)) (rows * q)) :
    Leads (.tile e) s (fun h => r.h.stageKept h r.e (r.g (stepB w)) (rows * q) ∧ s.hw.stepped h e r.g ∧
      ∀ i, i < rows → h.staged r.e (r.g (stepB w) + i * q) row = r.h.staged r.e (r.g (stepA w) + i * p) row) := by
  obtain ⟨hok, -, -⟩ := Hw.startRun_facts hstart
  have hB (i : Nat) (hi : i < rows) : stageRange (r.g (stepB w) + i * q) row := hsb.sub (record_within hrq hi)
  refine Leads.of_reaches rfl hstart hst
    (q := r.stageRecords rows (fun i => r.g (stepB w) + i * q) (fun i => r.h.staged r.e (r.g (stepA w) + i * p) row))
    ?_ ((Run.Reaches.refl r).stageRecords _) (fun k _ => Run.stageRecords_g _ k) (fun k _ hk hstepped => ⟨?_, hstepped, fun i hi => ?_⟩)
  · dsimp only
    rw [Run.aligned_of ha, Run.aligned_of hb]
    subst hrow hrows hp hq
    exact Run.copies_staging hok (fun i hi => hsa.sub (record_within hrp hi)) hB
      (fun i j hi hj => hab.sub (record_within hrp hi) (record_within hrq hj)) false
  · exact Hw.stageKept_of_staging hk (Run.stageKept_stageRecords hsb
      (fun i hi => ⟨i * q, rfl, by rw [Hw.staged_length]; exact record_within hrq hi⟩))
  · exact (Hw.staged_of_staging hk ..).trans (Run.staged_stageRecords (r := r) (B := fun i => r.g (stepB w) + i * q)
      (D := fun i => r.h.staged r.e (r.g (stepA w) + i * p) row) (fun i _ => Hw.staged_length ..) hB hi
      (fun j hij _ => records_apart hrq _ (Nat.ne_of_lt hij)))

/-- The length of a pattern of 8 bytes laid end to end. -/
theorem pattern_length (c n : Nat) : ((List.replicate n (natBytes c 8)).flatten).length = 8 * n := by
  simp [natBytes, Nat.mul_comm]

/-- FILL in units is one write of its pattern. -/
theorem Run.fill_staging (hok : r.ok = true) {b : Nat} (c n : Nat) (hsb : stageRange b (64 * n)) :
    (units (n * 64)).foldl (fun r u => r.write (b + u.1) ((List.replicate (u.2 / 8) (natBytes c 8)).flatten)) r =
      r.stageWrite b ((List.replicate (8 * n) (natBytes c 8)).flatten) := by
  rw [units_eq_pieces]
  have h0 : r = r.stageWrite b ((List.replicate (0 / 8) (natBytes c 8)).flatten) := rfl
  conv_lhs => rw [h0]
  rw [foldl_pieces_at _ (fun i => r.stageWrite b ((List.replicate (i / 8) (natBytes c 8)).flatten)) (by decide) (fun i m hm _ hi hlast => ?_)]
  · rw [show n * 64 / 8 = 8 * n by omega]
  · have hlen (i : Nat) (hi : i % 8 = 0) : ((List.replicate (i / 8) (natBytes c 8)).flatten).length = i := by
      rw [pattern_length]
      omega
    have hi' := hlen i (by omega)
    have hm' := hlen m (by omega)
    dsimp only
    rw [Run.write_staging (r := r.stageWrite b _) hok (by rw [hm']; exact hsb.sub (by omega))]
    have happ := Run.stageWrite_append (r := r) (a := b) ((List.replicate (i / 8) (natBytes c 8)).flatten)
      ((List.replicate (m / 8) (natBytes c 8)).flatten) (by rw [hi', hm']; exact hsb.take (by omega))
    rw [hi'] at happ
    rw [happ, ← List.flatten_append, List.replicate_append_replicate, show i / 8 + m / 8 = (i + m) / 8 by omega]

theorem fill_writes (hstart : s.hw.startRun e l = r) (hst : s.hw.stepNow e 0x07 = some (l, w)) (hb : r.g (stepB w) % 64 = 0)
    (hsb : stageRange (r.g (stepB w)) (64 * stepN w)) (hvb : advances w 1 (r.g (stepB w)) (64 * stepN w)) :
    Leads (.fill e) s (fun h =>
      h.staged r.e (r.g (stepB w)) (64 * stepN w) = (List.replicate (8 * stepN w) (natBytes (r.g (stepC w)) 8)).flatten ∧
      r.h.stageKept h r.e (r.g (stepB w)) (64 * stepN w) ∧ s.hw.stepped h e (bumped w 1 (stepB w) (64 * stepN w) r.g)) := by
  obtain ⟨hok, -, -⟩ := Hw.startRun_facts hstart
  refine Leads.of_reaches rfl hstart hst
    (q := (r.stageWrite (r.g (stepB w)) ((List.replicate (8 * stepN w) (natBytes (r.g (stepC w)) 8)).flatten)).bump (stepFlag w 1)
      (stepB w) (64 * stepN w)) ?_ (((Run.Reaches.refl r).stageWrite _ _).bump _ _ _)
    (Run.g_bump_bumped (fun _ _ => rfl) w 1 _ (stepB_lt w)) (fun k _ hk hstepped => ?_)
  · dsimp only
    rw [Run.aligned_of hb, Run.fill_staging hok _ _ hsb, Nat.mul_comm (stepN w)]
    exact Run.advance_staging (r := r.stageWrite _ _) hok hsb hvb
  · rw [Run.bump_h] at hk
    obtain ⟨hdst, hkept⟩ := Run.stageWrite_leaves (n := 64 * stepN w) hk (by rw [pattern_length]; omega)
    exact ⟨hdst, hkept, hstepped⟩

theorem xorBytes_length (x y : List Byte) : (xorBytes x y).length = min x.length y.length := by
  simp [xorBytes]

/-- The XOR of parts is part of the XOR. -/
theorem xorBytes_sub (x y : List Byte) (i m : Nat) :
    xorBytes ((x.drop i).take m) ((y.drop i).take m) = ((xorBytes x y).drop i).take m := by
  simp only [xorBytes, List.zip, ← List.map_drop, ← List.map_take, List.drop_zipWith, List.take_zipWith]

/-- DELTA in units is one write of the XOR. -/
theorem Run.delta_staging (hok : r.ok = true) {a b c n : Nat} (hsa : stageRange a n) (hsb : stageRange b n) (hsc : stageRange c n)
    (hab : apart a n b n) (hcb : apart c n b n) :
    (units n).foldl (fun r u =>
      let (x, r) := r.readClean (a + u.1) u.2
      let (y, r) := r.readClean (c + u.1) u.2
      r.write (b + u.1) (xorBytes x y)) r = r.stageWrite b (xorBytes (r.h.staged r.e a n) (r.h.staged r.e c n)) := by
  rw [units_eq_pieces]
  have hlen : (xorBytes (r.h.staged r.e a n) (r.h.staged r.e c n)).length = n := by
    rw [xorBytes_length, Hw.staged_length, Hw.staged_length, Nat.min_self]
  generalize hx : xorBytes (r.h.staged r.e a n) (r.h.staged r.e c n) = x at hlen
  have h0 : r = r.stageWrite b (x.take 0) := rfl
  conv_lhs => rw [h0]
  rw [foldl_pieces _ (fun i => r.stageWrite b (x.take i)) (by decide) (fun i m hm _ => ?_)]
  · rw [List.take_of_length_le (Nat.le_of_eq hlen)]
  · have hi : (x.take i).length = i := by rw [List.length_take]; omega
    have hm' : ((x.drop i).take m).length = m := by rw [List.length_take, List.length_drop]; omega
    have hbi : stageRange b (x.take i).length := by rw [hi]; exact hsb.take (by omega)
    have hread (a : Nat) (hsa : stageRange a n) (hab : apart a n b n) :
        (r.stageWrite b (x.take i)).readClean (a + i) m = (((r.h.staged r.e a n).drop i).take m, r.stageWrite b (x.take i)) := by
      rw [Run.readClean_staging (r := r.stageWrite b _) hok (hsa.sub hm), Run.stageWrite_e,
        Run.staged_stageWrite_apart (hsa.sub hm) hbi (by rw [hi]; exact hab.sub (j := 0) hm (by omega)), Hw.staged_sub _ _ hsa hm]
    dsimp only
    rw [hread a hsa hab]
    dsimp only
    rw [hread c hsc hcb]
    dsimp only
    rw [xorBytes_sub, hx, Run.write_staging (r := r.stageWrite b _) hok (by rw [hm']; exact hsb.sub hm)]
    have happ := Run.stageWrite_append (r := r) (x.take i) ((x.drop i).take m) (by rw [hi, hm']; exact hsb.take hm)
    rw [hi] at happ
    rw [happ, List.take_add]

theorem delta_writes (hstart : s.hw.startRun e l = r) (hst : s.hw.stepNow e 0x09 = some (l, w)) (ha : r.g (stepA w) % 64 = 0)
    (hb : r.g (stepB w) % 64 = 0) (hc : r.g (stepC w) % 64 = 0) (hsa : stageRange (r.g (stepA w)) (64 * stepN w))
    (hsb : stageRange (r.g (stepB w)) (64 * stepN w)) (hsc : stageRange (r.g (stepC w)) (64 * stepN w))
    (hab : apart (r.g (stepA w)) (64 * stepN w) (r.g (stepB w)) (64 * stepN w))
    (hcb : apart (r.g (stepC w)) (64 * stepN w) (r.g (stepB w)) (64 * stepN w)) (h0 : stepFlag w 0 = false) (h1 : stepFlag w 1 = false)
    (h5 : stepFlag w 5 = false) :
    Leads (.delta e) s (fun h => h.staged r.e (r.g (stepB w)) (64 * stepN w) =
        xorBytes (r.h.staged r.e (r.g (stepA w)) (64 * stepN w)) (r.h.staged r.e (r.g (stepC w)) (64 * stepN w)) ∧
      r.h.stageKept h r.e (r.g (stepB w)) (64 * stepN w) ∧ s.hw.stepped h e r.g) := by
  obtain ⟨hok, -, -⟩ := Hw.startRun_facts hstart
  refine Leads.of_reaches rfl hstart hst
    (q := r.stageWrite (r.g (stepB w))
      (xorBytes (r.h.staged r.e (r.g (stepA w)) (64 * stepN w)) (r.h.staged r.e (r.g (stepC w)) (64 * stepN w))))
    ?_ ((Run.Reaches.refl r).stageWrite _ _) (fun _ _ => rfl) (fun k _ hk hstepped => ?_)
  · dsimp only
    rw [Run.aligned_of ha, Run.aligned_of hb, Run.aligned_of hc, Nat.mul_comm (stepN w)]
    have hdelta := Run.delta_staging hok hsa hsb hsc hab hcb
    dsimp only at hdelta
    rw [hdelta, Run.advance_unflagged h0, Run.advance_unflagged h1, Run.advance_unflagged h5]
  · have hlen := xorBytes_length (r.h.staged r.e (r.g (stepA w)) (64 * stepN w)) (r.h.staged r.e (r.g (stepC w)) (64 * stepN w))
    rw [Hw.staged_length, Hw.staged_length, Nat.min_self] at hlen
    obtain ⟨hdst, hkept⟩ := Run.stageWrite_leaves hk hlen
    exact ⟨hdst, hkept, hstepped⟩

end

/-- Settles O35: a step over staging is one write of its bytes, or one for each of its records. -/
theorem copySteps : Obligations.CopySteps := by
  intro e l w s
  exact ⟨move_copies rfl, gather_copies rfl _ _ rfl rfl, scatter_copies rfl _ _ rfl rfl, tile_copies rfl _ _ _ _ rfl rfl rfl rfl,
    fill_writes rfl, delta_writes rfl⟩

end Sys2Proof.Machine
end

section
/-! Steps that take streams from staging: DIGEST, PACKZ, REDUCE and INGEST (R175, R184, R219, R281). -/

namespace Sys2Proof.Machine

/-! ### Digest contexts -/

section

variable {r : Run}

theorem Run.ctx_setCtx {i : Nat} (hi : i < (r.h.eng r.e).sha.length) (d : List Byte) : (r.setCtx i d).ctx i = d := by
  rw [Run.ctx, show (r.setCtx i d).e = r.e from rfl, Run.setCtx, Run.eng_modEng]
  simp [hi]

theorem Run.sha_setCtx (i : Nat) (d : List Byte) : (((r.setCtx i d).h.eng r.e).sha).length = (r.h.eng r.e).sha.length := by
  rw [Run.setCtx, Run.eng_modEng, List.length_set]

theorem Run.Reaches.setCtx {q : Run} (h : r.Reaches q) (i : Nat) (d : List Byte) : r.Reaches (q.setCtx i d) :=
  h.modEng (fun _ => ⟨rfl, rfl⟩)

theorem Run.Reaches.closeCtx {q : Run} (h : r.Reaches q) (i : Nat) : r.Reaches (q.closeCtx i) := by
  have hdrawn : r.Reaches { q with h := (q.h.draw 64).2 } := h
  exact hdrawn.setCtx i _

theorem Run.staging_closeCtx (i : Nat) : (r.closeCtx i).h.car.staging = r.h.car.staging := rfl

end

section

variable {e : EngIx} {l : Launch} {w : BitVec 128} {s : State} {r : Run}

/-- What DIGEST has absorbed when its stream has been read. -/
def Run.digested (r : Run) (w : BitVec 128) (data : List Byte) : List Byte :=
  (if stepFlag w 3 then [] else r.ctx (wf w 0 2)) ++ data

/-- DIGEST with its stream absorbed, an empty context first under INIT. -/
def Run.absorbed (r : Run) (w : BitVec 128) (data : List Byte) : Run :=
  (if stepFlag w 3 then r.setCtx (wf w 0 2) [] else r).setCtx (wf w 0 2) (r.digested w data)

theorem Run.Reaches.absorbed (w : BitVec 128) (data : List Byte) : r.Reaches (r.absorbed w data) := by
  unfold Run.absorbed
  split
  · exact ((Run.Reaches.refl r).setCtx _ _).setCtx _ _
  · exact (Run.Reaches.refl r).setCtx _ _

theorem Run.absorbed_keeps (w : BitVec 128) (data : List Byte) :
    (r.absorbed w data).h.car.staging = r.h.car.staging ∧ (∀ k, (r.absorbed w data).g k = r.g k) := by
  unfold Run.absorbed
  split <;> exact ⟨rfl, fun _ => rfl⟩

theorem Run.ctx_absorbed (w : BitVec 128) (data : List Byte) (hsha : (r.h.eng r.e).sha.length = 4) :
    (r.absorbed w data).ctx (wf w 0 2) = r.digested w data := by
  have hi : wf w 0 2 < 4 := (w.extractLsb' 0 2).isLt
  unfold Run.absorbed
  split
  · refine Run.ctx_setCtx ?_ _
    exact (Nat.lt_of_lt_of_eq hi hsha.symm).trans_eq (Run.sha_setCtx (r := r) _ _).symm
  · exact Run.ctx_setCtx (by rw [hsha]; exact hi) _

/-- INIT's empty context, or the one there was, takes the stream. -/
theorem Run.absorbed_of_begun (w : BitVec 128) (data : List Byte) (hsha : (r.h.eng r.e).sha.length = 4) :
    (if stepFlag w 3 then r.setCtx (wf w 0 2) [] else r).setCtx (wf w 0 2)
      ((if stepFlag w 3 then r.setCtx (wf w 0 2) [] else r).ctx (wf w 0 2) ++ data) = r.absorbed w data := by
  have hi : wf w 0 2 < 4 := (w.extractLsb' 0 2).isLt
  unfold Run.absorbed Run.digested
  split
  · rw [Run.ctx_setCtx (by rw [hsha]; exact hi)]
  · rfl

/-- The stream of a DIGEST step in staging is absorbed. -/
theorem Run.digest_stream (hok : r.ok = true) {a n : Nat} (hsa : stageRange a n) (w : BitVec 128) :
    (if stepFlag w 3 then r.setCtx (wf w 0 2) [] else r).stream a n =
      (r.h.staged r.e a n, if stepFlag w 3 then r.setCtx (wf w 0 2) [] else r) := by
  split
  · exact Run.stream_staging (r := r.setCtx (wf w 0 2) []) hok hsa
  · exact Run.stream_staging hok hsa

/-- DIGEST has absorbed its stream in staging. -/
theorem Run.digest_staging (hok : r.ok = true) {a n : Nat} (hsa : stageRange a n) (hsha : (r.h.eng r.e).sha.length = 4) :
    (let t := (if stepFlag w 3 then r.setCtx (wf w 0 2) [] else r).stream a n
      if t.2.ok then t.2.setCtx (wf w 0 2) (t.2.ctx (wf w 0 2) ++ t.1) else t.2) = r.absorbed w (r.h.staged r.e a n) := by
  have hbegun : (if stepFlag w 3 then r.setCtx (wf w 0 2) [] else r).ok = true := by
    split <;> exact hok
  rw [Run.digest_stream hok hsa]
  dsimp only
  rw [if_pos hbegun, Run.absorbed_of_begun w _ hsha]

theorem digest_absorbs (hstart : s.hw.startRun e l = r) (hst : s.hw.stepNow e 0x08 = some (l, w)) (ha : r.g (stepA w) % 64 = 0)
    (hsa : stageRange (r.g (stepA w)) (stepN w * 64)) (hva : advances w 0 (r.g (stepA w)) (stepN w * 64))
    (hsha : (r.h.eng r.e).sha.length = 4) (hfinal : stepFlag w 4 = false) :
    Leads (.digest e) s (fun h =>
      (h.eng e).sha.getD (wf w 0 2) [] = r.digested w (r.h.staged r.e (r.g (stepA w)) (stepN w * 64)) ∧
      s.hw.stepped h e (bumped w 0 (stepA w) (stepN w * 64) r.g)) := by
  obtain ⟨hok, he, -⟩ := Hw.startRun_facts hstart
  have hq := Run.Reaches.absorbed (r := r) w (r.h.staged r.e (r.g (stepA w)) (stepN w * 64))
  have habsorbed := Run.digest_staging (w := w) hok hsa hsha
  have hctx := Run.ctx_absorbed (r := r) w (r.h.staged r.e (r.g (stepA w)) (stepN w * 64)) hsha
  obtain ⟨-, hg⟩ := Run.absorbed_keeps (r := r) w (r.h.staged r.e (r.g (stepA w)) (stepN w * 64))
  generalize r.absorbed w (r.h.staged r.e (r.g (stepA w)) (stepN w * 64)) = q at hq habsorbed hctx hg
  refine Leads.of_reaches rfl hstart hst (q := q.bump (stepFlag w 0) (stepA w) (stepN w * 64)) ?_ (hq.bump _ _ _)
    (Run.g_bump_bumped (fun k _ => hg k) w 0 _ (stepA_lt w)) (fun k hends _ hstepped => ⟨?_, hstepped⟩)
  · dsimp only at habsorbed ⊢
    simp only [hfinal, Bool.false_eq_true, if_false]
    rw [Run.aligned_of ha, ite_self, habsorbed]
    obtain ⟨hqok, -⟩ := hq
    exact Run.advance_staging (by rw [hqok, hok]) (by rwa [hg]) (by rwa [hg])
  · rw [hends.eng, Run.bump_h, ← hctx, Run.ctx, hq.2.1, he]

theorem digest_finals (hstart : s.hw.startRun e l = r) (hst : s.hw.stepNow e 0x08 = some (l, w)) (ha : r.g (stepA w) % 64 = 0)
    (hsa : stageRange (r.g (stepA w)) (stepN w * 64)) (hva : advances w 0 (r.g (stepA w)) (stepN w * 64))
    (hsha : (r.h.eng r.e).sha.length = 4) (hfinal : stepFlag w 4 = true) (hb : r.g (stepB w) % 64 = 0) (d : List Byte)
    (hd : d = sha384 (r.digested w (r.h.staged r.e (r.g (stepA w)) (stepN w * 64))) ++ List.replicate 16 0)
    (hsb : stageRange (r.g (stepB w)) d.length) :
    Leads (.digest e) s (fun h => h.staged r.e (r.g (stepB w)) d.length = d ∧ r.h.stageKept h r.e (r.g (stepB w)) d.length ∧
      s.hw.stepped h e (bumped w 0 (stepA w) (stepN w * 64) r.g)) := by
  obtain ⟨hok, -, -⟩ := Hw.startRun_facts hstart
  have hq := Run.Reaches.absorbed (r := r) w (r.h.staged r.e (r.g (stepA w)) (stepN w * 64))
  have habsorbed := Run.digest_staging (w := w) hok hsa hsha
  have hctx := Run.ctx_absorbed (r := r) w (r.h.staged r.e (r.g (stepA w)) (stepN w * 64)) hsha
  obtain ⟨hstage, hg⟩ := Run.absorbed_keeps (r := r) w (r.h.staged r.e (r.g (stepA w)) (stepN w * 64))
  rw [← hctx] at hd
  generalize r.absorbed w (r.h.staged r.e (r.g (stepA w)) (stepN w * 64)) = q at hq habsorbed hctx hg hstage hd
  have hqok : q.ok = true := hq.1.trans hok
  refine Leads.of_reaches rfl hstart hst
    (q := ((q.stageWrite (r.g (stepB w)) d).closeCtx (wf w 0 2)).bump (stepFlag w 0) (stepA w) (stepN w * 64)) ?_
    (((hq.stageWrite _ _).closeCtx _).bump _ _ _)
    (Run.g_bump_bumped (r := (q.stageWrite (r.g (stepB w)) d).closeCtx (wf w 0 2)) (fun k _ => hg k) w 0 _ (stepA_lt w))
    (fun k hends hk hstepped => ?_)
  · dsimp only at habsorbed ⊢
    simp only [hfinal, if_true]
    rw [Run.aligned_of ha, ite_self, Run.aligned_of hb, habsorbed, hg (stepB w), ← hd, Run.write_staging hqok hsb,
      if_pos (show (q.stageWrite _ d).ok = true from hqok)]
    exact Run.advance_staging (r := (q.stageWrite _ d).closeCtx _) hqok (by exact (hg (stepA w)).symm ▸ hsa) (by exact (hg (stepA w)).symm ▸ hva)
  · rw [Run.bump_h, Run.staging_closeCtx] at hk
    obtain ⟨hdst, hkept⟩ := Run.stageWrite_leaves (r := q) hk rfl
    rw [hq.2.1] at hdst hkept
    refine ⟨hdst, ?_, hstepped⟩
    unfold Hw.stageKept at hkept ⊢
    rwa [hstage] at hkept

/-! ### PACKZ -/

/-- The first `j` groups of 32 KiB from address `a`, packed. -/
def Run.packed (r : Run) (a j : Nat) : List Byte := (List.range j).flatMap (fun i => packGroup (r.h.staged r.e (a + 32768 * i) 32768))

theorem Run.packed_succ (a j : Nat) :
    r.packed a (j + 1) = r.packed a j ++ packGroup (r.h.staged r.e (a + 32768 * j) 32768) := by
  simp [Run.packed, List.range_succ, List.flatMap_append]

/-- Fewer groups pack to no more bytes. -/
theorem Run.packed_length_mono (a : Nat) {i j : Nat} (hij : i ≤ j) : (r.packed a i).length ≤ (r.packed a j).length := by
  induction hij with
  | refl => exact Nat.le_refl _
  | step _ ih =>
    rw [Run.packed_succ, List.length_append]
    omega

/-- Packing group by group is one write of the packed groups. -/
theorem Run.packz_staging (hok : r.ok = true) {a b n : Nat} (j : Nat) (hj : j * 32768 ≤ n) (hsa : stageRange a n)
    (hsb : stageRange b (r.packed a j).length) (hab : apart a n b (r.packed a j).length) :
    (List.range j).foldl (fun (t : Nat × Nat × Run) _ =>
      if (!t.2.2.ok) = true then t
      else (t.1 + 32768, t.2.1 + (packGroup (t.2.2.readClean (a + t.1) 32768).1).length,
        (t.2.2.readClean (a + t.1) 32768).2.write (b + t.2.1) (packGroup (t.2.2.readClean (a + t.1) 32768).1))) (0, 0, r) =
      (32768 * j, (r.packed a j).length, r.stageWrite b (r.packed a j)) := by
  induction j with
  | zero => rfl
  | succ j ih =>
    have hle := Run.packed_length_mono (r := r) a (Nat.le_succ j)
    have hsb' := hsb.take hle
    rw [Nat.succ_mul] at hj
    have hj' : j * 32768 ≤ n := Nat.le_of_add_right_le hj
    have hgroup : 32768 * j + 32768 ≤ n := Nat.mul_comm j 32768 ▸ hj
    have hsucc := Run.packed_succ (r := r) a j
    have hlen := congrArg List.length hsucc
    rw [List.length_append] at hlen
    have hread := Run.readClean_staging (r := r.stageWrite b (r.packed a j)) hok
      (hsa.sub hgroup)
    rw [Run.stageWrite_e, Run.staged_stageWrite_apart (hsa.sub hgroup) hsb'
      (hab.sub (j := 0) hgroup (Nat.zero_add _ ▸ hle))] at hread
    rw [List.range_succ, List.foldl_append, ih hj' hsb' (hab.sub (i := 0) (j := 0) (Nat.zero_add _).le (Nat.zero_add _ ▸ hle))]
    simp only [List.foldl_cons, List.foldl_nil, Run.stageWrite_ok, hok, Bool.not_true, Bool.false_eq_true, if_false]
    rw [hread]
    dsimp only
    rw [Run.write_staging (r := r.stageWrite b _) hok (hsb.sub (by omega)), Run.stageWrite_append _ _ (hlen ▸ hsb), ← hsucc, ← hlen,
      Nat.mul_succ]

theorem packz_packs (hstart : s.hw.startRun e l = r) (hst : s.hw.stepNow e 0x0a = some (l, w)) (h6 : stepFlag w 6 = false)
    (h0 : stepFlag w 0 = false) (h1 : stepFlag w 1 = false) (ha : r.g (stepA w) % 64 = 0) (hb : r.g (stepB w) % 64 = 0)
    (hsa : stageRange (r.g (stepA w)) (stepN w * 64))
    (hsb : stageRange (r.g (stepB w)) (r.packed (r.g (stepA w)) (stepN w * 64 / 32768)).length)
    (hab : apart (r.g (stepA w)) (stepN w * 64) (r.g (stepB w)) (r.packed (r.g (stepA w)) (stepN w * 64 / 32768)).length) :
    Leads (.packz e) s (fun h =>
      h.staged r.e (r.g (stepB w)) (r.packed (r.g (stepA w)) (stepN w * 64 / 32768)).length =
        r.packed (r.g (stepA w)) (stepN w * 64 / 32768) ∧
      s.hw.stepped h e (fun k => if k = stepD w then (r.packed (r.g (stepA w)) (stepN w * 64 / 32768)).length else r.g k)) := by
  obtain ⟨hok, -, -⟩ := Hw.startRun_facts hstart
  have hfold := Run.packz_staging hok (stepN w * 64 / 32768) (Nat.div_mul_le_self ..) hsa hsb hab
  generalize r.packed (r.g (stepA w)) (stepN w * 64 / 32768) = d at hsb hab hfold
  refine Leads.of_reaches rfl hstart hst (q := (r.stageWrite (r.g (stepB w)) d).setG (stepD w) d.length) ?_
    (((Run.Reaches.refl r).stageWrite _ _).setG _ _) (fun k hk => ?_) (fun k _ hk hstepped => ⟨?_, hstepped⟩)
  · dsimp only
    simp only [h6, Bool.false_eq_true, if_false]
    rw [Run.aligned_of ha, Run.aligned_of hb, hfold]
    dsimp only
    rw [Run.advance_unflagged h0, Run.advance_unflagged h1]
    exact if_pos hok
  · have hlt : d.length < 2 ^ 64 := by
      have := hsb.2
      unfold stagingSize at this
      omega
    rw [Run.g_setG _ _ _ hk, Nat.mod_eq_of_lt hlt]
    rfl
  · exact (Run.stageWrite_leaves hk rfl).1

theorem packz_expands (hstart : s.hw.startRun e l = r) (mask m : Nat) (d : List Byte)
    (hmask : mask = bytesNat (r.h.staged r.e (r.g (stepA w)) 64))
    (hm : m = 64 * ((List.range 512).filter (fun j => mask.testBit j)).length)
    (hd : d = expandGroup mask (r.h.staged r.e (r.g (stepA w) + 64) m)) (hst : s.hw.stepNow e 0x0a = some (l, w))
    (h6 : stepFlag w 6 = true) (h0 : stepFlag w 0 = false) (h1 : stepFlag w 1 = false) (hn : stepN w * 64 = 32768)
    (ha : r.g (stepA w) % 64 = 0) (hb : r.g (stepB w) % 64 = 0) (hsa : stageRange (r.g (stepA w)) (64 + m))
    (hsb : stageRange (r.g (stepB w)) d.length) :
    Leads (.packz e) s (fun h => h.staged r.e (r.g (stepB w)) d.length = d ∧
      s.hw.stepped h e (fun k => if k = stepD w then 64 + m else r.g k)) := by
  obtain ⟨hok, -, -⟩ := Hw.startRun_facts hstart
  refine Leads.of_reaches rfl hstart hst (q := (r.stageWrite (r.g (stepB w)) d).setG (stepD w) (64 + m)) ?_
    (((Run.Reaches.refl r).stageWrite _ _).setG _ _) (fun k hk => ?_) (fun k _ hk hstepped => ⟨?_, hstepped⟩)
  · have hrange : List.range (32768 / 32768) = [0] := rfl
    dsimp only
    simp only [h6, if_true]
    rw [Run.aligned_of ha, Run.aligned_of hb, hn, hrange]
    simp only [List.foldl_cons, List.foldl_nil, hok, Bool.not_true, Bool.false_eq_true, if_false, Nat.add_zero, Nat.zero_add]
    rw [Run.readClean_staging hok (hsa.take (by omega))]
    dsimp only
    rw [← hmask, ← hm, Run.readClean_staging hok (hsa.sub (Nat.le_refl _))]
    dsimp only
    rw [← hd, Run.write_staging hok hsb, Run.advance_unflagged h0, Run.advance_unflagged h1]
    exact if_pos hok
  · have hlt : 64 + m < 2 ^ 64 := by
      have := hsa.2
      unfold stagingSize at this
      omega
    rw [Run.g_setG _ _ _ hk, Nat.mod_eq_of_lt hlt]
    rfl
  · exact (Run.stageWrite_leaves hk rfl).1

/-! ### REDUCE -/

/-- The contribution that REDUCE step `w` sends: `len` bytes of chunk `c` of its session. -/
def Run.contribution (r : Run) (w : BitVec 128) (len c : Nat) : Piece :=
  { trk := 0, op := 4, stack := r.h.accStack (wf w 72 8), off := c, dpa := wf w 60 12, len := len,
    data := r.h.staged r.e (r.g (stepA w)) len, subop := wf w 72 8, source := r.e + 1 }

/-- The contribution stands at the slice that accumulates. -/
def Run.contributed (r : Run) (p : Piece) : Run :=
  let sent := Table.put r.h.red.accIn p.stack (Table.atD r.h.red.accIn (fun _ => []) p.stack ++ [p])
  { r with h := { r.h with red.accIn := sent } }

theorem Run.Reaches.contributed (p : Piece) : r.Reaches (r.contributed p) := Run.Reaches.refl r

/-- A register that goes up by 1 at the end of a step that goes on. -/
theorem Run.bump_of_advanced {x y : Run} (hxy : x = y) (hy : y.ok = true) (flag : Bool) (i : Nat) :
    (if (flag && x.ok) = true then x.setG i (x.g i + 1) else x) = y.bump flag i 1 := by
  rw [hxy, hy, Bool.and_true, Run.bump]

theorem reduce_sends (hstart : s.hw.startRun e l = r) (len c : Nat) (hlen : len = (wf w 56 2 + 1) * 64) (hc : c = r.g (stepB w) % 2 ^ 32)
    (hst : s.hw.stepNow e 0x05 = some (l, w)) (ha : r.g (stepA w) % 64 = 0) (hsa : stageRange (r.g (stepA w)) len)
    (hstate : r.h.reg Od.redState (wf w 72 8) = 2) (hbind : r.bind.testBit (r.h.reg Od.redPartition (wf w 72 8)) = true)
    (hfmt : stepIn w = r.h.reg Od.redFmtIn (wf w 72 8)) (hchunk : c < r.h.chunkCount (wf w 72 8))
    (hk : wf w 60 12 < r.h.reg Od.redContributors (wf w 72 8)) (hin : len = r.h.inputLen (wf w 72 8) c)
    (hva : advances w 0 (r.g (stepA w)) len) :
    Leads (.reduce e) s (fun h =>
      Table.atD h.red.accIn (fun _ => []) (r.h.accStack (wf w 72 8)) =
        Table.atD r.h.red.accIn (fun _ => []) (r.h.accStack (wf w 72 8)) ++ [r.contribution w len c] ∧
      s.hw.stepped h e (bumped w 1 (stepB w) 1 (bumped w 0 (stepA w) len r.g))) := by
  obtain ⟨hok, -, -⟩ := Hw.startRun_facts hstart
  refine Leads.of_reaches rfl hstart hst
    (q := ((r.contributed (r.contribution w len c)).bump (stepFlag w 0) (stepA w) len).bump (stepFlag w 1) (stepB w) 1) ?_
    (((Run.Reaches.contributed _).bump _ _ _).bump _ _ _)
    (Run.g_bump_bumped (Run.g_bump_bumped (r := r.contributed _) (g := r.g) (fun _ _ => rfl) w 0 _ (stepA_lt w)) w 1 _ (stepB_lt w))
    (fun k hends _ hstepped => ⟨?_, hstepped⟩)
  · dsimp only
    rw [Run.aligned_of ha, if_pos (And.intro hstate hbind), if_pos hfmt, ← hlen, ← hc, if_pos (And.intro hchunk (And.intro hk hin)),
      Run.stream_staging hok hsa]
    dsimp only
    rw [if_neg (by rw [hok]; decide)]
    refine Run.bump_of_advanced (Run.advance_staging (r := r.contributed (r.contribution w len c)) hok hsa hva) ?_ _ _
    rw [Run.bump_ok]
    exact hok
  · have hred : k.red = _ := hends.within.same .reductions (by decide)
    rw [hred, Run.bump_h, Run.bump_h]
    exact Table.atD_put_same ..

/-! ### INGEST -/

theorem gcmDec_length (key iv aad text : List Byte) : (gcmDec key iv aad text).1.length ≤ text.length := by
  unfold gcmDec
  dsimp only
  rw [xorBytes_length]
  exact Nat.min_le_left ..

/-- The stream that the descriptor `blk` of an INGEST describes, with ciphertext `text`. -/
def gcmStream (blk text : List Byte) : Gcm := { iv := blk.take 12, aad := (blk.drop 28).take 8, text := text }

/-- INIT of an INGEST: an empty context and an empty stream. -/
def Run.ingesting (r : Run) (w : BitVec 128) (blk : List Byte) : Run :=
  (r.setCtx (wf w 8 2) []).modEng (fun x => { x with gcm := x.gcm.set (wf w 8 2) (some (gcmStream blk [])) })

/-- INGEST with INIT has taken `text` into its stream. -/
def Run.ingested (r : Run) (w : BitVec 128) (blk text : List Byte) : Run :=
  (r.ingesting w blk).modEng (fun x => { x with gcm := x.gcm.set (wf w 8 2) (some (gcmStream blk text)) })

/-- What INGEST does with the plaintext and the tag of its stream. -/
def Run.ingestEnd (r : Run) (w : BitVec 128) (part : Option Nat) (blk plain tag : List Byte) : Run :=
  let n := stepN w * 64
  let i := wf w 8 2
  let b := r.g (stepB w)
  let bad := stepFlag w 4 && tag != (blk.drop 12).take 16
  let out := if bad then List.replicate n 0 else plain
  let r := (units n).foldl (fun r u => r.write (b + u.1) ((out.drop u.1).take u.2)) r
  if bad then r.stop Cf.ingestAuth
  else
    let r := if r.ok then r.setCtx i (r.ctx i ++ plain) else r
    let r := if stepFlag w 4 && r.ok then
        { r with h := r.h.foldWeight (part.getD 0) (leAt blk 28 8) (r.ctx i) }.closeCtx i
      else r
    (r.advance (stepFlag w 0) (stepA w) n).advance (stepFlag w 1) (stepB w) n

theorem Run.Reaches.ingested (w : BitVec 128) (blk text : List Byte) : r.Reaches (r.ingested w blk text) := by
  unfold Run.ingested Run.ingesting
  refine Run.Reaches.modEng (Run.Reaches.modEng ((Run.Reaches.refl r).setCtx _ _) ?_) ?_
  · exact fun _ => ⟨rfl, rfl⟩
  · exact fun _ => ⟨rfl, rfl⟩

theorem Run.eng_ingesting (w : BitVec 128) (blk : List Byte) :
    (r.ingesting w blk).h.eng r.e =
      { r.h.eng r.e with
        sha := (r.h.eng r.e).sha.set (wf w 8 2) []
        gcm := (r.h.eng r.e).gcm.set (wf w 8 2) (some (gcmStream blk [])) } := by
  refine (Run.eng_modEng (r.setCtx (wf w 8 2) []) _).trans ?_
  rw [show (r.setCtx (wf w 8 2) []).h.eng (r.setCtx (wf w 8 2) []).e = _ from Run.eng_modEng r _]

/-- The context of a stream that INIT began has taken nothing yet. -/
theorem Run.ctx_ingested (w : BitVec 128) (blk text : List Byte) (hsha : (r.h.eng r.e).sha.length = 4) :
    (r.ingested w blk text).ctx (wf w 8 2) = [] ∧ (((r.ingested w blk text).h.eng r.e).sha).length = 4 := by
  have hi : wf w 8 2 < 4 := (w.extractLsb' 8 2).isLt
  have heng : ((r.ingested w blk text).h.eng r.e).sha = (r.h.eng r.e).sha.set (wf w 8 2) [] := by
    refine (congrArg Engine.sha (Run.eng_modEng (r.ingesting w blk) _)).trans ?_
    exact congrArg Engine.sha (Run.eng_ingesting (r := r) w blk)
  refine ⟨?_, by rw [heng, List.length_set, hsha]⟩
  rw [Run.ctx, show (r.ingested w blk text).e = r.e from rfl, heng]
  simp [hsha, hi]

/-- The stream that INIT began is the one that the step adds its text to. -/
theorem Run.gcm_ingesting (w : BitVec 128) (blk text : List Byte) (hgcm : (r.h.eng r.e).gcm.length = 4) :
    (((r.ingesting w blk).h.eng r.e).gcm.getD (wf w 8 2) none).map (fun (g : Gcm) => { g with text := g.text ++ text }) =
      some (gcmStream blk text) := by
  have hi : wf w 8 2 < 4 := (w.extractLsb' 8 2).isLt
  rw [Run.eng_ingesting]
  simp [hgcm, hi, gcmStream]

/-- The plaintext and the tag of a stream whose text is `n` bytes. -/
theorem Hw.gcmOf_stream (h : Hw) (key blk text : List Byte) {n : Nat} (hn : text.length = n) :
    h.gcmOf key (some (gcmStream blk text)) n = ((gcmDec key (blk.take 12) ((blk.drop 28).take 8) text).1,
      (gcmDec key (blk.take 12) ((blk.drop 28).take 8) text).2, h) := by
  have hdrop (p : List Byte) : p.drop (text.length - n) = p := by
    rw [hn, Nat.sub_self]
    rfl
  exact congrArg (fun p => (p, (gcmDec key (blk.take 12) ((blk.drop 28).take 8) text).2, h)) (hdrop _)

/-- What an INGEST step with INIT needs of its operands and of its key slot. -/
structure Run.Ingests (r : Run) (w : BitVec 128) : Prop where
  ok : r.ok = true
  init : stepFlag w 3 = true
  a : r.g (stepA w) % 64 = 0
  b : r.g (stepB w) % 64 = 0
  c : r.g (stepC w) % 64 = 0
  sa : stageRange (r.g (stepA w)) (stepN w * 64)
  sb : stageRange (r.g (stepB w)) (stepN w * 64)
  sc : stageRange (r.g (stepC w)) 64
  blk : bytesNat ((r.h.staged r.e (r.g (stepC w)) 64).drop 36) = 0
  part : r.h.partOf (r.e / 4) = some (r.h.reg Od.wkPartition (wf w 0 8))
  key : (Table.look r.h.car.weightKeys (wf w 0 8)).isSome = true
  gcm : (r.h.eng r.e).gcm.length = 4
  sha : (r.h.eng r.e).sha.length = 4

/-- The key of the slot that INGEST step `w` names. -/
def Run.slotKey (r : Run) (w : BitVec 128) : List Byte := bytesOf (Table.atD r.h.car.weightKeys (fun _ => 0) (wf w 0 8)) 32

/-- Plaintext and tag of an INGEST step with INIT: its stream under the slot's key by the descriptor's vector. -/
def Run.decrypted (r : Run) (w : BitVec 128) : List Byte × List Byte :=
  gcmDec (r.slotKey w) ((r.h.staged r.e (r.g (stepC w)) 64).take 12) (((r.h.staged r.e (r.g (stepC w)) 64).drop 28).take 8)
    (r.h.staged r.e (r.g (stepA w)) (stepN w * 64))

/-- The function of row INGEST. -/
def Run.ingest (r : Run) (w : BitVec 128) : Run :=
  (r.ingested w (r.h.staged r.e (r.g (stepC w)) 64) (r.h.staged r.e (r.g (stepA w)) (stepN w * 64))).ingestEnd w
    (some (r.h.reg Od.wkPartition (wf w 0 8))) (r.h.staged r.e (r.g (stepC w)) 64) (r.decrypted w).1 (r.decrypted w).2

/-- A step of INGEST whose operands lie in staging, and what it comes to. -/
theorem ingest_runs (hr : r.Ingests w) : ∃ f, (∀ s, exec (.ingest e) s = .next { s with hw := s.hw.runStep e 0x0e anyWord f }) ∧
    f w r = r.ingest w := by
  refine ⟨_, fun s => rfl, ?_⟩
  extract_lets +onlyGivenNames n a b c i slot aligned staged
  have hstaged : staged = r := by
    unfold staged aligned
    rw [if_pos hr.sc.inStage, Run.aligned_of hr.a, Run.aligned_of hr.b, Run.aligned_of hr.c]
  rw [hstaged, Run.readClean_staging hr.ok hr.sc]
  dsimp -zeta only
  extract_lets +onlyGivenNames blank part keyed key fresh begun
  have hblank : blank = r := if_pos hr.blk
  have hpart : part = some (r.h.reg Od.wkPartition (wf w 0 8)) := by
    unfold part
    rw [hblank, Run.partAt, if_pos hr.sb.inStage, hr.part]
  have hkeyed : keyed = r := by
    unfold keyed
    rw [hpart, hblank]
    exact if_pos ⟨rfl, hr.key⟩
  have hbegun : begun = r.ingesting w (r.h.staged r.e c 64) := by
    unfold begun
    rw [if_pos hr.init, hkeyed]
    rfl
  rw [hbegun, Run.stream_staging (r := r.ingesting w _) hr.ok hr.sa]
  dsimp -zeta only
  rw [if_neg (by rw [show (r.ingesting w _).ok = true from hr.ok]; decide)]
  extract_lets +onlyGivenNames stream
  have hstream : stream = some (gcmStream (r.h.staged r.e c 64) (r.h.staged r.e a n)) := Run.gcm_ingesting w _ _ hr.gcm
  have hkey : key = r.slotKey w := by
    unfold key
    rw [hkeyed]
    rfl
  rw [hstream, Hw.gcmOf_stream _ _ _ _ (Hw.staged_length ..), hkey, hpart]
  dsimp -zeta only
  extract_lets +onlyGivenNames taken
  have htaken : taken = r.ingested w (r.h.staged r.e c 64) (r.h.staged r.e a n) := rfl
  rw [htaken]
  unfold Run.ingest Run.decrypted
  dsimp -zeta only [a, b, c, i, n]
  generalize gcmDec _ _ _ _ = p
  generalize hq : r.ingested w _ _ = q
  have hg : q.g (stepB w) = r.g (stepB w) := hq ▸ rfl
  rw [Run.ingestEnd, hg]

theorem Run.decrypted_length (r : Run) (w : BitVec 128) : (r.decrypted w).1.length ≤ stepN w * 64 := by
  have h := gcmDec_length (r.slotKey w) ((r.h.staged r.e (r.g (stepC w)) 64).take 12)
    (((r.h.staged r.e (r.g (stepC w)) 64).drop 28).take 8) (r.h.staged r.e (r.g (stepA w)) (stepN w * 64))
  rwa [Hw.staged_length] at h

/-- INGEST that is not the last of its stream writes and absorbs its plaintext. -/
theorem ingest_decrypts (hstart : s.hw.startRun e l = r) (hst : s.hw.stepNow e 0x0e = some (l, w)) (hr : r.Ingests w)
    (hfinal : stepFlag w 4 = false) (hva : advances w 0 (r.g (stepA w)) (stepN w * 64)) (hvb : advances w 1 (r.g (stepB w)) (stepN w * 64))
    (hab : apart (r.g (stepA w)) (stepN w * 64) (r.g (stepB w)) (stepN w * 64)) :
    Leads (.ingest e) s (fun h =>
      (h.staged r.e (r.g (stepB w)) (stepN w * 64)).take (r.decrypted w).1.length = (r.decrypted w).1 ∧
      (h.eng e).sha.getD (wf w 8 2) [] = (r.decrypted w).1 ∧
      s.hw.stepped h e (bumped w 1 (stepB w) (stepN w * 64) (bumped w 0 (stepA w) (stepN w * 64) r.g))) := by
  obtain ⟨-, he, -⟩ := Hw.startRun_facts hstart
  obtain ⟨f, hexec, hf⟩ := ingest_runs (e := e) hr
  have hlen := r.decrypted_length w
  unfold Run.ingest at hf
  generalize r.decrypted w = out at hlen hf
  generalize hq : r.ingested w (r.h.staged r.e (r.g (stepC w)) 64) (r.h.staged r.e (r.g (stepA w)) (stepN w * 64)) = q at hf
  have hreach : r.Reaches q := hq ▸ Run.Reaches.ingested w _ _
  obtain ⟨hctx, hsha⟩ : q.ctx (wf w 8 2) = [] ∧ ((q.h.eng r.e).sha).length = 4 := hq ▸ Run.ctx_ingested w _ _ hr.sha
  have hg : ∀ k, q.g k = r.g k := hq ▸ fun _ => rfl
  clear hq
  obtain ⟨hqok, hqe, -⟩ := id hreach
  rw [hr.ok] at hqok
  have hi : wf w 8 2 < ((q.stageWrite (r.g (stepB w)) out.1).h.eng (q.stageWrite (r.g (stepB w)) out.1).e).sha.length := by
    rw [Run.stageWrite_eng, Run.stageWrite_e, hqe, hsha]
    exact (w.extractLsb' 8 2).isLt
  refine Leads.of_reaches (hexec s) hstart hst (g := bumped w 1 (stepB w) (stepN w * 64) (bumped w 0 (stepA w) (stepN w * 64) r.g))
    (q := (((q.stageWrite (r.g (stepB w)) out.1).setCtx (wf w 8 2) out.1).bump (stepFlag w 0) (stepA w)
      (stepN w * 64)).bump (stepFlag w 1) (stepB w) (stepN w * 64)) (hf.trans ?_) ((((hreach.stageWrite _ _).setCtx _ _).bump _ _ _).bump _ _ _)
    (Run.g_bump_bumped (Run.g_bump_bumped (r := (q.stageWrite _ _).setCtx _ _) (fun k _ => hg k) w 0 _ (stepA_lt w)) w 1 _ (stepB_lt w))
    (fun k hends hk hstepped => ⟨?_, ?_, hstepped⟩)
  · unfold Run.ingestEnd
    simp only [hfinal, Bool.false_and, Bool.false_eq_true, if_false]
    rw [hg, Run.writeUnits_staging hqok hlen hr.sb, if_pos (show (q.stageWrite _ _).ok = true from hqok),
      show (q.stageWrite _ _).ctx (wf w 8 2) = [] from hctx, List.nil_append]
    refine Run.advance_two (r := (q.stageWrite _ _).setCtx _ _) (m := stepN w * 64) (m' := stepN w * 64) hqok (stepB_lt w) ?_ ?_ ?_ ?_ (fun hij => ?_)
    · exact (hg (stepA w)).symm ▸ hr.sa
    · exact (hg (stepB w)).symm ▸ hr.sb
    · exact (hg (stepA w)).symm ▸ hva
    · exact (hg (stepB w)).symm ▸ hvb
    · rw [hij] at hab
      unfold apart at hab
      omega
  · rw [Run.bump_h, Run.bump_h] at hk
    obtain ⟨hdst, -⟩ := Run.stageWrite_leaves (r := q) (b := r.g (stepB w)) hk rfl
    rw [hqe] at hdst
    have hsub := Hw.staged_sub k r.e hr.sb (i := 0) (m := out.1.length) (by omega)
    rw [List.drop_zero, Nat.add_zero, hdst] at hsub
    exact hsub.symm
  · have hctx' := Run.ctx_setCtx (r := q.stageWrite (r.g (stepB w)) out.1) hi out.1
    rw [Run.ctx, show ((q.stageWrite (r.g (stepB w)) out.1).setCtx (wf w 8 2) out.1).e = q.e from rfl, hqe, he] at hctx'
    rw [hends.eng, Run.bump_h, Run.bump_h]
    exact hctx'

/-- INGEST whose last tag does not check fills its destination with zeros and faults. -/
theorem ingest_rejects (hstart : s.hw.startRun e l = r) (hst : s.hw.stepNow e 0x0e = some (l, w)) (hr : r.Ingests w)
    (hfinal : stepFlag w 4 = true) (htag : (r.decrypted w).2 ≠ ((r.h.staged r.e (r.g (stepC w)) 64).drop 12).take 16) :
    Leads (.ingest e) s (fun h => h.faulted e Cf.ingestAuth ∧
      h.staged r.e (r.g (stepB w)) (stepN w * 64) = List.replicate (stepN w * 64) 0) := by
  obtain ⟨-, he, -⟩ := Hw.startRun_facts hstart
  obtain ⟨f, hexec, hf⟩ := ingest_runs (e := e) hr
  unfold Run.ingest at hf
  generalize r.decrypted w = out at htag hf
  generalize hq : r.ingested w (r.h.staged r.e (r.g (stepC w)) 64) (r.h.staged r.e (r.g (stepA w)) (stepN w * 64)) = q at hf
  have hreach : r.Reaches q := hq ▸ Run.Reaches.ingested w _ _
  have hg : ∀ k, q.g k = r.g k := hq ▸ fun _ => rfl
  clear hq
  obtain ⟨hqok, hqe, -, hqrun, -⟩ := hreach
  rw [hr.ok] at hqok
  have hstop : f w r = (q.stageWrite (r.g (stepB w)) (List.replicate (stepN w * 64) 0)).stop Cf.ingestAuth := by
    refine hf.trans ?_
    have hbad : (out.2 != ((r.h.staged r.e (r.g (stepC w)) 64).drop 12).take 16) = true := bne_iff_ne.2 htag
    unfold Run.ingestEnd
    simp only [hfinal, hbad, Bool.and_self, if_true]
    rw [hg, Run.writeUnits_staging hqok (List.length_replicate ..).le hr.sb]
  have hok' : (q.stageWrite (r.g (stepB w)) (List.replicate (stepN w * 64) 0)).ok = true := hqok
  rw [Run.stop, if_pos hok'] at hstop
  subst hstart
  refine Leads.of_faults (hexec s) hst hstop hqe (q.ok_iff.1 hqok).2 (show Cf.ingestAuth ≠ 0 by decide)
    (show Cf.ingestAuth < 2 ^ Od.engLastFault.width by decide) hqrun (fun k hfaulted hk => ⟨hfaulted, ?_⟩)
  obtain ⟨hdst, -⟩ := Run.stageWrite_leaves (r := q) (b := (s.hw.startRun e l).g (stepB w)) (d := List.replicate (stepN w * 64) 0) hk
    (List.length_replicate ..)
  rwa [hqe] at hdst

end

/-- Settles O36. -/
theorem streamSteps : Obligations.StreamSteps := by
  intro e l w s
  refine ⟨fun hst ha hsa hva hsha => ⟨digest_absorbs rfl hst ha hsa hva hsha,
      fun h4 hb hsb => digest_finals rfl hst ha hsa hva hsha h4 hb _ rfl hsb⟩,
    packz_packs rfl, packz_expands rfl _ _ _ rfl rfl rfl, ?_, ?_⟩
  · intro _ _ _ hst ha hsa hstate hbind hfmt hchunk hk hin hva _
    exact reduce_sends rfl _ _ rfl rfl hst ha hsa hstate hbind hfmt hchunk hk hin hva
  · intro _ _ _ _ out hst h3 ha hb hc hsa hsb hsc hblk hpart hkey hgcm hsha
    have hr : (s.hw.startRun e l).Ingests w := ⟨rfl, h3, ha, hb, hc, hsa, hsb, hsc, hblk, hpart, hkey, hgcm, hsha⟩
    have hout : (s.hw.startRun e l).decrypted w = out := rfl
    have hdecrypts := ingest_decrypts rfl hst hr
    have hrejects := ingest_rejects rfl hst hr
    rw [hout] at hdecrypts hrejects
    exact ⟨hdecrypts, hrejects⟩

end Sys2Proof.Machine
end

section
/-! Steps of arithmetic over scalar streams in staging: CONVERT, ACCUM, AXPBY and MOMENT (R175, R194, R206 to R211). -/

namespace Sys2Proof.Machine

/-! ### Numbers in bytes -/

theorem natBytes_length (v n : Nat) : (natBytes v n).length = n := by
  simp [natBytes]

theorem natBytes_succ (v n : Nat) : natBytes v (n + 1) = BitVec.ofNat 8 v :: natBytes (v / 256) n := by
  have hshift (i : Nat) : v / 256 / 2 ^ (8 * i) = v / 2 ^ (8 * (i + 1)) := by
    rw [Nat.div_div_eq_div_mul, show (256 : Nat) = 2 ^ 8 from rfl, ← Nat.pow_add, show 8 + 8 * i = 8 * (i + 1) by omega]
  simp [natBytes, List.range_succ_eq_map, hshift, Function.comp_def]

/-- The bytes of a number spell it, up to their width. -/
theorem bytesNat_natBytes (v n : Nat) : bytesNat (natBytes v n) = v % 2 ^ (8 * n) := by
  induction n generalizing v with
  | zero => simp [natBytes, bytesNat, Nat.mod_one]
  | succ n ih =>
    have hcons : bytesNat (natBytes v (n + 1)) = bytesNat (natBytes (v / 256) n) * 256 + v % 256 := by
      rw [natBytes_succ]
      exact congrArg (bytesNat (natBytes (v / 256) n) * 256 + ·) (BitVec.toNat_ofNat v 8)
    rw [hcons, ih, show 8 * (n + 1) = 8 + 8 * n by omega, Nat.pow_add, Nat.mod_mul, show (2 : Nat) ^ 8 = 256 from rfl]
    omega

/-- A number within part of a list of bytes. -/
theorem leAt_sub (l : List Byte) (i : Nat) {m j k : Nat} (h : j + k ≤ m) : leAt ((l.drop i).take m) j k = leAt l (i + j) k := by
  unfold leAt
  rw [List.drop_take, List.drop_drop, List.take_take, Nat.min_eq_left (by omega)]

theorem flatMap_length {g : Nat → List Byte} {k : Nat} (hg : ∀ i, (g i).length = k) (n : Nat) :
    ((List.range n).flatMap g).length = k * n := by
  induction n with
  | zero => rfl
  | succ n ih => rw [List.range_succ, List.flatMap_append, List.length_append, ih, List.flatMap_singleton, hg, Nat.mul_succ]

/-- Records up to `i + m`: those up to `i`, then the next `m`. -/
theorem flatMap_range_add (g : Nat → List Byte) (i m : Nat) :
    (List.range (i + m)).flatMap g = (List.range i).flatMap g ++ (List.range m).flatMap (fun j => g (i + j)) := by
  rw [List.range_add, List.flatMap_append, List.flatMap_map]

/-- One of the records of `k` bytes laid end to end. -/
theorem flatMap_record {g : Nat → List Byte} {k : Nat} (hg : ∀ i, (g i).length = k) {n i : Nat} (hi : i < n) :
    (((List.range n).flatMap g).drop (k * i)).take k = g i := by
  obtain ⟨m, rfl⟩ : ∃ m, n = i + (1 + m) := ⟨n - i - 1, by omega⟩
  have hone : (List.range 1).flatMap (fun j => g (i + j)) = g i := List.flatMap_singleton ..
  rw [flatMap_range_add, List.drop_left' (flatMap_length hg i), flatMap_range_add, hone]
  exact List.take_left' (hg i)

/-- A number within one of the records of `k` bytes laid end to end. -/
theorem leAt_record {g : Nat → List Byte} {k : Nat} (hg : ∀ i, (g i).length = k) {n i o m : Nat} (hi : i < n) (ho : o + m ≤ k) :
    leAt ((List.range n).flatMap g) (k * i + o) m = leAt (g i) o m := by
  rw [← leAt_sub _ _ ho, flatMap_record hg hi]

theorem leAt_natBytes (v n : Nat) : leAt (natBytes v n) 0 n = v % 2 ^ (8 * n) := by
  rw [leAt, List.drop_zero, List.take_of_length_le (natBytes_length v n).le, bytesNat_natBytes]

/-! ### Scalar formats -/

theorem not_guarded_of_scalar {f : Nat} (hf : scalarWidth f ≠ 0) : fmtGuarded f = false := by
  unfold scalarWidth at hf
  unfold fmtGuarded
  rw [decide_eq_false_iff_not]
  intro h
  simp only [show ¬f = 0 by omega, show ¬f ≤ 2 by omega, show ¬(f ≤ 4 ∨ f = 0x0a) by omega, if_false] at hf
  exact hf rfl

theorem streamBytes_scalar {f : Nat} (hf : scalarWidth f ≠ 0) (n : Nat) : streamBytes f n = n * scalarWidth f := if_pos hf

theorem pieceElems_scalar {f g : Nat} (hf : scalarWidth f ≠ 0) (hg : scalarWidth g ≠ 0) : pieceElems f g = 64 := by
  simp [pieceElems, hf, hg]

theorem decodeScalars_length (f n : Nat) (b : List Byte) : (decodeScalars f n b).length = n := by
  simp [decodeScalars]

/-- Part of a decoded stream. -/
theorem decodeScalars_sub (f : Nat) {n i m : Nat} (hm : i + m ≤ n) (b : List Byte) :
    decodeScalars f m ((b.drop (i * scalarWidth f)).take (m * scalarWidth f)) = ((decodeScalars f n b).drop i).take m := by
  refine List.ext_getElem (by simp [decodeScalars_length]; omega) (fun j hj _ => ?_)
  rw [decodeScalars_length] at hj
  have hle : j * scalarWidth f + scalarWidth f ≤ m * scalarWidth f := record_within (Nat.le_refl _) hj
  simp only [decodeScalars, List.getElem_map, List.getElem_range, List.getElem_take, List.getElem_drop, leAt_sub _ _ hle, Nat.add_mul]

theorem FmtCount.add_assoc (a b c : FmtCount) : (a.add b).add c = a.add (b.add c) := by
  simp [FmtCount.add, Nat.add_assoc]

theorem FmtCount.add_zero (a : FmtCount) : a.add {} = a := rfl

/-- A stream with one more element. -/
theorem encodeScalars_snoc (f : Nat) (vs : List Val) (v : Val) (seed : Option (BitVec 64)) (base : Nat) :
    encodeScalars f (vs ++ [v]) seed base =
      ((encodeScalars f vs seed base).1 ++ natBytes (encodeScalar f (rndAt seed (base + vs.length)) v).1 (scalarWidth f),
        (encodeScalars f vs seed base).2.add (encodeScalar f (rndAt seed (base + vs.length)) v).2) := by
  simp only [encodeScalars, List.zipIdx_append, List.foldl_append, Nat.zero_add]
  rfl

/-- A stream encoded in two parts. -/
theorem encodeScalars_append (f : Nat) (xs ys : List Val) (seed : Option (BitVec 64)) (base : Nat) :
    encodeScalars f (xs ++ ys) seed base = ((encodeScalars f xs seed base).1 ++ (encodeScalars f ys seed (base + xs.length)).1,
      (encodeScalars f xs seed base).2.add (encodeScalars f ys seed (base + xs.length)).2) := by
  induction ys using List.reverseRecOn with
  | nil => simp [encodeScalars, FmtCount.add_zero]
  | append_singleton ys v ih =>
    rw [← List.append_assoc, encodeScalars_snoc, ih, encodeScalars_snoc, List.length_append, ← Nat.add_assoc, List.append_assoc,
      FmtCount.add_assoc]

theorem encodeScalars_length (f : Nat) (vs : List Val) (seed : Option (BitVec 64)) (base : Nat) :
    (encodeScalars f vs seed base).1.length = vs.length * scalarWidth f := by
  induction vs using List.reverseRecOn with
  | nil => simp [encodeScalars]
  | append_singleton vs v ih =>
    rw [encodeScalars_snoc, List.length_append, ih, natBytes_length, List.length_append, List.length_singleton, Nat.succ_mul]

/-! ### Pieces of scalar streams -/

section

variable {r : Run} (hr : r.ok = true)
include hr

/-- Reading part of a scalar stream from staging. -/
theorem Run.readPiece_staging {f : Nat} (hf : scalarWidth f ≠ 0) {a n i m : Nat} (hm : i + m ≤ n)
    (ha : stageRange a (n * scalarWidth f)) :
    r.readPiece f none a i m = (((decodeScalars f n (r.h.staged r.e a (n * scalarWidth f))).drop i).take m, 0, r) := by
  have hle : i * scalarWidth f + m * scalarWidth f ≤ n * scalarWidth f := by
    rw [← Nat.add_mul]
    exact Nat.mul_le_mul_right _ hm
  unfold Run.readPiece Run.readGroup
  rw [if_pos hf, if_pos hf, Run.stream_staging hr (ha.sub hle), Hw.staged_sub _ _ ha hle]
  dsimp only
  rw [decodeScalars_sub f hm]

/-- Writing part of a scalar stream to staging. -/
theorem Run.writePiece_staging {f : Nat} (hf : scalarWidth f ≠ 0) {b i : Nat} {vs : List Val} (seed : Option (BitVec 64)) (base : Nat)
    (hb : stageRange (b + i * scalarWidth f) (vs.length * scalarWidth f)) :
    r.writePiece f none b i vs seed base =
      ((encodeScalars f vs seed base).2, r.stageWrite (b + i * scalarWidth f) (encodeScalars f vs seed base).1) := by
  have hlen := encodeScalars_length f vs seed base
  unfold Run.writePiece Run.writeGroup
  rw [if_pos hf, if_neg (by rw [hr]; decide), if_pos hf]
  dsimp only
  rw [Run.writeUnits_staging hr (Nat.le_refl _) (hlen ▸ hb)]

end

/-! ### CONVERT -/

section

variable {r : Run}

/-- A scalar stream converted piece by piece is the conversion of the stream. -/
theorem Run.convertPieces_staging (hr : r.ok = true) {fi fo : Nat} (hi : scalarWidth fi ≠ 0) (ho : scalarWidth fo ≠ 0) {n a b : Nat} (d : Nat)
    (seed : Option (BitVec 64)) (ha : stageRange a (n * scalarWidth fi)) (hb : stageRange b (n * scalarWidth fo))
    (hab : apart a (n * scalarWidth fi) b (n * scalarWidth fo)) (vs : List Val)
    (hvs : vs = decodeScalars fi n (r.h.staged r.e a (n * scalarWidth fi))) :
    r.convertPieces fi fo n a b d none none seed =
      (0, (encodeScalars fo vs seed (d % 2 ^ 32)).2, r.stageWrite b (encodeScalars fo vs seed (d % 2 ^ 32)).1) := by
  have hlen : vs.length = n := by rw [hvs, decodeScalars_length]
  have htake (i : Nat) (hin : i ≤ n) : (vs.take i).length = i := by
    rw [List.length_take]
    omega
  unfold Run.convertPieces
  rw [pieceElems_scalar hi ho]
  have h0 : ((0, {}, r) : Nat × FmtCount × Run) = (0, (encodeScalars fo (vs.take 0) seed (d % 2 ^ 32)).2,
    r.stageWrite b (encodeScalars fo (vs.take 0) seed (d % 2 ^ 32)).1) := rfl
  rw [h0, foldl_pieces _ (fun i => (0, (encodeScalars fo (vs.take i) seed (d % 2 ^ 32)).2,
    r.stageWrite b (encodeScalars fo (vs.take i) seed (d % 2 ^ 32)).1)) (by decide) (fun i m hm _ => ?_)]
  · rw [List.take_of_length_le hlen.le]
  · have henc := encodeScalars_length fo (vs.take i) seed (d % 2 ^ 32)
    rw [htake i (by omega)] at henc
    have hbi : stageRange b (i * scalarWidth fo) := hb.take (Nat.mul_le_mul_right _ (by omega))
    have hread := Run.readPiece_staging (r := r.stageWrite b (encodeScalars fo (vs.take i) seed (d % 2 ^ 32)).1) hr hi hm ha
    rw [Run.stageWrite_e, Run.staged_stageWrite_apart ha (by rwa [henc])
      (by rw [henc]; exact hab.sub (i := 0) (j := 0) (Nat.zero_add _).le (by rw [Nat.zero_add]; exact Nat.mul_le_mul_right _ (by omega))),
      ← hvs] at hread
    have hpiece : ((vs.drop i).take m).length = m := by
      rw [List.length_take, List.length_drop]
      omega
    have hle : i * scalarWidth fo + m * scalarWidth fo ≤ n * scalarWidth fo := by
      rw [← Nat.add_mul]
      exact Nat.mul_le_mul_right _ hm
    have hwrite := Run.writePiece_staging (r := r.stageWrite b (encodeScalars fo (vs.take i) seed (d % 2 ^ 32)).1) hr ho (b := b) (i := i)
      (vs := (vs.drop i).take m) seed (d % 2 ^ 32 + i) (by rw [hpiece]; exact hb.sub hle)
    have hencm := encodeScalars_length fo ((vs.drop i).take m) seed (d % 2 ^ 32 + i)
    rw [hpiece] at hencm
    have happ := Run.stageWrite_append (r := r) (a := b) (encodeScalars fo (vs.take i) seed (d % 2 ^ 32)).1
      (encodeScalars fo ((vs.drop i).take m) seed (d % 2 ^ 32 + i)).1 (by rw [henc, hencm]; exact hb.take hle)
    rw [henc] at happ
    have hsplit := encodeScalars_append fo (vs.take i) ((vs.drop i).take m) seed (d % 2 ^ 32)
    rw [htake i (by omega), ← List.take_add] at hsplit
    simp only [Run.stageWrite_ok, hr, Bool.not_true, Bool.false_eq_true, if_false]
    rw [hread]
    dsimp only
    rw [Run.stageWrite_ok, hr, Bool.not_true, if_neg (by decide), hwrite, happ, hsplit]

/-! ### ACCUM and AXPBY -/

/-- Element `j` of the result of FP32 operation `f` over scalar stream `x` of format `fi` and FP32 stream `y`, in bytes. -/
def fp32Element (fi : Nat) (f : Nat → Nat → Nat) (x y : List Byte) (j : Nat) : List Byte :=
  natBytes (f (f32of (scalarVal fi (leAt x (j * scalarWidth fi) (scalarWidth fi)))) (leAt y (4 * j) 4)) 4

theorem fp32Element_length (fi : Nat) (f : Nat → Nat → Nat) (x y : List Byte) (j : Nat) : (fp32Element fi f x y j).length = 4 :=
  natBytes_length ..

/-- A piece of the operands gives its elements. -/
theorem fp32Elements_piece (fi : Nat) (f : Nat → Nat → Nat) (x y : List Byte) {n i m : Nat} (hm : i + m ≤ n) :
    ((((decodeScalars fi n x).drop i).take m).zipIdx.flatMap
      (fun v => natBytes (f (f32of v.1) (leAt ((y.drop (4 * i)).take (4 * m)) (4 * v.2) 4)) 4)) =
    (List.range m).flatMap (fun j => fp32Element fi f x y (i + j)) := by
  have hvals : (((decodeScalars fi n x).drop i).take m) =
      (List.range m).map (fun j => scalarVal fi (leAt x ((i + j) * scalarWidth fi) (scalarWidth fi))) := by
    refine List.ext_getElem (by simp [decodeScalars_length]; omega) (fun j _ _ => ?_)
    simp [decodeScalars]
  have hzip (g : Nat → Val) : ((List.range m).map g).zipIdx = (List.range m).map (fun j => (g j, j)) :=
    List.ext_getElem (by simp) (fun j _ _ => by simp)
  rw [hvals, hzip, List.flatMap_map]
  refine List.flatMap_congr fun j hj => ?_
  have hj := List.mem_range.1 hj
  rw [leAt_sub _ _ (show 4 * j + 4 ≤ 4 * m by omega), fp32Element, Nat.mul_add]

/-- An FP32 operation over scalar streams in staging is one write of its elements. -/
theorem Run.elementwise_staging (hr : r.ok = true) {fi : Nat} (hi : scalarWidth fi ≠ 0) {a b n : Nat} (f : Nat → Nat → Nat)
    (ha : stageRange a (n * scalarWidth fi)) (hb : stageRange b (4 * n)) (hab : apart a (n * scalarWidth fi) b (4 * n)) :
    r.elementwise fi a b n f = (r.stageWrite b ((List.range n).flatMap
      (fp32Element fi f (r.h.staged r.e a (n * scalarWidth fi)) (r.h.staged r.e b (4 * n))))).count a { poisoned := 0 } := by
  unfold Run.elementwise
  rw [pieceElems_scalar hi (show scalarWidth 0 ≠ 0 by decide)]
  generalize hx : r.h.staged r.e a (n * scalarWidth fi) = x
  generalize hy : r.h.staged r.e b (4 * n) = y
  have hlen (i : Nat) := flatMap_length (fp32Element_length fi f x y) i
  have h0 : ((0, r) : Nat × Run) = (0, r.stageWrite b ((List.range 0).flatMap (fp32Element fi f x y))) := rfl
  rw [h0, foldl_pieces _ (fun i => (0, r.stageWrite b ((List.range i).flatMap (fp32Element fi f x y)))) (by decide) (fun i m hm _ => ?_)]
  have hbi : stageRange b ((List.range i).flatMap (fp32Element fi f x y)).length := by
    rw [hlen]
    exact hb.take (by omega)
  have hle : 4 * i + 4 * m ≤ 4 * n := by omega
  have hread := Run.readPiece_staging (r := r.stageWrite b ((List.range i).flatMap (fp32Element fi f x y))) hr hi hm ha
  rw [Run.stageWrite_e, Run.staged_stageWrite_apart ha hbi
    (by rw [hlen]; exact hab.sub (i := 0) (j := 0) (Nat.zero_add _).le (by omega)), hx] at hread
  have hstream := Run.stream_staging (r := r.stageWrite b ((List.range i).flatMap (fp32Element fi f x y))) hr (hb.sub hle)
  rw [Run.stageWrite_e, Run.staged_stageWrite_apart (hb.sub hle) hbi (by rw [hlen]; exact .inr (Nat.le_refl _)),
    Hw.staged_sub _ _ hb hle, hy] at hstream
  have hpiece := fp32Elements_piece fi f x y hm
  have hplen : ((List.range m).flatMap (fun j => fp32Element fi f x y (i + j))).length = 4 * m :=
    flatMap_length (fun j => fp32Element_length fi f x y (i + j)) m
  have happ := Run.stageWrite_append (r := r) (a := b) ((List.range i).flatMap (fp32Element fi f x y))
    ((List.range m).flatMap (fun j => fp32Element fi f x y (i + j))) (by rw [hlen, hplen]; exact hb.take hle)
  rw [hlen, ← flatMap_range_add] at happ
  simp only [Run.stageWrite_ok, hr, Bool.not_true, Bool.false_eq_true, if_false]
  rw [hread]
  dsimp only
  rw [hstream]
  dsimp only
  rw [hpiece, Run.writeUnits_staging (r := r.stageWrite b _) hr (Nat.le_refl _) (by rw [hplen]; exact hb.sub hle), happ]

end

section

variable {e : EngIx} {l : Launch} {w : BitVec 128} {s : State} {r : Run}

/-- The advances of a step over two streams in staging that are apart and empty together. -/
theorem Run.advance_streams {q : Run} (hq : q.ok = true) {a b m m' : Nat} (ha : q.g (stepA w) = a) (hb : q.g (stepB w) = b)
    (hempty : m' = 0 → m = 0) (hsa : stageRange a m) (hsb : stageRange b m') (hab : apart a m b m') (hva : advances w 0 a m)
    (hvb : advances w 1 b m') :
    (q.advance (stepFlag w 0) (stepA w) m).advance (stepFlag w 1) (stepB w) m' =
      (q.bump (stepFlag w 0) (stepA w) m).bump (stepFlag w 1) (stepB w) m' := by
  subst ha hb
  refine Run.advance_two hq (stepB_lt w) hsa hsb hva hvb (fun hij => ?_)
  rw [hij] at hab
  unfold apart at hab
  omega

/-- A CONVERT between scalar formats whose pieces have come to `r'`, and whose advances to `p`. -/
theorem Run.convert_scalar {fi fo a b d : Nat} {seed : Option (BitVec 64)} {wc : FmtCount} {r' p : Run} (hi : scalarWidth fi ≠ 0)
    (ho : scalarWidth fo ≠ 0) (ha : a % 64 = 0) (hb : b % 64 = 0)
    (hseed : seed = if wf w 52 4 = 1 then some (BitVec.ofNat 64 (d / 2 ^ 32)) else none)
    (hpieces : r.convertPieces fi fo (stepN w) a b d none none seed = (0, wc, r'))
    (hadv : (((r'.count a { poisoned := 0 }).count b wc).advance (stepFlag w 0) (stepA w) (stepN w * scalarWidth fi)).advance (stepFlag w 1)
      (stepB w) (stepN w * scalarWidth fo) = p) (hok : p.ok = true) :
    r.convert w fi fo a b d =
      if wf w 52 4 = 1 then p.setG (stepD w) (p.g (stepD w) / 2 ^ 32 * 2 ^ 32 + (p.g (stepD w) + stepN w) % 2 ^ 32) else p := by
  unfold Run.convert
  rw [Run.aligned_of ha, Run.aligned_of hb]
  dsimp only
  rw [← hseed]
  unfold Run.guardOf
  simp only [not_guarded_of_scalar hi, not_guarded_of_scalar ho, Bool.false_eq_true, if_false]
  rw [hpieces]
  dsimp only
  rw [streamBytes_scalar hi, streamBytes_scalar ho, hadv, hok, hseed]
  by_cases hround : wf w 52 4 = 1
  · rw [if_pos hround, if_pos hround]
    rfl
  · rw [if_neg hround, if_neg hround]
    rfl

/-- CONVERT rounds every element of its stream once. -/
theorem convert_rounds (hstart : s.hw.startRun e l = r) (fi fo n a b d : Nat) (hfi : fi = stepIn w) (hfo : fo = stepOut w)
    (hn : n = stepN w) (ha : a = r.g (stepA w)) (hb : b = r.g (stepB w)) (hd : d = r.g (stepD w)) (seed : Option (BitVec 64))
    (hseed : seed = if wf w 52 4 = 1 then some (BitVec.ofNat 64 (d / 2 ^ 32)) else none) (hi : scalarWidth fi ≠ 0)
    (ha64 : a % 64 = 0) (hb64 : b % 64 = 0) (hst : s.hw.stepNow e 0x04 = some (l, w)) (ho : scalarWidth fo ≠ 0)
    (hsa : stageRange a (n * scalarWidth fi)) (hsb : stageRange b (n * scalarWidth fo))
    (hab : apart a (n * scalarWidth fi) b (n * scalarWidth fo)) (hva : advances w 0 a (n * scalarWidth fi))
    (hvb : advances w 1 b (n * scalarWidth fo)) :
    Leads (.convert e) s (fun h =>
      h.staged r.e b (n * scalarWidth fo) =
        (encodeScalars fo (decodeScalars fi n (r.h.staged r.e a (n * scalarWidth fi))) seed (d % 2 ^ 32)).1 ∧
      r.h.stageKept h r.e b (n * scalarWidth fo) ∧
      (wf w 52 4 ≠ 1 → s.hw.stepped h e
        (bumped w 1 (stepB w) (n * scalarWidth fo) (bumped w 0 (stepA w) (n * scalarWidth fi) r.g)))) := by
  obtain ⟨hok, -, -⟩ := Hw.startRun_facts hstart
  generalize hvs : decodeScalars fi n (r.h.staged r.e a (n * scalarWidth fi)) = vs
  have hpieces := Run.convertPieces_staging hok hi ho d seed hsa hsb hab vs hvs.symm
  generalize henc : encodeScalars fo vs seed (d % 2 ^ 32) = out at *
  have hlen : out.1.length = n * scalarWidth fo := by
    rw [← henc, encodeScalars_length, ← hvs, decodeScalars_length]
  subst ha hb hd hfi hfo hn
  generalize hq : ((r.stageWrite (r.g (stepB w)) out.1).count (r.g (stepA w)) { poisoned := 0 }).count (r.g (stepB w)) out.2 = q
  have hreach : r.Reaches q := hq ▸ (((Run.Reaches.refl r).stageWrite _ _).count _ _).count _ _
  have hstaging : q.h.car.staging = (r.stageWrite (r.g (stepB w)) out.1).h.car.staging := by
    subst hq
    exact (Hw.staging_countFmt ..).trans (Hw.staging_countFmt ..)
  have hg (k : Nat) : q.g k = r.g k := by
    subst hq
    rfl
  have hadv := Run.advance_streams (q := q) (w := w) (hreach.1.trans hok) (hg _) (hg _)
    (fun h => by rw [(Nat.mul_eq_zero.1 h).resolve_right ho, Nat.zero_mul]) hsa hsb hab hva hvb
  have hbumps := Run.g_bump_bumped (Run.g_bump_bumped (fun k _ => hg k) w 0 (stepN w * scalarWidth (stepIn w)) (stepA_lt w)) w 1
    (stepN w * scalarWidth (stepOut w)) (stepB_lt w)
  have hreach' := (hreach.bump (stepFlag w 0) (stepA w) (stepN w * scalarWidth (stepIn w))).bump (stepFlag w 1) (stepB w)
    (stepN w * scalarWidth (stepOut w))
  generalize hp : (q.bump (stepFlag w 0) (stepA w) (stepN w * scalarWidth (stepIn w))).bump (stepFlag w 1) (stepB w)
    (stepN w * scalarWidth (stepOut w)) = p at hadv hbumps hreach'
  have hp : p.h = q.h := by rw [← hp, Run.bump_h, Run.bump_h]
  have hleaves (k : Hw) (hk : k.car.staging = p.h.car.staging) := Run.stageWrite_leaves ((hp ▸ hk).trans hstaging) hlen
  have hconvert := Run.convert_scalar hi ho ha64 hb64 hseed hpieces (hq ▸ hadv) (hreach'.1.trans hok)
  by_cases hround : wf w 52 4 = 1
  · rw [if_pos hround] at hconvert
    refine Leads.of_reaches rfl hstart hst hconvert (hreach'.setG _ _) (fun _ _ => rfl) (fun k _ hk _ => ?_)
    obtain ⟨hdst, hkept⟩ := hleaves k hk
    exact ⟨hdst, hkept, absurd hround⟩
  · rw [if_neg hround] at hconvert
    refine Leads.of_reaches rfl hstart hst hconvert hreach' hbumps (fun k _ hk hstepped => ?_)
    obtain ⟨hdst, hkept⟩ := hleaves k hk
    exact ⟨hdst, hkept, fun _ => hstepped⟩

/-- A command whose step applies an FP32 operation to `n` elements of two streams. -/
theorem Leads.of_elementwise {c : Instr} {op : Nat} {F : BitVec 128 → Run → Run} (f : Nat → Nat → Nat) (fi n a b : Nat)
    (hc : exec c s = .next { s with hw := s.hw.runStep e op anyWord F }) (hstart : s.hw.startRun e l = r)
    (hst : s.hw.stepNow e op = some (l, w))
    (hF : F w r = ((r.elementwise fi a b n f).advance (stepFlag w 0) (stepA w) (streamBytes fi n)).advance (stepFlag w 1) (stepB w) (4 * n))
    (hi : scalarWidth fi ≠ 0) (ha : r.g (stepA w) = a) (hb : r.g (stepB w) = b) (hsa : stageRange a (n * scalarWidth fi))
    (hsb : stageRange b (4 * n)) (hab : apart a (n * scalarWidth fi) b (4 * n)) (hva : advances w 0 a (n * scalarWidth fi))
    (hvb : advances w 1 b (4 * n)) :
    Leads c s (fun h => r.h.stageKept h r.e b (4 * n) ∧
      s.hw.stepped h e (bumped w 1 (stepB w) (4 * n) (bumped w 0 (stepA w) (n * scalarWidth fi) r.g)) ∧
      ∀ i, i < n → leAt (h.staged r.e b (4 * n)) (4 * i) 4 =
        f (f32of (scalarVal fi (leAt (r.h.staged r.e a (n * scalarWidth fi)) (i * scalarWidth fi) (scalarWidth fi))))
          (leAt (r.h.staged r.e b (4 * n)) (4 * i) 4) % 2 ^ 32) := by
  obtain ⟨hok, -, -⟩ := Hw.startRun_facts hstart
  rw [Run.elementwise_staging hok hi f hsa hsb hab, streamBytes_scalar hi] at hF
  generalize r.h.staged r.e a (n * scalarWidth fi) = x at *
  generalize r.h.staged r.e b (4 * n) = y at *
  have hlen := flatMap_length (fp32Element_length fi f x y) n
  generalize hout : (List.range n).flatMap (fp32Element fi f x y) = out at *
  have hreach := ((Run.Reaches.refl r).stageWrite b out).count a { poisoned := 0 }
  have hg (k : Nat) : ((r.stageWrite b out).count a { poisoned := 0 }).g k = r.g k := rfl
  rw [Run.advance_streams (hreach.1.trans hok) ((hg _).trans ha) ((hg _).trans hb) (fun h => by simp [show n = 0 by omega])
    hsa hsb hab hva hvb] at hF
  refine Leads.of_reaches hc hstart hst hF ((hreach.bump _ _ _).bump _ _ _)
    (Run.g_bump_bumped (Run.g_bump_bumped (fun k _ => hg k) w 0 _ (stepA_lt w)) w 1 _ (stepB_lt w)) (fun k _ hk hstepped => ?_)
  rw [Run.bump_h, Run.bump_h] at hk
  obtain ⟨hdst, hkept⟩ := Run.stageWrite_leaves (hk.trans (Hw.staging_countFmt ..)) hlen
  refine ⟨hkept, hstepped, fun i hin => ?_⟩
  have hrec := leAt_record (fp32Element_length fi f x y) hin (o := 0) (m := 4) (Nat.le_refl 4)
  rw [hout, Nat.add_zero] at hrec
  rw [hdst, hrec, fp32Element, leAt_natBytes]

theorem accum_adds (hstart : s.hw.startRun e l = r) (fi n a b : Nat) (hfi : fi = stepIn w) (hn : n = stepN w) (ha : a = r.g (stepA w))
    (hb : b = r.g (stepB w)) (hi : scalarWidth fi ≠ 0) (ha64 : a % 64 = 0) (hb64 : b % 64 = 0) (hst : s.hw.stepNow e 0x06 = some (l, w))
    (hsa : stageRange a (n * scalarWidth fi)) (hsb : stageRange b (4 * n)) (hab : apart a (n * scalarWidth fi) b (4 * n))
    (hva : advances w 0 a (n * scalarWidth fi)) (hvb : advances w 1 b (4 * n)) :
    Leads (.accum e) s (fun h => r.h.stageKept h r.e b (4 * n) ∧
      s.hw.stepped h e (bumped w 1 (stepB w) (4 * n) (bumped w 0 (stepA w) (n * scalarWidth fi) r.g)) ∧
      ∀ i, i < n → leAt (h.staged r.e b (4 * n)) (4 * i) 4 = f32add (leAt (r.h.staged r.e b (4 * n)) (4 * i) 4)
        (f32of (scalarVal fi (leAt (r.h.staged r.e a (n * scalarWidth fi)) (i * scalarWidth fi) (scalarWidth fi)))) % 2 ^ 32) := by
  subst hfi hn ha hb
  refine Leads.of_elementwise (fun x y => f32add y x) _ _ _ _ rfl hstart hst ?_ hi rfl rfl hsa hsb hab hva hvb
  dsimp only
  rw [Run.aligned_of ha64, Run.aligned_of hb64]

theorem axpby_combines (hstart : s.hw.startRun e l = r) (fi n a b : Nat) (hfi : fi = stepIn w) (hn : n = r.g (stepC w))
    (ha : a = r.g (stepA w)) (hb : b = r.g (stepB w)) (hi : scalarWidth fi ≠ 0) (ha64 : a % 64 = 0) (hb64 : b % 64 = 0)
    (hst : s.hw.stepNow e 0x0c = some (l, w)) (hlo : 1 ≤ n) (hhi : n ≤ 1048576) (hsa : stageRange a (n * scalarWidth fi))
    (hsb : stageRange b (4 * n)) (hab : apart a (n * scalarWidth fi) b (4 * n)) (hva : advances w 0 a (n * scalarWidth fi))
    (hvb : advances w 1 b (4 * n)) :
    Leads (.axpby e) s (fun h => r.h.stageKept h r.e b (4 * n) ∧
      s.hw.stepped h e (bumped w 1 (stepB w) (4 * n) (bumped w 0 (stepA w) (n * scalarWidth fi) r.g)) ∧
      ∀ i, i < n → leAt (h.staged r.e b (4 * n)) (4 * i) 4 =
        f32add (f32mul (wf w 48 32)
          (f32of (scalarVal fi (leAt (r.h.staged r.e a (n * scalarWidth fi)) (i * scalarWidth fi) (scalarWidth fi)))))
          (f32mul (wf w 16 32) (leAt (r.h.staged r.e b (4 * n)) (4 * i) 4)) % 2 ^ 32) := by
  obtain ⟨hok, -, -⟩ := Hw.startRun_facts hstart
  have hblock : n % blockElems fi = 0 := by rw [blockElems, if_pos hi, Nat.mod_one]
  subst hfi hn ha hb
  refine Leads.of_elementwise (fun x y => f32add (f32mul (wf w 48 32) x) (f32mul (wf w 16 32) y)) _ _ _ _ rfl hstart hst ?_ hi rfl rfl
    hsa hsb hab hva hvb
  dsimp only
  rw [if_pos (show 1 ≤ r.g (stepC w) ∧ _ ∧ _ from ⟨hlo, hhi, hblock⟩), Run.aligned_of ha64, Run.aligned_of hb64, if_pos hok]

end

/-! ### MOMENT -/

/-- Staging in two parts. -/
theorem Hw.staged_append (h : Hw) (e : Nat) {a n m : Nat} (ha : stageRange a (n + m)) :
    h.staged e a (n + m) = h.staged e a n ++ h.staged e (a + n) m := by
  have hfirst := Hw.staged_sub h e ha (i := 0) (m := n) (by omega)
  rw [Nat.add_zero, List.drop_zero] at hfirst
  have hlen : ((h.staged e a (n + m)).drop n).length ≤ m := by
    rw [List.length_drop, Hw.staged_length]
    omega
  rw [hfirst, Hw.staged_sub h e ha (Nat.le_refl _), List.take_of_length_le hlen, List.take_append_drop]

/-- MOMENT's update of element `j` of gradients `x`, weights `y` and moments `z`, in bytes. -/
def momentElement (fi : Nat) (p : Params) (x y z : List Byte) (j : Nat) : Nat × Nat × Nat × Bool :=
  p.update p.bias (f32of (scalarVal fi (leAt x (scalarWidth fi * j) (scalarWidth fi)))) (leAt y (4 * j) 4) (leAt z (8 * j) 4)
    (leAt z (8 * j + 4) 4)

def weightBytes (u : Nat × Nat × Nat × Bool) : List Byte := natBytes u.1 4

def momentBytes (u : Nat × Nat × Nat × Bool) : List Byte := natBytes u.2.1 4 ++ natBytes u.2.2.1 4

theorem weightBytes_length (u : Nat × Nat × Nat × Bool) : (weightBytes u).length = 4 := natBytes_length ..

theorem momentBytes_length (u : Nat × Nat × Nat × Bool) : (momentBytes u).length = 8 := by
  rw [momentBytes, List.length_append, natBytes_length, natBytes_length]

/-- Run `q` is `r` with the first `i` weights at `b` and moments at `c` updated to `u`, and the rest of the staging as it was. -/
structure Run.Updated (r : Run) (b c : Nat) (u : Nat → Nat × Nat × Nat × Bool) (i : Nat) (q : Run) : Prop where
  frame : ∃ t, q = { r with h.car.staging := t }
  weights : q.h.staged r.e b (4 * i) = (List.range i).flatMap (fun j => weightBytes (u j))
  moments : q.h.staged r.e c (8 * i) = (List.range i).flatMap (fun j => momentBytes (u j))
  kept : ∀ a n, stageRange a n → apart a n b (4 * i) → apart a n c (8 * i) → q.h.staged r.e a n = r.h.staged r.e a n

theorem Run.Updated.zero (r : Run) (b c : Nat) (u : Nat → Nat × Nat × Nat × Bool) : r.Updated b c u 0 r :=
  ⟨⟨_, rfl⟩, rfl, rfl, fun _ _ _ _ _ => rfl⟩

/-- The updates of the next `m` elements, written. -/
theorem Run.Updated.add {r q : Run} {b c : Nat} {u : Nat → Nat × Nat × Nat × Bool} {i m : Nat} (h : r.Updated b c u i q)
    (hsb : stageRange b (4 * (i + m))) (hsc : stageRange c (8 * (i + m))) (hbc : apart b (4 * (i + m)) c (8 * (i + m))) :
    r.Updated b c u (i + m) ((q.stageWrite (b + 4 * i) ((List.range m).flatMap (fun j => weightBytes (u (i + j))))).stageWrite (c + 8 * i)
      ((List.range m).flatMap (fun j => momentBytes (u (i + j))))) := by
  obtain ⟨hframe, hw, hm, hkept⟩ := h
  have he : q.e = r.e := by
    obtain ⟨t, rfl⟩ := hframe
    rfl
  have hwl := flatMap_length (fun j => weightBytes_length (u (i + j))) m
  have hml := flatMap_length (fun j => momentBytes_length (u (i + j))) m
  have hwadd := flatMap_range_add (fun j => weightBytes (u j)) i m
  have hmadd := flatMap_range_add (fun j => momentBytes (u j)) i m
  generalize (List.range m).flatMap (fun j => weightBytes (u (i + j))) = ws at *
  generalize (List.range m).flatMap (fun j => momentBytes (u (i + j))) = ms at *
  rw [Nat.mul_add] at hsb hsc
  rw [Nat.mul_add, Nat.mul_add] at hbc
  have hsb' : stageRange (b + 4 * i) ws.length := hwl ▸ hsb.sub (Nat.le_refl _)
  have hsc' : stageRange (c + 8 * i) ms.length := hml ▸ hsc.sub (Nat.le_refl _)
  have happ {a n : Nat} (ha : stageRange a n) (hb : apart a n (b + 4 * i) ws.length) (hc : apart a n (c + 8 * i) ms.length) :
      ((q.stageWrite (b + 4 * i) ws).stageWrite (c + 8 * i) ms).h.staged r.e a n = q.h.staged r.e a n := by
    have h1 := Run.staged_stageWrite_apart (r := q.stageWrite (b + 4 * i) ws) ha hsc' hc
    have h2 := Run.staged_stageWrite_apart (r := q) ha hsb' hb
    rw [Run.stageWrite_e, he] at h1
    rw [he] at h2
    rw [h1, h2]
  have hws := Run.staged_stageWrite_apart (r := q.stageWrite (b + 4 * i) ws) hsb' hsc' (hwl ▸ hml ▸ hbc.sub (Nat.le_refl _) (Nat.le_refl _))
  rw [Run.stageWrite_e, he, ← he, Run.staged_stageWrite_same, he] at hws
  have hms := Run.staged_stageWrite_same (r := q.stageWrite (b + 4 * i) ws) (c + 8 * i) ms
  rw [Run.stageWrite_e, he] at hms
  rw [hwl] at hsb' happ hws
  rw [hml] at hsc' happ hms
  refine ⟨?_, ?_, ?_, fun a n ha hab hac => ?_⟩
  · obtain ⟨t, rfl⟩ := hframe
    exact ⟨_, rfl⟩
  · rw [Nat.mul_add, Hw.staged_append _ _ hsb, hws, happ (hsb.take (Nat.le_add_right ..)) (.inl (Nat.le_refl _))
      (hbc.sub (i := 0) (by omega) (Nat.le_refl _)), hw, hwadd]
  · rw [Nat.mul_add, Hw.staged_append _ _ hsc, hms, happ (hsc.take (Nat.le_add_right ..))
      (hbc.sub (j := 0) (Nat.le_refl _) (by omega)).symm (.inl (Nat.le_refl _)), hm, hmadd]
  · rw [Nat.mul_add] at hab hac
    rw [happ ha (hab.sub (i := 0) (Nat.zero_add _).le (Nat.le_refl _)) (hac.sub (i := 0) (Nat.zero_add _).le (Nat.le_refl _))]
    exact hkept a n ha (hab.sub (i := 0) (j := 0) (Nat.zero_add _).le (by omega)) (hac.sub (i := 0) (j := 0) (Nat.zero_add _).le (by omega))

/-- The job of a MOMENT step without a serving copy. -/
def momentJob (r : Run) (w : BitVec 128) (blk : List Byte) : MomentJob :=
  { fi := stepIn w, fo := stepOut w, serve := false, n := stepN w, a := r.g (stepA w), b := r.g (stepB w), c := r.g (stepC w),
    d := r.g (stepD w), p := paramsOf blk, g := none }

section

variable {w : BitVec 128} {r : Run} (hr : r.ok = true)
include hr

theorem Run.momentStart_staging (hserve : stepFlag w 7 = true) {pa : Nat} (hpa : pa = 2 ^ 61 + wf w 32 24) (ha : r.g (stepA w) % 64 = 0)
    (hb : r.g (stepB w) % 64 = 0) (hc : r.g (stepC w) % 64 = 0) (hp64 : pa % 64 = 0) (hsp : stageRange pa 64)
    (hpok : paramsOk (r.h.staged r.e pa 64) = true) :
    r.momentStart w = (r.h.staged r.e pa 64, momentJob r w (r.h.staged r.e pa 64), r) := by
  unfold Run.momentStart
  rw [← hpa]
  dsimp only
  rw [Run.aligned_of hp64, Run.readClean_staging hr hsp]
  simp only [hpok, hserve, Bool.not_true, Bool.false_and, Bool.false_eq_true, if_true, if_false]
  rw [Run.aligned_of ha, Run.aligned_of hb, Run.aligned_of hc]
  rfl

omit hr in
/-- A piece of the operands gives its updates. -/
theorem momentElements_piece (fi : Nat) (p : Params) (x y z : List Byte) (i m : Nat) :
    ((List.range m).map (fun j =>
      p.update p.bias
        (f32of (scalarVal fi (leAt ((x.drop (scalarWidth fi * i)).take (scalarWidth fi * m)) (scalarWidth fi * j) (scalarWidth fi))))
        (leAt ((y.drop (4 * i)).take (4 * m)) (4 * j) 4) (leAt ((z.drop (8 * i)).take (8 * m)) (8 * j) 4)
        (leAt ((z.drop (8 * i)).take (8 * m)) (8 * j + 4) 4))) =
      (List.range m).map (fun j => momentElement fi p x y z (i + j)) := by
  refine List.map_congr_left (fun j hj => ?_)
  have hj := List.mem_range.1 hj
  have hx : scalarWidth fi * j + scalarWidth fi ≤ scalarWidth fi * m := by
    rw [← Nat.mul_succ]
    exact Nat.mul_le_mul_left _ hj
  rw [leAt_sub _ _ hx, leAt_sub _ _ (show 4 * j + 4 ≤ 4 * m by omega), leAt_sub _ _ (show 8 * j + 4 ≤ 8 * m by omega),
    leAt_sub _ _ (show 8 * j + 4 + 4 ≤ 8 * m by omega), momentElement, Nat.mul_add, Nat.mul_add, Nat.mul_add, Nat.add_assoc]

/-- A piece of a MOMENT step without a serving copy updates its elements. -/
theorem Run.momentPiece_staging {y : MomentJob} (hy : y.serve = false) {i m n : Nat} (hm : i + m ≤ n) {x z v : List Byte}
    (hx : r.h.staged r.e y.a (scalarWidth y.fi * n) = x) (hz : r.h.staged r.e y.b (4 * n) = z) (hv : r.h.staged r.e y.c (8 * n) = v)
    (hsa : stageRange y.a (scalarWidth y.fi * n)) (hsb : stageRange y.b (4 * n)) (hsc : stageRange y.c (8 * n))
    (hab : apart y.a (scalarWidth y.fi * n) y.b (4 * n)) (hac : apart y.a (scalarWidth y.fi * n) y.c (8 * n))
    (hbc : apart y.b (4 * n) y.c (8 * n)) {q : Run} (hq : r.Updated y.b y.c (momentElement y.fi y.p x z v) i q) :
    r.Updated y.b y.c (momentElement y.fi y.p x z v) (i + m) (q.momentPiece y i m).2.2 := by
  have hqe : q.ok = true ∧ q.e = r.e := by
    obtain ⟨t, ht⟩ := hq.frame
    subst ht
    exact ⟨hr, rfl⟩
  obtain ⟨hqok, hqe⟩ := hqe
  have hle (k : Nat) : k * i + k * m ≤ k * n := by
    rw [← Nat.mul_add]
    exact Nat.mul_le_mul_left _ hm
  have hread {a k : Nat} (ha : stageRange a (k * n)) (hab : apart (a + k * i) (k * m) y.b (4 * i))
      (hac : apart (a + k * i) (k * m) y.c (8 * i)) :
      q.stream (a + k * i) (k * m) = (((r.h.staged r.e a (k * n)).drop (k * i)).take (k * m), q) := by
    rw [Run.stream_staging hqok (ha.sub (hle k)), hqe, hq.kept _ _ (ha.sub (hle k)) hab hac, Hw.staged_sub _ _ ha (hle k)]
  have hadd := hq.add (m := m) (hsb.take (by omega)) (hsc.take (by omega))
    (hbc.sub (i := 0) (j := 0) (by omega) (by omega))
  unfold Run.momentPiece
  dsimp only
  rw [hread hsa (hab.sub (j := 0) (hle _) (by omega)) (hac.sub (j := 0) (hle _) (by omega))]
  dsimp only
  rw [hread hsb (.inr (Nat.le_refl _)) (hbc.sub (j := 0) (hle _) (by omega))]
  dsimp only
  rw [hread hsc (hbc.symm.sub (j := 0) (hle _) (by omega)) (.inr (Nat.le_refl _))]
  dsimp only
  rw [hx, hz, hv, momentElements_piece, List.flatMap_map, List.flatMap_map, hy, if_neg (by decide)]
  unfold Run.writeUnits
  have hwl := flatMap_length (fun j => weightBytes_length (momentElement y.fi y.p x z v (i + j))) m
  have hml := flatMap_length (fun j => momentBytes_length (momentElement y.fi y.p x z v (i + j))) m
  have hweights := Run.writeUnits_staging hqok (Nat.le_refl _) (hwl ▸ hsb.sub (hle 4))
  have hmoments := Run.writeUnits_staging
    (r := q.stageWrite (y.b + 4 * i) ((List.range m).flatMap (fun j => weightBytes (momentElement y.fi y.p x z v (i + j))))) hqok
    (Nat.le_refl _) (hml ▸ hsc.sub (hle 8))
  unfold weightBytes at hweights hmoments hadd
  unfold momentBytes at hmoments hadd
  rw [hweights, hmoments]
  exact hadd

/-- The pieces of a MOMENT step without a serving copy, over streams in staging that are apart, update every element. -/
theorem Run.momentPieces_staging {y : MomentJob} (hy : y.serve = false) {n : Nat} (hn : y.n = n) {x z v : List Byte}
    (hx : r.h.staged r.e y.a (scalarWidth y.fi * n) = x) (hz : r.h.staged r.e y.b (4 * n) = z) (hv : r.h.staged r.e y.c (8 * n) = v)
    (hsa : stageRange y.a (scalarWidth y.fi * n)) (hsb : stageRange y.b (4 * n)) (hsc : stageRange y.c (8 * n))
    (hab : apart y.a (scalarWidth y.fi * n) y.b (4 * n)) (hac : apart y.a (scalarWidth y.fi * n) y.c (8 * n))
    (hbc : apart y.b (4 * n) y.c (8 * n)) :
    r.Updated y.b y.c (momentElement y.fi y.p x z v) n (r.momentPieces y).2.2 := by
  unfold Run.momentPieces
  rw [hy, hn, if_neg (by decide)]
  refine foldl_pieces_keeps _ (fun i (t : Nat × FmtCount × Run) => r.Updated y.b y.c (momentElement y.fi y.p x z v) i t.2.2)
    (by decide) (Run.Updated.zero ..) (fun i m t hm _ _ _ ht => ?_)
  have hok : t.2.2.ok = true := by
    obtain ⟨s, hs⟩ := ht.frame
    rw [hs]
    exact hr
  dsimp only
  rw [hok, Bool.not_true, if_neg (by decide)]
  exact Run.momentPiece_staging hr hy hm hx hz hv hsa hsb hsc hab hac hbc ht

end

section

variable {e : EngIx} {l : Launch} {w : BitVec 128} {s : State} {r : Run}

theorem momentBytes_codes (u : Nat × Nat × Nat × Bool) :
    leAt (momentBytes u) 0 4 = u.2.1 % 2 ^ 32 ∧ leAt (momentBytes u) 4 4 = u.2.2.1 % 2 ^ 32 := by
  have hlen := natBytes_length u.2.1 4
  constructor
  · rw [momentBytes, leAt, List.drop_zero, List.take_left' hlen, bytesNat_natBytes]
  · rw [momentBytes, leAt, List.drop_left' hlen, List.take_of_length_le (natBytes_length ..).le, bytesNat_natBytes]

/-- The codes of updated weights and moments. -/
theorem updated_codes {y z : List Byte} {u : Nat → Nat × Nat × Nat × Bool} {n : Nat}
    (hy : y = (List.range n).flatMap (fun j => weightBytes (u j))) (hz : z = (List.range n).flatMap (fun j => momentBytes (u j))) :
    ∀ i, i < n → leAt y (4 * i) 4 = (u i).1 % 2 ^ 32 ∧ leAt z (8 * i) 4 = (u i).2.1 % 2 ^ 32 ∧
      leAt z (8 * i + 4) 4 = (u i).2.2.1 % 2 ^ 32 := by
  intro i hi
  subst hy hz
  have hweight := leAt_record (fun j => weightBytes_length (u j)) hi (o := 0) (m := 4) (Nat.le_refl 4)
  have hfirst := leAt_record (fun j => momentBytes_length (u j)) hi (o := 0) (m := 4) (by decide)
  have hsecond := leAt_record (fun j => momentBytes_length (u j)) hi (o := 4) (m := 4) (Nat.le_refl 8)
  rw [Nat.add_zero] at hweight hfirst
  obtain ⟨hcode, hcode'⟩ := momentBytes_codes (u i)
  exact ⟨hweight.trans (leAt_natBytes ..), hfirst.trans hcode, hsecond.trans hcode'⟩

/-- The parameter block with its element base moved on keeps its length. -/
theorem movedBlock_length {blk : List Byte} (hblk : blk.length = 64) (v : Nat) :
    (blk.take 32 ++ natBytes v 4 ++ blk.drop 36).length = 64 := by
  rw [List.length_append, List.length_append, natBytes_length, List.length_take, List.length_drop, hblk]
  rfl

/-- MOMENT without a serving copy updates its elements and moves on the element base of its block. -/
theorem moment_updates (hstart : s.hw.startRun e l = r) {n a b c pa : Nat} {blk : List Byte} {p : Params}
    {u : Nat → Nat × Nat × Nat × Bool} (hn : n = stepN w) (ha : a = r.g (stepA w)) (hb : b = r.g (stepB w)) (hc : c = r.g (stepC w))
    (hpa : pa = 2 ^ 61 + wf w 32 24) (hblk : blk = r.h.staged r.e pa 64) (hp : p = paramsOf blk)
    (hu : u = momentElement (stepIn w) p (r.h.staged r.e a (n * scalarWidth (stepIn w))) (r.h.staged r.e b (4 * n))
      (r.h.staged r.e c (8 * n)))
    (ha64 : a % 64 = 0) (hb64 : b % 64 = 0) (hst : s.hw.stepNow e 0x0d = some (l, w)) (hserve : stepFlag w 7 = true)
    (hc64 : c % 64 = 0) (hp64 : pa % 64 = 0) (hok : paramsOk blk = true) (hsp : stageRange pa 64)
    (hsa : stageRange a (n * scalarWidth (stepIn w))) (hsb : stageRange b (4 * n)) (hsc : stageRange c (8 * n))
    (hpb : apart pa 64 b (4 * n)) (hpc : apart pa 64 c (8 * n)) (hab : apart a (n * scalarWidth (stepIn w)) b (4 * n))
    (hac : apart a (n * scalarWidth (stepIn w)) c (8 * n)) (hbc : apart b (4 * n) c (8 * n)) (h0 : stepFlag w 0 = false)
    (h1 : stepFlag w 1 = false) (h5 : stepFlag w 5 = false) :
    Leads (.moment e) s (fun h => s.hw.stepped h e r.g ∧
      h.staged r.e pa 64 = blk.take 32 ++ natBytes ((p.base + n) % 2 ^ 32) 4 ++ blk.drop 36 ∧
      ∀ i, i < n → leAt (h.staged r.e b (4 * n)) (4 * i) 4 = (u i).1 % 2 ^ 32 ∧
        leAt (h.staged r.e c (8 * n)) (8 * i) 4 = (u i).2.1 % 2 ^ 32 ∧
        leAt (h.staged r.e c (8 * n)) (8 * i + 4) 4 = (u i).2.2.1 % 2 ^ 32) := by
  obtain ⟨hrok, -, -⟩ := Hw.startRun_facts hstart
  have hlen := movedBlock_length (hblk ▸ Hw.staged_length ..) ((p.base + n) % 2 ^ 32)
  subst hn ha hb hc
  have hstarted := Run.momentStart_staging hrok hserve hpa ha64 hb64 hc64 hp64 hsp (hblk ▸ hok)
  rw [← hblk] at hstarted
  rw [Nat.mul_comm (stepN w)] at hu hsa hab hac
  have hq := Run.momentPieces_staging (y := momentJob r w blk) hrok rfl rfl rfl rfl rfl hsa hsb hsc hab hac hbc
  rw [show momentElement (momentJob r w blk).fi (momentJob r w blk).p _ _ _ = u by rw [hu, hp]; rfl] at hq
  generalize hpieces : r.momentPieces (momentJob r w blk) = t at hq
  obtain ⟨skips, wc, q⟩ := t
  dsimp only at hq
  obtain ⟨⟨t, hframe⟩, hweights, hmoments, -⟩ := hq
  have hreach : r.Reaches (q.count (r.g (stepB w)) { nonfinite := skips }) := by
    rw [hframe]
    exact Run.Reaches.count (q := { r with h.car.staging := t }) (Run.Reaches.refl r) _ _
  have hg (k : Nat) : (q.count (r.g (stepB w)) { nonfinite := skips }).g k = r.g k := by
    rw [hframe]
    rfl
  have hstaged (a m : Nat) : (q.count (r.g (stepB w)) { nonfinite := skips }).h.staged r.e a m = q.h.staged r.e a m :=
    Hw.staged_of_staging (Hw.staging_countFmt ..) ..
  generalize hcount : q.count (r.g (stepB w)) { nonfinite := skips } = q' at *
  have hq'ok : q'.ok = true := hreach.1.trans hrok
  generalize hnew : blk.take 32 ++ natBytes ((p.base + stepN w) % 2 ^ 32) 4 ++ blk.drop 36 = new at *
  have hwrite := Run.write_staging hq'ok (hlen ▸ hsp) []
  refine Leads.of_reaches rfl hstart hst (q := q'.stageWrite pa new) ?_ (hreach.stageWrite _ _) (fun k _ => hg k) (fun k _ hk hstepped => ?_)
  · dsimp only
    rw [← hpa, hstarted]
    dsimp only
    rw [hpieces]
    simp only [momentJob, Bool.false_eq_true, if_false, hcount]
    rw [Run.advance_unflagged h0, Run.advance_unflagged h1, Run.advance_unflagged h5, hq'ok, if_pos rfl, ← hp, hnew, hwrite]
  · obtain ⟨-, he, -⟩ := hreach
    have hkeeps {a m : Nat} (ha : stageRange a m) (hap : apart pa 64 a m) : k.staged r.e a m = q.h.staged r.e a m := by
      have hapart := Run.staged_stageWrite_apart (r := q') ha (hlen ▸ hsp) (hlen ▸ hap.symm)
      rw [he] at hapart
      rw [Hw.staged_of_staging hk, hapart, hstaged]
    have hnewblk := (Run.stageWrite_leaves hk hlen).1
    rw [he] at hnewblk
    rw [hkeeps hsb hpb, hkeeps hsc hpc]
    exact ⟨hstepped, hnewblk, updated_codes hweights hmoments⟩

end

/-- Settles O37: a step over scalar streams comes to one write of the elements of its result, the pieces that it works in put
together. -/
theorem arithmeticSteps : Obligations.ArithmeticSteps := by
  intro e l w s g a b c n fi wi hi ha hb
  refine ⟨?_, ?_, ?_, ?_⟩
  · intro fo wo d seed
    exact convert_rounds rfl _ _ _ _ _ _ rfl rfl rfl rfl rfl rfl _ rfl hi ha hb
  · exact accum_adds rfl _ _ _ _ rfl rfl rfl rfl hi ha hb
  · exact axpby_combines rfl _ _ _ _ rfl rfl rfl rfl hi ha hb
  · intro pa blk p u hst hserve hc hp hok hsp hsa hsb hsc _ hpb hpc hab hac hbc h0 h1 h5
    exact moment_updates rfl rfl rfl rfl rfl rfl rfl rfl rfl ha hb hst hserve hc hp hok hsp hsa hsb hsc hpb hpc hab hac hbc h0 h1 h5

end Sys2Proof.Machine
end

section
/-! Sessions of reductions: what leaves them alone, and how their state changes (R216, R252). -/

namespace Sys2Proof.Machine

/-! ### What leaves the sessions alone -/

theorem Hw.Within.ses {m : Nat} {a b : Hw} (w : a.Within m b) (hm : m.testBit Part.reductions.no = false) (n : Nat) :
    b.ses n = a.ses n := by
  have h : b.red = a.red := w.same .reductions hm
  rw [Hw.ses, h, Hw.ses]

theorem Hw.Within.chunkCount {m : Nat} {a b : Hw} (w : a.Within m b) (hf : m.testBit (24 + Od.redFmtIn.no) = false)
    (he : m.testBit (24 + Od.redElements.no) = false) (n : Nat) : b.chunkCount n = a.chunkCount n := by
  rw [Hw.chunkCount, w.reg _ _ hf, w.reg _ _ he, Hw.chunkCount]

/-- A write at one index leaves every register at another. -/
theorem Hw.reg_setReg_elsewhere (h : Hw) (r q : Reg) (i j v : Nat) (hi : j % 4096 ≠ i % 4096) : (h.setReg r i v).reg q j = h.reg q j := by
  refine Hw.elem_setElem_ne _ _ _ _ _ _ _ _ (fun k => hi ?_)
  unfold odKey at k
  omega

/-! ### Registers that are cleared together -/

theorem Hw.reg_setReg_zero (h : Hw) (q r : Reg) (i : Nat) (hr : r = q ∨ h.reg r i = 0) : (h.setReg q i 0).reg r i = 0 := by
  by_cases hk : odKey r i 0 = odKey q i 0
  · have hsame : (h.setReg q i 0).reg r i = (h.setReg q i 0).reg q i := congrArg (Table.atD (h.setReg q i 0).od odDefault) hk
    rw [hsame, Hw.reg_setReg_same, Nat.zero_mod]
  · have hkeep : (h.setReg q i 0).reg r i = h.reg r i := Hw.elem_setElem_ne _ _ _ _ _ _ _ _ hk
    rw [hkeep]
    exact hr.resolve_left (fun e => hk (congrArg (odKey · i 0) e))

theorem Hw.reg_zeroRegs (rs : List Reg) (h : Hw) (r : Reg) (i : Nat) (hr : r ∈ rs ∨ h.reg r i = 0) : (h.zeroRegs rs i).reg r i = 0 := by
  induction rs generalizing h with
  | nil => exact hr.resolve_left List.not_mem_nil
  | cons q rs ih =>
    refine ih (h.setReg q i 0) ?_
    rcases hr with hr | hr
    · exact (List.mem_cons.1 hr).symm.imp_right (fun e => Hw.reg_setReg_zero h q r i (.inl e))
    · exact .inr (Hw.reg_setReg_zero h q r i (.inr hr))

/-! ### The state of a session -/

/-- The mask of what a change of red_state and its record for the standby change. -/
def sessionStateMask : Nat :=
  3978585891278296670937187541943225887398650692215813394491505566383192219312669590030340

theorem Hw.setRedState_stays (h : Hw) (n v : Nat) : h.Within sessionStateMask (h.setRedState n v) := Hw.setRedState_within ..

theorem Hw.setRedState_same (h : Hw) (n v : Nat) (hv : v < 256) : (h.setRedState n v).reg Od.redState n = v := by
  have hset : (h.setReg Od.redState n v).reg Od.redState n = v := (Hw.reg_setReg_same ..).trans (Nat.mod_eq_of_lt hv)
  unfold Hw.setRedState
  dsimp only
  split
  · exact ((Hw.sendMirror_within ..).reg _ _ (by decide)).trans hset
  · exact hset

/-- The mask of what a change of red_state, its record for the standby and a notice change. -/
def sessionNoticedMask : Nat :=
  1231497054230075221292109331334921785643687514219322053426460578622594775983572722861013287219719037431064723724292

theorem Hw.setRedState_noticed (h : Hw) (n v kind : Nat) (fields : List (Nat × Nat)) :
    h.Within sessionNoticedMask ((h.setRedState n v).sessionNotice n kind fields) :=
  .step (Hw.sessionNotice_within ..) (by decide) (.step (Hw.setRedState_within ..) (by decide) (.refl _ _))

/-- The standby's record and the notice of a session's end leave its state. -/
theorem Hw.noticed_state (h : Hw) (n v kind : Nat) (fields : List (Nat × Nat)) (hv : v < 256) :
    ((h.setRedState n v).sessionNotice n kind fields).reg Od.redState n = v :=
  ((Hw.sessionNotice_within ..).reg _ _ (by decide)).trans (Hw.setRedState_same h n v hv)

/-- An OPEN session is COMPLETE as soon as every chunk is finished. -/
theorem Hw.checkComplete_state (h : Hw) (n : Nat) (hst : h.reg Od.redState n = 2) :
    (h.checkComplete n).reg Od.redState n = if h.chunkCount n ≤ h.reg Od.redChunksDone n then 3 else 2 := by
  unfold Hw.checkComplete
  by_cases hc : h.chunkCount n ≤ h.reg Od.redChunksDone n
  · rw [if_pos ⟨hst, hc⟩, if_pos hc, Hw.noticed_state _ _ _ _ _ (by decide)]
  · rw [if_neg (fun c => hc c.2), if_neg hc, hst]

/-! ### Parked ACWs sent again -/

theorem Hw.resendParked_preparedAt (h : Hw) (n : Nat) : ((h.resendParked n).ses n).preparedAt = (h.ses n).preparedAt := by
  unfold Hw.resendParked
  split
  · rfl
  · next uid rest _ =>
    have hses : (h.setSes n { h.ses n with parked := rest }).ses n = { h.ses n with parked := rest } := Hw.ses_setSes_same ..
    have hkept : ((h.setSes n { h.ses n with parked := rest }).ses n).preparedAt = (h.ses n).preparedAt := by rw [hses]
    dsimp only
    split <;> exact hkept

theorem Hw.resendAll_preparedAt (h : Hw) (n : Nat) : ((h.resendAll n).ses n).preparedAt = (h.ses n).preparedAt :=
  List.foldlRecOn (motive := fun x : Hw => (x.ses n).preparedAt = (h.ses n).preparedAt) _ _ rfl
    (fun x hx _ _ => (Hw.resendParked_preparedAt x n).trans hx)

end Sys2Proof.Machine
end

section
/-! Arming watermarks (R353, R354). -/

namespace Sys2Proof.Machine

/-- Watermark `w` is armed and has not crossed since. -/
def Hw.wmReady (h : Hw) (w : Nat) : Prop := h.reg Od.wmArmed w = 1 ∧ h.reg Od.wmCrossed w = 0

/-- A mask leaves watermarks armed. -/
theorem Hw.wmReady.within {a b : Hw} {m w : Nat} (ha : a.wmReady w) (h : a.Within m b) (hm : m.testBit (24 + Od.wmArmed.no) = false)
    (hc : m.testBit (24 + Od.wmCrossed.no) = false) : b.wmReady w := by
  obtain ⟨harmed, hcrossed⟩ := ha
  exact ⟨(h.reg _ _ hm).trans harmed, (h.reg _ _ hc).trans hcrossed⟩

/-- A write to another watermark leaves one armed. -/
theorem Hw.wmReady.setReg {h : Hw} {w v : Nat} (ha : h.wmReady w) (r : Reg) (x : Nat) (hv : w % 4096 ≠ v % 4096) :
    (h.setReg r v x).wmReady w := by
  obtain ⟨harmed, hcrossed⟩ := ha
  exact ⟨(Hw.reg_setReg_elsewhere _ _ _ _ _ _ hv).trans harmed, (Hw.reg_setReg_elsewhere _ _ _ _ _ _ hv).trans hcrossed⟩

/-- Another watermark that crosses leaves one armed. -/
theorem Hw.wmReady.cross {h : Hw} {w v : Nat} (ha : h.wmReady w) (e : Event) (hv : w % 4096 ≠ v % 4096) : (h.cross v e).wmReady w := by
  unfold Hw.cross
  split
  · exact ha
  · have hnoted := ((ha.setReg Od.wmLevel 1 hv).setReg Od.wmCount ((h.setReg Od.wmLevel v 1).reg Od.wmCount v + 1) hv).setReg
      Od.wmLastNs h.now hv
    dsimp only
    split
    · exact ((hnoted.setReg Od.wmCrossed 1 hv).setReg Od.wmArmed 0 hv).within (Hw.raise_within ..) (by decide) (by decide)
    · exact hnoted

/-- What the family of watermark `w` does before it is armed. -/
def Hw.beforeArming (h : Hw) (w : Nat) : Hw :=
  if 0x90 ≤ w ∧ w < 0xa0 then
    { h with car.fmtBase := Table.setD h.car.fmtBase (fun _ => 0) (w - 0x90) (h.reg Od.fmtExhausted (w - 0x90)) }.uncross w
  else if 0x100 ≤ w ∧ w % 4 ≠ 0 then h.uncross w else h

/-- The registers of a watermark that is armed. -/
def Hw.setArmed (h : Hw) (w : Nat) : Hw := (h.setReg Od.wmArmed w 1).setReg Od.wmCrossed w 0

theorem Hw.armWm_eq (h : Hw) (w : Nat) : h.armWm w =
    let x := (h.beforeArming w).setArmed w
    if x.reg Od.wmLevel w = 1 then (x.uncross w).cross w (x.wmEvent w) else x := rfl

/-- Arming another watermark leaves one armed. -/
theorem Hw.wmReady.armWm {h : Hw} {w v : Nat} (ha : h.wmReady w) (hv : w % 4096 ≠ v % 4096) : (h.armWm v).wmReady w := by
  have hbefore : (h.beforeArming v).wmReady w := by
    unfold Hw.beforeArming
    split
    · exact Hw.wmReady.setReg (h := { h with car.fmtBase := _ }) ha Od.wmLevel 0 hv
    · split
      · exact ha.setReg Od.wmLevel 0 hv
      · exact ha
  have hset : ((h.beforeArming v).setArmed v).wmReady w := (hbefore.setReg Od.wmArmed 1 hv).setReg Od.wmCrossed 0 hv
  rw [Hw.armWm_eq]
  dsimp only
  split
  · exact (hset.setReg Od.wmLevel 0 hv).cross _ hv
  · exact hset

/-- A session's watermark other than STRAGGLER starts from a level that does not stand. -/
theorem Hw.armWm_arms (h : Hw) (w : Nat) (hw : 0x100 ≤ w) (hk : w % 4 ≠ 0) : (h.armWm w).wmReady w := by
  have hbefore : h.beforeArming w = h.uncross w := by
    unfold Hw.beforeArming
    rw [if_neg (fun c => absurd c.2 (by omega)), if_pos ⟨hw, hk⟩]
  have hlevel : ((h.uncross w).setArmed w).reg Od.wmLevel w = 0 := by
    unfold Hw.setArmed
    rw [Hw.reg_setReg_ne _ _ _ _ _ _ (by decide) (by decide) (by decide), Hw.reg_setReg_ne _ _ _ _ _ _ (by decide) (by decide) (by decide)]
    exact (Hw.reg_setReg_same ..).trans (Nat.zero_mod _)
  rw [Hw.armWm_eq, hbefore]
  dsimp only
  rw [if_neg (by rw [hlevel]; decide)]
  refine ⟨?_, (Hw.reg_setReg_same ..).trans (Nat.zero_mod _)⟩
  unfold Hw.setArmed
  rw [Hw.reg_setReg_ne _ _ _ _ _ _ (by decide) (by decide) (by decide), Hw.reg_setReg_same]
  rfl

/-- The watermarks PARTIAL_FINAL, WINDOW_HIGH and NONFINITE_INPUT of session `n` are armed. -/
def Hw.wmsReady (h : Hw) (n : Nat) : Prop := ∀ k, 1 ≤ k → k < 4 → h.wmReady (sesWm n k)

theorem Hw.wmsReady.within {a b : Hw} {m n : Nat} (ha : a.wmsReady n) (h : a.Within m b)
    (hm : m.testBit (24 + Od.wmArmed.no) = false) (hc : m.testBit (24 + Od.wmCrossed.no) = false) : b.wmsReady n :=
  fun k h1 h4 => (ha k h1 h4).within h hm hc

theorem Hw.armSession_arms (h : Hw) (n : Nat) : (h.armSession n).wmsReady n := by
  have harm (x : Hw) (k : Nat) (h1 : 1 ≤ k) (h4 : k < 4) : (x.armWm (sesWm n k)).wmReady (sesWm n k) :=
    Hw.armWm_arms _ _ (by unfold sesWm; omega) (by unfold sesWm; omega)
  have hkeep {x : Hw} {j k : Nat} (hx : x.wmReady (sesWm n k)) (hjk : k < j) (hj : j < 4) : (x.armWm (sesWm n j)).wmReady (sesWm n k) :=
    hx.armWm (by unfold sesWm; omega)
  intro k h1 h4
  change (((((h.armWm (sesWm n 0)).armWm (sesWm n 1)).armWm (sesWm n 2)).armWm (sesWm n 3)).wmReady (sesWm n k))
  obtain rfl | rfl | rfl : k = 1 ∨ k = 2 ∨ k = 3 := by omega
  · exact hkeep (hkeep (harm _ 1 (by decide) (by decide)) (by decide) (by decide)) (by decide) (by decide)
  · exact hkeep (harm _ 2 (by decide) (by decide)) (by decide) (by decide)
  · exact harm _ 3 (by decide) (by decide)

end Sys2Proof.Machine
end

section
/-! What the commands of a session leave, and the end of its preparation (R216, R217, R228, R236). -/

namespace Sys2Proof.Machine

/-! ### An accepted command is carried out -/

/-- A session command that is accepted is carried out, and then at most passed on. -/
theorem Hw.dictWrite_redCommand (h : Hw) (a : Actor) (n v : Nat) (hacc : h.accepts a Od.redCommand n v) (hv : v ∈ [1, 2, 3, 4, 5]) :
    (h.command a Od.redCommand n v).Within passedOnMask (h.dictWrite a Od.redCommand n v) := by
  obtain ⟨hmay, hfield, hremote, hcore⟩ := hacc
  obtain ⟨f, hf⟩ := Option.isSome_iff_exists.1 hfield
  obtain ⟨hty, hcmd⟩ : f.ty = .enum8 [1, 2, 3, 4, 5] ∧ f.cmd = true := by
    have hd : ((fieldOf Od.redCommand).map (fun f => (f.ty, f.cmd))) = some (.enum8 [1, 2, 3, 4, 5], true) := by decide
    rw [Hw.fieldAt_of hf] at hd
    exact Prod.mk.inj (Option.some.inj hd)
  have hmod : v % 2 ^ f.ty.width = v := by
    have hle : v ≤ 5 := (by decide : ∀ x ∈ [1, 2, 3, 4, 5], x ≤ 5) v hv
    rw [hty]
    exact Nat.mod_eq_of_lt (by omega : v < 256)
  have hmask : silentMask Od.redCommand v = v := by
    unfold silentMask
    rw [if_neg (by decide), if_neg (by decide), if_neg (by decide)]
  have hown : h.ownCheck Od.redCommand n v = v := by
    unfold Hw.ownCheck
    rw [if_neg (fun c => absurd c.1 (by decide)), if_neg (by decide), if_neg (fun c => absurd c.1 (by decide)),
      if_neg (fun c => absurd c.1 (by decide)), if_neg (by decide)]
  have hblocks : h.blocks a Od.redCommand n v none = none := by
    unfold Hw.blocks
    iterate 16 rw [if_neg (by decide)]
  rw [Hw.dictWrite, if_pos hmay, Hw.writeItem, if_neg (by decide), ← Hw.runCommand_runs h a Od.redCommand n v hcore]
  exact Hw.writeOne_runs hf hcmd hremote hmod hblocks (Hw.check_code h hty n v hv hmod hmask hown)

/-! ### OPEN -/

/-- The counts of a session, which OPEN clears (R215). -/
def sessionCounts : List Reg :=
  [Od.redExcluded, Od.redMissing, Od.redChunksDone, Od.redChunksPartial, Od.redChunksLost, Od.redOpenNow, Od.redParked,
    Od.redDuplicates, Od.redWindowHigh, Od.redNonfinite]

section

variable (h : Hw) (a : Actor) (n : Nat)

theorem Hw.openSession_opens (hst : h.reg Od.redState n = 0) (hok : h.openOk a n = true) : let k := h.openSession a n
    k.reg Od.redState n = 1 ∧ (k.ses n).stack = dpaStack (h.reg Od.redOutBase n) ∧ (k.ses n).chunks = [] ∧ (k.ses n).parked = [] ∧
      ∀ r, r ∈ sessionCounts → k.reg r n = 0 := by
  unfold Hw.openSession
  rw [if_neg (not_not.2 hst), hok, if_neg (by decide)]
  extract_lets s zeroed proxy placed low opened preparing
  have hses : preparing.ses n = opened.ses n := (Hw.setRedState_stays ..).ses (by decide) n
  have hopened : opened.ses n = _ := Hw.ses_setSes_same ..
  refine ⟨Hw.setRedState_same _ _ _ (by decide), ?_, ?_, ?_, fun r hr => ?_⟩
  · rw [hses, hopened]
  · rw [hses, hopened]
  · rw [hses, hopened]
  · have hout : ∀ r ∈ sessionCounts, (131072 ||| Od.redProxyStack.mask ||| sessionStateMask).testBit (24 + r.no) = false := by decide
    have w : zeroed.Within (131072 ||| Od.redProxyStack.mask ||| sessionStateMask) preparing :=
      .step (Hw.setRedState_stays ..) (by decide) (.step (Hw.setSes_within ..) (by decide)
        (.step (Hw.setReg_within ..) (by decide) (.refl _ _)))
    rw [w.reg r n (hout r hr)]
    exact Hw.reg_zeroRegs _ h r n (.inl (List.mem_append_left [Od.redAbortReason] hr))

/-! ### EXCLUDE and REARM -/

/-- Finalizing the chunks that become complete leaves who is excluded. -/
theorem Hw.excludeCommand_excludes (hst : h.reg Od.redState n = 2) : (h.excludeCommand a n).reg Od.redExcluded n =
    (h.reg Od.redExcluded n ||| 2 ^ h.reg Od.redExcludeIndex n) % 2 ^ Od.redExcluded.width := by
  unfold Hw.excludeCommand
  rw [if_pos hst]
  refine List.foldlRecOn (motive := fun y : Hw => y.reg Od.redExcluded n =
    (h.reg Od.redExcluded n ||| 2 ^ h.reg Od.redExcludeIndex n) % 2 ^ Od.redExcluded.width) _ _ (Hw.reg_setReg_same ..)
    (fun y hy c _ => ?_)
  split
  · exact ((Hw.tryFinalize_within ..).reg _ _ (by decide)).trans hy
  · exact hy

theorem Hw.rearmCommand_arms (hst : h.reg Od.redState n = 2) :
    (h.rearmCommand a n).wmsReady n ∧ (h.rearmCommand a n).reg Od.redState n = 2 := by
  unfold Hw.rearmCommand
  rw [if_pos hst]
  exact ⟨Hw.armSession_arms h n, ((Hw.armSession_within ..).reg _ _ (by decide)).trans hst⟩

/-! ### ABORT -/

/-- What a session holds of ACWs is gone, and its chunks stay. -/
theorem Hw.dropAcws_ses (status : Nat) : (h.dropAcws n status).ses n = { h.ses n with parked := [] } := by
  have hfold (l : List Nat) (x : Hw) : (l.foldl (fun h uid => h.complete uid status) x).ses n = x.ses n :=
    List.foldlRecOn (motive := fun y : Hw => y.ses n = x.ses n) _ _ rfl
      (fun y hy uid _ => ((Hw.complete_within ..).ses (by decide) n).trans hy)
  have hown (l : List Piece) (x : Hw) : (l.foldl (fun h p => h.complete p.trk status) x).ses n = x.ses n :=
    List.foldlRecOn (motive := fun y : Hw => y.ses n = x.ses n) _ _ rfl
      (fun y hy p _ => ((Hw.complete_within ..).ses (by decide) n).trans hy)
  unfold Hw.dropAcws
  extract_lets s mine q red taken answered parked x emptied counted
  have htaken : answered.ses n = h.ses n := hown _ taken
  refine (hfold parked counted).trans ?_
  exact (Hw.ses_setSes_same ..).trans (congrArg (fun x : Session => { x with parked := [] }) htaken)

theorem Hw.dropAcws_parked (status : Nat) : (h.dropAcws n status).reg Od.redParked n = 0 := by
  unfold Hw.dropAcws
  extract_lets s mine q red taken answered parked x emptied counted
  refine List.foldlRecOn (motive := fun y : Hw => y.reg Od.redParked n = 0) _ _ ?_
    (fun y hy uid _ => ((Hw.complete_within ..).reg _ _ (by decide)).trans hy)
  exact (Hw.reg_setReg_same ..).trans (Nat.zero_mod _)

/-- A chunk without its slot. -/
def Chunk.freed (k : Chunk) : Chunk := { k with slot := none }

/-- A session that holds nothing: ABORTED for `reason`, without slots and without ACWs. -/
structure Hw.sessionAborted (k : Hw) (reason : Nat) : Prop where
  state : k.reg Od.redState n = 4
  why : k.reg Od.redAbortReason n = reason
  noneOpen : k.reg Od.redOpenNow n = 0
  noneParked : k.reg Od.redParked n = 0
  parkList : (k.ses n).parked = []
  slots : ∀ c, k.slotOfChunk n c = none

theorem Hw.abortSession_aborts (reason : Nat) (hst : h.reg Od.redState n = 1 ∨ h.reg Od.redState n = 2) (hr : reason < 256) :
    (h.abortSession n reason).sessionAborted n reason := by
  have hfits : reason % 2 ^ Od.redAbortReason.width = reason := Nat.mod_eq_of_lt hr
  unfold Hw.abortSession
  rw [if_pos hst]
  extract_lets x freed closed dropped named
  have hclosed : closed.ses n = { x with chunks := x.chunks.map (fun c => (c.1, c.2.freed)) } := Hw.ses_setSes_same ..
  have hdropped : dropped.ses n = { closed.ses n with parked := [] } := Hw.dropAcws_ses closed n _
  have hses : (((named.setRedState n 4).sessionNotice n 0x0e [(8, reason)]).ses n) = { closed.ses n with parked := [] } :=
    ((Hw.setRedState_noticed ..).ses (by decide) n).trans hdropped
  refine ⟨Hw.noticed_state _ _ _ _ _ (by decide), ?_, ?_, ?_, ?_, fun c => ?_⟩
  · rw [(Hw.setRedState_noticed ..).reg _ _ (by decide), Hw.reg_setReg_same, hfits]
  · rw [(Hw.setRedState_noticed ..).reg _ _ (by decide), Hw.reg_setReg_ne _ _ _ _ _ _ (by decide) (by decide) (by decide),
      (Hw.dropAcws_within ..).reg _ _ (by decide), Hw.reg_setReg_same, Nat.zero_mod]
  · rw [(Hw.setRedState_noticed ..).reg _ _ (by decide), Hw.reg_setReg_ne _ _ _ _ _ _ (by decide) (by decide) (by decide),
      Hw.dropAcws_parked]
  · rw [hses]
  · rw [Hw.slotOfChunk, hses, hclosed, Table.look_map]
    cases Table.look x.chunks c <;> rfl

theorem Hw.abortCommand_aborts (hst : h.reg Od.redState n = 1 ∨ h.reg Od.redState n = 2) :
    (h.abortCommand a n).sessionAborted n 1 := by
  unfold Hw.abortCommand
  rw [if_pos hst]
  exact Hw.abortSession_aborts h n 1 hst (by decide)

/-! ### CLOSE -/

theorem Hw.closeSession_closes (hst : h.reg Od.redState n = 3 ∨ h.reg Od.redState n = 4) :
    (h.closeSession a n).reg Od.redState n = 0 ∧ Table.look (h.closeSession a n).red.sessions n = none := by
  unfold Hw.closeSession
  rw [if_pos hst]
  have hred : ({ h with red.sessions := Table.del h.red.sessions n }.setRedState n 0).red =
      { h.red with sessions := Table.del h.red.sessions n } := (Hw.setRedState_stays ..).same .reductions (by decide)
  refine ⟨Hw.setRedState_same _ _ _ (by decide), ?_⟩
  rw [hred]
  exact Table.look_del_same ..

/-! ### The end of PREPARING -/

/-- A session whose map is zeroed is OPEN, or COMPLETE where no chunk is left to do. -/
theorem Hw.prepared_state (x : Session) : let p := (h.setSes n x).setRedState n 2
    let k := ((p.armSession n).resendAll n).checkComplete n
    (k.ses n).preparedAt = x.preparedAt ∧ k.wmsReady n ∧
      k.reg Od.redState n = if h.chunkCount n ≤ h.reg Od.redChunksDone n then 3 else 2 := by
  intro p k
  have hp : h.Within (131072 ||| sessionStateMask) p :=
    .step (Hw.setRedState_stays ..) (by decide) (.step (Hw.setSes_within ..) (by decide) (.refl _ _))
  have hopen : ((p.armSession n).resendAll n).reg Od.redState n = 2 := by
    rw [(Hw.resendAll_within ..).reg _ _ (by decide), (Hw.armSession_within ..).reg _ _ (by decide),
      Hw.setRedState_same _ _ _ (by decide)]
  refine ⟨?_, ?_, ?_⟩
  · rw [(Hw.checkComplete_within ..).ses (by decide), Hw.resendAll_preparedAt, (Hw.armSession_within ..).ses (by decide),
      (Hw.setRedState_stays ..).ses (by decide), Hw.ses_setSes_same]
  · exact ((Hw.armSession_arms p n).within (Hw.resendAll_within ..) (by decide) (by decide)).within (Hw.checkComplete_within ..)
      (by decide) (by decide)
  · rw [Hw.checkComplete_state _ _ hopen, (Hw.resendAll_within ..).chunkCount (by decide) (by decide),
      (Hw.armSession_within ..).chunkCount (by decide) (by decide), hp.chunkCount (by decide) (by decide),
      (Hw.resendAll_within ..).reg _ _ (by decide), (Hw.armSession_within ..).reg _ _ (by decide), hp.reg _ _ (by decide)]

end

/-- A session in PREPARING that keeps no map has its map zeroed, and is then prepared. -/
theorem sessionPrepared_zeroes (session : Fin 256) (s : State) : let n := session.val
    let w := s.hw.writeMap n 0 (List.replicate (s.hw.mapBytes n) 0)
    s.hw.reg Od.redState n = 1 → s.hw.reg Od.redResume n = 0 → (s.hw.ses n).reread = false → w.reg Od.redState n = 1 →
      Completes (.sessionPrepared session) s (((((w.setSes n { w.ses n with preparedAt := w.now, reread := false }).setRedState n
        2).armSession n).resendAll n).checkComplete n) := by
  intro n w hst hresume hreread hw
  have hzero : (if s.hw.reg Od.redResume n = 1 ∨ (s.hw.ses n).reread = true then s.hw.readMap n true
      else s.hw.writeMap n 0 (List.replicate (s.hw.mapBytes n) 0)) = w := if_neg (by simp [hresume, hreread])
  have hrow : exec (.sessionPrepared session) s = execSessionPrepared session s := rfl
  rw [Completes, hrow, execSessionPrepared, State.on]
  dsimp only
  rw [if_neg (not_not.2 hst), hzero, if_neg (not_not.2 hw)]

/-! ### The rows -/

/-- Settles O40, one row after another: what its command does, read through what passes it on. -/
theorem sessionCommands : Obligations.SessionCommands := by
  intro who session s n st armed
  have runs (v : Nat) (hv : v ∈ [1, 2, 3, 4, 5]) (hacc : s.hw.accepts who Od.redCommand n v) :
      (s.hw.command who Od.redCommand n v).Within passedOnMask (s.hw.dictWrite who Od.redCommand n v) :=
    Hw.dictWrite_redCommand s.hw who n v hacc hv
  refine ⟨?_, ?_, ?_, ?_, ?_, ?_⟩
  · intro hacc hst hok
    have w := runs 1 (by decide) hacc
    rw [Hw.command_redCommand_1] at w
    obtain ⟨hstate, hstack, hchunks, hparked, hcounts⟩ := Hw.openSession_opens s.hw who n hst hok
    have hout : ∀ r ∈ sessionCounts, passedOnMask.testBit (24 + r.no) = false := by decide
    refine ⟨_, rfl, (w.reg _ _ (by decide)).trans hstate, ?_, ?_, ?_, fun r hr => (w.reg r n (hout r hr)).trans (hcounts r hr)⟩
    · rw [w.ses (by decide), hstack]
    · rw [w.ses (by decide), hchunks]
    · rw [w.ses (by decide), hparked]
  · intro w hst hresume hreread hw
    exact ⟨_, sessionPrepared_zeroes session s hst hresume hreread hw, Hw.prepared_state w n _⟩
  · intro hacc hst
    have w := runs 4 (by decide) hacc
    rw [Hw.command_redCommand_4] at w
    exact ⟨_, rfl, (w.reg _ _ (by decide)).trans (Hw.excludeCommand_excludes s.hw who n hst)⟩
  · intro hacc hst
    have w := runs 5 (by decide) hacc
    rw [Hw.command_redCommand_5] at w
    obtain ⟨harmed, hstate⟩ := Hw.rearmCommand_arms s.hw who n hst
    exact ⟨_, rfl, harmed.within w (by decide) (by decide), (w.reg _ _ (by decide)).trans hstate⟩
  · intro hacc hst
    have w := runs 2 (by decide) hacc
    rw [Hw.command_redCommand_2] at w
    have habort := Hw.abortCommand_aborts s.hw who n hst
    refine ⟨_, rfl, (w.reg _ _ (by decide)).trans habort.state, (w.reg _ _ (by decide)).trans habort.why,
      (w.reg _ _ (by decide)).trans habort.noneOpen, (w.reg _ _ (by decide)).trans habort.noneParked, ?_, fun c => ?_⟩
    · rw [w.ses (by decide), habort.parkList]
    · rw [Hw.slotOfChunk, w.ses (by decide)]
      exact habort.slots c
  · intro hacc hst
    have w := runs 3 (by decide) hacc
    rw [Hw.command_redCommand_3] at w
    obtain ⟨hstate, hgone⟩ := Hw.closeSession_closes s.hw who n hst
    have hred : (s.hw.dictWrite who Od.redCommand n 3).red = (s.hw.closeSession who n).red := w.same .reductions (by decide)
    exact ⟨_, rfl, (w.reg _ _ (by decide)).trans hstate, (congrArg (fun x : RedSt => Table.look x.sessions n) hred).trans hgone⟩

end Sys2Proof.Machine
end

section
/-! A request that completes while it is dispatched: its tracker entry waits for egress with the status, and of the ports only what
is ready for egress has changed (R62, R65, R66). -/

namespace Sys2Proof.Machine

/-! ### What an answer leaves of the ports -/

/-- From `a` to `b`, of the ports at most what is ready for egress has changed. -/
def Hw.EgressOnly (a b : Hw) : Prop := ∀ n, ∃ l, b.port n = { a.port n with ready := l }

theorem Hw.EgressOnly.of_ports {a b : Hw} (h : b.req.ports = a.req.ports) : a.EgressOnly b :=
  fun n => ⟨(a.port n).ready, Hw.port_of_ports h n⟩

theorem Hw.EgressOnly.trans {a b c : Hw} (h1 : a.EgressOnly b) (h2 : b.EgressOnly c) : a.EgressOnly c := by
  intro n
  obtain ⟨l, hl⟩ := h1 n
  obtain ⟨m, hm⟩ := h2 n
  exact ⟨m, by rw [hm, hl]⟩

theorem Hw.emit_egressOnly (h : Hw) (port : Nat) (u : OutUnit) : h.EgressOnly (h.emit port u) := by
  unfold Hw.emit
  split
  · exact .of_ports rfl
  · intro n
    by_cases hn : n = port
    · subst hn
      exact ⟨_, Hw.port_setPort_same ..⟩
    · exact ⟨(h.port n).ready, Hw.port_setPort_ne _ _ _ _ hn⟩

theorem Hw.answer_egressOnly (h : Hw) (uid st : Nat) (d : List Byte) (psn : List Bool) : h.EgressOnly (h.answer uid st d psn) := by
  unfold Hw.answer
  split
  · dsimp only
    split
    · exact .of_ports rfl
    · split
      · exact .of_ports (Hw.releaseTrk_ports ..)
      · refine Hw.EgressOnly.trans (.of_ports ?_) (Hw.emit_egressOnly _ _ _)
        split <;> rfl
  · exact .of_ports rfl

theorem Hw.winDone_ports (h : Hw) (r n st : Nat) : (h.winDone r n st).req.ports = h.req.ports := by
  unfold Hw.winDone
  split <;> rfl

theorem Hw.settleWin_egressOnly (h : Hw) (rq : Rq) (st : Nat) : h.EgressOnly (h.settleWin rq st) := by
  unfold Hw.settleWin
  split
  · split
    · exact .of_ports rfl
    · refine List.foldlRecOn (motive := h.EgressOnly) _ _ (.of_ports (Hw.winDone_ports ..)) (fun x hx v _ => ?_)
      split
      · split
        · exact hx.trans (.of_ports rfl)
        · exact hx.trans (Hw.answer_egressOnly _ _ _ _ _)
      · exact hx
  · exact .of_ports rfl

theorem Hw.complete_egressOnly (h : Hw) (uid st : Nat) (d : List Byte) (psn : List Bool) : h.EgressOnly (h.complete uid st d psn) := by
  unfold Hw.complete
  split
  · split
    · exact .of_ports rfl
    · exact (Hw.settleWin_egressOnly _ _ _).trans (Hw.answer_egressOnly _ _ _ _ _)
  · exact .of_ports rfl

/-! ### The entry of a request that completes -/

/-- The entry of request `uid` is that of `t`; if it is answered, with status `st`. -/
def Hw.answersAs (h : Hw) (uid : Nat) (t : Tracker) (st : Nat) : Prop :=
  ∃ u, h.trk uid = some u ∧ u.rq = t.rq ∧ u.orphan = t.orphan ∧ (u.phase = .responding → u.status = st)

theorem Hw.answersAs.of_trk {a b : Hw} {uid st : Nat} {t : Tracker} (ha : a.answersAs uid t st) (h : b.trk uid = a.trk uid) :
    b.answersAs uid t st := by
  unfold Hw.answersAs
  rwa [h]

section

variable {h : Hw} {uid st : Nat} {t : Tracker}

/-- An answer to it leaves it answered. -/
theorem Hw.answersAs.answered (ht : h.answersAs uid t st) (hd : h.discards t = false) (d : List Byte) (psn : List Bool) :
    ∃ u, (h.answer uid st d psn).trk uid = some u ∧ u.rq = t.rq ∧ u.orphan = t.orphan ∧ u.phase = .responding ∧ u.status = st := by
  obtain ⟨u, hu, hrq, ho, hst⟩ := ht
  by_cases hph : u.phase = .responding
  · refine ⟨u, ?_, hrq, ho, hph, hst hph⟩
    rw [Hw.answer, hu]
    dsimp only
    rw [if_pos hph, hu]
  · exact ⟨_, Hw.answer_trk h uid st d psn u hu hph ((h.discards_congr hrq ho).trans hd), hrq, ho, rfl, rfl⟩

/-- An answer to any request leaves it as it is, or answered. -/
theorem Hw.answersAs.answer (ht : h.answersAs uid t st) (hd : h.discards t = false) (v : Nat) (d : List Byte) (psn : List Bool) :
    (h.answer v st d psn).answersAs uid t st := by
  by_cases hv : uid = v
  · subst hv
    obtain ⟨u, hu, hrq, ho, -, hst⟩ := ht.answered hd d psn
    exact ⟨u, hu, hrq, ho, fun _ => hst⟩
  · exact ht.of_trk (Hw.answer_trk_ne h hv st d psn)

/-- The repeats that waited for a request go on with their own entries: one that is no RD stays. -/
theorem Hw.answersAs.settleWin (ht : h.answersAs uid t st) (hop : t.rq.op ≠ 1) (hd : h.discards t = false) (rq : Rq) :
    (h.settleWin rq st).answersAs uid t st := by
  unfold Hw.settleWin
  split
  · next n _ =>
    split
    · exact ht
    · refine (List.foldlRecOn (motive := fun x => h.Within requestEndMask x ∧ x.answersAs uid t st) _ _ ⟨?_, ?_⟩ ?_).2
      · exact .step (Hw.winDone_within ..) (by decide) (.refl _ _)
      · exact ht.of_trk (Hw.trk_of_trackers (Hw.winDone_trackers ..) uid)
      · rintro x ⟨hw, hx⟩ v -
        split
        · next y hy =>
          split
          · next hread =>
            have hne : uid ≠ v := by
              rintro rfl
              obtain ⟨u, hu, hrq, -⟩ := hx
              obtain rfl := Option.some.inj (hu.symm.trans hy)
              exact hop (hrq ▸ hread.1)
            exact ⟨.step (Hw.enqueueArb_within ..) (by decide) (.step (Hw.setTrk_within ..) (by decide) hw),
              hx.of_trk (Hw.trk_setTrk_ne _ _ _ _ hne)⟩
          · exact ⟨.step (Hw.answer_within ..) (by decide) hw, hx.answer ((hw.end_discards t).trans hd) v _ _⟩
        · exact ⟨hw, hx⟩
  · exact ht

/-- A request on its way, neither RD nor BIRSP, whose response is not discarded waits for egress once it completes. -/
theorem Hw.complete_responds (ht : h.trk uid = some t) (hph : t.phase ≠ .responding) (h1 : t.rq.op ≠ 1) (h9 : t.rq.op ≠ 9)
    (hd : h.discards t = false) (d : List Byte) (psn : List Bool) :
    ∃ u, (h.complete uid st d psn).trk uid = some u ∧ u.rq = t.rq ∧ u.phase = .responding ∧ u.status = st := by
  have hset : (h.settleWin t.rq st).answersAs uid t st :=
    Hw.answersAs.settleWin ⟨t, ht, rfl, rfl, fun c => absurd c hph⟩ h1 hd t.rq
  obtain ⟨u, hu, hrq, -, hphase, hst⟩ := hset.answered ((Hw.Within.end_discards (Hw.settleWin_within ..) t).trans hd) d psn
  rw [Hw.complete, ht]
  dsimp only
  rw [if_neg (not_or.2 ⟨hph, h9⟩)]
  exact ⟨u, hu, hrq, hphase, hst⟩

end

end Sys2Proof.Machine
end

section
/-! An ACW that passes admission: it waits for the slice that accumulates, or it is too late for its session (R56, R61, R219). -/

namespace Sys2Proof.Machine

/-! ### Admission -/

theorem Hw.Within.admit_acwFits {a b : Hw} (w : a.Within admitMask b) (r : Rq) : b.acwFits r = a.acwFits r := by
  unfold Hw.acwFits Hw.inputLen Hw.elemsOf Hw.chunkCount
  simp (disch := decide) only [w.reg]

theorem Hw.permits_enterAcw {h : Hw} {r x : Rq} (h4 : x.op = 4) (hp : h.permits x) : (h.enter r).permits x := by
  have w := Hw.enter_admitWithin h r
  have hne (k : Nat) (hk : 4 ≠ k) : x.op ≠ k := h4 ▸ hk
  obtain ⟨hform, hfen, hmap, hright, hfits⟩ := hp
  exact ⟨(Hw.formed_other x (hne 8 (by decide)) _ _).trans hform, w.admit_fenced.trans hfen, (w.admit_unmapped x).trans hmap,
    (w.admit_rights x (hne 7 (by decide)) (hne 8 (by decide))).trans hright, fun h => (w.admit_acwFits x).trans (hfits h)⟩

section

variable {h : Hw} {r : Rq} (hop : r.op = 4)
include hop

/-- An ACW with its data that may enter takes its tracker entry and goes on its way. -/
theorem Hw.headerIn_acw (hb : r.beatsLeft = 0) (hq : h.portQuiet r.port) (hp : h.permits r) (hr : h.hasRoom r) :
    h.headerIn r = ((h.admitted r).dispatch r.uid).noteBlock r.port := by
  obtain ⟨-, -, -, hdef, -⟩ := id hq
  have hadm := Hw.admission_passes (h.enter r) { r with start := h.now } (by rw [hop]; decide) (Hw.permits_enterAcw hop hp)
    (Hw.hasRoom_enter hr) ((congrArg Port.deferred (Hw.enter_port h r)).trans hdef)
  rw [Hw.headerIn_quiet h r hq (by simp [Rq.testable, hb]), hadm, Hw.allocTrk_eq, if_pos hb]
  rfl

/-- An ACW of good parity that is no repeat is dispatched by the state of its session. -/
theorem Hw.admitted_dispatchAcw (hc : r.clean) :
    ∃ t, (h.admitted r).trk r.uid = some t ∧ t.rq = h.kept r ∧ t.phase = .waitData ∧ t.orphan = false ∧
      (h.admitted r).dispatch r.uid = (h.admitted r).dispatchAcw r.uid t := by
  obtain ⟨t, ht, hrq, -, hph⟩ := Hw.admitted_trk h r
  obtain ⟨hrep, hpar, -⟩ := hc
  have horphan : t.orphan = false := by
    obtain rfl := Option.some.inj (ht.symm.trans (Hw.takeTrk_trk _ { r with start := h.now }))
    rfl
  have hop' : t.rq.op = 4 := by rw [hrq]; exact hop
  have hrep' : t.rq.isRepeat = false := by rw [hrq]; exact hrep
  have hpar' : t.rq.parBad = false := by rw [hrq]; exact hpar
  refine ⟨t, ht, hrq, hph, horphan, ?_⟩
  rw [Hw.dispatch, ht]
  dsimp only
  rw [if_pos hph, hrep', if_neg (by decide), Hw.dispatchNew]
  rw [hpar', hop', if_neg (by simp)]
  rfl

end

/-- The mask of what admission changes: `admitMask` without the links. -/
def admittedMask : Nat :=
  1231312693637327475383720003129487931408741852202045208373384168882678805359287831607052347196467803294378072477956


/-! ### An ACW of an OPEN session -/

section

variable {h : Hw} {r : Rq} {n k : Nat} (hop : r.op = 4) (hext : r.ext / 4096 % 256 = n ∧ r.ext % 4096 = k) (hb : r.beatsLeft = 0)
  (hc : r.clean) (hw : h.waitsAt r (h.accStack n))
include hop hext hb hc hw

/-- An ACW of an OPEN session that takes its contributor waits at the ingress of the slice that accumulates. -/
theorem Hw.headerIn_acwQueued (huid : r.uid = h.req.uidNext) (hst : h.reg Od.redState n = 2)
    (hex : (h.reg Od.redExcluded n).testBit k = false) :
    h.queuedAt (h.headerIn r) r (h.accStack n) ∧ (h.headerIn r).passIdle r.uid = h.headerIn r ∧
      (h.headerIn r).forwardedTo r.uid = none := by
  obtain ⟨hq, -, hp, hr, hnext⟩ := hw
  obtain ⟨t, ht, hrq, -, -, hgo⟩ := Hw.admitted_dispatchAcw (h := h) hop hc
  have w := Hw.admitted_within h r
  obtain ⟨hn, hk⟩ : t.rq.ext / 4096 % 256 = n ∧ t.rq.ext % 4096 = k := by rw [hrq]; exact hext
  have hacc : (h.admitted r).accStack n = h.accStack n := by rw [Hw.accStack, w.ses (by decide), Hw.accStack]
  have hqueue : (h.admitted r).dispatchAcw r.uid t = (h.admitted r).queueUp r.uid (h.accStack n) := by
    rw [Hw.dispatchAcw, hn, hk, w.reg _ _ (by decide), w.reg _ _ (by decide), hst, hex, hacc, if_neg (by simp), if_neg (by decide)]
  obtain ⟨-, -, hheld, hdef, hblk⟩ := id hq
  have hport : ((h.admitted r).queueUp r.uid (h.accStack n)).port r.port = h.portEntered r :=
    (Hw.queueUp_port _ _ _ _ t ht).trans (Hw.admitted_port h r)
  have hin : h.headerIn r = (h.admitted r).queueUp r.uid (h.accStack n) := by
    rw [Hw.headerIn_acw hop hb hq hp hr, hgo, hqueue]
    exact Hw.noteBlock_idle _ _ ((congrArg Port.held hport).trans hheld) ((congrArg Port.deferred hport).trans hdef)
      ((congrArg Port.blockedSince hport).trans hblk)
  have htrk := Hw.queueUp_trk (h.admitted r) r.uid (h.accStack n) t ht
  have hbehind : (((h.admitted r).queueUp r.uid (h.accStack n)).arb (h.accStack n)).next.isSome = true := by
    rw [Hw.queueUp_next _ _ _ t ht, Hw.admitted_arb, hnext]
  rw [hin]
  refine ⟨Hw.queuedAt_queueUp _ huid, Hw.passIdle_behind _ _ _ htrk hbehind, ?_⟩
  rw [Hw.forwardedTo, htrk]
  exact if_neg TrkPhase.noConfusion

/-! ### An ACW that comes too late -/

/-- An ACW of a session that is COMPLETE or ABORTED is answered ABORTED. -/
theorem Hw.headerIn_acwAborted (hst : 3 ≤ h.reg Od.redState n) :
    (∃ t, (h.headerIn r).trk r.uid = some t ∧ t.rq = h.kept r ∧ t.phase = .responding ∧ t.status = St.aborted) ∧
      h.ChangesOnly servedParts servedRegs (h.headerIn r) := by
  obtain ⟨hq, -, hp, hr, -⟩ := hw
  obtain ⟨t, ht, hrq, hph, horphan, hgo⟩ := Hw.admitted_dispatchAcw (h := h) hop hc
  have w := Hw.admitted_within h r
  have hn : t.rq.ext / 4096 % 256 = n := by rw [hrq]; exact hext.1
  have hlate : (h.admitted r).dispatchAcw r.uid t = (h.admitted r).complete r.uid St.aborted := by
    rw [Hw.dispatchAcw, hn, w.reg _ _ (by decide), if_pos (.inl hst)]
  obtain ⟨hup, -, hheld, hdef, hblk⟩ := id hq
  obtain ⟨l, hl⟩ := Hw.complete_egressOnly (h.admitted r) r.uid St.aborted [] [] r.port
  rw [Hw.admitted_port] at hl
  have hin : h.headerIn r = (h.admitted r).complete r.uid St.aborted := by
    rw [Hw.headerIn_acw hop hb hq hp hr, hgo, hlate]
    exact Hw.noteBlock_idle _ _ ((congrArg Port.held hl).trans hheld) ((congrArg Port.deferred hl).trans hdef)
      ((congrArg Port.blockedSince hl).trans hblk)
  have hkept : (h.admitted r).discards t = false := by
    have hepoch : (h.admitted r).reg Od.reqEpoch t.rq.requester = t.rq.epoch := by
      rw [w.reg _ _ (by decide), hrq]
      rfl
    have hport : (h.admitted r).reg Od.portState t.rq.port = 1 := by
      rw [w.reg _ _ (by decide), hrq]
      exact hup
    rw [Hw.discards, horphan, hepoch, hport]
    simp
  have hop' : t.rq.op = 4 := by rw [hrq]; exact hop
  obtain ⟨u, hu, hurq, hanswered⟩ := Hw.complete_responds (st := St.aborted) ht (by rw [hph]; decide) (by rw [hop']; decide)
    (by rw [hop']; decide) hkept [] []
  rw [hin]
  refine ⟨⟨u, hu, hurq.trans hrq, hanswered⟩, ?_⟩
  have wend : h.Within (admittedMask ||| requestEndMask) ((h.admitted r).complete r.uid St.aborted) :=
    .step (Hw.complete_within ..) (by decide) (.step w (by decide) (.refl _ _))
  exact wend.changesOnly _ _ (by decide) (by decide)

end

/-! ### The row -/

/-- An ACW that does not pass its stack ingress at once is not contributed yet. -/
theorem acw_rests (x : Hdr) (len : BitVec 6) (n : BitVec 8) (k : BitVec 12) (chunk : BitVec 32) (data : List Byte) (psn : List Bool)
    (s : State) {w : Hw} (hw : (s.hw.arrive (s.hw.typed x 4 len.toNat 0 (n.toNat * 4096 + k.toNat) chunk.toNat) data [] psn).passIdle
      s.hw.req.uidNext = w) (hf : w.forwardedTo s.hw.req.uidNext = none) : Completes (.acw x len n k chunk data psn) s w := by
  have hrow : exec (.acw x len n k chunk data psn) s = execAcw x len n k chunk data psn s := rfl
  rw [Completes, hrow, execAcw, State.on]
  dsimp only
  rw [hw, hf]

/-- Settles O18: an ACW enters as one header; the state of its session decides whether it waits or is answered. -/
theorem contributionQueued : Obligations.ContributionQueued := by
  intro x len n k chunk data psn s r hw
  have hext : r.ext / 4096 % 256 = n.toNat ∧ r.ext % 4096 = k.toNat := by
    have hr : r.ext = (n.toNat * 4096 + k.toNat) % 2 ^ 20 := rfl
    have hn := n.isLt
    have hk := k.isLt
    rw [hr]
    omega
  have hclean : r.clean := Rq.clean_typed s.hw x 4 _ _ _ _ _ _ _ (.inl (by decide))
  have harrive : s.hw.arrive (s.hw.typed x 4 len.toNat 0 (n.toNat * 4096 + k.toNat) chunk.toNat) data [] psn = s.hw.headerIn r := by
    obtain ⟨-, hd, -⟩ := hw
    rw [Hw.arrive_fits s.hw (s.hw.typed x 4 _ _ _ _) data [] psn hd, if_neg (Rq.beats_ne_zero _ (by decide : 4 ∈ [2, 3, 4, 5, 6, 8]))]
  refine ⟨fun hst hex => ?_, fun hst => ?_⟩
  · obtain ⟨hqueued, hpass, hrest⟩ := Hw.headerIn_acwQueued (h := s.hw) (r := r) rfl hext rfl hclean hw rfl hst hex
    exact ⟨_, acw_rests x len n k chunk data psn s (by rw [harrive]; exact hpass) hrest, hqueued⟩
  · obtain ⟨⟨t, ht, hrq, hph, hstatus⟩, hframe⟩ := Hw.headerIn_acwAborted (h := s.hw) (r := r) rfl hext rfl hclean hw hst
    have hpass : (s.hw.headerIn r).passIdle r.uid = s.hw.headerIn r := by
      rw [Hw.passIdle, ht]
      dsimp only
      rw [if_neg (fun c => by simp [hph] at c)]
    have hrest : (s.hw.headerIn r).forwardedTo r.uid = none := by
      rw [Hw.forwardedTo, ht]
      dsimp only
      rw [if_neg (by rw [hph]; decide)]
    exact ⟨_, acw_rests x len n k chunk data psn s (by rw [harrive]; exact hpass) hrest, t, ht, hrq, hph, hstatus, hframe⟩

end Sys2Proof.Machine
end

section
/-! A statement that fails where a done map lies beyond its stack's visible range: O41, in its clause of a map entry. It has no
premise that the map is where an OPEN accepts one (R217), and a parity group's data stands at higher offsets than those it is read
at: past the end of the stack the sector's key names the next one, whose full buffer then gives up what has just been merged. -/

namespace Sys2Proof.Machine

/-- Stacks 0 and 1 are a parity group. Session 0 is OPEN, its done map at offset 2^36 of stack 0, its chunk 0 FINAL and not yet
mapped. Buffers are full at two sectors and drain to none; at stack 1 one sector waits behind its own eviction. -/
def stripedMapBlock : Hw :=
  (((((({ red := { sessions := [(0, { chunks := [(0, { st := .final })] })] }, mem := { wcbWait := [(secKey 1 0, [{}])] } } : Hw).setReg
    Od.redState 0 2).setReg Od.redMapBase 0 (2 ^ 36)).setReg Od.partAlloc 0 1).setReg Od.partStacks 0 3).setReg Od.partParity 0 1).setReg
    Od.wcbHigh 0 2 |>.setReg Od.wcbLow 0 0

/-- The sector of chunk 0's map entry. -/
def stripedMapSector : Nat :=
  let a := stripedMapBlock.reg Od.redMapBase 0 + 0 / 4
  secKey (dpaStack a) (stripedMapBlock.physical (dpaStack a) (dpaOff a))

/-- Is that sector in the buffer once the map entry has been written. -/
def stripedMapBuffered : Bool :=
  match exec (.mapEntryWrite 0 0) { hw := stripedMapBlock, pending := [] } with
  | .next t => (Table.look t.hw.mem.wcb stripedMapSector).isSome
  | _ => true

theorem stripedMapBuffered_eq : stripedMapBuffered = false := by decide +kernel

theorem stripedMap_landed (x : Nat) (hx : x ∈ stripedMapBlock.outputSectors 0 0) : stripedMapBlock.sectorLanded x = true :=
  List.all_eq_true.1 (by decide +kernel : (stripedMapBlock.outputSectors 0 0).all stripedMapBlock.sectorLanded = true) x hx

/-- Refutes O41, in its clause of a map entry: in `stripedMapBlock` the entry of chunk 0 belongs to a sector that counts as one of
stack 1, so that the merge fills up stack 1's buffer, which drains, and the buffer does not hold the entry. -/
theorem not_contributions : ¬ Obligations.Contributions := by
  intro h
  obtain ⟨-, hmap, -⟩ := h 0 0 0 { hw := stripedMapBlock, pending := [] }
  obtain ⟨k, hk, -, w, v, hw, -⟩ := hmap (by decide +kernel) rfl (by decide +kernel) rfl stripedMap_landed (by decide +kernel)
    (by decide +kernel) (by decide +kernel) rfl (by decide +kernel)
  have hheld : stripedMapBuffered = (Table.look k.mem.wcb stripedMapSector).isSome := by rw [stripedMapBuffered, hk]
  have hlook : Table.look k.mem.wcb stripedMapSector = some w := hw
  rw [stripedMapBuffered_eq, hlook] at hheld
  exact Bool.false_ne_true hheld

end Sys2Proof.Machine
end

section
/-! Concrete states that meet the hypotheses of O18 and O40, row by row, and what the statements then say of them. -/

namespace Sys2Proof.Machine

/-- Port 0, requester 0, stack 0 and its partition 0, ACTIVE, are in use; session 0 of partition 0, its output at offset 0 and its
done map at offset 4096 of stack 0, is in state `st`; a grant is decided at stack 0's ingress. -/
def sessionBlock (st : Nat) : Hw :=
  ((((((((((({ req := { arbs := [(0, { next := some { source := 0, cls := 0 } })] } } : Hw).setReg Od.portState 0 1).setReg
    Od.reqState 0 1).setReg Od.reqLimit 0 8).setReg Od.stackState 0 1).setReg Od.stackCapacity 0 (2 ^ 30)).setReg
    Od.partAlloc 0 1).setReg Od.partStacks 0 1).setReg Od.partState 0 3).setReg Od.reqPartitions 0 1).setReg Od.reqWrite 0 1).setReg
    Od.redMapBase 0 4096 |>.setReg Od.redState 0 st

/-- `sessionBlock` with nothing to come from its queue. -/
def sessionState (st : Nat) : State := { hw := sessionBlock st, pending := [] }

/-! ### O18 -/

/-- Contributor 0's ACW for chunk 0 of session 0, 64 B of zeros, with sequence number 0. -/
def firstAcw (st : Nat) : Rq := ((sessionBlock st).typed (headerOnPort0 (some 0)) 4 0 0 0 0).bringing [] [] []

/-- It passes admission, whether session 0 is OPEN or COMPLETE. -/
theorem firstAcw_waitsAt (st : Nat) (hst : st ∈ [2, 3]) : (sessionBlock st).waitsAt (firstAcw st) ((sessionBlock st).accStack 0) := by
  simp only [List.mem_cons, List.not_mem_nil, or_false] at hst
  rcases hst with rfl | rfl <;>
    exact ⟨⟨by decide +kernel, rfl, rfl, rfl, rfl⟩, by decide +kernel,
      ⟨by decide +kernel, by decide +kernel, by decide +kernel, by decide +kernel, fun _ => by decide +kernel⟩,
      ⟨fun n hn => by obtain rfl : 0 = n := Option.some.inj hn; exact ⟨by decide +kernel, .inl rfl⟩, by decide +kernel,
        by decide +kernel⟩,
      by decide +kernel⟩

/-- While session 0 is OPEN the ACW waits at stack 0's ingress. -/
theorem openSession_acw_queued : Leads (.acw (headerOnPort0 (some 0)) 0 0 0 0 [] []) (sessionState 2)
    (fun h => (sessionBlock 2).queuedAt h (firstAcw 2) ((sessionBlock 2).accStack 0)) := by
  obtain ⟨hopen, -⟩ := contributionQueued (headerOnPort0 (some 0)) 0 0 0 0 [] [] (sessionState 2) (firstAcw_waitsAt 2 (by decide))
  exact hopen (by decide +kernel) (by decide +kernel)

/-- Once session 0 is COMPLETE it is answered ABORTED. -/
theorem completeSession_acw_aborted : Leads (.acw (headerOnPort0 (some 0)) 0 0 0 0 [] []) (sessionState 3)
    (fun h => ∃ t, h.trk 0 = some t ∧ t.phase = .responding ∧ t.status = St.aborted) := by
  obtain ⟨-, hlate⟩ := contributionQueued (headerOnPort0 (some 0)) 0 0 0 0 [] [] (sessionState 3) (firstAcw_waitsAt 3 (by decide))
  obtain ⟨k, hk, t, ht, -, hph, hstatus, -⟩ := hlate (by decide +kernel)
  exact ⟨k, hk, t, ht, hph, hstatus⟩

/-! ### O40 -/

/-- Firmware may give each command to session 0. -/
theorem sessionBlock_accepts (st v : Nat) (hst : st ∈ [0, 1, 2, 3]) (hv : v ∈ [1, 2, 3, 4, 5]) :
    (sessionBlock st).accepts .firmware Od.redCommand 0 v := by
  have hall : ∀ st ∈ [0, 1, 2, 3], ∀ v ∈ [1, 2, 3, 4, 5], (sessionBlock st).mayWrite .firmware Od.redCommand 0 v = true ∧
      ((sessionBlock st).fieldAt Od.redCommand 0).isSome = true ∧ (sessionBlock st).remoteCopy Od.redCommand.index 0 = false ∧
        (sessionBlock st).reg Od.dbgHalted % 4 ≠ 3 := by decide +kernel
  exact hall st hst v hv

/-- OPEN of session 0. -/
theorem freeSession_prepares : Leads (.openSession .firmware 0) (sessionState 0) (fun h => h.reg Od.redState 0 = 1) := by
  obtain ⟨hopen, -⟩ := sessionCommands .firmware 0 (sessionState 0)
  exact (hopen (sessionBlock_accepts 0 1 (by decide) (by decide)) (by decide +kernel) (by decide +kernel)).imp (fun _ h => h.1)

/-- Its map zeroed, the session has one chunk to do and is OPEN. -/
theorem preparingSession_opens : Leads (.sessionPrepared 0) (sessionState 1) (fun h => h.reg Od.redState 0 = 2) := by
  obtain ⟨-, hprepared, -⟩ := sessionCommands .firmware 0 (sessionState 1)
  obtain ⟨k, hk, -, -, hstate⟩ := hprepared (by decide +kernel) (by decide +kernel) (by decide +kernel) (by decide +kernel)
  exact ⟨k, hk, hstate.trans (by decide +kernel)⟩

/-- EXCLUDE of contributor 0. -/
theorem openSession_excludes : Leads (.exclude .firmware 0) (sessionState 2) (fun h => h.reg Od.redExcluded 0 = 1) := by
  obtain ⟨-, -, hexclude, -⟩ := sessionCommands .firmware 0 (sessionState 2)
  obtain ⟨k, hk, hbits⟩ := hexclude (sessionBlock_accepts 2 4 (by decide) (by decide)) (by decide +kernel)
  exact ⟨k, hk, hbits.trans (by decide +kernel)⟩

/-- REARM of the watermark PARTIAL_FINAL among others. -/
theorem openSession_rearms : Leads (.rearm .firmware 0) (sessionState 2) (fun h => h.reg Od.wmArmed (sesWm 0 1) = 1) := by
  obtain ⟨-, -, -, hrearm, -⟩ := sessionCommands .firmware 0 (sessionState 2)
  obtain ⟨k, hk, harmed, -⟩ := hrearm (sessionBlock_accepts 2 5 (by decide) (by decide)) (by decide +kernel)
  exact ⟨k, hk, (harmed 1 (by decide) (by decide)).1⟩

/-- ABORT while the session is OPEN. -/
theorem openSession_aborts : Leads (.abort .firmware 0) (sessionState 2) (fun h => h.reg Od.redState 0 = 4) := by
  obtain ⟨-, -, -, -, habort, -⟩ := sessionCommands .firmware 0 (sessionState 2)
  exact (habort (sessionBlock_accepts 2 2 (by decide) (by decide)) (by decide +kernel)).imp (fun _ h => h.1)

/-- CLOSE once the session is COMPLETE. -/
theorem completeSession_closes : Leads (.close .firmware 0) (sessionState 3) (fun h => h.reg Od.redState 0 = 0) := by
  obtain ⟨-, -, -, -, -, hclose⟩ := sessionCommands .firmware 0 (sessionState 3)
  exact (hclose (sessionBlock_accepts 3 3 (by decide) (by decide)) (by decide +kernel)).imp (fun _ h => h.1)

end Sys2Proof.Machine
end

section
/-! What sending, failures and fencing leave of the span ports (R15, R244). -/

namespace Sys2Proof.Machine

/-- The span ports without what sending changes of them: next sequence numbers and replay buffers (R15). -/
def Hw.spanSides (h : Hw) (p : Nat) : Link := (h.span p).unsent

/-- From `a` to `b` no span port has changed but by sending. -/
structure Hw.SpansKept (a b : Hw) : Prop where
  sides : b.spanSides = a.spanSides

theorem Hw.SpansKept.refl (a : Hw) : a.SpansKept a := ⟨rfl⟩

theorem Hw.SpansKept.trans {a b c : Hw} (h1 : a.SpansKept b) (h2 : b.SpansKept c) : a.SpansKept c := ⟨h2.sides.trans h1.sides⟩

theorem Hw.SpansKept.span {a b : Hw} (h : a.SpansKept b) (p : Nat) : (b.span p).unsent = (a.span p).unsent := congrFun h.sides p

/-- What leaves the links alone leaves the span ports. -/
theorem Hw.SpansKept.of_lnk {a b : Hw} (h : b.lnk = a.lnk) : a.SpansKept b := by
  refine ⟨funext fun p => ?_⟩
  rw [Hw.spanSides, Hw.span, h, Hw.spanSides, Hw.span]

theorem Hw.Within.spansKept {m : Nat} {a b : Hw} (w : a.Within m b) (hl : m.testBit Part.links.no = false) : a.SpansKept b :=
  .of_lnk (w.same .links hl)

theorem Hw.SpansKept.fold {α : Type} {f : Hw → α → Hw} (hf : ∀ (h : Hw) (x : α), h.SpansKept (f h x)) (l : List α) (a : Hw) :
    a.SpansKept (l.foldl f a) :=
  List.foldlRecOn (motive := fun b : Hw => a.SpansKept b) _ _ (.refl a) (fun b hb x _ => hb.trans (hf b x))

theorem Hw.SpansKept.ite {p : Prop} [Decidable p] {a b c : Hw} (hb : a.SpansKept b) (hc : a.SpansKept c) :
    a.SpansKept (if p then b else c) := by
  split <;> assumption

theorem Hw.setReg_spansKept (h : Hw) (r : Reg) (i v : Nat) : h.SpansKept (h.setReg r i v) := .of_lnk (Hw.setReg_lnk ..)

theorem Hw.setBit_spansKept (h : Hw) (r : Reg) (i b : Nat) (v : Bool) : h.SpansKept (h.setBit r i b v) := .of_lnk (Hw.setBit_lnk ..)

/-! ### Sending -/

theorem Hw.sendSpan_spansKept (h : Hw) (p kind vc : Nat) (payload : List Byte) : h.SpansKept (h.sendSpan p kind vc payload) := by
  unfold Hw.sendSpan
  refine .ite (.refl h) (.ite ⟨funext fun q => ?_⟩ ⟨rfl⟩)
  by_cases hq : q = p
  · rw [hq, Hw.spanSides, Hw.span_setSpan_same]
    rfl
  · rw [Hw.spanSides, Hw.span_setSpan_ne _ _ _ _ hq, Hw.spanSides]

theorem Hw.pumpSpan_spansKept (h : Hw) (p : Nat) : h.SpansKept (h.pumpSpan p) := by
  unfold Hw.pumpSpan
  extract_lets w _ taken
  have htaken : h.SpansKept taken := ⟨rfl⟩
  exact htaken.trans (.fold (fun x f => Hw.sendSpan_spansKept x p f.kind f.vc f.payload) w taken)

theorem Hw.sendPairLinks_spansKept (h : Hw) (kind vc : Nat) (payload : List Byte) : h.SpansKept (h.sendPairLinks kind vc payload) :=
  .fold (fun _ _ => .ite (Hw.sendSpan_spansKept ..) (.refl _)) _ h

theorem Hw.sendPeer_spansKept (h : Hw) (kind vc : Nat) (payload : List Byte) : h.SpansKept (h.sendPeer kind vc payload) := by
  unfold Hw.sendPeer
  split
  · exact Hw.sendSpan_spansKept ..
  · exact .refl h

theorem Hw.sendMirror_spansKept (h : Hw) (m : Mirror) : h.SpansKept (h.sendMirror m) := by
  unfold Hw.sendMirror
  extract_lets n _ queued
  have hqueued : h.SpansKept queued := ⟨rfl⟩
  exact hqueued.trans ((Hw.SpansKept.of_lnk (Hw.addReg_lnk ..)).trans (Hw.sendPeer_spansKept ..))

/-! ### Launches and sessions that end -/

theorem Hw.mirrorLaunchEnd_spansKept (h : Hw) (l : Launch) : h.SpansKept (h.mirrorLaunchEnd l) :=
  .ite (Hw.sendMirror_spansKept ..) (.refl h)

theorem Hw.faultLaunch_spansKept (h : Hw) (e : Nat) (l : Launch) (fault step : Nat) : h.SpansKept (h.faultLaunch e l fault step) := by
  unfold Hw.faultLaunch
  extract_lets coded stepped freed
  have hstepped : h.SpansKept stepped := (Hw.setReg_spansKept ..).trans (Hw.setReg_spansKept ..)
  have hfreed : stepped.SpansKept freed := .fold (fun _ _ => (Hw.abortHeld_within ..).spansKept (by decide)) _ _
  have hnoticed : freed.SpansKept (freed.launchNotice l 0x0a St.aborted fault step 0 0) :=
    (Hw.launchNotice_within ..).spansKept (by decide)
  exact ((hstepped.trans hfreed).trans hnoticed).trans (Hw.mirrorLaunchEnd_spansKept ..)

theorem Hw.faultRunning_spansKept (h : Hw) (e fault : Nat) : h.SpansKept (h.faultRunning e fault) := by
  unfold Hw.faultRunning
  split
  · exact (Hw.faultLaunch_spansKept ..).trans ((Hw.idleEngine_within ..).spansKept (by decide))
  · exact .refl h

theorem Hw.faultQueued_spansKept (h : Hw) (e fault : Nat) (p : Launch → Bool) : h.SpansKept (h.faultQueued e fault p) := by
  unfold Hw.faultQueued
  extract_lets x taken counted
  have hcounted : h.SpansKept counted := ((Hw.setEng_within ..).spansKept (by decide)).trans (Hw.setReg_spansKept ..)
  exact hcounted.trans (.fold (fun _ _ => Hw.faultLaunch_spansKept ..) _ counted)

theorem Hw.faultEngine_spansKept (h : Hw) (e fault : Nat) (p : Launch → Bool) : h.SpansKept (h.faultEngine e fault p) := by
  unfold Hw.faultEngine
  extract_lets ended
  have hended : h.SpansKept ended := by
    unfold ended
    split
    · exact .ite (Hw.faultRunning_spansKept ..) (.refl h)
    · exact .refl h
  exact hended.trans (Hw.faultQueued_spansKept ..)

theorem Hw.setRedState_spansKept (h : Hw) (n v : Nat) : h.SpansKept (h.setRedState n v) :=
  .ite ((Hw.setReg_spansKept ..).trans (Hw.sendMirror_spansKept ..)) (Hw.setReg_spansKept ..)

theorem Hw.abortSession_spansKept (h : Hw) (n reason : Nat) : h.SpansKept (h.abortSession n reason) := by
  unfold Hw.abortSession
  refine .ite ?_ (.refl h)
  extract_lets x freed closed dropped named
  have hclosed : h.SpansKept closed := ((Hw.setSes_within ..).spansKept (by decide)).trans (Hw.setReg_spansKept ..)
  have hdropped : closed.SpansKept dropped := (Hw.dropAcws_within ..).spansKept (by decide)
  have hended : dropped.SpansKept (named.setRedState n 4) := (Hw.setReg_spansKept ..).trans (Hw.setRedState_spansKept named n 4)
  exact ((hclosed.trans hdropped).trans hended).trans ((Hw.sessionNotice_within ..).spansKept (by decide))

/-! ### Failures -/

theorem Hw.fenceUnit_spansKept (h : Hw) : h.SpansKept h.fenceUnit := by
  unfold Hw.fenceUnit
  extract_lets sent _ _ dropped emptied ended
  have hdropped : h.SpansKept dropped := (Hw.sendPairLinks_spansKept ..).trans ⟨rfl⟩
  have hended : dropped.SpansKept ended := (Hw.setReg_spansKept ..).trans (Hw.setReg_spansKept ..)
  have hheld : ended.SpansKept (ended.setReg Od.pairState 0 9).fenceHeld :=
    (Hw.setReg_spansKept ..).trans ((Hw.fenceHeld_within ..).spansKept (by decide))
  exact (hdropped.trans hended).trans hheld

theorem Hw.partitionLosesStack_spansKept (h : Hw) (s : Nat) : h.SpansKept (h.partitionLosesStack s) := by
  unfold Hw.partitionLosesStack
  split
  · exact .fold (fun _ _ => .ite (Hw.setBit_spansKept ..) (.refl _)) _ h
  · next p _ =>
    extract_lets second failed st src _ poisoned aborted unsynced
    have hfailed : h.SpansKept failed := Hw.setBit_spansKept ..
    have hpoisoned : failed.SpansKept poisoned := (Hw.poisonOutstanding_within ..).spansKept (by decide)
    have haborted : poisoned.SpansKept aborted := .fold (fun _ _ => .ite (Hw.abortSession_spansKept ..) (.refl _)) _ _
    have hunsynced : aborted.SpansKept unsynced :=
      .ite (((Hw.setReg_spansKept ..).trans (Hw.setReg_spansKept ..)).trans (Hw.setReg_spansKept ..)) (.refl aborted)
    have hrecovery : failed.SpansKept failed.enterRecovery := (Hw.enterRecovery_within ..).spansKept (by decide)
    exact hfailed.trans (.ite (.ite (hrecovery.trans ⟨rfl⟩) (.ite hpoisoned (.refl failed)))
      ((hpoisoned.trans (haborted.trans hunsynced)).trans (.ite (Hw.fenceUnit_spansKept unsynced) (.refl unsynced))))

theorem Hw.failStack_spansKept (h : Hw) (s : Nat) : h.SpansKept (h.failStack s) := by
  by_cases hs : h.reg Od.stackState s = 1
  · rw [Hw.failStack, if_pos hs]
    extract_lets declared logged _ latched ended waiting _ emptied answered
    have hlogged : h.SpansKept logged := (Hw.setReg_spansKept ..).trans ((Hw.logErr_within declared _).spansKept (by decide))
    have hlatched : logged.SpansKept latched := .of_lnk rfl
    clear_value latched
    have hended : latched.SpansKept ended := .fold (fun x i => Hw.faultEngine_spansKept x (s * 4 + i) 0x0c fun _ => true) _ _
    clear_value ended
    have hemptied : ended.SpansKept emptied := .of_lnk rfl
    clear_value emptied
    have hanswered : emptied.SpansKept answered := by
      refine .fold (fun x l => ?_) _ _
      split
      · exact (Hw.complete_within ..).spansKept (by decide)
      · exact .refl x
    exact ((hlogged.trans hlatched).trans (hended.trans (hemptied.trans hanswered))).trans (Hw.partitionLosesStack_spansKept ..)
  · rw [Hw.failStack, if_neg hs]
    exact .refl h

theorem Hw.cascadeLost_spansKept (h : Hw) : h.SpansKept h.cascadeLost := by
  unfold Hw.cascadeLost
  extract_lets lost after
  have hlost : h.SpansKept lost := Hw.setReg_spansKept ..
  have hafter : lost.SpansKept after := by
    refine .ite (.fold (fun _ _ => .ite (Hw.failStack_spansKept ..) (Hw.setReg_spansKept ..)) _ _) ?_
    exact .fold (fun _ _ => (Hw.complete_within ..).spansKept (by decide)) _ _
  exact (hlost.trans hafter).trans (.ite (Hw.fenceUnit_spansKept after) (.refl after))

end Sys2Proof.Machine
end

section
/-! Span ports that carry, retrain and go down (R244, R245). -/

namespace Sys2Proof.Machine

/-! ### Bits of a register -/

theorem testBit_cleared (x b : Nat) : (if x.testBit b then x - 2 ^ b else x).testBit b = false := by
  by_cases hb : x.testBit b = true
  · rw [if_pos hb, Nat.testBit_eq_decide_div_mod_eq]
    have hodd : x / 2 ^ b % 2 = 1 := by simpa [Nat.testBit_eq_decide_div_mod_eq] using hb
    have hdiv : (x - 2 ^ b) / 2 ^ b = x / 2 ^ b - 1 := by simpa using Nat.sub_mul_div x (2 ^ b) 1
    rw [hdiv]
    exact decide_eq_false (by omega)
  · rw [if_neg hb]
    exact Bool.eq_false_iff.2 hb

theorem Hw.bit_setBit_false (h : Hw) (r : Reg) (i b : Nat) : (h.setBit r i b false).bit r i b = false := by
  have hreg : (h.setBit r i b false).reg r i = (if (h.reg r i).testBit b then h.reg r i - 2 ^ b else h.reg r i) % 2 ^ r.width :=
    Hw.reg_setReg_same ..
  rw [Hw.bit, hreg, Nat.testBit_mod_two_pow, testBit_cleared, Bool.and_false]

theorem Hw.bit_setBit_true (h : Hw) (r : Reg) (i b : Nat) (hb : b < r.width) : (h.setBit r i b true).bit r i b = true := by
  have hreg : (h.setBit r i b true).reg r i = (h.reg r i ||| 2 ^ b) % 2 ^ r.width := Hw.reg_setReg_same ..
  rw [Hw.bit, hreg, Nat.testBit_mod_two_pow, Nat.testBit_or, Nat.testBit_two_pow_self, Bool.or_true, Bool.and_true]
  exact decide_eq_true hb

theorem Hw.Within.spanUp {m : Nat} {a b : Hw} (w : a.Within m b) (hm : m.testBit (24 + Od.spanState.no) = false) (p : Nat) :
    b.spanUp p = a.spanUp p := by
  rw [Hw.spanUp, Hw.bit, w.reg _ _ hm]
  rfl

/-! ### A port that goes DOWN -/

/-- Port `p` as it is declared DOWN, before what follows for others (R244). -/
def Hw.declareDown (h : Hw) (p : Nat) : Hw := (h.setSpan p { st := .failed }).setBit Od.spanState 0 p false

/-- The mask of what follows from a span port that is DOWN: `span_state` is not in it. -/
def spanLossMask : Nat :=
  11349009281615840088357655658620288925636703049932215281610162483946692441758162267355909647123762640626859577533512772 -
    twoPow (24 + Od.spanState.no)

theorem Hw.SpansKept.st {a b : Hw} (k : a.SpansKept b) (p : Nat) : (b.span p).st = (a.span p).st :=
  (congrArg Link.st (k.span p) :)

/-- Once declared, a port that is DOWN changes span ports by what is sent only, and goes no further than the loss. -/
theorem Hw.downSpan_from_declared (h : Hw) (p kind : Nat) :
    (h.declareDown p).SpansKept (h.downSpan p kind) ∧ (h.declareDown p).Within spanLossMask (h.downSpan p kind) := by
  unfold Hw.downSpan
  extract_lets left down noted
  have hnoted : (h.declareDown p).SpansKept noted := .of_lnk (Hw.raise_lnk ..)
  have hraised : (h.declareDown p).Within spanLossMask noted := Hw.Within.step (Hw.raise_within ..) (by decide) (.refl _ _)
  clear_value noted
  have hresent (e : Event) : noted.SpansKept (left.foldl (fun h f => h.sendPeer f.kind f.vc f.payload) (noted.raise e)) :=
    (Hw.SpansKept.of_lnk (Hw.raise_lnk noted e)).trans (.fold (fun x (f : Flit) => Hw.sendPeer_spansKept x f.kind f.vc f.payload) _ _)
  constructor
  · exact hnoted.trans (.ite (.ite (hresent _) (.refl _)) (.ite (Hw.cascadeLost_spansKept noted) (.refl _)))
  · refine .ite (.ite ?_ hraised) (.ite (Hw.Within.step (Hw.cascadeLost_within ..) (by decide) hraised) hraised)
    exact .fold (fun _ _ hx => Hw.Within.step (Hw.sendPeer_within ..) (by decide) hx)
      (Hw.Within.step (Hw.raise_within ..) (by decide) hraised)

theorem Hw.downSpan_failed (h : Hw) (p kind : Nat) :
    ((h.downSpan p kind).span p).st = .failed ∧ (h.downSpan p kind).spanUp p = false := by
  obtain ⟨hkept, hwithin⟩ := Hw.downSpan_from_declared h p kind
  refine ⟨?_, (hwithin.spanUp (by decide) p).trans (Hw.bit_setBit_false ..)⟩
  rw [hkept.st, Hw.declareDown, Hw.span, Hw.setBit_lnk]
  exact congrArg Link.st (Hw.span_setSpan_same h p { st := .failed })

theorem Hw.span_retrainSpan (h : Hw) (p : Nat) :
    (h.retrainSpan p).span p = { h.span p with st := .retrain, retrains := (h.span p).retrains + 1 } :=
  Hw.span_setSpan_same ..

/-! ### Flits -/

/-- A span port's link after a flit, with the failed tags that count (R245). -/
def Link.noteTag (l : Link) (now : Nat) (tagBad : Bool) : Link :=
  { l with tagFails := if tagBad then l.tagFails.filter (fun t => decide (now < t + 1000000)) ++ [now] else l.tagFails }

/-- Span port `p` with link `l` that a flit has left, before what it leads to. -/
def Hw.keepFlit (h : Hw) (p : Nat) (l : Link) (good : Bool) : Hw :=
  if good ∧ (h.setSpan p l).pairLink p = true then (h.setSpan p l).setTimer Tm.peerRx 0 h.now else h.setSpan p l

theorem Hw.span_keepFlit (h : Hw) (p : Nat) (l : Link) (good : Bool) : (h.keepFlit p l good).span p = l := by
  unfold Hw.keepFlit
  split
  · exact Hw.span_setSpan_same h p l
  · exact Hw.span_setSpan_same h p l

/-- What a span port does with the link that a flit has left it. -/
def Hw.afterFlit (h : Hw) (p : Nat) (l : Link) (good tagBad : Bool) : Hw :=
  if tagBad ∧ 3 ≤ l.tagFails.length then (h.keepFlit p l good).downSpan p 0x19
  else if 8 ≤ l.replays then (h.keepFlit p l good).retrainSpan p else (h.keepFlit p l good).pumpSpan p

/-- SPAN_FLIT_RECEIVE at a port that is up. -/
theorem spanFlitReceive_completes (port : Fin 2) (header : BitVec 32) (payload : List Byte) (crc : BitVec 32) (tagOk : Bool) (s : State)
    (hup : (s.hw.span port.val).st = .up) :
    let tagBad := s.hw.pairLink port.val && !tagOk
    let good := flitGood header payload crc && !tagBad
    Completes (.spanFlitReceive port header payload crc tagOk) s
      (s.hw.afterFlit port.val (((s.hw.span port.val).take s.hw.now header payload good).1.noteTag s.hw.now tagBad) good tagBad) := by
  intro tagBad good
  have h : exec (.spanFlitReceive port header payload crc tagOk) s = execSpanFlitReceive port header payload crc tagOk s := rfl
  rw [Completes, h, execSpanFlitReceive, State.on]
  extract_lets p l bad fine
  rw [if_neg (not_not.2 hup)]
  have hfine : fine = good := rfl
  have hbad : bad = tagBad := rfl
  rw [hfine, hbad]
  clear_value good tagBad
  generalize l.take s.hw.now header payload good = taken
  rfl

theorem spanFlitReceive_next (port : Fin 2) (header : BitVec 32) (payload : List Byte) (crc : BitVec 32) (tagOk : Bool) (s : State)
    (hup : (s.hw.span port.val).st = .up) (hg : flitGood header payload crc = true)
    (htag : s.hw.pairLink port.val = true → tagOk = true) :
    let l := ((s.hw.span port.val).take s.hw.now header payload true).1
    Leads (.spanFlitReceive port header payload crc tagOk) s (fun h => ((h.span port.val).rxSeq, (h.span port.val).nak,
      (h.span port.val).rx, (h.span port.val).lastRx) = (l.rxSeq, l.nak, l.rx, l.lastRx)) := by
  have hbad : (s.hw.pairLink port.val && !tagOk) = false := by
    cases hp : s.hw.pairLink port.val
    · rfl
    · simp [htag hp]
  refine ⟨_, spanFlitReceive_completes port header payload crc tagOk s hup, ?_⟩
  rw [hbad, hg, Bool.not_false, Bool.and_self, Hw.afterFlit, if_neg (by simp)]
  generalize ((s.hw.span port.val).take s.hw.now header payload true).1 = l
  have hl := Hw.span_keepFlit s.hw port.val (l.noteTag s.hw.now false) true
  split
  · rw [Hw.span_retrainSpan, hl]
    rfl
  · have hpump := (Hw.pumpSpan_spansKept (s.hw.keepFlit port.val (l.noteTag s.hw.now false) true) port.val).span port.val
    rw [hl] at hpump
    exact congrArg (fun i => (i.rxSeq, i.nak, i.rx, i.lastRx)) (Link.inbound_of_unsent hpump)

theorem spanFlitReceive_thirdTag (port : Fin 2) (header : BitVec 32) (payload : List Byte) (crc : BitVec 32) (s : State)
    (hup : (s.hw.span port.val).st = .up) (hp : s.hw.pairLink port.val = true)
    (h2 : 2 ≤ ((s.hw.span port.val).tagFails.filter (fun t => decide (s.hw.now < t + 1000000))).length) :
    Leads (.spanFlitReceive port header payload crc false) s (fun h => (h.span port.val).st = .failed ∧ h.spanUp port.val = false) := by
  refine ⟨_, spanFlitReceive_completes port header payload crc false s hup, ?_⟩
  have hfails : 3 ≤ (((s.hw.span port.val).take s.hw.now header payload false).1.noteTag s.hw.now true).tagFails.length := by
    rw [Link.take, Link.receive_bad]
    simpa [Link.noteTag] using h2
  rw [hp, Bool.not_false, Bool.and_self, Bool.not_true, Bool.and_false, Hw.afterFlit, if_pos ⟨rfl, hfails⟩]
  exact Hw.downSpan_failed ..

/-! ### Retrains -/

theorem spanIdleRetrain_retrains (port : Fin 2) (s : State) (hup : (s.hw.span port.val).st = .up)
    (hidle : (s.hw.span port.val).lastRx + 2000 ≤ s.hw.now) :
    Leads (.spanIdleRetrain port) s (fun h => (h.span port.val).st = .retrain ∧
      (h.span port.val).retrains = (s.hw.span port.val).retrains + 1) := by
  refine ⟨_, rfl, ?_⟩
  dsimp only
  rw [if_pos ⟨hup, hidle⟩, Hw.span_retrainSpan]
  exact ⟨rfl, rfl⟩

theorem spanRetrainDone_up (port : Fin 2) (delivered : Bool) (s : State) (hst : (s.hw.span port.val).st = .retrain) :
    Leads (.spanRetrainDone port delivered) s (fun h => (h.span port.val).st = .up ∧ (h.span port.val).lastRx = s.hw.now ∧
      (h.span port.val).retrains = if delivered then 0 else (s.hw.span port.val).retrains) := by
  refine ⟨_, rfl, ?_⟩
  dsimp only
  rw [if_neg (not_not.2 hst)]
  have hpump (l : Link) : (((s.hw.setSpan port.val l).pumpSpan port.val).span port.val).unsent = l.unsent :=
    ((Hw.pumpSpan_spansKept ..).span _).trans (congrArg Link.unsent (Hw.span_setSpan_same ..))
  have hl := hpump (if delivered then { (s.hw.span port.val).renumber with st := .up, lastRx := s.hw.now, retrains := 0, firstFail := none }
    else { (s.hw.span port.val).renumber with st := .up, lastRx := s.hw.now, retrains := (s.hw.span port.val).retrains })
  have hst' := congrArg Link.st hl
  have hrx := congrArg Link.lastRx hl
  have hre := congrArg Link.retrains hl
  cases delivered
  · exact ⟨hst', hrx, hre⟩
  · exact ⟨hst', hrx, hre⟩

theorem spanDown_failed (port : Fin 2) (s : State) (hg : (s.hw.span port.val).givesUp s.hw.now = true) :
    Leads (.spanDown port) s (fun h => (h.span port.val).st = .failed ∧ h.spanUp port.val = false) := by
  refine ⟨_, rfl, ?_⟩
  dsimp only
  rw [if_pos hg]
  exact Hw.downSpan_failed ..

end Sys2Proof.Machine
end

section
/-! The cascade: SP0 trained, and SP0 lost (R248 to R250). -/

namespace Sys2Proof.Machine

/-! ### What an event leaves of the subscriptions -/

theorem Hw.routeTake_subs (h : Hw) (k : Nat) (e : Event) : (h.routeTake k e).msg.subs = h.msg.subs := by
  have hdrop (x : Hw) : ((x.addReg Od.routeDropped k).countSel 0x10 k).msg.subs = x.msg.subs := by
    rw [(Hw.countSel_within ..).same .messages (by decide), Hw.addReg_msg]
  have hend (ok : Bool) (x : Hw) (hx : x.msg.subs = h.msg.subs) :
      (if ok then x.satReg Od.routePending k else (x.addReg Od.routeDropped k).countSel 0x10 k).msg.subs = h.msg.subs := by
    split
    · rw [(Hw.satReg_within ..).same .messages (by decide), hx]
    · rw [hdrop, hx]
  have hsend (c : Bool) (x y : Hw) (hx : x.msg.subs = h.msg.subs) (hy : y.msg.subs = h.msg.subs) :
      (if c then (true, x) else (false, y)).2.msg.subs = h.msg.subs := by
    cases c
    · exact hy
    · exact hx
  unfold Hw.routeTake
  dsimp only
  split
  · exact hdrop _
  · refine hend _ _ ?_
    split
    · exact hsend _ _ _ rfl rfl
    · exact hsend _ _ _ rfl rfl
    · rfl
    · rfl

theorem Hw.sendEvt_subs (h : Hw) (r : Nat) (e : Event) : (h.sendEvt r e).2.msg.subs = h.msg.subs := by
  unfold Hw.sendEvt
  dsimp only
  split <;> rfl

theorem Hw.subs_fold {α : Type} {f : Hw → α → Hw} (hf : ∀ (x : Hw) (a : α), (f x a).msg.subs = x.msg.subs) (l : List α) (h : Hw) :
    (l.foldl f h).msg.subs = h.msg.subs :=
  List.foldlRecOn (motive := fun b : Hw => b.msg.subs = h.msg.subs) l f rfl (fun b hb a _ => (hf b a).trans hb)

/-- An event leaves every subscription as it was. -/
theorem Hw.raise_subs (h : Hw) (e : Event) : (h.raise e).msg.subs = h.msg.subs := by
  have hring (x : Hw) : (x.ringAdvance 1 0 1024 Od.evHead Od.evOverflow).2.msg.subs = x.msg.subs := by
    have hmark (y : Hw) (slot : Nat) : (y.markRead 1 0 slot false).msg.subs = y.msg.subs := rfl
    unfold Hw.ringAdvance
    dsimp only
    rw [Hw.setReg_msg, hmark]
    split
    · rw [Hw.setReg_msg]
    · rfl
  unfold Hw.raise
  extract_lets routed sent
  have hrouted : routed.msg.subs = h.msg.subs := by
    unfold routed
    refine Hw.subs_fold (fun x k => ?_) _ h
    split
    · exact Hw.routeTake_subs ..
    · rfl
  clear_value routed
  have hsent : sent.msg.subs = routed.msg.subs := by
    unfold sent
    exact Hw.subs_fold (fun x r => Hw.sendEvt_subs x r e) _ routed
  exact (hring (sent.nextSeq 4096).2).trans (hsent.trans hrouted)

/-! ### Formation -/

/-- Formation is decided by the major version and by the digest of the formation set, however the records were taken. -/
theorem Hw.formationOk_iff (h w : Hw) (fw digest : Nat) (hv : w.reg Od.fwVersion = h.reg Od.fwVersion)
    (hd : w.reg Od.formationDigest = sha384Nat h.formationSet % 2 ^ Od.formationDigest.width) :
    w.formationOk fw digest = true ↔ fw / 65536 = h.reg Od.fwVersion / 65536 ∧
      digest = sha384Nat h.formationSet % 2 ^ Od.formationDigest.width := by
  rw [Hw.formationOk, hv, hd, decide_eq_true_iff]

theorem Hw.reg_takeFormation (h : Hw) :
    h.takeFormation.reg Od.formationDigest = sha384Nat h.formationSet % 2 ^ Od.formationDigest.width := Hw.reg_setReg_same ..

/-! ### SP0 trained -/

/-- The block with SP0 trained: the digest taken, the peer's records and the latency kept, the port up. -/
def Hw.sp0Up (h : Hw) (fw digest latency : Nat) : Hw :=
  ((h.takeFormation.notePeer fw digest).setElem Od.spanLatencyNs 0 0 latency).raiseSpan 0

/-- The mask of a port that comes up. -/
def spanRaiseMask : Nat := 2048 ||| Od.spanState.mask

theorem Hw.raiseSpan_within_spanRaise (h : Hw) (p : Nat) : h.Within spanRaiseMask (h.raiseSpan p) :=
  Hw.Within.step (Hw.raiseSpan_within ..) (by decide) (.refl _ _)

theorem Hw.sp0Up_spanUp (h : Hw) (fw digest latency : Nat) : (h.sp0Up fw digest latency).spanUp 0 = true :=
  Hw.bit_setBit_true _ _ _ _ (by decide)

theorem Hw.sp0Up_latency (h : Hw) (fw digest latency : Nat) :
    (h.sp0Up fw digest latency).elem Od.spanLatencyNs 0 0 = latency % 2 ^ Od.spanLatencyNs.width := by
  rw [Hw.sp0Up, (Hw.raiseSpan_within_spanRaise ..).elem _ _ _ (by decide), Hw.elem_setElem_same]

theorem Hw.sp0Up_formationOk (h : Hw) (fw digest latency : Nat) :
    (h.sp0Up fw digest latency).formationOk fw digest = true ↔ fw / 65536 = h.reg Od.fwVersion / 65536 ∧
      digest = sha384Nat h.formationSet % 2 ^ Od.formationDigest.width := by
  have hreg (r : Reg) (hr : spanRaiseMask.testBit (24 + r.no) = false)
      (hne : Od.spanLatencyNs ≠ r ∧ Od.peerFormationDigest ≠ r ∧ Od.peerFwVersion ≠ r) (hs : r.sub < 256) :
      (h.sp0Up fw digest latency).reg r = h.takeFormation.reg r := by
    obtain ⟨hl, hd, hf⟩ := hne
    rw [Hw.sp0Up, (Hw.raiseSpan_within_spanRaise ..).reg _ _ hr]
    exact (Hw.reg_setReg_ne _ _ _ _ _ _ hl (by decide) hs).trans
      ((Hw.reg_setReg_ne _ _ _ _ _ _ hd (by decide) hs).trans (Hw.reg_setReg_ne _ _ _ _ _ _ hf (by decide) hs))
  refine Hw.formationOk_iff h _ fw digest ?_ ((hreg _ (by decide) (by decide) (by decide)).trans (Hw.reg_takeFormation h))
  rw [hreg Od.fwVersion (by decide) (by decide) (by decide)]
  exact Hw.reg_setReg_ne _ _ _ _ _ _ (by decide) (by decide) (by decide)

/-- The cascade JOINED: the secondary's time stepped, the dictionary pushed, the pair of a mirrored cascade started. -/
def Hw.join (h : Hw) (time : Nat) : Hw :=
  let h := h.setReg Od.cascadeState 0 3
  let h := if h.reg Od.cascadeRole = 2 then h.stepTime ((h.now : Int) - (time : Int)) else h
  let h := h.pushDictionary
  if h.boot.shape = 3 then h.startPair else h

theorem sp0Trained_completes (fw : BitVec 32) (digest : BitVec 384) (time : BitVec 64) (latency : BitVec 32) (s : State)
    (hst : s.hw.reg Od.cascadeState = 1) :
    let up := s.hw.sp0Up fw.toNat digest.toNat latency.toNat
    Completes (.sp0Trained fw digest time latency) s
      (if up.formationOk fw.toNat digest.toNat then up.join time.toNat
       else ({ up with msg.subs := [] }.setReg Od.cascadeState 0 2).raise { kind := 0x1a }) := by
  have h : exec (.sp0Trained fw digest time latency) s = execSp0Trained fw digest time latency s := rfl
  rw [Completes, h, execSp0Trained, State.on, if_neg (not_not.2 hst)]
  rfl

/-- The mask of what JOINED leads to. -/
def joinMask : Nat := 1025 ||| 2048 ||| twoPow Part.timers.no ||| Od.pairState.mask

theorem Hw.join_within (h : Hw) (time : Nat) : (h.setReg Od.cascadeState 0 3).Within joinMask (h.join time) := by
  unfold Hw.join
  extract_lets joined stepped pushed
  have hstepped : joined.Within joinMask stepped :=
    .ite (Hw.Within.step (Hw.stepTime_within ..) (by decide) (.refl _ _)) (.refl _ _)
  have hpushed : joined.Within joinMask pushed := Hw.Within.step (Hw.pushDictionary_within ..) (by decide) hstepped
  exact .ite (Hw.Within.step (Hw.startPair_within ..) (by decide) hpushed) hpushed

theorem Hw.join_now (h : Hw) (time : Nat) (hr : h.reg Od.cascadeRole = 2) : (h.join time).now = time := by
  have hrole : (h.setReg Od.cascadeState 0 3).reg Od.cascadeRole = 2 := by
    rw [Hw.reg_setReg_ne _ _ _ _ _ _ (by decide) (by decide) (by decide), hr]
  have hpush (x : Hw) : x.pushDictionary.now = x.now := (Hw.pushDictionary_within x).same .time (by decide)
  unfold Hw.join
  dsimp only
  rw [if_pos hrole, apply_ite Hw.now]
  have hstart (x : Hw) : x.startPair.now = x.now := rfl
  rw [hstart, ite_self, hpush]
  show ((((h.setReg Od.cascadeState 0 3).now : Int) - ((h.setReg Od.cascadeState 0 3).now - (time : Int))).toNat = time)
  omega

theorem sp0Trained_joined (fw : BitVec 32) (digest : BitVec 384) (time : BitVec 64) (latency : BitVec 32) (s : State)
    (hst : s.hw.reg Od.cascadeState = 1) (hfw : fw.toNat / 65536 = s.hw.reg Od.fwVersion / 65536)
    (hd : digest.toNat = sha384Nat s.hw.formationSet % 2 ^ Od.formationDigest.width) :
    Leads (.sp0Trained fw digest time latency) s (fun h => h.reg Od.cascadeState = 3 ∧ h.spanUp 0 = true ∧
      h.elem Od.spanLatencyNs 0 0 = latency.toNat % 2 ^ Od.spanLatencyNs.width ∧ (s.hw.reg Od.cascadeRole = 2 → h.now = time.toNat)) := by
  refine ⟨_, sp0Trained_completes fw digest time latency s hst, ?_⟩
  rw [if_pos ((Hw.sp0Up_formationOk ..).2 ⟨hfw, hd⟩)]
  have hjoin := Hw.join_within (s.hw.sp0Up fw.toNat digest.toNat latency.toNat) time.toNat
  refine ⟨?_, ?_, ?_, fun hrole => Hw.join_now _ _ ?_⟩
  · rw [hjoin.reg _ _ (by decide), Hw.reg_setReg_same]
    decide
  · rw [hjoin.spanUp (by decide), (Hw.setReg_within _ Od.cascadeState 0 3).spanUp (by decide), Hw.sp0Up_spanUp]
  · rw [hjoin.elem _ _ _ (by decide), Hw.elem_setReg_ne _ _ _ _ _ _ _ (by decide) (by decide) (by decide), Hw.sp0Up_latency]
  · rw [Hw.sp0Up, (Hw.raiseSpan_within_spanRaise ..).reg _ _ (by decide)]
    exact (((Hw.setElem_within ..).reg _ _ (by decide)).trans ((Hw.notePeer_within ..).reg _ _ (by decide))).trans
      (((Hw.takeFormation_within ..).reg _ _ (by decide)).trans hrole)

theorem sp0Trained_waits (fw : BitVec 32) (digest : BitVec 384) (time : BitVec 64) (latency : BitVec 32) (s : State)
    (hst : s.hw.reg Od.cascadeState = 1) (hno : ¬ (fw.toNat / 65536 = s.hw.reg Od.fwVersion / 65536 ∧
      digest.toNat = sha384Nat s.hw.formationSet % 2 ^ Od.formationDigest.width)) :
    Leads (.sp0Trained fw digest time latency) s (fun h => h.reg Od.cascadeState = 2 ∧ h.msg.subs = []) := by
  refine ⟨_, sp0Trained_completes fw digest time latency s hst, ?_⟩
  rw [if_neg (fun hok => hno ((Hw.sp0Up_formationOk ..).1 hok))]
  refine ⟨?_, Hw.raise_subs ..⟩
  rw [(Hw.raise_within ..).reg _ _ (by decide), Hw.reg_setReg_same]
  decide

/-! ### SP0 lost -/

/-- A failing stack leaves the state of every other one, and what no aftermath reaches. -/
theorem Hw.failStack_stackState_other (h : Hw) (s t : Nat) (ht : t % 4096 ≠ s % 4096) :
    (h.failStack s).reg Od.stackState t = h.reg Od.stackState t := by
  by_cases hs : h.reg Od.stackState s = 1
  · rw [(Hw.failStack_within_declared h s hs).reg _ _ (by decide)]
    have hlog : ((h.setReg Od.stackState s 2).logErr { kind := 0x0e, stack := s }).reg Od.stackState t = h.reg Od.stackState t := by
      rw [(Hw.logErr_within ..).reg _ _ (by decide), Hw.reg_setReg_other _ _ _ _ _ ht]
    exact hlog
  · rw [Hw.failStack, if_neg hs]

/-- Stack `8 + i` of the secondary, lost with SP0. -/
def Hw.loseStack (h : Hw) (i : Nat) : Hw :=
  if h.reg Od.stackState (8 + i) = 1 then h.failStack (8 + i) else h.setReg Od.stackState (8 + i) 2

theorem Hw.loseStack_failed (h : Hw) (i : Nat) : (h.loseStack i).reg Od.stackState (8 + i) = 2 := by
  unfold Hw.loseStack
  split
  · next hs => exact (Hw.failStack_failed h _ hs).1
  · rw [Hw.reg_setReg_same]
    decide

theorem Hw.loseStack_other (h : Hw) (i j : Nat) (hi : i < 8) (hj : j < 8) (hne : j ≠ i) :
    (h.loseStack i).reg Od.stackState (8 + j) = h.reg Od.stackState (8 + j) := by
  have hkey : (8 + j) % 4096 ≠ (8 + i) % 4096 := by omega
  unfold Hw.loseStack
  split
  · exact Hw.failStack_stackState_other h _ _ hkey
  · exact Hw.reg_setReg_other _ _ _ _ _ hkey

theorem Hw.loseStacks_failed (is : List Nat) (his : ∀ i ∈ is, i < 8) (h : Hw) (j : Nat) (hj : j < 8)
    (hjs : j ∈ is ∨ h.reg Od.stackState (8 + j) = 2) : (is.foldl Hw.loseStack h).reg Od.stackState (8 + j) = 2 := by
  induction is generalizing h with
  | nil => simpa using hjs
  | cons i is ih =>
    refine ih (fun k hk => his k (List.mem_cons_of_mem _ hk)) _ ?_
    by_cases hji : j = i
    · subst hji
      exact .inr (Hw.loseStack_failed h j)
    · rw [Hw.loseStack_other h i j (his i List.mem_cons_self) hj hji]
      exact hjs.imp (fun hm => (List.mem_cons.1 hm).resolve_left hji) id

/-- The mask of what a cascade's loss does, `cascade_state` apart. -/
def cascadeLossMask : Nat :=
  11349009281615840088357655658618299632691063903363593752617575200586290617154972876486147791216190002638809444031380548 -
    twoPow (24 + Od.cascadeState.no)

theorem Hw.cascadeLost_from_lost (h : Hw) : (h.setReg Od.cascadeState 0 4).Within cascadeLossMask h.cascadeLost := by
  unfold Hw.cascadeLost
  extract_lets lost after
  have hafter : lost.Within cascadeLossMask after := by
    refine .ite (.fold (fun x i hx => .ite ?_ ?_) (.refl _ _)) (.fold (fun x e hx => ?_) (.refl _ _))
    · exact Hw.Within.step (Hw.failStack_within ..) (by decide) hx
    · exact Hw.Within.step (Hw.setReg_within ..) (by decide) hx
    · exact Hw.Within.step (Hw.complete_within ..) (by decide) hx
  exact .ite (Hw.Within.step (Hw.fenceUnit_within ..) (by decide) hafter) hafter

theorem Hw.cascadeLost_state (h : Hw) : h.cascadeLost.reg Od.cascadeState = 4 := by
  rw [(Hw.cascadeLost_from_lost h).reg _ _ (by decide), Hw.reg_setReg_same]
  decide

theorem Hw.cascadeLost_stacks (h : Hw) (hr : h.reg Od.cascadeRole = 1) (i : Nat) (hi : i < 8) :
    h.cascadeLost.reg Od.stackState (8 + i) = 2 := by
  have hrole : (h.setReg Od.cascadeState 0 4).reg Od.cascadeRole = 1 := by
    rw [Hw.reg_setReg_ne _ _ _ _ _ _ (by decide) (by decide) (by decide), hr]
  have hfence (x : Hw) : x.fenceUnit.reg Od.stackState (8 + i) = x.reg Od.stackState (8 + i) :=
    (Hw.fenceUnit_within x).reg _ _ (by decide)
  unfold Hw.cascadeLost
  dsimp only
  rw [if_pos hrole, apply_ite (fun x : Hw => x.reg Od.stackState (8 + i)), hfence, ite_self]
  exact Hw.loseStacks_failed (List.range 8) (fun _ => List.mem_range.1) _ i hi (.inl (List.mem_range.2 hi))

theorem spanTrainTimeout_lost (s : State) (hst : s.hw.reg Od.cascadeState = 1)
    (hlate : s.hw.timer Tm.spanTrain 0 + 100000000 ≤ s.hw.now) : Completes .spanTrainTimeout s s.hw.cascadeLost := by
  have h : exec .spanTrainTimeout s = execSpanTrainTimeout s := rfl
  rw [Completes, h, execSpanTrainTimeout, State.on, if_neg (not_not.2 hst), if_neg (by omega)]

/-- Settles O43: the rows of a span port, then SP0 trained with equal records and with others, then SP0 lost. -/
theorem spansAndCascade : Obligations.SpansAndCascade := by
  intro port s p l
  refine ⟨fun header payload crc tagOk => ?_, fun header payload crc hup hp h2 => ?_, spanIdleRetrain_retrains port s,
    fun delivered => spanRetrainDone_up port delivered s, spanDown_failed port s, fun fw digest time latency hst => ⟨fun hs => ?_, fun hs => ?_⟩,
    fun hst hlate => ⟨_, spanTrainTimeout_lost s hst hlate, Hw.cascadeLost_state _, Hw.cascadeLost_stacks _⟩⟩
  · intro seq hup hg htag hk hs
    refine (spanFlitReceive_next port header payload crc tagOk s hup hg htag).imp fun h heq => ?_
    have hi := Link.inbound_receive_next l s.hw.now (flitField header 28 4) seq (flitField header 4 12) (flitField header 0 3)
      (header.getLsbD 3) payload hk hs
    obtain ⟨-, hrx, hnak, hq, hlast⟩ := LinkIn.mk.inj hi
    simp only [Prod.mk.injEq] at heq
    obtain ⟨h1, h2, h3, h4⟩ := heq
    exact ⟨h1.trans hrx, h2.trans hnak, h4.trans hlast, h3.trans hq⟩
  · exact spanFlitReceive_thirdTag port header payload crc s hup hp h2
  · exact sp0Trained_joined fw digest time latency s hst hs.1 hs.2
  · exact sp0Trained_waits fw digest time latency s hst hs

end Sys2Proof.Machine
end

section
/-! What responses, mirror messages and resync leave of the pair group (R252, R255, R256, R258). -/

namespace Sys2Proof.Machine

/-- From `a` to `b`, what `f` reads of the pair group is as it was. -/
def Hw.PairAlike {α : Type} (f : PairSt → α) (a b : Hw) : Prop := f b.pair = f a.pair

/-- The pair group without the units that egress holds while the peer is lost (R256). -/
def PairSt.unheld (p : PairSt) : PairSt := { p with heldUnits := [] }

section Alike

variable {α : Type} {f : PairSt → α}

theorem Hw.PairAlike.refl (a : Hw) : a.PairAlike f a := rfl

theorem Hw.PairAlike.eq {a b : Hw} (h : a.PairAlike f b) : f b.pair = f a.pair := h

theorem Hw.PairAlike.trans {a b c : Hw} (h1 : a.PairAlike f b) (h2 : b.PairAlike f c) : a.PairAlike f c := Eq.trans h2 h1

theorem Hw.PairAlike.of_pair {a b : Hw} (h : b.pair = a.pair) : a.PairAlike f b := congrArg f h

theorem Hw.Within.pairAlike {m : Nat} {a b : Hw} (w : a.Within m b) (hp : m.testBit Part.pair.no = false) : a.PairAlike f b :=
  .of_pair (w.same .pair hp)

theorem Hw.PairAlike.fold {β : Type} {g : Hw → β → Hw} (hg : ∀ (h : Hw) (x : β), h.PairAlike f (g h x)) (l : List β) (a : Hw) :
    a.PairAlike f (l.foldl g a) :=
  List.foldlRecOn (motive := fun b : Hw => a.PairAlike f b) l g (.refl a) (fun b hb x _ => hb.trans (hg b x))

theorem Hw.PairAlike.ite {p : Prop} [Decidable p] {a b c : Hw} (hb : a.PairAlike f b) (hc : a.PairAlike f c) :
    a.PairAlike f (if p then b else c) := by
  split <;> assumption

/-- What the held units do not reach is as it was where all but them is. -/
theorem Hw.PairAlike.of_unheld {a b : Hw} (h : a.PairAlike PairSt.unheld b) (hf : ∀ p : PairSt, f p.unheld = f p) : a.PairAlike f b := by
  have hu : b.pair.unheld = a.pair.unheld := h
  rw [Hw.PairAlike, ← hf, hu, hf]

end Alike

/-! ### Responses -/

theorem Hw.emit_unheld (h : Hw) (port : Nat) (u : OutUnit) : h.PairAlike PairSt.unheld (h.emit port u) := by
  unfold Hw.emit
  split
  · rfl
  · rfl

theorem Hw.answer_unheld (h : Hw) (uid status : Nat) (data : List Byte) (psn : List Bool) :
    h.PairAlike PairSt.unheld (h.answer uid status data psn) := by
  unfold Hw.answer
  split
  · refine .ite (.refl h) ?_
    extract_lets u answered counted
    have hanswered : h.PairAlike PairSt.unheld answered := rfl
    have hcounted : answered.PairAlike PairSt.unheld counted := .ite rfl (.refl _)
    exact hanswered.trans (.ite ((Hw.releaseTrk_within ..).pairAlike (by decide)) (hcounted.trans (Hw.emit_unheld ..)))
  · exact .refl h

theorem Hw.settleWin_unheld (h : Hw) (rq : Rq) (status : Nat) : h.PairAlike PairSt.unheld (h.settleWin rq status) := by
  unfold Hw.settleWin
  split
  · refine .ite (.refl h) (.trans ((Hw.winDone_within ..).pairAlike (by decide)) (.fold (fun x uid => ?_) _ _))
    split
    · exact .ite rfl (Hw.answer_unheld ..)
    · exact .refl x
  · exact .refl h

theorem Hw.complete_unheld (h : Hw) (uid status : Nat) (data : List Byte) (psn : List Bool) :
    h.PairAlike PairSt.unheld (h.complete uid status data psn) := by
  unfold Hw.complete
  split
  · exact .ite (.refl h) ((Hw.settleWin_unheld ..).trans (Hw.answer_unheld ..))
  · exact .refl h

theorem Hw.reply_unheld (h : Hw) (r : Rq) (status : Nat) (rep : Bool) (cls : Nat) :
    h.PairAlike PairSt.unheld (h.reply r status rep cls) := by
  unfold Hw.reply
  extract_lets counted
  have hcounted : h.PairAlike PairSt.unheld counted := .ite rfl (.refl _)
  exact hcounted.trans (.ite (Hw.emit_unheld ..) (.refl _))

theorem Hw.fenceHeld_unheld (h : Hw) : h.PairAlike PairSt.unheld h.fenceHeld := by
  unfold Hw.fenceHeld
  extract_lets refused units _ dropped sent
  have hrefused : h.PairAlike PairSt.unheld refused := by
    refine .fold (fun x n => ?_) _ h
    extract_lets p rs cleared zeroed
    have hzeroed : x.PairAlike PairSt.unheld zeroed := rfl
    exact hzeroed.trans (.fold (fun y r => (Hw.settleWin_unheld ..).trans (Hw.reply_unheld ..)) _ _)
  clear_value refused units
  have hdropped : refused.PairAlike PairSt.unheld dropped := rfl
  have hsent : dropped.PairAlike PairSt.unheld sent := .fold (fun _ _ => .of_pair (Hw.setPort_pair ..)) _ _
  exact ((hrefused.trans hdropped).trans hsent).trans (.fold (fun _ _ => Hw.complete_unheld ..) _ _)

/-! ### Mirror messages and the lease -/

theorem Hw.sendPeer_pair (h : Hw) (kind vc : Nat) (payload : List Byte) : (h.sendPeer kind vc payload).pair = h.pair :=
  (Hw.sendPeer_within ..).same .pair (by decide)

theorem Hw.sendSpan_od (h : Hw) (p kind vc : Nat) (payload : List Byte) : (h.sendSpan p kind vc payload).od = h.od := by
  unfold Hw.sendSpan
  split
  · rfl
  · split <;> rfl

theorem Hw.sendPeer_od (h : Hw) (kind vc : Nat) (payload : List Byte) : (h.sendPeer kind vc payload).od = h.od := by
  unfold Hw.sendPeer
  split
  · exact Hw.sendSpan_od ..
  · rfl

/-- A mirror message takes the next number and its place in the buffer. -/
theorem Hw.sendMirror_pair (h : Hw) (m : Mirror) :
    (h.sendMirror m).pair = { h.pair with mirrorNext := h.pair.mirrorNext + 1,
                                          mirrors := h.pair.mirrors ++ [{ m with seqNo := h.pair.mirrorNext + 1 }] } :=
  Hw.sendPeer_pair ..

theorem Hw.sendMirror_lease (h : Hw) (m : Mirror) : h.PairAlike PairSt.leaseUntil (h.sendMirror m) := by
  rw [Hw.PairAlike, Hw.sendMirror_pair]

theorem Hw.mirrorDict_lease (h : Hw) (key value : Nat) : h.PairAlike PairSt.leaseUntil (h.mirrorDict key value) :=
  .ite (Hw.sendMirror_lease ..) (.refl h)

theorem Hw.setRedState_lease (h : Hw) (n v : Nat) : h.PairAlike PairSt.leaseUntil (h.setRedState n v) :=
  .ite (.trans (.of_pair (Hw.setReg_pair ..)) (Hw.sendMirror_lease ..)) (.of_pair (Hw.setReg_pair ..))

theorem Hw.checkComplete_lease (h : Hw) (n : Nat) : h.PairAlike PairSt.leaseUntil (h.checkComplete n) :=
  .ite ((Hw.setRedState_lease ..).trans ((Hw.sessionNotice_within ..).pairAlike (by decide))) (.refl h)

theorem Hw.finishChunk_lease (h : Hw) (n c : Nat) (sl : Slot) (b : Bool) : h.PairAlike PairSt.leaseUntil (h.finishChunk n c sl b) := by
  unfold Hw.finishChunk
  extract_lets stored freed counted x kept ms tallied missed noted cleared every done told
  have hstored : h.PairAlike PairSt.leaseUntil stored := .of_pair rfl
  have hcounted : stored.PairAlike PairSt.leaseUntil counted := .of_pair (Hw.addReg_pair ..)
  have hkept : counted.PairAlike PairSt.leaseUntil kept := .of_pair (Hw.setSes_pair ..)
  clear_value kept
  have hnoted : kept.PairAlike PairSt.leaseUntil noted := by
    have hmissed : kept.PairAlike PairSt.leaseUntil missed := .of_pair rfl
    exact .ite (hmissed.trans ((Hw.cross_within ..).pairAlike (by decide))) (.refl kept)
  clear_value noted
  have hcleared : noted.PairAlike PairSt.leaseUntil cleared := .ite ((Hw.uncross_within ..).pairAlike (by decide)) (.refl noted)
  have htold : cleared.PairAlike PairSt.leaseUntil told := .ite ((Hw.sessionNotice_within ..).pairAlike (by decide)) (.refl _)
  exact ((((hstored.trans hcounted).trans hkept).trans hnoted).trans (hcleared.trans htold)).trans
    (((Hw.resendParked_within ..).pairAlike (by decide)).trans (Hw.checkComplete_lease ..))

theorem Hw.settleChunks_lease (h : Hw) : h.PairAlike PairSt.leaseUntil h.settleChunks := by
  refine .fold (fun x e => .fold (fun y c => ?_) _ _) _ h
  split
  · split
    · exact .ite (Hw.finishChunk_lease ..) (.refl y)
    · exact .refl y
  · exact .refl y

theorem Hw.acceptMirrors_lease (h : Hw) (n : Nat) : h.PairAlike PairSt.leaseUntil (h.acceptMirrors n) := by
  unfold Hw.acceptMirrors
  extract_lets done _ cut settled
  have hcut : h.PairAlike PairSt.leaseUntil cut := rfl
  have hsettled : cut.PairAlike PairSt.leaseUntil settled := by
    refine .fold (fun x m => ?_) _ _
    extract_lets y
    have hy : x.PairAlike PairSt.leaseUntil y := .of_pair rfl
    refine hy.trans (.ite (.ite rfl (.refl y)) ?_)
    split
    · split
      · exact (Hw.complete_unheld ..).of_unheld (fun _ => rfl)
      · exact .refl y
    · exact .refl y
  exact (hcut.trans hsettled).trans (Hw.settleChunks_lease settled)

/-! ### Every partition UNSYNCED -/

/-- Of the pair group only the partition in hand changes. -/
theorem Hw.unsyncAll_pair (h : Hw) : h.unsyncAll.pair = { h.pair with syncPart := none } := by
  have hfold : ((List.range 16).foldl Hw.unsync h).pair = h.pair :=
    List.foldlRecOn (motive := fun b : Hw => b.pair = h.pair) _ _ rfl (fun _ hb _ _ => hb)
  unfold Hw.unsyncAll
  generalize (List.range 16).foldl (fun h p => h.unsync p) h = x at hfold ⊢
  rw [← hfold]

theorem Hw.unsyncAll_lease (h : Hw) : h.PairAlike PairSt.leaseUntil h.unsyncAll := by
  rw [Hw.PairAlike, Hw.unsyncAll_pair]

theorem Hw.unsync_syncState (h : Hw) (p : Nat) : (h.unsync p).reg Od.syncState p = 0 := by
  unfold Hw.unsync
  rw [Hw.reg_setReg_ne _ _ _ _ _ _ (by decide) (by decide) (by decide), Hw.reg_setReg_ne _ _ _ _ _ _ (by decide) (by decide) (by decide),
    Hw.reg_setReg_same, Nat.zero_mod]

theorem Hw.unsync_other (h : Hw) (r : Reg) (p q : Nat) (hq : q % 4096 ≠ p % 4096) : (h.unsync p).reg r q = h.reg r q := by
  unfold Hw.unsync
  rw [Hw.reg_setReg_elsewhere _ _ _ _ _ _ hq, Hw.reg_setReg_elsewhere _ _ _ _ _ _ hq, Hw.reg_setReg_elsewhere _ _ _ _ _ _ hq]

theorem Hw.unsyncs_syncState (ps : List Nat) (hps : ∀ p ∈ ps, p < 16) (h : Hw) (q : Nat) (hq : q < 16)
    (hqs : q ∈ ps ∨ h.reg Od.syncState q = 0) : (ps.foldl Hw.unsync h).reg Od.syncState q = 0 := by
  induction ps generalizing h with
  | nil => simpa using hqs
  | cons p ps ih =>
    have hp := hps p List.mem_cons_self
    refine ih (fun k hk => hps k (List.mem_cons_of_mem _ hk)) _ ?_
    by_cases hpq : q = p
    · subst hpq
      exact .inr (Hw.unsync_syncState h q)
    · rw [Hw.unsync_other h _ p q (by omega)]
      exact hqs.imp (fun hm => (List.mem_cons.1 hm).resolve_left hpq) id

theorem Hw.unsyncAll_syncState (h : Hw) (p : Nat) (hp : p < 16) : h.unsyncAll.reg Od.syncState p = 0 := by
  have hfold := Hw.unsyncs_syncState (List.range 16) (fun _ => List.mem_range.1) h p hp (.inl (List.mem_range.2 hp))
  unfold Hw.unsyncAll
  generalize (List.range 16).foldl (fun h p => h.unsync p) h = x at hfold ⊢
  exact hfold

theorem Hw.nextSync_reg (h : Hw) (r : Reg) (i : Nat) : h.nextSync.reg r i = h.reg r i := rfl

/-- Resync starts with every partition UNSYNCED. -/
theorem Hw.startResync_syncState (h : Hw) (p : Nat) (hp : p < 16) : h.startResync.reg Od.syncState p = 0 := by
  have hcopy (x : Hw) (es : List (Nat × Nat)) :
      (es.foldl (fun h e => h.mirrorDict e.1 e.2) x).reg Od.syncState p = x.reg Od.syncState p :=
    Hw.Within.reg (m := passedOnMask) (.fold (fun _ _ hy => Hw.Within.step (Hw.mirrorDict_within ..) (by decide) hy) (.refl _ _)) _ _ (by decide)
  rw [Hw.startResync, Hw.nextSync_reg, hcopy, Hw.unsyncAll_syncState _ p hp]

theorem Hw.startResync_lease (h : Hw) : h.PairAlike PairSt.leaseUntil h.startResync := by
  unfold Hw.startResync
  extract_lets fresh copied
  have hfresh : h.PairAlike PairSt.leaseUntil fresh :=
    ((Hw.enterRecovery_within ..).pairAlike (by decide)).trans (Hw.unsyncAll_lease ..)
  have hcopied : fresh.PairAlike PairSt.leaseUntil copied := .fold (fun _ _ => Hw.mirrorDict_lease ..) _ _
  clear_value fresh copied
  exact (hfresh.trans hcopied).trans rfl

end Sys2Proof.Machine
end

section
/-! Mirror messages and their acceptance, the mirror digest and resync (R252, R253, R258). -/

namespace Sys2Proof.Machine

/-! ### The standby -/

theorem mirrorMessage_completes (m : MirrorMsg) (s : State) (hst : s.hw.reg Od.pairState = 7 ∨ s.hw.reg Od.pairState = 8) :
    let w := s.hw.mirrorApply m
    Completes (.mirrorMessage m) s
      ({ w with pair.mirrorDone := w.pair.mirrorDone + 1 }.sendPeer Fk.control 4 (natBytes (w.pair.mirrorDone + 1) 8)) := by
  have h : exec (.mirrorMessage m) s = execMirrorMessage m s := rfl
  rw [Completes, h, execMirrorMessage, State.on, if_pos hst]

/-- The report of a message changes the count of those accepted, and no register. -/
theorem mirrorMessage_leads (m : MirrorMsg) (s : State) (hst : s.hw.reg Od.pairState = 7 ∨ s.hw.reg Od.pairState = 8) :
    let w := s.hw.mirrorApply m
    Leads (.mirrorMessage m) s (fun h => h.pair = { w.pair with mirrorDone := w.pair.mirrorDone + 1 } ∧ h.od = w.od) :=
  ⟨_, mirrorMessage_completes m s hst, Hw.sendPeer_pair .., Hw.sendPeer_od ..⟩

theorem Hw.elem_of_od {a b : Hw} (h : b.od = a.od) (r : Reg) (i e : Nat) : b.elem r i e = a.elem r i e := by
  rw [Hw.elem, h, Hw.elem]

theorem Hw.mirrorSet_elem (h : Hw) {r : Reg} {f : FieldDesc} (i e v : Nat) (hf : fieldOf r = some f) (hc : f.cmd = false)
    (hreq : r ≠ Od.reqState) (hmode : r ≠ Od.serviceMode) (hacts : actsOn r = false) (hmap : r ≠ Od.frameMap) :
    (h.mirrorSet r i e v).elem r i e = v % 2 ^ r.width := by
  unfold Hw.mirrorSet
  rw [hf]
  dsimp only
  rw [if_neg (by simp [hc]), if_neg hreq, if_neg hmode, if_neg (by simp [hacts]), if_neg hmap, Hw.elem_setElem_same]

/-! ### Acceptance -/

/-- A request on its way that holds no sequence number, no BIRSP, whose response is not discarded waits for egress once it completes. -/
theorem Hw.complete_unnumbered (h : Hw) {uid st : Nat} {t : Tracker} (ht : h.trk uid = some t) (hph : t.phase ≠ .responding)
    (h9 : t.rq.op ≠ 9) (hseq : t.rq.seq = none) (hd : h.discards t = false) (d : List Byte) (psn : List Bool) :
    ∃ u, (h.complete uid st d psn).trk uid = some u ∧ u.phase = .responding ∧ u.status = st := by
  have hwin : h.settleWin t.rq st = h := by rw [Hw.settleWin, hseq]
  rw [Hw.complete, ht]
  dsimp only
  rw [if_neg (not_or.2 ⟨hph, h9⟩), hwin]
  exact ⟨_, Hw.answer_trk h uid st d psn t ht hph hd, rfl, rfl⟩

/-- The mirror buffer without the messages up to `n`, which the peer has accepted. -/
def Hw.cutMirrors (h : Hw) (n : Nat) : Hw :=
  { h with pair.mirrors := h.pair.mirrors.filter (fun m => decide (n < m.seqNo)), pair.mirrorDone := max h.pair.mirrorDone (min n h.pair.mirrorNext) }

/-- The response of a held write leaves as it is, the buffer one message shorter. -/
theorem Hw.acceptMirrors_single (h : Hw) (n uid : Nat) (m : Mirror) (t : Tracker) (hm : h.pair.mirrors = [m]) (hn : m.seqNo ≤ n)
    (hk : m.kind = 0) (hu : m.trk = some uid) (ht : h.trk uid = some t) (hs : h.red.sessions = []) :
    let freed := (h.cutMirrors n).subReg Od.mirrorBufferBytes 0 (max 16 m.data.length)
    h.acceptMirrors n = freed.complete uid t.status (t.out.flatMap (fun o => o.2)) t.poison := by
  intro freed
  have hdone : [m].filter (fun x => decide (x.seqNo ≤ n)) = [m] := by simp [hn]
  have hcut : ({ h with pair.mirrors := h.pair.mirrors.filter (fun m => decide (n < m.seqNo)),
                        pair.mirrorDone := max h.pair.mirrorDone (min n h.pair.mirrorNext) } : Hw) = h.cutMirrors n := rfl
  have hcomplete : ((h.cutMirrors n).subReg Od.mirrorBufferBytes 0 (max 16 m.data.length)).trk uid = some t := ht
  have hred : (freed.complete uid t.status (t.out.flatMap (fun o => o.2)) t.poison).red = h.red :=
    (Hw.complete_within ..).same .reductions (by decide)
  unfold Hw.acceptMirrors
  dsimp only
  rw [hcut, hm, hdone, List.foldl_cons, List.foldl_nil, if_neg (by omega), hu]
  dsimp only
  rw [hcomplete]
  dsimp only
  rw [Hw.settleChunks, hred, hs]
  rfl

theorem mirrorAccepted_single (n uid : Nat) (m : Mirror) (t : Tracker) (s : State) (hst : s.hw.reg Od.pairState = 4)
    (hm : s.hw.pair.mirrors = [m]) (hn : m.seqNo ≤ n) (hnext : n ≤ s.hw.pair.mirrorNext) (hk : m.kind = 0) (hu : m.trk = some uid)
    (ht : s.hw.trk uid = some t) (hph : t.phase = .held) (h9 : t.rq.op ≠ 9) (hseq : t.rq.seq = none) (hd : s.hw.discards t = false)
    (hs : s.hw.red.sessions = []) :
    Leads (.mirrorAccepted n) s (fun h => h.pair.mirrors = [] ∧ h.pair.mirrorDone = max s.hw.pair.mirrorDone n ∧
      ∃ u, h.trk uid = some u ∧ u.phase = .responding ∧ u.status = t.status) := by
  refine ⟨_, rfl, ?_⟩
  dsimp only
  rw [if_pos hst, Hw.acceptMirrors_single s.hw n uid m t hm hn hk hu ht hs]
  have hpair := Hw.complete_unheld ((s.hw.cutMirrors n).subReg Od.mirrorBufferBytes 0 (max 16 m.data.length)) uid t.status
    (t.out.flatMap (fun o => o.2)) t.poison
  have htrk : ((s.hw.cutMirrors n).subReg Od.mirrorBufferBytes 0 (max 16 m.data.length)).trk uid = some t := ht
  have hmirrors : (s.hw.cutMirrors n).pair.mirrors = [] := by simp [Hw.cutMirrors, hm, hn]
  have hdone : (s.hw.cutMirrors n).pair.mirrorDone = max s.hw.pair.mirrorDone n := by
    rw [Hw.cutMirrors, Nat.min_eq_left hnext]
  refine ⟨(hpair.of_unheld (f := PairSt.mirrors) (fun _ => rfl)).eq.trans hmirrors,
    (hpair.of_unheld (f := PairSt.mirrorDone) (fun _ => rfl)).eq.trans hdone, Hw.complete_unnumbered _ htrk (by simp [hph]) h9 hseq ?_ _ _⟩
  have hfreed := Hw.subReg_within (s.hw.cutMirrors n) Od.mirrorBufferBytes 0 (max 16 m.data.length)
  exact (Hw.discards_of (fun i => hfreed.reg Od.reqEpoch i (by decide)) (fun i => hfreed.reg Od.portState i (by decide)) t).trans hd

/-! ### The digest -/

/-- The mask of what follows from digests that differ: the event and the resync. -/
def divergenceMask : Nat :=
  1231497054230075221292109327356335894365390843282134511483234691223944083767759328369507720836526818118395133693956 |||
    449580205714447124508465552324726040217060130753746766745352948686570777108699732574210052

/-- Digests that differ: counted, noted, and the resync starts again, or the standby is UNSYNCED (R253). -/
def Hw.diverge (h : Hw) (st : Nat) : Hw :=
  let h := (h.addReg Od.mirrorDivergences 0).raise { kind := 0x1c }
  if st = 4 then h.startResync else h.unsyncAll

theorem Hw.diverge_within (h : Hw) (st : Nat) : (h.addReg Od.mirrorDivergences 0).Within divergenceMask (h.diverge st) := by
  unfold Hw.diverge
  extract_lets noted
  have hnoted : (h.addReg Od.mirrorDivergences 0).Within divergenceMask noted :=
    Hw.Within.step (Hw.raise_within ..) (by decide) (.refl _ _)
  exact .ite (Hw.Within.step (Hw.startResync_within ..) (by decide) hnoted) (Hw.Within.step (Hw.unsyncAll_within ..) (by decide) hnoted)

theorem Hw.diverge_syncState (h : Hw) (st p : Nat) (hp : p < 16) : (h.diverge st).reg Od.syncState p = 0 := by
  unfold Hw.diverge
  extract_lets noted
  rw [apply_ite (fun x : Hw => x.reg Od.syncState p), Hw.startResync_syncState _ p hp, Hw.unsyncAll_syncState _ p hp, ite_self]

theorem mirrorDigestCompare_completes (peer : BitVec 384) (s : State) (hst : s.hw.reg Od.pairState = 4 ∨ s.hw.reg Od.pairState = 7)
    (hdue : s.hw.due Tm.mirrorDigest 0 = true) :
    let w := s.hw.setTimer Tm.mirrorDigest 0 (s.hw.now + 64000000000)
    Completes (.mirrorDigestCompare peer) s (if w.mirrorDigest = peer.toNat then w else w.diverge (s.hw.reg Od.pairState)) := by
  have hgo : ¬ ((s.hw.reg Od.pairState ≠ 4 ∧ s.hw.reg Od.pairState ≠ 7) ∨ s.hw.due Tm.mirrorDigest 0 = false) := by
    rw [hdue]
    simpa [Decidable.or_iff_not_imp_left] using hst
  have h : exec (.mirrorDigestCompare peer) s = execMirrorDigestCompare peer s := rfl
  rw [Completes, h, execMirrorDigestCompare, State.on, if_neg hgo]
  rfl

theorem mirrorDigestCompare_counts (peer : BitVec 384) (s : State) (hst : s.hw.reg Od.pairState = 4 ∨ s.hw.reg Od.pairState = 7)
    (hdue : s.hw.due Tm.mirrorDigest 0 = true) :
    Leads (.mirrorDigestCompare peer) s (fun h => h.timer Tm.mirrorDigest 0 = s.hw.now + 64000000000 ∧
      if s.hw.mirrorDigest = peer.toNat then h.reg Od.mirrorDivergences = s.hw.reg Od.mirrorDivergences
      else h.reg Od.mirrorDivergences = (s.hw.reg Od.mirrorDivergences + 1) % 2 ^ Od.mirrorDivergences.width ∧
        ∀ p, p < 16 → h.reg Od.syncState p = 0) := by
  refine ⟨_, mirrorDigestCompare_completes peer s hst hdue, ?_⟩
  have htimer : (s.hw.setTimer Tm.mirrorDigest 0 (s.hw.now + 64000000000)).timer Tm.mirrorDigest 0 = s.hw.now + 64000000000 :=
    Hw.timer_setTimer_same ..
  have hdigest (t : Nat) : (s.hw.setTimer Tm.mirrorDigest 0 t).mirrorDigest = s.hw.mirrorDigest := rfl
  have hcount := Hw.reg_setTimer s.hw Tm.mirrorDigest 0 (s.hw.now + 64000000000) Od.mirrorDivergences 0
  rw [hdigest]
  generalize s.hw.setTimer Tm.mirrorDigest 0 (s.hw.now + 64000000000) = w at htimer hcount ⊢
  by_cases heq : s.hw.mirrorDigest = peer.toNat
  · rw [if_pos heq]
    beta_reduce
    rw [if_pos heq]
    exact ⟨htimer, hcount⟩
  · rw [if_neg heq]
    beta_reduce
    rw [if_neg heq]
    have hdone := Hw.diverge_within w (s.hw.reg Od.pairState)
    refine ⟨?_, ?_, fun p hp => Hw.diverge_syncState w _ p hp⟩
    · rw [Hw.timer, hdone.same .timers (by decide)]
      exact htimer
    · rw [hdone.reg _ _ (by decide), Hw.reg_addReg_same, hcount]

/-! ### Resync -/

/-- Partition `p` where its copy stands: a copy that starts is at the first sector of its first member (R258). -/
def Hw.copyStart (h : Hw) (p : Nat) : Hw :=
  if h.reg Od.syncState p = 0 then
    ((h.setReg Od.syncState p 1).setReg Od.syncStack p ((h.members p).headD 0)).setReg Od.syncHwm p 0
  else h

theorem Hw.copyStart_at (h : Hw) (p : Nat) :
    let fresh := h.reg Od.syncState p = 0
    (h.copyStart p).reg Od.syncStack p = (if fresh then (h.members p).headD 0 % 2 ^ Od.syncStack.width else h.reg Od.syncStack p) ∧
      (h.copyStart p).reg Od.syncHwm p = if fresh then 0 else h.reg Od.syncHwm p := by
  intro fresh
  unfold Hw.copyStart
  by_cases hf : h.reg Od.syncState p = 0
  · rw [if_pos hf, if_pos hf, if_pos hf]
    constructor
    · rw [Hw.reg_setReg_ne _ _ _ _ _ _ (by decide) (by decide) (by decide), Hw.reg_setReg_same]
    · rw [Hw.reg_setReg_same, Nat.zero_mod]
  · rw [if_neg hf, if_neg hf, if_neg hf]
    exact ⟨rfl, rfl⟩

theorem Hw.copyStart_within (h : Hw) (p : Nat) : h.Within (Reg.masks [Od.syncState, Od.syncStack, Od.syncHwm]) (h.copyStart p) :=
  .ite (Hw.Within.step (Hw.setReg_within ..) (by decide) (Hw.Within.step (Hw.setReg_within ..) (by decide)
    (Hw.Within.step (Hw.setReg_within ..) (by decide) (.refl _ _)))) (.refl _ _)

/-- The mark moves past a sector: to the next stack, or within this one (R258). -/
def Hw.moveMark (h : Hw) (p : Nat) (atEnd : Bool) (next : Option Nat) (mark : Nat) : Hw :=
  match atEnd, next with
  | true, some t => (h.setReg Od.syncStack p t).setReg Od.syncHwm p 0
  | _, _ => h.setReg Od.syncHwm p mark

theorem Hw.moveMark_pair (h : Hw) (p : Nat) (atEnd : Bool) (next : Option Nat) (mark : Nat) : (h.moveMark p atEnd next mark).pair = h.pair := by
  unfold Hw.moveMark
  split <;> rfl

/-- The sector in hand goes to the standby, and the mark moves past it. -/
theorem resyncSector_copies (p : Nat) (s : State) (hp : s.hw.pair.syncPart = some p) (hst : s.hw.reg Od.pairState = 4)
    (hroom : s.hw.reg Od.mirrorBufferBytes < 11534336) (a o : Nat) (ha : (s.hw.copyStart p).reg Od.syncStack p = a)
    (ho : (s.hw.copyStart p).reg Od.syncHwm p = o) (hlt : o < s.hw.reg Od.stackCapacity a) :
    ∃ (w : Hw) (m : Mirror), m.kind = 5 ∧ m.dpa = dpaOf a o ∧ Completes .resyncSector s
      ((w.sendMirror m).moveMark p (decide (s.hw.reg Od.stackCapacity a ≤ o + 256)) ((s.hw.members p).find? (fun t => decide (a < t))) (o + 256)) := by
  have hcap : (s.hw.copyStart p).reg Od.stackCapacity a = s.hw.reg Od.stackCapacity a := (Hw.copyStart_within ..).reg _ _ (by decide)
  have h : exec .resyncSector s = execResyncSector s := rfl
  simp only [Completes, h, execResyncSector, State.on, hp]
  rw [if_neg (by omega)]
  have hstart : (if s.hw.reg Od.syncState p = 0 then
    ((s.hw.setReg Od.syncState p 1).setReg Od.syncStack p ((s.hw.members p).headD 0)).setReg Od.syncHwm p 0 else s.hw) = s.hw.copyStart p := rfl
  rw [hstart, ha, ho, hcap, if_neg (by omega)]
  exact ⟨_, _, rfl, rfl, rfl⟩

/-- Settles O45: the standby's rows, then those of the active unit. -/
theorem mirrorTraffic : Obligations.MirrorTraffic := by
  intro s st
  refine ⟨fun m hst => ?_, fun i index inst sub elem value f hst hi hf hc hreq hmode hacts => ?_, fun r q hst => ?_,
    fun n m uid t hst hm hn hnext hk hu ht hph h9 hseq hd hs => mirrorAccepted_single n uid m t s hst hm hn hnext hk hu ht hph h9 hseq hd hs,
    fun peer hst hdue => mirrorDigestCompare_counts peer s hst hdue, fun p hp hst hroom => ?_⟩
  · exact (mirrorMessage_leads m s hst).imp fun h ⟨hpair, hod⟩ =>
      ⟨congrArg PairSt.mirrorDone hpair, fun r i => Hw.elem_of_od hod r i 0⟩
  · refine (mirrorMessage_leads _ s hst).imp fun h ⟨_, hod⟩ hmap => ?_
    subst hi
    rw [Hw.elem_of_od hod]
    exact Hw.mirrorSet_elem s.hw _ _ _ hf hc hreq hmode hacts hmap
  · exact (mirrorMessage_leads _ s hst).imp fun h ⟨hpair, _⟩ => congrArg PairSt.launchRecs hpair
  · intro fresh a o size ha hsize
    obtain ⟨hstack, hmark⟩ := Hw.copyStart_at s.hw p
    have hstack' : (s.hw.copyStart p).reg Od.syncStack p = a := by
      rw [hstack]
      by_cases hf : s.hw.reg Od.syncState p = 0
      · have hhead : (s.hw.members p).headD 0 < 16 := by simpa [a, fresh, hf] using ha
        have hw : Od.syncStack.width = 8 := by decide
        simp only [a, fresh, hf, if_true, hw]
        exact Nat.mod_eq_of_lt (by omega)
      · simp only [a, fresh, hf, if_false]
    obtain ⟨w, m, hk, hdpa, hdone⟩ := resyncSector_copies p s hp hst hroom a o hstack' hmark hsize
    refine ⟨_, hdone, ⟨{ m with seqNo := w.pair.mirrorNext + 1 }, ?_, hk, hdpa⟩, fun hmore => ?_, fun hend t ht => ?_⟩
    · rw [Hw.moveMark_pair, Hw.sendMirror_pair]
      exact List.mem_append_right _ List.mem_cons_self
    · rw [decide_eq_false (by omega)]
      exact Hw.reg_setReg_same ..
    · rw [decide_eq_true hend, ht]
      exact ⟨(Hw.reg_setReg_ne _ _ _ _ _ _ (by decide) (by decide) (by decide)).trans (Hw.reg_setReg_same ..),
        (Hw.reg_setReg_same ..).trans (Nat.zero_mod _)⟩

end Sys2Proof.Machine
end

section
/-! Intents, deltas and settle notices of a parity group, and the degrade of a failed stack (R237 to R240). -/

namespace Sys2Proof.Machine

/-! ### Intent counts (R238) -/

theorem Hw.intents_addIntent (h : Hw) (k j : Nat) (n : Int) :
    Table.atD (h.addIntent k n).par.intents (fun _ => 0) j =
      if j = k then Table.atD h.par.intents (fun _ => 0) k + n else Table.atD h.par.intents (fun _ => 0) j := by
  by_cases hj : j = k
  · subst hj
    rw [if_pos rfl]
    exact Table.atD_setD_same h.par.intents (fun _ => 0) j _
  · rw [if_neg hj]
    exact Table.atD_setD_ne h.par.intents (fun _ => 0) k j _ hj

theorem writeIntent_completes (stack : StackIx) (s : State) (x : Nat × Nat) (rest : List (Nat × Nat))
    (hx : Table.atD s.hw.par.intentsIn (fun _ => []) stack.val = x :: rest) :
    Completes (.writeIntent stack) s ({ s.hw with par.intentsIn := Table.setD s.hw.par.intentsIn (fun _ => []) stack.val rest }.addIntent x.2 1) := by
  have h : exec (.writeIntent stack) s = execWriteIntent stack s := rfl
  rw [Completes, h, execWriteIntent, State.on, hx]

theorem writeIntent_counts (stack : StackIx) (s : State) (x : Nat × Nat) (rest : List (Nat × Nat))
    (hx : Table.atD s.hw.par.intentsIn (fun _ => []) stack.val = x :: rest) :
    Leads (.writeIntent stack) s (fun h => Table.atD h.par.intentsIn (fun _ => []) stack.val = rest ∧
      ∀ k, Table.atD h.par.intents (fun _ => 0) k =
        if k = x.2 then Table.atD s.hw.par.intents (fun _ => 0) k + 1 else Table.atD s.hw.par.intents (fun _ => 0) k) := by
  refine ⟨_, writeIntent_completes stack s x rest hx, Table.atD_setD_same s.hw.par.intentsIn (fun _ => []) stack.val rest, fun k => ?_⟩
  rw [Hw.intents_addIntent]
  split
  · next hk => rw [hk]
  · rfl

theorem settleNotice_completes (stack : StackIx) (s : State) (x : Settle) (rest : List Settle)
    (hx : Table.atD s.hw.par.settles (fun _ => []) stack.val = x :: rest) :
    Completes (.settleNotice stack) s ({ s.hw with par.settles := Table.setD s.hw.par.settles (fun _ => []) stack.val rest }.settleOne x) := by
  have h : exec (.settleNotice stack) s = execSettleNotice stack s := rfl
  rw [Completes, h, execSettleNotice, State.on, hx]

theorem settleNotice_counts (stack : StackIx) (s : State) (x : Settle) (rest : List Settle)
    (hx : Table.atD s.hw.par.settles (fun _ => []) stack.val = x :: rest) :
    Leads (.settleNotice stack) s (fun h => Table.atD h.par.settles (fun _ => []) stack.val = rest ∧
      ∀ k, Table.atD h.par.intents (fun _ => 0) k =
        if k = secKey x.dataStack x.off then Table.atD s.hw.par.intents (fun _ => 0) k - x.merges
        else Table.atD s.hw.par.intents (fun _ => 0) k) := by
  refine ⟨_, settleNotice_completes stack s x rest hx, Table.atD_setD_same s.hw.par.settles (fun _ => []) stack.val rest, fun k => ?_⟩
  rw [Hw.settleOne, Hw.intents_addIntent]
  split
  · next hk =>
    rw [hk]
    rfl
  · rfl

/-! ### Deltas (R237) -/

theorem Hw.settleDeltas_single (h : Hw) (t : Nat) (d : Delta) (hd : h.deltasAt t = [d]) :
    h.settleDeltas t d.off = ({ h with par.deltas := Table.put h.par.deltas t [] }.applyDelta d).sendSettle d := by
  unfold Hw.settleDeltas
  simp [hd]

theorem parityDelta_settles (stack : StackIx) (s : State) (d : Delta) (hd : s.hw.deltasAt stack.val = [d]) :
    let w := { s.hw with par.deltas := Table.put s.hw.par.deltas stack.val [] }.applyDelta d
    Completes (.parityDelta stack) s (w.sendSettle d) := by
  have h : exec (.parityDelta stack) s = execParityDelta stack s := rfl
  rw [Completes, h, execParityDelta, State.on, hd]
  dsimp only
  rw [Hw.settleDeltas_single _ _ _ hd]

/-! ### The drain of a failed stack ends (R239) -/

theorem Table.eq_nil_of_look {α : Type} (t : Table α) (h : ∀ k, t.look k = none) : t = [] := by
  cases t with
  | nil => rfl
  | cons e t =>
    have he := h e.1
    simp [Table.look] at he

/-- With no intent and no delta on its way, nothing lands before a declaration. -/
theorem Hw.landParity_nothing (h : Hw) (p s : Nat) (hi : ∀ u, Table.look h.par.intentsIn u = none) (hd : ∀ u, h.deltasAt u = []) :
    h.landParity p s = h := by
  have hnil : h.par.intentsIn = [] := Table.eq_nil_of_look _ hi
  refine List.foldl_fixed' (fun t => ?_) _
  have hsame : ({ h with par.intentsIn := Table.del h.par.intentsIn t } : Hw) = h := by
    rw [hnil, Table.del, ← hnil]
  dsimp only
  rw [hsame, hnil]
  simp only [Table.atD, Table.look, Option.getD_none, List.foldl_nil, hd, List.filter_nil]

/-- A sector's four lines are unsettled. -/
def Hw.unsettle (h : Hw) (k : Nat) : Hw := { h with mem.unsettled := Table.setD h.mem.unsettled (fun _ => 0) k 15 }

theorem Hw.unsettle_lines (h : Hw) (k j : Nat) : (h.unsettle k).unsettledLines j = if j = k then 15 else h.unsettledLines j := by
  by_cases hj : j = k
  · subst hj
    rw [if_pos rfl]
    exact Table.atD_setD_same h.mem.unsettled (fun _ => 0) j 15
  · rw [if_neg hj]
    exact Table.atD_setD_ne h.mem.unsettled (fun _ => 0) k j 15 hj

theorem Hw.unsettles_lines (es : List (Nat × Int)) (h : Hw) (k : Nat) (hk : (∃ e ∈ es, e.1 = k) ∨ h.unsettledLines k = 15) :
    (es.foldl (fun h e => h.unsettle e.1) h).unsettledLines k = 15 := by
  induction es generalizing h with
  | nil => simpa using hk
  | cons e es ih =>
    refine ih _ ?_
    rw [Hw.unsettle_lines]
    by_cases hke : k = e.1
    · exact .inr (if_pos hke)
    · rw [if_neg hke]
      refine hk.imp (fun ⟨x, hx, hxk⟩ => ?_) id
      rcases List.mem_cons.1 hx with rfl | hx
      · exact absurd hxk.symm hke
      · exact ⟨x, hx, hxk⟩

/-- What unsettling leaves: everything but the unsettled lines. -/
theorem Hw.unsettles_keep {α : Type} (f : Hw → α) (hf : ∀ h k, f (Hw.unsettle h k) = f h) (es : List (Nat × Int)) (h : Hw) :
    f (es.foldl (fun h e => h.unsettle e.1) h) = f h :=
  List.foldlRecOn (motive := fun b => f b = f h) es _ rfl (fun b hb e _ => (hf b e.1).trans hb)

/-- The counts of a stack with no settle notice on its way are collected. -/
theorem Hw.collectIntents_eq (h : Hw) (s : Nat) (hs : Table.atD h.par.settles (fun _ => []) s = []) :
    h.collectIntents s = (h.par.intents.filter (fun e => decide (secStack e.1 = s) && decide (0 < e.2))).foldl (fun h e => h.unsettle e.1)
      { h with par.settles := Table.del h.par.settles s, par.intents := Table.drop h.par.intents (fun k => decide (secStack k = s)) } := by
  unfold Hw.collectIntents
  rw [hs]
  rfl

theorem Hw.collectIntents_spec (h : Hw) (s : Nat) (hs : Table.atD h.par.settles (fun _ => []) s = []) :
    (∀ e, e ∈ h.par.intents → secStack e.1 = s → 0 < e.2 → (h.collectIntents s).unsettledLines e.1 = 15) ∧
      (h.collectIntents s).par = { h.par with settles := Table.del h.par.settles s,
                                              intents := Table.drop h.par.intents (fun k => decide (secStack k = s)) } ∧
      (h.collectIntents s).mem.wcb = h.mem.wcb ∧ (h.collectIntents s).mem.rmw = h.mem.rmw := by
  rw [Hw.collectIntents_eq h s hs]
  refine ⟨fun e he hes hpos => Hw.unsettles_lines _ _ _ (.inl ⟨e, List.mem_filter.2 ⟨he, by simp [hes, hpos]⟩, rfl⟩), ?_, ?_, ?_⟩
  · exact Hw.unsettles_keep Hw.par (fun _ _ => rfl) _ _
  · exact Hw.unsettles_keep (fun h => h.mem.wcb) (fun _ _ => rfl) _ _
  · exact Hw.unsettles_keep (fun h => h.mem.rmw) (fun _ _ => rfl) _ _

/-- DEGRADE_DRAIN_END at 20 µs without an answer: the buffer empties and the counts are collected. -/
theorem degradeDrainEnd_silent (stack : StackIx) (s : State) (d : Degrade)
    (hd : s.hw.par.degrades.find? (fun x => x.stack == stack.val) = some d) (hc : d.collected = false)
    (hm : s.hw.modulesIn stack.val .up = []) (hlate : d.since + 20000 ≤ s.hw.now)
    (hi : ∀ u, Table.look s.hw.par.intentsIn u = none) (hdel : ∀ u, s.hw.deltasAt u = []) :
    let w := ((s.hw.emptyBuffer stack.val).dropRmwReads stack.val).collectIntents stack.val
    Completes (.degradeDrainEnd stack) s
      { w with par.degrades := w.par.degrades.map (fun x => if x.stack = stack.val then { x with collected := true } else x) } := by
  have h : exec (.degradeDrainEnd stack) s = execDegradeDrainEnd stack s := rfl
  rw [Completes, h, execDegradeDrainEnd, State.on]
  dsimp only
  rw [hd]
  dsimp only
  rw [hm, hc, Hw.landParity_nothing _ _ _ hi hdel, if_neg (by simp; omega)]
  simp only [List.isEmpty_nil, Bool.not_true, Bool.false_eq_true, if_false]

theorem degradeDrainEnd_collects (stack : StackIx) (s : State) (d : Degrade)
    (hd : s.hw.par.degrades.find? (fun x => x.stack == stack.val) = some d) (hc : d.collected = false)
    (hm : s.hw.modulesIn stack.val .up = []) (hlate : d.since + 20000 ≤ s.hw.now)
    (hi : ∀ u, Table.look s.hw.par.intentsIn u = none) (hdel : ∀ u, s.hw.deltasAt u = [])
    (hs : Table.atD s.hw.par.settles (fun _ => []) stack.val = []) :
    Leads (.degradeDrainEnd stack) s (fun h => (∃ x, x ∈ h.par.degrades ∧ x.stack = stack.val ∧ x.collected = true) ∧
      (∀ e, e ∈ s.hw.par.intents → secStack e.1 = stack.val → 0 < e.2 → h.unsettledLines e.1 = 15) ∧
      ∀ k, secStack k = stack.val → Table.look h.par.intents k = none ∧ Table.look h.mem.wcb k = none ∧ Table.look h.mem.rmw k = none) := by
  refine ⟨_, degradeDrainEnd_silent stack s d hd hc hm hlate hi hdel, ?_⟩
  generalize hw : (s.hw.emptyBuffer stack.val).dropRmwReads stack.val = w
  have hdrop := Hw.dropRmwReads_within (s.hw.emptyBuffer stack.val) stack.val
  have hpar : w.par = s.hw.par := hw ▸ hdrop.same .parity (by decide)
  have hmem : w.mem = (s.hw.emptyBuffer stack.val).mem := hw ▸ hdrop.mem_same (by decide) (by decide)
  obtain ⟨hlines, hpar', hwcb, hrmw⟩ := Hw.collectIntents_spec w stack.val (by rw [hpar, hs])
  have hmine : d ∈ s.hw.par.degrades ∧ d.stack = stack.val :=
    ⟨List.mem_of_find?_eq_some hd, by simpa using List.find?_some hd⟩
  have hgone {α : Type} (t : Table α) (k : Nat) (hk : secStack k = stack.val) :
      Table.look (Table.drop t (fun k => decide (secStack k = stack.val))) k = none := by
    rw [Table.look_drop, hk, decide_eq_true rfl, if_pos rfl]
  rw [hpar] at hlines
  refine ⟨⟨{ d with collected := true }, ?_, hmine.2, rfl⟩, hlines, fun k hk => ⟨?_, ?_, ?_⟩⟩
  · dsimp only
    rw [hpar', hpar]
    exact List.mem_map.2 ⟨d, hmine.1, if_pos hmine.2⟩
  · dsimp only
    rw [hpar']
    exact hgone _ k hk
  · dsimp only
    rw [hwcb, hmem]
    exact hgone _ k hk
  · dsimp only
    rw [hrmw, hmem]
    exact hgone _ k hk

/-! ### The degrade completes (R239) -/

/-- The block with the failed slice's directory gone and its sessions and requests at the proxy. -/
def Hw.toProxy (h : Hw) (s : Nat) : Hw :=
  let h := (h.dropDirectory s).sessionsToProxy s
  h.reissue s ((h.proxyOf s).getD s)

theorem Hw.toProxy_partState (h : Hw) (s p : Nat) : (h.toProxy s).reg Od.partState p = h.reg Od.partState p := by
  unfold Hw.toProxy
  extract_lets moved
  rw [(Hw.reissue_within ..).reg _ _ (by decide), (Hw.sessionsToProxy_within ..).reg _ _ (by decide),
    (Hw.dropDirectory_within ..).reg _ _ (by decide)]

/-- The degrade over: the partition DEGRADED, the stack's degrades gone (R239). -/
def Hw.endDegrade (h : Hw) (s p : Nat) : Hw :=
  let h := if h.reg Od.partState p = 3 then h.setReg Od.partState p 4 else h
  { h with par.degrades := h.par.degrades.filter (fun x => x.stack != s) }

theorem degradeComplete_completes (stack : StackIx) (s : State) (d : Degrade)
    (hd : s.hw.par.degrades.find? (fun x => x.stack == stack.val && x.collected) = some d) :
    Completes (.degradeComplete stack) s
      (((s.hw.toProxy stack.val).endDegrade stack.val d.part).raise { kind := 0x17, stack := some stack.val, part := some d.part }) := by
  have h : exec (.degradeComplete stack) s = execDegradeComplete stack s := rfl
  rw [Completes, h, execDegradeComplete, State.on]
  dsimp only
  rw [hd]
  dsimp only [Hw.endDegrade, Hw.toProxy]

theorem degradeComplete_degraded (stack : StackIx) (s : State) (d : Degrade)
    (hd : s.hw.par.degrades.find? (fun x => x.stack == stack.val && x.collected) = some d) (hst : s.hw.reg Od.partState d.part = 3) :
    Leads (.degradeComplete stack) s (fun h => h.reg Od.partState d.part = 4 ∧ ∀ x, x ∈ h.par.degrades → x.stack ≠ stack.val) := by
  have h3 : (s.hw.toProxy stack.val).reg Od.partState d.part = 3 := (Hw.toProxy_partState ..).trans hst
  refine ⟨_, degradeComplete_completes stack s d hd, ?_⟩
  generalize s.hw.toProxy stack.val = w at h3
  have hraise := Hw.raise_within (w.endDegrade stack.val d.part) { kind := 0x17, stack := some stack.val, part := some d.part }
  constructor
  · rw [hraise.reg _ _ (by decide), Hw.endDegrade, if_pos h3]
    exact (Hw.reg_setReg_same w Od.partState d.part 4).trans (by decide)
  · intro x hx
    rw [hraise.same .parity (by decide)] at hx
    simpa using (List.mem_filter.1 hx).2

/-! ### Degraded reads (R240) -/

/-- A line delivered to a read that waits for more joins what it has. -/
theorem Hw.deliver_more (h : Hw) {uid n : Nat} {t : Tracker} (ht : h.trk uid = some t) (hn : n < t.piecesLeft) (at_ : Nat)
    (data : List Byte) (bad : Bool) : ∃ u, (h.deliver uid at_ data bad n).trk uid = some u ∧ u.piecesLeft = t.piecesLeft - n ∧
      u.out = t.out ++ [(at_, data)] := by
  rw [Hw.deliver, ht]
  dsimp only
  rw [if_neg (by omega)]
  exact ⟨_, Hw.trk_setTrk_same .., rfl, rfl⟩

theorem Hw.deliverLines (h : Hw) {uid : Nat} {x : Tracker} (hx : h.trk uid = some x) (at_ : Nat → Nat) (line : Nat → List Byte)
    (bad : Nat → Bool) (n : Nat) (hn : 2 * n < x.piecesLeft) :
    ∃ u, ((List.range n).foldl (fun h i => h.deliver uid (at_ i) (line i) (bad i) 2) h).trk uid = some u ∧
      u.piecesLeft = x.piecesLeft - 2 * n ∧ u.out = x.out ++ (List.range n).map (fun i => (at_ i, line i)) := by
  induction n with
  | zero => exact ⟨x, hx, rfl, by simp⟩
  | succ n ih =>
    obtain ⟨u, hu, hleft, hout⟩ := ih (by omega)
    rw [List.range_succ, List.foldl_append, List.map_append]
    obtain ⟨v, hv, hleft', hout'⟩ := Hw.deliver_more _ hu (n := 2) (by omega) (at_ n) (line n) (bad n)
    exact ⟨v, hv, by omega, by simp [hout', hout]⟩

theorem degradedRead_delivers (stack : StackIx) (s : State) (p : Piece) (rest : List Piece) (x : Tracker)
    (hp : Table.atD s.hw.par.degReads (fun _ => []) stack.val = p :: rest) (hsome : (s.hw.trk p.trk).isSome = true)
    (w : List Byte × List Bool × Hw)
    (hw : w = { s.hw with par.degReads := Table.setD s.hw.par.degReads (fun _ => []) stack.val rest }.readBytes p.stack p.off p.len
      (some p.requester) 0)
    (hx : w.2.2.trk p.trk = some x) (hleft : 2 * (p.len / 64) < x.piecesLeft) (haddr : ∀ y, s.hw.trk p.trk = some y → y.rq.addr = x.rq.addr) :
    Leads (.degradedRead stack) s (fun h => ∃ u, h.trk p.trk = some u ∧ u.piecesLeft = x.piecesLeft - 2 * (p.len / 64) ∧
      u.out = x.out ++ (List.range (p.len / 64)).map (fun i => (p.dpa + 64 * i - x.rq.addr, (w.1.drop (64 * i)).take 64))) := by
  obtain ⟨y, hy⟩ := Option.isSome_iff_exists.1 hsome
  have hlines := Hw.deliverLines w.2.2 hx (fun i => p.dpa + 64 * i - y.rq.addr) (fun i => (w.1.drop (64 * i)).take 64)
    (fun i => w.2.1.getD i false) (p.len / 64) hleft
  have hpop : ({ s.hw with par.degReads := Table.setD s.hw.par.degReads (fun _ => []) stack.val rest } : Hw).trk p.trk = some y := hy
  rw [← haddr y hy]
  refine ⟨_, rfl, ?_⟩
  dsimp only
  rw [hp]
  dsimp only
  rw [hpop]
  subst hw
  exact hlines

/-- Settles O42: intents and settle notices, a delta applied, the drain that ends in silence, the degrade that completes, a degraded
read. -/
theorem parityAndDegrade : Obligations.ParityAndDegrade := by
  intro stack s t count
  refine ⟨writeIntent_counts stack s, settleNotice_counts stack s, fun d hd => ?_, fun d hd hc hm hlate hi hdel hs =>
    degradeDrainEnd_collects stack s d hd hc hm hlate hi hdel hs, fun d hd hst _ _ _ => degradeComplete_degraded stack s d hd hst,
    fun p rest x hp hsome => ?_⟩
  · exact ⟨_, parityDelta_settles stack s d hd, rfl, fun _ => rfl, Table.atD_put_same ..⟩
  · intro w hx hleft haddr
    exact degradedRead_delivers stack s p rest x hp hsome w rfl hx hleft haddr

end Sys2Proof.Machine
end

section
/-! The pair's states: fencing, leases, heartbeats, the lost peer and the takeover (R248, R249, R254 to R257). -/

namespace Sys2Proof.Machine

/-! ### A unit that is fenced (R255, R256) -/

/-- The unit is FENCED, its mirror buffer gone. -/
def Hw.fencedNow (h : Hw) : Prop := h.reg Od.pairState = 9 ∧ h.pair.mirrors = [] ∧ h.reg Od.mirrorBufferBytes = 0

/-- Every partition is UNSYNCED. -/
def Hw.unsynced (h : Hw) : Prop := ∀ p, p < 16 → h.reg Od.syncState p = 0

theorem Hw.Within.unsynced {m : Nat} {a b : Hw} (w : a.Within m b) (hm : m.testBit (24 + Od.syncState.no) = false) (ha : a.unsynced) :
    b.unsynced := fun p hp => (w.reg _ _ hm).trans (ha p hp)

theorem Hw.unsyncAll_unsynced (h : Hw) : h.unsyncAll.unsynced := Hw.unsyncAll_syncState h

theorem Hw.startResync_unsynced (h : Hw) : h.startResync.unsynced := Hw.startResync_syncState h

theorem Hw.fenceUnit_fenced (h : Hw) : h.fenceUnit.fencedNow := by
  unfold Hw.fenceUnit
  extract_lets sent _ _ dropped emptied ended
  have hheld := Hw.fenceHeld_within (ended.setReg Od.pairState 0 9)
  have hmirrors : ended.pair.mirrors = [] := rfl
  have hbytes : emptied.reg Od.mirrorBufferBytes = 0 := (Hw.reg_setReg_same ..).trans (Nat.zero_mod _)
  refine ⟨?_, ?_, ?_⟩
  · rw [hheld.reg _ _ (by decide), Hw.reg_setReg_same]
    decide
  · rw [((Hw.fenceHeld_unheld (ended.setReg Od.pairState 0 9)).of_unheld (f := PairSt.mirrors) (fun _ => rfl)).eq, Hw.setReg_pair, hmirrors]
  · rw [hheld.reg _ _ (by decide), Hw.reg_setReg_ne _ _ _ _ _ _ (by decide) (by decide) (by decide),
      Hw.reg_setReg_ne _ _ _ _ _ _ (by decide) (by decide) (by decide), hbytes]

theorem Hw.fenceUnit_epoch (h : Hw) : h.fenceUnit.reg Od.pairEpoch = h.reg Od.pairEpoch := (Hw.fenceUnit_within h).reg _ _ (by decide)

/-! ### Asking for a lease -/

theorem Hw.askLease_keeps (h : Hw) : h.askLease.reg Od.pairState = h.reg Od.pairState ∧ h.askLease.pair = h.pair :=
  ⟨(Hw.askLease_within h).reg _ _ (by decide), (Hw.askLease_within h).same .pair (by decide)⟩

theorem Hw.setPair_raise (h : Hw) (v : Nat) (hv : v < 256) (e : Event) : ((h.setReg Od.pairState 0 v).raise e).reg Od.pairState = v := by
  rw [(Hw.raise_within ..).reg _ _ (by decide), Hw.reg_setReg_same]
  exact Nat.mod_eq_of_lt hv

theorem Hw.setPair_askLease (h : Hw) (v : Nat) (hv : v < 256) : (h.setReg Od.pairState 0 v).askLease.reg Od.pairState = v :=
  Hw.setPair_raise h v hv _

theorem leaseRenew_asks (s : State) (t : Nat) (ht : s.hw.pair.leaseUntil = some t)
    (hst : s.hw.reg Od.pairState = 4 ∨ s.hw.reg Od.pairState = 5) (hdue : s.hw.due Tm.lease 0 = true) :
    Leads .leaseRenew s (fun h => h.timer Tm.lease 0 = t ∧ h.reg Od.evHead = (s.hw.reg Od.evHead + 1) % 2 ^ Od.evHead.width) := by
  have h : exec .leaseRenew s = execLeaseRenew s := rfl
  refine ⟨s.hw.askLease.setTimer Tm.lease 0 t, ?_, Hw.timer_setTimer_same .., ?_⟩
  · rw [Completes, h, execLeaseRenew, State.on, ht]
    dsimp only
    rw [if_pos ⟨hst, hdue⟩]
  · rw [Hw.reg_setTimer]
    exact Hw.raise_evHead ..

theorem leaseExpiry_fences (s : State) (t : Nat) (ht : s.hw.pair.leaseUntil = some t) (hlate : t ≤ s.hw.now)
    (hst : s.hw.reg Od.pairState ∈ [4, 5, 6]) : Leads .leaseExpiry s Hw.fencedNow := by
  have h : exec .leaseExpiry s = execLeaseExpiry s := rfl
  refine ⟨s.hw.fenceUnit, ?_, Hw.fenceUnit_fenced _⟩
  rw [Completes, h, execLeaseExpiry, State.on, ht]
  dsimp only
  rw [if_pos ⟨hlate, List.contains_iff_mem.2 hst⟩]

/-! ### The session of the pair (R245, R248) -/

theorem pairSessionUp_completes (key : BitVec 384) (fw : BitVec 32) (digest : BitVec 384) (s : State) (hst : s.hw.reg Od.pairState = 1) :
    let w := s.hw.takeFormation.notePeer fw.toNat digest.toNat
    let up := [0, 1].foldl (fun h p => if h.pairLink p then h.raiseSpan p else h) w
    let keyed := { up with pair.linkKey := some (Config.sessionSecret up.drawn), drawn := up.drawn + 1 }
    let timed := (keyed.setTimer Tm.peerRx 0 keyed.now).setTimer Tm.mirrorDigest 0 (keyed.now + 64000000000)
    Completes (.pairSessionUp key fw digest) s
      (if key.toNat = w.reg Od.pairPeerId ∧ w.formationOk fw.toNat digest.toNat = true then (timed.setReg Od.pairState 0 3).askLease
       else ({ w with msg.subs := [] }.setReg Od.pairState 0 2).raise { kind := 0x1a }) := by
  have h : exec (.pairSessionUp key fw digest) s = execPairSessionUp key fw digest s := rfl
  rw [Completes, h, execPairSessionUp, State.on, if_neg (not_not.2 hst)]

/-- What PAIR_SESSION_UP asks of the peer, at the records as they were. -/
theorem Hw.pairForms_iff (h : Hw) (key fw digest : Nat) :
    let w := h.takeFormation.notePeer fw digest
    (key = w.reg Od.pairPeerId ∧ w.formationOk fw digest = true) ↔ key = h.reg Od.pairPeerId ∧ fw / 65536 = h.reg Od.fwVersion / 65536 ∧
      digest = sha384Nat h.formationSet % 2 ^ Od.formationDigest.width := by
  intro w
  have hnote (r : Reg) (i : Nat) (hd : Od.peerFormationDigest ≠ r) (hf : Od.peerFwVersion ≠ r) (hs : r.sub < 256) :
      w.reg r i = h.takeFormation.reg r i :=
    (Hw.reg_setReg_ne _ _ _ _ _ _ hd (by decide) hs).trans (Hw.reg_setReg_ne _ _ _ _ _ _ hf (by decide) hs)
  have htake (r : Reg) (i : Nat) (hd : Od.formationDigest ≠ r) (hs : r.sub < 256) : h.takeFormation.reg r i = h.reg r i :=
    Hw.reg_setReg_ne _ _ _ _ _ _ hd (by decide) hs
  have hpeer : w.reg Od.pairPeerId = h.reg Od.pairPeerId :=
    (hnote _ _ (by decide) (by decide) (by decide)).trans (htake _ _ (by decide) (by decide))
  rw [hpeer, Hw.formationOk_iff h w fw digest]
  · exact (hnote _ _ (by decide) (by decide) (by decide)).trans (htake _ _ (by decide) (by decide))
  · exact (hnote _ _ (by decide) (by decide) (by decide)).trans (Hw.reg_takeFormation h)

theorem pairSessionUp_waits (key : BitVec 384) (fw : BitVec 32) (digest : BitVec 384) (s : State) (hst : s.hw.reg Od.pairState = 1)
    (same : key.toNat = s.hw.reg Od.pairPeerId ∧ fw.toNat / 65536 = s.hw.reg Od.fwVersion / 65536 ∧
      digest.toNat = sha384Nat s.hw.formationSet % 2 ^ Od.formationDigest.width) :
    Leads (.pairSessionUp key fw digest) s (fun h => h.reg Od.pairState = 3 ∧ h.pair.linkKey.isSome = true) := by
  refine ⟨_, pairSessionUp_completes key fw digest s hst, ?_⟩
  rw [if_pos ((Hw.pairForms_iff ..).2 same)]
  refine ⟨Hw.setPair_askLease _ 3 (by decide), ?_⟩
  rw [(Hw.askLease_keeps _).2]
  rfl

theorem pairSessionUp_differs (key : BitVec 384) (fw : BitVec 32) (digest : BitVec 384) (s : State) (hst : s.hw.reg Od.pairState = 1)
    (hno : ¬ (key.toNat = s.hw.reg Od.pairPeerId ∧ fw.toNat / 65536 = s.hw.reg Od.fwVersion / 65536 ∧
      digest.toNat = sha384Nat s.hw.formationSet % 2 ^ Od.formationDigest.width)) :
    Leads (.pairSessionUp key fw digest) s (fun h => h.reg Od.pairState = 2) := by
  refine ⟨_, pairSessionUp_completes key fw digest s hst, ?_⟩
  rw [if_neg (fun c => hno ((Hw.pairForms_iff ..).1 c))]
  exact Hw.setPair_raise _ 2 (by decide) _

theorem pairLinkTimeout_asks (s : State) (hst : s.hw.reg Od.pairState = 1) (hlate : s.hw.timer Tm.spanTrain 1 + 100000000 ≤ s.hw.now) :
    Leads .pairLinkTimeout s (fun h => h.reg Od.pairState = 3) := by
  have h : exec .pairLinkTimeout s = execPairLinkTimeout s := rfl
  refine ⟨(s.hw.setReg Od.pairState 0 3).askLease, ?_, Hw.setPair_askLease _ 3 (by decide)⟩
  rw [Completes, h, execPairLinkTimeout, State.on, if_neg (not_not.2 hst), if_neg (by omega)]

/-! ### The peer is lost (R254) -/

theorem losing_completes (c : Instr) (s : State)
    (hc : c = Instr.fenceFlit ∨ (c = Instr.peerLost ∧ s.hw.timer Tm.peerRx 0 + 40000 ≤ s.hw.now)) : Completes c s s.hw.losePeer := by
  rcases hc with rfl | ⟨rfl, hlate⟩
  · rfl
  · have h : exec .peerLost s = execPeerLost s := rfl
    rw [Completes, h, execPeerLost, State.on, if_pos hlate]

theorem Hw.losePeer_active (h : Hw) (hst : h.reg Od.pairState = 4) : h.losePeer.reg Od.pairState = 6 := by
  unfold Hw.losePeer
  rw [hst]
  exact Hw.setPair_askLease h 6 (by decide)

theorem Hw.losePeer_standby (h : Hw) (hst : h.reg Od.pairState = 7) :
    h.losePeer.reg Od.pairState = 8 ∧ h.losePeer.pair.leaseUntil = none := by
  unfold Hw.losePeer
  rw [hst]
  dsimp only
  have h8 : (h.setReg Od.pairState 0 8).reg Od.pairState = 8 := (Hw.reg_setReg_same ..).trans (by decide)
  generalize h.setReg Od.pairState 0 8 = w at h8 ⊢
  generalize hx : ({ w with pair.leaseUntil := none } : Hw) = x
  have hxst : x.reg Od.pairState = 8 := by
    rw [← hx]
    exact h8
  have hxl : x.pair.leaseUntil = none := by rw [← hx]
  obtain ⟨hreg, hpair⟩ := Hw.askLease_keeps x
  exact ⟨hreg.trans hxst, (congrArg PairSt.leaseUntil hpair).trans hxl⟩

/-! ### Heartbeats (R249, R254) -/

theorem Hw.span_sendSpan_ne (h : Hw) (p q kind vc : Nat) (payload : List Byte) (hq : q ≠ p) :
    (h.sendSpan p kind vc payload).span q = h.span q := by
  unfold Hw.sendSpan
  split
  · rfl
  · split
    · exact Hw.span_setSpan_ne _ _ _ _ hq
    · rfl

theorem Hw.span_sendSpan_room (h : Hw) (p kind vc : Nat) (payload : List Byte) (hup : h.spanUp p = true)
    (hroom : (h.span p).buf.length < 1920) : (h.sendSpan p kind vc payload).span p = (h.span p).send kind vc payload := by
  rw [Hw.sendSpan, if_neg (by simp [hup]), if_pos hroom, Hw.span_setSpan_same]

/-- One pair link's share of what goes out on each. -/
def Hw.sendPairLink (h : Hw) (p kind vc : Nat) (payload : List Byte) : Hw := if h.pairLink p then h.sendSpan p kind vc payload else h

theorem Hw.span_sendPairLink_ne (h : Hw) (p q kind vc : Nat) (payload : List Byte) (hq : q ≠ p) :
    (h.sendPairLink p kind vc payload).span q = h.span q := by
  unfold Hw.sendPairLink
  split
  · exact Hw.span_sendSpan_ne _ _ _ _ _ _ hq
  · rfl

theorem Hw.span_sendPairLink_room (h : Hw) (p kind vc : Nat) (payload : List Byte) (hp : h.pairLink p = true) (hup : h.spanUp p = true)
    (hroom : (h.span p).buf.length < 1920) : (h.sendPairLink p kind vc payload).span p = (h.span p).send kind vc payload := by
  rw [Hw.sendPairLink, if_pos hp, Hw.span_sendSpan_room h p kind vc payload hup hroom]

theorem Hw.sendPairLink_within (h : Hw) (p kind vc : Nat) (payload : List Byte) : h.Within 2048 (h.sendPairLink p kind vc payload) :=
  .ite (Hw.Within.step (Hw.sendSpan_within ..) (by decide) (.refl _ _)) (.refl _ _)

/-- Every pair link that is up and has room carries what is sent on the pair links. -/
theorem Hw.span_sendPairLinks (h : Hw) (kind vc : Nat) (payload : List Byte) (p : Nat) (hlt : p < 2) (hp : h.pairLink p = true)
    (hup : h.spanUp p = true) (hroom : (h.span p).buf.length < 1920) :
    (h.sendPairLinks kind vc payload).span p = (h.span p).send kind vc payload := by
  have hboth : h.sendPairLinks kind vc payload = (h.sendPairLink 0 kind vc payload).sendPairLink 1 kind vc payload := rfl
  rw [hboth]
  obtain rfl | rfl : p = 0 ∨ p = 1 := by omega
  · rw [Hw.span_sendPairLink_ne _ _ _ _ _ _ (by decide), Hw.span_sendPairLink_room h 0 kind vc payload hp hup hroom]
  · have hfirst := Hw.sendPairLink_within h 0 kind vc payload
    have hspan : (h.sendPairLink 0 kind vc payload).span 1 = h.span 1 := Hw.span_sendPairLink_ne _ _ _ _ _ _ (by decide)
    have hlink : (h.sendPairLink 0 kind vc payload).pairLink 1 = true := by
      rw [Hw.pairLink, hfirst.same .boot (by decide)]
      exact hp
    rw [Hw.span_sendPairLink_room _ 1 kind vc payload hlink ((hfirst.spanUp (by decide) 1).trans hup) (by rw [hspan]; exact hroom), hspan]

theorem heartbeatSend_sends (s : State) (hdue : s.hw.due Tm.heartbeat 0 = true) (hpeer : s.hw.peerReachable = true) :
    let body := natBytes (s.hw.reg Od.pairState) 1 ++ natBytes (s.hw.reg Od.pairEpoch) 4 ++ natBytes s.hw.now 8 ++ natBytes s.hw.pair.mirrorDone 8
    Leads .heartbeatSend s (fun h => h.timer Tm.heartbeat 0 = s.hw.now + 8000 ∧ ∀ p, p < 2 → s.hw.pairLink p = true → s.hw.spanUp p = true →
      (s.hw.span p).buf.length < 1920 → (h.span p).buf = (s.hw.span p).buf ++ [⟨(s.hw.span p).txSeq, Fk.control, 4, body⟩]) := by
  intro body
  have h : exec .heartbeatSend s = execHeartbeatSend s := rfl
  refine ⟨(s.hw.sendPairLinks Fk.control 4 body).setTimer Tm.heartbeat 0 (s.hw.now + 8000), ?_, Hw.timer_setTimer_same ..,
    fun p hlt hp hup hroom => ?_⟩
  · rw [Completes, h, execHeartbeatSend, State.on, if_neg (by rw [hdue, hpeer]; simp)]
  · exact congrArg Link.buf (Hw.span_sendPairLinks s.hw Fk.control 4 body p hlt hp hup hroom)

/-- The block once a pair link has carried a heartbeat of a peer in state `ps`. -/
def Hw.heard (h : Hw) (p ps : Nat) : Hw :=
  let h := h.setSpan p { h.span p with lastRx := h.now }
  { h.setTimer Tm.peerRx 0 h.now with pair.peerState := ps }

/-- What a heartbeat asks of the unit, in state `st`. -/
def Hw.heedPeer (h : Hw) (st : Nat) (ps : BitVec 8) (pe : Nat) (d : Int) (n : Nat) : Hw :=
  if [4, 5, 6, 8].contains st ∧ h.reg Od.pairEpoch < pe then (h.setReg Od.pairEpoch 0 pe).fenceUnit
  else match st with
    | 3 =>
      if decide (ps = 4 ∨ ps = 5) then
        ((h.stepTime d).setReg Od.pairEpoch 0 (max (h.reg Od.pairEpoch) pe)).unsyncAll.setReg Od.pairState 0 7
      else h
    | 4 => h.acceptMirrors n
    | 5 => if ps = 7 then (h.setReg Od.pairState 0 4).startResync else h
    | 7 => (h.setReg Od.pairEpoch 0 (max (h.reg Od.pairEpoch) pe)).slew d
    | _ => h

theorem heartbeatReceive_completes (port : Fin 2) (ps : BitVec 8) (pe : BitVec 32) (d : Int) (n : Nat) (s : State)
    (hup : (s.hw.span port.val).st = .up) (hp : s.hw.pairLink port.val = true) :
    Completes (.heartbeatReceive port ps pe d n) s
      ((s.hw.heard port.val ps.toNat).heedPeer (s.hw.reg Od.pairState) ps pe.toNat d n) := by
  have h : exec (.heartbeatReceive port ps pe d n) s = execHeartbeatReceive port ps pe d n s := rfl
  have hlink : (s.hw.setSpan port.val { s.hw.span port.val with lastRx := s.hw.now }).pairLink port.val = true := hp
  rw [Completes, h, execHeartbeatReceive, State.on]
  dsimp only
  rw [if_neg (not_not.2 hup), if_pos hlink]
  rfl

/-- A higher epoch fences a unit that serves, and is taken. -/
theorem Hw.heedPeer_higher (h : Hw) (st : Nat) (ps : BitVec 8) (pe : BitVec 32) (d : Int) (n : Nat) (hst : st ∈ [4, 5, 6, 8])
    (he : h.reg Od.pairEpoch < pe.toNat) :
    (h.heedPeer st ps pe.toNat d n).fencedNow ∧ (h.heedPeer st ps pe.toNat d n).reg Od.pairEpoch = pe.toNat := by
  unfold Hw.heedPeer
  rw [if_pos ⟨List.contains_iff_mem.2 hst, he⟩, Hw.fenceUnit_epoch, Hw.reg_setReg_same]
  exact ⟨Hw.fenceUnit_fenced _, Nat.mod_eq_of_lt pe.isLt⟩

/-- A unit that waits for a lease becomes the standby of a peer that serves, at its epoch and its time. -/
theorem Hw.heedPeer_becomesStandby (h : Hw) (ps : BitVec 8) (pe : Nat) (d : Int) (n : Nat) (hps : ps = 4 ∨ ps = 5) :
    let k := h.heedPeer 3 ps pe d n
    k.reg Od.pairState = 7 ∧ k.reg Od.pairEpoch = max (h.reg Od.pairEpoch) pe % 2 ^ Od.pairEpoch.width ∧ k.unsynced ∧
      k.now = ((h.now : Int) - d).toNat := by
  intro k
  have hk : k = ((h.stepTime d).setReg Od.pairEpoch 0 (max (h.reg Od.pairEpoch) pe)).unsyncAll.setReg Od.pairState 0 7 := by
    rw [show k = h.heedPeer 3 ps pe d n from rfl, Hw.heedPeer, if_neg (fun c => absurd c.1 (by decide))]
    exact if_pos (decide_eq_true hps)
  clear_value k
  subst hk
  have hall := Hw.unsyncAll_within ((h.stepTime d).setReg Od.pairEpoch 0 (max (h.reg Od.pairEpoch) pe))
  refine ⟨?_, ?_, ?_, ?_⟩
  · rw [Hw.reg_setReg_same]
    decide
  · rw [Hw.reg_setReg_ne _ _ _ _ _ _ (by decide) (by decide) (by decide), hall.reg _ _ (by decide), Hw.reg_setReg_same]
  · exact Hw.Within.unsynced (Hw.setReg_within _ Od.pairState 0 7) (by decide) (Hw.unsyncAll_unsynced _)
  · rw [Hw.setReg_now, hall.same .time (by decide)]
    rfl

/-- A unit that serves alone takes a standby, and its resync begins. -/
theorem Hw.heedPeer_takesStandby (h : Hw) (pe : Nat) (d : Int) (n : Nat) (he : ¬ h.reg Od.pairEpoch < pe) :
    let k := h.heedPeer 5 7 pe d n
    k.reg Od.pairState = 4 ∧ k.unsynced := by
  intro k
  have hk : k = (h.setReg Od.pairState 0 4).startResync := by
    rw [show k = h.heedPeer 5 7 pe d n from rfl, Hw.heedPeer, if_neg (fun c => he c.2)]
    exact if_pos rfl
  clear_value k
  subst hk
  rw [(Hw.startResync_within ..).reg _ _ (by decide), Hw.reg_setReg_same]
  exact ⟨by decide, Hw.startResync_unsynced _⟩

theorem Hw.slew_now (h : Hw) (d : Int) : (h.slew d).now = ((h.now : Int) - max (-4) (min 4 d)).toNat := by
  have hraise (x : Hw) (e : Event) : (x.raise e).now = x.now := (Hw.raise_within ..).same .time (by decide)
  unfold Hw.slew
  extract_lets offset runs _ kept stepped
  rw [apply_ite Hw.now, hraise, Hw.setReg_now, ite_self]
  rfl

/-- A standby keeps the higher epoch and follows its master's time. -/
theorem Hw.heedPeer_standby (h : Hw) (ps : BitVec 8) (pe : Nat) (d : Int) (n : Nat) (hst : h.reg Od.pairState = 7) :
    let k := h.heedPeer 7 ps pe d n
    k.reg Od.pairState = 7 ∧ k.reg Od.pairEpoch = max (h.reg Od.pairEpoch) pe % 2 ^ Od.pairEpoch.width ∧
      k.now = ((h.now : Int) - max (-4) (min 4 d)).toNat := by
  intro k
  have hk : k = (h.setReg Od.pairEpoch 0 (max (h.reg Od.pairEpoch) pe)).slew d := by
    rw [show k = h.heedPeer 7 ps pe d n from rfl, Hw.heedPeer, if_neg (fun c => absurd c.1 (by decide))]
  clear_value k
  subst hk
  have hslew := Hw.slew_within (h.setReg Od.pairEpoch 0 (max (h.reg Od.pairEpoch) pe)) d
  refine ⟨?_, ?_, Hw.slew_now ..⟩
  · rw [hslew.reg _ _ (by decide), Hw.reg_setReg_ne _ _ _ _ _ _ (by decide) (by decide) (by decide), hst]
  · rw [hslew.reg _ _ (by decide), Hw.reg_setReg_same]

/-! ### Takeover (R257) -/

/-- The standby with what cannot be served gone: partitions that are not SYNCED released, directories suspect, sessions and launches
of the failed unit ended. -/
def Hw.clearForTakeover (h : Hw) : Hw :=
  let h := ((List.range 16).filter (fun p => h.inUse p && decide (h.reg Od.syncState p ≠ 2))).foldl (fun h p =>
    (h.raise { kind := 0x1e, part := some p }).releasePart .firmware p) h
  let h := (List.range 16).foldl (fun h s => if h.exists s then h.suspectSlice s true else h) h
  let h := h.sessionsTakeover
  h.pair.launchRecs.foldl (fun h x => h.lostLaunch x) { h with pair.launchRecs := [] }

theorem Hw.clearForTakeover_launchRecs (h : Hw) : h.clearForTakeover.pair.launchRecs = [] := by
  unfold Hw.clearForTakeover
  extract_lets released suspect ended src
  clear_value ended
  exact (Hw.PairAlike.fold (f := PairSt.launchRecs) (fun x r => (Hw.lostLaunch_within x r).pairAlike (by decide)) _ _).eq

theorem takeover_completes (s : State) (hst : s.hw.reg Od.pairState = 8) (hl : s.hw.pair.leaseUntil.isSome = true) :
    Completes .takeover s
      (((s.hw.clearForTakeover.setReg Od.serviceMode 0 3).setReg Od.pairState 0 5).unsyncAll.raise { kind := 0x1f }) := by
  have h : exec .takeover s = execTakeover s := rfl
  have hsome : ¬ s.hw.pair.leaseUntil.isNone = true := by
    rw [← Option.not_isSome, hl]
    decide
  rw [Completes, h, execTakeover, State.on, if_neg (not_not.2 hst), if_neg hsome]
  rfl

theorem takeover_alone (s : State) (hst : s.hw.reg Od.pairState = 8) (hl : s.hw.pair.leaseUntil.isSome = true) :
    Leads .takeover s (fun h => h.reg Od.pairState = 5 ∧ h.reg Od.serviceMode = 3 ∧ h.unsynced ∧ h.pair.launchRecs = []) := by
  refine ⟨_, takeover_completes s hst hl, ?_⟩
  have hrecs := Hw.clearForTakeover_launchRecs s.hw
  generalize s.hw.clearForTakeover = w at hrecs
  have hraise := Hw.raise_within ((w.setReg Od.serviceMode 0 3).setReg Od.pairState 0 5).unsyncAll { kind := 0x1f }
  have hall := Hw.unsyncAll_within ((w.setReg Od.serviceMode 0 3).setReg Od.pairState 0 5)
  refine ⟨?_, ?_, hraise.unsynced (by decide) (Hw.unsyncAll_unsynced _), ?_⟩
  · rw [hraise.reg _ _ (by decide), hall.reg _ _ (by decide), Hw.reg_setReg_same]
    decide
  · rw [hraise.reg _ _ (by decide), hall.reg _ _ (by decide), Hw.reg_setReg_ne _ _ _ _ _ _ (by decide) (by decide) (by decide),
      Hw.reg_setReg_same]
    decide
  · rw [hraise.same .pair (by decide), Hw.unsyncAll_pair]
    exact hrecs

end Sys2Proof.Machine
end

section
/-! Writes of the pair's objects and of a lease, and how a pair changes its state (R254 to R256). -/

namespace Sys2Proof.Machine

/-! ### Writes of the pair's objects -/

/-- The objects by which operators move the pair: none of them is mirrored. -/
def pairWrites : List Reg := [Od.pairCommand, Od.leaseGrant, Od.pairEpoch]

theorem Hw.mirrorDict_unmirrored (h : Hw) {r : Reg} (hm : mirroredReg r = false) (hs : r.sub < 256) (i e v : Nat) :
    h.mirrorDict (odKey r i e) v = h := by
  rw [Hw.mirrorDict, keyReg_odKey r i e hs, hm, Bool.and_false, if_neg (by decide)]

/-- A write of an object that is not mirrored, which nothing blocks and which fits: carried out or stored, and then at most passed on to
the other hub. -/
theorem Hw.writeOne_unmirrored {h : Hw} {a : Actor} {r : Reg} {f : FieldDesc} {i e v : Nat} (hf : h.fieldAt r i = some f)
    (hr : h.remoteCopy r.index i = false) (hlt : v % 2 ^ f.ty.width = v) (hb : h.blocks a r i v none = none)
    (hc : h.check f r i v = some (v, false)) (hd : dependents r = []) (hm : mirroredReg r = false) (hs : r.sub < 256) :
    (if f.cmd then h.runCommand a r i v else h.store a r i e v).Within 2048 (h.writeOne a r i e v).2 := by
  unfold Hw.writeOne
  rw [hf]
  dsimp only
  rw [if_neg (c := h.remoteCopy r.index i = true) (by rw [hr]; decide), hlt, hb]
  dsimp only
  rw [hc]
  dsimp only
  rw [hd]
  simp only [Bool.false_eq_true, if_false, List.foldl_nil, Hw.mirrorDict_unmirrored _ hm hs]
  cases f.cmd
  all_goals
    simp only [Bool.false_eq_true, if_false, if_true]
    split
    · exact .step (Hw.passOn_within ..) (by decide) (.refl _ _)
    · exact .refl _ _

section

variable {r : Reg} (hr : r ∈ pairWrites)
include hr

theorem pairWrites_ne : r ≠ Od.opKeys ∧ dependents r = [] ∧ mirroredReg r = false ∧ r.sub < 256 :=
  (by decide : ∀ q ∈ pairWrites, q ≠ Od.opKeys ∧ dependents q = [] ∧ mirroredReg q = false ∧ q.sub < 256) r hr

theorem silentMask_pairWrite (v : Nat) : silentMask r v = v := by
  simp only [pairWrites, List.mem_cons, List.not_mem_nil, or_false] at hr
  unfold silentMask
  rcases hr with rfl | rfl | rfl
  all_goals rw [if_neg (by decide), if_neg (by decide), if_neg (by decide)]

theorem Hw.ownCheck_pairWrite (h : Hw) (i v : Nat) : h.ownCheck r i v = v := by
  simp only [pairWrites, List.mem_cons, List.not_mem_nil, or_false] at hr
  unfold Hw.ownCheck
  rcases hr with rfl | rfl | rfl
  all_goals rw [if_neg (fun c => absurd c.1 (by decide)), if_neg (by decide), if_neg (fun c => absurd c.1 (by decide)),
    if_neg (fun c => absurd c.1 (by decide)), if_neg (by decide)]

theorem Hw.blocks_pairWrite (h : Hw) (a : Actor) (i v : Nat) : h.blocks a r i v none = none := by
  simp only [pairWrites, List.mem_cons, List.not_mem_nil, or_false] at hr
  unfold Hw.blocks
  dsimp only
  rcases hr with rfl | rfl | rfl
  all_goals iterate 16 rw [if_neg (by decide)]

/-- An accepted write of one of them whose value fits its field. -/
theorem Hw.dictWrite_pairWrite (h : Hw) (a : Actor) {v : Nat} (hacc : h.accepts a r 0 v) {f : FieldDesc} (hf : fieldOf r = some f)
    (hlt : v % 2 ^ f.ty.width = v) (hc : h.check f r 0 v = some (v, false)) :
    (if f.cmd then h.command a r 0 v else h.store a r 0 0 v).Within 2048 (h.dictWrite a r 0 v) := by
  obtain ⟨hmay, hfield, hremote, hcore⟩ := hacc
  obtain ⟨g, hg⟩ := Option.isSome_iff_exists.1 hfield
  obtain rfl : g = f := Option.some.inj ((Hw.fieldAt_of hg).symm.trans hf)
  obtain ⟨hkeys, hdep, hmir, hsub⟩ := pairWrites_ne hr
  rw [Hw.dictWrite, if_pos hmay, Hw.writeItem, if_neg hkeys, ← Hw.runCommand_runs h a r 0 v hcore]
  exact Hw.writeOne_unmirrored hg hremote hlt (Hw.blocks_pairWrite hr h a 0 v) hc hdep hmir hsub

end

theorem Hw.dictWrite_pairCommand (h : Hw) (a : Actor) {v : Nat} (hv : v ∈ [1, 2, 3]) (hacc : h.accepts a Od.pairCommand 0 v) :
    (h.command a Od.pairCommand 0 v).Within 2048 (h.dictWrite a Od.pairCommand 0 v) := by
  have hr : Od.pairCommand ∈ pairWrites := by decide
  obtain ⟨f, hf, hty, hcmd⟩ : ∃ f, fieldOf Od.pairCommand = some f ∧ f.ty = .enum8 [1, 2, 3] ∧ f.cmd = true := ⟨_, rfl, rfl, rfl⟩
  have hlt : v % 2 ^ f.ty.width = v := by
    have hle : v ≤ 3 := (by decide : ∀ x ∈ [1, 2, 3], x ≤ 3) v hv
    rw [hty]
    exact Nat.mod_eq_of_lt (by omega : v < 256)
  have hw := Hw.dictWrite_pairWrite hr h a hacc hf hlt
    (Hw.check_code h hty 0 v hv hlt (silentMask_pairWrite hr v) (Hw.ownCheck_pairWrite hr h 0 v))
  rwa [hcmd, if_pos rfl] at hw

theorem Hw.dictWrite_leaseGrant (h : Hw) (a : Actor) (v : BitVec 128) (hacc : h.accepts a Od.leaseGrant 0 v.toNat) :
    (h.leaseGrant a v.toNat).Within 2048 (h.dictWrite a Od.leaseGrant 0 v.toNat) := by
  have hr : Od.leaseGrant ∈ pairWrites := by decide
  obtain ⟨f, hf, hty, hcmd⟩ : ∃ f, fieldOf Od.leaseGrant = some f ∧ f.ty = .octets 16 ∧ f.cmd = false := ⟨_, rfl, rfl, rfl⟩
  have hlt : v.toNat % 2 ^ f.ty.width = v.toNat := by
    rw [hty]
    exact Nat.mod_eq_of_lt v.isLt
  have hcheck : h.check f Od.leaseGrant 0 v.toNat = some (v.toNat, false) := by
    unfold Hw.check
    dsimp only
    rw [hlt, silentMask_pairWrite hr, hty]
    dsimp only
    rw [Hw.ownCheck_pairWrite hr, decide_eq_false (not_not_intro rfl)]
  have hw := Hw.dictWrite_pairWrite hr h a hacc hf hlt hcheck
  rwa [hcmd, if_neg (by decide), Hw.store_leaseGrant] at hw

theorem Hw.rangeOf_pairEpoch (h : Hw) (f : FieldDesc) (i : Nat) : h.rangeOf f Od.pairEpoch i = (f.lo, f.hi) := by
  unfold Hw.rangeOf
  rw [if_neg (by decide), if_neg (by decide), if_neg (by decide), if_neg (by decide), if_neg (fun c => absurd c.1 (by decide)),
    if_neg (by decide), if_neg (by decide), if_neg (by decide)]

theorem Hw.dictWrite_pairEpoch (h : Hw) (a : Actor) (v : BitVec 32) (hacc : h.accepts a Od.pairEpoch 0 v.toNat) :
    (h.writePairEpoch v.toNat).Within 2048 (h.dictWrite a Od.pairEpoch 0 v.toNat) := by
  have hr : Od.pairEpoch ∈ pairWrites := by decide
  obtain ⟨f, hf, hty, hcmd, hindex, hlo, hhi, halign⟩ : ∃ f, fieldOf Od.pairEpoch = some f ∧ f.ty = .uint 32 ∧ f.cmd = false ∧
    f.indexMask = none ∧ f.lo = none ∧ f.hi = none ∧ f.align = 1 := ⟨_, rfl, rfl, rfl, rfl, rfl, rfl, rfl⟩
  have hlt : v.toNat % 2 ^ f.ty.width = v.toNat := by
    rw [hty]
    exact Nat.mod_eq_of_lt v.isLt
  have hnearest : (nearest none none (v.toNat : Int)).toNat = v.toNat := Int.toNat_natCast _
  have hcheck : h.check f Od.pairEpoch 0 v.toNat = some (v.toNat, false) := by
    unfold Hw.check
    dsimp only
    rw [hlt, silentMask_pairWrite hr, hty, hindex]
    dsimp only
    rw [Hw.rangeOf_pairEpoch, hlo, hhi, halign, hnearest, Nat.div_one, Nat.mul_one, Hw.ownCheck_pairWrite hr,
      decide_eq_false (not_not_intro rfl)]
  have hw := Hw.dictWrite_pairWrite hr h a hacc hf hlt hcheck
  rwa [hcmd, if_neg (by decide), Hw.store_pairEpoch] at hw

/-! ### What is carried past a write -/

section

variable {a b : Hw} (w : a.Within 2048 b)
include w

theorem Hw.Within.samePair : b.pair = a.pair := w.same .pair (by decide)

theorem Hw.Within.fencedNow (ha : a.fencedNow) : b.fencedNow := by
  obtain ⟨hst, hm, hb⟩ := ha
  exact ⟨(w.reg _ _ (by decide)).trans hst, (congrArg PairSt.mirrors w.samePair).trans hm, (w.reg _ _ (by decide)).trans hb⟩

end

/-! ### FORM, REJOIN, RELINQUISH, pair_epoch (R250, R255, R256) -/

section

variable (who : Actor) (s : State)

theorem form_cascade (hacc : s.hw.accepts who Od.pairCommand 0 1) (hc : s.hw.reg Od.cascadeState = 2) :
    Leads (.form who) s (fun h => h.reg Od.cascadeState = 1) := by
  have w := Hw.dictWrite_pairCommand s.hw who (by decide) hacc
  rw [Hw.command_pairCommand_1, Hw.form, if_pos hc] at w
  exact ⟨_, rfl, (w.reg _ _ (by decide)).trans ((Hw.reg_setReg_same s.hw Od.cascadeState 0 1).trans (by decide))⟩

theorem form_pair (hacc : s.hw.accepts who Od.pairCommand 0 1) (hc : s.hw.reg Od.cascadeState ≠ 2) (hst : s.hw.reg Od.pairState = 2) :
    Leads (.form who) s (fun h => h.reg Od.pairState = 1) := by
  have w := Hw.dictWrite_pairCommand s.hw who (by decide) hacc
  rw [Hw.command_pairCommand_1, Hw.form, if_neg hc, if_pos hst] at w
  exact ⟨_, rfl, (w.reg _ _ (by decide)).trans ((Hw.reg_setReg_same s.hw Od.pairState 0 1).trans (by decide))⟩

theorem rejoin_standby (hacc : s.hw.accepts who Od.pairCommand 0 2) (hst : s.hw.reg Od.pairState = 9)
    (hp : s.hw.pair.peerState = 4 ∨ s.hw.pair.peerState = 5) :
    Leads (.rejoin who) s (fun h => h.reg Od.pairState = 7 ∧ h.unsynced) := by
  have w := Hw.dictWrite_pairCommand s.hw who (by decide) hacc
  rw [Hw.command_pairCommand_2, Hw.rejoin, if_pos ⟨hst, hp⟩] at w
  refine ⟨_, rfl, ?_, w.unsynced (by decide) ?_⟩
  · exact (w.reg _ _ (by decide)).trans ((Hw.reg_setReg_same ..).trans (by decide))
  · exact Hw.Within.unsynced (Hw.setReg_within _ Od.pairState 0 7) (by decide) (Hw.unsyncAll_unsynced _)

theorem relinquish_fences (hacc : s.hw.accepts who Od.pairCommand 0 3) (hst : s.hw.reg Od.pairState = 4) :
    Leads (.relinquish who) s Hw.fencedNow := by
  have w := Hw.dictWrite_pairCommand s.hw who (by decide) hacc
  rw [Hw.command_pairCommand_3, Hw.relinquish, if_pos hst] at w
  exact ⟨_, rfl, w.fencedNow (Hw.fenceUnit_fenced _)⟩

theorem Hw.writePairEpoch_state (h : Hw) (epoch : Nat) (hlt : epoch < 2 ^ 32) :
    (h.writePairEpoch epoch).reg Od.pairEpoch = epoch ∧ (h.writePairEpoch epoch).reg Od.pairState =
      if h.reg Od.pairEpoch < epoch ∧ h.reg Od.pairState ∈ [4, 5, 6, 8] then 9 else h.reg Od.pairState := by
  have hep : (h.setReg Od.pairEpoch 0 epoch).reg Od.pairEpoch = epoch := (Hw.reg_setReg_same ..).trans (Nat.mod_eq_of_lt hlt)
  have hst : (h.setReg Od.pairEpoch 0 epoch).reg Od.pairState = h.reg Od.pairState :=
    Hw.reg_setReg_ne _ _ _ _ _ _ (by decide) (by decide) (by decide)
  unfold Hw.writePairEpoch
  dsimp only
  rw [hst]
  by_cases hup : h.reg Od.pairEpoch < epoch ∧ h.reg Od.pairState ∈ [4, 5, 6, 8]
  · have hfence : (decide (h.reg Od.pairEpoch < epoch) && [4, 5, 6, 8].contains (h.reg Od.pairState)) = true := by
      rw [decide_eq_true hup.1, List.contains_iff_mem.2 hup.2, Bool.and_self]
    rw [if_pos hfence, if_pos hup, Hw.fenceUnit_epoch]
    exact ⟨hep, (Hw.fenceUnit_fenced _).1⟩
  · have hkeep : ¬ (decide (h.reg Od.pairEpoch < epoch) && [4, 5, 6, 8].contains (h.reg Od.pairState)) = true := by
      rw [Bool.and_eq_true, decide_eq_true_iff, List.contains_iff_mem]
      exact hup
    rw [if_neg hkeep, if_neg hup]
    exact ⟨hep, hst⟩

theorem pairEpochWrite_state (epoch : BitVec 32) (hacc : s.hw.accepts who Od.pairEpoch 0 epoch.toNat) :
    Leads (.pairEpochWrite who epoch) s (fun h => h.reg Od.pairEpoch = epoch.toNat ∧ h.reg Od.pairState =
      if s.hw.reg Od.pairEpoch < epoch.toNat ∧ s.hw.reg Od.pairState ∈ [4, 5, 6, 8] then 9 else s.hw.reg Od.pairState) := by
  have w := Hw.dictWrite_pairEpoch s.hw who epoch hacc
  obtain ⟨hep, hst⟩ := Hw.writePairEpoch_state s.hw epoch.toNat epoch.isLt
  exact ⟨_, rfl, (w.reg _ _ (by decide)).trans hep, (w.reg _ _ (by decide)).trans hst⟩

end

end Sys2Proof.Machine
end

section
/-! A write of lease_grant (R255, R256), and the pair's states settled. -/

namespace Sys2Proof.Machine

/-- The unit holds a lease at an epoch, to its end. -/
def Hw.holdsLease (h : Hw) (epoch till : Nat) : Prop := h.reg Od.pairEpoch = epoch ∧ h.pair.leaseUntil = some till

theorem Hw.Within.holdsLease {a b : Hw} (w : a.Within 2048 b) {epoch till : Nat} (ha : a.holdsLease epoch till) : b.holdsLease epoch till :=
  ⟨(w.reg _ _ (by decide)).trans ha.1, (congrArg PairSt.leaseUntil w.samePair).trans ha.2⟩

/-- The words of a grant: the epoch below, the role above it. -/
theorem leaseWord_fields (epoch : BitVec 32) (role : Nat) (hr : role < 256) :
    let v := (BitVec.ofNat 128 (epoch.toNat + role * 2 ^ 32)).toNat
    v % 2 ^ 32 = epoch.toNat ∧ v / 2 ^ 32 % 256 = role := by
  have he := epoch.isLt
  have hv : (BitVec.ofNat 128 (epoch.toNat + role * 2 ^ 32)).toNat = epoch.toNat + role * 2 ^ 32 := by
    rw [BitVec.toNat_ofNat]
    exact Nat.mod_eq_of_lt (by omega)
  dsimp only
  rw [hv]
  omega

/-- The registers beside lease_grant, once a grant is written. -/
theorem Hw.reg_grantWritten (h : Hw) (v : Nat) (r : Reg) (hr : Od.leaseGrant ≠ r) (hs : r.sub < 256) :
    (h.setReg Od.leaseGrant 0 v).reg r = h.reg r := Hw.reg_setReg_ne _ _ _ _ _ _ hr (by decide) hs

/-- What a grant of a new epoch does in state `st`. -/
def Hw.followLease (h : Hw) (a : Actor) (st epoch role : Nat) : Hw :=
  let took := h.takeLease epoch role
  if st = 3 then
    if role = 2 then took.setReg Od.pairState 0 5
    else if h.peerReachable then (took.setReg Od.pairState 0 4).startResync
    else h.ignore a Od.leaseGrant 0 Why.wrongState
  else if st = 6 then (if role = 2 then took.releaseHeld else h.ignore a Od.leaseGrant 0 Why.wrongState)
  else took

section

variable (h : Hw) (a : Actor) {v epoch role : Nat} (he : v % 2 ^ 32 = epoch) (hr : v / 2 ^ 32 % 256 = role)
  (hst : h.reg Od.pairState ∈ [3, 4, 5, 6, 8])
include he hr hst

theorem Hw.leaseGrant_eq : h.leaseGrant a v = let g := h.setReg Od.leaseGrant 0 v
    if role = 0xff then g.fenceUnit
    else if role ≠ 1 ∧ role ≠ 2 then g.ignore a Od.leaseGrant 0 Why.reservedValue
    else if epoch ≤ h.reg Od.pairEpoch then g.ignore a Od.leaseGrant 0 Why.invalidCommand
    else g.followLease a (h.reg Od.pairState) epoch role := by
  have hmem : ¬ ([3, 4, 5, 6, 8] : List Nat).contains (h.reg Od.pairState) = false := by
    rw [List.contains_iff_mem.2 hst]
    decide
  have hep := Hw.reg_grantWritten h v Od.pairEpoch (by decide) (by decide)
  unfold Hw.leaseGrant
  dsimp only
  rw [he, hr, if_neg hmem, hep]
  rfl

theorem Hw.leaseGrant_refused (hrole : role = 0xff) : (h.leaseGrant a v).fencedNow := by
  rw [Hw.leaseGrant_eq h a he hr hst]
  dsimp only
  rw [if_pos hrole]
  exact Hw.fenceUnit_fenced _

theorem Hw.leaseGrant_stale (hrole : role = 1 ∨ role = 2) (hle : epoch ≤ h.reg Od.pairEpoch) :
    (h.leaseGrant a v).reg Od.pairState = h.reg Od.pairState ∧ (h.leaseGrant a v).reg Od.pairEpoch = h.reg Od.pairEpoch := by
  rw [Hw.leaseGrant_eq h a he hr hst]
  dsimp only
  rw [if_neg (by omega), if_neg (by omega), if_pos hle, (Hw.ignore_within ..).reg _ _ (by decide), (Hw.ignore_within ..).reg _ _ (by decide)]
  exact ⟨Hw.reg_grantWritten h v _ (by decide) (by decide), Hw.reg_grantWritten h v _ (by decide) (by decide)⟩

theorem Hw.leaseGrant_new (hrole : role = 1 ∨ role = 2) (hlt : h.reg Od.pairEpoch < epoch) :
    h.leaseGrant a v = (h.setReg Od.leaseGrant 0 v).followLease a (h.reg Od.pairState) epoch role := by
  rw [Hw.leaseGrant_eq h a he hr hst]
  dsimp only
  rw [if_neg (by omega), if_neg (by omega), if_neg (by omega)]

end

/-! ### A lease that is taken -/

section

variable (h : Hw) (epoch role : Nat)

theorem Hw.takeLease_state : (h.takeLease epoch role).reg Od.pairState = h.reg Od.pairState :=
  (Hw.takeLease_within ..).reg _ _ (by decide)

theorem Hw.takeLease_lease : (h.takeLease epoch role).pair.leaseUntil = some (h.now + h.reg Od.pairLeaseMs * 1000000) := by
  unfold Hw.takeLease
  dsimp only
  rw [Hw.setTimer_pair, Hw.setReg_now]

theorem Hw.takeLease_epoch : (h.takeLease epoch role).reg Od.pairEpoch = epoch % 2 ^ Od.pairEpoch.width := by
  unfold Hw.takeLease
  dsimp only
  rw [Hw.reg_setTimer]
  exact Hw.reg_setReg_same h Od.pairEpoch 0 epoch

theorem Hw.takeLease_holds (hlt : epoch < 2 ^ 32) :
    (h.takeLease epoch role).holdsLease epoch (h.now + h.reg Od.pairLeaseMs * 1000000) :=
  ⟨(Hw.takeLease_epoch ..).trans (Nat.mod_eq_of_lt hlt), Hw.takeLease_lease ..⟩

end

theorem Hw.startResync_holds {h : Hw} {epoch till : Nat} (hh : h.holdsLease epoch till) : h.startResync.holdsLease epoch till :=
  ⟨((Hw.startResync_within h).reg _ _ (by decide)).trans hh.1, (Hw.startResync_lease h).eq.trans hh.2⟩

theorem Hw.setState_holds {h : Hw} {epoch till : Nat} (hh : h.holdsLease epoch till) (v : Nat) :
    (h.setReg Od.pairState 0 v).holdsLease epoch till :=
  ⟨(Hw.reg_setReg_ne _ _ _ _ _ _ (by decide) (by decide) (by decide)).trans hh.1, (congrArg PairSt.leaseUntil (Hw.setReg_pair ..)).trans hh.2⟩

/-- The completions that were held go out, and the unit serves alone under its lease. -/
theorem Hw.releaseHeld_alone {h : Hw} {epoch till : Nat} (hh : h.holdsLease epoch till) :
    h.releaseHeld.reg Od.pairState = 5 ∧ h.releaseHeld.holdsLease epoch till := by
  unfold Hw.releaseHeld
  extract_lets alone units _ emptied sent
  have halone : alone.reg Od.pairState = 5 := (Hw.reg_setReg_same ..).trans (by decide)
  have hlease : alone.holdsLease epoch till := Hw.setState_holds hh 5
  clear_value alone
  have hemptied : alone.PairAlike PairSt.leaseUntil emptied := rfl
  have hst : emptied.reg Od.pairState = 5 := halone
  have hep : emptied.reg Od.pairEpoch = epoch := hlease.1
  clear_value emptied
  have hsent : emptied.Within 528384 sent := .fold (fun _ _ hx => Hw.Within.step (Hw.emit_within ..) (by decide) hx) (.refl _ _)
  have hsent' : emptied.PairAlike PairSt.leaseUntil sent :=
    .fold (fun x (u : Nat × OutUnit) => (Hw.emit_unheld x u.1 u.2).of_unheld (fun _ => rfl)) _ _
  clear_value sent
  have hend := Hw.unsyncAll_within (sent.acceptMirrors sent.pair.mirrorNext)
  have haccept := Hw.acceptMirrors_within sent sent.pair.mirrorNext
  refine ⟨?_, ?_, ?_⟩
  · rw [hend.reg _ _ (by decide), haccept.reg _ _ (by decide), hsent.reg _ _ (by decide), hst]
  · rw [hend.reg _ _ (by decide), haccept.reg _ _ (by decide), hsent.reg _ _ (by decide), hep]
  · exact (((hemptied.trans hsent').trans (Hw.acceptMirrors_lease sent _)).trans (Hw.unsyncAll_lease _)).eq.trans hlease.2

/-! ### The rows of LEASE_GRANT -/

section

variable (who : Actor) (s : State) (epoch : BitVec 32) (role : Nat) (hrole : role < 256)
  (hacc : s.hw.accepts who Od.leaseGrant 0 (BitVec.ofNat 128 (epoch.toNat + role * 2 ^ 32)).toNat)
  (hst : s.hw.reg Od.pairState ∈ [3, 4, 5, 6, 8])
include hrole hacc hst

theorem leaseGrant_fences (hff : role = 0xff) :
    Leads (.leaseGrant who (BitVec.ofNat 128 (epoch.toNat + role * 2 ^ 32))) s Hw.fencedNow := by
  obtain ⟨he, hr⟩ := leaseWord_fields epoch role hrole
  exact ⟨_, rfl, (Hw.dictWrite_leaseGrant s.hw who _ hacc).fencedNow (Hw.leaseGrant_refused s.hw who he hr hst hff)⟩

theorem leaseGrant_ignored (hle : epoch.toNat ≤ s.hw.reg Od.pairEpoch) (h12 : role = 1 ∨ role = 2) :
    Leads (.leaseGrant who (BitVec.ofNat 128 (epoch.toNat + role * 2 ^ 32))) s
      (fun h => h.reg Od.pairState = s.hw.reg Od.pairState ∧ h.reg Od.pairEpoch = s.hw.reg Od.pairEpoch) := by
  obtain ⟨he, hr⟩ := leaseWord_fields epoch role hrole
  have w := Hw.dictWrite_leaseGrant s.hw who _ hacc
  obtain ⟨h1, h2⟩ := Hw.leaseGrant_stale s.hw who he hr hst h12 hle
  exact ⟨_, rfl, (w.reg _ _ (by decide)).trans h1, (w.reg _ _ (by decide)).trans h2⟩

/-- A grant of a new epoch is followed, and at most passed on. -/
theorem leaseGrant_follows (hlt : s.hw.reg Od.pairEpoch < epoch.toNat) (h12 : role = 1 ∨ role = 2) {P : Hw → Prop}
    (hP : ∀ g : Hw, (∀ r : Reg, Od.leaseGrant ≠ r → r.sub < 256 → g.reg r = s.hw.reg r) → g.now = s.hw.now → g.boot = s.hw.boot →
      ∀ k, (g.followLease who (s.hw.reg Od.pairState) epoch.toNat role).Within 2048 k → P k) :
    Leads (.leaseGrant who (BitVec.ofNat 128 (epoch.toNat + role * 2 ^ 32))) s P := by
  obtain ⟨he, hr⟩ := leaseWord_fields epoch role hrole
  have w := Hw.dictWrite_leaseGrant s.hw who _ hacc
  rw [Hw.leaseGrant_new s.hw who he hr hst h12 hlt] at w
  exact ⟨_, rfl, hP _ (fun r => Hw.reg_grantWritten s.hw _ r) (Hw.setReg_now ..) (Hw.setReg_boot ..) _ w⟩

variable (hlt : s.hw.reg Od.pairEpoch < epoch.toNat)
include hlt

theorem leaseGrant_alone (h36 : s.hw.reg Od.pairState = 3 ∨ s.hw.reg Od.pairState = 6) (h2 : role = 2) :
    Leads (.leaseGrant who (BitVec.ofNat 128 (epoch.toNat + role * 2 ^ 32))) s (fun h => h.reg Od.pairState = 5 ∧
      h.holdsLease epoch.toNat (s.hw.now + s.hw.reg Od.pairLeaseMs * 1000000)) := by
  refine leaseGrant_follows who s epoch role hrole hacc hst hlt (.inr h2) fun g hg hnow _ k w => ?_
  have hholds := Hw.takeLease_holds g epoch.toNat role epoch.isLt
  rw [hnow, hg Od.pairLeaseMs (by decide) (by decide)] at hholds
  rw [Hw.followLease] at w
  rcases h36 with h3 | h6
  · rw [if_pos h3, if_pos h2] at w
    exact ⟨(w.reg _ _ (by decide)).trans ((Hw.reg_setReg_same ..).trans (by decide)), w.holdsLease (Hw.setState_holds hholds 5)⟩
  · rw [if_neg (by omega), if_pos h6, if_pos h2] at w
    obtain ⟨halone, hlease⟩ := Hw.releaseHeld_alone hholds
    exact ⟨(w.reg _ _ (by decide)).trans halone, w.holdsLease hlease⟩

theorem leaseGrant_active (h3 : s.hw.reg Od.pairState = 3) (h1 : role = 1) (hp : s.hw.peerReachable = true) :
    Leads (.leaseGrant who (BitVec.ofNat 128 (epoch.toNat + role * 2 ^ 32))) s (fun h => h.reg Od.pairState = 4 ∧ h.unsynced ∧
      h.holdsLease epoch.toNat (s.hw.now + s.hw.reg Od.pairLeaseMs * 1000000)) := by
  refine leaseGrant_follows who s epoch role hrole hacc hst hlt (.inl h1) fun g hg hnow hboot k w => ?_
  have hholds := Hw.takeLease_holds g epoch.toNat role epoch.isLt
  rw [hnow, hg Od.pairLeaseMs (by decide) (by decide)] at hholds
  have hpeer : g.peerReachable = true := by
    simpa only [Hw.peerReachable, Hw.pairLink, Hw.spanUp, Hw.bit, hboot, hg Od.spanState (by decide) (by decide)] using hp
  rw [Hw.followLease, if_pos h3, if_neg (by omega), if_pos hpeer] at w
  refine ⟨?_, w.unsynced (by decide) (Hw.startResync_unsynced _), w.holdsLease (Hw.startResync_holds (Hw.setState_holds hholds 4))⟩
  rw [w.reg _ _ (by decide), (Hw.startResync_within ..).reg _ _ (by decide), Hw.reg_setReg_same]
  decide

theorem leaseGrant_renews (h458 : s.hw.reg Od.pairState = 4 ∨ s.hw.reg Od.pairState = 5 ∨ s.hw.reg Od.pairState = 8)
    (h12 : role = 1 ∨ role = 2) :
    Leads (.leaseGrant who (BitVec.ofNat 128 (epoch.toNat + role * 2 ^ 32))) s (fun h => h.reg Od.pairState = s.hw.reg Od.pairState ∧
      h.holdsLease epoch.toNat (s.hw.now + s.hw.reg Od.pairLeaseMs * 1000000)) := by
  refine leaseGrant_follows who s epoch role hrole hacc hst hlt h12 fun g hg hnow _ k w => ?_
  have hholds := Hw.takeLease_holds g epoch.toNat role epoch.isLt
  rw [hnow, hg Od.pairLeaseMs (by decide) (by decide)] at hholds
  rw [Hw.followLease, if_neg (by omega), if_neg (by omega)] at w
  exact ⟨((w.reg _ _ (by decide)).trans (Hw.takeLease_state ..)).trans (hg _ (by decide) (by decide)), w.holdsLease hholds⟩

end

/-- Settles O44: formation and the session, the lease, heartbeats, the lost peer, the operators' commands, the takeover. -/
theorem pairStates : Obligations.PairStates := by
  intro who s st ep unsynced fencedNow
  refine ⟨fun hacc => ⟨form_cascade who s hacc, form_pair who s hacc⟩,
    fun key fw digest hst => ⟨pairSessionUp_waits key fw digest s hst, pairSessionUp_differs key fw digest s hst⟩, pairLinkTimeout_asks s,
    fun epoch role hrole => ?_, fun t ht => ⟨leaseRenew_asks s t ht, leaseExpiry_fences s t ht⟩, pairEpochWrite_state who s,
    heartbeatSend_sends s, fun port ps pe d n hup hp => ?_, fun c hc => ⟨fun h4 => ?_, fun h7 => ?_⟩, rejoin_standby who s,
    relinquish_fences who s, takeover_alone s⟩
  · intro v hacc hst held
    exact ⟨leaseGrant_fences who s epoch role hrole hacc hst, leaseGrant_alone who s epoch role hrole hacc hst,
      leaseGrant_active who s epoch role hrole hacc hst, leaseGrant_renews who s epoch role hrole hacc hst,
      leaseGrant_ignored who s epoch role hrole hacc hst⟩
  · have hdone := heartbeatReceive_completes port ps pe d n s hup hp
    have hreg (x : Nat) (r : Reg) : (s.hw.heard port.val x).reg r = s.hw.reg r := rfl
    refine ⟨fun hst hlt => ⟨_, hdone, Hw.heedPeer_higher _ _ ps pe d n hst hlt⟩, fun h3 hps => ⟨_, hdone, ?_⟩, fun h5 hle h7 => ⟨_, hdone, ?_⟩,
      fun h7 => ⟨_, hdone, ?_⟩⟩
    · rw [show s.hw.reg Od.pairState = 3 from h3]
      exact Hw.heedPeer_becomesStandby _ ps pe.toNat d n hps
    · rw [show s.hw.reg Od.pairState = 5 from h5, h7]
      exact Hw.heedPeer_takesStandby _ pe.toNat d n (by rw [hreg]; exact Nat.not_lt.2 hle)
    · rw [show s.hw.reg Od.pairState = 7 from h7]
      exact Hw.heedPeer_standby _ ps pe.toNat d n h7
  · exact ⟨_, losing_completes c s hc, Hw.losePeer_active _ h4⟩
  · exact ⟨_, losing_completes c s hc, Hw.losePeer_standby _ h7⟩

end Sys2Proof.Machine
end

section
/-! Concrete states that meet the hypotheses of O43 and O44, row by row, and what the statements then say of them. -/

namespace Sys2Proof.Machine

/-- A unit of a mirrored pair in state `st`, 1 s after its release: both pair links up; session 0 is an operator's. -/
def pairBlock (st : Nat) : Hw :=
  ((((({ now := 1000000000, boot := { shape := 2 }, sec := { spdm := [(0, { peer := 1, established := true })] } } : Hw).setElem
    Od.opKeys 0 0 1).setReg Od.spanState 0 3).setSpan 0 { st := .up }).setSpan 1 { st := .up }).setReg Od.pairState 0 st

/-- A block with nothing to come from its queue. -/
def idleState (h : Hw) : State := { hw := h, pending := [] }

/-! ### O43 -/

/-- A flit of kind 1 on vc2 with sequence number 0 and an empty payload of 256 bytes. -/
def firstFlit : BitVec 32 := 0x10000002

theorem flitGood_of_crc (header : BitVec 32) (payload : List Byte) (hl : payload.length = 256) (hk : flitField header 28 4 ≤ 3)
    (hv : flitField header 0 3 ≤ 4) : flitGood header payload (crc32c (bytesOf header 4 ++ payload)) = true := by
  simp [flitGood, hl, hk, hv]

/-- It is taken at a port that is up. -/
theorem upSpan_takes_firstFlit : Leads (.spanFlitReceive 0 firstFlit (List.replicate 256 0)
    (crc32c (bytesOf firstFlit 4 ++ List.replicate 256 0)) true) (idleState (pairBlock 5)) (fun h => (h.span 0).rxSeq = 0) := by
  obtain ⟨htakes, -⟩ := spansAndCascade 0 (idleState (pairBlock 5))
  have hgood := flitGood_of_crc firstFlit (List.replicate 256 0) List.length_replicate (by decide) (by decide)
  exact (htakes firstFlit _ _ true (by decide) hgood (fun _ => rfl) (by decide) (by decide)).imp (fun _ h => h.1)

/-- After two failed tags in the last ms the next one puts the port DOWN, whatever its flit. -/
theorem thirdTag_downs (header : BitVec 32) (payload : List Byte) (crc : BitVec 32) :
    Leads (.spanFlitReceive 0 header payload crc false)
      (idleState ((pairBlock 5).setSpan 0 { st := .up, tagFails := [999999998, 999999999] })) (fun h => h.spanUp 0 = false) := by
  obtain ⟨-, htag, -⟩ := spansAndCascade 0 (idleState ((pairBlock 5).setSpan 0 { st := .up, tagFails := [999999998, 999999999] }))
  exact (htag header payload crc (by decide) (by decide) (by decide)).imp (fun _ h => h.2)

/-- Silent since the release, the port retrains. -/
theorem silentSpan_retrains : Leads (.spanIdleRetrain 0) (idleState (pairBlock 5)) (fun h => (h.span 0).st = .retrain) := by
  obtain ⟨-, -, hidle, -⟩ := spansAndCascade 0 (idleState (pairBlock 5))
  exact (hidle (by decide) (by decide)).imp (fun _ h => h.1)

/-- A retrain that does not deliver brings the port up with its count kept. -/
theorem retrain_undelivered_counts : Leads (.spanRetrainDone 0 false) (idleState ((pairBlock 5).setSpan 0 { st := .retrain, retrains := 1 }))
    (fun h => (h.span 0).st = .up ∧ (h.span 0).retrains = 1) := by
  obtain ⟨-, -, -, hdone, -⟩ := spansAndCascade 0 (idleState ((pairBlock 5).setSpan 0 { st := .retrain, retrains := 1 }))
  exact (hdone false (by decide)).imp (fun _ h => ⟨h.1, h.2.2.trans (by decide)⟩)

/-- With a flit undelivered after two retrains the port goes DOWN. -/
theorem twoRetrains_down : Leads (.spanDown 0)
    (idleState ((pairBlock 5).setSpan 0 { st := .up, retrains := 2, buf := [⟨0, Fk.data, 2, []⟩] })) (fun h => (h.span 0).st = .failed) := by
  obtain ⟨-, -, -, -, hdown, -⟩ :=
    spansAndCascade 0 (idleState ((pairBlock 5).setSpan 0 { st := .up, retrains := 2, buf := [⟨0, Fk.data, 2, []⟩] }))
  exact (hdown (by decide)).imp (fun _ h => h.1)

/-- A cascade of role `role` in which SP0 trains. -/
def formingCascade (role : Nat) : Hw :=
  (({ now := 1000000000, boot := { shape := 1 } } : Hw).setReg Od.cascadeState 0 1).setReg Od.cascadeRole 0 role

/-- The digest that a peer of the same formation set publishes. -/
def sameDigest (s : State) : BitVec 384 := BitVec.ofNat 384 (sha384Nat s.hw.formationSet)

theorem sameDigest_toNat (s : State) : (sameDigest s).toNat = sha384Nat s.hw.formationSet % 2 ^ Od.formationDigest.width := by
  have hw : Od.formationDigest.width = 384 := by decide
  rw [sameDigest, BitVec.toNat_ofNat, hw]

/-- The secondary joins its master at the master's time. -/
theorem secondary_joins : Leads (.sp0Trained 65536 (sameDigest (idleState (formingCascade 2))) 5000 7) (idleState (formingCascade 2))
    (fun h => h.reg Od.cascadeState = 3 ∧ h.now = 5000) := by
  obtain ⟨-, -, -, -, -, htrained, -⟩ := spansAndCascade 0 (idleState (formingCascade 2))
  obtain ⟨hjoins, -⟩ := htrained 65536 (sameDigest (idleState (formingCascade 2))) 5000 7 (by decide)
  exact (hjoins ⟨by decide, sameDigest_toNat _⟩).imp (fun _ h => ⟨h.1, h.2.2.2 (by decide)⟩)

/-- A peer of another major version leaves it waiting for its configuration, whatever the digest. -/
theorem otherVersion_waits (digest : BitVec 384) : Leads (.sp0Trained 131072 digest 5000 7) (idleState (formingCascade 2))
    (fun h => h.reg Od.cascadeState = 2) := by
  obtain ⟨-, -, -, -, -, htrained, -⟩ := spansAndCascade 0 (idleState (formingCascade 2))
  obtain ⟨-, hwaits⟩ := htrained 131072 digest 5000 7 (by decide)
  exact (hwaits (fun c => absurd c.1 (by decide))).imp (fun _ h => h.1)

/-- SP0 untrained since the release, the master loses the secondary's stacks. -/
theorem master_losesSecondary : Leads .spanTrainTimeout (idleState (formingCascade 1)) (fun h => h.reg Od.stackState 15 = 2) := by
  obtain ⟨-, -, -, -, -, -, hlost⟩ := spansAndCascade 0 (idleState (formingCascade 1))
  exact (hlost (by decide) (by decide)).imp (fun _ h => h.2 (by decide) 7 (by decide))

/-! ### O44 -/

theorem pairBlock_accepts (st : Nat) (hst : st ∈ [2, 4]) (v : Nat) (hv : v ∈ [1, 2, 3]) :
    (pairBlock st).accepts (.session 0) Od.pairCommand 0 v := by
  have hall : ∀ st ∈ [2, 4], ∀ v ∈ [1, 2, 3], (pairBlock st).mayWrite (.session 0) Od.pairCommand 0 v = true ∧
      ((pairBlock st).fieldAt Od.pairCommand 0).isSome = true ∧ (pairBlock st).remoteCopy Od.pairCommand.index 0 = false ∧
        (pairBlock st).reg Od.dbgHalted % 4 ≠ 3 := by decide
  exact hall st hst v hv

/-- FORM starts the pair again. -/
theorem mismatchedPair_forms : Leads (.form (.session 0)) (idleState (pairBlock 2)) (fun h => h.reg Od.pairState = 1) := by
  obtain ⟨hform, -⟩ := pairStates (.session 0) (idleState (pairBlock 2))
  exact (hform (pairBlock_accepts 2 (by decide) 1 (by decide))).2 (by decide) (by decide)

/-- The session with the peer that is named, of the same formation: the unit waits for a lease. -/
theorem namedPeer_waits : Leads (.pairSessionUp 0 65536 (sameDigest (idleState (pairBlock 1)))) (idleState (pairBlock 1)) (fun h => h.reg Od.pairState = 3) := by
  obtain ⟨-, hsession, -⟩ := pairStates .firmware (idleState (pairBlock 1))
  obtain ⟨hsame, -⟩ := hsession 0 65536 (sameDigest (idleState (pairBlock 1))) (by decide)
  exact (hsame ⟨by decide, by decide, sameDigest_toNat _⟩).imp (fun _ h => h.1)

/-- No pair link since the release: it waits for a lease alone. -/
theorem linklessPair_waits : Leads .pairLinkTimeout (idleState (pairBlock 1)) (fun h => h.reg Od.pairState = 3) := by
  obtain ⟨-, -, htimeout, -⟩ := pairStates .firmware (idleState (pairBlock 1))
  exact htimeout (by decide) (by decide)

/-- The operator may write each grant used here: epoch 1, role 1 (ACTIVE), 2 (ALONE) or FFh. -/
theorem pairBlock_acceptsGrant (st role : Nat) (hst : st ∈ [3, 4, 6]) (hr : role ∈ [1, 2, 255]) :
    (pairBlock st).accepts (.session 0) Od.leaseGrant 0 (BitVec.ofNat 128 ((1 : BitVec 32).toNat + role * 2 ^ 32)).toNat := by
  have hall : ∀ st ∈ [3, 4, 6], ∀ role ∈ [1, 2, 255],
      (pairBlock st).mayWrite (.session 0) Od.leaseGrant 0 (BitVec.ofNat 128 ((1 : BitVec 32).toNat + role * 2 ^ 32)).toNat = true ∧
        ((pairBlock st).fieldAt Od.leaseGrant 0).isSome = true ∧ (pairBlock st).remoteCopy Od.leaseGrant.index 0 = false ∧
          (pairBlock st).reg Od.dbgHalted % 4 ≠ 3 := by decide
  exact hall st hst role hr

/-- A grant to serve alone, to a unit that waits, and to one that has lost its peer. -/
theorem grantAlone_serves (st : Nat) (hst : st ∈ [3, 6]) :
    Leads (.leaseGrant (.session 0) (BitVec.ofNat 128 ((1 : BitVec 32).toNat + 2 * 2 ^ 32))) (idleState (pairBlock st))
      (fun h => h.reg Od.pairState = 5 ∧ h.reg Od.pairEpoch = 1) := by
  have hin : st ∈ [3, 4, 6] := (by decide : ∀ x ∈ [3, 6], x ∈ [3, 4, 6]) st hst
  have hall : ∀ st ∈ [3, 6], (pairBlock st).reg Od.pairState ∈ [3, 4, 5, 6, 8] ∧ (pairBlock st).reg Od.pairEpoch < 1 ∧
      ((pairBlock st).reg Od.pairState = 3 ∨ (pairBlock st).reg Od.pairState = 6) := by decide
  obtain ⟨hmem, hep, h36⟩ := hall st hst
  obtain ⟨-, -, -, hgrant, -⟩ := pairStates (.session 0) (idleState (pairBlock st))
  obtain ⟨-, halone, -⟩ := hgrant 1 2 (by decide) (pairBlock_acceptsGrant st 2 hin (by decide)) hmem
  exact (halone hep h36 rfl).imp (fun _ h => ⟨h.1, h.2.1⟩)

/-- A grant to be active, to a unit that waits and whose pair links are up. -/
theorem grantActive_serves : Leads (.leaseGrant (.session 0) (BitVec.ofNat 128 ((1 : BitVec 32).toNat + 1 * 2 ^ 32))) (idleState (pairBlock 3))
    (fun h => h.reg Od.pairState = 4) := by
  obtain ⟨-, -, -, hgrant, -⟩ := pairStates (.session 0) (idleState (pairBlock 3))
  obtain ⟨-, -, hactive, -⟩ := hgrant 1 1 (by decide) (pairBlock_acceptsGrant 3 1 (by decide) (by decide)) (by decide)
  exact (hactive (by decide) (by decide) rfl (by decide)).imp (fun _ h => h.1)

/-- A refusal fences the active unit. -/
theorem refusedGrant_fences : Leads (.leaseGrant (.session 0) (BitVec.ofNat 128 ((1 : BitVec 32).toNat + 255 * 2 ^ 32))) (idleState (pairBlock 4))
    (fun h => h.reg Od.pairState = 9) := by
  obtain ⟨-, -, -, hgrant, -⟩ := pairStates (.session 0) (idleState (pairBlock 4))
  obtain ⟨hrefused, -⟩ := hgrant 1 255 (by decide) (pairBlock_acceptsGrant 4 255 (by decide) (by decide)) (by decide)
  exact (hrefused rfl).imp (fun _ h => h.1)

/-- The active unit's lease, past its end, fences it. -/
theorem expiredLease_fences : Leads .leaseExpiry (idleState { pairBlock 4 with pair.leaseUntil := some 1000000000 })
    (fun h => h.reg Od.pairState = 9) := by
  obtain ⟨-, -, -, -, hlease, -⟩ := pairStates .firmware (idleState { pairBlock 4 with pair.leaseUntil := some 1000000000 })
  exact ((hlease 1000000000 rfl).2 (by decide) (by decide)).imp (fun _ h => h.1)

/-- At half of it the next one is asked for. -/
theorem halfLease_asks : Leads .leaseRenew (idleState { pairBlock 4 with pair.leaseUntil := some 2000000000 })
    (fun h => h.timer Tm.lease 0 = 2000000000) := by
  obtain ⟨-, -, -, -, hlease, -⟩ := pairStates .firmware (idleState { pairBlock 4 with pair.leaseUntil := some 2000000000 })
  exact ((hlease 2000000000 rfl).1 (by decide) (by decide)).imp (fun _ h => h.1)

/-- A higher epoch written by the operator fences the unit that serves alone. -/
theorem higherEpoch_fences : Leads (.pairEpochWrite (.session 0) 1) (idleState (pairBlock 5)) (fun h => h.reg Od.pairState = 9) := by
  obtain ⟨-, -, -, -, -, hwrite, -⟩ := pairStates (.session 0) (idleState (pairBlock 5))
  exact (hwrite 1 (by unfold Hw.accepts; decide)).imp (fun _ h => h.2.trans (by decide))

/-- A heartbeat that is due goes out on SP1 too. -/
theorem dueHeartbeat_sent : Leads .heartbeatSend (idleState (pairBlock 4)) (fun h => (h.span 1).buf.length = 1) := by
  obtain ⟨-, -, -, -, -, -, hsend, -⟩ := pairStates .firmware (idleState (pairBlock 4))
  obtain ⟨k, hk, -, hbuf⟩ := hsend (by decide) (by decide)
  refine ⟨k, hk, ?_⟩
  beta_reduce
  rw [hbuf 1 (by decide) (by decide) (by decide) (by decide), List.length_append]
  decide

/-- Heartbeats of an active peer, of a standby and of a higher epoch, 10 ns apart in time. -/
theorem heartbeats_move (st : Nat) (hst : st ∈ [3, 5, 4]) :
    Leads (.heartbeatReceive 0 (if st = 5 then 7 else 4) (if st = 4 then 1 else 0) 10 0) (idleState (pairBlock st))
      (fun h => h.reg Od.pairState = if st = 3 then 7 else if st = 5 then 4 else 9) := by
  simp only [List.mem_cons, List.not_mem_nil, or_false] at hst
  obtain ⟨-, -, -, -, -, -, -, hbeat, -⟩ := pairStates .firmware (idleState (pairBlock st))
  rcases hst with rfl | rfl | rfl
  · obtain ⟨-, hstandby, -⟩ := hbeat 0 4 0 10 0 (by decide) (by decide)
    exact (hstandby (by decide) (.inl rfl)).imp (fun _ h => h.1)
  · obtain ⟨-, -, htakes, -⟩ := hbeat 0 7 0 10 0 (by decide) (by decide)
    exact (htakes (by decide) (by decide) rfl).imp (fun _ h => h.1)
  · obtain ⟨hhigher, -⟩ := hbeat 0 4 1 10 0 (by decide) (by decide)
    exact (hhigher (by decide) (by decide)).imp (fun _ h => h.1.1)

/-- A standby follows its master by 4 ns a heartbeat. -/
theorem standby_follows : Leads (.heartbeatReceive 0 4 0 10 0) (idleState (pairBlock 7)) (fun h => h.now = 999999996) := by
  obtain ⟨-, -, -, -, -, -, -, hbeat, -⟩ := pairStates .firmware (idleState (pairBlock 7))
  obtain ⟨-, -, -, hslave⟩ := hbeat 0 4 0 10 0 (by decide) (by decide)
  exact (hslave (by decide)).imp (fun _ h => h.2.2.trans (by decide))

/-- 40 µs without a flit, the active unit and the standby wait for the witness. -/
theorem lostPeer_waits : Leads .peerLost (idleState (pairBlock 4)) (fun h => h.reg Od.pairState = 6) ∧
    Leads .peerLost (idleState (pairBlock 7)) (fun h => h.reg Od.pairState = 8) := by
  obtain ⟨-, -, -, -, -, -, -, -, hactive, -⟩ := pairStates .firmware (idleState (pairBlock 4))
  obtain ⟨-, -, -, -, -, -, -, -, hstandby, -⟩ := pairStates .firmware (idleState (pairBlock 7))
  exact ⟨(hactive .peerLost (.inr ⟨rfl, by decide⟩)).1 (by decide),
    ((hstandby .peerLost (.inr ⟨rfl, by decide⟩)).2 (by decide)).imp (fun _ h => h.1)⟩

/-- A FENCED unit whose peer is active rejoins as its standby. -/
theorem fencedUnit_rejoins : Leads (.rejoin (.session 0)) (idleState { pairBlock 9 with pair.peerState := 4 })
    (fun h => h.reg Od.pairState = 7) := by
  obtain ⟨-, -, -, -, -, -, -, -, -, hrejoin, -⟩ := pairStates (.session 0) (idleState { pairBlock 9 with pair.peerState := 4 })
  exact (hrejoin (by unfold Hw.accepts; decide) (by decide) (.inl (by decide))).imp (fun _ h => h.1)

/-- RELINQUISH fences the active unit. -/
theorem activeUnit_relinquishes : Leads (.relinquish (.session 0)) (idleState (pairBlock 4)) (fun h => h.reg Od.pairState = 9) := by
  obtain ⟨-, -, -, -, -, -, -, -, -, -, hrel, -⟩ := pairStates (.session 0) (idleState (pairBlock 4))
  exact (hrel (pairBlock_accepts 4 (by decide) 3 (by decide)) (by decide)).imp (fun _ h => h.1)

/-- The standby that holds a takeover lease serves alone. -/
theorem leasedStandby_takesOver : Leads .takeover (idleState { pairBlock 8 with pair.leaseUntil := some 2000000000 })
    (fun h => h.reg Od.pairState = 5) := by
  obtain ⟨-, -, -, -, -, -, -, -, -, -, -, htake⟩ := pairStates .firmware (idleState { pairBlock 8 with pair.leaseUntil := some 2000000000 })
  exact (htake (by decide) rfl).imp (fun _ h => h.1)

end Sys2Proof.Machine
end

section
/-! Concrete states that meet the hypotheses of O42 and O45, row by row, and what the statements then say of them. -/

namespace Sys2Proof.Machine

/-! ### O42 -/

/-- A block with parity state `p`, 20 µs after its release; partition 0 ACTIVE. -/
def parityState (p : ParSt) : State := idleState (({ now := 20000, par := p } : Hw).setReg Od.partState 0 3)

/-- An intent on its way to slice 0 for sector 5. -/
theorem oneIntent_counts : Leads (.writeIntent 0) (parityState { intentsIn := [(0, [(3, 5)])] })
    (fun h => Table.atD h.par.intents (fun _ => 0) 5 = 1) := by
  obtain ⟨hintent, -⟩ := parityAndDegrade 0 (parityState { intentsIn := [(0, [(3, 5)])] })
  exact (hintent (3, 5) [] (by decide)).imp (fun _ h => (h.2 5).trans (by decide))

/-- Stack 1 has merged two writes of sector 0 of stack 0. -/
def twoMerged : Settle := { parityStack := 1, dataStack := 0, off := 0, merges := 2 }

/-- Of three writes counted, one is left. -/
theorem oneNotice_settles : Leads (.settleNotice 0) (parityState { intents := [(0, 3)], settles := [(0, [twoMerged])] })
    (fun h => Table.atD h.par.intents (fun _ => 0) 0 = 1) := by
  obtain ⟨-, hsettle, -⟩ := parityAndDegrade 0 (parityState { intents := [(0, 3)], settles := [(0, [twoMerged])] })
  exact (hsettle twoMerged [] (by decide)).imp (fun _ h => (h.2 0).trans (by decide))

/-- A delta of 256 bytes from stack 0 staged at stack 1. -/
def firstDelta : Delta :=
  { stripeStack := 0, dataStack := 0, parityStack := 1, off := 0, bytes := List.replicate 256 0x5a, merges := 1, cls := 0 }

/-- Its notice goes back to stack 0. -/
theorem oneDelta_notified : Leads (.parityDelta 1) (parityState { deltas := [(1, [firstDelta])] })
    (fun h => { parityStack := 1, dataStack := 0, off := 0, merges := 1 } ∈ Table.atD h.par.settles (fun _ => []) 0) := by
  obtain ⟨-, -, hdelta, -⟩ := parityAndDegrade 1 (parityState { deltas := [(1, [firstDelta])] })
  obtain ⟨k, hk, -, -, hsettles⟩ := hdelta firstDelta rfl
  refine ⟨k, hk, ?_⟩
  have hmem : ({ parityStack := 1, dataStack := 0, off := 0, merges := 1 } : Settle) ∈ Table.atD k.par.settles (fun _ => []) 0 :=
    hsettles ▸ List.mem_append_right _ List.mem_cons_self
  exact hmem

/-- Stack 0 silent for 20 µs of its degrade: sector 5, with a count of 2, is unsettled. -/
theorem silentDegrade_unsettles :
    Leads (.degradeDrainEnd 0) (parityState { intents := [(5, 2)], degrades := [{ stack := 0, part := 0, since := 0 }] })
      (fun h => h.unsettledLines 5 = 15) := by
  obtain ⟨-, -, -, hdrain, -⟩ := parityAndDegrade 0
    (parityState { intents := [(5, 2)], degrades := [{ stack := 0, part := 0, since := 0 }] })
  exact (hdrain _ rfl rfl (by decide) (by decide) (fun _ => rfl) (fun _ => rfl) (by decide)).imp
    (fun _ h => h.2.1 (5, 2) (by decide) (by decide) (by decide))

/-- Its counts collected, the degrade makes partition 0 DEGRADED. -/
theorem collectedDegrade_completes :
    Leads (.degradeComplete 0) (parityState { degrades := [{ stack := 0, part := 0, since := 0, collected := true }] })
      (fun h => h.reg Od.partState 0 = 4) := by
  obtain ⟨-, -, -, -, hcomplete, -⟩ := parityAndDegrade 0
    (parityState { degrades := [{ stack := 0, part := 0, since := 0, collected := true }] })
  have hreset (n : Nat) : odDefault (odKey Od.redState n 0) = 0 := by
    obtain ⟨f, hf, h0⟩ : ∃ f, fieldOf Od.redState = some f ∧ f.reset = 0 := ⟨_, rfl, rfl⟩
    rw [odDefault_plain hf (by decide) (by decide), h0]
  have hfree (n : Nat) : (parityState { degrades := [{ stack := 0, part := 0, since := 0, collected := true }] }).hw.reg Od.redState n = 0 :=
    (Hw.reg_setReg_ne _ _ _ _ _ _ (by decide) (by decide) (by decide)).trans (hreset n)
  exact (hcomplete _ rfl (by decide) (fun n _ => by rw [hfree]; decide) (by decide) (fun _ => rfl)).imp (fun _ h => h.1)

/-- A read of requester 0 with three columns to come, and its piece of 64 bytes on stack 0's degraded path. -/
def degradedReader : Tracker := { rq := { op := 1 }, piecesLeft := 3 }
def degradedPiece : Piece := { trk := 0, op := 1, stack := 0, off := 0, dpa := 0, len := 64 }

/-- A block with that read waiting. -/
def degradedState : State :=
  idleState { (parityState { degReads := [(0, [degradedPiece])] }).hw with req := { trackers := [(0, degradedReader)] } }

/-- Its line comes, one column is left. -/
theorem degradedPiece_delivered : Leads (.degradedRead 0) degradedState (fun h => ∃ u, h.trk 0 = some u ∧ u.piecesLeft = 1) := by
  obtain ⟨-, -, -, -, -, hread⟩ := parityAndDegrade 0 degradedState
  refine (hread degradedPiece [] degradedReader (by decide) (by decide) (by decide +kernel) (by decide)
    (fun y hy => ?_)).imp (fun _ ⟨u, hu, hleft, _⟩ => ⟨u, hu, hleft⟩)
  obtain rfl : degradedReader = y := Option.some.inj hy
  rfl

/-! ### O45 -/

/-- The standby keeps the record of a launch, and a number of contributors as it is sent. -/
theorem standby_keepsRecord : Leads (.mirrorMessage (.launchRecord 3 7 false)) (idleState (pairBlock 7))
    (fun h => h.pair.launchRecs = [(3, 7)]) := by
  obtain ⟨-, -, hrecord, -⟩ := mirrorTraffic (idleState (pairBlock 7))
  exact hrecord 3 7 (.inl (by decide))

theorem standby_storesContributors : Leads (.mirrorMessage (.dict 0x8000 2 0x0b 0 9)) (idleState (pairBlock 7))
    (fun h => h.reg Od.redContributors 2 = 9) := by
  obtain ⟨-, hdict, -⟩ := mirrorTraffic (idleState (pairBlock 7))
  obtain ⟨f, hf, hcmd⟩ : ∃ f, fieldOf Od.redContributors = some f ∧ f.cmd = false := ⟨_, rfl, rfl⟩
  exact (hdict Od.redContributors 0x8000 2 0x0b 0 9 f (.inl (by decide)) rfl hf hcmd (by decide) (by decide) (by decide)).imp
    (fun _ h => (h (by decide)).trans (by decide))

/-- A write of requester 0 on port 0, held until the standby accepts message 1. -/
def heldWrite : Hw :=
  { (pairBlock 4).setReg Od.portState 0 1 with
    req := { trackers := [(0, { rq := { op := 2 }, phase := .held })] }, pair := { mirrors := [{ seqNo := 1, kind := 0, trk := some 0 }], mirrorNext := 1 } }

/-- Accepted, its response goes out. -/
theorem heldWrite_responds : Leads (.mirrorAccepted 1) (idleState heldWrite)
    (fun h => ∃ u, h.trk 0 = some u ∧ u.phase = .responding) := by
  obtain ⟨-, -, -, haccept, -⟩ := mirrorTraffic (idleState heldWrite)
  exact (haccept 1 _ 0 _ (by decide) rfl (by decide) (by decide) rfl rfl rfl rfl (by decide) rfl (by decide) rfl).imp
    (fun _ ⟨_, _, u, hu, hphase, _⟩ => ⟨u, hu, hphase⟩)

/-- A comparison that is due sets the time of the next, whatever the peer's digest. -/
theorem dueDigest_compared (peer : BitVec 384) : Leads (.mirrorDigestCompare peer) (idleState (pairBlock 7))
    (fun h => h.timer Tm.mirrorDigest 0 = 65000000000) := by
  obtain ⟨-, -, -, -, hdigest, -⟩ := mirrorTraffic (idleState (pairBlock 7))
  exact (hdigest peer (.inr (by decide)) (by decide)).imp (fun _ h => h.1)

/-- The active unit copies partition 0, of stack 0 with 1 GiB. -/
def copyingPair : Hw :=
  { (((pairBlock 4).setReg Od.partAlloc 0 1).setReg Od.partStacks 0 1).setReg Od.stackCapacity 0 (2 ^ 30) with pair := { syncPart := some 0 } }

/-- Its first sector goes to the standby. -/
theorem copyingPair_sendsFirst : Leads .resyncSector (idleState copyingPair)
    (fun h => (∃ m, m ∈ h.pair.mirrors ∧ m.dpa = dpaOf 0 0) ∧ h.reg Od.syncHwm 0 = 256) := by
  obtain ⟨-, -, -, -, -, hresync⟩ := mirrorTraffic (idleState copyingPair)
  have hstack : (copyingPair.members 0).headD 0 = 0 := by decide
  have hfresh : copyingPair.reg Od.syncState 0 = 0 := by decide
  obtain ⟨k, hk, ⟨m, hm, -, hdpa⟩, hmark, -⟩ := hresync 0 rfl (by decide) (by decide) (by decide) (by decide)
  refine ⟨k, hk, ⟨m, hm, hdpa.trans (by decide)⟩, (hmark (by decide)).trans (by decide)⟩

end Sys2Proof.Machine
end
